-- ==== Sys2Proof/Word.lean ====
section
/-! DEFINITION. The word types of the D7 and their plainest arithmetic: widths, index types of the
numbered units (R12, R79), and bit-field reading and placing (00, Notation: `[h:l]` includes both ends). -/

namespace Sys2Proof

abbrev Byte := BitVec 8
abbrev W16 := BitVec 16
abbrev W32 := BitVec 32
abbrev W64 := BitVec 64
/-- One 256-byte line or queue entry (R144, R184). -/
abbrev Line := BitVec 2048
/-- One 512-bit bundle (R132). -/
abbrev Bundle512 := BitVec 512
/-- One 64-byte sector (R262, R265). -/
abbrev Sector := BitVec 512

/-- Core C0 to C191 (R12). -/
abbrev CoreId := Fin 192
/-- Sequencer S0 to S15 (R12). -/
abbrev SeqId := Fin 16
/-- Ward W0 to W15 (R12). -/
abbrev WardId := Fin 16
/-- Partition 0 to 15 (R79). -/
abbrev PartId := Fin 16
/-- Well 0 to 11 (R12). -/
abbrev WellId := Fin 12
/-- Pump, and Cistern quarter, 0 to 3 (R12). -/
abbrev PumpId := Fin 4
/-- Field F0 to F3 (R12). -/
abbrev FieldId := Fin 4
/-- Ilnak port P0 to P5 (R13). -/
abbrev PortId := Fin 6
/-- Axis engine X, Y, Z (R316). -/
abbrev AxisId := Fin 3
/-- Sluice 0 to 3 (R12). -/
abbrev SluiceId := Fin 4
/-- Queue end Q0 to Q31 (R144). -/
abbrev QId := Fin 32
/-- Scalar register K0 to K15, address generator AG0 to AG15, or vector register V0 to V15. -/
abbrev Reg4 := Fin 16
/-- Sync counter 0 to 31 (R174). -/
abbrev CtrId := Fin 32
/-- Virtual channel 0 to 11 of a port (R292). -/
abbrev VcId := Fin 12

/-- Bits `[lo + len - 1 : lo]` of a word, as a number. -/
def bits {n : Nat} (w : BitVec n) (lo len : Nat) : Nat := (w.extractLsb' lo len).toNat

/-- One bit of a word. -/
def bit {n : Nat} (w : BitVec n) (i : Nat) : Bool := w.getLsbD i

/-- A number placed at bit `lo` of a 64-bit register, `len` bits wide. -/
def place (v lo len : Nat) : W64 := (BitVec.ofNat 64 (v % (1 <<< len))) <<< lo

/-- A flag placed at bit `i` of a 64-bit register. -/
def placeB (b : Bool) (i : Nat) : W64 := place b.toNat i 1

/-- A count that saturates at `2^n - 1`. -/
def satAdd (n a b : Nat) : Nat := min (a + b) ((1 <<< n) - 1)

/-- The value held in a register of `n` bits (wrapping). -/
def wrapNat (n a : Nat) : Nat := a % (1 <<< n)

/-- The signed reading of a word. -/
def sgn {n : Nat} (w : BitVec n) : Int := w.toInt

/-- Little-endian bytes of a word, lowest address first (R3). -/
def leBytes (w : Nat) : Nat → List Byte
  | 0 => []
  | k + 1 => BitVec.ofNat 8 w :: leBytes (w >>> 8) k

/-- The number a list of bytes spells, lowest address first (R3). -/
def leNat : List Byte → Nat
  | [] => 0
  | b :: bs => b.toNat + (leNat bs <<< 8)

/-- Replace the entry of a bank at an index by its image under `f`. -/
def updAt {α : Type} {n : Nat} (v : Vector α n) (i : Fin n) (f : α → α) : Vector α n :=
  v.set i (f v[i])

/-- Every index of a bank of `n` units, in ascending order. -/
def allFin (n : Nat) : List (Fin n) := List.finRange n

/-- The numbers of the set bits of a mask, ascending. -/
def maskBits (m n : Nat) : List Nat := (List.range n).filter fun i => m.testBit i

/-- The mask with the given bits set. -/
def maskOf (l : List Nat) : Nat := l.foldl (fun m i => m ||| (1 <<< i)) 0

end Sys2Proof
end

