-- ==== Sys2Proof/Config.lean ====
section
/-! DEFINITION. What an implementation fixes and the manual does not publish, and the free values: opaque
constants without a body, so that no proof can see what they are (log 6, 7, 8, 9). -/

namespace Sys2Proof.Config

open Sys2Proof

/-- A free value (log 7): the manual fixes no value; `n` is the state's counter `freeCount`. -/
opaque free64 : Nat → W64

/-- SHA-384, named by R54 to R62 and not laid out in the manual (log 6). -/
opaque sha384 : List Byte → BitVec 384

/-- ECDSA over brainpoolP384r1 with SHA-384: does the signature (r then s, R59) verify under the key (97 bytes)? (log 6) -/
opaque ecdsaVerify : (key : List Byte) → (message : List Byte) → (sig : List Byte) → Bool

/-- A signature of the device identity key (R107, R126) over a message (log 6). -/
opaque identitySign : List Byte → BitVec 768

/-- AES-GCM-256 unwrapping under the exchanged key (R126): none where the wrapping is not under it (log 6). -/
opaque ideUnwrap : (exchange : W64) → List Byte → Option (List Byte)

/-- The fused hash of the vendor root key (R59). -/
opaque rootHash : BitVec 384

/-- The 16-byte chip serial (R126, R282). -/
opaque chipSerial : BitVec 128

/-- The answer to DOE IDENTITY (R126): identity key, vendor chain, fixed at manufacture. -/
opaque identityObject : List Byte

/-- The function unit's fixed mapping for a finite operand that R237 does not list (R435, log 8): which of the codes
within its bound it answers, by function number (0 VEXP2 to 6 VSIGM), format code and operand encoding. -/
opaque funcUnit : Nat → Nat → Nat → Nat

/-- The results of VABS and VNEG for the most negative INT32, which the manual does not state (log 13). -/
opaque mostNegative : W32 × W32

/-- The bias correction (R355, log 9): which of the FP32 codes within 2 ulp of `1 / (1 - beta^t)` it is. -/
opaque biasCorrection : (beta : W32) → (t : W32) → W32

/-- The gate of slot `j` of a candidate entry (R339, log 9): which of the FP32 codes within 4 ulp it is, by gate mode (0
softmax, 2 sigmoid), the values and the slot. -/
opaque sluiceGate : Nat → List W32 → Nat → W32

/-- Does the controller code return a pattern of three or more bad bytes corrected? (R265, log 12) -/
opaque correctsMany : List Nat → Bool

/-- The fixed clocked well-access hash, firmware and other contents the manual calls opaque are not modelled. The
value of a byte the manual leaves undefined after a failed item (R306, R318, R325, R337; log 7). -/
opaque freeByte : Nat → Nat → Byte

end Sys2Proof.Config
end

