-- ==== Sys2Proof/Syntax.lean ====
section
/-! DEFINITION. The commands the D7 takes, one constructor per row of spec/opcode_table.json, and the operand
types they carry. The table gives no operand, so the operands are what the rule of each row needs from outside
(log 2): an index of a unit, a register value, a packet, a measured quantity, or the STW_TIME `atNs` at which a
time-driven event falls. -/

namespace Sys2Proof

/-- The strap levels on the connector (R16). -/
structure Straps where
  modAddr : BitVec 3
  bootBare : Bool
  refclkSel : Bool
  deriving DecidableEq, Repr

/-- A temperature sensor of R25. -/
inductive Sensor where
  | die (f : FieldId) | well (w : WellId) | optic (p : PortId) | pump (p : PumpId) | cistern (k : Fin 16)
  deriving DecidableEq, Repr

/-- The interface a loader command comes from (R69). -/
inductive LoaderPort where
  | pcie | mctp
  deriving DecidableEq, Repr

/-- A control write: master identifier (R94), generation (R99), control space offset (R7), value written. -/
structure CtlWrite where
  master : Byte
  gen : W32
  offset : Nat
  value : W64
  deriving DecidableEq, Repr

/-- A sticky flags register (R244). -/
inductive FlagReg where
  | coreM (c : CoreId) | coreV (c : CoreId) | axis (a : AxisId) | well (w : WellId) | pump (p : PumpId)
  deriving DecidableEq, Repr

/-- A memory controller: a well, or the Cistern quarter of a Pump (R251). -/
inductive MemUnit where
  | well (w : WellId) | quarter (p : PumpId)
  deriving DecidableEq, Repr

/-- A PCI Express function of the host link (R114). -/
inductive PciFn where
  | pf | vf (p : PartId)
  deriving DecidableEq, Repr

/-- A BAR of a function (R114). -/
inductive Bar where
  | bar0 | bar2
  deriving DecidableEq, Repr

/-- A BAR of one function. -/
structure BarOf where
  fn : PciFn
  bar : Bar
  deriving DecidableEq, Repr

/-- How a register write comes in: a control write at the steward's arbiter, or eight bytes written to BAR0 of a function
(R94, R114). -/
inductive RegWrite where
  | control (w : CtlWrite)
  | bar0 (fn : PciFn) (offset : Nat) (value : W64)
  deriving DecidableEq, Repr

/-- What sets a BAR2 window: its base register, or a resize to `2 ^ log2` bytes (R114, R116). -/
inductive BarSet where
  | base (value : W64)
  | resize (log2 : Nat)
  deriving DecidableEq, Repr

/-- What the error code of instruction memory finds at a fetch: nothing, one bit corrected, or an uncorrectable error
(R147). -/
inductive ImemEcc where
  | ok
  | corrected
  | uncorrectable
  deriving DecidableEq, Repr

/-- A fetch of a sequencer, and what the error code finds in the bundle (R132, R147). -/
structure Fetch where
  seq : SeqId
  ecc : ImemEcc
  deriving DecidableEq, Repr

/-- One direction of an IDE stream of the host link (R126). -/
structure IdeStream where
  stream : Fin 9
  rx : Bool
  deriving DecidableEq, Repr

/-- What a link control flit tells beside its counts: the wake request, and whether it came over one lane, from a parked
port (R287, R301). -/
structure WakeBits where
  wake : Bool
  parked : Bool
  deriving DecidableEq, Repr

/-- What wakes a partition (R47); a shared request names the well or Pump it needs. -/
inductive WakeCause where
  | capsule | tick | packet | shared (u : MemUnit) | window | budget
  deriving DecidableEq, Repr

/-- The formats of R225. -/
inductive Fmt where
  | int4 | int8 | e2m1 | e3m2 | e2m3 | e4m3 | e5m2 | bf16 | fp16 | fp32 | a16 | a20 | int32 | ue8
  deriving DecidableEq, Repr

/-- The source of a read, as MEM_UE_LOG codes it (11, MEM_UE_LOG). -/
inductive ReadSource where
  | engine | patrol | add | host | remap
  deriving DecidableEq, Repr

/-- A queue operand: queue end and epoch (R136). -/
structure QOp where
  q : QId
  epoch : BitVec 4
  deriving DecidableEq, Repr

/-- The operands of a scalar slot (07, Scalar slot). -/
structure SArgs where
  d : Reg4
  a : Reg4
  b : Reg4
  f : BitVec 4
  imm : W32
  deriving DecidableEq, Repr

/-- The operands of LDQ and STQ (07, Load and store slots). -/
structure LqArgs where
  ag : Reg4
  adv : Bool
  portB : Bool
  q : QOp
  fmt : Fmt
  deriving DecidableEq, Repr

/-- The operands of LDQ2 and STQ2. -/
structure Lq2Args where
  agA : Reg4
  advA : Bool
  qA : QOp
  fmtA : Fmt
  agB : Reg4
  advB : Bool
  qB : QOp
  fmtB : Fmt
  deriving DecidableEq, Repr

/-- The operands of GET and PUT; `op` is 0 in a GET. -/
structure XferArgs where
  ka : Reg4
  kl : Reg4
  kt : Reg4
  ag : Reg4
  adv : Bool
  n : CtrId
  tc : BitVec 2
  ord : Bool
  op : BitVec 3
  deriving DecidableEq, Repr

/-- The operands of a matrix slot (08, Matrix slot). -/
structure MArgs where
  fmt : Fmt
  qa : QOp
  qb : QOp
  ag : Reg4
  adv : Bool
  dmode : BitVec 2
  scaled : Bool
  chscale : Bool
  rowscale : Bool
  index : BitVec 10
  imm : W32
  deriving DecidableEq, Repr

/-- A 12-bit vector operand (08, Vector operand). `flag` of a queue operand: keep for a source, VXB for a destination. -/
inductive VOperand where
  | queue (flag : Bool) (q : QOp)
  | vreg (r : Reg4)
  | acc (adv : Bool) (ag : Reg4)
  | kreg (r : Reg4)
  deriving DecidableEq, Repr

/-- The operands of a vector slot (08, Vector slot). -/
structure VArgs where
  fmt : Fmt
  rnd : BitVec 2
  a : VOperand
  b : VOperand
  c : VOperand
  d : VOperand
  imm : W32
  deriving DecidableEq, Repr

/-- An Ilnak packet (R288): the header fields, and the payload as bytes. `kind` is the type byte of R291. -/
structure Packet where
  dst : BitVec 15
  src : BitVec 15
  kind : Byte
  tc : BitVec 2
  ord : Bool
  repoch : Bool
  ieee : Bool
  attempt : BitVec 3
  srcPart : PartId
  dstPart : PartId
  op : BitVec 2
  poison : Bool
  psn : W32
  floor : W32
  addr : BitVec 49
  detoured : Bool
  payload : List Byte
  deriving DecidableEq, Repr

/-- What a port sees while it trains (R283, R284): the lanes with light, and what its neighbour sends. -/
structure TrainInfo where
  lanes : BitVec 16
  chip : BitVec 15
  port : BitVec 3
  digest : BitVec 384
  deriving DecidableEq, Repr

/-- The header of an MCTP message (R127). -/
structure MctpHead where
  command : Byte
  requestId : Byte
  dataLen : BitVec 16
  gen : W32
  address : W64
  deriving DecidableEq, Repr

/-- How an MCTP message reaches the device (R16, R127). -/
inductive MctpPath where
  | smbus (address : BitVec 7) | pcie
  deriving DecidableEq, Repr

/-- A message of the board management controller (R127): its path, its header, whether the reserved bytes are zero, and
its data. -/
structure MctpMsg where
  path : MctpPath
  head : MctpHead
  reservedZero : Bool
  data : List Byte
  deriving DecidableEq, Repr

/-- The energy metered in one interval, in microjoules, at the places of R106 (`fieldsRest`: what a field drew in
retention; `device`: the always-on domain and the steward), and the measured input energy. -/
structure EnergyReading where
  input : Nat
  fields : Vector Nat 4
  fieldsRest : Vector Nat 4
  wellsMove : Vector Nat 12
  wellsIdle : Vector Nat 12
  pumpsMove : Vector Nat 4
  pumpsIdle : Vector Nat 4
  portsMove : Vector Nat 6
  portsIdle : Vector Nat 6
  host : Nat
  device : Nat
  deriving DecidableEq, Repr

/-- The item that waits for a read of host memory (R113). -/
inductive HostReader where
  | transfer (id : Nat) | stage (p : PartId)
  deriving DecidableEq, Repr

/-- A wait for host memory that has ended without a completion, and STW_TIME then (R33, R113). -/
structure HostWait where
  reader : HostReader
  atNs : Nat
  deriving DecidableEq, Repr

/-- The measurements of one periodic sounding run (R426): least received power per port (tenths of a dBm), least
canary slack per field (ps), deepest fall per field (mV). -/
structure MarginReading where
  rx : Vector Int 6
  slack : Vector Int 4
  droop : Vector Nat 4
  deriving DecidableEq, Repr

/-- The commands, one per row of spec/opcode_table.json. -/
inductive Instr where
  /-- P54V_WITHIN_RANGE (R21). -/
  | p54vWithinRange
  /-- STEWARD_ROM_RESET_EXIT (R16: the strap levels sampled). -/
  | stewardRomResetExit (levels : Straps)
  /-- PWR_EN_RISE (R18). -/
  | pwrEnRise (atNs : Nat)
  /-- PWR_EN_FALL (R18). -/
  | pwrEnFall
  /-- RAILS_IN_REGULATION (R63). -/
  | railsInRegulation
  /-- PWR_BRAKE_ASSERT (R19). -/
  | pwrBrakeAssert
  /-- PWR_BRAKE_RELEASE (R19). -/
  | pwrBrakeRelease
  /-- UNDERVOLTAGE (R21: P54V in mV). -/
  | undervoltage (mv : W16)
  /-- INPUT_COLLAPSE (R389: P54V in mV). -/
  | inputCollapse (mv : W16)
  /-- LOSS_OF_P54V (R21). -/
  | lossOfP54v
  /-- THERMAL_WARNING (R17, R25: the sensor and its reading). -/
  | thermalWarning (x : Sensor) (tempC : Byte)
  /-- THERMAL_TRIP (R26). -/
  | thermalTrip (x : Sensor) (tempC : Byte)
  /-- GOVERNOR_RUN (R36: the 1 ms mean of input power). -/
  | governorRun (inputW : W16) (atNs : Nat)
  /-- FIELD_STATUS_UPDATE (R35: the field measured). -/
  | fieldStatusUpdate (f : FieldId) (junctionC : Byte) (rateMbeat : W16)
  /-- WELL_TEMP_READOUT (R257). -/
  | wellTempReadout (w : WellId) (tempC : Byte)
  /-- STW_POWER_CAP_WRITE (R38). -/
  | stwPowerCapWrite (capW : W16)
  /-- CONTROL_EPOCH_END (R103: the epoch that ends). -/
  | controlEpochEnd (n : Nat)
  /-- REGISTER_WRITE (R5, R96, R100). -/
  | registerWrite (w : RegWrite)
  /-- ABSENT_WINDOW_WRITE (R29). -/
  | absentWindowWrite (offset : Nat)
  /-- W1C_FLAG_CLEAR (R6: the ones written (ov, un, nx, nv from bit 0), and the epoch of the write). -/
  | w1cFlagClear (r : FlagReg) (mask : BitVec 4) (n : Nat)
  /-- FLAGS_CLR_COUNTS (R244: the epoch of the write). -/
  | flagsClrCounts (r : FlagReg) (n : Nat)
  /-- LULL_ENTRY (R44). -/
  | lullEntry (p : PartId) (depth : Fin 4) (atNs : Nat)
  /-- LULL3_ENTRY (R46). -/
  | lull3Entry (atNs : Nat)
  /-- WAKE_EVENT (R47). -/
  | wakeEvent (p : PartId) (cause : WakeCause)
  /-- CADENCE_PREWAKE (R49). -/
  | cadencePrewake (n : SeqId) (atNs : Nat)
  /-- LUL_WAKE_BUDGET_WRITE (R50). -/
  | lulWakeBudgetWrite (p : PartId) (budgetNs : W32)
  /-- PORT_UNPARK (R301). -/
  | portUnpark (n : PortId)
  /-- BOOT_VERIFY (R64). -/
  | bootVerify
  /-- BOOT_STRUCTURE (R63). -/
  | bootStructure
  /-- BOOT_FILL (R277: the fill of the next unit). -/
  | bootFill
  /-- FILL_COMPLETE (R277). -/
  | fillComplete
  /-- BEGIN (R70: over PCIe the data stands in the loader window). -/
  | loaderBegin (src : LoaderPort) (master : Byte) (data : List Byte)
  /-- LOADER_DATA (R70). -/
  | loaderData (src : LoaderPort) (master : Byte) (data : List Byte)
  /-- LOADER_END (R70). -/
  | loaderEnd (src : LoaderPort) (master : Byte)
  /-- LOADER_ABORT (R69). -/
  | loaderAbort (src : LoaderPort) (master : Byte)
  /-- LOADER_SESSION_TIMEOUT (R69). -/
  | loaderSessionTimeout (atNs : Nat)
  /-- SVN_COMMIT (R60). -/
  | svnCommit (src : LoaderPort) (master : Byte)
  /-- ENROLL (R62). -/
  | enroll (src : LoaderPort) (master : Byte) (data : List Byte)
  /-- REVOKE (R62). -/
  | revoke (src : LoaderPort) (master : Byte) (data : List Byte)
  /-- STAGE (R73). -/
  | stage (p : PartId)
  /-- STAGE_CHECKS (R74). -/
  | stageChecks (p : PartId)
  /-- COMMIT (R75). -/
  | commit (p : PartId)
  /-- COMMIT_FILL_DONE (R75). -/
  | commitFillDone (p : PartId)
  /-- DISCARD (R77). -/
  | discard (p : PartId)
  /-- START (R86). -/
  | start (p : PartId)
  /-- QUIESCE (R88). -/
  | quiesce (p : PartId)
  /-- QUIESCE_COMPLETE (R88). -/
  | quiesceComplete (p : PartId)
  /-- QUIESCE_TIMEOUT (R88). -/
  | quiesceTimeout (p : PartId) (atNs : Nat)
  /-- RESUME (R86). -/
  | resume (p : PartId)
  /-- STOP (R89). -/
  | stop (p : PartId)
  /-- STOP_COMPLETE (R89). -/
  | stopComplete (p : PartId)
  /-- RELEASE (R86). -/
  | release (p : PartId)
  /-- STW_PF_GEN_WRITE (R99). -/
  | stwPfGenWrite (gen : W32)
  /-- PRT_DRV_GEN_WRITE (R99). -/
  | prtDrvGenWrite (p : PartId) (gen : W32)
  /-- METER_INTERVAL (R106). -/
  | meterInterval (e : EnergyReading)
  /-- USAGE_RECORD_PERIODIC (R108). -/
  | usageRecordPeriodic (p : PartId) (atNs : Nat)
  /-- SNAP (R108). -/
  | snap (p : PartId)
  /-- PCIE_LINK_TRAIN (R112: the width the link trains to). -/
  | pcieLinkTrain (width : Nat) (atNs : Nat)
  /-- PERST_ASSERT (R129). -/
  | perstAssert
  /-- PERST_RELEASE (R20). -/
  | perstRelease (atNs : Nat)
  /-- HOT_RESET (R128). -/
  | hotReset
  /-- PF_FLR (R128). -/
  | pfFlr
  /-- VF_FLR (R91). -/
  | vfFlr (p : PartId)
  /-- STEWARD_WATCHDOG_EXPIRY (R389). -/
  | stewardWatchdogExpiry (checkpoint : W64)
  /-- BAR2_READ (R116). -/
  | bar2Read (x : BarOf) (offset : Nat) (len : Nat)
  /-- BAR2_WRITE (R113). -/
  | bar2Write (fn : PciFn) (offset : Nat) (data : List Byte) (poisoned : Bool)
  /-- BAR2_BASE_WRITE (R116). -/
  | bar2BaseWrite (fn : PciFn) (x : BarSet)
  /-- HOST_READ_TIMEOUT (R113). -/
  | hostReadTimeout (x : HostWait)
  /-- CAPSULE_HEADER_WRITE (R117: the window offset and the bytes written). -/
  | capsuleHeaderWrite (p : PartId) (offset : Nat) (data : List Byte)
  /-- HELD_RECORD_FLUSH (R124). -/
  | heldRecordFlush (p : PartId)
  /-- PRT_CQ_CTRL_WRITE (R123). -/
  | prtCqCtrlWrite (p : PartId) (value : W64)
  /-- COALESCE_TIMER_EXPIRY (R434). -/
  | coalesceTimerExpiry (p : PartId) (atNs : Nat)
  /-- CAPSULE_NOP (R116, 05 capsule kinds). -/
  | capsuleNop (p : PartId)
  /-- PROGRAM_LOAD (R151). -/
  | programLoad (p : PartId)
  /-- PROGRAM_START (R152). -/
  | programStart (p : PartId)
  /-- TRANSFER (R172). -/
  | transfer (p : PartId)
  /-- IDENTITY (R126). -/
  | identity
  /-- MEASURE (R126). -/
  | measure (nonce : List Byte)
  /-- KEY_EXCHANGE (R126). -/
  | keyExchange (pub : List Byte)
  /-- IDE_KEY_SET (R126). -/
  | ideKeySet (x : IdeStream) (wrapped : List Byte)
  /-- MCTP_REG_READ (R127). -/
  | mctpRegRead (m : MctpMsg)
  /-- MCTP_REG_WRITE (R127). -/
  | mctpRegWrite (m : MctpMsg)
  /-- MCTP_LOADER (R127). -/
  | mctpLoader (m : MctpMsg)
  /-- ALMANAC_READ (R432). -/
  | almanacRead (m : MctpMsg)
  /-- MCTP_DOE (R127). -/
  | mctpDoe (m : MctpMsg)
  /-- SEQUENCER_FETCH (R132, R147). -/
  | sequencerFetch (x : Fetch)
  /-- BUNDLE_ISSUE (R137). -/
  | bundleIssue (c : CoreId)
  /-- FAULT_COLLECT (R150). -/
  | faultCollect (p : PartId)
  /-- OPERATION_RESULT_WRITE (R139). -/
  | operationResultWrite (c : CoreId)
  /-- PROGRAM_HALT_COMPLETE (R153). -/
  | programHaltComplete (n : SeqId)
  /-- CROSS_CORE_MOVE (R143: the core and queue end whose pop side is XCO). -/
  | crossCoreMove (c : CoreId) (q : QId)
  /-- SEQ_REGION_WRITE (R135). -/
  | seqRegionWrite (n : SeqId) (split : BitVec 13)
  /-- SCALAR_NOP (R159). -/
  | scalarNop (c : CoreId)
  /-- MOVI (R159). -/
  | movi (c : CoreId) (x : SArgs)
  /-- MOVHI (R159). -/
  | movhi (c : CoreId) (x : SArgs)
  /-- ADD (R159). -/
  | add (c : CoreId) (x : SArgs)
  /-- SUB (R159). -/
  | sub (c : CoreId) (x : SArgs)
  /-- AND (R159). -/
  | and (c : CoreId) (x : SArgs)
  /-- OR (R159). -/
  | or (c : CoreId) (x : SArgs)
  /-- XOR (R159). -/
  | xor (c : CoreId) (x : SArgs)
  /-- SHL (R159). -/
  | shl (c : CoreId) (x : SArgs)
  /-- SHR (R159). -/
  | shr (c : CoreId) (x : SArgs)
  /-- SAR (R159). -/
  | sar (c : CoreId) (x : SArgs)
  /-- MUL (R159). -/
  | mul (c : CoreId) (x : SArgs)
  /-- AGSET (R160). -/
  | agset (c : CoreId) (x : SArgs)
  /-- AGRST (R160). -/
  | agrst (c : CoreId) (x : SArgs)
  /-- AGGET (R159). -/
  | agget (c : CoreId) (x : SArgs)
  /-- RDBEATS (R159). -/
  | rdbeats (c : CoreId) (x : SArgs)
  /-- RDTIME (R159). -/
  | rdtime (c : CoreId) (x : SArgs)
  /-- XRING (R167). -/
  | xring (c : CoreId) (x : SArgs)
  /-- XFREE (R168). -/
  | xfree (c : CoreId) (x : SArgs)
  /-- LOAD_NOP (R162). -/
  | loadNop (c : CoreId)
  /-- STORE_NOP (R162). -/
  | storeNop (c : CoreId)
  /-- LDQ (R162). -/
  | ldq (c : CoreId) (x : LqArgs)
  /-- LDQ2 (R162). -/
  | ldq2 (c : CoreId) (x : Lq2Args)
  /-- GET (R166). -/
  | get (c : CoreId) (x : XferArgs)
  /-- STQ (R162). -/
  | stq (c : CoreId) (x : LqArgs)
  /-- STQ2 (R162). -/
  | stq2 (c : CoreId) (x : Lq2Args)
  /-- PUT (R166). -/
  | put (c : CoreId) (x : XferArgs)
  /-- TRANSFER_COMPLETE (R169: the model's number of the transfer). -/
  | transferComplete (id : Nat)
  /-- SYNC_NONE (R174). -/
  | syncNone (c : CoreId)
  /-- CSET (R174). -/
  | cset (c : CoreId) (n : CtrId) (imm : W32)
  /-- CADD (R174). -/
  | cadd (c : CoreId) (n : CtrId) (imm : W32)
  /-- WAITC (R173). -/
  | waitc (c : CoreId) (n : CtrId) (imm : W32)
  /-- WAITQP (R174). -/
  | waitqp (c : CoreId) (q : QId) (k : BitVec 4)
  /-- WAITQR (R174). -/
  | waitqr (c : CoreId) (q : QId) (k : BitVec 4)
  /-- WAIT_RELEASE (R173). -/
  | waitRelease (c : CoreId)
  /-- BARRIER (R176). -/
  | barrier (c : CoreId) (id : BitVec 4) (mask : W16)
  /-- BARRIER_RELEASE (R176: a core that waits at the barrier). -/
  | barrierRelease (c : CoreId)
  /-- SIGNAL (R174). -/
  | signal (c : CoreId) (kd : Reg4) (kt : Reg4) (n : CtrId)
  /-- RAISE (R174). -/
  | raise (c : CoreId) (v : BitVec 6)
  /-- PROGRAM_LIMIT_EXPIRY (R180). -/
  | programLimitExpiry (p : PartId) (atNs : Nat)
  /-- CADENCE_ARM (R181: the epoch in which the write arrives). -/
  | cadenceArm (n : SeqId) (periodNs : W32) (entry : BitVec 12) (epoch : Nat)
  /-- CADENCE_DISARM (R181). -/
  | cadenceDisarm (n : SeqId)
  /-- CADENCE_TICK (R182). -/
  | cadenceTick (n : SeqId) (atNs : Nat)
  /-- MATRIX_NOP (R186). -/
  | matrixNop (c : CoreId)
  /-- MCFG (R214). -/
  | mcfg (c : CoreId) (imm : W32)
  /-- MSEED (R217). -/
  | mseed (c : CoreId) (imm : W32)
  /-- MLOADW (R188). -/
  | mloadw (c : CoreId) (x : MArgs)
  /-- MLOADS (R192). -/
  | mloads (c : CoreId) (x : MArgs)
  /-- MSWAP (R207). -/
  | mswap (c : CoreId)
  /-- MMUL (R206). -/
  | mmul (c : CoreId) (x : MArgs)
  /-- MMULT (R208). -/
  | mmult (c : CoreId) (x : MArgs)
  /-- MEW (R209). -/
  | mew (c : CoreId) (x : MArgs)
  /-- MFLUSH (R215). -/
  | mflush (c : CoreId)
  /-- MATRIX_DRAIN (R212). -/
  | matrixDrain (c : CoreId)
  /-- VECTOR_NOP (R195). -/
  | vectorNop (c : CoreId)
  /-- VMOV (R195). -/
  | vmov (c : CoreId) (x : VArgs)
  /-- VADD (R195). -/
  | vadd (c : CoreId) (x : VArgs)
  /-- VSUB (R195). -/
  | vsub (c : CoreId) (x : VArgs)
  /-- VMUL (R195). -/
  | vmul (c : CoreId) (x : VArgs)
  /-- VFMA (R195). -/
  | vfma (c : CoreId) (x : VArgs)
  /-- VMIN (R195). -/
  | vmin (c : CoreId) (x : VArgs)
  /-- VMAX (R195). -/
  | vmax (c : CoreId) (x : VArgs)
  /-- VABS (R195). -/
  | vabs (c : CoreId) (x : VArgs)
  /-- VNEG (R195). -/
  | vneg (c : CoreId) (x : VArgs)
  /-- VCMP (R195). -/
  | vcmp (c : CoreId) (x : VArgs)
  /-- VSEL (R195). -/
  | vsel (c : CoreId) (x : VArgs)
  /-- VAND (R195). -/
  | vand (c : CoreId) (x : VArgs)
  /-- VOR (R195). -/
  | vor (c : CoreId) (x : VArgs)
  /-- VXOR (R195). -/
  | vxor (c : CoreId) (x : VArgs)
  /-- VSHL (R195). -/
  | vshl (c : CoreId) (x : VArgs)
  /-- VSHR (R195). -/
  | vshr (c : CoreId) (x : VArgs)
  /-- VEXP2 (R435). -/
  | vexp2 (c : CoreId) (x : VArgs)
  /-- VLOG2 (R435). -/
  | vlog2 (c : CoreId) (x : VArgs)
  /-- VRCP (R435). -/
  | vrcp (c : CoreId) (x : VArgs)
  /-- VRSQRT (R435). -/
  | vrsqrt (c : CoreId) (x : VArgs)
  /-- VSQRT (R435). -/
  | vsqrt (c : CoreId) (x : VArgs)
  /-- VTANH (R435). -/
  | vtanh (c : CoreId) (x : VArgs)
  /-- VSIGM (R435). -/
  | vsigm (c : CoreId) (x : VArgs)
  /-- CVT (R197). -/
  | cvt (c : CoreId) (x : VArgs)
  /-- QUANT (R198). -/
  | quant (c : CoreId) (x : VArgs)
  /-- AMAX (R199). -/
  | amax (c : CoreId) (x : VArgs)
  /-- AMAXRD (R199). -/
  | amaxrd (c : CoreId) (x : VArgs)
  /-- RSUM (R200). -/
  | rsum (c : CoreId) (x : VArgs)
  /-- RMAX (R200). -/
  | rmax (c : CoreId) (x : VArgs)
  /-- TOPK (R201). -/
  | topk (c : CoreId) (x : VArgs)
  /-- VUPDM (R202). -/
  | vupdm (c : CoreId) (x : VArgs)
  /-- VUPDV (R202). -/
  | vupdv (c : CoreId) (x : VArgs)
  /-- VUPDW (R202). -/
  | vupdw (c : CoreId) (x : VArgs)
  /-- VCOEF (R202). -/
  | vcoef (c : CoreId) (x : VArgs)
  /-- VGATE (R202). -/
  | vgate (c : CoreId) (x : VArgs)
  /-- VSTORM_COUNT (R203). -/
  | vstormCount (c : CoreId) (x : VArgs)
  /-- VSTORM_LOSS (R203). -/
  | vstormLoss (c : CoreId) (x : VArgs)
  /-- VSTORM_CLOSE (R203). -/
  | vstormClose (c : CoreId) (x : VArgs)
  /-- VSEED (R230). -/
  | vseed (c : CoreId) (imm : W32)
  /-- STORM_REPORT_ARRIVAL (R376: the core whose oldest report arrives). -/
  | stormReportArrival (c : CoreId)
  /-- STORM_CLOSE_ARRIVAL (R374: the core whose CLOSE arrives). -/
  | stormCloseArrival (c : CoreId)
  /-- VERDICT_DELIVERY (R375). -/
  | verdictDelivery (p : PartId)
  /-- REOPEN (R384). -/
  | reopen (p : PartId)
  /-- PROTECT (R384). -/
  | protect (p : PartId)
  /-- SET_AVERAGES (R384). -/
  | setAverages (p : PartId)
  /-- WELL_READ (R266: stack-local sector address, codeword bits found in error beyond those stored, on-die corrections reported). -/
  | wellRead (w : WellId) (sector : Nat) (src : ReadSource) (errs : List Nat) (onDie : Nat)
  /-- WELL_WRITE (R269). -/
  | wellWrite (w : WellId) (sector : Nat) (data : Sector) (poison : Bool)
  /-- MEMORY_SIDE_ADD (R263). -/
  | memorySideAdd (w : WellId) (sector : Nat) (op : BitVec 2) (data : Sector) (poison : Bool) (ieee : Bool)
  /-- PATROL_READ (R270: codeword bits found in error). -/
  | patrolRead (u : MemUnit) (errs : List Nat)
  /-- REMAP_ADD (R271). -/
  | remapAdd (u : MemUnit) (sector : Nat)
  /-- REMAP_CLEAR (R272). -/
  | remapClear (u : MemUnit)
  /-- QUARANTINE_ADD (R275). -/
  | quarantineAdd (u : MemUnit) (page : Nat)
  /-- QUARANTINE_REMOVE (R275). -/
  | quarantineRemove (u : MemUnit) (page : Nat)
  /-- FLIP_ARM (R273: the value written to MEM_FLIP_CTRL). -/
  | flipArm (u : MemUnit) (value : W64) (atNs : Nat)
  /-- FLIP_ARM_EXPIRY (R273). -/
  | flipArmExpiry (u : MemUnit) (atNs : Nat)
  /-- TAKE_OUT (R401). -/
  | takeOut (u : MemUnit)
  /-- UNIT_RETURN (R401). -/
  | unitReturn (u : MemUnit)
  /-- UNIT_RETURN_COMPLETE (R401). -/
  | unitReturnComplete (u : MemUnit) (ok : Bool)
  /-- WELL_DEAD (R398). -/
  | wellDead (w : WellId)
  /-- PUMP_DEAD (R399). -/
  | pumpDead (p : PumpId)
  /-- FIELD_RAIL_FAULT (R400). -/
  | fieldRailFault (f : FieldId)
  /-- AXIS_ENGINE_DEAD (R331). -/
  | axisEngineDead (a : AxisId)
  /-- SLUICE_DEAD (R350). -/
  | sluiceDead (n : SluiceId)
  /-- LINK_TRAINING (R283). -/
  | linkTraining (n : PortId) (info : TrainInfo) (atNs : Nat)
  /-- LANE_LOSS (R284: the lanes that failed). -/
  | laneLoss (n : PortId) (bad : BitVec 16)
  /-- LOSS_OF_LIGHT (R309). -/
  | lossOfLight (n : PortId)
  /-- HEARTBEAT_TIMER (R309). -/
  | heartbeatTimer (n : PortId) (atNs : Nat)
  /-- HEARTBEAT_MISS_LIMIT (R309). -/
  | heartbeatMissLimit (n : PortId) (atNs : Nat)
  /-- PORT_DISABLE (R309). -/
  | portDisable (n : PortId) (disable : Bool)
  /-- PROBATION_PASS (R407). -/
  | probationPass (n : PortId) (atNs : Nat)
  /-- VC_IDLE_TIMEOUT (R310). -/
  | vcIdleTimeout (n : PortId) (v : VcId)
  /-- BLOCK_RECEIVE (R285: length of the error burst, 0 for none). -/
  | blockReceive (n : PortId) (burst : Nat) (sideband : W16)
  /-- LINK_CONTROL_FLIT (R287, R301). -/
  | linkControlFlit (n : PortId) (sent : Vector (BitVec 12) 12) (freed : Vector (BitVec 12) 12) (bits : WakeBits)
  /-- ABORT_FLIT (R287). -/
  | abortFlit (n : PortId) (v : VcId)
  /-- PACKET_FORWARD (R298: arrival port and channel, the packet, the CRC its header carries). -/
  | packetForward (n : PortId) (v : VcId) (k : Packet) (hcrc : W16)
  /-- TC0_INJECT (R296). -/
  | tc0Inject (n : PortId) (atNs : Nat)
  /-- WRITE_PACKET (R302: arrival port, the packet, the CRC-64 its trailer carries). -/
  | writePacket (n : PortId) (k : Packet) (trailer : W64)
  /-- READ_REQ (R304: arrival port, the packet, the CRC-64 its trailer carries). -/
  | readReq (n : PortId) (k : Packet) (trailer : W64)
  /-- READ_DATA (R291: arrival port, the packet, the CRC-64 its trailer carries). -/
  | readData (n : PortId) (k : Packet) (trailer : W64)
  /-- SIGNAL_PACKET (R175: arrival port, the packet, the CRC-64 its trailer carries). -/
  | signalPacket (n : PortId) (k : Packet) (trailer : W64)
  /-- ORDERED_PACKET_RELEASE (R303). -/
  | orderedPacketRelease (src : BitVec 15) (tc : BitVec 2)
  /-- ACK_SEND (R304: the stream). -/
  | ackSend (src : BitVec 15) (tc : BitVec 2)
  /-- ACK (R304). -/
  | ack (n : PortId) (k : Packet) (trailer : W64)
  /-- NAK (R304). -/
  | nak (n : PortId) (k : Packet) (trailer : W64)
  /-- RESEND_TIMER (R305). -/
  | resendTimer (dst : BitVec 15) (tc : BitVec 2) (psn : W32) (atNs : Nat)
  /-- HEARTBEAT (R309). -/
  | heartbeat (n : PortId) (k : Packet) (trailer : W64)
  /-- FM_CONTROL_SEND (R311). -/
  | fmControlSend
  /-- CONTROL_PACKET (R311). -/
  | controlPacket (n : PortId) (k : Packet) (trailer : W64)
  /-- CONTROL_REPLY (R311). -/
  | controlReply (n : PortId) (k : Packet) (trailer : W64)
  /-- FM_INJECT_FENCE (R402). -/
  | fmInjectFence
  /-- FM_INJECT_EPOCH_MARK (R408). -/
  | fmInjectEpochMark
  /-- FENCE (R403). -/
  | fence (n : PortId) (k : Packet) (trailer : W64)
  /-- READMIT (R405). -/
  | readmit (n : PortId) (k : Packet) (trailer : W64)
  /-- READMIT_APPLY (R405). -/
  | readmitApply (chip : BitVec 15) (atNs : Nat)
  /-- EPOCH_MARK (R408). -/
  | epochMark (n : PortId) (k : Packet) (trailer : W64)
  /-- ROUTING_TABLE_WRITE (R409). -/
  | routingTableWrite (epoch : Bool) (chip : BitVec 15) (mask : Byte)
  /-- REDUCE_SCATTER (R323). -/
  | reduceScatter (p : PartId)
  /-- ALL_GATHER (R323). -/
  | allGather (p : PartId)
  /-- ALL_REDUCE (R323). -/
  | allReduce (p : PartId)
  /-- BROADCAST (R323). -/
  | broadcast (p : PartId)
  /-- ALL_TO_ALL (R324). -/
  | allToAll (p : PartId)
  /-- COLLECTIVE_BARRIER (R320). -/
  | collectiveBarrier (p : PartId)
  /-- ATOMIC (R328). -/
  | atomic (p : PartId)
  /-- JOIN_START (R319). -/
  | joinStart (a : AxisId) (p : PartId) (collId : W32)
  /-- JOIN (R319). -/
  | join (n : PortId) (k : Packet) (trailer : W64)
  /-- JOIN_TIMEOUT (R319). -/
  | joinTimeout (a : AxisId) (p : PartId) (collId : W32) (atNs : Nat)
  /-- COLLECTIVE_DATA (R325). -/
  | collectiveData (n : PortId) (k : Packet) (trailer : W64)
  /-- COLLECTIVE_ABANDON (R327). -/
  | collectiveAbandon (n : PortId) (k : Packet) (trailer : W64)
  /-- ATOMIC_PACKET (R328). -/
  | atomicPacket (n : PortId) (k : Packet) (trailer : W64)
  /-- PLACE (R334). -/
  | place (p : PartId)
  /-- LAYER (R336). -/
  | layer (p : PartId)
  /-- SLUICE_SEND_TRIGGER (R338). -/
  | sluiceSendTrigger (n : SluiceId) (layerId : W32)
  /-- DISPATCH (R341). -/
  | dispatch (n : PortId) (k : Packet) (trailer : W64)
  /-- REFUSE (R341). -/
  | refuse (n : PortId) (k : Packet) (trailer : W64)
  /-- TOKEN_END (R344). -/
  | tokenEnd (n : PortId) (k : Packet) (trailer : W64)
  /-- SLUICE_RETURN_TRIGGER (R345). -/
  | sluiceReturnTrigger (n : SluiceId) (layerId : W32)
  /-- TOKEN_RETURN (R345). -/
  | tokenReturn (n : PortId) (k : Packet) (trailer : W64)
  /-- TOKEN_ABANDON (R349). -/
  | tokenAbandon (n : PortId) (k : Packet) (trailer : W64)
  /-- SLUICE_LIMIT_EXPIRY (R349). -/
  | sluiceLimitExpiry (n : SluiceId) (layerId : W32) (atNs : Nat)
  /-- GROUP_TABLE_WRITE (R358). -/
  | groupTableWrite (p : PartId)
  /-- GROUP_TABLE_READ (R358). -/
  | groupTableRead (p : PartId)
  /-- FREEZE (R358). -/
  | freeze (p : PartId)
  /-- THAW (R358). -/
  | thaw (p : PartId)
  /-- CLEAR_TORN (R358). -/
  | clearTorn (p : PartId)
  /-- UPDATE (R359). -/
  | update (p : PartId)
  /-- CLAIM (R370). -/
  | claim (p : PartId)
  /-- SETTLE (R371). -/
  | settle (p : PartId)
  /-- PUMP_TRIGGER (R364: the model's number of the command). -/
  | pumpTrigger (p : PartId) (cmd : Nat)
  /-- SWEEP_START (R363). -/
  | sweepStart (u : PumpId)
  /-- SWEEP_BLOCK_DONE (R365). -/
  | sweepBlockDone (u : PumpId)
  /-- PUMP_LIMIT_EXPIRY (R363). -/
  | pumpLimitExpiry (p : PartId) (cmd : Nat) (atNs : Nat)
  /-- PUMP_RESET (R368). -/
  | pumpReset (u : PumpId)
  /-- NEXT_RECORD (R397). -/
  | nextRecord (p : PartId)
  /-- NEXT_WORD (R397). -/
  | nextWord (p : PartId)
  /-- BAROMETER_EVALUATION (R415). -/
  | barometerEvaluation (atNs : Nat)
  /-- BRM_CFG_WRITE (R418). -/
  | brmCfgWrite (value : W64)
  /-- RX_POWER (R421). -/
  | rxPower (n : PortId)
  /-- CANARY (R421). -/
  | canary (f : FieldId)
  /-- DROOP (R421). -/
  | droop (f : FieldId)
  /-- LINK_PROBE (R421, R425: the port, and the pattern seed of the probe). -/
  | linkProbe (n : PortId) (seed : W32)
  /-- EYE_SCAN (R423). -/
  | eyeScan (n : PortId) (lane : BitVec 8)
  /-- WELL_MARGIN (R421). -/
  | wellMargin (w : WellId)
  /-- CIS_MARGIN (R421). -/
  | cisMargin (u : PumpId)
  /-- SOUNDING_COMPLETE (R424: the sounding that ends, and what it measured). -/
  | soundingComplete (kind : Byte) (target : Byte) (results : Vector W64 4)
  /-- MARGIN_SOUNDING_RUN (R426). -/
  | marginSoundingRun (m : MarginReading)
  /-- PROBE (R425). -/
  | probe (n : PortId) (k : Packet) (trailer : W64)
  /-- ECHO (R425). -/
  | echo (n : PortId) (k : Packet) (trailer : W64)
  /-- ALMANAC_WRITE (R430). -/
  | almanacWrite
  /-- UNDERVOLTAGE_CLEAR (R21). -/
  | undervoltageClear
  /-- WELL_INTERFACE_RETRAIN (R398: whether the retrain succeeded). -/
  | wellInterfaceRetrain (w : WellId) (ok : Bool)
  /-- PUMP_LINK_RETRAIN (R399: whether the retrain succeeded). -/
  | pumpLinkRetrain (u : PumpId) (ok : Bool)
  /-- PUMP_RESET_COMPLETE (R368). -/
  | pumpResetComplete (u : PumpId)
  /-- LOADER_COMMAND_END (R70). -/
  | loaderCommandEnd
  /-- OLD_LOCKED_CLEAR (R409). -/
  | oldLockedClear (atNs : Nat)
  /-- HOST_ERROR_COMPLETION (R113). -/
  | hostErrorCompletion (r : HostReader)
  deriving DecidableEq, Repr

end Sys2Proof
end

