-- ==== Sys2Proof/Machine/State.lean ====
section
/-! DEFINITION. The state of one D7 module as plain data: every register, queue, buffer, counter, mode and pin of
the spec, and the queue of waiting commands. Field defaults are the reset values; a default to which the spec gives
no reset value is named in log 3. INVENTORY.md lists each piece of state with the rule that names it. -/

namespace Sys2Proof.Machine

/-- No command of this model stops with a fault: the D7 reports errors through outcome codes, poison and flags (R8,
R146, R243), so the type has no constructor. -/
inductive Fault where
  deriving DecidableEq, Repr

/-- Why a command is refused by the model. -/
inductive Refusal where
  /-- Raised by an arm of Dispatch.lean for a command without a meaning; safe. No arm raises it. -/
  | notModelled (mnemonic : String)
  deriving DecidableEq, Repr

/-- A byte memory in canonical form: addresses strictly rising, no entry equal to the value of an unlisted one. -/
abbrev Memory := List Host.Cell

/-- A sparse table in the same canonical form. -/
abbrev Sparse (α : Type) := List (Nat × α)

/-- The outcome codes of R9. -/
inductive OutcomeCode where
  | done | failedLink | failedFenced | failedPoison | failedTimeout | failedCapacity | refusedOwner | refusedState
  | refusedAbsent | refusedStep | skippedFrozen | abortedReset | failedSchedule | gated
  deriving DecidableEq, Repr

/-- A completion record (05, Completion record; R391), without the phase bit, which its slot gives. `axis` is the engine
that counts the record once written (AXE_PARTp), `done` the core and counter raised after that (R326, R348, R356). -/
structure Record where
  tag : W64
  step : W32 := 0
  outcome : OutcomeCode
  engine : Byte
  partition : PartId
  detail0 : W64 := 0
  incident : W32 := 0
  map : Bool := false
  orphan : Bool := false
  causes : BitVec 7 := 0
  axis : Option AxisId := none
  sluice : Option SluiceId := none
  done : Option (CoreId × CtrId) := none
  deriving DecidableEq, Repr

/-! ### Power, pins, fields (01, 02) -/

/-- The state of the 54 V input (R21, R389). -/
inductive Supply where
  | absent | inRange | undervolt | collapsed
  deriving DecidableEq, Repr

/-- Pins, rails, sensors and the governor: `commonMv` is its common setting, `govAt` the STW_TIME of its last run (R36);
`opticC` and `pumpC` are the last readings of R25 that no register shows. -/
structure Power where
  supply : Supply := .absent
  alwaysOn : Bool := false
  pwrEn : Bool := false
  pwrEnAt : Nat := 0
  perst : Bool := true
  brake : Bool := false
  straps : Straps := ⟨0, false, false⟩
  strapsSampled : Bool := false
  railFields : Vector Bool 4 := Vector.replicate 4 false
  railWells : Bool := false
  railCistern : Bool := false
  railOptics : Bool := false
  warnSensors : List Sensor := []
  thermWarn : Bool := false
  thermTrip : Bool := false
  modFault : Bool := false
  capW : W16 := 2000
  brakeCapW : W16 := 1000
  inputW : W16 := 0
  undervoltage : Bool := false
  atLimit : BitVec 4 := 0
  govAt : Nat := 0
  commonMv : Nat := 650
  opticC : Vector Byte 6 := Vector.replicate 6 0
  pumpC : Vector Byte 4 := Vector.replicate 4 0
  deriving DecidableEq, Repr

/-- One field's supply, beat monitor and rest state (R35, R36, R42, R400). -/
structure Field where
  junctionC : Byte := 0
  limiter : BitVec 4 := 0
  rateMbeat : W16 := 0
  railMv : W16 := 0
  beats : W64 := 0
  retained : Bool := false
  failed : Bool := false
  deriving DecidableEq, Repr

/-! ### Fuses and images (01, 03, 04, 10, 11, 12, 16) -/

/-- State of an owner key slot (R61). -/
inductive KeyState where
  | empty | enrolled | revoked
  deriving DecidableEq, Repr

structure KeySlot where
  state : KeyState := .empty
  hash : BitVec 384 := 0
  deriving DecidableEq, Repr

/-- One-time fuses: the fuse map, the thermometer code of the minimum svn, the owner key slots (R1, R60, R61). -/
structure Fuses where
  map : W64 := 0x000001001FF0FFFF
  minSvn : Nat := 0
  keys : Vector KeySlot 4 := Vector.replicate 4 {}
  deriving DecidableEq, Repr

/-- The envelope of a partition slot (R83). -/
structure Envelope where
  defined : Bool := false
  wardFollow : Bool := false
  sluiceFollow : Bool := false
  keyMask : Nat := 0
  minSvn : Nat := 0
  wardMask : Nat := 0
  sluiceMask : Nat := 0
  pumpMask : Nat := 0
  wellMask : Nat := 0
  maxShare : Nat := 0
  maxGroups : Nat := 0
  maxWellW : Vector Nat 12 := Vector.replicate 12 0
  maxPumpW : Vector Nat 4 := Vector.replicate 4 0
  maxCis : Vector Nat 4 := Vector.replicate 4 0
  maxAxis : Vector Nat 3 := Vector.replicate 3 0
  maxPort : Vector Nat 18 := Vector.replicate 18 0
  deriving DecidableEq, Repr

/-- The fields of a format defaults section, storm gate policy included (R246, R378); 0xFF and 0xFFFF are unset. -/
structure FmtSection where
  ovmode : Nat := 0xFF
  cvtRound : Nat := 0xFF
  chunk : Nat := 0xFF
  sr : Nat := 0xFF
  enable : Nat := 0xFF
  nfAction : Nat := 0xFF
  spikeAction : Nat := 0xFF
  mismatchAction : Nat := 0xFF
  kMean : Nat := 0xFF
  kDev : Nat := 0xFF
  mQuarters : Nat := 0xFF
  warmup : Nat := 0xFFFF
  deriving DecidableEq, Repr

/-- The fabric section (R312, R313) with the chip number of R282 and the digest of R283. -/
structure FabricCfg where
  chip : BitVec 15 := 0
  dims : Vector Nat 3 := Vector.replicate 3 0
  roles : Vector Nat 3 := Vector.replicate 3 0
  hbPeriodUs : Nat := 8
  missLimit : Nat := 10
  probationMs : Nat := 50
  tc0Permille : Nat := 50
  classWeight : Vector Nat 3 := Vector.replicate 3 1
  reserve : Vector Nat 12 := Vector.replicate 12 16
  pair : Vector PartId 16 := Vector.ofFn fun i => i
  gateways : List Nat := []
  digest : BitVec 384 := 0
  deriving DecidableEq, Repr

/-- What a device image fixes (03, What each section fixes). -/
structure DeviceImage where
  svn : Nat := 0
  buildId : W64 := 0
  measure : BitVec 384 := 0
  powerCap : Nat := 0
  brakeCap : Nat := 0
  seqWards : Vector Nat 16 := Vector.replicate 16 0
  owner : Vector Byte 128 := Vector.replicate 128 0
  envelopes : Vector Envelope 16 := Vector.replicate 16 {}
  topo : Sparse W64 := []
  patrolHours : Nat := 1
  wellWeight : Vector Nat 12 := Vector.replicate 12 1
  pumpWeight : Vector Nat 4 := Vector.replicate 4 1
  cisLimit : Vector Nat 4 := Vector.replicate 4 64
  fmt : FmtSection := {}
  fabric : FabricCfg := {}
  route0 : Sparse Byte := []
  deriving DecidableEq, Repr

/-- What a partition image fixes (R84, R255, R142, R246). `driver` is the sequencer of each ward, resolved. -/
structure PartImage where
  svn : Nat := 0
  buildId : W64 := 0
  measure : BitVec 384 := 0
  wardMask : Nat := 0
  driver : Vector Nat 16 := Vector.replicate 16 0xFF
  sluiceMask : Nat := 0
  groupCount : Vector Nat 4 := Vector.replicate 4 0
  axisWeight : Vector Nat 3 := Vector.replicate 3 0
  portShare : Vector Nat 18 := Vector.replicate 18 0
  wellMask : Nat := 0
  share2g : Nat := 0
  exclMask : Nat := 0
  base2g : Vector Nat 12 := Vector.replicate 12 0
  weight : Vector Nat 12 := Vector.replicate 12 0
  cap : Vector Nat 12 := Vector.replicate 12 0
  pumpWeight : Vector Nat 4 := Vector.replicate 4 0
  cisA : Vector Nat 4 := Vector.replicate 4 0
  cisZ : Vector Nat 4 := Vector.replicate 4 0
  topo : Sparse W64 := []
  fmt : FmtSection := {}
  deriving DecidableEq, Repr

/-! ### Steward: boot, loader, Almanac, control writes (03, 04, 17, 18) -/

/-- Boot states (R63). -/
inductive BootState where
  | bare | verify | structure_ | fill | ready
  deriving DecidableEq, Repr

structure Boot where
  state : BootState := .bare
  bareCause : BitVec 4 := 0
  rejectReason : Byte := 0
  failSection : Byte := 0
  fillPermille : Nat := 0
  infoSvn : Nat := 0
  infoMinSvn : Nat := 0
  infoLayout : Nat := 0
  infoBuild : W64 := 0
  infoMeasure : BitVec 384 := 0
  railsUp : Bool := false
  coresFilled : Bool := false
  deriving DecidableEq, Repr

/-- Loader commands (03, STW_LOADER_CTRL). -/
inductive LoaderCmd where
  | begin_ | data | end_ | abort | svnCommit | enroll | revoke
  deriving DecidableEq, Repr

/-- A loader command that runs: what its end will report. -/
structure LoaderRun where
  cmd : LoaderCmd
  outcome : OutcomeCode
  reason : Byte
  deriving DecidableEq, Repr

structure Loader where
  chunkLen : BitVec 20 := 0
  cmd : BitVec 3 := 0
  rejectReason : Byte := 0
  outcome : Byte := 0
  session : Option LoaderPort := none
  bytesWritten : Nat := 0
  nonce : W64 := 0
  window : Memory := []
  slot : Memory := []
  slotValid : Bool := false
  header : List Byte := []
  erased : Bool := false
  lastCmdNs : Nat := 0
  run : Option LoaderRun := none
  endedSinceStraps : Bool := false
  endedSinceBare : Bool := false
  deriving DecidableEq, Repr

/-- An Almanac record (R428), without its crc, which its bytes give. -/
structure AlmRecord where
  powerCycles : W32
  firstS : BitVec 40
  lastS : BitVec 40
  rep : W16 := 0
  code : W16
  unit : Byte
  partition : Byte
  severity : Byte
  incident : W32
  seq : W32
  detail : BitVec 224
  deriving DecidableEq, Repr

structure Almanac where
  slots : Sparse AlmRecord := []
  last : Option AlmRecord := none
  toFlash : List AlmRecord := []
  nextSeq : W32 := 0
  folds : W32 := 0
  cycles : W32 := 0
  opNs : Nat := 0
  deriving DecidableEq, Repr

/-- A reply to the board management controller (R127): the message's header, the outcome and any data. -/
structure Reply where
  head : MctpHead
  outcome : OutcomeCode
  data : List Byte := []
  deriving DecidableEq, Repr

/-- Where a control message is answered: at a gateway, by its index, under a request_id (R311); or over MCTP (R127). -/
inductive ReplyTo where
  | gateway (k : Nat) (id : W32)
  | mctp (h : MctpHead)
  deriving DecidableEq, Repr

/-- A control write waiting for the end of its epoch (R102), the message that carried it, if any, and, for a STOP that
the device itself applies, its stop cause (R180, R380). -/
structure PendingWrite where
  w : CtlWrite
  epoch : Nat
  reply : Option ReplyTo := none
  stop : Option Byte := none
  deriving DecidableEq, Repr

/-- The control arbiter and the reports of R97; `fences` holds taken fences not yet applied, with their epoch (R402). -/
structure Control where
  recordedGen : Sparse W32 := []
  pfGen : W32 := 0
  refusalOffset : W32 := 0
  refusalOutcome : Byte := 0
  refusalMaster : Byte := 0
  refusalStale : Bool := false
  refusalCount : W64 := 0
  writes : List PendingWrite := []
  fences : List (Nat × BitVec 15) := []
  replies : List Reply := []
  incident : W32 := 0
  faultSource : Byte := 0
  halted : Bool := false
  deriving DecidableEq, Repr

/-! ### Sticky flags (10) -/

/-- The conditions of R243. -/
structure NFlags where
  nv : Bool := false
  nx : Bool := false
  un : Bool := false
  ov : Bool := false
  deriving DecidableEq, Repr

/-- A change of a flags register by the device: its control epoch, the flags it set, the counts it raised by one. -/
structure FlagChange where
  epoch : Nat
  set : NFlags
  counted : NFlags
  deriving DecidableEq, Repr

/-- A flags register (R244). `recent` holds the device's changes of the epochs not yet closed, for R6. -/
structure Flags where
  cur : NFlags := {}
  nvEvents : Nat := 0
  ovEvents : Nat := 0
  unEvents : Nat := 0
  recent : List FlagChange := []
  deriving DecidableEq, Repr

/-! ### Cores (06 to 10) -/

/-- A queue entry (R144): 256 bytes and a tag. -/
structure Entry where
  data : Line
  epoch : BitVec 4
  fmt : BitVec 4
  poison : Bool := false
  void : Bool := false
  deriving DecidableEq, Repr

/-- A queue end (R143, R144): its entries, oldest first, and its committed topology (QTP_). -/
structure QueueEnd where
  entries : List Entry := []
  topo : W64 := 0
  deriving DecidableEq, Repr

/-- An address generator (R160). -/
structure Agen where
  base : BitVec 22 := 0
  stride1 : BitVec 23 := 0
  count1 : W16 := 0
  stride2 : BitVec 23 := 0
  count2 : W16 := 0
  cur : BitVec 22 := 0
  row : BitVec 22 := 0
  i : Nat := 0
  j : Nat := 0
  deriving DecidableEq, Repr

/-- A sync counter and its fail count (R174, R169). -/
structure Counter where
  count : W32 := 0
  fail : W16 := 0
  deriving DecidableEq, Repr

/-- The transfer record ring of a core (R167). -/
structure Ring where
  head : Nat := 0
  tail : Nat := 0
  sizeLog2 : Nat := 0
  baseLine : BitVec 14 := 0
  deriving DecidableEq, Repr

/-- A register line with its poison bit (R194). -/
structure VReg where
  data : Line := 0
  poison : Bool := false
  deriving DecidableEq, Repr

/-- The verdict a core keeps (R203). -/
structure Verdict where
  step : W32
  isOpen : Bool
  deriving DecidableEq, Repr

/-- An exact value (10): a NaN, an infinity, or `± mant * 2^exp`. -/
inductive FVal where
  | nan
  | inf (neg : Bool)
  | num (neg : Bool) (mant : Nat) (exp : Int)
  deriving DecidableEq, Repr

/-- A partial sum in the array (R211, R222, R238): the finite sum and the special values carried beside it. -/
structure RunVal where
  fin : FVal := .num false 0 0
  isNan : Bool := false
  isNv : Bool := false
  posInf : Bool := false
  negInf : Bool := false
  deriving DecidableEq, Repr

/-- The pending run of one accumulator row (R191): products counted, and one partial sum per output. -/
structure PendRow where
  count : Nat
  vals : List RunVal
  poison : Bool := false
  deriving DecidableEq, Repr

/-- A stationary tile (R188): entries not listed are zero. -/
structure Tile where
  entries : Sparse Line := []
  poisoned : List Nat := []
  fmt : Option Fmt := none
  scales : Vector Line 8 := Vector.replicate 8 0
  scalePoison : Vector Bool 8 := Vector.replicate 8 false
  deriving DecidableEq, Repr

/-- The accumulation configuration (R191), ovmode resolved. -/
structure MCfg where
  ovmode : BitVec 2 := 1
  sr : Bool := false
  chunk : BitVec 4 := 3
  accMode : BitVec 2 := 0
  deriving DecidableEq, Repr

/-- The drain of one vector (R206): everything latched in the array at issue. `pieces` holds, per output, the sums
of the 16 aligned groups of 8 reduction indices (R211); integer sums stand in `ints`. -/
structure Drain where
  row : Nat
  dmode : BitVec 2
  q : QOp
  cfg : MCfg
  isInt : Bool
  pieces : List (List RunVal)
  ints : List Int
  chscale : Option (List W32)
  rowscale : Option W32
  poison : Bool
  outs : Nat
  deriving DecidableEq, Repr

/-- A result of an operation in flight (R139). -/
inductive Result where
  | kreg (d : Reg4) (v : W64)
  | agset (d : Reg4) (f : BitVec 4) (v : W64)
  | agrst (d : Reg4)
  | ring (base : BitVec 14) (k : Nat)
  | ringFree (n : Nat)
  | push (q : QOp) (fmt : Fmt) (data : Line) (poison : Bool)
  | memLine (addr : Nat) (data : Line) (poison : Bool)
  | vreg (r : Reg4) (data : Line) (poison : Bool)
  | accLine (addr : Nat) (data : Line) (poison : Bool)
  | cset (n : CtrId) (v : W32)
  | cadd (n : CtrId) (v : W32)
  | tileEntry (i : Nat) (data : Line) (poison : Bool)
  | scalePart (i : Nat) (data : Line) (poison : Bool)
  | mswap
  | mcfg (v : MCfg)
  | mseed (v : W32)
  | vseed (v : W32)
  | drain1 (d : Drain)
  | drain2 (d : Drain) (c : List W32)
  | push2 (q : QOp) (fmt : Fmt) (data : Line) (poison : Bool)
  | flushTake
  | flushAdd (rows : Sparse PendRow) (cfg : MCfg)
  | mnote (fl : NFlags)
  | amax (fmt : Fmt) (data : Line) (poison : Bool)
  | coef (i : Fin 4) (data : Line) (poison : Bool)
  | updFlag (b : Bool)
  deriving DecidableEq, Repr

/-- An operation in flight: the beat its result is due in, its place among the results of one beat, and the bundle
that issued it. The issue beat and the slot name the operation; `free` is its first free value (log 7). -/
structure Flight where
  due : Nat
  beat : Nat
  free : Nat
  rank : Nat
  res : Result
  seqIdx : BitVec 12
  issue : BitVec 48
  slot : Nat
  deriving DecidableEq, Repr

/-- What a core waits for (R173, R176). -/
inductive Wait where
  | counter (n : CtrId) (v : W32)
  | qPop (q : QId) (k : Nat)
  | qRoom (q : QId) (k : Nat)
  | barrier (id : BitVec 4) (mask : W16) (m : Nat) (released : Bool)
  deriving DecidableEq, Repr

/-- A VSTORM report on its way to storm watch (R203). -/
inductive StormReport where
  | count (step : W32) (n : Nat)
  | loss (step : W32) (v : W32)
  | close (step : W32) (n : CtrId)
  deriving DecidableEq, Repr

/-- The matrix engine. `counted` holds, per operation in flight by its issue beat, the conditions already counted for
it (R244). -/
structure CoreMatrix where
  cfg : MCfg := {}
  seed : W32 := 1
  lfsr : Vector W32 256 := Vector.ofFn fun i =>
    let v : W32 := 1#32 ^^^ BitVec.ofNat 32 (i.val * 0x10000)
    if v = 0 then 1 else v
  active : Tile := {}
  shadow : Tile := {}
  heldUntil : Nat := 0
  rowHeld : Sparse Nat := []
  rowScale : VReg := {}
  rowPtr : Nat := 0
  actScale : VReg := {}
  actPtr : Nat := 0
  pend : Sparse PendRow := []
  counted : Sparse NFlags := []
  flags : Flags := {}
  deriving DecidableEq, Repr

structure CoreVector where
  regs : Vector VReg 16 := Vector.replicate 16 {}
  dataAsm : VReg := {}
  scaleAsm : VReg := {}
  laneMax : Line := 0
  nanCount : W32 := 0
  infCount : W32 := 0
  statPoison : Bool := false
  lfsr : Vector W32 64 := Vector.ofFn fun i =>
    let v : W32 := 1#32 ^^^ BitVec.ofNat 32 (i.val * 0x10000)
    if v = 0 then 1 else v
  funcUntil : Nat := 0
  topkUntil : Nat := 0
  zeroRange : Nat := 0
  topkNan : Nat := 0
  coefs : Vector VReg 4 := Vector.replicate 4 {}
  updFlag : Bool := false
  verdict : Option Verdict := none
  storms : List StormReport := []
  flags : Flags := {}
  deriving DecidableEq, Repr

/-- `grace` is the beat at which the core stops after a fault of its partition (R149); `drains` tells that the core runs
empty beats for its results in flight, after HALT or its own fault (R31, R148). -/
structure Core where
  fifo : List (Bundle512 × BitVec 48) := []
  grace : Option Nat := none
  drains : Bool := false
  beats : Nat := 0
  curSeq : BitVec 12 := 0
  curIssue : BitVec 48 := 0
  faultWord : W64 := 0
  halted : Bool := false
  waiting : Option Wait := none
  k : Vector W64 16 := Vector.replicate 16 0
  ag : Vector Agen 16 := Vector.replicate 16 {}
  queues : Vector QueueEnd 32 := Vector.replicate 32 {}
  mem : Memory := []
  memPoison : List Nat := []
  acc : Memory := []
  accPoison : List Nat := []
  inflight : List Flight := []
  ring : Ring := {}
  sync : Vector Counter 32 := Vector.replicate 32 {}
  barriers : Vector Nat 16 := Vector.replicate 16 0
  raised : List (BitVec 48) := []
  mx : CoreMatrix := {}
  vx : CoreVector := {}
  ovmode : BitVec 2 := 0
  cvtRound : BitVec 2 := 0
  deriving DecidableEq, Repr

/-! ### Sequencers (06, 07) -/

inductive SeqState where
  | idle | running | halting | faulted | unattached
  deriving DecidableEq, Repr

/-- An active loop (R177): first and last bundle of the body, passes left after this one. -/
structure Loop where
  first : Nat
  last : Nat
  left : Nat
  deriving DecidableEq, Repr

structure Sequencer where
  state : SeqState := .unattached
  pc : Nat := 0
  wardMask : Nat := 0
  region : Bool := false
  split : Nat := 4096
  issueCount : Nat := 0
  peekIndex : Nat := 0
  imem : Sparse Bundle512 := []
  args : Vector W64 3 := Vector.replicate 3 0
  loops : List Loop := []
  item : Option Nat := none
  haltSeq : BitVec 12 := 0
  fault0 : W64 := 0
  fault1 : BitVec 48 := 0
  fault2 : W64 := 0
  periodNs : W32 := 0
  entry : BitVec 12 := 0
  arm : Bool := false
  missed : Nat := 0
  tickLow : W32 := 0
  cadArg : W64 := 0
  cadTag : W64 := 0
  tArm : Nat := 0
  tickK : Nat := 0
  deriving DecidableEq, Repr

/-- A program item (R150, R152): one PROGRAM_START or one cadence run. -/
structure Program where
  id : Nat
  part : PartId
  tag : W64
  step : W32 := 0
  seqs : List SeqId
  region : Bool
  limitAt : Option Nat := none
  raiseV0 : Bool := false
  deriving DecidableEq, Repr

/-! ### Items that move data (07, 13) -/

/-- What issued a transfer: the engine codes of R169 and R172. -/
inductive XferKind where
  | get | put | signal | capsule
  deriving DecidableEq, Repr

/-- A transfer in flight until its record is written (R170). `src` and `dst` are global addresses (R165), or host
bus addresses where flagged; `ringAt` is the core memory address of the reserved ring slot; `sent` and `settled` count
packets; `outcome` is decided once an event or a refusal has ended the item; `hostAt` is the STW_TIME at which its read of
host memory began (R113). -/
structure Xfer where
  id : Nat
  kind : XferKind
  part : PartId
  tag : W64
  core : CoreId := 0
  ringAt : Nat := 0
  ringPhase : Bool := true
  ctr : CtrId := 0
  seqIdx : BitVec 12 := 0
  src : W64
  dst : W64
  srcHost : Bool := false
  dstHost : Bool := false
  length : Nat
  op : BitVec 2 := 0
  tc : BitVec 2 := 0
  ord : Bool := false
  ieee : Bool := false
  remote : Bool := false
  sent : Nat := 0
  settled : Nat := 0
  delivered : Nat := 0
  outcome : Option OutcomeCode := none
  causes : BitVec 7 := 0
  incident : W32 := 0
  step : W32 := 0
  raiseV0 : Bool := false
  hostAt : Nat := 0
  deriving DecidableEq, Repr

/-- A taken capsule (R117, R119): header fields and body copied to the steward. -/
structure Capsule where
  seq : W32
  kind : Nat
  target : Nat
  flags : Byte
  tag : W64
  step : W32
  params : List Byte
  body : List Byte
  takenAt : Nat := 0
  bad : Option Nat := none
  deriving DecidableEq, Repr

/-! ### Partitions (03, 04, 05, 17) -/

inductive PartState where
  | empty | staged | committed | running | quiesced | stopped
  deriving DecidableEq, Repr

/-- Image registers of a partition (03) and the image held; `readAt` is the STW_TIME at which STAGE's read began. -/
structure PImage where
  addr : BitVec 52 := 0
  length : BitVec 23 := 0
  cmd : BitVec 2 := 0
  busy : Option (BitVec 2) := none
  reason : Byte := 0
  outcome : Byte := 0
  lastCmd : BitVec 3 := 0
  fillPermille : Nat := 0
  build : W64 := 0
  measure : BitVec 384 := 0
  bytes : Memory := []
  readAt : Nat := 0
  img : PartImage := {}
  deriving DecidableEq, Repr

/-- Run control (04). `stopping` is a pending stop: its cause, and whether a STOP
command made it (R89); `releasing` is a RELEASE that waits for held usage records (R109). -/
structure PRun where
  cmd : BitVec 3 := 0
  outcome : Byte := 0
  lastCmd : BitVec 3 := 0
  stopCause : Byte := 0
  quiesceLimit : W32 := 100000
  quiescing : Option Nat := none
  stopping : Option (Byte × Bool) := none
  releasing : Bool := false
  drvGen : W32 := 0
  refOffset : W32 := 0
  refOutcome : Byte := 0
  refMaster : Byte := 0
  refCount : Nat := 0
  refStale : Bool := false
  interlude : Bool := false
  deriving DecidableEq, Repr

/-- The completion ring of a partition (05). -/
structure PCq where
  base : BitVec 52 := 0
  coalesceNs : W16 := 0
  coalesceCount : Byte := 1
  ringLog2 : BitVec 4 := 0
  enable : Bool := false
  head : Nat := 0
  tail : BitVec 21 := 0
  phase : Bool := true
  sinceRaise : Nat := 0
  firstAt : Option Nat := none
  held : List (Record × Bool) := []
  waiting : List (Record × Bool) := []
  deriving DecidableEq, Repr

/-- Capsule intake of a partition (05), and BAR2 of its function. -/
structure PCaps where
  expected : W32 := 1
  takenSeq : W32 := 0
  ignored : Nat := 0
  lastTaken : Vector W32 32 := Vector.replicate 32 0
  window : Memory := []
  queue : List Capsule := []
  bar2Base : BitVec 49 := 0
  bar2Log2 : Nat := 36
  deriving DecidableEq, Repr

/-- Orphan records of a partition with their map words (R396, R397). -/
structure POrphan where
  records : List (Record × List W64) := []
  deriving DecidableEq, Repr

/-- Resolved format defaults of a partition (R247). -/
structure PFmt where
  ovmode : BitVec 2 := 0
  cvtRound : BitVec 2 := 0
  sr : Bool := false
  chunk : BitVec 4 := 0
  deriving DecidableEq, Repr

/-- A usage record (04), counters taken at one instant. -/
structure UsageRecord where
  partition : Nat
  reason : Nat
  partState : Nat
  recordSeq : Nat
  powerCycles : W32
  chip : BitVec 15
  skipped : Bool
  tCommit : Nat
  tRecord : Nat
  buildId : W64
  counters : Vector Nat 14
  deriving DecidableEq, Repr

/-- Metering of a partition (R104, R108). -/
structure PMeter where
  counters : Vector Nat 14 := Vector.replicate 14 0
  metered : Bool := false
  base : BitVec 52 := 0
  periodMs : W32 := 1000
  ringLog2 : BitVec 4 := 0
  enable : Bool := false
  head : Nat := 0
  tail : BitVec 20 := 0
  nextSeq : Nat := 1
  skipped : Bool := false
  tCommit : Nat := 0
  lastPeriodic : Nat := 0
  held : List UsageRecord := []
  deriving DecidableEq, Repr

/-- Lull state of a partition (02). `depth` is the depth reached under R44; 0 is Lull-0. -/
structure PLull where
  budget : W32 := 20
  reached : Nat := 0
  idleSince : Nat := 0
  residency : Vector Nat 4 := Vector.replicate 4 0
  deriving DecidableEq, Repr

/-- Faults of a partition on their way to the collector and collected (R150). -/
structure PFault where
  transit : List (Nat × SeqId × W64 × BitVec 48 × W64) := []
  first : Option (SeqId × W64) := none
  count : Nat := 0
  deriving DecidableEq, Repr

/-- An entry of the group table (R352). -/
structure Group where
  valid : Bool := false
  frozen : Bool := false
  privileged : Bool := false
  torn : Bool := false
  mixed : Bool := false
  busy : Bool := false
  curve : Bool := false
  pump : Nat := 0
  gradFmt : Nat := 0
  workFmt : Nat := 0
  step : W32 := 0
  count : Nat := 0
  stateOff : W64 := 0
  workOff : W64 := 0
  gradOff : W64 := 0
  sweepMark : W32 := 0
  tornStep : W32 := 0
  curveOff : W64 := 0
  coef : Vector W32 16 := Vector.replicate 16 0
  deriving DecidableEq, Repr

/-- The operations of a PUMP capsule (R359). -/
inductive PumpOp where
  | update | claim | settle
  deriving DecidableEq, Repr

/-- Where a group of a PUMP command stands: waiting for its trigger, for its verdict, being swept, or ended. -/
inductive GroupStage where
  | untriggered | verdict | sweep
  | ended (o : OutcomeCode) (code : Nat) (params : Nat)
  deriving DecidableEq, Repr

/-- A PUMP command (R359, R360) with the stage of each of its groups. -/
structure PumpCmd where
  id : Nat
  op : PumpOp
  resume : Bool
  tag : W64
  t : W32
  first : Nat
  count : Nat
  gScale : W32
  recOff : W64
  clearOff : W64
  trigCore : Nat
  trigCtr : Nat
  trigVal : W32
  doneCore : Nat
  doneCtr : Nat
  limitAt : Nat
  fired : Bool := false
  bound : Option Bool := none
  stages : List GroupStage
  raiseV0 : Bool := false
  recorded : List Nat := []
  deriving DecidableEq, Repr

/-- A CLAIM outcome kept for SETTLE (R371). -/
structure ClaimNote where
  group : Nat
  t : W32
  outcome : OutcomeCode
  deriving DecidableEq, Repr

/-- One entry of the verdict history (16, STM_HIST). -/
structure HistEntry where
  step : W32 := 0
  valid : Bool := false
  isOpen : Bool := false
  latched : Bool := false
  mixed : Bool := false
  spike : Bool := false
  nonfinite : Bool := false
  deriving DecidableEq, Repr

/-- The resolved storm gate policy (R378). -/
structure Policy where
  enable : Bool := false
  nfAction : Nat := 0
  spikeAction : Nat := 0
  mismatchAction : Nat := 0
  kMean : Nat := 0
  kDev : Nat := 0
  mQuarters : Nat := 0
  warmup : Nat := 0
  deriving DecidableEq, Repr

/-- Storm watch of a partition (16). `closes` holds the cores whose CLOSE has arrived with the counter each named;
`deliver` is a formed verdict that has not yet reached cores and Pumps. -/
structure Storm where
  curStep : W32 := 0
  histHead : Nat := 0
  latchCause : Nat := 0
  latched : Bool := false
  mixed : Bool := false
  isOpen : Bool := false
  nonfinite : Nat := 0
  lossReports : Nat := 0
  finiteLoss : Bool := false
  mixedReports : Nat := 0
  lossSum : W32 := 0
  mean : W32 := 0
  dev : W32 := 0
  folded : W32 := 0
  policy : Policy := {}
  hist : Vector HistEntry 16 := Vector.replicate 16 {}
  prot : Vector (W64 × W64) 8 := Vector.replicate 8 (0, 0)
  closing : Option (List CoreId) := none
  closes : List (CoreId × CtrId) := []
  firstCtr : CtrId := 0
  attempt : Bool := false
  deliver : List (Verdict × List (CoreId × CtrId) × CtrId) := []
  deriving DecidableEq, Repr

structure Partition where
  state : PartState := .empty
  im : PImage := {}
  run : PRun := {}
  cq : PCq := {}
  caps : PCaps := {}
  orphan : POrphan := {}
  fmt : PFmt := {}
  meter : PMeter := {}
  lull : PLull := {}
  fault : PFault := {}
  groups : Sparse Group := []
  cmds : List PumpCmd := []
  claims : List ClaimNote := []
  storm : Storm := {}
  deriving DecidableEq, Repr

/-! ### Memory controllers (11, 17) -/

inductive UnitState where
  | filling | active | selfRefresh | out | dead
  deriving DecidableEq, Repr

/-- An entry of the UE log (11). -/
structure UeEntry where
  source : ReadSource
  partition : Nat
  sector : Nat
  deriving DecidableEq, Repr

/-- A well controller, or a Pump's memory side: contents, markers, stored error bits, and its registers. `flipEpoch`
is the control epoch in which the flip mask last fired (R6). -/
structure MemCtl where
  data : Memory := []
  marker : List Nat := []
  errs : Sparse (List Nat) := []
  state : UnitState := .filling
  tempC : Byte := 0
  rate : Nat := 0
  refresh2x : Bool := false
  ceCtrl : Nat := 0
  ceOnDie : Nat := 0
  ue : Nat := 0
  remap : List (Nat × Bool) := []
  remapOutcome : Byte := 0
  remapSector : BitVec 32 := 0
  remapCmd : BitVec 2 := 0
  flipB : BitVec 10 := 0x3FF
  flipA : BitVec 10 := 0
  flipSector : BitVec 32 := 0
  flipFired : Bool := false
  flipEpoch : Nat := 0
  flipArm : Bool := false
  flipAt : Nat := 0
  flipPart : Option PartId := none
  log : Vector (Option UeEntry) 16 := Vector.replicate 16 none
  logHead : Nat := 0
  logWrapped : Bool := false
  qtn : List Nat := []
  qtnOutcome : Byte := 0
  qtnPage : BitVec 22 := 0
  qtnCmd : BitVec 2 := 0
  svcOutcome : Byte := 0
  svcCmd : BitVec 2 := 0
  svcRunning : Bool := false
  waits : Vector Nat 17 := Vector.replicate 17 0
  corrected : List Nat := []
  patrolPos : Nat := 0
  retrains : Nat := 0
  flags : Flags := {}
  deriving DecidableEq, Repr

/-- A mismatch log entry (15). -/
structure Mismatch where
  torn : Bool
  partition : PartId
  group : Nat
  carried : W32
  stored : W32
  deriving DecidableEq, Repr

/-- The sweep a Pump runs (R365), with the row evaluated for it (R355) and the flags its blocks have set (R244). -/
structure Sweep where
  part : PartId
  group : Nat
  cmd : Nat
  t : W32
  block : Nat
  row : List Nat := []
  flags : NFlags := {}
  deriving DecidableEq, Repr

/-- A Pump: its memory side, its sweep order and its update registers (15). -/
structure Pump where
  mem : MemCtl := {}
  idle : Bool := false
  order : List (PartId × Nat × Nat) := []
  sweep : Option Sweep := none
  lastGroup : Nat := 0
  lastPart : PartId := 0
  lastBlock : Nat := 0
  log : Vector (Option Mismatch) 16 := Vector.replicate 16 none
  logHead : Nat := 0
  logWrapped : Bool := false
  resetting : Bool := false
  deriving DecidableEq, Repr

/-! ### Fabric (12, 17) -/

inductive PortState where
  | down | training | probation | admitted
  deriving DecidableEq, Repr

/-- A virtual channel of a port (R286, R287): flits sent and freed, flits received and freed, a packet in progress. -/
structure Vc where
  sent : BitVec 12 := 0
  freed : BitVec 12 := 0
  recv : BitVec 12 := 0
  recvFreed : BitVec 12 := 0
  inProgress : Bool := false
  onward : Option (PortId × VcId) := none
  deriving DecidableEq, Repr

/-- A packet at an output, some of whose flits have still to go (R295): its channel, where it came in (none for a packet
of this chip), and the flits left. -/
structure HeldPkt where
  vc : VcId
  pkt : Packet
  via : Option (PortId × VcId) := none
  left : Nat
  deriving DecidableEq, Repr

/-- The arbiter of an output (R295): flits served of TC1 to TC3, whether the last packet of each was one of this chip,
and the flits served of each class and partition (16 a class) among the packets of this chip. -/
structure Arb where
  served : Vector Nat 3 := Vector.replicate 3 0
  fromHere : Vector Bool 3 := Vector.replicate 3 false
  parts : Vector Nat 48 := Vector.replicate 48 0
  deriving DecidableEq, Repr

/-- A port. `tokens` counts fortieths of a byte of its TC0 regulator (R296); `wire` holds the packets it has sent. -/
structure Port where
  state : PortState := .down
  cause : Byte := 0
  laneMask : BitVec 16 := 0
  parked : Bool := false
  nbrParked : Bool := false
  fecLost : Nat := 0
  hdrDrops : Nat := 0
  routeDrops : Nat := 0
  e2e : Nat := 0
  fecCorr : W64 := 0
  nbrChip : BitVec 15 := 0
  nbrPort : BitVec 3 := 0
  nbrAdmitted : Bool := false
  transmitting : Bool := false
  disable : Bool := false
  ready : Bool := false
  admits : Bool := false
  probationAt : Nat := 0
  hbSentAt : Nat := 0
  hbSeq : W32 := 0
  hbSeenAt : Nat := 0
  tokens : Nat := 40960
  tokenAt : Nat := 0
  tc0Queue : List Packet := []
  held : List HeldPkt := []
  arb : Arb := {}
  wire : List (VcId × Packet) := []
  aborts : List VcId := []
  wakeReq : Bool := false
  scanLane : Option (BitVec 4) := none
  vcs : Vector Vc 12 := Vector.replicate 12 {}
  deriving DecidableEq, Repr

/-- The item a packet belongs to at its source, by the model's number of the item. -/
inductive ItemRef where
  | xfer (id : Nat)
  | coll (a : AxisId) (id : Nat)
  | atomic (a : AxisId) (id : Nat)
  | route (n : SluiceId) (id index : Nat)
  | layerEnd (n : SluiceId) (id : Nat)
  | ret (n : SluiceId) (id : Nat)
  | none
  deriving DecidableEq, Repr

/-- An unsettled packet at its source (R305). `from_` is the local offset its payload is read again from; a READ_REQ that
fetches the payload of a resend `renews` the packet of that stream and psn. -/
structure OutPacket where
  pkt : Packet
  item : ItemRef
  from_ : Option W64 := none
  firstAt : Nat
  nextAt : Nat
  port : Option PortId := none
  renews : Option (Nat × W32) := none
  deriving DecidableEq, Repr

/-- A stream at its source (R302): next psn, floor, unsettled packets, packets beyond the window. -/
structure SrcStream where
  next : W32 := 0
  floor : W32 := 0
  out : List OutPacket := []
  queue : List OutPacket := []
  deriving DecidableEq, Repr

/-- A stream at its destination (R302): cum, the psn values delivered beyond it, the latest floor, held packets. -/
structure DstStream where
  cum : W32 := 0
  delivered : List W32 := []
  floor : W32 := 0
  started : Bool := false
  held : List (PortId × Packet) := []
  ackDue : Bool := false
  deriving DecidableEq, Repr

/-- The end-to-end layer, the routing tables and the fence state. `replied` keeps the newest CONTROL_REPLY payloads by
gateway chip and request_id, for a CONTROL packet that arrives again (R302); `fmRx` is ILN_FM_RX. -/
structure Fabric where
  repoch : Bool := false
  tables : Vector (Sparse Byte) 2 := Vector.replicate 2 []
  markSeq : W32 := 0
  switchAt : Option Nat := none
  oldLocked : Bool := false
  src : Sparse SrcStream := []
  dst : Sparse DstStream := []
  reorderBytes : Nat := 0
  resends : Nat := 0
  failed : Nat := 0
  fmTx : Vector W64 3 := Vector.replicate 3 0
  fmTxDst : W64 := 0
  fmRx : List Byte := []
  fmInj0 : W64 := 0
  fmInj1 : W64 := 0
  fmInjType : Bool := false
  fenceEpoch : W32 := 0
  fenced : List Nat := []
  fencedAt : Sparse Nat := []
  selfFenced : Bool := false
  readmits : List (BitVec 15 × W32) := []
  replied : List (BitVec 15 × W32 × List Byte) := []
  deriving DecidableEq, Repr

/-! ### Axis engines (13) -/

inductive CollPhase where
  | trigger | joining | data
  deriving DecidableEq, Repr

/-- A collective held by an engine (R316 to R327). `joins` holds, per direction, the ring positions and digests heard. -/
structure Coll where
  id : Nat
  part : PartId
  tag : W64
  step : W32
  raiseV0 : Bool
  op : Nat
  red : Nat
  fmt : Nat
  alg : Nat
  group : Nat
  base : Nat
  root : Nat
  src : W64
  dst : W64
  length : Nat
  collId : W32
  trigCore : Nat
  trigCtr : Nat
  trigVal : W32
  doneCore : Nat
  doneCtr : Nat
  limitAt : Nat
  digest : W32
  phase : CollPhase := .trigger
  joinsP : List (Nat × W32) := []
  joinsM : List (Nat × W32) := []
  widthP : Nat := 16
  widthM : Nat := 16
  received : Nat := 0
  reduced : Nat := 0
  expect : Nat := 0
  waitApply : List (PortId × Packet) := []
  unsettled : Nat := 0
  poisoned : Bool := false
  outcome : Option OutcomeCode := none
  deriving DecidableEq, Repr

/-- A remote atomic in flight (R328). -/
structure AtomicItem where
  id : Nat
  part : PartId
  tag : W64
  step : W32
  raiseV0 : Bool
  aop : Nat
  tc : BitVec 2
  ord : Bool
  addr : W64
  operand : W64
  trigCore : Nat
  trigCtr : Nat
  trigVal : W32
  doneCore : Nat
  doneCtr : Nat
  started : Bool := false
  outcome : Option OutcomeCode := none
  deriving DecidableEq, Repr

/-- `early` holds the JOIN packets of collectives that this member has not posted yet (R319). -/
structure AxisEngine where
  dead : Bool := false
  early : List Packet := []
  colls : List Coll := []
  waiting : List Coll := []
  atomics : List AtomicItem := []
  records : Vector Nat 16 := Vector.replicate 16 0
  failed : Vector Nat 16 := Vector.replicate 16 0
  flags : Flags := {}
  deriving DecidableEq, Repr

/-! ### Sluices (14) -/

/-- A route at its source (R332): slot, expert, destination, gate, segments staged, outcome once final. `waits` marks
a local route that has not reached its Sluice yet. -/
structure Route where
  token : Nat
  slot : Nat
  expert : Nat
  coord : Nat := 0
  dest : Nat := 0
  gate : W32
  unsettled : Nat := 0
  waits : Bool := false
  staged : List Nat := []
  poison : Bool := false
  outcome : Option OutcomeCode := none
  recorded : Bool := false
  deriving DecidableEq, Repr

/-- An open layer of a Sluice (R335 to R349). `desc` holds the local expert descriptors, `ends` the ENDs heard
(coordinate, Sluice, count, local senders), `endsTo` the Sluices that have this one's END; `formed`, `arrived`,
`returned` and `destDone` are its phases; `cause` is the outcome that closed it, if one did. -/
structure Layer where
  id : Nat
  layerId : W32
  part : PartId
  tag : W64
  step : W32
  raiseV0 : Bool
  k : Nat
  gateMode : Nat
  renorm : Bool
  tokens : Nat
  rowBytes : Nat
  outBytes : Nat
  routeBase : W64
  inBase : W64
  combBase : W64
  stageBase : W64
  recBase : W64
  countBase : W64
  expBase : W64
  tagBase : W64
  outFmt : Nat
  localSenders : Nat
  limitAt : Nat
  sendCore : Nat
  sendCtr : Nat
  sendVal : W32
  retCore : Nat
  retCtr : Nat
  retVal : W32
  arriveCore : Nat
  arriveCtr : Nat
  doneCore : Nat
  doneCtr : Nat
  desc : List (Nat × Nat × Nat × Nat) := []
  formed : Bool := false
  routes : List Route := []
  hist : Sparse Nat := []
  admitted : Sparse Nat := []
  refused : Sparse Nat := []
  ends : List (Nat × Nat × Nat × Nat) := []
  endsTo : List (Nat × Nat) := []
  arrivals : Nat := 0
  arrived : Bool := false
  returned : Bool := false
  returnsLeft : Nat := 0
  destDone : Bool := false
  combined : List Nat := []
  cause : Option OutcomeCode := none
  incident : W32 := 0
  deriving DecidableEq, Repr

/-- A route in progress at its destination (R341): key, position, segments seen. -/
structure InRoute where
  layerId : W32
  srcChip : Nat
  srcSluice : Nat
  token : Nat
  slot : Nat
  refused : Bool
  loc : Nat
  pos : Nat
  segs : List Nat
  deriving DecidableEq, Repr

structure Sluice where
  dead : Bool := false
  placed : Bool := false
  table : Sparse W32 := []
  tableCount : Nat := 0
  layers : List Layer := []
  waiting : List Layer := []
  progress : List InRoute := []
  routesOut : W64 := 0
  admitted : W64 := 0
  refused : W64 := 0
  emptySlots : W64 := 0
  nonfinite : W64 := 0
  earlyDrops : Nat := 0
  tableDrops : Nat := 0
  deriving DecidableEq, Repr

/-! ### Health (18) -/

/-- One part of the Barometer (R413 to R417). `buckets` holds the newest bucket first, at most 60. -/
structure BaroPart where
  score : Nat := 0
  sinceS : Nat := 0
  out : Bool := false
  evals : Nat := 0
  state : BitVec 2 := 0
  cur : Vector Nat 11 := Vector.replicate 11 0
  carry : Vector Nat 11 := Vector.replicate 11 0
  buckets : List (Vector Nat 11) := []
  deriving DecidableEq, Repr

structure Barometer where
  warnOn : W16 := 512
  warnOff : W16 := 128
  watchOn : W16 := 64
  watchOff : W16 := 16
  advSeq : W32 := 0
  lastPart : Byte := 0
  lastState : BitVec 2 := 0
  evalAt : Nat := 0
  marginAt : Nat := 0
  parts : Vector BaroPart 26 := Vector.replicate 26 {}
  deriving DecidableEq, Repr

/-- SND_CTRL's fields as last written, the sounding that runs (kept apart: a write does not change it, R5, R421), and the
last one's results (R421 to R426). -/
structure Soundings where
  lane : Byte := 0
  target : Byte := 0
  kind : Byte := 0
  running : Bool := false
  runKind : Byte := 0
  runTarget : Byte := 0
  outcome : Byte := 0
  lastKind : Byte := 0
  lastTarget : Byte := 0
  results : Vector W64 4 := Vector.replicate 4 0
  probes : Nat := 0
  echoes : Nat := 0
  least : W32 := 0
  greatest : W32 := 0
  deriving DecidableEq, Repr

/-! ### Host link (05) -/

inductive LinkState where
  | detect | l0
  deriving DecidableEq, Repr

/-- A completed read of a BAR: data, or none for an Unsupported Request (R116). -/
structure BarRead where
  fn : PciFn
  offset : Nat
  data : Option (List Byte)
  poisoned : Bool := false
  deriving DecidableEq, Repr

/-- The host link (05). `ideKeys` holds a key per stream and direction: stream `i` sends under `2 i`, receives under
`2 i + 1` (R126). -/
structure HostLink where
  link : LinkState := .detect
  width : Nat := 0
  detectUntil : Nat := 0
  pfWinBase : BitVec 49 := 0
  pfBar2Log2 : Nat := 36
  aer : Nat := 0
  msi : List (PciFn × Nat) := []
  reads : List BarRead := []
  exchanged : Option W64 := none
  ideKeys : Sparse (List Byte) := []
  doeOut : List (List Byte) := []
  deriving DecidableEq, Repr

/-! ### The module -/

/-- The state of the module, and the queue of the commands that wait, first in, first out. `acts` is the activity of
the metering interval that runs (R106): beats, bytes and parameters per unit and partition. -/
structure State where
  pending : List Instr := []
  timeNs : Nat := 0
  freeCount : Nat := 0
  nextItem : Nat := 0
  power : Power := {}
  fields : Vector Field 4 := Vector.replicate 4 {}
  fuses : Fuses := {}
  boot : Boot := {}
  loader : Loader := {}
  image : DeviceImage := {}
  almanac : Almanac := {}
  ctl : Control := {}
  link : HostLink := {}
  host : Memory := []
  lull3Enable : Bool := false
  inLull3 : Bool := false
  tc12At : Nat := 0
  parts : Vector Partition 16 := Vector.replicate 16 {}
  seqs : Vector Sequencer 16 := Vector.replicate 16 {}
  cores : Vector Core 192 := Vector.replicate 192 {}
  wells : Vector MemCtl 12 := Vector.replicate 12 {}
  pumps : Vector Pump 4 := Vector.replicate 4 {}
  ports : Vector Port 6 := Vector.replicate 6 {}
  fabric : Fabric := {}
  axes : Vector AxisEngine 3 := Vector.replicate 3 {}
  sluices : Vector Sluice 4 := Vector.replicate 4 {}
  xfers : List Xfer := []
  programs : List Program := []
  baro : Barometer := {}
  snd : Soundings := {}
  cisTemp : Vector Byte 16 := Vector.replicate 16 0
  cisRate : W16 := 0
  pkgOk : W16 := 0
  devEnergy : Nat := 0
  acts : Sparse Nat := []
  readyAt : Nat := 0
  deriving DecidableEq, Repr

/-- The module before its first power-up: every field at its reset value (log 3, log 11), no command waiting. -/
def State.reset : State := {}

end Sys2Proof.Machine
end

