-- ==== Sys2Proof/Machine/Cells.lean ====
section
/-! DEFINITION. Byte memories and sparse tables in canonical form: addresses strictly rising, no entry equal to what
an unlisted address reads as (log 5). Wider accesses are built here once, lowest address first (R3). -/

namespace Sys2Proof.Machine

/-- What an unlisted key of a sparse table reads as. -/
def Sparse.getD {α : Type} (m : Sparse α) (k : Nat) (d : α) : α :=
  match m with
  | [] => d
  | (a, v) :: r => if a = k then v else Sparse.getD r k d

/-- The entry of a key, if listed. -/
def Sparse.find {α : Type} (m : Sparse α) (k : Nat) : Option α :=
  match m with
  | [] => none
  | (a, v) :: r => if a = k then some v else Sparse.find r k

/-- A table without a key. -/
def Sparse.del {α : Type} (m : Sparse α) (k : Nat) : Sparse α :=
  match m with
  | [] => []
  | (a, v) :: r => if k < a then (a, v) :: r else if a = k then r else (a, v) :: Sparse.del r k

/-- A key set to a value, in order. -/
def Sparse.put {α : Type} (m : Sparse α) (k : Nat) (x : α) : Sparse α :=
  match m with
  | [] => [(k, x)]
  | (a, v) :: r =>
    if k < a then (k, x) :: (a, v) :: r else if a = k then (k, x) :: r else (a, v) :: Sparse.put r k x

/-- A key set to a value, where an unlisted key reads `d`. -/
def Sparse.set {α : Type} [DecidableEq α] (d : α) (m : Sparse α) (k : Nat) (x : α) : Sparse α :=
  if x = d then m.del k else m.put k x

/-- Strictly rising keys. -/
def Sparse.rising {α : Type} : Sparse α → Bool
  | [] => true
  | [_] => true
  | (a, _) :: (b, w) :: r => (a < b) && Sparse.rising ((b, w) :: r)

/-- The canonical form of a sparse table with default `d`. -/
def Sparse.wf {α : Type} [DecidableEq α] (d : α) (m : Sparse α) : Bool :=
  m.rising && m.all (fun e => decide (e.2 ≠ d))

/-- The canonical form of a memory whose unlisted bytes read 0x00. -/
def Memory.wf (m : Memory) : Bool := Sparse.wf (α := Byte) 0 m

/-- One byte read; an unlisted byte reads 0x00 (log 5). -/
def rd (m : Memory) (a : Nat) : Byte := Sparse.getD (α := Byte) m a 0

/-- One byte written. -/
def wr (m : Memory) (a : Nat) (b : Byte) : Memory := Sparse.set (α := Byte) 0 m a b

/-- Bytes written at rising addresses. -/
def wrL (m : Memory) (a : Nat) : List Byte → Memory
  | [] => m
  | b :: bs => wrL (wr m a b) (a + 1) bs

/-- `n` bytes read at rising addresses. -/
def rdL (m : Memory) (a : Nat) : Nat → List Byte
  | 0 => []
  | n + 1 => rd m a :: rdL m (a + 1) n

/-- The little-endian number of `n` bytes. -/
def rdNat (m : Memory) (a n : Nat) : Nat := leNat (rdL m a n)

/-- The little-endian number of `n` bytes of a byte string from an offset. -/
def ldNat (bs : List Byte) (a n : Nat) : Nat := leNat ((bs.drop a).take n)

/-- Bytes of a byte string, zeros beyond its end. -/
def slice (bs : List Byte) (a n : Nat) : List Byte :=
  let r := (bs.drop a).take n
  r ++ List.replicate (n - r.length) 0

/-- A range of a memory set to zero. -/
def zeroRange (m : Memory) (a n : Nat) : Memory := m.filter fun c => decide (c.1 < a ∨ a + n ≤ c.1)

/-- A line of memory as one word. -/
def rdLine (m : Memory) (a : Nat) : Line := BitVec.ofNat 2048 (rdNat m a 256)

/-- The bytes of a line, lowest address first. -/
def lineBytes (l : Line) : List Byte := leBytes l.toNat 256

/-- A line written. -/
def wrLine (m : Memory) (a : Nat) (l : Line) : Memory := wrL m a (lineBytes l)

/-- The `i`-th element of `w` bits of a line. -/
def lane (l : Line) (w i : Nat) : Nat := bits l (w * i) w

/-- A line made of elements of `w` bits, the first at the lowest address. -/
def ofLanes (w : Nat) (xs : List Nat) : Line :=
  BitVec.ofNat 2048 (xs.foldr (fun x acc => (x % (1 <<< w)) + (acc <<< w)) 0)

/-- The elements of a line, `n` of `w` bits. -/
def lanes (l : Line) (w n : Nat) : List Nat := (List.range n).map (lane l w)

/-- A number is in a list of numbers. -/
def has (l : List Nat) (x : Nat) : Bool := l.contains x

/-- A number added to a rising list without repeats. -/
def addTo (l : List Nat) (x : Nat) : List Nat :=
  match l with
  | [] => [x]
  | y :: r => if x < y then x :: y :: r else if x = y then y :: r else y :: addTo r x

/-- A number taken from a list. -/
def delFrom (l : List Nat) (x : Nat) : List Nat := l.filter (· != x)

/-! ### Checks (05, 12) -/

/-- CRC-32C of a byte string (05, body_crc; reflected polynomial 0x82F63B78, all-ones start and final inversion). -/
def crc32cByte (c : W32) (b : Byte) : W32 :=
  (List.range 8).foldl (fun c _ => if c.getLsbD 0 then (c >>> 1) ^^^ 0x82F63B78#32 else c >>> 1)
    (c ^^^ b.setWidth 32)

def crc32c (bs : List Byte) : W32 := ~~~ (bs.foldl crc32cByte 0xFFFFFFFF#32)

/-- One byte of a most-significant-bit-first CRC of `n` bits. -/
def crcMsbByte {n : Nat} (poly : BitVec n) (c : BitVec n) (b : Byte) : BitVec n :=
  (List.range 8).foldl (fun c _ => if c.msb then (c <<< 1) ^^^ poly else c <<< 1)
    (c ^^^ ((b.setWidth n) <<< (n - 8)))

end Sys2Proof.Machine
end

