-- ==== Sys2Proof/Machine/Ops.lean ====
section
/-! DEFINITION. The operations every family shares: access to one unit's state, time, interrupts, Almanac events,
incidents, Barometer evidence, completion records, usage records, and which units are present and held. -/

namespace Sys2Proof.Machine

open Host

/-- What a command's meaning answers. -/
abbrev Out := Outcome State Fault Refusal

/-! ### Access to one unit -/

def State.updPart (s : State) (p : PartId) (f : Partition → Partition) : State :=
  { s with parts := updAt s.parts p f }

def State.updSeq (s : State) (n : SeqId) (f : Sequencer → Sequencer) : State :=
  { s with seqs := updAt s.seqs n f }

def State.updCore (s : State) (c : CoreId) (f : Core → Core) : State :=
  { s with cores := updAt s.cores c f }

def State.updWell (s : State) (w : WellId) (f : MemCtl → MemCtl) : State :=
  { s with wells := updAt s.wells w f }

def State.updPump (s : State) (u : PumpId) (f : Pump → Pump) : State :=
  { s with pumps := updAt s.pumps u f }

def State.updPort (s : State) (n : PortId) (f : Port → Port) : State :=
  { s with ports := updAt s.ports n f }

def State.updAxis (s : State) (a : AxisId) (f : AxisEngine → AxisEngine) : State :=
  { s with axes := updAt s.axes a f }

def State.updSluice (s : State) (n : SluiceId) (f : Sluice → Sluice) : State :=
  { s with sluices := updAt s.sluices n f }

def State.updField (s : State) (f : FieldId) (g : Field → Field) : State :=
  { s with fields := updAt s.fields f g }

/-- The memory side of a well, or of the Pump of a Cistern quarter (R251). -/
def State.mem (s : State) : MemUnit → MemCtl
  | .well w => s.wells[w]
  | .quarter u => s.pumps[u].mem

def State.updMem (s : State) (u : MemUnit) (f : MemCtl → MemCtl) : State :=
  match u with
  | .well w => s.updWell w f
  | .quarter p => s.updPump p fun x => { x with mem := f x.mem }

/-- Fold a state change over a list. -/
def State.over {α : Type} (s : State) (l : List α) (f : State → α → State) : State := l.foldl f s

/-- A change made where a condition holds. -/
def State.iff (s : State) (b : Bool) (f : State → State) : State := if b then f s else s

/-- A number as an index below `n`, its remainder where it is too large. -/
def finMod (n : Nat) (h : 0 < n) (x : Nat) : Fin n := ⟨x % n, Nat.mod_lt x h⟩

def partOf (x : Nat) : PartId := finMod 16 (by decide) x
def coreOf (x : Nat) : CoreId := finMod 192 (by decide) x
def seqOf (x : Nat) : SeqId := finMod 16 (by decide) x
def wellOf (x : Nat) : WellId := finMod 12 (by decide) x
def pumpOf (x : Nat) : PumpId := finMod 4 (by decide) x
def portOf (x : Nat) : PortId := finMod 6 (by decide) x
def axisOf (x : Nat) : AxisId := finMod 3 (by decide) x
def sluiceOf (x : Nat) : SluiceId := finMod 4 (by decide) x
def fieldOf (x : Nat) : FieldId := finMod 4 (by decide) x
def qOf (x : Nat) : QId := finMod 32 (by decide) x
def ctrOf (x : Nat) : CtrId := finMod 32 (by decide) x
def regOf (x : Nat) : Reg4 := finMod 16 (by decide) x
def vcOf (x : Nat) : VcId := finMod 12 (by decide) x

/-! ### Codes -/

/-- The code of an outcome (R9). -/
def OutcomeCode.code : OutcomeCode → Nat
  | .done => 0x00 | .failedLink => 0x10 | .failedFenced => 0x11 | .failedPoison => 0x12 | .failedTimeout => 0x13
  | .failedCapacity => 0x14 | .refusedOwner => 0x15 | .refusedState => 0x16 | .refusedAbsent => 0x17
  | .refusedStep => 0x18 | .skippedFrozen => 0x19 | .abortedReset => 0x1A | .failedSchedule => 0x1B | .gated => 0x1C

/-- The outcome of a code; codes outside the table read as DONE's place is never asked for. -/
def OutcomeCode.ofCode (n : Nat) : OutcomeCode :=
  match n with
  | 0x10 => .failedLink | 0x11 => .failedFenced | 0x12 => .failedPoison | 0x13 => .failedTimeout
  | 0x14 => .failedCapacity | 0x15 => .refusedOwner | 0x16 => .refusedState | 0x17 => .refusedAbsent
  | 0x18 => .refusedStep | 0x19 => .skippedFrozen | 0x1A => .abortedReset | 0x1B => .failedSchedule | 0x1C => .gated
  | _ => .done

/-- The place of an outcome in the order of R11; outcomes outside that order come last. -/
def OutcomeCode.rank : OutcomeCode → Nat
  | .abortedReset => 0 | .failedFenced => 1 | .failedSchedule => 2 | .failedPoison => 3 | .failedLink => 4
  | .failedTimeout => 5 | .failedCapacity => 6 | _ => 7

/-- The cause bit of an outcome in detail1 (R391): its place in the order of R11. -/
def OutcomeCode.causeBit (o : OutcomeCode) : BitVec 7 := if o.rank < 7 then 1#7 <<< o.rank else 0

/-- Two causes of one item in one epoch (R11): the outcome, and the mask with the other cause added. -/
def joinCause (o : OutcomeCode) (causes : BitVec 7) (new : OutcomeCode) : OutcomeCode × BitVec 7 :=
  if o.rank < 7 ∧ new.rank < 7 then
    if new.rank < o.rank then (new, (causes ||| o.causeBit) &&& ~~~ new.causeBit)
    else (o, (causes ||| new.causeBit) &&& ~~~ o.causeBit)
  else (o, causes)

/-- The code of a partition state (03, PRT_IMG_STATUS). -/
def PartState.code : PartState → Nat
  | .empty => 0 | .staged => 1 | .committed => 2 | .running => 3 | .quiesced => 4 | .stopped => 5

/-- COMMITTED, RUNNING, QUIESCED or STOPPED. -/
def PartState.committed' : PartState → Bool
  | .empty | .staged => false
  | _ => true

/-- The unit codes of R428. -/
def unitField (f : FieldId) : Byte := BitVec.ofNat 8 f
def unitWell (w : WellId) : Byte := BitVec.ofNat 8 (4 + w)
def unitPump (u : PumpId) : Byte := BitVec.ofNat 8 (16 + u)
def unitPort (n : PortId) : Byte := BitVec.ofNat 8 (20 + n)
def unitSteward : Byte := 0x1A
def unitHost : Byte := 0x1B
def unitNone : Byte := 0xFF
def unitMem : MemUnit → Byte
  | .well w => unitWell w
  | .quarter u => unitPump u
def partNone : Byte := 0xFF
def partByte (p : PartId) : Byte := BitVec.ofNat 8 p

/-! ### Present and held units -/

/-- Is ward `w` present (R1, R27)? -/
def State.wardPresent (s : State) (w : Nat) : Bool := s.fuses.map.getLsbD w

/-- Is core `c` present (R12)? -/
def State.corePresent (s : State) (c : Nat) : Bool := s.wardPresent (c / 12)

/-- Is Sluice `n` present? -/
def State.sluicePresent (s : State) (n : Nat) : Bool := s.fuses.map.getLsbD (24 + n)

/-- Does a partition hold resources: it is committed, or its COMMIT has claimed them (R75)? -/
def Partition.claims? (x : Partition) : Bool := x.state.committed' || x.im.busy == some 2

/-- The partition that holds a ward. -/
def State.wardHolder (s : State) (w : Nat) : Option PartId :=
  (allFin 16).find? fun p => s.parts[p].claims? && s.parts[p].im.img.wardMask.testBit w

/-- The partition that holds a core (R79). -/
def State.coreHolder (s : State) (c : CoreId) : Option PartId := s.wardHolder (c.val / 12)

/-- The wards a sequencer drives in a partition image. -/
def PartImage.wardsOf (i : PartImage) (n : Nat) : Nat :=
  maskOf ((List.range 16).filter fun w => i.wardMask.testBit w && i.driver[seqOf w] == n)

/-- The sequencers a partition image uses (R79). -/
def PartImage.seqs (i : PartImage) : List SeqId := (allFin 16).filter fun n => i.wardsOf n.val != 0

/-- The partition that holds a sequencer. -/
def State.seqHolder (s : State) (n : SeqId) : Option PartId :=
  (allFin 16).find? fun p => s.parts[p].claims? && s.parts[p].im.img.wardsOf n.val != 0

/-- The partition that holds a Sluice. -/
def State.sluiceHolder (s : State) (n : SluiceId) : Option PartId :=
  (allFin 16).find? fun p => s.parts[p].claims? && s.parts[p].im.img.sluiceMask.testBit n.val

/-- The present cores of a partition. -/
def State.partCores (s : State) (p : PartId) : List CoreId :=
  (allFin 192).filter fun c => s.corePresent c.val && s.parts[p].im.img.wardMask.testBit (c.val / 12)

/-- The present cores a sequencer drives. -/
def State.seqCores (s : State) (n : SeqId) : List CoreId :=
  (allFin 192).filter fun c => s.corePresent c.val && s.seqs[n].wardMask.testBit (c.val / 12)

/-- The Pumps on which a partition image has an allocation (R79). -/
def PartImage.pumps (i : PartImage) : List PumpId := (allFin 4).filter fun u => i.cisZ[u] != 0

/-- Does a partition use a unit of field `f` (R45)? -/
def State.usesField (s : State) (p : PartId) (f : FieldId) : Bool :=
  let i := s.parts[p].im.img
  (allFin 16).any (fun w =>
    i.wardMask.testBit w.val && ((w.val / 4 == f.val && s.wardPresent w.val) || i.driver[w] / 4 == f.val)) ||
    i.sluiceMask.testBit f.val

/-- The partitions that hold resources. -/
def State.committedParts (s : State) : List PartId := (allFin 16).filter fun p => s.parts[p].claims?

/-! ### Interrupts and time -/

/-- An MSI-X vector raised (R125). -/
def State.msi (s : State) (fn : PciFn) (v : Nat) : State :=
  { s with link := { s.link with msi := s.link.msi ++ [(fn, v)] } }

/-- The effective depth of a partition: the deepest at which any of its components rests (R45). -/
def State.effectiveDepth (s : State) (p : PartId) : Nat :=
  let x := s.parts[p]
  if !x.claims? then 0
  else if s.inLull3 then 3
  else if (allFin 12).any (fun w => x.im.img.wellMask.testBit w.val && s.wells[w].state == .selfRefresh) ||
      x.im.img.pumps.any (fun u => s.pumps[u].idle) then 2
  else if (allFin 4).any (fun f => s.usesField p f && s.fields[f].retained) then 1
  else 0

/-- Counter numbers of R104 in the order of the usage record. -/
def mBeats : Fin 14 := 0
def mEnergy : Fin 14 := 1
def mWellRd : Fin 14 := 2
def mWellWr : Fin 14 := 3
def mCistern : Fin 14 := 4
def mUpdates : Fin 14 := 5
def mTx (tc : BitVec 2) : Fin 14 := ⟨6 + tc.toNat, by omega⟩
def mRx : Fin 14 := 10
def mHost : Fin 14 := 11
def mRunning : Fin 14 := 12
def mTokens : Fin 14 := 13

/-- Activity of a unit in the metering interval that runs (R106): unit codes of R428, 26 for the host link; partition
16 stands for traffic of no partition. -/
def State.act (s : State) (unit p n : Nat) : State :=
  { s with acts := Sparse.set 0 s.acts (unit * 32 + p) (Sparse.getD s.acts (unit * 32 + p) 0 + n) }

/-- A metering counter of a partition raised (R104, R105). Counters advance from COMMIT to RELEASE, and not in
STOPPED but for energy (R90). -/
def State.meter (s : State) (p : PartId) (k : Fin 14) (n : Nat) : State :=
  let s1 := s.updPart p fun x =>
    if x.meter.metered && (x.state != .stopped || k == mEnergy) then
      { x with meter := { x.meter with counters := updAt x.meter.counters k (· + n) } }
    else x
  s1.iff (k == mHost) (·.act 26 p.val n)

/-- Time passes up to `t` (R33): STW_TIME, operating seconds, running_ns and the lull residencies. -/
def State.advanceTo (s : State) (t : Nat) : State :=
  if s.power.alwaysOn && s.timeNs < t then
    let dt := t - s.timeNs
    let s1 := s.over (allFin 16) fun st p =>
      let st1 := st.iff (st.parts[p].state == .running) (·.meter p mRunning dt)
      let d := finMod 4 (by decide) (s.effectiveDepth p)
      st1.updPart p fun x => { x with lull := { x.lull with residency := updAt x.lull.residency d (· + dt) } }
    { s1 with timeNs := t, almanac := { s1.almanac with opNs := s1.almanac.opNs + dt } }
  else s

/-- The control epoch of the present instant (R102). -/
def State.epoch (s : State) : Nat := s.timeNs / 1000

/-- A free value (log 7). -/
def State.fresh (s : State) : W64 × State :=
  (Config.free64 s.freeCount, { s with freeCount := s.freeCount + 1 })

/-- A new item number of the model. -/
def State.newItem (s : State) : Nat × State := (s.nextItem, { s with nextItem := s.nextItem + 1 })

/-! ### Almanac (R427 to R431) -/

/-- Operating seconds (R428). -/
def State.opSeconds (s : State) : BitVec 40 := BitVec.ofNat 40 (s.almanac.opNs / 1000000000)

/-- Pack the fields of a detail lowest byte first, in the order the code table names them (log 14). -/
def packDetail (l : List (Nat × Nat)) : BitVec 224 :=
  BitVec.ofNat 224 (l.foldr (fun e acc => (e.1 % (1 <<< (8 * e.2))) + (acc <<< (8 * e.2))) 0)

/-- An event recorded or folded (R429). -/
def State.event (s : State) (code : W16) (unit part severity : Byte) (incident : W32) (detail : BitVec 224) : State :=
  let a := s.almanac
  let fresh : AlmRecord :=
    { powerCycles := a.cycles, firstS := s.opSeconds, lastS := s.opSeconds, code := code, unit := unit,
      partition := part, severity := severity, incident := incident, seq := a.nextSeq, detail := detail }
  let new := { a with last := some fresh, toFlash := a.toFlash ++ [fresh], nextSeq := a.nextSeq + 1 }
  let a' :=
    match a.last with
    | some l =>
      if l.code = code ∧ l.unit = unit ∧ l.partition = part ∧ l.incident = incident ∧ l.detail = detail ∧
          l.powerCycles = a.cycles then
        let l' := { l with rep := BitVec.ofNat 16 (satAdd 16 l.rep.toNat 1), lastS := s.opSeconds }
        { a with last := some l', folds := BitVec.ofNat 32 (satAdd 32 a.folds.toNat 1),
                 toFlash := a.toFlash.filter (fun r => r.seq != l.seq) ++ [l'] }
      else new
    | none => new
  { s with almanac := a' }

/-- The slot of record `q` (R427). -/
def almSlot (q : Nat) : Nat := if q < 2048 then q else 2048 + (q - 2048) % 2048

/-- Every pending Almanac write completed (R430). -/
def State.flushAlmanac (s : State) : State :=
  let a := s.almanac
  { s with almanac := { a with slots := a.toFlash.foldl (fun m r => m.put (almSlot r.seq.toNat) r) a.slots, toFlash := [] } }

/-- The severities of R428. -/
def sevInfo : Byte := 0
def sevAbsorbed : Byte := 1
def sevJob : Byte := 2
def sevDevice : Byte := 3

/-- A new incident (R390): its number, one Almanac record, STW_FAULT_STATUS. `mask` holds the affected partitions. -/
def State.incident (s : State) (source : Byte) (mask : Nat) (severity : Byte) : State :=
  let n := s.ctl.incident + 1
  let s1 := { s with ctl := { s.ctl with incident := n, faultSource := source } }
  s1.event 0x0901 unitSteward partNone severity n (packDetail [(source.toNat, 1), (mask, 2)])

/-! ### Barometer evidence (R414, R416) -/

/-- Events per unit of each kind of evidence. -/
def evidUnit (k : Fin 11) : Nat :=
  match k.val with
  | 1 => 64
  | 4 => 16777216
  | 8 => 16
  | _ => 1

/-- Evidence counted against a part, partial units carried. -/
def State.evidence (s : State) (part : Nat) (k : Fin 11) (n : Nat) : State :=
  if h : part < 26 then
    let i : Fin 26 := ⟨part, h⟩
    { s with baro := { s.baro with parts := updAt s.baro.parts i fun b =>
        if b.out then b
        else
          let t := b.carry[k] + n
          { b with carry := b.carry.set k (t % evidUnit k), cur := updAt b.cur k (· + t / evidUnit k) } } }
  else s

def evCe : Fin 11 := 0
def evOnDie : Fin 11 := 1
def evUe : Fin 11 := 2
def evRemap : Fin 11 := 3
def evFecCorr : Fin 11 := 4
def evFecLost : Fin 11 := 5
def evHdrDrop : Fin 11 := 6
def evE2e : Fin 11 := 7
def evResend : Fin 11 := 8
def evRetrain : Fin 11 := 9
def evSoundLow : Fin 11 := 10

/-- The part of a memory unit (R413). -/
def baroMem : MemUnit → Nat
  | .well w => 4 + w.val
  | .quarter u => 16 + u.val

/-- A part's out bit set or cleared (R416); observation begins again when it clears. -/
def State.baroOut (s : State) (part : Nat) (out : Bool) : State :=
  if h : part < 26 then
    { s with baro := { s.baro with parts := updAt s.baro.parts ⟨part, h⟩ fun b =>
        if out then { b with out := true } else { b with out := false, evals := 0, buckets := [], state := 0, sinceS := s.timeNs / 1000000000 } } }
  else s

/-! ### Completion records (R8, R122 to R124, R391, R395, R434) -/

/-- The 56 bits of detail1 (R391). -/
def Record.detail1 (r : Record) : Nat :=
  r.causes.toNat + (r.orphan.toNat <<< 7) + (r.map.toNat <<< 8) + (r.incident.toNat <<< 16)

/-- The 32 bytes of a record, with its phase bit (05, Completion record). -/
def Record.bytes (r : Record) (phase : Bool) : List Byte :=
  leBytes r.tag.toNat 8 ++ leBytes r.step.toNat 4 ++
    [BitVec.ofNat 8 r.outcome.code, r.engine, partByte r.partition, 0] ++
    leBytes r.detail0.toNat 8 ++ leBytes r.detail1 7 ++ [if phase then 0x80 else 0x00]

/-- The fields of ILN_FM_INJ0 in an EPOCH_MARK payload, or in a FENCE payload (R4). -/
def injMask (mark : Bool) : W64 := if mark then 0xFFFFFFFF000000FF else 0xFFFFFFFF7FFF00FF

/-- A placement entry as it reads: its reserved fields zero (R4). -/
def peShown (w : W32) : W32 := w &&& 0x9F0300FF

/-- Slots of a completion ring. -/
def PCq.size (q : PCq) : Nat := 64 <<< q.ringLog2.toNat

/-- Is there room for a record (R123)? -/
def PCq.room (q : PCq) : Bool := q.enable && (q.head + 1) % q.size != q.tail.toNat % q.size

/-- VF vector 0 raised: the counts of R434 start again. -/
def State.raiseV0 (s : State) (p : PartId) : State :=
  (s.updPart p fun x => { x with cq := { x.cq with sinceRaise := 0, firstAt := none } }).msi (.vf p) 0

/-- A sync counter raised by one, its fail count too where the outcome is not DONE (R169). -/
def State.raiseCtr (s : State) (c : CoreId) (n : CtrId) (ok : Bool) : State :=
  s.updCore c fun x => { x with sync := updAt x.sync n fun y =>
    { count := y.count + 1, fail := if ok then y.fail else BitVec.ofNat 16 (satAdd 16 y.fail.toNat 1) } }

/-- The counter a body names: 0xFF names none. -/
def namedCtr (core ctr : Nat) : Option (CoreId × CtrId) := if core = 0xFF then none else some (coreOf core, ctrOf ctr)

/-- The counter a body names, raised. -/
def State.raiseNamed (s : State) (core ctr : Nat) (ok : Bool) : State :=
  match namedCtr core ctr with
  | some (c, n) => s.raiseCtr c n ok
  | none => s

/-- A record of an axis engine counted once it is written (AXE_PARTp). -/
def State.countAxis (s : State) (r : Record) : State :=
  match r.axis with
  | none => s
  | some a =>
    { s with axes := updAt s.axes a fun x => { x with
        records := updAt x.records r.partition fun n => (n + 1) % 4294967296
        failed := if r.outcome = .done then x.failed else updAt x.failed r.partition fun n => satAdd 16 n 1 } }

/-- What follows the writing of a record: its count, and its done counter (R169, R326, R348). -/
def State.written (s : State) (r : Record) : State :=
  match r.done with
  | some (c, n) => (s.countAxis r).raiseCtr c n (r.outcome == .done)
  | none => s.countAxis r

/-- One record written into the ring at head (R122), and the coalescing of R434. -/
def State.writeRing (s : State) (p : PartId) (r : Record) (v0 : Bool) : State :=
  let q := s.parts[p].cq
  let s1 := { s with host := wrL s.host (q.base.toNat * 4096 + 32 * q.head) (r.bytes q.phase) }
  let head := (q.head + 1) % q.size
  let q' := { q with
    head := head
    phase := if head = 0 then !q.phase else q.phase
    sinceRaise := q.sinceRaise + 1
    firstAt := match q.firstAt with | none => some s.timeNs | some t => some t }
  let s2 := s1.updPart p fun x => { x with cq := q' }
  let s3 := s2.meter p mHost 32
  let s4 := if v0 || q.coalesceNs == 0 || max 1 q.coalesceCount.toNat ≤ q'.sinceRaise then s3.raiseV0 p else s3
  s4.written r

/-- A record placed in the orphan store with its map words (R395, R396): no counter is raised. -/
def State.orphan (s : State) (p : PartId) (r : Record) (words : List W64) : State :=
  (s.updPart p fun x => { x with orphan := { records := x.orphan.records ++ [({ r with orphan := true }, words)] } }).countAxis r

/-- A partition was at work until now (R44: idle time is counted from here). -/
def State.touch (s : State) (p : PartId) : State :=
  s.updPart p fun x => { x with lull := { x.lull with idleSince := s.timeNs } }

/-- A completion record of the host's ring formed: written, held or waiting under R124, or an orphan under R395. -/
def State.post (s0 : State) (p : PartId) (r : Record) (v0 : Bool) : State :=
  let s := s0.touch p
  let x := s.parts[p]
  if x.state == .empty || x.state == .staged then s.orphan p r []
  else if x.cq.room && x.cq.held.isEmpty then s.writeRing p r v0
  else if x.cq.held.length < 4096 then s.updPart p fun x => { x with cq := { x.cq with held := x.cq.held ++ [(r, v0)] } }
  else s.updPart p fun x => { x with cq := { x.cq with waiting := x.cq.waiting ++ [(r, v0)] } }

/-- Held records written while the ring has room (R124), at most `n`. -/
def State.flushHeld (s : State) (p : PartId) : Nat → State
  | 0 => s
  | n + 1 =>
    let q := s.parts[p].cq
    match q.held with
    | [] => s
    | (r, v0) :: rest =>
      if q.room then
        let s1 := s.updPart p fun x => { x with cq := { x.cq with
          held := rest ++ x.cq.waiting.take 1, waiting := x.cq.waiting.drop 1 } }
        State.flushHeld (s1.writeRing p r v0) p n
      else s

/-- A flip mask whose arming rests on a partition that leaves QUIESCED is disarmed (R273). -/
def MemCtl.leaves (m : MemCtl) (p : PartId) : MemCtl :=
  if m.flipPart = some p then { m with flipArm := false, flipPart := none } else m

/-- part_state changed (R125: PF vector 32 + p and VF vector 1). -/
def State.setPart (s : State) (p : PartId) (st : PartState) : State :=
  if s.parts[p].state == st then s
  else
    let s1 := if s.parts[p].state == .quiesced then
        { s with wells := s.wells.map (·.leaves p), pumps := s.pumps.map fun x => { x with mem := x.mem.leaves p } }
      else s
    ((s1.updPart p fun x => { x with state := st }).msi .pf (32 + p.val)).msi (.vf p) 1

/-! ### Usage records (R108, R109) -/

/-- The 160 signed bytes of a usage record (04, Usage record). -/
def UsageRecord.body (u : UsageRecord) : List Byte :=
  leBytes 0x43455355 4 ++ leBytes 1 1 ++ leBytes u.partition 1 ++ leBytes u.reason 1 ++ leBytes u.partState 1 ++
    leBytes u.recordSeq 8 ++ leBytes u.powerCycles.toNat 4 ++ leBytes u.chip.toNat 2 ++ leBytes u.skipped.toNat 2 ++
    leBytes u.tCommit 8 ++ leBytes u.tRecord 8 ++ leBytes u.buildId.toNat 8 ++
    (u.counters.toList.map fun c => leBytes c 8).flatten

/-- The 256 bytes of a usage record with its signature (log 6). -/
def UsageRecord.bytes (u : UsageRecord) : List Byte :=
  u.body ++ leBytes (Config.identitySign u.body).toNat 96

/-- Records of a usage ring. -/
def PMeter.size (m : PMeter) : Nat := 16 <<< m.ringLog2.toNat

/-- Is there room for a usage record (R109)? -/
def PMeter.room (m : PMeter) : Bool := m.enable && (m.head + 1) % m.size != m.tail.toNat % m.size

/-- One usage record written to the ring, with PF vector 1. -/
def State.writeUsage (s : State) (p : PartId) (u : UsageRecord) : State :=
  let m := s.parts[p].meter
  let s1 := { s with host := wrL s.host (m.base.toNat * 4096 + 256 * m.head) u.bytes }
  (s1.updPart p fun x => { x with meter := { x.meter with head := (m.head + 1) % m.size } }).msi .pf 1

/-- The record taken now (R108): all counters at one instant. -/
def State.takeUsage (s : State) (p : PartId) (reason : Nat) : UsageRecord :=
  let x := s.parts[p]
  { partition := p, reason := reason, partState := x.state.code, recordSeq := x.meter.nextSeq,
    powerCycles := s.almanac.cycles, chip := s.image.fabric.chip, skipped := x.meter.skipped,
    tCommit := x.meter.tCommit, tRecord := s.timeNs, buildId := x.im.build, counters := x.meter.counters }

/-- A record of reason 2, 3 or 4 formed: written, or held (R109). -/
def State.usage (s : State) (p : PartId) (reason : Nat) : State :=
  if s.parts[p].meter.metered then
    let u := s.takeUsage p reason
    let s1 := s.updPart p fun x => { x with meter := { x.meter with nextSeq := x.meter.nextSeq + 1, skipped := false } }
    if s1.parts[p].meter.room && s1.parts[p].meter.held.isEmpty then s1.writeUsage p u
    else s1.updPart p fun x => { x with meter := { x.meter with held := x.meter.held ++ [u] } }
  else s

/-- Held usage records written while the ring has room, at most `n`. -/
def State.flushUsage (s : State) (p : PartId) : Nat → State
  | 0 => s
  | n + 1 =>
    match s.parts[p].meter.held with
    | [] => s
    | u :: rest =>
      if s.parts[p].meter.room then
        State.flushUsage
          ((s.updPart p fun x => { x with meter := { x.meter with held := rest } }).writeUsage p u) p n
      else s

/-- Are 64 usage records held, so that one more may not be added (R109)? -/
def State.usageFull (s : State) (p : PartId) : Bool :=
  decide (64 ≤ s.parts[p].meter.held.length) && !(s.parts[p].meter.room && s.parts[p].meter.held.isEmpty)

/-! ### Refusal reports (R97) -/

/-- A refused or ignored write reported: STW_REFUSAL_COUNT, STW_LAST_REFUSAL, the Almanac, and PRT_REFUSAL of the
partition whose VF driver wrote or whose window was written. -/
def State.report (s : State) (master : Byte) (offset : Nat) (o : OutcomeCode) (stale : Bool) (window : Option PartId) : State :=
  let off : W32 := BitVec.ofNat 32 offset
  let oc : Byte := BitVec.ofNat 8 o.code
  let c := { s.ctl with refusalOffset := off, refusalOutcome := oc, refusalMaster := master, refusalStale := stale,
                        refusalCount := s.ctl.refusalCount + 1 }
  let word := ((offset % (1 <<< 32)) <<< 32) + (o.code <<< 24) + (master.toNat <<< 16) + stale.toNat
  let upd (s : State) (p : PartId) : State := s.updPart p fun x => { x with run := { x.run with
    refOffset := off, refOutcome := oc, refMaster := master, refStale := stale, refCount := satAdd 15 x.run.refCount 1 } }
  let vf : Option PartId := if 0x10 ≤ master.toNat ∧ master.toNat < 0x20 then some (partOf (master.toNat - 0x10)) else none
  let s1 := { s with ctl := c }
  let s2 := match vf with | some p => upd s1 p | none => s1
  let s3 := match window with | some p => if vf = some p then s2 else upd s2 p | none => s2
  let pb : Byte := match window with | some p => partByte p | none => match vf with | some p => partByte p | none => partNone
  s3.event 0x0301 unitNone pb sevInfo 0 (packDetail [(word, 8)])

end Sys2Proof.Machine
end

