-- ==== Sys2Proof/Machine/Owner.lean ====
section
/-! DEFINITION. Register blocks of control space (R7) and their owners (R95). -/

namespace Sys2Proof.Machine

/-- A register block, with the window or unit index within it and the offset within that window (R7). -/
inductive Block where
  | stw (x : Nat) | prt (p : PartId) (x : Nat) | mtr (p : PartId) (x : Nat) | mtrDev (x : Nat)
  | lul (p : PartId) (x : Nat) | lulDev (x : Nat) | seq (n : SeqId) (x : Nat) | cor (c : CoreId) (x : Nat)
  | mem (w : WellId) (x : Nat) | cis (x : Nat) | pmp (u : PumpId) (x : Nat) | port (n : PortId) (x : Nat)
  | iln (x : Nat) | axe (a : AxisId) (x : Nat) | slc (n : SluiceId) (x : Nat) | stm (p : PartId) (x : Nat)
  | brm (x : Nat) | snd (x : Nat) | alm (x : Nat) | pci (x : Nat) | qtp (x : Nat) | none
  deriving DecidableEq, Repr

/-- An offset within a block of `n` windows of `w` bytes. -/
def inWin (off base w n : Nat) : Bool := decide (base ≤ off ∧ off < base + w * n)

/-- The block and window a control space offset lies in (R7); offsets no block occupies give `none`. -/
def blockOf (off : Nat) : Block :=
  if inWin off 0 0x100000 1 then .stw off
  else if inWin off 0x100000 0x1000 16 then .prt (partOf ((off - 0x100000) / 0x1000)) (off % 0x1000)
  else if inWin off 0x200000 0x1000 16 then .mtr (partOf ((off - 0x200000) / 0x1000)) (off % 0x1000)
  else if inWin off 0x210000 0x1000 1 then .mtrDev (off - 0x200000)
  else if inWin off 0x300000 0x1000 16 then .lul (partOf ((off - 0x300000) / 0x1000)) (off % 0x1000)
  else if inWin off 0x310000 0x1000 1 then .lulDev (off - 0x300000)
  else if inWin off 0x400000 0x10000 16 then .seq (seqOf ((off - 0x400000) / 0x10000)) (off % 0x10000)
  else if inWin off 0x1000000 0x10000 192 then .cor (coreOf ((off - 0x1000000) / 0x10000)) (off % 0x10000)
  else if inWin off 0x2000000 0x10000 12 then .mem (wellOf ((off - 0x2000000) / 0x10000)) (off % 0x10000)
  else if inWin off 0x2100000 0x1000 1 then .cis (off - 0x2100000)
  else if inWin off 0x2200000 0x10000 4 then .pmp (pumpOf ((off - 0x2200000) / 0x10000)) (off % 0x10000)
  else if inWin off 0x2300000 0x10000 6 then .port (portOf ((off - 0x2300000) / 0x10000)) (off % 0x10000)
  else if inWin off 0x2360000 0x20000 1 then .iln (off - 0x2300000)
  else if inWin off 0x2400000 0x10000 3 then .axe (axisOf ((off - 0x2400000) / 0x10000)) (off % 0x10000)
  else if inWin off 0x2500000 0x10000 4 then .slc (sluiceOf ((off - 0x2500000) / 0x10000)) (off % 0x10000)
  else if inWin off 0x2600000 0x1000 16 then .stm (partOf ((off - 0x2600000) / 0x1000)) (off % 0x1000)
  else if inWin off 0x2700000 0x2000 1 then .brm (off - 0x2700000)
  else if inWin off 0x2800000 0x1000 1 then .snd (off - 0x2800000)
  else if inWin off 0x2900000 0x50000 1 then .alm (off - 0x2900000)
  else if inWin off 0x2A00000 0x1000 1 then .pci (off - 0x2A00000)
  else if inWin off 0x3000000 0xC000 1 then .qtp (off - 0x3000000)
  else .none

/-- The default owner of an entry of the owner map (R95). -/
def defaultOwner (e : Nat) : Byte :=
  if 16 ≤ e ∧ e < 32 then BitVec.ofNat 8 (0x10 + (e - 16))
  else if 32 ≤ e ∧ e < 48 then 0x04
  else if 48 ≤ e ∧ e < 64 then BitVec.ofNat 8 (0x10 + (e - 48))
  else if 64 ≤ e ∧ e < 80 then BitVec.ofNat 8 (0x10 + (e - 64))
  else
    match e with
    | 2 | 6 | 9 => 0x02
    | 8 | 10 | 12 => 0x01
    | _ => 0x04

/-- The owner an entry of the map names, the default where it is 0x00 (R95). -/
def State.ownerEntry (s : State) (e : Fin 128) : Byte :=
  if s.image.owner[e] = 0 then defaultOwner e.val else s.image.owner[e]

def ownerIdx (n : Nat) : Fin 128 := finMod 128 (by decide) n

/-- The owner of the PRT_ window of a holder; of STW_ where no partition holds the unit (R95). -/
def State.holderOwner (s : State) (h : Option PartId) : Byte :=
  match h with
  | some p => s.ownerEntry (ownerIdx (16 + p.val))
  | .none => s.ownerEntry 0

/-- The owner master of a control space offset (R95). -/
def State.owner (s : State) (off : Nat) : Byte :=
  match blockOf off with
  | .stw _ | .none => s.ownerEntry 0
  | .mtrDev _ => s.ownerEntry 1
  | .lulDev _ => s.ownerEntry 2
  | .mem _ _ => s.ownerEntry 3
  | .cis _ => s.ownerEntry 4
  | .pmp _ _ => s.ownerEntry 5
  | .port _ _ => s.ownerEntry 6
  | .iln x => if 0x60100 ≤ x ∧ x < 0x60300 then s.ownerEntry 13 else s.ownerEntry 6
  | .axe _ _ => s.ownerEntry 7
  | .brm _ => s.ownerEntry 8
  | .snd _ => s.ownerEntry 9
  | .alm _ => s.ownerEntry 10
  | .pci _ => s.ownerEntry 11
  | .qtp _ => s.ownerEntry 12
  | .prt p _ => s.ownerEntry (ownerIdx (16 + p.val))
  | .mtr p _ => s.ownerEntry (ownerIdx (32 + p.val))
  | .lul p _ => s.ownerEntry (ownerIdx (48 + p.val))
  | .stm p _ => s.ownerEntry (ownerIdx (64 + p.val))
  | .seq n _ => s.holderOwner (s.seqHolder n)
  | .cor c _ => s.holderOwner (s.coreHolder c)
  | .slc n _ => s.holderOwner (s.sluiceHolder n)

/-- The partition whose window an offset lies in (R97). -/
def windowPart (off : Nat) : Option PartId :=
  match blockOf off with
  | .prt p _ | .mtr p _ | .lul p _ | .stm p _ => some p
  | _ => .none

/-- Does a control space offset lie in the window of an absent core or Sluice (R29)? -/
def State.absentWindow (s : State) (off : Nat) : Bool :=
  match blockOf off with
  | .cor c _ => !s.corePresent c.val
  | .slc n _ => !s.sluicePresent n.val
  | _ => false

/-- Control space offset of a register of partition p's PRT_ window (R7). -/
def prtOffset (p : PartId) (x : Nat) : Nat := 0x100000 + p.val * 0x1000 + x

/-- A STOP that the device applies to a partition at the end of the present epoch, as if its owner had written it (R180,
R380). -/
def State.deviceStop (s : State) (p : PartId) (cause : Byte) : State :=
  { s with ctl := { s.ctl with writes := s.ctl.writes ++
      [{ w := ⟨s.owner (prtOffset p 0), 0, prtOffset p 0, 9⟩, epoch := s.epoch, stop := some cause }] } }

/-! ### What answers (R65, R389), and what no control write changes (R58, R279) -/

/-- Is an offset served (R65, R389)? Before READY only what R65 lists; a halted device serves STW_, ALM_ and the orphan
registers. -/
def State.served (s : State) (off : Nat) : Bool :=
  let orphan (x : Nat) : Bool := decide (0x0C0 ≤ x ∧ x < 0x0F8)
  s.power.alwaysOn &&
    match blockOf off with
    | .alm _ => true
    | .prt _ x => orphan x || (s.boot.state == .ready && !s.ctl.halted)
    | .stw x =>
      s.ctl.halted || s.boot.state == .ready || [0x100, 0x200, 0x288, 0x300, 0x308, 0x310, 0x600].contains x ||
        decide (0x210 ≤ x ∧ x < 0x260) || decide (0x320 ≤ x ∧ x < 0x350) || decide (0x380 ≤ x ∧ x < 0x3A0) || decide (0x80000 ≤ x)
    | _ => s.boot.state == .ready && !s.ctl.halted

/-- A command on a register acts only where the register is served (R65). -/
def State.atReg (s : State) (off : Nat) (f : State → State) : State := s.iff (s.served off) f

/-- A class register of a memory unit: fixed by the image of its class (11, MEM_REG). -/
def State.regLocked (s : State) (x : Nat) : Bool :=
  decide (0x200 ≤ x ∧ x < 0x288) && (x == 0x280 || s.parts[partOf ((x - 0x200) / 8)].state.committed')

/-- A register with a field that an image fixes, once it is fixed; and every register of CIS_ (R58, R279; log 17). -/
def State.locked (s : State) (off : Nat) : Bool :=
  match blockOf off with
  | .stw x => decide (0x500 ≤ x ∧ x < 0x580)
  | .prt p x => [0x080, 0x090, 0x098, 0x0A0].contains x && s.parts[p].state.committed'
  | .mem _ x | .pmp _ x => s.regLocked x
  | .cis _ | .qtp _ => true
  | .seq _ x => x == 0
  | .iln x => x == 0x60000
  | .axe _ x => x == 0 || (decide (0x100 ≤ x ∧ x < 0x180) && s.parts[partOf ((x - 0x100) / 8)].state.committed')
  | .stm p x => x == 0x028 && s.parts[p].state.committed'
  | _ => false

/-! ### What a VF reaches (R94, R114, R115) -/

/-- The partition that a VF driver's identifier stands for (R94). -/
def vfOf (master : Byte) : Option PartId :=
  if 0x10 ≤ master.toNat ∧ master.toNat < 0x20 then some (partOf (master.toNat - 0x10)) else .none

/-- The master that a function's driver is (R94). -/
def masterOf : PciFn → Byte
  | .pf => 0x04
  | .vf p => BitVec.ofNat 8 (0x10 + p.val)

/-- Does a master have a path to an offset (R94): a VF driver to its partition's windows and the SEQ_ and COR_ windows? -/
def reaches (master : Byte) (off : Nat) : Bool :=
  match vfOf master with
  | .none => true
  | some p =>
    match blockOf off with
    | .seq _ _ | .cor _ _ => true
    | _ => windowPart off == some p

/-- The control space offset at an offset of BAR0; none where VF BAR0 maps nothing, or the capsule window (R114). -/
def bar0Offset (fn : PciFn) (x : Nat) : Option Nat :=
  match fn with
  | .pf => if x < 0x4000000 then some x else .none
  | .vf p =>
    if x < 0x1000 then some (0x100000 + p.val * 0x1000 + x)
    else if x < 0x2000 then some (0x200000 + p.val * 0x1000 + (x - 0x1000))
    else if x < 0x3000 then some (0x300000 + p.val * 0x1000 + (x - 0x2000))
    else if x < 0x4000 then some (0x2600000 + p.val * 0x1000 + (x - 0x3000))
    else if 0x100000 ≤ x ∧ x < 0x200000 then some (0x400000 + (x - 0x100000))
    else if 0x1000000 ≤ x ∧ x < 0x1C00000 then some x
    else .none

/-- Does a function read zero at an offset: the window of a unit that its partition does not hold (R115)? -/
def State.hidden (s : State) (fn : PciFn) (off : Nat) : Bool :=
  match fn with
  | .pf => false
  | .vf p =>
    match blockOf off with
    | .seq n _ => s.seqHolder n != some p
    | .cor c _ => s.coreHolder c != some p
    | _ => false

end Sys2Proof.Machine
end

