-- ==== Sys2Proof/Machine/Operands.lean ====
section
/-! DEFINITION. Every operand form of a slot (06 R136, R144, R145; 07 R160, R161; 08 operands use these): format
codes, queue ends, address generators, core memory lines, and the frame of one issue beat with its checks (R148). -/

namespace Sys2Proof.Machine

/-- The code of a format (R225). -/
def fmtCode : Fmt → Nat
  | .int4 => 0 | .int8 => 1 | .e2m1 => 2 | .e3m2 => 3 | .e2m3 => 4 | .e4m3 => 5 | .e5m2 => 6 | .bf16 => 7
  | .fp16 => 8 | .fp32 => 9 | .a16 => 0xA | .a20 => 0xB | .int32 => 0xC | .ue8 => 0xD

/-- The format of a code; codes 0xE and 0xF name none (R226). -/
def fmtOf (n : Nat) : Option Fmt :=
  match n with
  | 0 => some .int4 | 1 => some .int8 | 2 => some .e2m1 | 3 => some .e3m2 | 4 => some .e2m3 | 5 => some .e4m3
  | 6 => some .e5m2 | 7 => some .bf16 | 8 => some .fp16 | 9 => some .fp32 | 0xA => some .a16 | 0xB => some .a20
  | 0xC => some .int32 | 0xD => some .ue8
  | _ => none

/-- The bits of one element of a format (R225). -/
def fmtBits : Fmt → Nat
  | .int4 | .e2m1 => 4
  | .e3m2 | .e2m3 => 6
  | .int8 | .e4m3 | .e5m2 | .ue8 => 8
  | .bf16 | .fp16 | .a16 => 16
  | .a20 => 20
  | .fp32 | .int32 => 32

/-! ### Schedule faults (R147, R150) -/

/-- What a failed check says: cause, queue, epochs and formats. -/
structure FaultInfo where
  cause : Nat
  queue : Nat := 0
  expE : Nat := 0
  actE : Nat := 0
  expF : Nat := 0
  actF : Nat := 0
  deriving DecidableEq, Repr

/-- The fault word (06, Fault word). -/
def faultWord (f : FaultInfo) (core seq slot issueLow : Nat) : W64 :=
  place f.cause 56 8 ||| place core 48 8 ||| place seq 36 12 ||| place slot 33 3 ||| place f.queue 28 5 |||
    place f.expE 24 4 ||| place f.actE 20 4 ||| place f.expF 16 4 ||| place f.actF 12 4 ||| place issueLow 0 12

/-- The checks of R148 on one queue: none where it passes. -/
abbrev Check := Option FaultInfo

/-! ### Queue ends -/

def portLDA : Nat := 0x01
def portLDB : Nat := 0x02
def portMXD : Nat := 0x03
def portVXA : Nat := 0x04
def portVXB : Nat := 0x05
def portXCI : Nat := 0x07
def portMXA : Nat := 0x11
def portMXW : Nat := 0x12
def portMXS : Nat := 0x13
def portVIA : Nat := 0x14
def portVIB : Nat := 0x15
def portVIC : Nat := 0x16
def portSTA : Nat := 0x17
def portSTB : Nat := 0x18
def portXCO : Nat := 0x19

/-- The fields of a topology entry (06, QTP_). -/
def topoPush (t : W64) : Nat := bits t 56 8
def topoPop (t : W64) : Nat := bits t 48 8
def topoCore (t : W64) : Nat := bits t 40 8
def topoQueue (t : W64) : Nat := bits t 35 5

/-- The 16-bit tag of an entry (06, Queue entry tag). -/
def Entry.tag (e : Entry) : W16 :=
  BitVec.ofNat 16 ((e.epoch.toNat <<< 12) + (e.fmt.toNat <<< 8) + (e.void.toNat <<< 7) + (e.poison.toNat <<< 6))

/-- The entry a pop of an empty queue end returns (R145). -/
def voidEntry : Entry := { data := 0, epoch := 0, fmt := 0, void := true }

/-- A queue end of a core. -/
def Core.queue (c : Core) (q : QId) : QueueEnd := c.queues[q]

/-- Entries held. -/
def Core.occ (c : Core) (q : QId) : Nat := (c.queue q).entries.length

/-- The PORT check of a pop or a push (R147, 0x05). -/
def portCheckPop (c : Core) (q : QId) (port : Nat) : Check :=
  if topoPop (c.queue q).topo = port then none else some { cause := 0x05, queue := q.val }

def portCheckPush (c : Core) (q : QId) (port : Nat) : Check :=
  if topoPush (c.queue q).topo = port then none else some { cause := 0x05, queue := q.val }

/-- The checks of a popped operand: VOID_POP, EPOCH, FORMAT, in this order (R145, R148, R227). -/
def popCheck (c : Core) (q : QOp) (fmt : Option Nat) : Check :=
  match (c.queue q.q).entries with
  | [] => some { cause := 0x01, queue := q.q.val, expE := q.epoch.toNat, expF := fmt.getD 0 }
  | e :: _ =>
    let f : FaultInfo :=
      { cause := 0x02, queue := q.q.val, expE := q.epoch.toNat, actE := e.epoch.toNat, expF := fmt.getD 0, actF := e.fmt.toNat }
    if e.epoch ≠ q.epoch then some f
    else match fmt with
      | some x => if e.fmt.toNat = x then none else some { f with cause := 0x03 }
      | none => none

/-- The head of a queue end, the synthesised entry where it is empty. -/
def Core.head (c : Core) (q : QId) : Entry :=
  match (c.queue q).entries with
  | [] => voidEntry
  | e :: _ => e

/-- The head removed. -/
def Core.pop (c : Core) (q : QId) : Core :=
  { c with queues := updAt c.queues q fun x => { x with entries := x.entries.drop 1 } }

/-- An entry pushed; none where the queue end is full (R147, 0x04). -/
def Core.push (c : Core) (q : QId) (e : Entry) : Option Core :=
  if c.occ q < 8 then some { c with queues := updAt c.queues q fun x => { x with entries := x.entries ++ [e] } } else none

/-! ### Lines of core memory and of the accumulator buffer, with their poison (R146, R194) -/

/-- Bytes of core memory and of the accumulator buffer. -/
def coreMemSize : Nat := 0x300000
def accSize : Nat := 0x40000

/-- Is any 64-byte block of a range of core memory poisoned? -/
def Core.memPoisoned (c : Core) (a n : Nat) : Bool :=
  (List.range ((n + 63) / 64)).any fun i => c.memPoison.contains (a / 64 + i)

/-- Poison set or cleared on the 64-byte blocks of a range. -/
def setBlocks (l : List Nat) (a n : Nat) (p : Bool) : List Nat :=
  let bl := (List.range ((n + 63) / 64)).map (a / 64 + ·)
  let r := l.filter fun x => !bl.contains x
  if p then bl.foldl addTo r else r

/-- A line of core memory. -/
def Core.line (c : Core) (a : Nat) : Line := rdLine c.mem a

/-- A line of core memory written with its poison. -/
def Core.setLine (c : Core) (a : Nat) (d : Line) (p : Bool) : Core :=
  { c with mem := wrLine c.mem a d, memPoison := setBlocks c.memPoison a 256 p }

/-- Does a line of core memory hold records of the transfer record ring (R167)? -/
def Core.inRing (c : Core) (a : Nat) : Bool :=
  let b := c.ring.baseLine.toNat * 256
  c.ring.sizeLog2 != 0 && decide (b ≤ a ∧ a < b + 32 * 2 ^ c.ring.sizeLog2)

/-- A line the manual leaves undefined: records of a ring that an engine writes over (R171, log 7). -/
def freeLine (n a : Nat) : Line :=
  BitVec.ofNat 2048 (leNat ((List.range 256).map fun i => Config.freeByte n (a + i)))

/-- A line of the accumulator buffer, addressed from 0; poison by line (R194). -/
def Core.accLine (c : Core) (a : Nat) : Line := rdLine c.acc a
def Core.accPoisoned (c : Core) (a : Nat) : Bool := c.accPoison.contains (a / 256)
def Core.setAcc (c : Core) (a : Nat) (d : Line) (p : Bool) : Core :=
  { c with acc := wrLine c.acc a d, accPoison := if p then addTo c.accPoison (a / 256) else delFrom c.accPoison (a / 256) }

/-- The bank of a core memory address (R130). -/
def bankOf (a : Nat) : Nat := (a / 256) % 16

/-! ### Address generators (R160, R161) -/

/-- An advance of an address generator (R160). -/
def Agen.advance (g : Agen) : Agen :=
  if g.i + 1 ≤ g.count1.toNat then { g with i := g.i + 1, cur := g.cur + g.stride1.truncate 22 }
  else if g.j + 1 ≤ g.count2.toNat then
    let row := g.row + g.stride2.truncate 22
    { g with i := 0, j := g.j + 1, row := row, cur := row }
  else { g with i := 0, j := 0, row := g.base, cur := g.base }

/-- AGRST (R160). -/
def Agen.restart (g : Agen) : Agen := { g with cur := g.base, row := g.base, i := 0, j := 0 }

/-- AGSET of a field, truncated to its width; a base restarts the walk (R159, R160). -/
def Agen.setField (g : Agen) (f : BitVec 4) (v : W64) : Agen :=
  match f.toNat with
  | 0 => { g with base := v.truncate 22 }.restart
  | 1 => { g with stride1 := v.truncate 23 }
  | 2 => { g with count1 := v.truncate 16 }
  | 3 => { g with stride2 := v.truncate 23 }
  | 4 => { g with count2 := v.truncate 16 }
  | _ => g

/-! ### One issue beat -/

/-- What an operation does outside its core. -/
inductive Ext where
  | xfer (kind : XferKind) (ga : W64) (len : Nat) (tag : W64) (addr : Nat) (n : CtrId) (tc : BitVec 2) (ord : Bool)
      (op : BitVec 3) (ringAt : Nat) (phase : Bool)
  | raise (v : Nat)
  deriving DecidableEq, Repr

/-- The state of one issue beat: the core as the beat finds it (`old`), as its slots leave it (`new`), generators
already advanced, banks already used, faults by slot, outside effects, the time RDTIME reads, the first free value of
the beat (log 7) and the control epoch. -/
structure Beat where
  old : Core
  new : Core
  index : CoreId
  slot : Nat := 0
  advanced : List Reg4 := []
  banks : List Nat := []
  faults : List (Nat × FaultInfo) := []
  exts : List Ext := []
  now : W64 := 0
  free : Nat := 0
  epoch : Nat := 0
  deriving DecidableEq, Repr

/-- The address an operand takes from a generator. -/
def Beat.addr (b : Beat) (g : Reg4) : Nat := b.old.ag[g].cur.toNat

/-- A scalar register as the beat finds it. -/
def Beat.k (b : Beat) (r : Reg4) : W64 := b.old.k[r]

/-- The BUSY check of advancing uses (R161), for the uses of one operation in order. -/
def Beat.advCheck (b : Beat) (uses : List (Reg4 × Bool)) : Check :=
  let a := (uses.filter (·.2)).map (·.1)
  if a.any (fun g => b.advanced.contains g) || !allPairs' a then some { cause := 0x06 } else none
where
  allPairs' : List Reg4 → Bool
    | [] => true
    | x :: r => !r.contains x && allPairs' r

/-- Generators advanced. -/
def Beat.advance (b : Beat) (uses : List (Reg4 × Bool)) : Beat :=
  uses.foldl (fun b u =>
    if u.2 then { b with new := { b.new with ag := updAt b.new.ag u.1 Agen.advance }, advanced := u.1 :: b.advanced }
    else b) b

/-- A result due `k` beats after the issue beat (R139). -/
def Beat.after (b : Beat) (k rank : Nat) (r : Result) : Beat :=
  { b with new := { b.new with inflight := b.new.inflight ++
      [{ due := b.old.beats + k, beat := b.old.beats, free := b.free, rank := rank, res := r, seqIdx := b.new.curSeq, issue := b.new.curIssue, slot := b.slot }] } }

/-- A pop of one operand: its head, and the queue end without it. -/
def Beat.pop (b : Beat) (q : QId) : Entry × Beat := (b.old.head q, { b with new := b.new.pop q })

/-- An operation issued in a slot: the first failed check is its fault (R148), else its effect. -/
def Beat.run (b : Beat) (slot : Nat) (checks : List Check) (eff : Beat → Beat) : Beat :=
  let b := { b with slot := slot }
  match checks.findSome? id with
  | some f => { b with faults := b.faults ++ [(slot, f)] }
  | none => eff b

/-- A condition that raises a cause. -/
def failIf (c : Bool) (cause : Nat) : Check := if c then some { cause := cause } else none

/-- The banks of core memory that results in flight write in this beat (R162, R164). -/
def Core.busyBanks (c : Core) : List Nat :=
  c.inflight.filterMap fun f =>
    match f.res with
    | .memLine a _ _ => if f.due = c.beats then some (bankOf a) else none
    | _ => none

end Sys2Proof.Machine
end

