-- ==== Sys2Proof/Machine/ControlSlots.lean ====
section
/-! DEFINITION. The scalar, load, store and sync slots (07): one operation of one issue beat each. -/

namespace Sys2Proof.Machine

/-! ### Scalar slot (R159) -/

inductive ScalarOp where
  | nop | movi | movhi | add | sub | and | or | xor | shl | shr | sar | mul | agset | agrst | agget | rdbeats | rdtime
  | xring | xfree
  deriving DecidableEq, Repr

/-- sext() of the immediate (R159). -/
def sext (i : W32) : W64 := i.signExtend 64

/-- The value an arithmetic scalar operation writes (R159); integer arithmetic is modulo 2^64. -/
def scalarValue (o : ScalarOp) (x : SArgs) (ka kb : W64) : W64 :=
  match o with
  | .movi => sext x.imm
  | .movhi => (x.imm.setWidth 64 <<< 32) ||| (ka &&& 0xFFFFFFFF)
  | .add => ka + kb + sext x.imm
  | .sub => ka - kb
  | .and => ka &&& kb
  | .or => ka ||| kb
  | .xor => ka ^^^ kb
  | .shl => ka <<< bits x.imm 0 6
  | .shr => ka >>> bits x.imm 0 6
  | .sar => ka.sshiftRight (bits x.imm 0 6)
  | .mul => ka * kb
  | _ => 0

/-- The RANGE check of XRING (R167): k of 4 to 12, and a ring within core memory. -/
def xringRange (x : SArgs) (ka : W64) : Bool :=
  let k := bits x.imm 0 4
  decide (k < 4 ∨ 12 < k) || decide (coreMemSize < bits ka 8 14 * 256 + (32 <<< k))

/-- Records reserved and not freed (R168). -/
def Ring.used (r : Ring) : Nat := r.head - r.tail

/-- A scalar operation in its issue beat (R159, R160, R167, R168). -/
def Beat.scalar (b : Beat) (o : ScalarOp) (x : SArgs) : Beat :=
  let ka := b.k x.a
  let kb := b.k x.b
  match o with
  | .nop => b
  | .mul => b.run 0 [] (·.after 3 1 (.kreg x.d (scalarValue .mul x ka kb)))
  | .agset => b.run 0 [] (·.after 1 1 (.agset x.d x.f (ka + sext x.imm)))
  | .agrst => b.run 0 [] (·.after 1 1 (.agrst x.d))
  | .agget => b.run 0 [] (·.after 1 1 (.kreg x.d ((b.old.ag[x.a].cur).setWidth 64)))
  | .rdbeats => b.run 0 [] (·.after 1 1 (.kreg x.d (BitVec.ofNat 64 b.old.beats)))
  | .rdtime => b.run 0 [] (·.after 2 1 (.kreg x.d b.now))
  | .xring =>
    b.run 0 [failIf (xringRange x ka) 0x08, failIf (decide (0 < b.new.ring.used)) 0x06]
      (·.after 1 1 (.ring (BitVec.ofNat 14 (bits ka 8 14)) (bits x.imm 0 4)))
  | .xfree =>
    b.run 0 [failIf (decide (b.new.ring.used < x.imm.toNat)) 0x06] (·.after 1 1 (.ringFree x.imm.toNat))
  | o => b.run 0 [] (·.after 1 1 (.kreg x.d (scalarValue o x ka kb)))

/-! ### Load and store slots (R162 to R164) -/

inductive MemOp where
  | nop
  | one (x : LqArgs)
  | two (x : Lq2Args)
  | bulk (x : XferArgs)
  deriving DecidableEq, Repr

/-- An address with bits [7:0] forced to zero (R163). -/
def lineAddr (a : Nat) : Nat := a / 256 * 256

/-- RANGE of a line access (R163). -/
def lineRange (a : Nat) : Check := failIf (decide (coreMemSize ≤ a)) 0x08

/-- BANK: two accesses of one operation in one bank, or a bank already used in the beat (R164). -/
def bankCheck (used : List Nat) (as : List Nat) : Check :=
  let bs := as.map bankOf
  failIf (bs.any (fun x => used.contains x) || (match bs with | [x, y] => x == y | _ => false)) 0x07

/-- The next ring slot of a transfer (R168): BUSY with no ring set or a full one. -/
def ringBusy (c : Core) : Check := failIf (c.ring.sizeLog2 == 0 || decide (2 ^ c.ring.sizeLog2 ≤ c.ring.used)) 0x06

/-- A ring slot reserved (R168): its address in core memory, and the phase of its pass (R122, R167). -/
def Beat.reserve (b : Beat) : (Nat × Bool) × Beat :=
  let r := b.new.ring
  ((r.baseLine.toNat * 256 + 32 * (r.head % 2 ^ r.sizeLog2), (r.head / 2 ^ r.sizeLog2) % 2 == 0),
    { b with new := { b.new with ring := { r with head := r.head + 1 } } })

/-- RANGE of a GET or PUT (R163). -/
def bulkRange (a len : Nat) : Check :=
  failIf (decide (len % 64 ≠ 0 ∨ len < 64 ∨ coreMemSize < len ∨ coreMemSize < a + len)) 0x08

/-- A GET or PUT in its issue beat (R162, R163, R166, R168). -/
def Beat.bulk (b : Beat) (slot : Nat) (kind : XferKind) (x : XferArgs) : Beat :=
  let a := b.addr x.ag / 64 * 64
  let len := (b.k x.kl).toNat
  b.run slot [bulkRange a len, b.advCheck [(x.ag, x.adv)], ringBusy b.new] fun b =>
    let (rs, b1) := (b.advance [(x.ag, x.adv)]).reserve
    { b1 with exts := b1.exts ++ [.xfer kind (b.k x.ka) len (b.k x.kt) a x.n x.tc x.ord x.op rs.1 rs.2] }

/-- A load operation in its issue beat (R162). -/
def Beat.load (b : Beat) (o : MemOp) : Beat :=
  match o with
  | .nop => b
  | .one x =>
    let a := lineAddr (b.addr x.ag)
    b.run 3 [portCheckPush b.old x.q.q (if x.portB then portLDB else portLDA), lineRange a, b.advCheck [(x.ag, x.adv)],
        bankCheck (b.old.busyBanks ++ b.banks) [a]] fun b =>
      let b1 := { b.advance [(x.ag, x.adv)] with banks := bankOf a :: b.banks }
      b1.after 3 1 (.push x.q x.fmt (b.old.line a) (b.old.memPoisoned a 256))
  | .two x =>
    let a := lineAddr (b.addr x.agA)
    let c := lineAddr (b.addr x.agB)
    b.run 3 [portCheckPush b.old x.qA.q portLDA, portCheckPush b.old x.qB.q portLDB, lineRange a, lineRange c,
        b.advCheck [(x.agA, x.advA), (x.agB, x.advB)], bankCheck (b.old.busyBanks ++ b.banks) [a, c]] fun b =>
      let b1 := { b.advance [(x.agA, x.advA), (x.agB, x.advB)] with banks := bankOf a :: bankOf c :: b.banks }
      (b1.after 3 1 (.push x.qA x.fmtA (b.old.line a) (b.old.memPoisoned a 256))).after 3 1
        (.push x.qB x.fmtB (b.old.line c) (b.old.memPoisoned c 256))
  | .bulk x => b.bulk 3 .get x

/-- A store operation in its issue beat (R162): the bank is used in beat n + 2, where only the lines of this operation
can meet another (R164). -/
def Beat.store (b : Beat) (o : MemOp) : Beat :=
  match o with
  | .nop => b
  | .one x =>
    let a := lineAddr (b.addr x.ag)
    b.run 4 [portCheckPop b.old x.q.q (if x.portB then portSTB else portSTA), lineRange a, b.advCheck [(x.ag, x.adv)],
        popCheck b.old x.q (some (fmtCode x.fmt))] fun b =>
      let (e, b1) := (b.advance [(x.ag, x.adv)]).pop x.q.q
      b1.after 2 1 (.memLine a e.data e.poison)
  | .two x =>
    let a := lineAddr (b.addr x.agA)
    let c := lineAddr (b.addr x.agB)
    b.run 4 [portCheckPop b.old x.qA.q portSTA, portCheckPop b.old x.qB.q portSTB, lineRange a, lineRange c,
        b.advCheck [(x.agA, x.advA), (x.agB, x.advB)], bankCheck [] [a, c],
        popCheck b.old x.qA (some (fmtCode x.fmtA)), popCheck b.old x.qB (some (fmtCode x.fmtB))] fun b =>
      let (e, b1) := (b.advance [(x.agA, x.advA), (x.agB, x.advB)]).pop x.qA.q
      let (f, b2) := b1.pop x.qB.q
      (b2.after 2 1 (.memLine a e.data e.poison)).after 2 1 (.memLine c f.data f.poison)
  | .bulk x => b.bulk 4 .put x

/-! ### Sync slot, core half (R173, R174) -/

inductive SyncOp where
  | none
  | cset (n : CtrId) (imm : W32)
  | cadd (n : CtrId) (imm : W32)
  | waitc (n : CtrId) (imm : W32)
  | waitqp (q : QId) (k : BitVec 4)
  | waitqr (q : QId) (k : BitVec 4)
  | barrier (id : BitVec 4) (mask : W16)
  | signal (kd kt : Reg4) (n : CtrId)
  | raise (v : BitVec 6)
  deriving DecidableEq, Repr

/-- The wait a core half holds, with `m` the number of this barrier (R173, R176). -/
def SyncOp.wait (o : SyncOp) (c : Core) : Option Wait :=
  match o with
  | .waitc n v => some (.counter n v)
  | .waitqp q k => some (.qPop q k.toNat)
  | .waitqr q k => some (.qRoom q k.toNat)
  | .barrier id mask => some (.barrier id mask (c.barriers[regOf id.toNat] + 1) false)
  | _ => Option.none

/-- Does the condition of a wait hold (R174)? A barrier holds once released. -/
def Wait.holds (w : Wait) (c : Core) : Bool :=
  match w with
  | .counter n v => decide (v.toNat ≤ c.sync[n].count.toNat)
  | .qPop q k => decide (k ≤ c.occ q)
  | .qRoom q k => decide (c.occ q + k ≤ 8)
  | .barrier _ _ _ r => r

/-- A core half that is no wait, in its issue beat (R174). CSET and CADD of beat n come first in beat n + 1: before every
completion and SIGNAL that lands in that beat, and before its wait is judged (R175). -/
def Beat.sync (b : Beat) (o : SyncOp) : Beat :=
  match o with
  | .cset n v => b.run 5 [] (·.after 0 8 (.cset n v))
  | .cadd n v => b.run 5 [] (·.after 0 8 (.cadd n v))
  | .signal kd kt n =>
    b.run 5 [ringBusy b.new] fun b =>
      let (rs, b1) := b.reserve
      { b1 with exts := b1.exts ++ [.xfer .signal (b.k kd) 0 (b.k kt) 0 n 0 false 0 rs.1 rs.2] }
  | .raise v => b.run 5 [] fun b => { b with exts := b.exts ++ [.raise v.toNat] }
  | _ => b

end Sys2Proof.Machine
end

