-- ==== Sys2Proof/Machine/Flags.lean ====
section
/-! DEFINITION. Sticky flags and their event counts (10 R243 to R245), with the epochs of R6. -/

namespace Sys2Proof.Machine

/-- Conditions of two elements or steps together (R243). -/
def NFlags.or (a b : NFlags) : NFlags := ⟨a.nv || b.nv, a.nx || b.nx, a.un || b.un, a.ov || b.ov⟩

def NFlags.any (a : NFlags) : Bool := a.nv || a.nx || a.un || a.ov

def flagNv : NFlags := { nv := true }
def flagOv : NFlags := { ov := true }
def flagNx : NFlags := { nx := true }
def flagOvNx : NFlags := { ov := true, nx := true }
def flagUnNx : NFlags := { un := true, nx := true }
def flagNvNx : NFlags := { nv := true, nx := true }

/-- The conditions of `a` that are not in `b`. -/
def NFlags.minus (a b : NFlags) : NFlags := ⟨a.nv && !b.nv, a.nx && !b.nx, a.un && !b.un, a.ov && !b.ov⟩

/-- Flags `x` set in control epoch `n`, of which the conditions `c` are counted (R244). -/
def Flags.noteAs (f : Flags) (n : Nat) (x c : NFlags) : Flags :=
  if x.any then
    { cur := f.cur.or x
      nvEvents := satAdd 16 f.nvEvents c.nv.toNat
      ovEvents := satAdd 16 f.ovEvents c.ov.toNat
      unEvents := satAdd 16 f.unEvents c.un.toNat
      recent := f.recent ++ [⟨n, x, c⟩] }
  else f

/-- One operation or item that set flags, in control epoch `n`: an event is counted once per operation (R244). -/
def Flags.note (f : Flags) (n : Nat) (x : NFlags) : Flags := f.noteAs n x x

/-- The changes one item has made to a register since it stood at `old`, counted as one event (R243, R244). -/
def Flags.asItem (f old : Flags) (n : Nat) : Flags :=
  old.note n ((f.recent.drop old.recent.length).foldl (fun a e => a.or e.set) {})

/-- The conditions of the changes that a write of epoch `n` does not undo (R6): those of epoch `n` and later. -/
def Flags.since (f : Flags) (n : Nat) : NFlags :=
  (f.recent.filter fun e => decide (n ≤ e.epoch)).foldl (fun a e => a.or e.set) {}

/-- A W1C write of epoch `n` (R6, R244): mask bit 0 ov, 1 un, 2 nx, 3 nv. -/
def Flags.clear (f : Flags) (mask : BitVec 4) (n : Nat) : Flags :=
  let k := f.since n
  { f with cur :=
    { ov := if mask.getLsbD 0 then k.ov else f.cur.ov
      un := if mask.getLsbD 1 then k.un else f.cur.un
      nx := if mask.getLsbD 2 then k.nx else f.cur.nx
      nv := if mask.getLsbD 3 then k.nv else f.cur.nv } }

/-- clr_counts written in epoch `n` (R244, R245): the counts of the changes that the write does not undo remain. -/
def Flags.clearCounts (f : Flags) (n : Nat) : Flags :=
  let r := f.recent.filter fun e => decide (n ≤ e.epoch)
  { f with
    nvEvents := (r.filter (·.counted.nv)).length
    ovEvents := (r.filter (·.counted.ov)).length
    unEvents := (r.filter (·.counted.un)).length }

/-- Changes of epochs before `n` no longer matter to a later write. -/
def Flags.prune (f : Flags) (n : Nat) : Flags := { f with recent := f.recent.filter fun e => decide (n ≤ e.epoch) }

/-- A flags register (R244). -/
def Flags.read (f : Flags) : W64 :=
  place f.nvEvents 48 16 ||| place f.ovEvents 32 16 ||| place f.unEvents 16 16 ||| placeB f.cur.nv 3 |||
    placeB f.cur.nx 2 ||| placeB f.cur.un 1 ||| placeB f.cur.ov 0

/-- The flags register a command names. -/
def State.flags (s : State) : FlagReg → Flags
  | .coreM c => s.cores[c].mx.flags
  | .coreV c => s.cores[c].vx.flags
  | .axis a => s.axes[a].flags
  | .well w => s.wells[w].flags
  | .pump p => s.pumps[p].mem.flags

def State.updFlags (s : State) (r : FlagReg) (f : Flags → Flags) : State :=
  match r with
  | .coreM c => s.updCore c fun x => { x with mx := { x.mx with flags := f x.mx.flags } }
  | .coreV c => s.updCore c fun x => { x with vx := { x.vx with flags := f x.vx.flags } }
  | .axis a => s.updAxis a fun x => { x with flags := f x.flags }
  | .well w => s.updWell w fun x => { x with flags := f x.flags }
  | .pump p => s.updPump p fun x => { x with mem := { x.mem with flags := f x.mem.flags } }

/-- The adds of one item counted once per well (R244); `old` is the state before the item. -/
def State.itemFlags (s old : State) (n : Nat) : State :=
  s.over (allFin 12) fun s w => s.updWell w fun m => { m with flags := m.flags.asItem old.wells[w].flags n }

end Sys2Proof.Machine
end

