-- ==== Sys2Proof/Machine/Fp.lean ====
section
/-! DEFINITION. Exact values, rounding and the range rules of the number formats (10 R225 to R243). A finite value
stays exact until the one rounding that its rule names. -/

namespace Sys2Proof.Machine

/-- Shape of a float format: fraction bits, bias, largest finite code, canonical NaN, code of +infinity (R225, R235). -/
structure FpSpec where
  ebits : Nat
  fbits : Nat
  bias : Int
  maxCode : Nat
  nanCode : Option Nat
  infCode : Option Nat
  subnormals : Bool := true
  deriving DecidableEq, Repr

/-- The float formats (R225); none for the integer formats and for the unsigned scale. -/
def fpSpec : Fmt → Option FpSpec
  | .e2m1 => some ⟨2, 1, 1, 0x7, none, none, true⟩
  | .e3m2 => some ⟨3, 2, 3, 0x1F, none, none, true⟩
  | .e2m3 => some ⟨2, 3, 1, 0x1F, none, none, true⟩
  | .e4m3 => some ⟨4, 3, 7, 0x7E, some 0x7F, none, true⟩
  | .e5m2 => some ⟨5, 2, 15, 0x7B, some 0x7E, some 0x7C, true⟩
  | .bf16 => some ⟨8, 7, 127, 0x7F7F, some 0x7FC0, some 0x7F80, true⟩
  | .fp16 => some ⟨5, 10, 15, 0x7BFF, some 0x7E00, some 0x7C00, true⟩
  | .fp32 => some ⟨8, 23, 127, 0x7F7FFFFF, some 0x7FC00000, some 0x7F800000, true⟩
  | .a16 => some ⟨6, 9, 31, 0x7DFF, some 0x7F00, some 0x7E00, false⟩
  | _ => none

/-- The spec of FP32, for the engines that work in it. -/
def fp32Spec : FpSpec := ⟨8, 23, 127, 0x7F7FFFFF, some 0x7FC00000, some 0x7F800000, true⟩

/-- Bits of a float format. -/
def FpSpec.width (f : FpSpec) : Nat := 1 + f.ebits + f.fbits

/-- The exponent of the smallest normal value. -/
def FpSpec.emin (f : FpSpec) : Int := 1 - f.bias

/-- The value an encoding stands for (R225, R226). -/
def FpSpec.decode (f : FpSpec) (code : Nat) : FVal :=
  let sgn := code.testBit (f.ebits + f.fbits)
  let e := (code >>> f.fbits) % (1 <<< f.ebits)
  let m := code % (1 <<< f.fbits)
  let mag := code % (1 <<< (f.ebits + f.fbits))
  if f.infCode = some mag then .inf sgn
  else if f.maxCode < mag then .nan
  else if e = 0 then (if f.subnormals then .num sgn m (f.emin - f.fbits) else .num sgn 0 0)
  else .num sgn (m + (1 <<< f.fbits)) ((e : Int) - f.bias - f.fbits)

/-- The signed reading of the low `n` bits of a number. -/
def signedOf (n v : Nat) : Int := if (v % (1 <<< n)).testBit (n - 1) then (v % (1 <<< n) : Int) - (1 <<< n) else (v % (1 <<< n) : Int)

/-- An integer as an exact value. -/
def ofInt (i : Int) : FVal := .num (i < 0) i.natAbs 0

/-- The value of an element in a format (R225). A UE8 code c is 2^(c - 127), 0xFF is NaN. -/
def decodeElem (f : Fmt) (code : Nat) : FVal :=
  match f with
  | .int4 => ofInt (signedOf 4 code)
  | .int8 => ofInt (signedOf 8 code)
  | .int32 => ofInt (signedOf 32 code)
  | .ue8 => if code % 256 = 255 then .nan else .num false 1 ((code % 256 : Int) - 127)
  | .a20 => .num false 0 0
  | f => match fpSpec f with
    | some g => g.decode code
    | none => .nan

/-! ### Exact arithmetic with the special values of R236 -/

/-- The sign of a value. -/
def FVal.neg? : FVal → Bool
  | .nan => false
  | .inf n => n
  | .num n _ _ => n

def FVal.isNan : FVal → Bool
  | .nan => true
  | _ => false

def FVal.isZero : FVal → Bool
  | .num _ m _ => m == 0
  | _ => false

def FVal.isInf : FVal → Bool
  | .inf _ => true
  | _ => false

def FVal.negate : FVal → FVal
  | .nan => .nan
  | .inf n => .inf (!n)
  | .num n m e => .num (!n) m e

def FVal.abs : FVal → FVal
  | .nan => .nan
  | .inf _ => .inf false
  | .num _ m e => .num false m e

/-- A finite value as a signed integer at exponent `e`, at or below its own. -/
def signedAt (n : Bool) (m : Nat) (x e : Int) : Int :=
  let v : Int := (m <<< (x - e).toNat : Nat)
  if n then -v else v

/-- Exact addition: the sum, and whether it created a NaN. An exact zero is -0 only for two negative zeros (R211). -/
def fadd (a b : FVal) : FVal × NFlags :=
  match a, b with
  | .nan, _ | _, .nan => (.nan, {})
  | .inf x, .inf y => if x = y then (.inf x, {}) else (.nan, flagNv)
  | .inf x, _ => (.inf x, {})
  | _, .inf y => (.inf y, {})
  | .num x m e, .num y k g =>
    if m = 0 ∧ k = 0 then (.num (x && y) 0 0, {})
    else
      let z := min e g
      let v := signedAt x m e z + signedAt y k g z
      (.num (v < 0) v.natAbs z, {})

/-- Exact multiplication. -/
def fmul (a b : FVal) : FVal × NFlags :=
  match a, b with
  | .nan, _ | _, .nan => (.nan, {})
  | .inf x, .inf y => (.inf (x != y), {})
  | .inf x, .num y m _ => if m = 0 then (.nan, flagNv) else (.inf (x != y), {})
  | .num x m _, .inf y => if m = 0 then (.nan, flagNv) else (.inf (x != y), {})
  | .num x m e, .num y k g => (.num (x != y) (m * k) (e + g), {})

/-- a × b + c, exact; a NaN operand sets no flag (R236). -/
def ffma (a b c : FVal) : FVal × NFlags :=
  if a.isNan || b.isNan || c.isNan then (.nan, {})
  else
    let (p, f) := fmul a b
    if f.nv then (.nan, f) else fadd p c

/-- Numeric order of two values that are not NaN; both zeros are equal. -/
def flt (a b : FVal) : Bool :=
  match a, b with
  | .nan, _ | _, .nan => false
  | .inf x, .inf y => x && !y
  | .inf x, _ => x
  | _, .inf y => !y
  | .num x m e, .num y k g => let z := min e g; decide (signedAt x m e z < signedAt y k g z)

def feq (a b : FVal) : Bool := !a.isNan && !b.isNan && !flt a b && !flt b a

/-! ### Rounding (R228, R229) -/

/-- A rounding: nearest ties to even, nearest ties away, toward zero, or stochastic with an 8-bit draw. -/
inductive Rnd where
  | rne | rna | rz | sr (draw : Nat)
  deriving DecidableEq, Repr

/-- ⌊log2 (n / d)⌋ of a positive quotient. -/
def flog2 (n d : Nat) : Int :=
  let k : Int := (Nat.log2 n : Int) - (Nat.log2 d : Int)
  if (if 0 ≤ k then d <<< k.toNat ≤ n else d ≤ n <<< (-k).toNat) then k else k - 1

/-- Whole units of 2^q in n / d, the remainder and the divisor it stands over. -/
def unitsOf (n d : Nat) (q : Int) : Nat × Nat × Nat :=
  let n' := if q < 0 then n <<< (-q).toNat else n
  let d' := if 0 ≤ q then d <<< q.toNat else d
  (n' / d', n' % d', d')

/-- Units rounded under a mode (R229). -/
def roundUnits (u r d : Nat) : Rnd → Nat
  | .rne => if 2 * r > d ∨ (2 * r = d ∧ u % 2 = 1) then u + 1 else u
  | .rna => if 2 * r ≥ d ∧ r ≠ 0 then u + 1 else u
  | .rz => u
  | .sr w => if w < 256 * r / d then u + 1 else u

/-- The magnitude code of `u` units of 2^q, q at or above the format's smallest quantum; it may exceed every finite
code. -/
def FpSpec.encodeMag (f : FpSpec) (u : Nat) (q : Int) : Nat :=
  if u = 0 then 0
  else
    let l := Nat.log2 u
    let e : Int := l + q
    if e < f.emin then u
    else
      let m := if l ≤ f.fbits then u <<< (f.fbits - l) else u >>> (l - f.fbits)
      ((e + f.bias).toNat <<< f.fbits) + (m - (1 <<< f.fbits))

/-- A code with its sign. -/
def FpSpec.signed (f : FpSpec) (n : Bool) (mag : Nat) : Nat := mag + (n.toNat <<< (f.ebits + f.fbits))

/-- The code of a NaN result (R235); formats without NaN are dealt with by R233. -/
def FpSpec.nan (f : FpSpec) : Nat := f.nanCode.getD 0

/-- Overflow of a finite value (R232, R233). `sat` is the saturate mode. -/
def FpSpec.overflow (f : FpSpec) (sat n : Bool) : Nat × NFlags :=
  if sat then (f.signed n f.maxCode, flagOvNx)
  else match f.infCode with
    | some c => (f.signed n c, flagOvNx)
    | none => match f.nanCode with
      | some c => (c, flagOvNx)
      | none => (f.signed n f.maxCode, flagOvNx)

/-- The exponent of the spacing of a format's values at a positive quotient (R229): a format without subnormals has no
value between zero and its smallest normal one (R226). -/
def FpSpec.quantum (f : FpSpec) (num den : Nat) : Int :=
  let l := flog2 num den
  if l < f.emin ∧ !f.subnormals then f.emin else max l f.emin - f.fbits

/-- A finite value ± num / den delivered in a format. `arith` flushes results below the smallest normal (R231). -/
def FpSpec.deliver (f : FpSpec) (sat arith : Bool) (r : Rnd) (n : Bool) (num den : Nat) : Nat × NFlags :=
  if num = 0 then (f.signed n 0, {})
  else
    let q := f.quantum num den
    let (u, m, d) := unitsOf num den q
    let v := roundUnits u m d r
    let mag := f.encodeMag v q
    if f.maxCode < mag then f.overflow sat n
    else if mag = 0 ∨ ((arith || !f.subnormals) ∧ mag < (1 <<< f.fbits)) then (f.signed n 0, flagUnNx)
    else (f.signed n mag, if m = 0 then {} else flagNx)

/-- An exact dyadic value as a quotient. -/
def dyadic (m : Nat) (e : Int) : Nat × Nat := if 0 ≤ e then (m <<< e.toNat, 1) else (m, 1 <<< (-e).toNat)

/-- An arithmetic result in a float format (R231, R232, R235): `inf` comes from an infinite operand. -/
def FpSpec.arith (f : FpSpec) (sat : Bool) (r : Rnd) (v : FVal × NFlags) : Nat × NFlags :=
  match v.1 with
  | .nan => (f.nan, v.2)
  | .inf n => if sat then (f.signed n f.maxCode, v.2.or flagOv) else (f.signed n (f.infCode.getD f.maxCode), v.2)
  | .num n m e => let (a, b) := dyadic m e; let (c, g) := f.deliver sat true r n a b; (c, v.2.or g)

/-- An infinity from finite operands (R232; R237, R354). -/
def FpSpec.infinite (f : FpSpec) (sat n : Bool) : Nat × NFlags :=
  (f.signed n (if sat then f.maxCode else f.infCode.getD f.maxCode), flagOv)

/-- An FP32 arithmetic result. -/
def arith32 (sat : Bool) (r : Rnd) (v : FVal × NFlags) : Nat × NFlags := fp32Spec.arith sat r v

def dec32 (c : Nat) : FVal := fp32Spec.decode c

/-- FP32 sum, product and difference rounded to nearest even (R195). -/
def add32 (sat : Bool) (a b : Nat) : Nat × NFlags := arith32 sat .rne (fadd (dec32 a) (dec32 b))
def mul32 (sat : Bool) (a b : Nat) : Nat × NFlags := arith32 sat .rne (fmul (dec32 a) (dec32 b))
def sub32 (sat : Bool) (a b : Nat) : Nat × NFlags := arith32 sat .rne (fadd (dec32 a) (dec32 b).negate)

/-! ### Conversions (R229, R231, R233) -/

/-- A finite value ± num / den rounded to an integer of `w` bits, clamped (R233). -/
def toIntFmt (w : Nat) (r : Rnd) (n : Bool) (num den : Nat) : Nat × NFlags :=
  let (u, m, d) := unitsOf num den 0
  let v := roundUnits u m d r
  let lim := if n then 1 <<< (w - 1) else (1 <<< (w - 1)) - 1
  let i := min v lim
  let code := if n ∧ i ≠ 0 then (1 <<< w) - i else i
  if lim < v then (code, flagNvNx)
  else if v = 0 ∧ num ≠ 0 then (code, flagUnNx)
  else (code, if m = 0 then {} else flagNx)

/-- The width of an integer format. -/
def intWidth : Fmt → Option Nat
  | .int4 => some 4
  | .int8 => some 8
  | .int32 => some 32
  | _ => none

/-- A conversion into a target format under a rounding and a mode (R229, R231 to R233, R235). -/
def convert (t : Fmt) (sat : Bool) (r : Rnd) (v : FVal) : Nat × NFlags :=
  match intWidth t with
  | some w =>
    match v with
    | .nan => (0, flagNv)
    | .inf n => (if n then 1 <<< (w - 1) else (1 <<< (w - 1)) - 1, flagNv)
    | .num n m e => let (a, b) := dyadic m e; toIntFmt w r n a b
  | none =>
    match fpSpec t with
    | none => (0, {})
    | some f =>
      match v with
      | .nan => match f.nanCode with
        | some c => (c, {})
        | none => (0, flagNv)
      | .inf n =>
        match f.infCode, f.nanCode with
        | some c, _ => if sat then (f.signed n f.maxCode, flagOv) else (f.signed n c, {})
        | none, some c => if sat then (f.signed n f.maxCode, flagOv) else (c, flagNv)
        | none, none => (f.signed n f.maxCode, flagOv)
      | .num n m e => let (a, b) := dyadic m e; f.deliver sat false r n a b

/-! ### Linear feedback shift registers (R217, R230) -/

/-- One step: the bit out and the new state. -/
def lfsrStep (s : W32) : Bool × W32 :=
  let out := s.getLsbD 0
  (out, if out then (s >>> 1) ^^^ 0x80200003#32 else s >>> 1)

/-- A draw: eight steps, the first bit out most significant. -/
def lfsrDraw (s : W32) : Nat × W32 :=
  (List.range 8).foldl (fun (a, s) _ => let (b, t) := lfsrStep s; (2 * a + b.toNat, t)) (0, s)

/-- The state of register `i` for a seed; 0 is replaced by 1. -/
def lfsrSeed (seed : W32) (i : Nat) : W32 :=
  let v := seed ^^^ BitVec.ofNat 32 (i * 0x10000)
  if v = 0 then 1 else v

end Sys2Proof.Machine
end

