-- ==== Sys2Proof/Machine/FuncUnit.lean ====
section
/-! DEFINITION. The function unit (08 R435; 10 R237): the exact result of each function, the codes that lie within its
bound, and the unpublished choice among them; gates (R339) and bias corrections (R355) are found alike. An exact result that is irrational is worked out to 704 fraction bits. -/

namespace Sys2Proof.Machine

/-- One, with 704 fraction bits. -/
def fuOne : Nat := 1 <<< 704

/-- A positive operand m · 2^e with 704 fraction bits: exact, since no operand has a quantum below 2^-149. -/
def fuFix (m : Nat) (e : Int) : Nat := m <<< (e + 704).toNat

/-- The series of atanh from its term `t` of index `k`, `r2` the square of the argument. -/
def fuAtanh (r2 : Nat) : Nat → Nat → Nat → Nat
  | 0, _, _ => 0
  | n + 1, k, t => t / (2 * k + 1) + fuAtanh r2 n (k + 1) ((t * r2) >>> 704)

/-- The natural logarithm of t / fuOne, for a quotient from 1 to 2. -/
def fuLn (t : Nat) : Nat :=
  let r := (t - fuOne) * fuOne / (t + fuOne)
  2 * fuAtanh ((r * r) >>> 704) 230 0 r

/-- ln 2. -/
def fuLn2 : Nat := fuLn (2 * fuOne)

/-- The series of exp from its term `t` of index `k`. -/
def fuExpSum (y : Nat) : Nat → Nat → Nat → Nat
  | 0, _, _ => 0
  | n + 1, k, t => t + fuExpSum y n (k + 1) (((t * y) >>> 704) / (k + 1))

/-- 2 to a fraction. -/
def fuExp2 (f : Nat) : Nat := fuExpSum ((f * fuLn2) >>> 704) 140 0 fuOne

/-- e to a non-negative power. -/
def fuExp (y : Nat) : Nat :=
  let z := y * fuOne / fuLn2
  fuExp2 (z % fuOne) <<< (z >>> 704)

/-- e to the power −d, kept above zero. -/
def fuExpNeg (d : Nat) : Nat := if 400 * fuOne ≤ d then 1 else fuOne * fuOne / fuExp d

/-- The logistic function of ± x, kept between 0 and 1. -/
def fuSigm (s : Bool) (x : Nat) : Nat :=
  if 400 * fuOne ≤ x then (if s then 1 else fuOne - 1)
  else
    let e := fuExp x
    (if s then fuOne else e) * fuOne / (e + fuOne)

/-- Steps of Newton's square root from above. -/
def fuRoot (n : Nat) : Nat → Nat → Nat
  | 0, g => g
  | k + 1, g => fuRoot n k ((g + n / g) / 2)

/-- The square root of a positive number; a root that is whole is exact. -/
def fuSqrt (n : Nat) : Nat := fuRoot n 16 (1 <<< (Nat.log2 n / 2 + 1))

/-- The exact result of a function for a finite non-zero operand ± x: its sign, and its magnitude as a quotient. The
functions are numbered from VEXP2 (0) to VSIGM (6). Where a result lies beyond every format, or within 2^-500 of 1, a
quotient on the same side stands for it. -/
def fuExact (n : Nat) (s : Bool) (x : Nat) : Bool × Nat × Nat :=
  match n with
  | 0 =>
    if 1000 * fuOne ≤ x then (false, if s then (1, 1 <<< 1000) else (1 <<< 1000, 1))
    else if s then
      let k := (x + fuOne - 1) >>> 704
      (false, fuExp2 ((k <<< 704) - x), fuOne <<< k)
    else (false, fuExp2 (x % fuOne) <<< (x >>> 704), fuOne)
  | 1 =>
    let l := Nat.log2 x
    let v : Int := ((l : Int) - 704) * (fuOne : Int) + ((fuLn (x * fuOne / (1 <<< l)) * fuOne / fuLn2 : Nat) : Int)
    (decide (v < 0), v.natAbs, fuOne)
  | 2 => (s, fuOne, x)
  | 3 => (false, fuSqrt (fuOne * fuOne * fuOne / x), fuOne)
  | 4 => (false, fuSqrt (x * fuOne), fuOne)
  | 5 =>
    if 200 * fuOne ≤ x then (s, (1 <<< 500) - 1, 1 <<< 500) else let e := fuExp (2 * x); (s, e - fuOne, e + fuOne)
  | _ =>
    if 300 * fuOne ≤ x then (false, if s then 1 else (1 <<< 500) - 1, 1 <<< 500)
    else let e := fuExp x; (false, if s then fuOne else e, e + fuOne)

/-- The bound of a function in units in the last place (R435). -/
def fuUlps (n : Nat) : Nat := match n with | 2 | 3 | 4 => 1 | 0 | 1 => 2 | _ => 4

/-- The quotient num / den moved by `k` units of 2^q, down to zero at the lowest. -/
def fuShift (up : Bool) (num den k : Nat) (q : Int) : Nat × Nat :=
  let a := if q < 0 then num <<< (-q).toNat else num
  let b := if q < 0 then den else den <<< q.toNat
  (if up then a + k * b else a - k * b, if q < 0 then den <<< (-q).toNat else den)

/-- The magnitude code next to a quotient in a format: at or below it, or (`up`) at or above it. -/
def FpSpec.codeAt (g : FpSpec) (up : Bool) (x : Nat × Nat) : Nat :=
  if x.1 = 0 then 0
  else
    let q := g.quantum x.1 x.2
    let (u, m, _) := unitsOf x.1 x.2 q
    g.encodeMag (if up && m != 0 then u + 1 else u) q

/-- The lowest and the highest magnitude code within `k` units in the last place of an exact result. -/
def FpSpec.within (g : FpSpec) (k num den : Nat) : Nat × Nat :=
  let q := g.quantum num den
  (g.codeAt true (fuShift false num den k q), g.codeAt false (fuShift true num den k q))

/-- The magnitude code that a choice `v` picks among those within `k` units in the last place of num / den. -/
def FpSpec.choose (g : FpSpec) (k num den v : Nat) : Nat :=
  let (lo, hi) := g.within k num den
  lo + v % (hi - lo + 1)

/-- A positive FP32 result within `k` units of num / den, a result below the least normal flushed to zero (R232). -/
def choose32 (k num den v : Nat) : Nat :=
  if num = 0 then 0
  else
    let c := fp32Spec.choose k num den v
    if c < (1 <<< 23) then 0 else c

/-- A power of a positive number with 704 fraction bits, `n` bits of the exponent left: kept above zero, and at most
2^1000 (farther powers have no result of their own). -/
def fuPow (x : Nat) : Nat → Nat → Nat
  | 0, _ => fuOne
  | n + 1, t =>
    let cap (y : Nat) : Nat := max 1 (min (y >>> 704) (fuOne <<< 1000))
    let h := fuPow x n (t / 2)
    let y := cap (h * h)
    if t % 2 = 1 then cap (y * x) else y

/-- Does a magnitude code stand for exactly num / den? -/
def FpSpec.isExactly (g : FpSpec) (c num den : Nat) : Bool :=
  match g.decode c with
  | .num _ m e => let (a, b) := dyadic m e; a * den == num * b
  | _ => false

/-- The function unit's result for a finite non-zero operand of its domain (R435): one of the codes within its bound of
the exact result; which of them, the manual does not publish (log 8). -/
def FpSpec.function (g : FpSpec) (n : Nat) (fmt : Nat) (sat : Bool) (a : Nat) (s : Bool) (x : Nat) : Nat × NFlags :=
  let (t, num, den) := fuExact n s x
  if num = 0 then (g.signed t 0, {})
  else
    let c := g.choose (fuUlps n) num den (Config.funcUnit n fmt a)
    if g.maxCode < c then g.overflow sat t
    else if c < (1 <<< g.fbits) then (g.signed t 0, flagUnNx)
    else (g.signed t c, if g.isExactly c num den then {} else flagNx)

end Sys2Proof.Machine
end

