-- ==== Sys2Proof/Machine/Update.lean ====
section
/-! DEFINITION. The recurrence of a parameter update (15 R354) in FP32, shared by the Pumps and the vector stages
VUPDM, VUPDV and VUPDW. Each operation rounds once, to nearest with ties to even. -/

namespace Sys2Proof.Machine

/-- FP32 division (R236, R232). -/
def div32 (sat : Bool) (a b : Nat) : Nat × NFlags :=
  match dec32 a, dec32 b with
  | .nan, _ | _, .nan => (fp32Spec.nan, {})
  | .inf _, .inf _ => (fp32Spec.nan, flagNv)
  | .inf x, .num y _ _ => arith32 sat .rne (.inf (x != y), {})
  | .num x _ _, .inf y => (fp32Spec.signed (x != y) 0, {})
  | .num x m e, .num y k g =>
    if k = 0 then (if m = 0 then (fp32Spec.nan, flagNv) else fp32Spec.infinite sat (x != y))
    else
      let (n, d) := dyadic m (e - g)
      fp32Spec.deliver sat true .rne (x != y) n (d * k)

/-- The integer square root of a number below 2^64. -/
def isqrt (n : Nat) : Nat :=
  (List.range 32).foldl (fun r i =>
    let t := r + (1 <<< (31 - i))
    if t * t ≤ n then t else r) 0

/-- FP32 square root: -0 of -0, invalid below zero (R237). -/
def sqrt32 (sat : Bool) (a : Nat) : Nat × NFlags :=
  match dec32 a with
  | .nan => (fp32Spec.nan, {})
  | .inf false => arith32 sat .rne (.inf false, {})
  | .inf true => (fp32Spec.nan, flagNv)
  | .num s m e =>
    if m = 0 then (fp32Spec.signed s 0, {})
    else if s then (fp32Spec.nan, flagNv)
    else
      let l := 62 - Nat.log2 m
      let l' := if (e - l) % 2 = 0 then l else l + 1
      let n := m <<< l'
      let r := isqrt n
      let (x, d) := dyadic (2 * r + (if r * r = n then 0 else 1)) ((e - l') / 2 - 1)
      fp32Spec.deliver sat true .rne false x d

/-- FP32 fused multiply-add. -/
def fma32 (sat : Bool) (a b c : Nat) : Nat × NFlags := arith32 sat .rne (ffma (dec32 a) (dec32 b) (dec32 c))

/-- A coefficient of the evaluated row. -/
def coefOf (cf : List Nat) (i : Nat) : Nat := cf.getD i 0

def neg32 (a : Nat) : Nat := a ^^^ 0x80000000

/-- m1 := fma(c1, c12 × g_in, c0 × m). -/
def updM (sat : Bool) (cf : List Nat) (g m : Nat) : Nat × NFlags :=
  let (x, f1) := mul32 sat (coefOf cf 12) g
  let (y, f2) := mul32 sat (coefOf cf 0) m
  let (r, f3) := fma32 sat (coefOf cf 1) x y
  (r, (f1.or f2).or f3)

/-- v1 := fma(c3, g × g, c2 × v). -/
def updV (sat : Bool) (cf : List Nat) (g v : Nat) : Nat × NFlags :=
  let (x, f1) := mul32 sat (coefOf cf 12) g
  let (y, f2) := mul32 sat x x
  let (z, f3) := mul32 sat (coefOf cf 2) v
  let (r, f4) := fma32 sat (coefOf cf 3) y z
  (r, ((f1.or f2).or f3).or f4)

/-- sign(d) of R354. -/
def sign32 (d : Nat) : Nat :=
  match dec32 d with
  | .nan => fp32Spec.nan
  | .inf n => if n then 0xBF800000 else 0x3F800000
  | .num n m _ => if m = 0 then fp32Spec.signed n 0 else if n then 0xBF800000 else 0x3F800000

/-- The direction d of R354 before sign and clamp. -/
def updDir (sat : Bool) (cf : List Nat) (m1 v1 : Nat) : Nat × NFlags :=
  if (coefOf cf 14).testBit 0 then
    let (a, f1) := mul32 sat m1 (coefOf cf 10)
    let (b, f2) := mul32 sat (coefOf cf 4) a
    let (c, f3) := mul32 sat v1 (coefOf cf 11)
    let (d, f4) := sqrt32 sat c
    let (e, f5) := add32 sat d (coefOf cf 6)
    let (r, f6) := div32 sat b e
    (r, ((((f1.or f2).or f3).or f4).or f5).or f6)
  else mul32 sat (coefOf cf 4) m1

/-- min(max(d, -c13), c13) (R354). -/
def clamp32 (sat : Bool) (d c : Nat) : Nat × NFlags :=
  let pick (mx : Bool) (a b : Nat) : Nat × NFlags :=
    let x := dec32 a
    let y := dec32 b
    arith32 sat .rne
      (if x.isNan || y.isNan then .nan else if (if mx then flt x y else flt y x) then y else x, {})
  let (a, f1) := pick true d (neg32 c)
  let (b, f2) := pick false a c
  (b, f1.or f2)

/-- w1 := w - fma(c7, d, c8 × w). -/
def updW (sat : Bool) (cf : List Nat) (w m1 v1 : Nat) : Nat × NFlags :=
  let (d0, f1) := updDir sat cf m1 v1
  let d1 := if (coefOf cf 14).testBit 1 then sign32 d0 else d0
  let (d2, f2) := if (coefOf cf 14).testBit 2 then clamp32 sat d1 (coefOf cf 13) else (d1, {})
  let (x, f3) := mul32 sat (coefOf cf 8) w
  let (y, f4) := fma32 sat (coefOf cf 7) d2 x
  let (r, f5) := sub32 sat w y
  (r, (((f1.or f2).or f3).or f4).or f5)

end Sys2Proof.Machine
end

