-- ==== Sys2Proof/Machine/VectorSlots.lean ====
section
/-! DEFINITION. The vector slot (08 R184, R194 to R203, R230; 10 R229 to R242): one operation of one issue beat. -/

namespace Sys2Proof.Machine

/-! ### Entries as elements (R184) -/

/-- Elements of an entry. -/
def elemCount : Fmt → Nat
  | .int4 | .e2m1 => 512
  | .e3m2 | .e2m3 | .int8 | .e4m3 | .e5m2 | .ue8 => 256
  | .bf16 | .fp16 | .a16 => 128
  | .fp32 | .int32 => 64
  | .a20 => 0

/-- Bit offset of element `i`: FP6 entries are two halves of 128 elements. -/
def elemAt (f : Fmt) (i : Nat) : Nat :=
  match f with
  | .e3m2 | .e2m3 => 1024 * (i / 128) + 6 * (i % 128)
  | f => fmtBits f * i

/-- The elements of an entry, in order. -/
def elems (f : Fmt) (l : Line) : List Nat := (List.range (elemCount f)).map fun i => bits l (elemAt f i) (fmtBits f)

/-- Codes placed from element `i` onward, over what the entry holds there. -/
def setElems (f : Fmt) (l : Line) (i : Nat) (xs : List Nat) : Line :=
  (xs.zipIdx).foldl (fun l e =>
    let o := elemAt f (i + e.2)
    let m : Line := (BitVec.ofNat 2048 ((1 <<< fmtBits f) - 1)) <<< o
    (l &&& ~~~ m) ||| ((BitVec.ofNat 2048 (e.1 % (1 <<< fmtBits f))) <<< o)) l

/-- An entry of the given elements. -/
def packElems (f : Fmt) (xs : List Nat) : Line := setElems f 0 0 xs

/-! ### Operations -/

inductive VecOp where
  | nop | mov | add | sub | mul | fma | min | max | abs | neg | cmp | sel | and | or | xor | shl | shr
  | func (n : Fin 7)
  | cvt | quant | amax | amaxrd | rsum | rmax | topk | updm | updv | updw | coef | gate | storm | seed
  deriving DecidableEq, Repr

/-- Latencies (R195). -/
def vecLatency (o : VecOp) (f : Fmt) : Nat :=
  match o with
  | .nop => 0
  | .add | .sub => if f = .int32 then 2 else 4
  | .mul | .fma => 4
  | .func _ => 10
  | .cvt | .amax => 3
  | .quant | .updv => 6
  | .amaxrd | .updm => 4
  | .rsum | .rmax => 8
  | .topk | .updw => 12
  | .gate | .storm | .seed => 1
  | _ => 2

/-- Source operands an operation uses, in operand order. -/
def vecSources (o : VecOp) (x : VArgs) : List (VOperand × Nat) :=
  match o with
  | .nop | .amaxrd | .seed => []
  | .add | .sub | .mul | .min | .max | .cmp | .and | .or | .xor | .updm | .updv => [(x.a, portVIA), (x.b, portVIB)]
  | .fma | .sel | .updw => [(x.a, portVIA), (x.b, portVIB), (x.c, portVIC)]
  | .topk => if bit x.imm 15 then [(x.a, portVIA)] else [(x.a, portVIA), (x.b, portVIB)]
  | .storm => if bits x.imm 0 2 = 2 then [(x.b, portVIB)] else [(x.a, portVIA), (x.b, portVIB)]
  | _ => [(x.a, portVIA)]

/-- Does the operation deliver to D, and to C (R197, R198)? -/
def vecDests (o : VecOp) (x : VArgs) : List VOperand :=
  match o with
  | .nop | .amax | .coef | .gate | .storm | .seed => []
  | .cvt =>
    match fmtOf (bits x.imm 0 4) with
    | some t => if elemCount x.fmt < elemCount t ∧ !bit x.imm 14 then [] else [x.d]
    | none => []
  | .quant => (if bit x.imm 14 then [x.d] else []) ++ (if bit x.imm 23 then [x.c] else [])
  | _ => [x.d]

/-- Accumulator line address of an operand, from the start of the local space (R194). -/
def Beat.accAddr (b : Beat) (g : Reg4) : Nat := lineAddr (b.addr g)

/-- RANGE of an accumulator operand (R194). -/
def accRange (a : Nat) : Check := failIf (decide (a < 0x300000 ∨ 0x340000 ≤ a)) 0x08

/-- A source operand read in the issue beat: 256 bytes and poison (R194, R146). -/
def Beat.vsrc (b : Beat) (f : Fmt) (o : VOperand) : Line × Bool :=
  match o with
  | .queue _ q => let e := b.old.head q.q; (e.data, e.poison)
  | .vreg r => (b.old.vx.regs[r].data, b.old.vx.regs[r].poison)
  | .acc _ g => let a := b.accAddr g - 0x300000; (b.old.accLine a, b.old.accPoisoned a)
  | .kreg r => (packElems f (List.replicate (elemCount f) ((b.k r).toNat % (1 <<< fmtBits f))), false)

/-- The PORT check of a source and of a destination. -/
def Beat.vportSrc (b : Beat) (o : VOperand × Nat) : Check :=
  match o.1 with
  | .queue _ q => portCheckPop b.old q.q o.2
  | _ => none

def vPort (flag : Bool) : Nat := if flag then portVXB else portVXA

def Beat.vportDst (b : Beat) (o : VOperand) : Check :=
  match o with
  | .queue v q => portCheckPush b.old q.q (vPort v)
  | _ => none

def Beat.vrange (b : Beat) (o : VOperand) : Check :=
  match o with
  | .acc _ g => accRange (b.accAddr g)
  | _ => none

def vadv : VOperand → List (Reg4 × Bool)
  | .acc a g => [(g, a)]
  | _ => []

def Beat.vpop (b : Beat) (f : Fmt) (o : VOperand) : Check :=
  match o with
  | .queue _ q => popCheck b.old q (some (fmtCode f))
  | _ => none

/-- Is a push on a port already due in a beat (R196)? -/
def Core.pushDue (c : Core) (port due : Nat) : Bool :=
  c.inflight.any fun f =>
    match f.res with
    | .push q _ _ _ => f.due == due && topoPush (c.queue q.q).topo == port
    | _ => false

/-- BUSY of the VXA and VXB ports (R196). -/
def Beat.vbusy (b : Beat) (due : Nat) (ds : List VOperand) : Check :=
  let ps := ds.filterMap fun o => match o with | .queue v _ => some (vPort v) | _ => none
  failIf (ps.any (fun p => b.old.pushDue p due) || (match ps with | [p, q] => p == q | _ => false)) 0x06

/-- A result delivered to a destination `lat` beats later; a vector write to a line follows a drain's (R190). -/
def Beat.deliver (b : Beat) (o : VOperand) (lat : Nat) (f : Fmt) (d : Line) (p : Bool) : Beat :=
  match o with
  | .queue _ q => b.after lat 5 (.push q f d p)
  | .vreg r => b.after lat 5 (.vreg r d p)
  | .acc _ g => b.after lat 5 (.accLine (b.accAddr g - 0x300000) d p)
  | .kreg _ => b

/-- Vector flags noted (R244). -/
def Beat.vnote (b : Beat) (n : NFlags) : Beat :=
  { b with new := { b.new with vx := { b.new.vx with flags := b.new.vx.flags.note b.epoch n } } }

/-- Saturate mode of the vector engine (R234). -/
def Beat.sat (b : Beat) : Bool := b.old.ovmode != 2

/-! ### Element arithmetic (R195, R236) -/

def allOnes (f : Fmt) : Nat := (1 <<< fmtBits f) - 1

/-- An exact float operation, rounded once to the format. -/
def floatElem (f : Fmt) (sat : Bool) (v : FVal × NFlags) : Nat × NFlags :=
  match fpSpec f with
  | some g => g.arith sat .rne v
  | none => (0, {})

/-- The larger or smaller of two values; a NaN propagates (R236). -/
def fpick (mx : Bool) (a b : FVal) : FVal :=
  if a.isNan || b.isNan then .nan else if (if mx then flt a b else flt b a) then b else a

/-- VCMP (R195, R236): 0 EQ, 1 LT, 2 LE, 3 NE, 4 unordered. -/
def relation (r : Nat) (a b : FVal) : Bool :=
  let u := a.isNan || b.isNan
  match r with
  | 0 => feq a b
  | 1 => flt a b
  | 2 => !u && !flt b a
  | 3 => u || !feq a b
  | _ => u

/-- A two- or three-operand element operation on an integer format. Where the spec states no result, for VABS and VNEG
of the most negative number, the operation has one fixed unpublished result (R250, log 13). -/
def intElem (o : VecOp) (imm : W32) (a b c : Nat) : Nat :=
  let w := 1 <<< 32
  let sa := signedOf 32 a
  let sb := signedOf 32 b
  match o with
  | .add => (a + b) % w
  | .sub => (a + w - b % w) % w
  | .mul => (a * b) % w
  | .min => if sb < sa then b else a
  | .max => if sa < sb then b else a
  | .abs => if a = 0x80000000 then Config.mostNegative.1.toNat else if sa < 0 then w - a else a
  | .neg => if a = 0x80000000 then Config.mostNegative.2.toNat else (w - a) % w
  | .cmp => if relation (bits imm 0 3) (ofInt sa) (ofInt sb) then w - 1 else 0
  | .sel => if c ≠ 0 then a else b
  | .and => a &&& b
  | .or => a ||| b
  | .xor => a ^^^ b
  | .shl => (a <<< bits imm 0 5) % w
  | .shr => a >>> bits imm 0 5
  | _ => a

/-- An element operation on a float format. -/
def floatOp (o : VecOp) (f : Fmt) (imm : W32) (sat : Bool) (a b c : Nat) : Nat × NFlags :=
  let va := decodeElem f a
  let vb := decodeElem f b
  let sgnBit := 1 <<< (fmtBits f - 1)
  match o with
  | .add => floatElem f sat (fadd va vb)
  | .sub => floatElem f sat (fadd va vb.negate)
  | .mul => floatElem f sat (fmul va vb)
  | .fma => floatElem f sat (ffma va vb (decodeElem f c))
  | .min => floatElem f sat (fpick false va vb, {})
  | .max => floatElem f sat (fpick true va vb, {})
  | .abs => (a % sgnBit, {})
  | .neg => (a ^^^ sgnBit, {})
  | .cmp => (if relation (bits imm 0 3) va vb then allOnes f else 0, {})
  | .sel => (if c ≠ 0 then a else b, {})
  | _ => (a, {})

/-- The function unit (R237, R435): special operands as the table says, every other operand by the fixed mapping,
which the manual does not publish (log 8). 0 VEXP2, 1 VLOG2, 2 VRCP, 3 VRSQRT, 4 VSQRT, 5 VTANH, 6 VSIGM. -/
def funcElem (n : Nat) (f : Fmt) (sat : Bool) (a : Nat) : Nat × NFlags :=
  match fpSpec f with
  | none => (a, {})
  | some g =>
    let one := (g.bias.toNat) <<< g.fbits
    let half := (g.bias.toNat - 1) <<< g.fbits
    let nan : Nat × NFlags := (g.nan, {})
    let inv : Nat × NFlags := (g.nan, flagNv)
    let infOp (s : Bool) : Nat × NFlags := g.arith sat .rne (.inf s, {})
    match decodeElem f a with
    | .nan => nan
    | .inf s =>
      match n, s with
      | 0, false | 1, false | 4, false => infOp false
      | 0, true => (0, {})
      | 2, s => (g.signed s 0, {})
      | 3, false => (0, {})
      | 5, s => (g.signed s one, {})
      | 6, false => (one, {})
      | 6, true => (0, {})
      | _, _ => inv
    | .num s m e =>
      if m = 0 then
        match n with
        | 0 => (one, {})
        | 1 => g.infinite sat true
        | 2 | 3 => g.infinite sat s
        | 4 | 5 => (g.signed s 0, {})
        | _ => (half, {})
      else if s ∧ (n = 1 ∨ n = 3 ∨ n = 4) then inv
      else
        g.function n (fmtCode f) sat a s (fuFix m e)

/-- Codes and flags of a list of element results. -/
def gather (l : List (Nat × NFlags)) : List Nat × NFlags :=
  (l.map (·.1), l.foldl (fun a e => a.or e.2) {})

/-- An element-wise operation over three entries. -/
def vecMap (o : VecOp) (f : Fmt) (imm : W32) (sat : Bool) (a b c : Line) : Line × NFlags :=
  let xs := (elems f a).zip ((elems f b).zip (elems f c))
  let r := xs.map fun e =>
    let (x, y, z) := e
    if f = .int32 then (intElem o imm x y z, ({} : NFlags))
    else match o with
      | .func n => funcElem n.val f sat x
      | o => floatOp o f imm sat x y z
  let (cs, n) := gather r
  (packElems f cs, n)

/-! ### Conversion and quantisation (R197, R198, R241, R242) -/

/-- The rounding a slot names: 0 the partition's default (1 nearest away, 2 toward zero, 3 stochastic). -/
def rndCode (c : Core) (rnd : BitVec 2) : Nat :=
  let r := if rnd = 0 then c.cvtRound.toNat else rnd.toNat
  if r = 0 then 1 else r

/-- Each element converted, the k-th drawing from vl_(k mod 64) where the rounding is stochastic (R230). -/
def convElems {α : Type} (st : Vector W32 64) (rnd : Nat) (k : Nat) (g : Rnd → α → Nat × NFlags) :
    List α → List (Nat × NFlags) × Vector W32 64
  | [] => ([], st)
  | x :: r =>
    let i : Fin 64 := finMod 64 (by decide) k
    let (m, st1) : Rnd × Vector W32 64 :=
      match rnd with
      | 3 => let (d, s) := lfsrDraw st[i]; (.sr d, st.set i s)
      | 2 => (.rz, st)
      | _ => (.rna, st)
    let (l, st2) := convElems st1 rnd (k + 1) g r
    (g m x :: l, st2)

/-- The scale and element rules of one block (R241, R242): code, elements' rule, flags of the block, zero_range. -/
structure BlockRule where
  scale : Nat
  exp : Int
  allZero : Bool
  flags : NFlags
  zero : Nat
  deriving DecidableEq, Repr

/-- emax of a QUANT target (R241). -/
def quantEmax : Fmt → Int
  | .e2m1 | .e2m3 => 2
  | .e3m2 => 4
  | .e4m3 => 8
  | .e5m2 => 15
  | _ => 6

def blockRule (t : Fmt) (sat : Bool) (vs : List FVal) : BlockRule :=
  let hasNan := vs.any FVal.isNan
  let hasInf := vs.any FVal.isInf
  let noNan := t != .e4m3 && t != .e5m2
  let logs := vs.filterMap fun v => match v with
    | .num _ m e => if m = 0 then none else some ((Nat.log2 m : Int) + e)
    | _ => none
  let expOf (l : Int) : Int := max (l - quantEmax t) (-127)
  if hasNan && noNan then ⟨0xFF, 0, true, flagNv, 0⟩
  else if hasInf && !sat then ⟨0xFF, 0, true, flagOv, 0⟩
  else if hasInf then let e := 127 - quantEmax t; ⟨(e + 127).toNat, e, false, flagOv, 0⟩
  else match logs with
    | [] => ⟨0x7F, 0, false, {}, if hasNan then 0 else 1⟩
    | l :: r => let e := expOf (r.foldl max l); ⟨(e + 127).toNat, e, false, {}, 0⟩

/-- One element of a block: x × 2^-e rounded into the target, clamped to the largest magnitude delivered (R241). -/
def quantElem (t : Fmt) (b : BlockRule) (r : Rnd) (v : FVal) : Nat × NFlags :=
  if b.allZero then (0, {})
  else
    match v with
    | .nan => ((fpSpec t).elim 0 (·.nan), {})
    | .inf n => match fpSpec t with
      | some f => (f.signed n f.maxCode, {})
      | none => (if n then 0x81 else 0x7F, {})
    | .num n m e =>
      let (num, den) := dyadic m (e - b.exp)
      match fpSpec t with
      | some f =>
        let (c, g) := f.deliver true false r n num den
        (c, if g.ov then flagNx else g)
      | none =>
        let (c, g) := toIntFmt 8 r n num den
        if c = 0x80 then (0x81, flagNx) else (c, if g.nv then flagNx else g)

/-- Blocks of 32 elements. -/
def blocks32 {α : Type} (l : List α) : List (List α) := (List.range (l.length / 32)).map fun i => (l.drop (32 * i)).take 32

/-- Does CVT or QUANT convert narrower, wider or equally: the relation of R197. -/
def cvtTarget (x : VArgs) : Fmt := (fmtOf (bits x.imm 0 4)).getD .fp32

def Beat.cvt (b : Beat) (x : VArgs) (a : Line) (p : Bool) : Beat :=
  let t := cvtTarget x
  let n := elemCount x.fmt
  let m := elemCount t
  let part := bits x.imm 8 6
  let src := (elems x.fmt a).map (decodeElem x.fmt)
  let vs := if m < n then (src.drop (part * m)).take m else src
  let (rs, st) := convElems b.old.vx.lfsr (rndCode b.old x.rnd) 0 (fun r v => convert t b.sat r v) vs
  let (cs, fl) := gather rs
  let b1 := { b with new := { b.new with vx := { b.new.vx with lfsr := st } } }
  let b2 := b1.vnote fl
  if n < m then
    let asm := b2.new.vx.dataAsm
    let asm' : VReg := ⟨setElems t asm.data (part * n) cs, asm.poison || p⟩
    if bit x.imm 14 then
      ({ b2 with new := { b2.new with vx := { b2.new.vx with dataAsm := {} } } }).deliver x.d 3 t asm'.data asm'.poison
    else { b2 with new := { b2.new with vx := { b2.new.vx with dataAsm := asm' } } }
  else b2.deliver x.d 3 t (packElems t cs) p

def Beat.quant (b : Beat) (x : VArgs) (a : Line) (p : Bool) : Beat :=
  let t := cvtTarget x
  let vs := (elems x.fmt a).map (decodeElem x.fmt)
  let rules := (blocks32 vs).map (blockRule t b.sat)
  let tagged := ((blocks32 vs).zip rules).flatMap fun e => e.1.map fun v => (e.2, v)
  let (rs, st) := convElems b.old.vx.lfsr (rndCode b.old x.rnd) 0 (fun r e => quantElem t e.1 r e.2) tagged
  let (cs, fl) := gather rs
  let fl' := rules.foldl (fun f r => f.or r.flags) fl
  let vx := b.new.vx
  let data : VReg := ⟨setElems t vx.dataAsm.data (64 * bits x.imm 8 6) cs, vx.dataAsm.poison || p⟩
  let scale : VReg := ⟨setElems .ue8 vx.scaleAsm.data (2 * bits x.imm 16 7) (rules.map (·.scale)), vx.scaleAsm.poison || p⟩
  let d1 := bit x.imm 14
  let d2 := bit x.imm 23
  let b1 := { b with new := { b.new with vx := { vx with
    lfsr := st
    dataAsm := if d1 then {} else data
    scaleAsm := if d2 then {} else scale
    zeroRange := satAdd 16 vx.zeroRange (rules.foldl (fun n (r : BlockRule) => n + r.zero) 0) } } }
  let b2 := b1.vnote fl'
  let b3 := if d1 then b2.deliver x.d 6 t data.data data.poison else b2
  if d2 then b3.deliver x.c 6 .ue8 scale.data scale.poison else b3

/-! ### Statistics, reductions, top-k (R199 to R201) -/

/-- AMAX applied to the statistics register (R199). -/
def CoreVector.amax (v : CoreVector) (f : Fmt) (l : Line) (p : Bool) : CoreVector :=
  let per := elemCount f / 64
  let vs := (elems f l).map (decodeElem f)
  let nans := (vs.filter FVal.isNan).length
  let infs := (vs.filter FVal.isInf).length
  let mx := (lanes v.laneMax 32 64).zipIdx.map fun e =>
    ((vs.drop (per * e.2)).take per).foldl (fun m x =>
      match x with
      | .num _ _ _ => if flt (dec32 m) x.abs then (convert .fp32 true .rz x.abs).1 else m
      | _ => m) e.1
  { v with laneMax := ofLanes 32 mx, nanCount := v.nanCount + BitVec.ofNat 32 nans,
           infCount := v.infCount + BitVec.ofNat 32 infs, statPoison := v.statPoison || p }

/-- AMAXRD's entry (R199). -/
def CoreVector.amaxEntry (v : CoreVector) (counts : Bool) : Line :=
  if counts then
    let m := (lanes v.laneMax 32 64).foldl (fun a x => if flt (dec32 a) (dec32 x) then x else a) 0
    ofLanes 32 [m, v.nanCount.toNat, v.infCount.toNat]
  else v.laneMax

/-- The pairwise tree: adjacent pairs first (R200). -/
def treeFold {α : Type} (g : α → α → α) : Nat → List α → List α
  | 0, l => l
  | n + 1, l => treeFold g n (pairs l)
where
  pairs : List α → List α
    | x :: y :: r => g x y :: pairs r
    | l => l

/-- RSUM and RMAX in lane 0 (R200). -/
def reduceLane (mx sat : Bool) (f : Fmt) (l : Line) : Nat × NFlags :=
  let cs := elems f l
  if f = .int32 then
    let g (a b : Nat) := if mx then (if signedOf 32 a < signedOf 32 b then b else a) else (a + b) % (1 <<< 32)
    ((treeFold g 7 cs).headD 0, {})
  else
    let cs32 := cs.map fun c => ((convert .fp32 false .rz (decodeElem f c)).1, ({} : NFlags))
    let g (a b : Nat × NFlags) : Nat × NFlags :=
      let r := if mx then arith32 sat .rne (fpick true (dec32 a.1) (dec32 b.1), {}) else add32 sat a.1 b.1
      (r.1, (a.2.or b.2).or r.2)
    (treeFold g 8 cs32).headD (0, {})

/-- A candidate: value code and expert. -/
def candBefore (a b : Nat × Nat) : Bool :=
  let x := dec32 a.1
  let y := dec32 b.1
  if x.isNan then y.isNan && decide (a.2 < b.2)
  else if y.isNan then true
  else flt y x || (feq x y && decide (a.2 < b.2))

/-- A candidate inserted in rank order. -/
def insertCand (c : Nat × Nat) : List (Nat × Nat) → List (Nat × Nat)
  | [] => [c]
  | x :: r => if candBefore c x then c :: x :: r else x :: insertCand c r

/-- The candidate entry (R201). -/
def topkEntry (imm : W32) (a b : Line) : Line × Nat :=
  let k := bits imm 0 4
  let cnt := bits imm 8 7
  let base := 64 * bits imm 16 6
  let mine := ((lanes a 32 64).take cnt).zipIdx.map fun e => (e.1, base + e.2)
  let nans := (mine.filter fun e => (dec32 e.1).isNan).length
  let old := if bit imm 15 then [] else
    ((lanes b 32 64).take 8).zip (((lanes b 32 64).drop 8).take 8) |>.filter fun e => e.2 != 0xFFFFFFFF
  let best := ((old ++ mine).foldl (fun l c => insertCand c l) []).take k
  let pad := 8 - best.length
  (ofLanes 32 (best.map (·.1) ++ List.replicate pad 0xFF800000 ++ best.map (·.2) ++ List.replicate pad 0xFFFFFFFF), nans)

/-! ### Storm watch reports and the whole operation -/

/-- The report of VSTORM (R203): COUNT and LOSS of A, CLOSE with the counter it names. -/
def stormReport (x : VArgs) (a : Line) (p : Bool) (step : W32) : StormReport :=
  match bits x.imm 0 2 with
  | 0 =>
    let vs := (elems x.fmt a).map (decodeElem x.fmt)
    .count step (if p then vs.length else (vs.filter fun v => v.isNan || v.isInf).length)
  | 1 => .loss step (BitVec.ofNat 32 (convert .fp32 false .rz (decodeElem x.fmt ((elems x.fmt a).headD 0))).1)
  | _ => .close step (ctrOf (bits x.imm 8 5))

/-- The unit-held checks (R195, R196). -/
def Beat.vheld (b : Beat) (o : VecOp) : Check :=
  match o with
  | .func _ | .updw => failIf (decide (b.old.beats < b.old.vx.funcUntil)) 0x06
  | .topk => failIf (decide (b.old.beats < b.old.vx.topkUntil)) 0x06
  | _ => none

/-- Units held by an operation from its issue beat. -/
def Beat.vhold (b : Beat) (o : VecOp) (f : Fmt) : Beat :=
  let vx := b.new.vx
  match o with
  | .func _ => { b with new := { b.new with vx := { vx with funcUntil := b.old.beats + if f = .fp32 then 2 else 4 } } }
  | .updw => { b with new := { b.new with vx := { vx with funcUntil := b.old.beats + 2 } } }
  | .topk => { b with new := { b.new with vx := { vx with topkUntil := b.old.beats + 4 } } }
  | _ => b

/-- Queue sources popped, kept heads left (R194). -/
def Beat.vpops (b : Beat) (os : List (VOperand × Nat)) : Beat :=
  os.foldl (fun b o => match o.1 with
    | .queue false q => { b with new := b.new.pop q.q }
    | _ => b) b

/-- The effect of a vector operation whose checks passed. -/
def Beat.veffect (b : Beat) (o : VecOp) (x : VArgs) : Beat :=
  let (a, pa) := b.vsrc x.fmt x.a
  let (bb, pb) := b.vsrc x.fmt x.b
  let (c, pc) := b.vsrc x.fmt x.c
  let lat := vecLatency o x.fmt
  let vx := b.new.vx
  match o with
  | .nop => b
  | .mov => b.deliver x.d lat x.fmt a pa
  | .cvt => b.cvt x a pa
  | .quant => b.quant x a pa
  | .amax => b.after 3 1 (.amax x.fmt a pa)
  | .amaxrd =>
    let e := b.old.vx.amaxEntry (bit x.imm 0)
    let b1 := if bit x.imm 1 then
        { b with new := { b.new with vx := { vx with laneMax := 0, nanCount := 0, infCount := 0, statPoison := false } } }
      else b
    b1.deliver x.d lat .fp32 e b.old.vx.statPoison
  | .rsum | .rmax =>
    let (r, fl) := reduceLane (o == .rmax) b.sat x.fmt a
    (b.vnote fl).deliver x.d lat (if x.fmt = .int32 then .int32 else .fp32) (ofLanes 32 [r]) pa
  | .topk =>
    let (e, nans) := topkEntry x.imm a bb
    ({ b with new := { b.new with vx := { b.new.vx with topkNan := satAdd 16 vx.topkNan nans } } }).deliver x.d lat .fp32 e
      (pa || (!bit x.imm 15 && pb))
  | .updm | .updv | .updw =>
    let coef := b.old.vx.coefs[(finMod 4 (by decide) (bits x.imm 0 2) : Fin 4)]
    let cf := lanes coef.data 32 16
    let go := b.old.vx.updFlag
    let third := o == .updw
    let keep := if third then a else bb
    let rs := ((lanes a 32 64).zip ((lanes bb 32 64).zip (lanes c 32 64))).map fun e =>
      match o with
      | .updm => updM b.sat cf e.1 e.2.1
      | .updv => updV b.sat cf e.1 e.2.1
      | _ => updW b.sat cf e.1 e.2.1 e.2.2
    let (cs, fl) := gather rs
    let b1 := if go then b.vnote fl else b
    b1.deliver x.d lat .fp32 (if go then ofLanes 32 cs else keep) (pa || pb || (third && pc) || coef.poison)
  | .coef => b.after lat 5 (.coef (finMod 4 (by decide) (bits x.imm 0 2)) a pa)
  | .gate =>
    let step : W32 := BitVec.ofNat 32 (lane a 32 0)
    b.after 1 5 (.updFlag (match b.old.vx.verdict with | some v => v.step == step && v.isOpen | none => false))
  | .storm =>
    let r := stormReport x a pa (BitVec.ofNat 32 (lane bb 32 0))
    { b with new := { b.new with vx := { vx with storms := vx.storms ++ [r] } } }
  | .seed => b.after 0 6 (.vseed x.imm)
  | o =>
    let (r, fl) := vecMap o x.fmt x.imm b.sat a bb c
    let srcs := (vecSources o x).map (·.1)
    let p := pa || (srcs.length ≥ 2 && pb) || (srcs.length ≥ 3 && pc)
    (b.vnote fl).deliver x.d lat x.fmt r p

/-- The generators a vector operation uses, with the advances it asks for (R161). -/
def vecAdvs (o : VecOp) (x : VArgs) : List (Reg4 × Bool) := ((vecSources o x).map (·.1) ++ vecDests o x).flatMap vadv

/-- The checks of a vector operation, in the order of R148. -/
def Beat.vecChecks (b : Beat) (o : VecOp) (x : VArgs) : List Check :=
  let srcs := vecSources o x
  let dsts := vecDests o x
  srcs.map b.vportSrc ++ dsts.map b.vportDst ++ (srcs.map (·.1) ++ dsts).map b.vrange ++
    [b.advCheck (vecAdvs o x), b.vheld o, b.vbusy (b.old.beats + vecLatency o x.fmt) dsts] ++
    srcs.map fun e => b.vpop x.fmt e.1

/-- A vector operation in its issue beat (R148, R194 to R203). -/
def Beat.vector (b : Beat) (o : VecOp) (x : VArgs) : Beat :=
  if o = .nop then b
  else
    b.run 1 (b.vecChecks o x)
      fun b => ((b.vpops (vecSources o x)).advance (vecAdvs o x) |>.vhold o x.fmt).veffect o x

end Sys2Proof.Machine
end

