-- ==== Sys2Proof/Machine/MatrixSlots.lean ====
section
/-! DEFINITION. The matrix slot and the bit-serial array (08 R185 to R193, 09 R205 to R222, 10 R238 to R240): one
operation of one issue beat, and the drain stages of its vectors. -/

namespace Sys2Proof.Machine

inductive MatOp where
  | nop | mcfg | mseed | mloadw | mloads | mswap | mmul | mmult | mew | mflush
  deriving DecidableEq, Repr

/-- Beats per product (R186, R205). -/
def bpp : Fmt → Nat
  | .e2m1 => 1
  | .bf16 | .int8 => 4
  | .fp16 => 6
  | .fp32 => 12
  | _ => 2

/-- Activation vectors an operation takes (R186). -/
def vecCount (f : Fmt) : Nat := if f = .fp32 then 1 else elemCount f / 128

/-- Entries of a tile in the single-weight mode (08, Tiles and their formats). -/
def tileEntries (f : Fmt) : Nat := if f = .fp32 then 256 else 16384 / elemCount f

/-- Formats of 8 bits and narrower. -/
def narrow (f : Fmt) : Bool := decide (fmtBits f ≤ 8)

/-- Is a configuration in the dual-weight mode? -/
def MCfg.dual (c : MCfg) : Bool := c.accMode == 1

/-- Chunk length in groups of 8 products (R191). -/
def MCfg.groups (c : MCfg) : Nat := c.chunk.toNat + 1

/-- Saturate mode of a configuration (R234). -/
def MCfg.sat (c : MCfg) : Bool := c.ovmode != 2

/-- The configuration an MCFG immediate names, its default ovmode resolved (R191). -/
def mcfgOf (dflt : BitVec 2) (imm : W32) : MCfg :=
  let ov : BitVec 2 := imm.extractLsb' 12 2
  { ovmode := if ov = 0 then (if dflt = 2 then 2 else 1) else ov
    sr := bit imm 8
    chunk := imm.extractLsb' 4 4
    accMode := imm.extractLsb' 0 2 }

/-! ### Products and sums in the array (R210, R211, R219, R222, R238) -/

/-- Truncation toward zero to `k` significant bits. -/
def truncSig (k : Nat) : FVal → FVal
  | .num s m e => let l := Nat.log2 m; if k ≤ l then .num s (m >>> (l + 1 - k)) (e + (l + 1 - k : Nat)) else .num s m e
  | v => v

/-- Two partial sums added exactly and truncated, special values beside them. -/
def addRun (k : Nat) (a b : RunVal) : RunVal :=
  { fin := truncSig k (fadd a.fin b.fin).1
    isNan := a.isNan || b.isNan
    isNv := a.isNv || b.isNv
    posInf := a.posInf || b.posInf
    negInf := a.negInf || b.negInf }

/-- One product of a cell: `scale` is the block-scale sum, none for a NaN scale (R239). -/
def product (k : Nat) (a w : FVal) (scale : Option Int) : RunVal :=
  match scale with
  | none => { isNan := true }
  | some s =>
    if a.isNan || w.isNan then { isNan := true }
    else
      match (fmul a w).1 with
      | .nan => { isNv := true }
      | .inf n => { posInf := !n, negInf := n }
      | .num n m e => { fin := truncSig k (.num n m (e + s)) }

/-- The value a finished sum stands for, and the flag of an invalid one (R238). -/
def RunVal.value (r : RunVal) : FVal × NFlags :=
  if r.isNan then (.nan, {})
  else if r.isNv || (r.posInf && r.negInf) then (.nan, flagNv)
  else if r.posInf then (.inf false, {})
  else if r.negInf then (.inf true, {})
  else (r.fin, {})

/-- Levels 1 to 3 of the tree: the sums of aligned groups of 8. -/
def groupSums (k : Nat) (ps : List RunVal) : List RunVal :=
  (List.range 16).map fun g => ((treeFold (addRun k) 3 ((ps.drop (8 * g)).take 8)).headD {})

/-- Levels 4 to 7: a node adds children that lie wholly within one run, and else passes their pieces on (R211). -/
def runTree (k : Nat) : Nat → List (Nat × RunVal) → List (Nat × RunVal)
  | 0, l => l
  | d + 1, l =>
    let h := l.length / 2
    let a := runTree k d (l.take h)
    let b := runTree k d (l.drop h)
    match a, b with
    | [(r, x)], [(q, y)] => if r = q then [(r, addRun k x y)] else [(r, x), (q, y)]
    | a, b => a ++ b

/-- The sum of the pieces of one run, in ascending reduction index. -/
def runSum (k : Nat) (r : Nat) (ps : List (Nat × RunVal)) : Option RunVal :=
  match (ps.filter fun p => p.1 == r).map (·.2) with
  | [] => none
  | x :: xs => some (xs.foldl (addRun k) x)

/-! ### Tiles -/

/-- The weight code of row `r`, column `c` of a tile (08, Tiles and their formats). -/
def Tile.weight (t : Tile) (f : Fmt) (r c : Nat) : Nat :=
  let n := elemCount f
  let idx := r * 128 + c % 128
  let e := (if c < 128 then 0 else tileEntries f) + idx / n
  bits (Sparse.getD t.entries e 0) (elemAt f (idx % n)) (fmtBits f)

/-- The block exponent of column `c`, block `b` (R192, log 17). -/
def Tile.blockExp (t : Tile) (c b : Nat) : Nat :=
  let part : Fin 8 := finMod 8 (by decide) (c / 64)
  lane t.scales[part] 8 (4 * (c % 64) + b)

/-- The output-channel scale of output `o`. -/
def Tile.chScale (t : Tile) (o : Nat) : W32 :=
  let part : Fin 8 := finMod 8 (by decide) (4 + o / 64)
  BitVec.ofNat 32 (lane t.scales[part] 32 (o % 64))

/-- Is any entry or scale part of a tile poisoned (R207)? -/
def Tile.poison (t : Tile) : Bool := !t.poisoned.isEmpty || t.scalePoison.any id

/-- The block-scale sum of a product (R239): none for a code 0xFF. -/
def scaleSum (ca cw : Nat) : Option Int := if ca = 255 ∨ cw = 255 then none else some ((ca : Int) - 127 + ((cw : Int) - 127))

/-- The activation vectors of the popped entries. -/
def actVectors (f : Fmt) (l1 l2 : Line) : List (List Nat) :=
  if f = .fp32 then [elems f l1 ++ elems f l2]
  else (List.range (vecCount f)).map fun j => ((elems f l1).drop (128 * j)).take 128

/-- Significant bits a product keeps (R210, R219): INT8 and INT4 products enter the tree exactly (R221). -/
def productBits (k : Nat) (f : Fmt) : Nat := if f = .int8 ∨ f = .int4 then 15 else k

/-- The 16 group sums of every output of one vector; `exps` holds the vector's four activation exponents. -/
def vectorPieces (k : Nat) (t : Tile) (f : Fmt) (outs : Nat) (trans : Bool) (exps : Option (List Nat)) (x : List Nat) :
    List (List RunVal) :=
  let xs := x.map (decodeElem f)
  (List.range outs).map fun o =>
    groupSums k (xs.zipIdx.map fun e =>
      let i := e.2
      let w := decodeElem f (if trans then t.weight f o i else t.weight f i o)
      let s := match exps with
        | none => some 0
        | some l => scaleSum (l.getD (i / 32) 0) (t.blockExp o (i / 32))
      product (productBits k f) e.1 w s)

/-- The exact integer sums of one vector (R221). -/
def vectorInts (t : Tile) (f : Fmt) (outs : Nat) (trans : Bool) (x : List Nat) : List Int :=
  let n := fmtBits f
  (List.range outs).map fun o =>
    (x.zipIdx.map fun e => signedOf n e.1 * signedOf n (if trans then t.weight f o e.2 else t.weight f e.2 o)).foldl (· + ·) 0

/-! ### Issue checks and effects -/

/-- Is the array held, or any row (R187)? -/
def Beat.arrayHeld (b : Beat) : Bool :=
  decide (b.old.beats < b.old.mx.heldUntil) || b.old.mx.rowHeld.any fun r => decide (b.old.beats < r.2)

/-- Entries a dmode 2 vector pushes (R190). -/
def pushEntries (dual isInt : Bool) : Nat := if dual && isInt then 4 else 2

/-- Beats in which pushes through MXD are due. -/
def Core.mxdBeats (c : Core) : List Nat :=
  c.inflight.flatMap fun f =>
    match f.res with
    | .drain1 d => if d.dmode = 2 then (List.range (pushEntries d.cfg.dual d.isInt)).map (f.due + 1 + ·) else []
    | .push q _ _ _ => if topoPush (c.queue q.q).topo = portMXD then [f.due] else []
    | _ => []

/-- Do push beats meet one another or earlier ones (R190)? -/
def mxdBusy (c : Core) (l : List Nat) : Check :=
  failIf (!(allDistinct l) || l.any (fun x => c.mxdBeats.contains x)) 0x06
where
  allDistinct : List Nat → Bool
    | [] => true
    | x :: r => !r.contains x && allDistinct r

/-- FORMAT against a tile or against acc_mode 1: no queue, no epochs (R188, R189, R220). -/
def tileFormat (exp : Nat) (f : Fmt) : FaultInfo := { cause := 0x03, expF := exp, actF := fmtCode f }

/-- The check of R189. -/
def Beat.tileCheck (b : Beat) (f : Fmt) : Check :=
  match b.old.mx.active.fmt with
  | some g => if g = f then none else some (tileFormat (fmtCode g) f)
  | none => some (tileFormat 0xF f)

/-- The check of the second pop of an FP32 operation (R186). -/
def popCheck2 (c : Core) (q : QOp) (f : Fmt) : Check :=
  if f = .fp32 then popCheck (c.pop q.q) q (some (fmtCode f)) else none

def Beat.updMx (b : Beat) (g : CoreMatrix → CoreMatrix) : Beat := { b with new := { b.new with mx := g b.new.mx } }

/-- Does an operation follow the integer path (R221; INT4 with output scales is read like INT8, log 17)? -/
def integerPath (x : MArgs) : Bool := (x.fmt == .int4 || x.fmt == .int8) && !x.scaled && !x.chscale && !x.rowscale

/-- Bytes of an accumulator row: 128 totals, or 256 in the dual-weight mode. -/
def MCfg.rowSize (c : MCfg) : Nat := if c.dual then 1024 else 512

/-- The generator of an MMUL or MMULT, which one that pushes does not use. -/
def mmulUse (x : MArgs) : List (Reg4 × Bool) := if x.dmode = 2 then [] else [(x.ag, x.adv)]

/-- The checks of MMUL and MMULT, in the order of R148 (R186 to R190, R206, R208, R220). -/
def Beat.mmulChecks (b : Beat) (x : MArgs) (trans : Bool) : List Check :=
  let m := b.old.mx
  let cfg := m.cfg
  let n := b.old.beats
  let p := bpp x.fmt
  let v := vecCount x.fmt
  let base := b.addr x.ag / cfg.rowSize * cfg.rowSize
  let beats := if x.dmode = 2 then (List.range v).flatMap fun j =>
      (List.range (pushEntries cfg.dual (integerPath x))).map fun k => n + (j + 1) * p + 9 + k
    else []
  [portCheckPop b.old x.qa.q portMXA,
    (if x.dmode = 2 then portCheckPush b.old x.qb.q portMXD else none),
    (if x.dmode = 2 then none else failIf (decide (base < 0x300000 ∨ 0x340000 < base + v * cfg.rowSize)) 0x08),
    failIf b.arrayHeld 0x06, failIf (trans && cfg.dual) 0x06, b.advCheck (mmulUse x), mxdBusy b.old beats,
    popCheck b.old x.qa (some (fmtCode x.fmt)), popCheck2 b.old x.qa x.fmt,
    (if cfg.dual && !narrow x.fmt then some (tileFormat 0xA x.fmt) else none), b.tileCheck x.fmt]

/-- The drain of vector `j` of an MMUL or MMULT (R206), `v` its 128 elements, latched at issue. -/
def Beat.drainOf (b : Beat) (x : MArgs) (trans : Bool) (poison : Bool) (j : Nat) (v : List Nat) : Drain :=
  let m := b.old.mx
  let cfg := m.cfg
  let isInt := integerPath x
  let outs := if cfg.dual then 256 else 128
  let k := if cfg.dual then 13 else 15
  let base := b.addr x.ag / cfg.rowSize * cfg.rowSize
  let exps := lanes m.actScale.data 8 256
  let rows := lanes m.rowScale.data 32 64
  let ex := if x.scaled then some ((List.range 4).map fun i => exps.getD ((m.actPtr + 4 * j + i) % 256) 0) else none
  { row := base + j * cfg.rowSize - 0x300000
    dmode := x.dmode
    q := x.qb
    cfg := cfg
    isInt := isInt
    pieces := if isInt then [] else vectorPieces k m.active x.fmt outs trans ex v
    ints := if isInt then vectorInts m.active x.fmt outs trans v else []
    chscale := if x.chscale then some ((List.range outs).map m.active.chScale) else none
    rowscale := if x.rowscale then some (BitVec.ofNat 32 (rows.getD ((m.rowPtr + j) % 64) 0)) else none
    poison := poison
    outs := outs }

/-- MMUL and MMULT in their issue beat (R186, R187, R190, R206). -/
def Beat.mmul (b : Beat) (x : MArgs) (trans : Bool) : Beat :=
  let m := b.old.mx
  let n := b.old.beats
  let p := bpp x.fmt
  let v := vecCount x.fmt
  b.run 2 (b.mmulChecks x trans) fun b =>
    let (e1, b1) := (b.advance (mmulUse x)).pop x.qa.q
    let (e2, b2) : Entry × Beat :=
      if x.fmt = .fp32 then (b1.new.head x.qa.q, { b1 with new := b1.new.pop x.qa.q }) else (voidEntry, b1)
    let poison := e1.poison || (x.fmt == .fp32 && e2.poison) || m.active.poison || (x.scaled && m.actScale.poison) ||
      (x.rowscale && m.rowScale.poison)
    let b3 := (actVectors x.fmt e1.data e2.data).zipIdx.foldl (fun b y =>
      b.after ((y.2 + 1) * p + 8) 3 (.drain1 (b.drainOf x trans poison y.2 y.1))) b2
    b3.updMx fun mx => { mx with
      heldUntil := n + v * p
      actPtr := if x.scaled then (m.actPtr + 4 * v) % 256 else mx.actPtr
      rowPtr := if x.rowscale then (m.rowPtr + v) % 64 else mx.rowPtr }

/-- The conversion rounding of MEW: a default of stochastic is nearest, ties away (R228). -/
def mewRnd (c : Core) : Rnd := if c.cvtRound = 2 then .rz else .rna

/-- The checks of MEW, in the order of R148. -/
def Beat.mewChecks (b : Beat) (x : MArgs) : List Check :=
  let n := b.old.beats
  let m := b.old.mx
  let held := decide (n < m.heldUntil) || decide (n < Sparse.getD m.rowHeld x.index.toNat 0)
  [portCheckPop b.old x.qa.q portMXA, portCheckPush b.old x.qb.q portMXD, failIf held 0x06,
    mxdBusy b.old [n + bpp x.fmt + 2], popCheck b.old x.qa (some (fmtCode x.fmt)), b.tileCheck x.fmt]

/-- MEW in its issue beat (R187, R193, R209). -/
def Beat.mew (b : Beat) (x : MArgs) : Beat :=
  let n := b.old.beats
  let p := bpp x.fmt
  let row := x.index.toNat
  let m := b.old.mx
  b.run 2 (b.mewChecks x) fun b =>
    let (e, b1) := b.pop x.qa.q
    let rs := ((elems x.fmt e.data).take 128).zipIdx.map fun y =>
      let v := fmul (decodeElem x.fmt y.1) (decodeElem x.fmt (m.active.weight x.fmt row y.2))
      let (c, fl) := convert .bf16 m.cfg.sat (mewRnd b.old) v.1
      (c, fl.or v.2)
    let (cs, fl) := gather rs
    let b2 := b1.after (p + 2) 5 (.push x.qb .bf16 (packElems .bf16 cs) (e.poison || m.active.poison))
    (b2.after (p + 1) 1 (.mnote fl)).updMx fun mx => { mx with rowHeld := Sparse.put mx.rowHeld row (n + p) }

/-- The format of a scale part (R192). -/
def partFmt (i : Nat) : Fmt := if i < 4 ∨ i = 9 then .ue8 else .fp32

/-- A matrix operation in its issue beat. -/
def Beat.matrix (b : Beat) (o : MatOp) (x : MArgs) : Beat :=
  let n := b.old.beats
  let m := b.old.mx
  match o with
  | .nop => b
  | .mcfg =>
    let c := mcfgOf b.old.ovmode x.imm
    let change := c.accMode != m.cfg.accMode || c.chunk != m.cfg.chunk
    b.run 2 [failIf b.arrayHeld 0x06, failIf (change && !m.pend.isEmpty) 0x06] fun b =>
      (b.after 0 6 (.mcfg c)).updMx fun mx => { mx with heldUntil := n + 1 }
  | .mseed => b.run 2 [] (·.after 0 6 (.mseed x.imm))
  | .mloadw =>
    let i := x.index.toNat
    b.run 2 [portCheckPop b.old x.qa.q portMXW, failIf (!m.cfg.dual && decide (tileEntries x.fmt ≤ i)) 0x08,
        popCheck b.old x.qa (some (fmtCode x.fmt)),
        (match m.shadow.fmt with
          | some g => if g = x.fmt then none else some (tileFormat (fmtCode g) x.fmt)
          | none => none)] fun b =>
      let (e, b1) := b.pop x.qa.q
      (b1.after 2 1 (.tileEntry i e.data e.poison)).updMx fun mx => { mx with shadow := { mx.shadow with fmt := some x.fmt } }
  | .mloads =>
    let i := x.index.toNat
    b.run 2 [portCheckPop b.old x.qa.q portMXS, popCheck b.old x.qa (some (fmtCode (partFmt i)))] fun b =>
      let (e, b1) := b.pop x.qa.q
      b1.after 2 1 (.scalePart i e.data e.poison)
  | .mswap =>
    b.run 2 [failIf b.arrayHeld 0x06] fun b => (b.after 0 6 .mswap).updMx fun mx => { mx with heldUntil := n + 1 }
  | .mmul => b.mmul x false
  | .mmult => b.mmul x true
  | .mew => b.mew x
  | .mflush =>
    b.run 2 [failIf b.arrayHeld 0x06] fun b => (b.after 0 7 .flushTake).updMx fun mx => { mx with heldUntil := n + 4 }

/-! ### Drain stages (R206, R212 to R215, R218, R221) -/

/-- One FP32 addition of output `o` under sr, with its draw (R218). -/
def drainAdd (cfg : MCfg) (o : Nat) (st : Vector W32 256) (a b : Nat) : (Nat × NFlags) × Vector W32 256 :=
  let v := fadd (dec32 a) (dec32 b)
  if cfg.sr then
    let i : Fin 256 := finMod 256 (by decide) o
    let (d, s) := lfsrDraw st[i]
    (arith32 cfg.sat (.sr d) v, st.set i s)
  else (arith32 cfg.sat .rne v, st)

/-- A run converted to FP32 (R240 step 1). -/
def runTo32 (cfg : MCfg) (r : RunVal) : Nat × NFlags := arith32 cfg.sat .rz r.value

/-- The special products of an output's runs in one vector, together (R238). -/
def specials (rs : List RunVal) : RunVal :=
  { isNan := rs.any (·.isNan), isNv := rs.any (·.isNv), posInf := rs.any (·.posInf), negInf := rs.any (·.negInf) }

def RunVal.special (r : RunVal) : Bool := r.isNan || r.isNv || r.posInf || r.negInf

/-- Completed runs added in ascending index (R212): the sum, its flags, and the draws taken. -/
def sumRuns (cfg : MCfg) (o : Nat) (st : Vector W32 256) (rs : List RunVal) : (Nat × NFlags) × Vector W32 256 :=
  match rs.map (runTo32 cfg) with
  | [] => ((0, {}), st)
  | c :: cs => cs.foldl (fun (acc : (Nat × NFlags) × Vector W32 256) r =>
      let (x, s) := drainAdd cfg o acc.2 acc.1.1 r.1
      ((x.1, (acc.1.2.or r.2).or x.2), s)) (c, st)

/-- The contribution of one output. A special product decides it, with the flags of its row of R238 alone (log 17); the
additions still take their draws (R218). -/
def contribution (cfg : MCfg) (o : Nat) (st : Vector W32 256) (rs : List RunVal) : (Nat × NFlags) × Vector W32 256 :=
  let (c, st1) := sumRuns cfg o st rs
  (if (specials rs).special then runTo32 cfg (specials rs) else c, st1)

/-- Output-channel and row scales, each one multiplication rounded to nearest even (R212). -/
def applyScales (d : Drain) (o : Nat) (c : Nat × NFlags) : Nat × NFlags :=
  let c1 := match d.chscale with
    | some l => let x := mul32 d.cfg.sat c.1 (l.getD o 0).toNat; (x.1, c.2.or x.2)
    | none => c
  match d.rowscale with
  | some r => let x := mul32 d.cfg.sat c1.1 r.toNat; (x.1, c1.2.or x.2)
  | none => c1

/-- The A16 root sum of acc_mode 1 (R219), and its FP32 value. -/
def rootA16 (cfg : MCfg) (gs : List RunVal) : Nat × NFlags :=
  let r := (treeFold (addRun 13) 4 gs).headD {}
  match fpSpec .a16 with
  | some f => f.arith cfg.sat .rne r.value
  | none => (0, {})

/-- One output in drain stage 1: its contribution code, its pending sum if a run stays incomplete, draws and flags. -/
def stage1Output (d : Drain) (o : Nat) (pc : Nat) (pend : Option RunVal) (st : Vector W32 256) :
    (Nat × NFlags) × Option RunVal × Vector W32 256 :=
  let gs := d.pieces.getD o []
  if d.cfg.dual then
    let (a, fl) := rootA16 d.cfg gs
    let c := (convert .fp32 d.cfg.sat .rz (decodeElem .a16 a)).1
    let (r, fl2) := applyScales d o (c, fl)
    if d.dmode = 2 then
      if d.chscale.isNone && d.rowscale.isNone then ((a, fl), none, st)
      else
        let (y, fl3) := match fpSpec .a16 with
          | some f => f.arith d.cfg.sat .rne (dec32 r, {})
          | none => (0, {})
        ((y, fl2.or fl3), none, st)
    else ((r, fl2), none, st)
  else
    let g := d.cfg.groups
    let tagged := gs.zipIdx.map fun e => ((pc + e.2) / g, e.1)
    let ps := (match pend with | some v => [(0, v)] | none => []) ++ runTree 15 4 tagged
    let done := (pc + 16) / g
    let runs := (List.range done).filterMap fun r => runSum 15 r ps
    let rest := runSum 15 done ps
    let (runs', rest') := if d.dmode = 2 then (runs ++ rest.toList, none) else (runs, rest)
    let (c, st1) := contribution d.cfg o st runs'
    (applyScales d o c, rest', st1)

/-- Every output of a vector in drain stage 1. -/
def stage1All (d : Drain) (pc : Nat) (pend : List RunVal) : Nat → Nat → Vector W32 256 →
    List (Nat × NFlags) × List RunVal × Vector W32 256
  | 0, _, st => ([], [], st)
  | n + 1, o, st =>
    let (c, r, st1) := stage1Output d o pc pend[o]? st
    let (cs, rs, st2) := stage1All d pc pend n (o + 1) st1
    (c :: cs, r.toList ++ rs, st2)

/-- A matrix result applied: the new core, with later stages put in flight. -/
def Core.updMx (c : Core) (g : CoreMatrix → CoreMatrix) : Core := { c with mx := g c.mx }

/-- Flags of a matrix operation, named by its issue beat, noted: each condition counts once for it (R244). -/
def Core.noteOp (c : Core) (beat epoch : Nat) (x : NFlags) : Core :=
  let old := Sparse.getD c.mx.counted beat {}
  c.updMx fun m => { m with counted := Sparse.set {} m.counted beat (old.or x), flags := m.flags.noteAs epoch x (x.minus old) }

/-- A later stage of a flight put in flight. -/
def Core.later (c : Core) (f : Flight) (k rank : Nat) (r : Result) : Core :=
  { c with inflight := c.inflight ++ [{ f with due := f.due + k, rank := rank, res := r }] }

/-- Lines of codes of `w` bits, `n` codes a line. -/
def codeLines (w n : Nat) (cs : List Nat) : List Line :=
  (List.range (cs.length / n)).map fun i => ofLanes w ((cs.drop (n * i)).take n)

/-- An integer vector's sum as its total's contribution (R221). -/
def intContribution (dual : Bool) (i : Int) : Nat :=
  let v := if dual then signedOf 16 (i % 65536).toNat else i
  (v % 4294967296).toNat

/-- Drain stage 1 of one vector. -/
def Core.drain1 (c : Core) (f : Flight) (d : Drain) (epoch : Nat) : Core :=
  let key := d.row / 512
  let cs : List Nat × NFlags × Core :=
    if d.isInt then (d.ints.map (intContribution d.cfg.dual), {}, c)
    else
      let old := if d.dmode = 0 then Sparse.find c.mx.pend key else none
      let pc := match old with | some p => p.count / 8 | none => 0
      let vals := match old with | some p => p.vals | none => []
      let (l, rest, st) := stage1All d pc vals d.outs 0 c.mx.lfsr
      let (codes, fl) := gather l
      let left := (pc + 16) % d.cfg.groups
      let poison := d.poison || (match old with | some p => p.poison | none => false)
      let pend :=
        if d.cfg.dual ∨ d.dmode = 2 then c.mx.pend
        else if left = 0 then Sparse.del c.mx.pend key
        else Sparse.put c.mx.pend key { count := 8 * left, vals := rest, poison := poison }
      (codes, fl, (c.updMx fun m => { m with lfsr := st, pend := pend }).noteOp f.beat epoch fl)
  let (codes, _, c1) := cs
  let c2 := if d.isInt ∧ d.dmode = 1 then c1.updMx fun m => { m with pend := Sparse.del m.pend key } else c1
  let poison := d.poison || (d.dmode == 0 && match Sparse.find c.mx.pend key with | some p => p.poison | none => false)
  if d.dmode = 2 then
    let (fmt, ls) : Fmt × List Line :=
      if d.isInt then (.int32, codeLines 32 64 codes)
      else if d.cfg.dual then (.a16, codeLines 16 128 codes) else (.fp32, codeLines 32 64 codes)
    ls.zipIdx.foldl (fun c e => c.later f (1 + e.2) 5 (.push d.q fmt e.1 poison)) c2
  else c2.later f 1 2 (.drain2 { d with poison := poison } (codes.map (BitVec.ofNat 32)))

/-- Totals of a row in the accumulator buffer. -/
def Core.rowTotals (c : Core) (row outs : Nat) : List Nat :=
  (List.range (outs / 64)).flatMap fun i => lanes (c.accLine (row + 256 * i)) 32 64

/-- A row of totals written, with poison. -/
def Core.setRow (c : Core) (row : Nat) (cs : List Nat) (p : Nat → Bool) : Core :=
  (codeLines 32 64 cs).zipIdx.foldl (fun c e => c.setAcc (row + 256 * e.2) e.1 (p (row + 256 * e.2))) c

/-- Additions into totals, one draw each under sr. -/
def addAll (cfg : MCfg) (o : Nat) (st : Vector W32 256) : List Nat → List Nat → List (Nat × NFlags) × Vector W32 256
  | t :: ts, c :: cs =>
    let (x, st1) := drainAdd cfg o st t c
    let (l, st2) := addAll cfg (o + 1) st1 ts cs
    (x :: l, st2)
  | _, _ => ([], st)

/-- Drain stage 2 of one vector (R212, R221) of the operation issued in `beat`. -/
def Core.drain2 (c : Core) (beat : Nat) (d : Drain) (cs : List W32) (epoch : Nat) : Core :=
  let codes := cs.map (·.toNat)
  let old := c.rowTotals d.row d.outs
  if d.dmode = 1 then c.setRow d.row codes fun _ => d.poison
  else if d.isInt then
    c.setRow d.row ((old.zip codes).map fun e => (e.1 + e.2) % 4294967296) fun a => d.poison || c.accPoisoned a
  else
    let (l, st) := addAll d.cfg 0 c.mx.lfsr old codes
    let (ts, fl) := gather l
    ((c.setRow d.row ts fun a => d.poison || c.accPoisoned a).updMx fun m => { m with lfsr := st }).noteOp beat epoch fl

/-- MFLUSH's additions (R215). -/
def Core.flushAdd (c : Core) (beat : Nat) (rows : Sparse PendRow) (cfg : MCfg) (epoch : Nat) : Core :=
  rows.foldl (fun c r =>
    let row := 512 * r.1
    let runs := r.2.vals.map (runTo32 cfg)
    let (l, st) := addAll cfg 0 c.mx.lfsr (c.rowTotals row 128) (runs.map (·.1))
    let (ts, fl) := gather l
    let fl' := runs.foldl (fun a e => a.or e.2) fl
    ((c.setRow row ts fun a => r.2.poison || c.accPoisoned a).updMx fun m => { m with lfsr := st }).noteOp beat epoch fl') c

/-! ### Results of a beat (R139) -/

/-- A sync counter changed by the core's own CSET or CADD (R174). -/
def Core.updCtr (c : Core) (n : CtrId) (f : Counter → Counter) : Core := { c with sync := updAt c.sync n f }

/-- A result written in its beat: the core, and the FULL_PUSH fault of a push that finds its queue end full. -/
def Core.apply (c : Core) (epoch : Nat) (f : Flight) : Core × Option FaultInfo :=
  match f.res with
  | .kreg d v => ({ c with k := c.k.set d v }, none)
  | .agset d x v => ({ c with ag := updAt c.ag d (·.setField x v) }, none)
  | .agrst d => ({ c with ag := updAt c.ag d Agen.restart }, none)
  | .ring b k => ({ c with ring := { head := 0, tail := 0, sizeLog2 := k, baseLine := b } }, none)
  | .ringFree n => ({ c with ring := { c.ring with tail := c.ring.tail + n } }, none)
  | .push q t d p | .push2 q t d p =>
    match c.push q.q { data := d, epoch := q.epoch, fmt := BitVec.ofNat 4 (fmtCode t), poison := p } with
    | some c' => (c', none)
    | none => (c, some { cause := 0x04, queue := q.q.val })
  | .memLine a d p => (c.setLine a (if c.inRing a then freeLine f.free a else d) p, none)
  | .vreg r d p => ({ c with vx := { c.vx with regs := c.vx.regs.set r ⟨d, p⟩ } }, none)
  | .accLine a d p => (c.setAcc a d p, none)
  | .cset n v => (c.updCtr n fun _ => { count := v, fail := 0 }, none)
  | .cadd n v => (c.updCtr n fun x => { x with count := x.count + v }, none)
  | .tileEntry i d p => (c.updMx fun m => { m with shadow := { m.shadow with
      entries := Sparse.set 0 m.shadow.entries i d
      poisoned := if p then addTo m.shadow.poisoned i else delFrom m.shadow.poisoned i } }, none)
  | .scalePart i d p =>
    (c.updMx fun m =>
      if i = 8 then { m with rowScale := ⟨d, p⟩, rowPtr := 0 }
      else if i = 9 then { m with actScale := ⟨d, p⟩, actPtr := 0 }
      else
        let k : Fin 8 := finMod 8 (by decide) i
        { m with shadow := { m.shadow with scales := m.shadow.scales.set k d, scalePoison := m.shadow.scalePoison.set k p } },
      none)
  | .mswap => (c.updMx fun m => { m with active := m.shadow, shadow := { m.active with fmt := none } }, none)
  | .mcfg v => (c.updMx fun m => { m with cfg := v }, none)
  | .mseed v =>
    let v' := if v = 0 then 1 else v
    (c.updMx fun m => { m with seed := v', lfsr := Vector.ofFn fun i => lfsrSeed v' i.val }, none)
  | .vseed v =>
    let v' := if v = 0 then 1 else v
    ({ c with vx := { c.vx with lfsr := Vector.ofFn fun i => lfsrSeed v' i.val } }, none)
  | .drain1 d => (c.drain1 f d epoch, none)
  | .drain2 d cs => (c.drain2 f.beat d cs epoch, none)
  | .flushTake =>
    if c.mx.pend.isEmpty then (c, none)
    else ((c.updMx fun m => { m with pend := [] }).later f 4 4 (.flushAdd c.mx.pend c.mx.cfg), none)
  | .flushAdd rows cfg => (c.flushAdd f.beat rows cfg epoch, none)
  | .mnote fl => (c.noteOp f.beat epoch fl, none)
  | .amax t d p => ({ c with vx := c.vx.amax t d p }, none)
  | .coef i d p => ({ c with vx := { c.vx with coefs := c.vx.coefs.set i ⟨d, p⟩ } }, none)
  | .updFlag b => ({ c with vx := { c.vx with updFlag := b } }, none)

/-- Do two results belong to one operation? -/
def Flight.sameOp (f g : Flight) : Bool := f.beat == g.beat && f.slot == g.slot

/-- Results written one after another, and the faults of their pushes. -/
def Core.applyAll (c : Core) (epoch : Nat) (fs : List Flight) : Core × List (Flight × FaultInfo) :=
  fs.foldl (fun (acc : Core × List (Flight × FaultInfo)) f =>
    let (c1, e) := acc.1.apply epoch f
    (c1, match e with | some x => acc.2 ++ [(f, x)] | none => acc.2)) (c, [])

/-- The results of one operation in a beat. Where a push finds its queue end full, the operation neither pushes nor
writes, now or later (R148). -/
def Core.applyOp (c : Core) (epoch : Nat) (fs : List Flight) : Core × List (Flight × FaultInfo) :=
  let r := c.applyAll epoch fs
  if r.2.isEmpty then r
  else ({ c with inflight := c.inflight.filter fun g => !(fs.any fun f => f.sameOp g) }, r.2)

/-- The results of one rank due in the present beat, in issue order. -/
def Core.applyRank (c : Core) (epoch rank : Nat) : Core × List (Flight × FaultInfo) :=
  let now := c.inflight.filter fun f => f.due == c.beats && f.rank == rank
  let c0 := { c with inflight := c.inflight.filter fun f => !(f.due == c.beats && f.rank == rank) }
  (now.splitBy Flight.sameOp).foldl (fun (acc : Core × List (Flight × FaultInfo)) fs =>
    let (c1, l) := acc.1.applyOp epoch fs
    (c1, acc.2 ++ l)) (c0, [])

/-- The end of a beat (R139): every result due in it is written, and the beat is counted (R141). The ranks are 1 plain
results, 2 drain stage 2, 3 drain stage 1, 4 MFLUSH (R215, R218), 5 pushes and vector writes (R190), 6 configuration and
seeds, 7 the runs MFLUSH takes, 8 the counters, whose CSET and CADD come first in the next beat (R175). -/
def Core.endBeat (c : Core) (epoch : Nat) : Core × List (Flight × FaultInfo) :=
  let r := (List.range 9).foldl (fun (acc : Core × List (Flight × FaultInfo)) k =>
    let (c1, l) := acc.1.applyRank epoch k
    (c1, acc.2 ++ l)) (c, [])
  ({ r.1 with
     beats := r.1.beats + 1
     mx := { r.1.mx with counted := r.1.mx.counted.filter fun e => r.1.inflight.any fun f => f.beat == e.1 } }, r.2)

/-- `n` empty beats (R137, R31). -/
def Core.emptyBeats (c : Core) (epoch : Nat) : Nat → Core × List (Flight × FaultInfo)
  | 0 => (c, [])
  | n + 1 =>
    let (c1, l) := c.endBeat epoch
    let (c2, m) := Core.emptyBeats c1 epoch n
    (c2, l ++ m)

end Sys2Proof.Machine
end

