-- ==== Sys2Proof/Machine/Memory.lean ====
section
/-! DEFINITION. Memory behind the local map (11): sectors with their codeword errors, markers, quarantine, flip mask and
remap table; memory views; and one 64-byte block of any place a transfer may name. -/

namespace Sys2Proof.Machine

/-! ### Sectors (R265 to R269, R273 to R275) -/

/-- Is the page of an address on the quarantine list (R275)? -/
def MemCtl.quarantined (m : MemCtl) (a : Nat) : Bool := has m.qtn (a / 65536)

/-- OUT or DEAD (R398). -/
def MemCtl.gone (m : MemCtl) : Bool := m.state == .out || m.state == .dead

/-- The codeword bits the flip mask inverts (R274): a value of 576 or more names none. -/
def MemCtl.flips (m : MemCtl) : List Nat := [m.flipA.toNat, m.flipB.toNat].filter fun b => decide (b < 576)

/-- The contents of a sector replaced: its data, no codeword bit in error, its marker. -/
def MemCtl.put (m : MemCtl) (a : Nat) (data : List Byte) (poison : Bool) : MemCtl :=
  let k := a / 64
  { m with data := wrL m.data (64 * k) data, errs := Sparse.del m.errs k,
           marker := if poison then addTo m.marker k else delFrom m.marker k }

/-- The flip mask fired in epoch `e` (R6, R274): the codeword bits it names inverted, the arm cleared. -/
def MemCtl.fire (m : MemCtl) (e : Nat) : MemCtl :=
  { m with errs := Sparse.put m.errs m.flipSector.toNat m.flips, flipArm := false, flipFired := true, flipEpoch := e,
           flipPart := none }

/-- One sector stored in epoch `e`: a quarantined page takes nothing (R275); an armed flip mask fires on a stored codeword
(R274). -/
def MemCtl.store (m : MemCtl) (e a : Nat) (data : List Byte) (poison : Bool) : MemCtl :=
  if m.quarantined a then m
  else if m.flipArm && m.flipSector.toNat == a / 64 && !poison then (m.put a data poison).fire e
  else m.put a data poison

/-- The 64 bytes of a sector as stored, without its errors. -/
def MemCtl.sectorData (m : MemCtl) (a : Nat) : List Byte := rdL m.data (a / 64 * 64) 64

/-- Is the poison marker in a sector? -/
def MemCtl.marked (m : MemCtl) (a : Nat) : Bool := has m.marker (a / 64)

/-- The codeword bits in error: those stored, and those found besides; a bit inverted twice is right again. -/
def errorBits (stored extra : List Nat) : List Nat :=
  (stored.filter fun b => !extra.contains b) ++ extra.eraseDups.filter fun b => !stored.contains b

/-- The codeword bytes in error (R265). -/
def errorBytes (bits : List Nat) : List Nat := (bits.map (· / 8)).eraseDups

/-- Data with the codeword bits in error inverted. -/
def spoil (data : List Byte) (bits : List Nat) : List Byte :=
  data.zipIdx.map fun e => bits.foldl (fun b k => if k / 8 = e.2 then b ^^^ (1#8 <<< (k % 8)) else b) e.1

/-- A remap entry added (R271): the sector's spare holds what the sector held. -/
def MemCtl.addRemap (m : MemCtl) (k : Nat) (driver : Bool) : MemCtl := { m with remap := m.remap ++ [(k, driver)] }

/-- Is a sector remapped? -/
def MemCtl.remapped (m : MemCtl) (k : Nat) : Bool := m.remap.any fun e => e.1 == k

/-- The code of a read's source in the UE log (11, MEM_UE_LOGi). -/
def sourceCode : ReadSource → Nat
  | .engine => 0 | .patrol => 1 | .add => 2 | .host => 3 | .remap => 4

/-- Shares: a partition's wells in ascending order (R253). -/
def PartImage.wells (i : PartImage) : List WellId := (allFin 12).filter fun w => i.wellMask.testBit w.val

/-- Bytes of a share, and of the units of bases and allocations. -/
def g2 : Nat := 0x80000000
def g4 : Nat := 0x100000000

/-- The partition whose view or allocation holds an address of a unit. -/
def State.sectorHolder (s : State) (u : MemUnit) (a : Nat) : Option PartId :=
  (allFin 16).find? fun p =>
    let i := s.parts[p].im.img
    s.parts[p].claims? &&
      match u with
      | .well w => i.wellMask.testBit w.val && decide (i.base2g[w] * g2 ≤ a ∧ a < (i.base2g[w] + i.share2g) * g2)
      | .quarter q => decide (i.cisA[q] * g4 ≤ a ∧ a < (i.cisA[q] + i.cisZ[q]) * g4)

/-- The register word of a UE log entry. -/
def UeEntry.word (e : UeEntry) : W64 :=
  placeB true 63 ||| place (sourceCode e.source) 60 3 ||| place e.partition 55 5 ||| place e.sector 6 32

/-- An uncorrectable sector logged (R268 steps 3 and 4). -/
def State.logUe (s : State) (u : MemUnit) (a : Nat) (src : ReadSource) : State :=
  let e : UeEntry :=
    { source := src, partition := match s.sectorHolder u a with | some p => p.val | none => 0x1F, sector := a / 64 }
  let s1 := s.updMem u fun m => { m with
    ue := satAdd 16 m.ue 1
    log := m.log.set (m.logHead % 16) (some e) (Nat.mod_lt _ (by decide))
    logHead := (m.logHead + 1) % 16
    logWrapped := m.logWrapped || m.log[m.logHead % 16]'(Nat.mod_lt _ (by decide)) != none }
  let s2 := s1.evidence (baroMem u) evUe 1
  let pb : Byte := match s.sectorHolder u a with | some p => partByte p | none => partNone
  s2.event 0x0501 (unitMem u) pb sevAbsorbed 0 (packDetail [(e.word.toNat, 8)])

/-- A remap entry added by the steward (R267): the sector was corrected for the second time in one patrol period. -/
def State.stewardRemap (s : State) (u : MemUnit) (k : Nat) : State :=
  let m := s.mem u
  if m.remap.length < 16 && !m.remapped k then
    let s1 := s.updMem u (·.addRemap k false)
    (s1.evidence (baroMem u) evRemap 1).event 0x0502 (unitMem u) partNone sevAbsorbed 0
      (packDetail [((unitMem u).toNat, 1), (k, 4)])
  else s

/-- A corrected sector counted, and written back unless an add replaces it (R266, R267). -/
def State.corrected (s : State) (u : MemUnit) (a : Nat) (writeBack : Bool) : State :=
  let k := a / 64
  let twice := has (s.mem u).corrected k
  let s1 := s.updMem u fun m =>
    let m1 := if writeBack then m.store s.epoch a (m.sectorData a) false else m
    { m1 with ceCtrl := satAdd 32 m1.ceCtrl 1, corrected := addTo m1.corrected k }
  let s2 := s1.evidence (baroMem u) evCe 1
  if twice then s2.stewardRemap u k else s2

/-- One sector read (R265, R266, R268, R275): its data and poison. `extra` holds codeword bits found in error beyond
those stored; `onDie` on-die correction reports. -/
def State.readSector (s : State) (u : MemUnit) (a : Nat) (src : ReadSource) (extra : List Nat) (onDie : Nat) :
    (List Byte × Bool) × State :=
  let m := s.mem u
  if m.quarantined a then ((List.replicate 64 0, true), s)
  else
    let s0 := if onDie = 0 then s else
      (s.updMem u fun m => { m with ceOnDie := satAdd 16 m.ceOnDie onDie }).evidence (baroMem u) evOnDie onDie
    if m.marked a then ((m.sectorData a, true), s0)
    else
      let bits := errorBits (Sparse.getD m.errs (a / 64) []) extra
      let bytes := errorBytes bits
      if bytes.isEmpty then ((m.sectorData a, false), s0)
      else if bytes.length = 1 || (2 < bytes.length && Config.correctsMany bits) then
        ((m.sectorData a, false), s0.corrected u a (src != .add))
      else
        let d := spoil (m.sectorData a) (bits.filter (· < 512))
        ((d, true), (s0.updMem u (·.store s.epoch a d true)).logUe u a src)

/-! ### Views (R251 to R254) -/

/-- A place that a 64-byte access can name. -/
inductive Loc where
  | mem (u : MemUnit) (a : Nat)
  | core (c : CoreId) (a : Nat)
  deriving DecidableEq, Repr

def cisBase : Nat := 0x010000000000
def coreBase : Nat := 0x040000000000
def coreEnd : Nat := 0x040030000000
def ctlBase : Nat := 0x080000000000
def wellsEnd : Nat := 0x00C000000000

/-- view_to_well (R253). -/
def PartImage.viewToWell (i : PartImage) (v : Nat) : Option (WellId × Nat) :=
  let ws := i.wells
  let k := ws.length
  let g := v / 2048
  if k = 0 then none
  else match ws[g % k]? with
    | some w => some (w, i.base2g[w] * g2 + (g / k) * 2048 + v % 2048)
    | none => none

/-- A range of a partition's view, checked in the order of R10 and R166: none where it lies within one part of the
view. -/
def State.viewCheck (s : State) (p : PartId) (off len : Nat) : Option OutcomeCode :=
  let i := s.parts[p].im.img
  if coreBase ≤ off ∧ off < coreEnd then
    let c := coreOf ((off - coreBase) / 0x400000)
    let o := (off - coreBase) % 0x400000
    if !s.corePresent c.val then some .refusedAbsent
    else if i.wardMask.testBit (c.val / 12) && decide (o + len ≤ 0x300000) then none else some .refusedOwner
  else if off < wellsEnd then
    if off + len ≤ i.wells.length * i.share2g * g2 then none else some .refusedOwner
  else if cisBase ≤ off ∧ off < 0x020000000000 then
    let q := pumpOf ((off - cisBase) / 0x4000000000)
    let o := (off - cisBase) % 0x4000000000
    if o + len ≤ i.cisZ[q] * g4 then none else some .refusedOwner
  else some .refusedOwner

/-- The place of a view offset: none outside the view. -/
def State.viewLoc (s : State) (p : PartId) (off : Nat) : Option Loc :=
  let i := s.parts[p].im.img
  if (s.viewCheck p off 1).isSome then none
  else if coreBase ≤ off then
    some (.core (coreOf ((off - coreBase) / 0x400000)) ((off - coreBase) % 0x400000))
  else if off < wellsEnd then (i.viewToWell off).map fun w => .mem (.well w.1) w.2
  else
    let q := pumpOf ((off - cisBase) / 0x4000000000)
    some (.mem (.quarter q) (i.cisA[q] * g4 + (off - cisBase) % 0x4000000000))

/-- The place of a PF offset (R252): the map as it stands; none in a gap. -/
def State.pfLoc (s : State) (off : Nat) : Option Loc :=
  if off < wellsEnd then some (.mem (.well (wellOf (off / 0x1000000000))) (off % 0x1000000000))
  else if cisBase ≤ off ∧ off < 0x020000000000 then
    some (.mem (.quarter (pumpOf ((off - cisBase) / 0x4000000000))) ((off - cisBase) % 0x4000000000))
  else if coreBase ≤ off ∧ off < coreEnd then
    let c := coreOf ((off - coreBase) / 0x400000)
    let o := (off - coreBase) % 0x400000
    if s.corePresent c.val && decide (o < 0x340000) then some (.core c o) else none
  else none

/-! ### Blocks of 64 bytes -/

/-- A place whose unit is gone: a well or Pump OUT or DEAD (R398), a core of a failed field (R400). -/
def State.locGone (s : State) : Loc → Bool
  | .mem u _ => (s.mem u).gone
  | .core c _ => s.fields[fieldOf (c.val / 48)].failed

/-- One 64-byte block read, with its poison. -/
def State.readBlock (s : State) (l : Loc) (src : ReadSource) : (List Byte × Bool) × State :=
  match l with
  | .mem u a => s.readSector u a src [] 0
  | .core c a =>
    let x := s.cores[c]
    if a < 0x300000 then ((rdL x.mem (a / 64 * 64) 64, x.memPoisoned (a / 64 * 64) 64), s)
    else
      let o := a - 0x300000
      ((rdL x.acc (o / 64 * 64) 64, x.accPoisoned o), s)

/-- One 64-byte block written, with its poison. -/
def State.writeBlock (s : State) (l : Loc) (data : List Byte) (poison : Bool) : State :=
  match l with
  | .mem u a => s.updMem u (·.store s.epoch a data poison)
  | .core c a =>
    s.updCore c fun x =>
      if a < 0x300000 then
        { x with mem := wrL x.mem (a / 64 * 64) data, memPoison := setBlocks x.memPoison (a / 64 * 64) 64 poison }
      else
        let o := a - 0x300000
        { x with acc := wrL x.acc (o / 64 * 64) data,
                 accPoison := if poison then addTo x.accPoison (o / 256) else x.accPoison }

/-- Is a place on a quarantined page? -/
def State.locQuarantined (s : State) : Loc → Bool
  | .mem u a => (s.mem u).quarantined a
  | .core _ _ => false

/-- The elements of an add (R263): their format and count. -/
def addFmt (op : Nat) : Fmt := match op with | 1 => .fp32 | 2 => .bf16 | _ => .int32

/-- One element added. -/
def addElem (op : Nat) (ieee : Bool) (a b : Nat) : Nat × NFlags :=
  match fpSpec (addFmt op) with
  | some f => f.arith (!ieee) .rne (fadd (decodeElem (addFmt op) a) (decodeElem (addFmt op) b))
  | none => ((a + b) % 4294967296, {})

/-- A block of elements as numbers, and back. -/
def blockElems (w : Nat) (d : List Byte) : List Nat := (List.range (d.length / w)).map fun i => ldNat d (w * i) w
def blockBytes (w : Nat) (xs : List Nat) : List Byte := xs.flatMap fun x => leBytes x w

/-- Two blocks added element by element: the sums and the flags of the block. -/
def addBlocks (op : Nat) (ieee : Bool) (a b : List Byte) : List Byte × NFlags :=
  let w := fmtBits' op / 8
  let rs := ((blockElems w a).zip (blockElems w b)).map fun e => addElem op ieee e.1 e.2
  (blockBytes w (rs.map (·.1)), rs.foldl (fun f e => f.or e.2) {})
where
  fmtBits' (op : Nat) : Nat := if op = 2 then 16 else 32

/-- One block added into a well (R263, R264): whether it failed for poison. -/
def State.addSector (s : State) (w : WellId) (a : Nat) (op : Nat) (data : List Byte) (poison ieee : Bool) : Bool × State :=
  if s.wells[w].quarantined a then (true, s)
  else
    let ((old, bad), s1) := s.readSector (.well w) a .add [] 0
    if bad || poison then (true, s1.updWell w (·.store s.epoch a old true))
    else
      let (sum, fl) := addBlocks op ieee old data
      (false, (s1.updWell w (·.store s.epoch a sum false)).updWell w fun m => { m with flags := m.flags.note s.epoch fl })

end Sys2Proof.Machine
end

