-- ==== Sys2Proof/Machine/Route.lean ====
section
/-! DEFINITION. Packets and routing (12 R281, R288 to R301): bytes and checks of a packet, the torus, credits, the
choice of a port and channel, the arbiter of an output and the TC0 regulator (log 18). -/

namespace Sys2Proof.Machine

/-! ### Bytes of a packet (R288 to R290) -/

def b2n (b : Bool) : Nat := b.toNat

/-- Header bytes 0x00 to 0x1B. -/
def pktHead (k : Packet) : List Byte :=
  leBytes k.dst.toNat 2 ++ leBytes k.src.toNat 2 ++ [k.kind,
    BitVec.ofNat 8 (k.tc.toNat + (b2n k.ord <<< 2) + (b2n k.repoch <<< 3) + (b2n k.ieee <<< 4) + (k.attempt.toNat <<< 5)),
    BitVec.ofNat 8 (k.srcPart.val + (k.dstPart.val <<< 4)), BitVec.ofNat 8 (k.op.toNat + (b2n k.poison <<< 2))] ++
    leBytes k.payload.length 2 ++ leBytes 0 2 ++ leBytes k.psn.toNat 4 ++ leBytes k.floor.toNat 4 ++ leBytes k.addr.toNat 8

/-- The header CRC-16 (R289). -/
def pktHcrc (k : Packet) : W16 :=
  (pktHead k ++ [BitVec.ofNat 8 (b2n k.detoured), 0]).foldl (crcMsbByte 0x1021#16) 0xFFFF#16

/-- The trailer CRC-64 (R290). -/
def pktTrailer (k : Packet) : W64 :=
  (pktHead k ++ k.payload).foldl (crcMsbByte 0x42F0E1EBA9EA3693#64) 0#64

/-- Flits of a packet (R288). -/
def pktFlits (k : Packet) : Nat := (40 + k.payload.length + 63) / 64

/-! ### The torus (R281, R297) -/

def State.chip (s : State) : BitVec 15 := s.image.fabric.chip

/-- A coordinate of a chip number. -/
def coord (chip : BitVec 15) (dim : Fin 3) : Nat := bits chip (10 - 5 * dim.val) 5

/-- Is a chip number inside the torus? -/
def State.inTorus (s : State) (chip : BitVec 15) : Bool := (allFin 3).all fun d => coord chip d < s.image.fabric.dims[d]

/-- The dimension of a port, and its direction (even ports are +). -/
def portDim (n : PortId) : Fin 3 := ⟨n.val / 2, by omega⟩
def portPlus (n : PortId) : Bool := n.val % 2 == 0
def dimPort (d : Fin 3) (plus : Bool) : PortId := ⟨2 * d.val + (if plus then 0 else 1), by split <;> omega⟩

/-- The offset `d` of R297 in a dimension. -/
def State.offsetTo (s : State) (dst : BitVec 15) (d : Fin 3) : Nat :=
  let D := s.image.fabric.dims[d]
  (coord dst d + D - coord s.chip d) % max D 1

/-- Is a hop out of a port productive (R297)? -/
def State.productive (s : State) (dst : BitVec 15) (n : PortId) : Bool :=
  let D := s.image.fabric.dims[portDim n]
  let d := s.offsetTo dst (portDim n)
  d != 0 && (if portPlus n then decide (2 * d ≤ D) else decide (D ≤ 2 * d))

/-- The neighbour a port expects (R281). -/
def State.neighbour (s : State) (n : PortId) : BitVec 15 :=
  let c (d : Fin 3) : Nat :=
    let D := s.image.fabric.dims[d]
    if d = portDim n then (coord s.chip d + (if portPlus n then 1 else D - 1)) % max D 1 else coord s.chip d
  BitVec.ofNat 15 (c 0 * 1024 + c 1 * 32 + c 2)

/-- Lanes in use (12, width). -/
def laneCount (m : BitVec 16) : Nat := (maskBits m.toNat 16).length

/-- The width a port runs at: 1 while it or the port it faces is parked (R284, R301). -/
def Port.width (x : Port) : Nat := if x.parked || x.nbrParked then 1 else laneCount x.laneMask

/-! ### Credits (R292, R293) -/

def vcInflight (v : Vc) : Nat := (v.sent - v.freed).toNat

/-- The credits of the shared pool in use, with `extra` flits more on channel `v`. -/
def State.poolUse (s : State) (n : PortId) (v : VcId) (extra : Nat) : Nat :=
  ((allFin 12).map fun w =>
    (vcInflight s.ports[n].vcs[w] + (if w = v then extra else 0)) - s.image.fabric.reserve[w]).foldl (· + ·) 0

/-- The pool of a port's receive buffer, which scales with the lanes in use; parking leaves it as it is (R284, R301). -/
def State.pool (s : State) (n : PortId) : Nat :=
  4096 * laneCount s.ports[n].laneMask / 16 - s.image.fabric.reserve.foldl (· + ·) 0

/-- May `f` flits go on a channel? A TC0 channel never draws from the pool. -/
def State.credit (s : State) (n : PortId) (v : VcId) (f : Nat) : Bool :=
  if v.val < 3 then decide (vcInflight s.ports[n].vcs[v] + f ≤ s.image.fabric.reserve[v])
  else decide (s.poolUse n v f ≤ s.pool n)

/-- Free credits of a channel, for the choice of R298. -/
def State.freeCredits (s : State) (n : PortId) (v : VcId) : Nat :=
  (s.image.fabric.reserve[v] - vcInflight s.ports[n].vcs[v]) + (if v.val < 3 then 0 else s.pool n - s.poolUse n v 0)

/-! ### The choice of a channel (R298 to R300) -/

/-- Is a port used for routing: ADMITTED, and its neighbour's heartbeat has said so (R300, R407)? -/
def State.usable (s : State) (n : PortId) : Bool := s.ports[n].state == .admitted && s.ports[n].nbrAdmitted

/-- The table entry toward a chip in the packet's routing epoch (R299). -/
def State.routeEntry (s : State) (k : Packet) : Nat :=
  (Sparse.getD (s.fabric.tables[if k.repoch then (1 : Fin 2) else 0]) k.dst.toNat 0#8).toNat % 64

/-- The escape port: the first productive port in dimension order, + where both are minimal; under a mask its first
port (R298, R299). -/
def State.escapePort (s : State) (k : Packet) : Option PortId :=
  let e := s.routeEntry k
  if e = 0 then (allFin 6).find? fun n => s.productive k.dst n else (allFin 6).find? fun n => e.testBit n.val

/-- Did a packet leave its source in the direction of a port? The way back from a detour is another journey (R300). -/
def State.alongFrom (s : State) (k : Packet) (n : PortId) : Bool :=
  let D := s.image.fabric.dims[portDim n]
  let d := (coord k.dst (portDim n) + D - coord k.src (portDim n)) % max D 1
  d != 0 && (if portPlus n then decide (2 * d ≤ D) else decide (D ≤ 2 * d))

/-- E1 from the hop that crosses the dateline of the direction, E0 before it (R298). -/
def State.escapeVc (s : State) (k : Packet) (n : PortId) : VcId :=
  let d := portDim n
  let D := s.image.fabric.dims[d]
  let c := coord s.chip d
  let o := coord k.src d
  let crossed := (if portPlus n then c + 1 == D else c == 0) ||
    (s.alongFrom k n && (if portPlus n then decide (c < o) else decide (o < c)))
  vcOf (3 * k.tc.toNat + (if crossed then 2 else 1))

/-- The adaptive channel of a class. -/
def adaptiveVc (k : Packet) : VcId := vcOf (3 * k.tc.toNat)

/-- The port of the most free credits, the lower port in a tie. -/
def State.bestPort (s : State) (v : VcId) : List PortId → Option PortId
  | [] => none
  | n :: r =>
    match s.bestPort v r with
    | none => some n
    | some m => if s.freeCredits n v < s.freeCredits m v then some m else some n

/-- The detour port of R300. -/
def State.detourPort (s : State) (k : Packet) : Option PortId :=
  ([2, 3, 4, 5, 0, 1] : List PortId).find? fun n => s.usable n && s.offsetTo k.dst (portDim n) == 0

/-- Where a packet goes at this hop. -/
inductive Hop where
  | to (n : PortId) (v : VcId) (detour : Bool)
  | drop
  deriving DecidableEq, Repr

def State.hop (s : State) (k : Packet) : Hop :=
  let e := s.routeEntry k
  let v := adaptiveVc k
  let ports := (allFin 6).filter fun n => s.productive k.dst n && s.usable n && (e == 0 || e.testBit n.val)
  match ports with
  | [] =>
    if k.detoured then .drop
    else match s.detourPort k with
      | some n => .to n (vcOf (3 * k.tc.toNat + 2)) true
      | none => .drop
  | m :: _ =>
    match s.bestPort v (ports.filter fun n => s.credit n v 1) with
    | some n => .to n v false
    | none =>
      match (s.escapePort k).filter s.usable with
      | some n => .to n (s.escapeVc k n) false
      | none => .to m v false

/-! ### Onto the link (R293, R295, R301) -/

/-- What a port in TRAINING or PROBATION carries: heartbeats, SOUNDING packets (R310) and FENCE packets (R402). -/
def facingKind (kind : Byte) : Bool := kind == 0x08 || kind == 0x0D || kind == 0x0B

/-- May a packet leave by a port now, credits apart? A parked link carries TC0 and TC3 alone (R301); an EPOCH_MARK waits
until the neighbour has reported ADMITTED (R407). -/
def State.maySend (s : State) (n : PortId) (k : Packet) : Bool :=
  let x := s.ports[n]
  match x.state with
  | .down => false
  | .admitted => !((x.parked || x.nbrParked) && (k.tc == 1 || k.tc == 2)) && (x.nbrAdmitted || k.kind != 0x0C)
  | _ => facingKind k.kind

/-- A packet of TC1 or TC2 has passed a port (R46). -/
def State.noteTc12 (s : State) (k : Packet) : State := if k.tc = 1 ∨ k.tc = 2 then { s with tc12At := s.timeNs } else s

/-- The index of a class other than TC0 in an arbiter. -/
def arbClass (k : Packet) : Fin 3 := finMod 3 (by decide) (k.tc.toNat - 1)

/-- The index of a packet's class and partition in an arbiter. -/
def arbPart (k : Packet) : Fin 48 := finMod 48 (by decide) ((arbClass k).val * 16 + k.srcPart.val)

/-- Flits of a packet served by an arbiter. -/
def Arb.serve (a : Arb) (e : HeldPkt) (f : Nat) : Arb :=
  if e.pkt.tc = 0 then a
  else
    { served := updAt a.served (arbClass e.pkt) (· + f)
      fromHere := updAt a.fromHere (arbClass e.pkt) fun _ => e.via.isNone
      parts := if e.via.isNone then updAt a.parts (arbPart e.pkt) (· + f) else a.parts }

/-- `f` flits of a packet sent: the packet stands on the wire from its head on. -/
def State.sendFlits (s : State) (n : PortId) (e : HeldPkt) (f : Nat) : State :=
  (s.noteTc12 e.pkt).updPort n fun x => { x with
    wire := if e.left = pktFlits e.pkt then x.wire ++ [(e.vc, e.pkt)] else x.wire
    arb := x.arb.serve e f
    vcs := updAt x.vcs e.vc fun c => { c with sent := c.sent + BitVec.ofNat 12 f } }

/-- The first packet held on each channel. -/
def headsOf : List HeldPkt → List VcId → List HeldPkt
  | [], _ => []
  | e :: r, seen => if seen.contains e.vc then headsOf r seen else e :: headsOf r (e.vc :: seen)

/-- The one that has had the least of what it may have: service against weight, the first in a tie. -/
def leastServed {α : Type} (served weight : α → Nat) : List α → Option α
  | [] => none
  | a :: r =>
    match leastServed served weight r with
    | none => some a
    | some b => if served b * weight a < served a * weight b then some b else some a

/-- The share of a partition on a port and class (R81). -/
def State.arbShare (s : State) (n : PortId) (k : Packet) : Nat :=
  s.parts[k.srcPart].im.img.portShare[3 * n.val + (arbClass k).val]'(by have := (arbClass k).isLt; omega)

/-- The packet of one class that is served next: the one begun goes on; transit and local packets take turns; partitions
divide the local turns by their shares. -/
def State.pickOfClass (s : State) (n : PortId) (c : Fin 3) (l : List HeldPkt) : Option HeldPkt :=
  match l.find? fun e => e.left < pktFlits e.pkt with
  | some e => some e
  | none =>
    let a := s.ports[n].arb
    let transit := l.find? fun e => e.via.isSome
    let here := leastServed (fun e => a.parts[arbPart e.pkt]) (fun e => s.arbShare n e.pkt) (l.filter fun e => e.via.isNone)
    if a.fromHere[c] then transit.or here else here.or transit

/-- The packet whose flit goes in the next block slot (R295): TC0 before all, then TC1 to TC3 by their weights. -/
def State.nextFlit (s : State) (n : PortId) : Option HeldPkt :=
  let l := (headsOf s.ports[n].held []).filter fun e => s.maySend n e.pkt && s.credit n e.vc 1
  match l.find? fun e => e.pkt.tc == 0 with
  | some e => some e
  | none =>
    let of (c : Fin 3) : List HeldPkt := l.filter fun e => arbClass e.pkt == c
    match leastServed (fun c => s.ports[n].arb.served[c]) (fun c => s.image.fabric.classWeight[c])
        ((allFin 3).filter fun c => !(of c).isEmpty) with
    | some c => s.pickOfClass n c (of c)
    | none => none

/-- A held packet after one more of its flits has gone. -/
def lessFlit (e : HeldPkt) : List HeldPkt → List HeldPkt
  | [] => []
  | q :: r => if q = e then (if e.left ≤ 1 then r else { e with left := e.left - 1 } :: r) else q :: lessFlit e r

/-- Block slots of an output, at most `fuel` of them. -/
def State.slots (s : State) (n : PortId) : Nat → State
  | 0 => s
  | fuel + 1 =>
    match s.nextFlit n with
    | none => s
    | some e => State.slots ((s.sendFlits n e 1).updPort n fun x => { x with held := lessFlit e x.held }) n fuel

/-- What a port holds sent, as far as credits let it. -/
def State.flushPort (s : State) (n : PortId) : State :=
  s.slots n (s.ports[n].held.foldl (fun a e => a + e.left) 0)

/-- The arbiter when a packet joins those that wait: a class, and a partition in it, that had nothing waiting keeps no
claim to what others used (R295: unused share is lent). -/
def State.joinArb (s : State) (n : PortId) (e : HeldPkt) : Arb :=
  let a := s.ports[n].arb
  let l := s.ports[n].held
  let w := s.image.fabric.classWeight
  let c := arbClass e.pkt
  if l.isEmpty then { a with served := Vector.replicate 3 0, parts := Vector.replicate 48 0 }
  else if e.pkt.tc = 0 then a
  else
    let floor (own mine : Nat) (o : Option (Nat × Nat)) : Nat := match o with | some v => max own (v.1 * mine / max 1 v.2) | none => own
    let others := ((allFin 3).filter fun d => d != c && l.any fun q => q.pkt.tc != 0 && arbClass q.pkt == d).map fun d =>
      (a.served[d], w[d])
    let parts := (l.filter fun q => q.via.isNone && q.pkt.tc == e.pkt.tc && q.pkt.srcPart != e.pkt.srcPart).map fun q =>
      (a.parts[arbPart q.pkt], s.arbShare n q.pkt)
    { a with
      served := if l.any (fun q => q.pkt.tc == e.pkt.tc) then a.served
        else updAt a.served c fun v => floor v w[c] (leastServed (·.1) (·.2) others)
      parts := if e.via.isSome || l.any (fun q => q.via.isNone && q.pkt.tc == e.pkt.tc && q.pkt.srcPart == e.pkt.srcPart) then a.parts
        else updAt a.parts (arbPart e.pkt) fun v => floor v (s.arbShare n e.pkt) (leastServed (·.1) (·.2) parts) }

/-- A packet handed to a port: sent at once where nothing waits and its credits are there, or held and served by the
arbiter. -/
def State.toPort (s : State) (n : PortId) (v : VcId) (k : Packet) (via : Option (PortId × VcId)) : State :=
  let e : HeldPkt := { vc := v, pkt := k, via := via, left := pktFlits k }
  if s.ports[n].held.isEmpty && s.maySend n k && s.credit n v e.left then s.sendFlits n e e.left
  else (s.updPort n fun x => { x with held := x.held ++ [e], arb := s.joinArb n e }).flushPort n

/-- Tokens gained since the regulator was last read: tc0_permille of 400 GB/s at width 16, at most 1 KiB (R296). -/
def State.refill (s : State) (n : PortId) : State :=
  s.updPort n fun x => { x with
    tokens := min 40960 (x.tokens + (s.timeNs - x.tokenAt) * x.width * s.image.fabric.tc0Permille)
    tokenAt := s.timeNs }

/-- The tokens a TC0 packet takes: its bytes on the link. -/
def tokensOf (k : Packet) : Nat := 40 * 64 * (pktFlits k)

/-- A TC0 packet of this source at a port: sent under the regulator, or queued (R296). -/
def State.tc0 (s : State) (n : PortId) (v : VcId) (k : Packet) : State :=
  let s1 := s.refill n
  if s1.ports[n].tc0Queue.isEmpty && decide (tokensOf k ≤ s1.ports[n].tokens) then
    (s1.updPort n fun x => { x with tokens := x.tokens - tokensOf k }).toPort n v k none
  else s1.updPort n fun x => { x with tc0Queue := x.tc0Queue ++ [k] }

/-- A packet without a way counted (R300): at the port it came in on, else at port 0. -/
def State.routeDrop (s : State) (n : Option PortId) : State :=
  s.updPort (n.getD 0) fun x => { x with routeDrops := satAdd 16 x.routeDrops 1 }

/-- A packet of this chip sent on its way, and the port it takes. -/
def State.launchOn (s : State) (k : Packet) : Option PortId × State :=
  match s.hop k with
  | .drop => (none, s.routeDrop none)
  | .to n v d =>
    let k1 := if d then { k with detoured := true } else k
    (some n, if k.tc = 0 then s.tc0 n v k1 else s.toPort n v k1 none)

/-- A packet of this chip sent on its way. -/
def State.launch (s : State) (k : Packet) : State := (s.launchOn k).2

/-- The channel of a packet of this source as it leaves the regulator of a port (R298, R300). -/
def State.leaveVc (s : State) (n : PortId) (k : Packet) : VcId :=
  if k.detoured then vcOf (3 * k.tc.toNat + 2)
  else if !s.credit n (adaptiveVc k) 1 && s.escapePort k == some n then s.escapeVc k n
  else adaptiveVc k

/-- Packets waiting at a regulator that now find tokens, at most `fuel` of them. -/
def State.tc0Drain (s : State) (n : PortId) : Nat → State
  | 0 => s
  | fuel + 1 =>
    match s.ports[n].tc0Queue with
    | [] => s
    | k :: r =>
      if tokensOf k ≤ s.ports[n].tokens then
        let s1 := s.updPort n fun x => { x with tc0Queue := r, tokens := x.tokens - tokensOf k }
        State.tc0Drain (s1.toPort n (s1.leaveVc n k) k none) n fuel
      else s

end Sys2Proof.Machine
end

