-- ==== Sys2Proof/Machine/Stream.lean ====
section
/-! DEFINITION. Streams (12 R302 to R305): numbering, window and floor at the source, the delivered set at the
destination, resends; and byte ranges of a view or of host memory, read and written in 64-byte blocks. -/

namespace Sys2Proof.Machine

/-! ### Outcomes of parts -/

/-- The outcome of an item after one more part of it has ended with `new` (R11, R306): the first in the order of R11;
an outcome outside that order stands only where no other is present. -/
def addCause (cur : Option OutcomeCode) (causes : BitVec 7) (new : OutcomeCode) : Option OutcomeCode × BitVec 7 :=
  match cur with
  | none => (some new, causes)
  | some o =>
    if new = .done ∨ new = o then (some o, causes)
    else if o = .done then (some new, causes)
    else if o.rank < 7 ∧ new.rank < 7 then let r := joinCause o causes new; (some r.1, r.2)
    else if new.rank < o.rank then (some new, causes) else (some o, causes)

def State.updXfer (s : State) (id : Nat) (f : Xfer → Xfer) : State :=
  { s with xfers := s.xfers.map fun x => if x.id = id then f x else x }

def State.xfer? (s : State) (id : Nat) : Option Xfer := s.xfers.find? fun x => x.id == id

/-- A cause that ends a transfer. -/
def Xfer.fail (x : Xfer) (o : OutcomeCode) : Xfer :=
  let (r, c) := addCause x.outcome x.causes o
  { x with outcome := r, causes := c }

/-! ### Ranges -/

/-- `n` blocks of a partition's view from an offset: bytes and poison. A block without a place reads as poisoned zeros. -/
def State.readView (s : State) (p : PartId) (off : Nat) : Nat → (List Byte × Bool) × State
  | 0 => (([], false), s)
  | n + 1 =>
    let ((d, b), s1) := match s.viewLoc p off with
      | some l => if s.locGone l then ((List.replicate 64 0, true), s) else s.readBlock l .engine
      | none => ((List.replicate 64 (0 : Byte), true), s)
    let ((ds, bs), s2) := State.readView s1 p (off + 64) n
    ((d ++ ds, b || bs), s2)

/-- Bytes of a view's wells charged to the wells they lie in, granule by granule (R106, R253), at most `fuel` of them. -/
def State.actWells (s : State) (p : PartId) (off n : Nat) : Nat → State
  | 0 => s
  | fuel + 1 =>
    if n = 0 then s
    else
      let c := min n (2048 - off % 2048)
      let s1 := match s.parts[p].im.img.viewToWell off with
        | some w => s.act (4 + w.1.val) p.val c
        | none => s
      State.actWells s1 p (off + c) (n - c) fuel

/-- Cistern bytes and parameters of a Pump charged to a partition (R104, R106). -/
def State.meterPump (s : State) (u : PumpId) (p : PartId) (k : Fin 14) (n : Nat) : State :=
  (s.meter p k n).act (16 + u.val) p.val n

/-- Bytes of a well or quarter moved for a partition (R104). -/
def State.meterMove (s : State) (p : PartId) (off n : Nat) (write : Bool) : State :=
  if off < wellsEnd then (s.meter p (if write then mWellWr else mWellRd) n).actWells p off n (n / 2048 + 2)
  else if off < coreBase then s.meterPump (pumpOf ((off - cisBase) / 0x4000000000)) p mCistern n
  else s

/-- 64-byte blocks written into a partition's view from an offset, at most `n`. -/
def State.writeView (s : State) (p : PartId) (off : Nat) (data : List Byte) (poison : Bool) : Nat → State
  | 0 => s
  | n + 1 =>
    let s1 := match s.viewLoc p off with
      | some l => if s.locGone l then s else s.writeBlock l (data.take 64) poison
      | none => s
    State.writeView s1 p (off + 64) (data.drop 64) poison n

/-- Free bytes, one after another from a counter (R306, R326, R327; log 7). -/
def freeBytes (at_ n : Nat) : List Byte := (List.range n).map fun i => Config.freeByte at_ i

/-- A block left with undefined data; poison and errors in it stay. -/
def State.freeLoc (s : State) (l : Loc) : State :=
  let ((_, b), s1) := s.readBlock l .engine
  if b then s1
  else
    { (match l with
        | .mem u a => s1.updMem u fun m => m.store s.epoch a (freeBytes s.freeCount 64) false
        | .core c a => s1.updCore c fun x => { x with mem := wrL x.mem (a / 64 * 64) (freeBytes s.freeCount 64) }) with
      freeCount := s1.freeCount + 1 }

/-- `n` blocks of a view left with undefined data. -/
def State.freeView (s : State) (p : PartId) (off : Nat) : Nat → State
  | 0 => s
  | n + 1 =>
    State.freeView (match s.viewLoc p off with | some l => if s.locGone l then s else s.freeLoc l | none => s) p (off + 64) n

/-- A write into part of a 64-byte block: merged, unless the block is poisoned or uncorrectable (R269). -/
def State.patchBlock (s : State) (l : Loc) (at_ : Nat) (data : List Byte) (poison : Bool) (src : ReadSource) : State :=
  let ((old, bad), s1) := s.readBlock l src
  if bad then s1
  else s1.writeBlock l (old.take at_ ++ data ++ old.drop (at_ + data.length)) poison

/-- Bytes written into a view from any offset, at most `n` blocks: whole blocks replaced, others merged (R269). -/
def State.patchView (s : State) (p : PartId) (off : Nat) (data : List Byte) (poison : Bool) (src : ReadSource) : Nat → State
  | 0 => s
  | n + 1 =>
    if data.isEmpty then s
    else
      let at_ := off % 64
      let d := data.take (64 - at_)
      let s1 := match s.viewLoc p off with
        | some l =>
          if s.locGone l then s
          else if d.length = 64 then s.writeBlock l d poison else s.patchBlock l at_ d poison src
        | none => s
      State.patchView s1 p (off + d.length) (data.drop d.length) poison src n

/-- Bytes of a view from any offset, and whether any block they touch is poisoned. -/
def State.viewBytes (s : State) (p : PartId) (off len : Nat) : (List Byte × Bool) × State :=
  let a := off / 64 * 64
  let ((d, b), s1) := s.readView p a ((off + len + 63) / 64 - off / 64)
  (((d.drop (off - a)).take len, b), s1)

/-- Does a range of a view touch a unit that is gone? -/
def State.viewGone (s : State) (p : PartId) (off n : Nat) : Bool :=
  (List.range n).any fun i => match s.viewLoc p (off + 64 * i) with | some l => s.locGone l | none => false

/-- Does a range of a view touch a quarantined page (R275)? -/
def State.viewQuarantined (s : State) (p : PartId) (off n : Nat) : Bool :=
  (List.range n).any fun i => match s.viewLoc p (off + 64 * i) with | some l => s.locQuarantined l | none => false

/-! ### Sequence numbers -/

/-- Order of packet sequence numbers, modulo 2^32. -/
def seqLt (a b : W32) : Bool := a != b && decide ((b - a).toNat < 2147483648)

/-- The key of a stream: the other chip and the class. -/
def streamKey (chip : BitVec 15) (tc : BitVec 2) : Nat := chip.toNat * 4 + tc.toNat

def State.srcStream (s : State) (k : Nat) : SrcStream := Sparse.getD s.fabric.src k {}
def State.dstStream (s : State) (k : Nat) : DstStream := Sparse.getD s.fabric.dst k {}

def State.updFabric (s : State) (f : Fabric → Fabric) : State := { s with fabric := f s.fabric }

def State.putSrc (s : State) (k : Nat) (x : SrcStream) : State :=
  s.updFabric fun f => { f with src := Sparse.set {} f.src k x }

def State.putDst (s : State) (k : Nat) (x : DstStream) : State :=
  s.updFabric fun f => { f with dst := Sparse.set {} f.dst k x }

/-- The floor: the lowest psn not settled (R288, R302). -/
def SrcStream.floorNow (x : SrcStream) : W32 :=
  match x.out, x.queue with
  | o :: _, _ => o.pkt.psn
  | [], o :: _ => o.pkt.psn
  | [], [] => x.next

/-! ### At the source -/

/-- Is a chip fenced here (R403)? -/
def State.isFenced (s : State) (c : BitVec 15) : Bool := has s.fabric.fenced c.toNat

/-- The copy of a packet that goes out now: current floor and routing epoch. -/
def State.sendCopy (s : State) (key : Nat) (o : OutPacket) : State :=
  let x := s.srcStream key
  let k := { o.pkt with floor := x.floor, repoch := s.fabric.repoch }
  let (n, s0) := s.launchOn k
  let s1 := match n with
    | some m => s0.iff (k.attempt == 0) (·.act (20 + m.val) (if k.kind == 0x09 then 16 else k.srcPart.val) k.payload.length)
    | none => s0
  let o1 := { o with pkt := k, port := n }
  let x1 := s1.srcStream key
  s1.putSrc key { x1 with out := x1.out.map fun q => if q.pkt.psn = k.psn then o1 else q }

/-- Packets beyond the window sent once the floor has advanced (R302), at most `n`. -/
def State.unstall (s : State) (key : Nat) : Nat → State
  | 0 => s
  | n + 1 =>
    let x := s.srcStream key
    match x.queue with
    | [] => s
    | o :: r =>
      if (o.pkt.psn - x.floor).toNat ≤ 127 then
        let o1 := { o with firstAt := s.timeNs, nextAt := s.timeNs + 20000 }
        State.unstall ((s.putSrc key { x with out := x.out ++ [o1], queue := r }).sendCopy key o1) key n
      else s

/-- A packet numbered and put into its stream. -/
def State.enqueue (s : State) (o : OutPacket) : State :=
  let key := streamKey o.pkt.dst o.pkt.tc
  let x := s.srcStream key
  let k := { o.pkt with src := s.chip, psn := x.next, attempt := 0, detoured := false }
  (s.putSrc key { x with next := x.next + 1, queue := x.queue ++ [{ o with pkt := k }] }).unstall key 1

/-- A packet of an item put into its stream: numbered, metered, and sent within the window (R302, R104). -/
def State.inject (s : State) (k : Packet) (item : ItemRef) (from_ : Option W64) : State :=
  (s.meter k.srcPart (mTx k.tc) k.payload.length).enqueue
    { pkt := k, item := item, from_ := from_, firstAt := s.timeNs, nextAt := s.timeNs + 20000 }

/-- What a chip that is itself fenced still injects: HEARTBEAT, CONTROL_REPLY and SOUNDING (R404). -/
def fenceExempt (kind : Byte) : Bool := kind == 0x08 || kind == 0x0A || kind == 0x0D

/-- A packet outside every stream: acknowledgements, heartbeats and the control kinds (R291). -/
def State.sendLoose (s : State) (k : Packet) : State :=
  if s.fabric.selfFenced && !fenceExempt k.kind then s
  else s.launch { k with src := s.chip, floor := 0, attempt := 0, detoured := false, repoch := s.fabric.repoch }

/-- A plain packet. -/
def mkPacket (dst : BitVec 15) (kind : Byte) (tc : BitVec 2) (sp dp : PartId) (addr : Nat) (payload : List Byte) : Packet :=
  { dst := dst, src := 0, kind := kind, tc := tc, ord := false, repoch := false, ieee := false, attempt := 0,
    srcPart := sp, dstPart := dp, op := 0, poison := false, psn := 0, floor := 0, addr := BitVec.ofNat 49 addr,
    detoured := false, payload := payload }

/-- The head bytes that a kind's payload carries before data read from memory. -/
def headBytes (kind : Byte) : Nat := if kind = 0x10 then 16 else if kind = 0x12 then 32 else 0

/-- The payload read again from source memory, and counted as every read (R305, R104): `host` tells a host bus
address. -/
def State.reread (s : State) (o : OutPacket) (host : Bool) : OutPacket × State :=
  match o.from_ with
  | some a =>
    let h := headBytes o.pkt.kind
    let n := o.pkt.payload.length - h
    if o.pkt.kind = 0x02 then (o, s)
    else if host then ({ o with pkt := { o.pkt with payload := o.pkt.payload.take h ++ rdL s.host a.toNat n } }, s.meter o.pkt.srcPart mHost n)
    else if s.parts[o.pkt.srcPart].claims? then
      let ((d, b), s1) := s.readView o.pkt.srcPart a.toNat ((n + 63) / 64)
      ({ o with pkt := { o.pkt with payload := o.pkt.payload.take h ++ d.take n, poison := b } }, s1.meterMove o.pkt.srcPart a.toNat n false)
    else (o, s)
  | none => (o, s)

/-- Does an item's source lie in host memory? -/
def State.itemHost (s : State) : ItemRef → Bool
  | .xfer id => s.xfers.any fun x => x.id == id && x.srcHost
  | _ => false

/-- One resend counted (12, ILN_E2E_STATUS; R414 kind 8). -/
def State.countResend (s : State) (o : OutPacket) : State :=
  let s1 := s.updFabric fun f => { f with resends := satAdd 24 f.resends 1 }
  match o.port with
  | some n => s1.evidence (20 + n.val) evResend 1
  | none => s1

/-- The unsettled packet of a stream with a psn. -/
def SrcStream.find (x : SrcStream) (psn : W32) : Option OutPacket := x.out.find? fun o => o.pkt.psn == psn

/-- A packet of an item went out poisoned: the item cannot end DONE (R170, R307). -/
def State.poisonItem (s : State) : ItemRef → State
  | .xfer id => s.updXfer id (·.fail .failedPoison)
  | .coll a id => { s with axes := updAt s.axes a fun x => { x with
      colls := x.colls.map fun c => if c.id = id then { c with poisoned := true } else c } }
  | _ => s

/-- The READ_REQ that reads the payload of a packet again, where its source memory is that of another chip: a transfer
between two other chips (R172, R305). -/
def State.renewOf (s : State) (key : Nat) (o : OutPacket) : Option OutPacket :=
  match o.item, o.from_ with
  | .xfer id, none =>
    match s.xfer? id with
    | some x =>
      if x.kind = .capsule ∧ o.pkt.kind = 0x01 ∧ x.srcHost = false then
        let at_ := o.pkt.addr.toNat - bits x.dst 0 49
        let k := mkPacket (x.src.extractLsb' 49 15) 0x02 x.tc x.part (s.image.fabric.pair[x.part]) (bits x.src 0 49 + at_)
          (leBytes o.pkt.addr.toNat 8 ++ leBytes o.pkt.payload.length 4 ++ leBytes 0 4)
        some { pkt := { k with ord := x.ord, ieee := x.ieee }, item := .none, firstAt := s.timeNs, nextAt := s.timeNs + 20000
               renews := some (key, o.pkt.psn) }
      else none
    | none => none
  | _, _ => none

/-- One packet sent again, read afresh; where the payload has to come from another chip, it goes once that has answered. -/
def State.resend (s : State) (key : Nat) (o : OutPacket) : State :=
  let (o1, s1) := s.reread o (s.itemHost o.item)
  let x := s1.srcStream key
  let s2 := s1.putSrc key { x with out := x.out.map fun q => if q.pkt.psn = o.pkt.psn then o1 else q }
  let s3 := if o1.pkt.poison then s2.poisonItem o.item else s2
  match s.renewOf key o with
  | some r => (s3.countResend o).enqueue r
  | none => (s3.countResend o).sendCopy key o1

/-- The waits between attempts in nanoseconds (R305): after the first send and after attempts 1 to 7. -/
def waitAfter (attempt : Nat) : Nat :=
  match attempt with
  | 0 => 20000 | 1 => 40000 | 2 => 60000 | 3 => 80000 | 4 => 100000 | 5 => 120000 | 6 => 200000 | _ => 200000

/-- A packet taken from its stream once settled: the floor advances, and held packets go. -/
def State.unlist (s : State) (key : Nat) (psn : W32) : State :=
  let x := s.srcStream key
  let x1 := { x with out := x.out.filter fun o => o.pkt.psn != psn }
  (s.putSrc key { x1 with floor := x1.floorNow }).unstall key 128

/-- After a packet has failed, every later packet of the stream with ord set goes again, with the new floor (R303). -/
def State.resendOrdered (s : State) (key : Nat) (psn : W32) : State :=
  let l := (s.srcStream key).out.filter fun o => o.pkt.ord && seqLt psn o.pkt.psn
  l.foldl (fun s o => match (s.srcStream key).find o.pkt.psn with | some q => s.resend key q | none => s) s

/-! ### At the destination -/

/-- cum moved past every psn delivered, at most `n` steps. -/
def DstStream.advance (x : DstStream) : Nat → DstStream
  | 0 => x
  | n + 1 =>
    if x.delivered.contains x.cum then
      DstStream.advance { x with delivered := x.delivered.filter (· != x.cum), cum := x.cum + 1 } n
    else x

/-- A floor carried by the stream: everything below it is settled (R302). -/
def DstStream.raiseFloor (x : DstStream) (f : W32) : DstStream :=
  let x1 := if seqLt x.floor f then { x with floor := f } else x
  let x2 := if seqLt x1.cum x1.floor then
      { x1 with cum := x1.floor, delivered := x1.delivered.filter fun p => !seqLt p x1.floor } else x1
  x2.advance 128

/-- Was a psn delivered? -/
def DstStream.has (x : DstStream) (p : W32) : Bool := x.delivered.contains p || (seqLt p x.cum && !seqLt p x.floor)

/-- A psn marked as delivered, and an acknowledgement owed (R304). -/
def DstStream.deliver (x : DstStream) (p : W32) : DstStream :=
  ({ x with delivered := if x.delivered.contains p then x.delivered else x.delivered ++ [p], ackDue := true }).advance 128

/-- The first packet of a stream sets its floor (R405). -/
def DstStream.start (x : DstStream) (k : Packet) : DstStream :=
  if x.started then x else { x with started := true, cum := k.floor, floor := k.floor, delivered := [] }

/-- An ACK's payload (R304). -/
def ackPayload (tc : BitVec 2) (x : DstStream) : List Byte :=
  leBytes tc.toNat 1 ++ leBytes 0 3 ++ leBytes x.cum.toNat 4 ++
    leBytes (maskOf ((List.range 128).filter fun i => x.delivered.contains (x.cum + 1 + BitVec.ofNat 32 i))) 16

/-- A NAK's payload (R304). -/
def nakPayload (tc : BitVec 2) (code : Nat) (psn : W32) : List Byte :=
  leBytes tc.toNat 1 ++ leBytes code 1 ++ leBytes 0 2 ++ leBytes psn.toNat 4

/-- A NAK sent to a packet's source. -/
def State.nakTo (s : State) (k : Packet) (code : Nat) : State :=
  s.sendLoose (mkPacket k.src 0x06 0 k.dstPart k.srcPart 0 (nakPayload k.tc code k.psn))

end Sys2Proof.Machine
end

