-- ==== Sys2Proof/Machine/Items.lean ====
section
/-! DEFINITION. Transfers (07 R165 to R172; 12 R306): the checks at issue, packets, the move of local blocks, and the
record that ends each. -/

namespace Sys2Proof.Machine

/-! ### Addresses (R165) -/

def gaChip (a : W64) : BitVec 15 := a.extractLsb' 49 15
def gaOff (a : W64) : Nat := bits a 0 49

/-- Does a global address name this chip? -/
def State.isLocal (s : State) (a : W64) : Bool := gaChip a == s.chip

/-- Is a remote offset in control space or an accumulator buffer (R166 step 2)? -/
def barredOffset (o : Nat) : Bool :=
  decide (ctlBase ≤ o) || (decide (coreBase ≤ o ∧ o < coreEnd) && decide (0x300000 ≤ (o - coreBase) % 0x400000))

/-- The first check of R10 that an address of a transfer fails. -/
def State.addrCheck (s : State) (p : PartId) (a : W64) (len : Nat) : Option OutcomeCode :=
  if s.isLocal a then s.viewCheck p (gaOff a) len
  else if !s.inTorus (gaChip a) then some .refusedAbsent
  else if barredOffset (gaOff a) then some .refusedOwner
  else none

/-- The first of several checks in the order of R10. -/
def firstRefusal (l : List (Option OutcomeCode)) : Option OutcomeCode :=
  let xs := l.filterMap id
  if xs.contains .refusedAbsent then some .refusedAbsent
  else if xs.contains .refusedOwner then some .refusedOwner
  else xs.head?

/-- Does a range of a view meet a region that is write-protected while an interlude runs (R386)? -/
def State.protected? (s : State) (p : PartId) (off len : Nat) : Bool :=
  let x := s.parts[p]
  x.run.interlude &&
    ((allFin 4).any (fun q =>
        let a := cisBase + q.val * 0x4000000000
        x.im.img.cisZ[q] != 0 && decide (off < a + x.im.img.cisZ[q] * g4 ∧ a < off + len)) ||
      x.storm.prot.any fun r => r.2 != 0 && decide (off < r.1.toNat + r.2.toNat ∧ r.1.toNat < off + len))

/-- The state checks of R166 step 3, and the protection of R386. -/
def State.xferState (s : State) (x : Xfer) : Option OutcomeCode :=
  let srcR := !x.srcHost && !s.isLocal x.src
  let dstR := !x.dstHost && !s.isLocal x.dst
  let mis (h : Bool) (a : W64) : Bool := !h && bits a 0 6 != 0
  if mis x.srcHost x.src || mis x.dstHost x.dst then some .refusedState
  else if (srcR || dstR) && x.tc == 0 && decide (256 < x.length) then some .refusedState
  else if x.op != 0 && (x.dstHost || decide (wellsEnd ≤ gaOff x.dst)) then some .refusedState
  else if x.kind != .get && !x.dstHost && s.isLocal x.dst && s.protected? x.part (gaOff x.dst) x.length then some .refusedState
  else none

/-- The target core and counter of a SIGNAL (R174). -/
def signalCore (a : W64) : Nat := bits a 8 8
def signalCtr (a : W64) : CtrId := ctrOf (bits a 0 5)

/-- The checks of R166 on a SIGNAL's target core. -/
def State.signalCheck (s : State) (p : PartId) (a : W64) : Option OutcomeCode :=
  if s.isLocal a then
    let c := signalCore a
    if c < 192 ∧ s.corePresent c = true then
      (if s.parts[p].im.img.wardMask.testBit (c / 12) then none else some .refusedOwner)
    else some .refusedAbsent
  else if s.inTorus (gaChip a) then none else some .refusedAbsent

/-- The checks of R166 in the order of R10. -/
def State.xferCheck (s : State) (x : Xfer) : Option OutcomeCode :=
  match x.kind with
  | .signal => s.signalCheck x.part x.dst
  | _ =>
    firstRefusal [if x.srcHost then none else s.addrCheck x.part x.src x.length,
      if x.dstHost then none else s.addrCheck x.part x.dst x.length, s.xferState x]

/-- A core's own address as a global address. -/
def State.coreGa (s : State) (c : CoreId) (a : Nat) : W64 :=
  place s.chip.toNat 49 15 ||| BitVec.ofNat 64 (coreBase + c.val * 0x400000 + a)

/-- The saturate or IEEE mode of a partition's items (R234): IEEE where the format default says so. -/
def State.ieee (s : State) (p : PartId) : Bool := s.parts[p].fmt.ovmode == 2

/-! ### Packets of a transfer -/

/-- The packet lengths of a transfer (12, Packets): 4,096 bytes each, then the rest. -/
def packetCuts (len : Nat) : List (Nat × Nat) :=
  (List.range ((len + 4095) / 4096)).map fun i => (4096 * i, min 4096 (len - 4096 * i))

/-- The pair of a partition (R307). -/
def State.pairOf (s : State) (p : PartId) : PartId := s.image.fabric.pair[p]

/-- The read request of one cut (R291): return offset, length. -/
def State.readReqPacket (s : State) (x : Xfer) (at_ n : Nat) : Packet :=
  { mkPacket (gaChip x.src) 0x02 x.tc x.part (s.pairOf x.part) (gaOff x.src + at_)
      (leBytes ((gaOff x.dst + at_) % 2 ^ 49) 8 ++ leBytes n 4 ++ leBytes 0 4) with ord := x.ord, ieee := x.ieee }

/-- Data of a transfer's source: bytes and poison. -/
def State.readSrc (s : State) (x : Xfer) (at_ n : Nat) : (List Byte × Bool) × State :=
  if x.srcHost then ((rdL s.host (x.src.toNat + at_) n, false), s.meter x.part mHost n)
  else
    let (r, s1) := s.readView x.part (gaOff x.src + at_) (n / 64)
    (r, s1.meterMove x.part (gaOff x.src + at_) n false)

/-- The write packet of one cut, its payload read at the source. -/
def State.writePacketOf (s : State) (x : Xfer) (at_ n : Nat) : Packet × State :=
  let ((d, b), s1) := s.readSrc x at_ n
  ({ mkPacket (gaChip x.dst) 0x01 x.tc x.part (s.pairOf x.part) (gaOff x.dst + at_) d with
      ord := x.ord, ieee := x.ieee, op := x.op, poison := b }, s1)

/-- One cut of a remote transfer put on its way. -/
def State.sendCut (s : State) (x : Xfer) (c : Nat × Nat) : State :=
  let (at_, n) := c
  if !x.srcHost && !s.isLocal x.src then
    s.inject (s.readReqPacket x at_ n) (.xfer x.id) (some (BitVec.ofNat 64 ((if x.dstHost then x.dst.toNat else gaOff x.dst) + at_)))
  else
    let (k, s1) := s.writePacketOf x at_ n
    let s2 := s1.inject k (.xfer x.id) (some (BitVec.ofNat 64 ((if x.srcHost then x.src.toNat else gaOff x.src) + at_)))
    if k.poison then s2.updXfer x.id (·.fail .failedPoison) else s2

/-- A block poisoned in place, its data unchanged (R170). -/
def State.poisonLoc (s : State) (l : Loc) : State :=
  match l with
  | .mem u a => s.updMem u fun m => m.store s.epoch a (m.sectorData a) true
  | .core c a => s.updCore c fun x => { x with memPoison := setBlocks x.memPoison (a / 64 * 64) 64 true }

/-- `n` blocks of a view poisoned in place. -/
def State.poisonView (s : State) (p : PartId) (off : Nat) : Nat → State
  | 0 => s
  | n + 1 => State.poisonView (match s.viewLoc p off with | some l => s.poisonLoc l | none => s) p (off + 64) n

/-- The unsettled packets of an item. -/
def State.unsettledOf (s : State) (r : ItemRef) : List OutPacket :=
  s.fabric.src.flatMap fun e => (e.2.out ++ e.2.queue).filter fun o => o.item == r

/-- The lines that a remote GET has not delivered, poisoned (R170). -/
def State.poisonUnread (s : State) (x : Xfer) : State :=
  if x.kind = .get then
    s.over (s.unsettledOf (.xfer x.id)) fun s o => match o.from_ with
      | some a => s.poisonView x.part a.toNat (ldNat o.pkt.payload 8 4 / 64)
      | none => s
  else s

/-- A transfer issued (R166): refused, fenced, sent, or left to the local mover. -/
def State.startXfer (s : State) (x0 : Xfer) : State :=
  let remote := match x0.kind with
    | .signal => !s.isLocal x0.dst
    | _ => (!x0.srcHost && !s.isLocal x0.src) || (!x0.dstHost && !s.isLocal x0.dst)
  let x := { x0 with remote := remote, hostAt := s.timeNs }
  let add (y : Xfer) (s : State) : State := { s with xfers := s.xfers ++ [y] }
  match s.xferCheck x with
  | some o => add { x with outcome := some o } s
  | none =>
    let far (h : Bool) (a : W64) : Bool := !h && !s.isLocal a && s.isFenced (gaChip a)
    if remote && (s.fabric.selfFenced || far (x.srcHost || x.kind == .signal) x.src || far x.dstHost x.dst) then
      add { x with outcome := some .failedFenced }
        (if x.kind = .get then s.poisonView x.part (gaOff x.dst) (x.length / 64) else s)
    else if !remote then add x s
    else if x.kind = .signal then
      (add { x with sent := 1 } s).inject
        (mkPacket (gaChip x.dst) 0x04 0 x.part (s.pairOf x.part) ((signalCore x.dst) * 256 + (signalCtr x.dst).val) [])
        (.xfer x.id) none
    else
      let cuts := packetCuts x.length
      (add { x with sent := cuts.length } s).over cuts fun s c => s.sendCut x c

/-! ### The local mover -/

/-- One block moved: what it read is written or added at the destination. -/
def State.moveBlock (s : State) (x : Xfer) (i : Nat) : State :=
  let so := if x.srcHost then x.src.toNat else gaOff x.src
  let dO := if x.dstHost then x.dst.toNat else gaOff x.dst
  let gone := (!x.srcHost && s.viewGone x.part (so + 64 * i) 1) || (!x.dstHost && s.viewGone x.part (dO + 64 * i) 1)
  if gone then
    let s1 := s.updXfer x.id (·.fail .failedLink)
    if x.kind = .get then s1.poisonView x.part (dO + 64 * i) 1 else s1
  else
    let ((d, b), s1) := s.readSrc x (64 * i) 64
    let s2 := if b then s1.updXfer x.id (·.fail .failedPoison) else s1
    let ok (s : State) : State := s.updXfer x.id fun y => { y with delivered := y.delivered + 64 }
    if x.dstHost then (ok { s2 with host := wrL s2.host (dO + 64 * i) d }).meter x.part mHost 64
    else
      match s2.viewLoc x.part (dO + 64 * i) with
      | none => s2
      | some l =>
        if s2.locQuarantined l then s2.updXfer x.id (·.fail .failedPoison)
        else
          match l, x.op.toNat with
          | l, 0 => (ok (s2.writeBlock l d b)).meterMove x.part (dO + 64 * i) 64 true
          | .mem (.well w) a, op =>
            let (bad, s3) := s2.addSector w a op d b x.ieee
            let s4 := if bad then s3.updXfer x.id (·.fail .failedPoison) else s3
            ((ok s4).meterMove x.part (dO + 64 * i) 64 false).meterMove x.part (dO + 64 * i) 64 true
          | l, _ => s2.writeBlock l d b

/-- A local transfer carried out. -/
def State.moveLocal (s : State) (x : Xfer) : State :=
  if x.kind = .signal then s.raiseCtr (coreOf (signalCore x.dst)) (signalCtr x.dst) true
  else (s.over (List.range (x.length / 64)) fun s i => s.moveBlock x i).itemFlags s s.epoch

/-! ### The record (R169, R172, R395) -/

/-- Engine codes of R169 and R172. -/
def Xfer.engine (x : Xfer) : Byte :=
  match x.kind with
  | .get => 0x03
  | .put => 0x04
  | .signal => 0x05
  | .capsule => if x.remote then 0x09 else 0x03

/-- detail0 of R169 and R172. -/
def Xfer.detail0 (x : Xfer) : W64 :=
  match x.kind with
  | .capsule => place x.delivered 24 40
  | _ => place x.delivered 32 32 ||| place x.seqIdx.toNat 20 12 ||| place x.core.val 0 8

/-- The record of a transfer that ends with an outcome. -/
def Xfer.record (x : Xfer) (o : OutcomeCode) : Record :=
  { tag := x.tag, step := x.step, outcome := o, engine := x.engine, partition := x.part, detail0 := x.detail0,
    incident := x.incident, causes := x.causes }

/-- A record written into core memory through the bulk path, or placed in the orphan store (R169, R395). -/
def State.writeRingRecord (s : State) (x : Xfer) (r : Record) : State :=
  if s.fields[fieldOf (x.core.val / 48)].failed || !s.parts[x.part].claims? then s.orphan x.part r []
  else s.updCore x.core fun c => { c with mem := wrL c.mem x.ringAt (r.bytes x.ringPhase) }

/-- A transfer ended: its record, its counter and fail count, and no item any more (R169, R172). -/
def State.endXfer (s : State) (x : Xfer) (o : OutcomeCode) : State :=
  let s1 := ({ s with xfers := s.xfers.filter fun y => y.id != x.id }).touch x.part
  let r := x.record o
  match x.kind with
  | .capsule => s1.post x.part r x.raiseV0
  | _ =>
    let s2 := s1.writeRingRecord x r
    if s.parts[x.part].claims? then s2.raiseCtr x.core x.ctr (o == .done) else s2

/-- A transfer ended by one more cause (R11): the record carries the first of all of them, and a bit for every other. -/
def State.endXferFor (s : State) (x : Xfer) (o : OutcomeCode) : State :=
  let y := x.fail o
  s.endXfer y (y.outcome.getD o)

/-- Has a transfer nothing left to wait for? -/
def Xfer.settledAll (x : Xfer) : Bool := decide (x.sent ≤ x.settled)

/-- A transfer brought to its end, where it has one: moved here, or every packet of it settled. -/
def State.completeXfer (s : State) (id : Nat) : State :=
  match s.xfer? id with
  | none => s
  | some x =>
    if x.sent = 0 && x.outcome.isNone then
      let s1 := s.moveLocal x
      match s1.xfer? id with
      | some y => s1.endXfer y (y.outcome.getD .done)
      | none => s1
    else if x.settledAll then s.endXfer x (x.outcome.getD .done)
    else s

/-- One packet of a transfer settled (R306); a GET poisons what was not delivered (R170). -/
def State.settleXfer (s : State) (id : Nat) (o : OutcomeCode) (k : Packet) (from_ : Option W64) : State :=
  match s.xfer? id with
  | none => s
  | some x =>
    let n := if k.kind = 0x02 then ldNat k.payload 8 4 else k.payload.length
    if o = .done then s.updXfer id fun y => { y with settled := y.settled + 1, delivered := y.delivered + n }
    else
      let s1 := s.updXfer id fun y => { (y.fail o) with settled := y.settled + 1 }
      match x.kind, k.kind == 0x02, from_ with
      | .get, true, some a => s1.poisonView x.part a.toNat (n / 64)
      | _, _, _ => s1

end Sys2Proof.Machine
end

