-- ==== Sys2Proof/Machine/Wake.lean ====
section
/-! DEFINITION. Idle partitions and their lulls (02 R42 to R50): what is outstanding, what rests, and waking. -/

namespace Sys2Proof.Machine

/-! ### Work outstanding (R43) -/

/-- Does an item of a partition exist that has no record yet? -/
def State.itemsOpen (s : State) (p : PartId) : Bool :=
  s.xfers.any (fun x => x.part == p) || s.programs.any (fun x => x.part == p) ||
    (allFin 3).any (fun a => s.axes[a].colls.any (·.part == p) || s.axes[a].waiting.any (·.part == p) ||
      s.axes[a].atomics.any (·.part == p)) ||
    (allFin 4).any (fun n => s.sluices[n].layers.any (·.part == p) || s.sluices[n].waiting.any (·.part == p)) ||
    !s.parts[p].cmds.isEmpty || !s.parts[p].cq.waiting.isEmpty || (allFin 4).any fun u => match s.pumps[u].sweep with | some w => w.part == p | none => false

/-- Is a packet for a partition held in the device (R43, R303)? -/
def State.inboundHeld (s : State) (p : PartId) : Bool :=
  s.fabric.dst.any fun e => e.2.held.any fun k => k.2.dstPart == p

/-- Is a partition idle (R43)? -/
def State.partIdle (s : State) (p : PartId) : Bool :=
  (!s.parts[p].claims? || s.parts[p].im.img.seqs.all fun n => s.seqs[n].state != .running && s.seqs[n].state != .halting) &&
    s.parts[p].caps.queue.isEmpty && !s.itemsOpen p && !s.inboundHeld p

/-- Has every record of a partition been written, and every fault been collected (R89, R150)? -/
def State.partDrained (s : State) (p : PartId) : Bool :=
  !s.itemsOpen p && s.parts[p].cq.held.isEmpty && s.parts[p].cq.waiting.isEmpty && s.parts[p].fault.transit.isEmpty

/-! ### Depths (R42, R44) -/

/-- Wake latency of a depth, in nanoseconds. -/
def wakeLatency (d : Nat) : Nat := match d with | 0 => 20 | 1 => 4000 | 2 => 80000 | _ => 900000

/-- The allowed depth of a budget; below 20 ns it is applied as 20 ns (R50). -/
def allowedDepth (budget : W32) : Nat :=
  let b := max 20 budget.toNat
  if 900000 ≤ b then 3 else if 80000 ≤ b then 2 else if 4000 ≤ b then 1 else 0

/-- Has a partition reached a depth it is allowed? An uncommitted partition does not keep a component awake. -/
def State.reached (s : State) (p : PartId) (d : Nat) : Bool :=
  !s.parts[p].claims? || (decide (d ≤ allowedDepth s.parts[p].lull.budget) && decide (d ≤ s.parts[p].lull.reached))

/-- May a field enter retention (R45)? -/
def State.fieldRests (s : State) (f : FieldId) : Bool := (allFin 16).all fun p => !s.usesField p f || s.reached p 1

/-- May a well enter self-refresh (R45)? -/
def State.wellRests (s : State) (w : WellId) : Bool :=
  (allFin 16).all fun p => !s.parts[p].im.img.wellMask.testBit w.val || s.reached p 2

/-- May a Pump go idle (R45)? -/
def State.pumpRests (s : State) (u : PumpId) : Bool :=
  (allFin 16).all fun p => s.parts[p].im.img.groupCount[u] == 0 || s.reached p 2

/-- A field in retention: core output at 0.45 V (R42). -/
def State.retain (s : State) (f : FieldId) : State :=
  s.updField f fun x => if x.failed then x else { x with retained := true, railMv := 450, rateMbeat := 0, limiter := 5 }

/-- What holds a field's rail below 0.80 V (02, limiter; R37). Where a brake and the undervoltage rule both apply, the
brake is named (log 15). -/
def State.limiterOf (s : State) (mv : Nat) (hot : Bool) : BitVec 4 :=
  if 800 ≤ mv then 0
  else if hot then 4
  else if decide (s.power.brakeCapW.toNat < min 2000 (max 400 s.power.capW.toNat)) && s.power.brake then 2
  else if decide (s.power.brakeCapW.toNat < min 2000 (max 400 s.power.capW.toNat)) && s.power.undervoltage then 3
  else 1

/-- A field out of retention, at the common setting of the governor (R36, R47). -/
def State.unretain (s : State) (f : FieldId) : State :=
  if s.fields[f].retained then
    s.updField f fun x => { x with
      retained := false, railMv := BitVec.ofNat 16 s.power.commonMv, limiter := s.limiterOf s.power.commonMv false }
  else s

/-- A well or quarter out of self-refresh. -/
def State.unrest (s : State) (u : MemUnit) : State :=
  s.updMem u fun m => if m.state = .selfRefresh then { m with state := .active } else m

/-- A Pump awake. -/
def State.wakePump (s : State) (u : PumpId) : State :=
  (s.unrest (.quarter u)).updPump u fun x => { x with idle := false }

/-- A well or a Pump that another partition asks for, woken alone (R47). -/
def State.wakeShared (s : State) : MemUnit → State
  | .well w => s.unrest (.well w)
  | .quarter u => s.wakePump u

/-- Does a partition use a well or a Pump (R45)? -/
def State.usesMem (s : State) (p : PartId) : MemUnit → Bool
  | .well w => s.parts[p].im.img.wellMask.testBit w.val
  | .quarter u => s.parts[p].im.img.cisZ[u] != 0 || s.parts[p].im.img.groupCount[u] != 0

/-- The components a partition needs woken, deeper than `d`: with `d = 0` all of them (R47, R50). An uncommitted
partition has none. -/
def State.wakeTo (s : State) (p : PartId) (d : Nat) : State :=
  let i := if s.parts[p].claims? then s.parts[p].im.img else {}
  let s1 := if d < 3 then { s with inLull3 := false } else s
  let s2 := if d < 2 then
      (s1.over i.wells fun s w => s.unrest (.well w)).over (allFin 4) fun s u =>
        if i.cisZ[u] != 0 || i.groupCount[u] != 0 then s.wakePump u else s
    else s1
  let s3 := if d < 1 then s2.over (allFin 4) fun s f => if s.parts[p].claims? && s.usesField p f then s.unretain f else s else s2
  s3.updPart p fun x => { x with lull := { x.lull with reached := min d x.lull.reached } }

/-- A wake event of a partition (R47): all it needs is woken, and its idle time starts again. -/
def State.wake (s : State) (p : PartId) : State := (s.wakeTo p 0).touch p

/-- An access to the SEQ_ or COR_ window of a unit in a field at rest wakes the partition that holds it (R47, R51). -/
def State.wakeAccess (s : State) (off : Nat) : State :=
  let h : Option (PartId × FieldId) := match blockOf off with
    | .seq n _ => (s.seqHolder n).map fun p => (p, fieldOf (n.val / 4))
    | .cor c _ => (s.coreHolder c).map fun p => (p, fieldOf (c.val / 48))
    | _ => none
  match h with
  | some (p, f) => s.iff s.fields[f].retained (·.wake p)
  | none => s

end Sys2Proof.Machine
end

