-- ==== Sys2Proof/Machine/Capsule.lean ====
section
/-! DEFINITION. Capsules (05 R117 to R121, 04 R87): taking, the checks common to every kind, and completion. -/

namespace Sys2Proof.Machine

/-- The state whose column of R87 a partition's capsules follow: a pending QUIESCE or STOP counts (R88, R89). -/
def State.capState (s : State) (p : PartId) : PartState :=
  let x := s.parts[p]
  if x.run.stopping.isSome || !x.fault.transit.isEmpty || x.fault.first.isSome then .stopped else if x.run.quiescing.isSome then .quiesced else x.state

/-- Capsule kinds (05). -/
def kNop : Nat := 0
def kLoad : Nat := 1
def kStart : Nat := 2
def kTransfer : Nat := 3
def kColl : Nat := 4
def kSluice : Nat := 5
def kPump : Nat := 6
def kGroup : Nat := 7
def kStorm : Nat := 8

/-- Is a kind executed in a state (R87)? `read` tells a GROUP_TABLE READ. -/
def kindRuns (st : PartState) (kind : Nat) (read : Bool) : Bool :=
  if kind = kNop ∨ kind = kStorm then true
  else if kind = kLoad then st != .stopped
  else if kind = kGroup then st != .stopped || read
  else st == .running

/-- The engine that reports a kind (R154, R172, R326, R348; 15 and 16 name theirs). -/
def kindEngine (kind : Nat) : Byte :=
  match kind with
  | 1 | 2 => 0x02
  | 3 => 0x03
  | 4 => 0x07
  | 5 => 0x06
  | 6 | 7 => 0x08
  | 8 => 0x0A
  | _ => 0x01

/-- Flags bit 0: VF vector 0 at completion. -/
def Capsule.v0 (c : Capsule) : Bool := bit c.flags 0

/-- The axis engine that a target code names (R316): none where no axis carries the role. -/
def State.collEngine (s : State) (t : Nat) : Option AxisId :=
  if h : t < 3 then some ⟨t, h⟩
  else if 0x11 ≤ t ∧ t ≤ 0x13 then (allFin 3).find? fun a => s.image.fabric.roles[a] == t - 0x10
  else none

/-- The record that completes a capsule; one of an axis engine is counted there (13, AXE_PARTp). -/
def State.capDone (s : State) (p : PartId) (c : Capsule) (engine : Byte) (o : OutcomeCode) (detail : Nat) : State :=
  s.post p { tag := c.tag, step := c.step, outcome := o, engine := engine, partition := p,
             detail0 := BitVec.ofNat 64 detail, axis := if c.kind = kColl then s.collEngine c.target else none } c.v0

/-- The record that completes a capsule whose body names a done counter, raised after it (R348, R359; logs 31, 34). -/
def State.capDoneBy (s : State) (p : PartId) (c : Capsule) (engine : Byte) (o : OutcomeCode) (detail core ctr : Nat) : State :=
  s.post p { tag := c.tag, step := c.step, outcome := o, engine := engine, partition := p,
             detail0 := BitVec.ofNat 64 detail, done := namedCtr core ctr } c.v0

/-- A capsule that fails check `d` of R120. -/
def State.capBad (s : State) (p : PartId) (c : Capsule) (d : Nat) : State := s.capDone p c (kindEngine c.kind) .refusedState d

/-! ### Taking (R117, R119, R120) -/

/-- Bytes of a capsule window, and of a slot. -/
def capWindow : Nat := 0x200000
def capSlot : Nat := 0x10000

/-- The next sequence number. -/
def nextSeq (n : W32) : W32 := if n = 0xFFFFFFFF then 1 else n + 1

/-- The slot of a sequence number. -/
def slotOf (n : W32) : Fin 32 := ctrOf n.toNat

/-- A capsule as its slot's bytes spell it, with the first of the checks 1 to 3 of R120 that it fails. -/
def parseCapsule (m : Memory) (a : Nat) : Capsule :=
  let len := rdNat m (a + 4) 4
  let body := if len ≤ 65472 then rdL m (a + 0x40) len else []
  let kind := rdNat m (a + 0x0C) 2
  { seq := BitVec.ofNat 32 (rdNat m a 4), kind := kind, target := rdNat m (a + 0x0E) 1, flags := rd m (a + 0x0F),
    tag := BitVec.ofNat 64 (rdNat m (a + 0x10) 8), step := BitVec.ofNat 32 (rdNat m (a + 0x18) 4),
    params := rdL m (a + 0x1C) 32, body := body,
    bad := if 65472 < len then some 1 else if (crc32c body).toNat ≠ rdNat m (a + 8) 4 then some 2
      else if 8 < kind then some 3 else none }

/-- Is the window watched (R121)? -/
def State.watched (s : State) (p : PartId) : Bool := s.parts[p].state.committed'

/-- One examination of the expected slot (R117): whether a capsule was taken. While a record is held none is (R124), and
a header that would be a submission stays where it is. -/
def State.examine (s : State) (p : PartId) : Bool × State :=
  let q := s.parts[p].caps
  let i := slotOf q.expected
  let a := i.val * capSlot
  let h := rdL q.window a 64
  let seq : W32 := BitVec.ofNat 32 (ldNat h 0 4)
  let good := (crc32c (h.take 0x3C)).toNat == ldNat h 0x3C 4
  if good && seq == q.expected then
    if !s.parts[p].cq.held.isEmpty then (false, s) else
    let c := { parseCapsule q.window a with takenAt := s.timeNs }
    let s1 := s.updPart p fun x => { x with caps := { x.caps with
      expected := nextSeq q.expected, takenSeq := seq, lastTaken := x.caps.lastTaken.set i seq } }
    let s2 := s1.wake p
    (true, match c.bad with
      | some d => s2.capDone p c 0x01 .refusedState d
      | none => s2.updPart p fun x => { x with caps := { x.caps with queue := x.caps.queue ++ [c] } })
  else
    let empty := h.all (· == 0)
    let old := q.lastTaken[i] != 0 && seq == q.lastTaken[i]
    (false, if empty || old then s else
      s.updPart p fun x => { x with caps := { x.caps with ignored := satAdd 16 x.caps.ignored 1 } })

/-- The expected slot examined, and again after each taking, at most `n` times (R117). -/
def State.takeCapsules (s : State) (p : PartId) : Nat → State
  | 0 => s
  | n + 1 =>
    if s.watched p then
      let (t, s1) := s.examine p
      if t then State.takeCapsules s1 p n else s1
    else s

/-- Does a write of the window touch the header of the expected slot? -/
def touchesHeader (expected : W32) (off len : Nat) : Bool :=
  let a := (slotOf expected).val * capSlot
  decide (off < a + 64 ∧ a < off + len)

/-- A host write into the capsule window. -/
def State.capWrite (s : State) (p : PartId) (off : Nat) (data : List Byte) : State :=
  let d := data.take (capWindow - off)
  let hit := touchesHeader s.parts[p].caps.expected off d.length
  let s1 := (s.updPart p fun x => { x with caps := { x.caps with window := wrL x.caps.window off d } }).meter p mHost d.length
  if hit then s1.takeCapsules p 33 else s1

/-- Is a submission waiting in the expected slot (R117)? -/
def State.submitted (s : State) (p : PartId) : Bool :=
  let q := s.parts[p].caps
  let h := rdL q.window ((slotOf q.expected).val * capSlot) 64
  (crc32c (h.take 0x3C)).toNat == ldNat h 0x3C 4 && (BitVec.ofNat 32 (ldNat h 0 4) : W32) == q.expected

/-- Held records written, and then the submission that waited for them taken (R124). -/
def State.flushAndTake (s : State) (p : PartId) : State :=
  let s1 := s.flushHeld p (s.parts[p].cq.held.length + s.parts[p].cq.waiting.length)
  if s.parts[p].cq.held.isEmpty || !s1.parts[p].cq.held.isEmpty || !s1.submitted p then s1 else s1.takeCapsules p 33

/-! ### Starting (R10, R87, R121) -/

/-- The first capsule of its kind and target in a queue, chosen by `sel`; `seen` are the capsules before the list. -/
def firstOfClass (kind : Nat) (sel : Capsule → Bool) (seen : List Capsule) : List Capsule → Option Capsule
  | [] => none
  | c :: r =>
    if c.kind == kind && sel c && !seen.any (fun d => d.kind == kind && d.target == c.target) then some c
    else firstOfClass kind sel (seen ++ [c]) r

/-- The capsule of a kind that comes next, taken from the queue and given to its meaning, which sees the rest. Capsules of
one kind and target start in sequence order (R121). -/
def State.withCapsule (s : State) (p : PartId) (kind : Nat) (sel : Capsule → Bool) (f : State → Capsule → State) : State :=
  match firstOfClass kind sel [] s.parts[p].caps.queue with
  | some c => f (s.updPart p fun x => { x with caps := { x.caps with queue := x.caps.queue.erase c } }) c
  | none => s

/-- Parameters of a capsule as a number. -/
def Capsule.param (c : Capsule) (a n : Nat) : Nat := ldNat c.params a n

/-- A field of its body. -/
def Capsule.field (c : Capsule) (a n : Nat) : Nat := ldNat c.body a n

/-- A body or parameter range all zero. -/
def zeroBytes (l : List Byte) (a n : Nat) : Bool := ((l.drop a).take n).all (· == 0)

/-- Params all zero. -/
def Capsule.noParams (c : Capsule) : Bool := zeroBytes c.params 0 32

/-- Every capsule taken but not started completes with REFUSED_STATE (R89). -/
def State.refuseQueued (s : State) (p : PartId) : State :=
  let l := s.parts[p].caps.queue
  (s.updPart p fun x => { x with caps := { x.caps with queue := [] } }).over l fun s c =>
    s.capDone p c (kindEngine c.kind) .refusedState 0

end Sys2Proof.Machine
end

