-- ==== Sys2Proof/Machine/Receive.lean ====
section
/-! DEFINITION. The arrival of a packet of a stream (12 R290, R302, R303, R307; 17 R403): what is discarded, answered,
held or accepted, and the mark of delivery. -/

namespace Sys2Proof.Machine

/-- Does a packet end here: the port carries traffic, and this chip is its destination? -/
def State.mine (s : State) (n : PortId) (k : Packet) : Bool :=
  s.ports[n].state == .admitted && k.dst == s.chip && k.src != s.chip

/-- A packet that fails the check of R290, counted at its port. -/
def State.countE2e (s : State) (n : PortId) : State :=
  (s.updPort n fun x => { x with e2e := satAdd 16 x.e2e 1 }).evidence (20 + n.val) evE2e 1

/-- The destination checks of R307: the NAK code that refuses the packet. `range` is the address check in the view. -/
def State.destRefusal (s : State) (k : Packet) (range : Option OutcomeCode) : Option Nat :=
  let st := s.parts[k.dstPart].state
  if s.pairOf k.srcPart != k.dstPart then some 0x15
  else if st != .committed && st != .running && st != .quiesced then some 0x16
  else match range with
    | some _ => some 0x15
    | none => none

/-- A range of the destination's view that a packet writes, with the protection of R386. -/
def State.writeRefusal (s : State) (k : Packet) (len : Nat) : Option Nat :=
  let o := k.addr.toNat
  match s.destRefusal k (if o % 64 = 0 then s.viewCheck k.dstPart o len else some .refusedOwner) with
  | some c => some c
  | none =>
    if s.protected? k.dstPart o len then some 0x16
    else if k.op != 0 && decide (wellsEnd ≤ o) then some 0x16
    else none

/-- The stream a packet belongs to, at its destination. -/
def pktStream (k : Packet) : Nat := streamKey k.src k.tc

/-- An acknowledgement owed again (R302). -/
def State.oweAck (s : State) (k : Packet) : State :=
  s.putDst (pktStream k) { s.dstStream (pktStream k) with ackDue := true }

/-- A packet marked delivered, and metered for its partition (R302, R304, R104). -/
def State.markDelivered (s : State) (k : Packet) : State :=
  let x := s.dstStream (pktStream k)
  (s.putDst (pktStream k) (x.deliver k.psn)).meter k.dstPart mRx k.payload.length

/-- Bytes of the reorder store (R303). -/
def reorderSize : Nat := 0x200000

/-- A packet held until its turn (R303); one that finds the store full is discarded. -/
def State.holdOrdered (s : State) (n : PortId) (k : Packet) : State :=
  let x := s.dstStream (pktStream k)
  let b := k.payload.length + 40
  if x.held.any (fun e => e.2.psn == k.psn) || reorderSize < s.fabric.reorderBytes + b then s
  else (s.putDst (pktStream k) { x with held := x.held ++ [(n, k)] }).updFabric fun f =>
    { f with reorderBytes := f.reorderBytes + b }

/-- Held packets whose psn the floor has passed are discarded. -/
def State.dropHeld (s : State) (key : Nat) : State :=
  let x := s.dstStream key
  let gone := x.held.filter fun e => seqLt e.2.psn x.floor
  if gone.isEmpty then s
  else (s.putDst key { x with held := x.held.filter fun e => !seqLt e.2.psn x.floor }).updFabric fun f =>
    { f with reorderBytes := f.reorderBytes - gone.foldl (fun a e => a + e.2.payload.length + 40) 0 }

/-- The arrival of a packet of a stream (R302): true where it is to be applied now. -/
def State.arrive (s0 : State) (n : PortId) (k : Packet) (trailer : W64) (refusal : State → Option Nat) : Bool × State :=
  let s := s0.noteTc12 k
  if s.isFenced k.src then (false, s.nakTo k 0x11)
  else
    let key := pktStream k
    let s1 := (s.putDst key (((s.dstStream key).start k).raiseFloor k.floor)).dropHeld key
    let x := s1.dstStream key
    if x.has k.psn then (k.kind == 0x02, if k.kind = 0x02 then s1 else s1.oweAck k)
    else if seqLt k.psn x.floor || !seqLt k.psn (x.cum + 128) then (false, s1)
    else if pktTrailer k != trailer then (false, (s1.countE2e n).nakTo k 0x00)
    else
      match refusal s1 with
      | some c => (false, s1.nakTo k c)
      | none => if k.ord && x.cum != k.psn then (false, s1.holdOrdered n k) else (true, s1)

/-- An inbound packet wakes its partition (R47). -/
def State.wakeBy (s : State) (k : Packet) : State := if s.parts[k.dstPart].claims? then s.wake k.dstPart else s

end Sys2Proof.Machine
end

