-- ==== Sys2Proof/Machine/CollOps.lean ====
section
/-! DEFINITION. Collectives and remote atomics (13 R315 to R331): the group, the join round, the steps of the data
phase, the engine's adder unit, and completion. -/

namespace Sys2Proof.Machine

/-! ### The group (R315) -/

/-- The dimension of an engine. -/
def axisDim (a : AxisId) : Fin 3 := a

/-- Axis size of an engine. -/
def State.axisSize (s : State) (a : AxisId) : Nat := s.image.fabric.dims[axisDim a]

/-- G of a collective. -/
def State.collG (s : State) (a : AxisId) (c : Coll) : Nat := if c.group = 0 then s.axisSize a else c.group

/-- The ring position of a chip that shares this chip's other coordinates. -/
def State.collPos (s : State) (a : AxisId) (c : Coll) (chip : BitVec 15) : Nat :=
  let D := max (s.axisSize a) 1
  (coord chip (axisDim a) + D - c.base % D) % D

/-- The chip at a ring position. -/
def State.collChip (s : State) (a : AxisId) (c : Coll) (pos : Nat) : BitVec 15 :=
  let D := max (s.axisSize a) 1
  let x := (c.base + pos) % D
  let k (d : Fin 3) : Nat := if d = axisDim a then x else coord s.chip d
  BitVec.ofNat 15 (k 0 * 1024 + k 1 * 32 + k 2)

/-- This chip's position. -/
def State.myPos (s : State) (a : AxisId) (c : Coll) : Nat := s.collPos a c s.chip

/-- The other members. -/
def State.others (s : State) (a : AxisId) (c : Coll) : List Nat :=
  (List.range (s.collG a c)).filter fun m => m != s.myPos a c

/-- The ring neighbours, one where G is 2. -/
def State.ringNeighbours (s : State) (a : AxisId) (c : Coll) : List Nat :=
  let g := s.collG a c
  [(s.myPos a c + 1) % g, (s.myPos a c + g - 1) % g].eraseDups

/-- S and H of R321. -/
def State.shard (s : State) (a : AxisId) (c : Coll) : Nat := c.length / max (s.collG a c) 1
def State.plusPart (s : State) (a : AxisId) (c : Coll) : Nat :=
  s.shard a c * c.widthP / max (c.widthP + c.widthM) 1 / 64 * 64

/-- Is the direct algorithm used (R322, R324)? Broadcast has the one form of R323. -/
def State.direct (s : State) (a : AxisId) (c : Coll) : Bool :=
  c.op == 5 || (c.op != 4 && (c.alg == 2 || (c.alg == 0 && decide (s.shard a c ≤ 16384))))

/-! ### Items of an engine -/

def State.coll? (s : State) (a : AxisId) (id : Nat) : Option Coll := s.axes[a].colls.find? fun c => c.id == id

def State.updColl (s : State) (a : AxisId) (id : Nat) (f : Coll → Coll) : State :=
  s.updAxis a fun x => { x with colls := x.colls.map fun c => if c.id = id then f c else c }

/-- The collective of a partition with an identifier. -/
def State.collOf (s : State) (a : AxisId) (p : PartId) (collId : W32) : Option Coll :=
  s.axes[a].colls.find? fun c => c.part == p && c.collId == collId

/-- The payload of a COLLECTIVE packet (R325). -/
def collPayload (c : Coll) (sub arg : Nat) (digest : W32) (wp wm : Nat) (data : List Byte) : List Byte :=
  leBytes c.collId.toNat 4 ++ leBytes sub 1 ++ leBytes arg 1 ++ leBytes c.red 1 ++ leBytes c.fmt 1 ++
    leBytes digest.toNat 4 ++ leBytes wp 1 ++ leBytes wm 1 ++ leBytes 0 2 ++ data

/-- A COLLECTIVE packet of a member to another. -/
def State.collPacket (s : State) (a : AxisId) (c : Coll) (dst sub arg : Nat) (digest : W32) (wp wm : Nat) (addr : Nat)
    (data : List Byte) (op : BitVec 2) (poison : Bool) : Packet :=
  { mkPacket (s.collChip a c dst) 0x10 1 c.part (s.pairOf c.part) addr (collPayload c sub arg digest wp wm data) with
    op := op, poison := poison, ieee := s.ieee c.part }

/-- ABANDON with an outcome, ABORTED_RESET carried as FAILED_LINK (R327). -/
def State.abandonTo (s : State) (a : AxisId) (c : Coll) (o : OutcomeCode) (to_ : List Nat) : State :=
  let o1 := if o = .abortedReset then .failedLink else o
  s.over to_ fun s m => s.inject (s.collPacket a c m 3 (o1.code) 0 0 0 0 [] 0 false) .none none

/-- The receivers of this member's own ABANDON. -/
def State.abandonAll (s : State) (a : AxisId) (c : Coll) (o : OutcomeCode) : State :=
  s.abandonTo a c o (if c.op != 6 && s.direct a c then s.others a c else s.ringNeighbours a c)

/-- The record that ends a collective (R326), with its done counter. -/
def State.collRecord (s : State) (a : AxisId) (c : Coll) (o : OutcomeCode) (detail : Nat) (inc : W32) (causes : BitVec 7) : State :=
  s.post c.part
    { tag := c.tag, step := c.step, outcome := o, engine := 0x07, partition := c.part, detail0 := BitVec.ofNat 64 detail,
      incident := inc, causes := causes, axis := some a, done := namedCtr c.doneCore c.doneCtr } c.raiseV0

/-- Collectives of a partition that an engine holds, those whose completion waits there among them (R124, R318). -/
def State.axisHeld (s : State) (a : AxisId) (p : PartId) : Nat :=
  (s.axes[a].colls.filter fun c => c.part == p).length +
    (s.parts[p].cq.waiting.filter fun e => e.1.axis == some a).length

/-- Packets held for a collective that has ended here are acknowledged and dropped. -/
def State.releaseHeld (s : State) (l : List (PortId × Packet)) : State := s.over l fun s e => s.markDelivered e.2

/-! ### The adder unit and the application of data (R325, R328) -/

/-- The larger or smaller of two elements; +0 is above -0 (R325, R236). -/
def redElem (red : Nat) (f : Fmt) (sat : Bool) (x y : Nat) : Nat × NFlags :=
  let mx := red == 1
  match f with
  | .int32 => (if (if mx then signedOf 32 x < signedOf 32 y else signedOf 32 y < signedOf 32 x) then y else x, {})
  | f =>
    let a := decodeElem f x
    let b := decodeElem f y
    let v := if a.isZero && b.isZero then
        .num (if mx then a.neg? && b.neg? else a.neg? || b.neg?) 0 0
      else fpick mx a b
    floatElem f sat (v, {})

def redFmt (code : Nat) : Fmt := (fmtOf code).getD .int32

/-- One block combined by the adder unit of an engine: whether it was poisoned. -/
def State.redBlock (s : State) (l : Loc) (red : Nat) (f : Fmt) (sat : Bool) (data : List Byte) (poison : Bool) :
    (Bool × NFlags) × State :=
  if s.locQuarantined l then ((true, {}), s)
  else
    let ((old, bad), s1) := s.readBlock l .engine
    if bad || poison then ((true, {}), s1.writeBlock l old true)
    else
      let w := fmtBits f / 8
      let rs := ((blockElems w old).zip (blockElems w data)).map fun e => redElem red f sat e.1 e.2
      ((false, rs.foldl (fun g e => g.or e.2) {}), s1.writeBlock l (blockBytes w (rs.map (·.1))) false)

/-- How the data of a packet is applied. -/
inductive CollApply where
  | write | sum | red
  deriving DecidableEq, Repr

/-- The blocks of a packet applied in the view of its partition: whether any of it was poisoned, and the flags. -/
def State.applyBlocks (s : State) (p : PartId) (off : Nat) (how : CollApply) (op red : Nat) (f : Fmt) (ieee : Bool)
    (data : List Byte) (poison : Bool) : Nat → (Bool × NFlags) × State
  | 0 => ((poison, {}), s)
  | n + 1 =>
    let d := data.take 64
    let ((b, fl), s1) : (Bool × NFlags) × State :=
      match s.viewLoc p off with
      | none => ((false, {}), s)
      | some l =>
        if s.locGone l then ((true, {}), s)
        else
          match how, l with
          | .write, l => ((s.locQuarantined l, {}), s.writeBlock l d poison)
          | .sum, .mem (.well w) x => let (q, t) := s.addSector w x op d poison ieee; ((q, {}), t)
          | .sum, l => ((false, {}), s.writeBlock l d poison)
          | .red, l => s.redBlock l red f (!ieee) d poison
    let ((c, g), s2) := State.applyBlocks s1 p (off + 64) how op red f ieee (data.drop 64) poison n
    ((b || c, fl.or g), s2)

/-! ### The data phase (R321 to R325) -/

/-- Cuts of a range into packets of at most 4,032 bytes of data. -/
def collCuts (off len : Nat) : List (Nat × Nat) :=
  (List.range ((len + 4031) / 4032)).map fun i => (off + 4032 * i, min 4032 (len - 4032 * i))

/-- The memory operation of a reducing step: SUM by fmt. -/
def sumOp (fmt : Nat) : BitVec 2 := if fmt = 9 then 1 else if fmt = 7 then 2 else 3

/-- Does a step reduce (ring: the first G - 1 steps; direct: step 1)? -/
def State.reducing (s : State) (a : AxisId) (c : Coll) (k : Nat) : Bool :=
  c.op == 1 || (c.op == 3 && (if s.direct a c then k == 1 else decide (k < s.collG a c)))

/-- One packet of data sent to a member: `from_` is read in this view, `to_` is the view offset there. -/
def State.sendData (s : State) (a : AxisId) (id : Nat) (dst k from_ to_ n : Nat) : State :=
  match s.coll? a id with
  | none => s
  | some c =>
    let ((d, b), s1) := s.readView c.part from_ (n / 64)
    let op := if s.reducing a c k && c.red == 0 then sumOp c.fmt else 0
    let s2 := (s1.meterMove c.part from_ n false).updColl a id fun c =>
      { c with unsettled := c.unsettled + 1, poisoned := c.poisoned || b }
    s2.inject (s2.collPacket a c dst 2 k 0 0 0 to_ d op b) (.coll a id) (some (BitVec.ofNat 64 from_))

/-- A range sent in packets. -/
def State.sendRange (s : State) (a : AxisId) (id dst k from_ to_ len : Nat) : State :=
  s.over (collCuts 0 len) fun s e => s.sendData a id dst k (from_ + e.1) (to_ + e.1) e.2

/-- The two parts of shard `r` in dst. -/
def State.shardParts (s : State) (a : AxisId) (c : Coll) (r : Nat) : (Nat × Nat) × (Nat × Nat) :=
  let S := s.shard a c
  let H := s.plusPart a c
  let o := c.dst.toNat + r * S
  ((o, H), (o + H, S - H))

/-- `n` blocks copied within a partition's view, the poison of each with it: whether any was poisoned. -/
def State.copyBlocks (s : State) (p : PartId) (from_ to_ : Nat) : Nat → Bool × State
  | 0 => (false, s)
  | n + 1 =>
    let ((d, b), s1) := s.readView p from_ 1
    let (c, s2) := State.copyBlocks (s1.writeView p to_ d b 1) p (from_ + 64) (to_ + 64) n
    (b || c, s2)

/-- A range of src copied to dst for a collective, which has consumed what poison it held (R327). -/
def State.copyColl (s : State) (a : AxisId) (c : Coll) (from_ to_ len : Nat) : State :=
  if from_ = to_ then s
  else
    let (b, s1) := s.copyBlocks c.part from_ to_ (len / 64)
    ((s1.meterMove c.part from_ len false).meterMove c.part to_ len true).updColl a c.id fun c =>
      { c with poisoned := c.poisoned || b }

/-- Bytes a member receives before it is done. -/
def State.collExpect (s : State) (a : AxisId) (c : Coll) : Nat :=
  let g := s.collG a c
  match c.op with
  | 3 => 2 * (g - 1) * s.shard a c
  | 4 => if s.myPos a c = c.root then 0 else c.length
  | 6 => 0
  | _ => (g - 1) * s.shard a c

/-- The members that a broadcast reaches in the + direction. -/
def plusReach (g : Nat) : Nat := g / 2

/-- This member's own contribution copied, and its first packets (R323, R324). -/
def State.collFirst (s : State) (a : AxisId) (c : Coll) : State :=
  let g := s.collG a c
  let i := s.myPos a c
  let S := s.shard a c
  let d := c.dst.toNat
  if c.op = 4 then
    if i = c.root then
      let s1 := s.copyColl a c c.src.toNat d c.length
      let s2 := s1.sendRange a c.id ((i + 1) % g) 1 d d c.length
      if plusReach g < g - 1 then s2.sendRange a c.id ((i + g - 1) % g) 1 d d c.length else s2
    else s
  else if c.op = 5 then
    (s.copyColl a c (c.src.toNat + i * S) (d + i * S) S).over (s.others a c) fun s j =>
      s.sendRange a c.id j 1 (c.src.toNat + j * S) (d + i * S) S
  else
    let s1 := if c.op = 2 then s.copyColl a c c.src.toNat (d + i * S) S else s
    if s.direct a c then
      s1.over (s.others a c) fun s j =>
        let r := if c.op = 2 then i else j
        s.sendRange a c.id j 1 (d + r * S) (d + r * S) S
    else
      let (up, _) := s.shardParts a c (if c.op = 2 then i else (i + g - 1) % g)
      let (_, dn) := s.shardParts a c (if c.op = 2 then i else (i + 1) % g)
      (s1.sendRange a c.id ((i + 1) % g) 1 up.1 up.1 up.2).sendRange a c.id ((i + g - 1) % g) 1 dn.1 dn.1 dn.2

/-- What a member sends on once a packet of step k has been applied at an offset (R323, R324). -/
def State.collNext (s : State) (a : AxisId) (c : Coll) (src : BitVec 15) (k off n : Nat) : State :=
  let g := s.collG a c
  let i := s.myPos a c
  let S := s.shard a c
  if c.op = 4 then
    let plus := s.collPos a c src == (i + g - 1) % g
    let reach := if plus then plusReach g else g - 1 - plusReach g
    if k < reach then s.sendData a c.id (if plus then (i + 1) % g else (i + g - 1) % g) (k + 1) off off n else s
  else if s.direct a c then
    if c.op = 3 && k == 1 && c.reduced == (g - 1) * S then
      s.over (s.others a c) fun s j => s.sendRange a c.id j 2 (c.dst.toNat + i * S) (c.dst.toNat + i * S) S
    else s
  else
    let last := if c.op = 3 then 2 * (g - 1) else g - 1
    let plus := decide ((off - c.dst.toNat) % max S 1 < s.plusPart a c)
    if k < last then s.sendData a c.id (if plus then (i + 1) % g else (i + g - 1) % g) (k + 1) off off n else s

/-- Is a packet sent from a region still unsettled (R325)? -/
def State.regionBusy (s : State) (a : AxisId) (id off n : Nat) : Bool :=
  s.fabric.src.any fun e => (e.2.out ++ e.2.queue).any fun o =>
    o.item == .coll a id && match o.from_ with
      | some f => decide (f.toNat < off + n ∧ off < f.toNat + (o.pkt.payload.length - 16))
      | none => false

/-- A DATA packet applied and marked delivered; what depends on it goes on. -/
def State.applyData (s : State) (a : AxisId) (id : Nat) (k : Packet) : State :=
  match s.coll? a id with
  | none => s.markDelivered k
  | some c =>
    let off := k.addr.toNat
    let n := k.payload.length - 16
    let step := ldNat k.payload 5 1
    let how := if s.reducing a c step then (if c.red = 0 then CollApply.sum else .red) else .write
    let ((bad, fl), s1) := (s.markDelivered k).applyBlocks c.part off how k.op.toNat c.red (redFmt c.fmt) k.ieee
      (k.payload.drop 16) k.poison (n / 64)
    let s2 := (s1.itemFlags s s.epoch).updAxis a fun x => { x with flags := x.flags.note s.epoch fl }
    let s3 := (if how = .write then s2 else s2.meterMove c.part off n false).meterMove c.part off n true
    let s4 := s3.updColl a id fun c => { c with
      received := c.received + n, reduced := if step = 1 then c.reduced + n else c.reduced, poisoned := c.poisoned || bad }
    match s4.coll? a id with
    | some d => s4.collNext a d k.src step off n
    | none => s4

/-- Held packets of a collective applied where their region is free. -/
def State.applyWaiting (s : State) (a : AxisId) (id : Nat) : State :=
  match s.coll? a id with
  | none => s
  | some c =>
    if c.phase != .data then s
    else
      (s.updColl a id fun c => { c with waitApply := [] }).over c.waitApply fun s e =>
        if s.regionBusy a id e.2.addr.toNat (e.2.payload.length - 16) then
          s.updColl a id fun c => { c with waitApply := c.waitApply ++ [e] }
        else s.applyData a id e.2

/-! ### The join round (R319) -/

/-- The width of a port of the engine's axis. -/
def State.axisWidth (s : State) (a : AxisId) (plus : Bool) : Nat := s.ports[dimPort (axisDim a) plus].width

/-- The narrowest link of a collective's ring that leaves this member, in one direction (R319): a full ring has the port
of that direction; a segment's ring goes out over the links of the segment alone, and back over those of the other
direction (R315). -/
def State.linkWidth (s : State) (a : AxisId) (c : Coll) (plus : Bool) : Nat :=
  let g := s.collG a c
  if g = s.axisSize a then s.axisWidth a plus
  else min (if s.myPos a c + 1 < g then s.axisWidth a true else 255) (if 0 < s.myPos a c then s.axisWidth a false else 255)

/-- A JOIN sent on with the widths seen so far. -/
def State.sendJoin (s : State) (a : AxisId) (c : Coll) (plus : Bool) (origin : Nat) (digest : W32) (wp wm : Nat) : State :=
  let g := s.collG a c
  let to_ := if plus then (s.myPos a c + 1) % g else (s.myPos a c + g - 1) % g
  let s1 := s.updColl a c.id fun c => { c with unsettled := c.unsettled + 1 }
  s1.inject (s1.collPacket a c to_ 1 origin digest (min wp (s.linkWidth a c true)) (min wm (s.linkWidth a c false)) 0 [] 0 false)
    (.coll a c.id) none

/-- The direction a JOIN travels in, by the position of the member that sent it on. Where G is 2 both ring neighbours are
one member, which sends one JOIN; it counts as a + one. -/
def State.joinPlus (s : State) (a : AxisId) (c : Coll) (k : Packet) : Bool :=
  s.collPos a c k.src == (s.myPos a c + s.collG a c - 1) % s.collG a c

/-- A JOIN heard and forwarded. `up` tells the + direction. -/
def State.hearJoin (s : State) (a : AxisId) (id : Nat) (up : Bool) (k : Packet) : State :=
  match s.coll? a id with
  | none => s
  | some c =>
    let o := ldNat k.payload 5 1
    let dg : W32 := BitVec.ofNat 32 (ldNat k.payload 8 4)
    let wp := ldNat k.payload 0x0C 1
    let wm := ldNat k.payload 0x0D 1
    let add (l : List (Nat × W32)) : List (Nat × W32) := if l.any (fun e => e.1 == o) then l else l ++ [(o, dg)]
    let g := s.collG a c
    let s1 := s.updColl a id fun c => { c with
      joinsP := if up then add c.joinsP else c.joinsP
      joinsM := if up then c.joinsM else add c.joinsM
      widthP := if c.phase = .data then c.widthP else min c.widthP wp
      widthM := if c.phase = .data then c.widthM else min c.widthM wm }
    let away := if up then (s.myPos a c + g - o % g) % g else (o % g + g - s.myPos a c) % g
    if away < g - 1 then s1.sendJoin a c up o dg wp wm else s1

/-- Has a member the JOINs of all members, from both directions where there are two neighbours? -/
def State.joined (s : State) (a : AxisId) (c : Coll) : Bool :=
  c.phase == .joining && c.joinsP.length + 1 == s.collG a c && (s.collG a c == 2 || c.joinsM.length + 1 == s.collG a c)

/-! ### Ends (R326, R327) -/

/-- A collective taken up by the engine: JOINs heard before it are given to it (R319). -/
def State.admitColl (s : State) (a : AxisId) (c : Coll) : State :=
  let mine (k : Packet) : Bool := k.dstPart == c.part && ldNat k.payload 0 4 == c.collId.toNat
  let l := s.axes[a].early.filter mine
  let s1 := s.updAxis a fun x => { x with early := x.early.filter (fun k => !mine k), colls := x.colls ++ [c] }
  s1.over l fun s k => s.hearJoin a c.id (s.joinPlus a c k) k

/-- The next collective that waits for a place among 16 taken up (R318). -/
def State.admitNext (s : State) (a : AxisId) (p : PartId) : State :=
  match s.axes[a].waiting.find? fun c => c.part == p with
  | some c =>
    if s.axisHeld a p < 16 then
      (s.updAxis a fun x => { x with waiting := x.waiting.filter fun d => d.id != c.id }).admitColl a c
    else s
  | none => s

/-- The blocks of a buffer that an end leaves undefined (R326, R327): all of dst after a failure of the data phase, the
shards of the other members after a REDUCE_SCATTER. -/
def State.collUndefined (s : State) (a : AxisId) (c : Coll) (o : OutcomeCode) : State :=
  let S := s.shard a c
  if c.phase != .data then s
  else if o != .done then s.freeView c.part c.dst.toNat (c.length / 64)
  else if c.op = 1 then
    s.over (s.others a c) fun s j => s.freeView c.part (c.dst.toNat + j * S) (S / 64)
  else s

/-- A collective ended. -/
def State.endColl (s : State) (a : AxisId) (c : Coll) (o : OutcomeCode) (inc : W32) : State :=
  let (r, causes) := if c.poisoned && o.rank < 7 then joinCause .failedPoison 0 o else (o, 0)
  let detail := ((c.received % 4294967296) <<< 32) + c.collId.toNat
  let s1 := s.updAxis a fun x => { x with
    colls := x.colls.filter fun d => d.id != c.id, waiting := x.waiting.filter fun d => d.id != c.id }
  (((s1.releaseHeld c.waitApply).collUndefined a c r).collRecord a c r detail inc causes).admitNext a c.part

/-- A collective whose digests differ (R319). -/
def State.mismatchColl (s : State) (a : AxisId) (c : Coll) : State :=
  let s1 := s.updAxis a fun x => { x with colls := x.colls.filter fun d => d.id != c.id }
  ((s1.releaseHeld c.waitApply).collRecord a c .refusedState ((0xFFFFFFFF <<< 32) + c.collId.toNat) 0 0).admitNext a c.part

/-- A collective ended where everything has been received, applied and settled (R326). -/
def State.tryEndColl (s : State) (a : AxisId) (id : Nat) : State :=
  match s.coll? a id with
  | none => s
  | some c =>
    if c.phase == .data && c.waitApply.isEmpty && c.received == c.expect && c.unsettled == 0 then
      s.endColl a c (if c.poisoned then .failedPoison else .done) 0
    else s

/-- A completed join (R319, R320): a refusal, a barrier's end, or the data phase. -/
def State.completeJoin (s : State) (a : AxisId) (id : Nat) : State :=
  match s.coll? a id with
  | none => s
  | some c =>
    if !s.joined a c then s
    else if (c.joinsP ++ c.joinsM).any (fun e => e.2 != c.digest) then s.mismatchColl a c
    else if c.op = 6 then s.endColl a c .done 0
    else
      let s1 := s.updColl a id fun c => { c with
        phase := .data, widthP := min c.widthP (s.linkWidth a c true), widthM := min c.widthM (s.linkWidth a c false) }
      match s1.coll? a id with
      | none => s1
      | some d =>
        let s2 := (s1.updColl a id fun d => { d with expect := s.collExpect a d }).collFirst a d
        (s2.applyWaiting a id).tryEndColl a id

/-- A member's own packet failed, or an event ends its collective: ABANDON goes out (R327). -/
def State.failColl (s : State) (a : AxisId) (c : Coll) (o : OutcomeCode) (inc : W32) : State :=
  (s.abandonAll a c o).endColl a c o inc

/-- One packet of a collective settled at this member (R306, R327). -/
def State.settleColl (s : State) (a : AxisId) (id : Nat) (o : OutcomeCode) : State :=
  match s.coll? a id with
  | none => s
  | some c =>
    if o = .done then
      ((s.updColl a id fun c => { c with unsettled := c.unsettled - 1 }).applyWaiting a id).tryEndColl a id
    else s.failColl a c o 0

/-- STOP and its kin over collectives (R327, R89): those not joined end FAILED_TIMEOUT. -/
def State.stopColls (s : State) (p : PartId) (inc : W32) : State :=
  s.over (allFin 3) fun s a =>
    let w := s.axes[a].waiting.filter fun c => c.part == p
    let s1 := (s.updAxis a fun x => { x with waiting := x.waiting.filter fun c => c.part != p }).over w fun s c =>
      s.endColl a c .failedTimeout inc
    s1.over (s1.axes[a].colls.filter fun c => c.part == p && c.phase != .data) fun s c => s.endColl a c .failedTimeout inc

/-! ### Atomics (R328) -/

/-- The word an atomic leaves. -/
def atomicWord (aop : Nat) (x y : W64) : W64 :=
  match aop with
  | 0 => x + y
  | 1 => if x.toInt < y.toInt then y else x
  | 2 => if y.toInt < x.toInt then y else x
  | 3 => x ||| y
  | _ => x &&& y

/-- An atomic applied in the view of a partition: whether it met poison. -/
def State.applyAtomic (s : State) (p : PartId) (off aop : Nat) (v : W64) : Bool × State :=
  match s.viewLoc p off with
  | none => (false, s)
  | some l =>
    if s.locGone l || s.locQuarantined l then (true, s)
    else
      let ((old, bad), s1) := s.readBlock l .engine
      if bad then (true, s1)
      else
        let at_ := off % 64
        let w := atomicWord aop (BitVec.ofNat 64 (ldNat old at_ 8)) v
        (false, ((s1.writeBlock l (old.take at_ ++ leBytes w.toNat 8 ++ old.drop (at_ + 8)) false).meterMove p off 8 false).meterMove
          p off 8 true)

/-- An atomic ended (R328). -/
def State.endAtomic (s : State) (a : AxisId) (x : AtomicItem) (o : OutcomeCode) (inc : W32) : State :=
  let s1 := s.updAxis a fun e => { e with atomics := e.atomics.filter fun y => y.id != x.id }
  s1.post x.part
    { tag := x.tag, step := x.step, outcome := o, engine := 0x07, partition := x.part,
      detail0 := if o = .done then BitVec.ofNat 64 (8 <<< 32) else 0, incident := inc, axis := some a
      done := namedCtr x.doneCore x.doneCtr } x.raiseV0

/-- An atomic started: applied here, or sent. -/
def State.startAtomic (s : State) (a : AxisId) (x : AtomicItem) : State :=
  if s.isLocal x.addr then
    let (bad, s1) := s.applyAtomic x.part (gaOff x.addr) x.aop x.operand
    s1.endAtomic a x (if bad then .failedPoison else .done) 0
  else if s.fabric.selfFenced || s.isFenced (gaChip x.addr) then s.endAtomic a x .failedFenced 0
  else
    let s1 := s.updAxis a fun e => { e with atomics := e.atomics.map fun y =>
      if y.id = x.id then { y with started := true } else y }
    s1.inject { mkPacket (gaChip x.addr) 0x11 x.tc x.part (s.pairOf x.part) (gaOff x.addr)
      (leBytes x.aop 8 ++ leBytes x.operand.toNat 8) with ord := x.ord } (.atomic a x.id) none

/-- The packet of an atomic settled. -/
def State.settleAtomic (s : State) (a : AxisId) (id : Nat) (o : OutcomeCode) : State :=
  match s.axes[a].atomics.find? fun x => x.id == id with
  | some x => s.endAtomic a x o 0
  | none => s

end Sys2Proof.Machine
end

