-- ==== Sys2Proof/Machine/Coll.lean ====
section
/-! DEFINITION. The family of collective commands (13 R316 to R328): COLLECTIVE capsules, the join round, data, ABANDON
and atomics. A capsule with an op outside the table is completed by the first command of its kind. -/

namespace Sys2Proof.Machine

/-! ### The capsule (R316, R317, R328) -/

/-- The collective a body spells. -/
def parseColl (id : Nat) (p : PartId) (c : Capsule) (now : Nat) : Coll :=
  let f := c.field
  let limit := f 0x30 4
  let zeroed := c.body.take 0x24 ++ List.replicate 16 0 ++ (c.body.drop 0x34)
  { id := id, part := p, tag := c.tag, step := c.step, raiseV0 := c.v0, op := f 0 1, red := f 1 1, fmt := f 2 1,
    alg := f 3 1, group := f 4 1, base := f 5 1, root := f 6 1, src := BitVec.ofNat 64 (f 8 8),
    dst := BitVec.ofNat 64 (f 0x10 8), length := f 0x18 8, collId := BitVec.ofNat 32 (f 0x20 4), trigCore := f 0x24 1,
    trigCtr := f 0x25 1, trigVal := BitVec.ofNat 32 (f 0x28 4), doneCore := f 0x2C 1, doneCtr := f 0x2D 1,
    limitAt := now + 1000 * (if limit = 0 then 100000 else limit), digest := crc32c zeroed }

/-- Is a core of a trigger or done field 0xFF or a core of the partition, and its counter in range (R317 step 6)? -/
def State.collCore (s : State) (p : PartId) (core ctr : Nat) : Bool :=
  decide (ctr ≤ 31) && (core == 0xFF || (decide (core < 192) && s.corePresent core && s.parts[p].im.img.wardMask.testBit (core / 12)))

/-- Reserved bytes of the body. -/
def collReserved (c : Capsule) : Bool :=
  c.field 7 1 == 0 && zeroBytes c.body 0x26 2 && zeroBytes c.body 0x2E 2 && zeroBytes c.body 0x34 12

/-- Codes of ops 1 to 6 in range (R316). -/
def collCodes (c : Coll) : Bool :=
  let reduces := c.op == 1 || c.op == 3
  decide (1 ≤ c.op ∧ c.op ≤ 6) && (if reduces then decide (c.red ≤ 2) else c.red == 0) &&
    (if reduces then c.fmt == 9 || c.fmt == 7 || c.fmt == 0xC else c.fmt == 0) &&
    (if c.op = 5 then c.alg == 0 || c.alg == 2 else if c.op = 6 then c.alg == 0 else decide (c.alg ≤ 2)) &&
    (c.group == 0 || decide (2 ≤ c.group ∧ c.group ≤ 32)) && c.collId != 0 && (c.op == 4 || c.root == 0)

/-- The group of R315, with this chip in it. -/
def State.groupOk (s : State) (a : AxisId) (c : Coll) : Bool :=
  let D := s.axisSize a
  let g := s.collG a c
  decide (2 ≤ D ∧ c.base < D) && (g == D || decide (2 ≤ g ∧ 2 * (g - 1) < D)) && decide (s.myPos a c < g) &&
    (c.op != 4 || decide (c.root < g))

/-- Buffers in the wells range and the length of R317. Buffers are of whole 64-byte blocks, as every packet's data is
(R325; log 23). -/
def State.collRanges (s : State) (a : AxisId) (c : Coll) : Bool :=
  let g := s.collG a c
  decide (c.src.toNat < wellsEnd ∧ c.dst.toNat < wellsEnd) &&
    (c.op == 6 || (c.src.toNat % 64 == 0 && c.dst.toNat % 64 == 0)) &&
    (!(c.op == 1 || c.op == 3) || c.src == c.dst) && decide (c.length ≤ 0x80000000) &&
    (match c.op with
      | 4 => c.length % 64 == 0
      | 6 => c.length == 0
      | _ => c.length % (128 * g) == 0)

/-- The checks of R317. -/
def State.collBodyOk (s : State) (a : AxisId) (p : PartId) (cap : Capsule) (c : Coll) : Bool :=
  cap.body.length == 64 && cap.noParams && collReserved cap && collCodes c && s.groupOk a c && s.collRanges a c &&
    !(s.axes[a].colls ++ s.axes[a].waiting).any (fun d => d.part == p && d.collId == c.collId) &&
    s.collCore p c.trigCore c.trigCtr && s.collCore p c.doneCore c.doneCtr

/-- The buffer checks of R10 (R317). -/
def State.collOwner (s : State) (a : AxisId) (p : PartId) (c : Coll) : Option OutcomeCode :=
  let n := c.length
  let chk (off len : Nat) : Option OutcomeCode := if len = 0 then none else s.viewCheck p off len
  if s.parts[p].im.img.axisWeight[a] = 0 then some .refusedOwner
  else if c.op = 6 then none
  else
    firstRefusal [
      if c.op = 2 then chk c.src.toNat (n / max (s.collG a c) 1)
      else if c.op = 4 then (if s.myPos a c = c.root then chk c.src.toNat n else none)
      else chk c.src.toNat n,
      chk c.dst.toNat n]

/-- A COLLECTIVE capsule of ops 1 to 6. -/
def State.collCapsule (s : State) (p : PartId) (cap : Capsule) : State :=
  match s.collEngine cap.target with
  | none => s.capBad p cap 4
  | some a =>
    let (id, s1) := s.newItem
    let c := parseColl id p cap cap.takenAt
    if !s.collBodyOk a p cap c then s.capBad p cap 4
    else
      match s.collOwner a p c with
      | some o => s.collRecord a c o c.collId.toNat 0 0
      | none =>
        if !kindRuns (s.capState p) kColl false then s.collRecord a c .refusedState c.collId.toNat 0 0
        else if c.op != 6 && s.protected? p c.dst.toNat c.length then s.collRecord a c .refusedState 4 0 0
        else if s.fabric.selfFenced || (s.others a c).any (fun m => s.isFenced (s.collChip a c m)) then
          s.collRecord a c .failedFenced c.collId.toNat 0 0
        else if s1.axisHeld a p < 16 then s1.admitColl a c
        else s1.updAxis a fun x => { x with waiting := x.waiting ++ [c] }

def isColl (op : Nat) (c : Capsule) : Bool := c.field 0 1 == op

/-- REDUCE_SCATTER (R323). -/
def execReduceScatter (p : PartId) (s : State) : Out :=
  .next (s.withCapsule p kColl (fun c => !(2 ≤ c.field 0 1 && c.field 0 1 ≤ 7)) fun s c => s.collCapsule p c)

/-- ALL_GATHER (R323). -/
def execAllGather (p : PartId) (s : State) : Out :=
  .next (s.withCapsule p kColl (isColl 2) fun s c => s.collCapsule p c)

/-- ALL_REDUCE (R323). -/
def execAllReduce (p : PartId) (s : State) : Out :=
  .next (s.withCapsule p kColl (isColl 3) fun s c => s.collCapsule p c)

/-- BROADCAST (R323). -/
def execBroadcast (p : PartId) (s : State) : Out :=
  .next (s.withCapsule p kColl (isColl 4) fun s c => s.collCapsule p c)

/-- ALL_TO_ALL (R324). -/
def execAllToAll (p : PartId) (s : State) : Out :=
  .next (s.withCapsule p kColl (isColl 5) fun s c => s.collCapsule p c)

/-- COLLECTIVE_BARRIER (R320). -/
def execCollectiveBarrier (p : PartId) (s : State) : Out :=
  .next (s.withCapsule p kColl (isColl 6) fun s c => s.collCapsule p c)

/-- The atomic a body spells. -/
def parseAtomic (id : Nat) (p : PartId) (c : Capsule) : AtomicItem :=
  let f := c.field
  { id := id, part := p, tag := c.tag, step := c.step, raiseV0 := c.v0, aop := f 1 1, tc := BitVec.ofNat 2 (f 2 1),
    ord := (f 2 1).testBit 2, addr := BitVec.ofNat 64 (f 8 8), operand := BitVec.ofNat 64 (f 0x10 8),
    trigCore := f 0x24 1, trigCtr := f 0x25 1, trigVal := BitVec.ofNat 32 (f 0x28 4), doneCore := f 0x2C 1,
    doneCtr := f 0x2D 1 }

/-- The fields of ops 1 to 6 that an ATOMIC does not use: as their layout gives them, or zero (R328). -/
def State.atomicRest (s : State) (a : AxisId) (c : Capsule) : Bool :=
  let g := c.field 4 1
  decide (c.field 3 1 ≤ 2) && (g == 0 || decide (2 ≤ g ∧ g ≤ 32)) && (c.field 5 1 == 0 || decide (c.field 5 1 < s.axisSize a)) &&
    c.field 6 1 == 0 && decide (c.field 0x18 8 ≤ 0x80000000)

/-- Is the counter of a trigger at its value, or is there none (R319)? -/
def State.trigDue (s : State) (core ctr : Nat) (v : W32) : Bool :=
  core == 0xFF || decide (v.toNat ≤ s.cores[coreOf core].sync[ctrOf ctr].count.toNat)

/-- An ATOMIC capsule (R328). -/
def State.atomicCapsule (s : State) (p : PartId) (cap : Capsule) : State :=
  match s.collEngine cap.target with
  | none => s.capBad p cap 4
  | some a =>
    let (id, s1) := s.newItem
    let x := parseAtomic id p cap
    let ok := cap.body.length == 64 && cap.noParams && collReserved cap && s.atomicRest a cap && decide (x.aop ≤ 4) &&
      decide (cap.field 2 1 < 8) && x.tc != 2 && x.addr.toNat % 8 == 0 && decide (gaOff x.addr + 8 ≤ wellsEnd) &&
      s.collCore p x.trigCore x.trigCtr && s.collCore p x.doneCore x.doneCtr
    if !ok then s.capBad p cap 4
    else
      let owner := if s.parts[p].im.img.axisWeight[a] = 0 then some OutcomeCode.refusedOwner else none
      match firstRefusal [s.addrCheck p x.addr 8, owner] with
      | some o => s1.endAtomic a x o 0
      | none =>
        if !kindRuns (s.capState p) kColl false then s1.endAtomic a x .refusedState 0
        else
          let s2 := s1.updAxis a fun e => { e with atomics := e.atomics ++ [x] }
          if s2.trigDue x.trigCore x.trigCtr x.trigVal then s2.startAtomic a x else s2

/-- Atomics of a partition whose trigger has come, started. -/
def State.startAtomics (s : State) (p : PartId) : State :=
  s.over (allFin 3) fun s a =>
    s.over (s.axes[a].atomics.filter fun x => x.part == p && !x.started && s.trigDue x.trigCore x.trigCtr x.trigVal)
      fun s x => s.startAtomic a x

/-- ATOMIC (R328): atomics that waited for their trigger start, then the next capsule is taken up. -/
def execAtomic (p : PartId) (s : State) : Out :=
  .next ((s.startAtomics p).withCapsule p kColl (isColl 7) fun s c => s.atomicCapsule p c)

/-! ### The join round -/

/-- JOIN_START (R319, R318): joins of one engine and partition begin in sequence order. -/
def execJoinStart (a : AxisId) (p : PartId) (collId : W32) (s : State) : Out :=
  .next <|
    match s.axes[a].colls.find? fun c => c.part == p && c.phase == .trigger with
    | some c =>
      if c.collId == collId && s.trigDue c.trigCore c.trigCtr c.trigVal then
        let s1 := s.updColl a c.id fun c => { c with phase := .joining }
        let i := s.myPos a c
        let s2 := s1.sendJoin a c true i c.digest 255 255
        let s3 := if s.collG a c = 2 then s2 else s2.sendJoin a c false i c.digest 255 255
        s3.completeJoin a c.id
      else s
    | none => s

/-- The engine of the axis along which a member's packet has come: its chip and this one differ there alone (R315). -/
def State.axisOfSrc (s : State) (k : Packet) : AxisId :=
  ((allFin 3).find? fun a => coord k.src (axisDim a) != coord s.chip (axisDim a)).getD 0

/-- JOIN (R319): heard, forwarded, and kept where this member has not posted the collective yet. -/
def execJoin (n : PortId) (k : Packet) (trailer : W64) (s : State) : Out :=
  .next <|
    if s.mine n k && k.kind == 0x10 && ldNat k.payload 4 1 == 1 then
      let (ok, s1) := s.arrive n k trailer fun s => s.destRefusal k none
      if !ok then s1
      else
        let s2 := (s1.wakeBy k).markDelivered k
        let a := s.axisOfSrc k
        match s2.collOf a k.dstPart (BitVec.ofNat 32 (ldNat k.payload 0 4)) with
        | some c => (s2.hearJoin a c.id (s2.joinPlus a c k) k).completeJoin a c.id
        | none => s2.updAxis a fun x => { x with early := x.early ++ [k] }
    else s

/-- JOIN_TIMEOUT (R319). -/
def execJoinTimeout (a : AxisId) (p : PartId) (collId : W32) (atNs : Nat) (s : State) : Out :=
  .next <|
    let s1 := s.advanceTo atNs
    match (s1.axes[a].colls ++ s1.axes[a].waiting).find? fun c => c.part == p && c.collId == collId with
    | some c => if c.phase != .data && decide (c.limitAt ≤ s1.timeNs) then s1.failColl a c .failedTimeout 0 else s1
    | none => s1

/-! ### Data, ABANDON, atomics at the destination -/

/-- COLLECTIVE_DATA (R325). -/
def execCollectiveData (n : PortId) (k : Packet) (trailer : W64) (s : State) : Out :=
  .next <|
    if s.mine n k && k.kind == 0x10 && ldNat k.payload 4 1 == 2 then
      let len := k.payload.length - 16
      let (ok, s1) := s.arrive n k trailer fun s => s.writeRefusal k len
      if !ok then s1
      else
        let a := s.axisOfSrc k
        match s1.collOf a k.dstPart (BitVec.ofNat 32 (ldNat k.payload 0 4)) with
        | none => s1.markDelivered k
        | some c =>
          if c.phase != .data || s1.regionBusy a c.id k.addr.toNat len then
            if c.waitApply.any (fun e => e.2.src == k.src && e.2.psn == k.psn) then s1
            else s1.updColl a c.id fun c => { c with waitApply := c.waitApply ++ [(n, k)] }
          else (((s1.wakeBy k).applyData a c.id k).applyWaiting a c.id).tryEndColl a c.id
    else s

/-- COLLECTIVE_ABANDON (R327): forwarded once, away from its sender. -/
def execCollectiveAbandon (n : PortId) (k : Packet) (trailer : W64) (s : State) : Out :=
  .next <|
    if s.mine n k && k.kind == 0x10 && ldNat k.payload 4 1 == 3 then
      let (ok, s1) := s.arrive n k trailer fun s => s.destRefusal k none
      if !ok then s1
      else
        let s2 := (s1.wakeBy k).markDelivered k
        let a := s.axisOfSrc k
        let collId : W32 := BitVec.ofNat 32 (ldNat k.payload 0 4)
        match (s2.axes[a].colls ++ s2.axes[a].waiting).find? fun c => c.part == k.dstPart && c.collId == collId with
        | some c =>
          let o := OutcomeCode.ofCode (ldNat k.payload 5 1)
          let g := s2.collG a c
          let i := s2.myPos a c
          let src := s2.collPos a c k.src
          let to_ := if src = (i + 1) % g then (i + g - 1) % g else (i + 1) % g
          let s3 := if to_ = src then s2 else s2.abandonTo a c o [to_]
          s3.endColl a c o 0
        | none => s2.updAxis a fun x => { x with
            early := x.early.filter fun q => !(q.dstPart == k.dstPart && ldNat q.payload 0 4 == ldNat k.payload 0 4) }
    else s

/-- The address check of an atomic at its destination. -/
def State.atomicRefusal (s : State) (k : Packet) : Option Nat :=
  let o := k.addr.toNat
  match s.destRefusal k (if o % 8 = 0 ∧ o + 8 ≤ wellsEnd then s.viewCheck k.dstPart o 8 else some .refusedOwner) with
  | some c => some c
  | none => if s.protected? k.dstPart o 8 then some 0x16 else none

/-- The atomic a packet carries, applied and marked delivered. -/
def State.landAtomic (s : State) (k : Packet) : State :=
  ((s.wakeBy k).applyAtomic k.dstPart k.addr.toNat (ldNat k.payload 0 1) (BitVec.ofNat 64 (ldNat k.payload 8 8))).2.markDelivered k

/-- ATOMIC_PACKET (R328). -/
def execAtomicPacket (n : PortId) (k : Packet) (trailer : W64) (s : State) : Out :=
  .next <|
    if s.mine n k && k.kind == 0x11 then
      let (ok, s1) := s.arrive n k trailer fun s => s.atomicRefusal k
      if ok then s1.landAtomic k else s1
    else s

end Sys2Proof.Machine
end

