-- ==== Sys2Proof/Machine/SluiceOps.lean ====
section
/-! DEFINITION. Sluices (14 R332 to R351): routes and gates, TOKEN packets, admission, ENDs and arrival, returns, the
combine, records and counts, and what ends a layer. After each event `sluicePass` brings every layer forward. -/

namespace Sys2Proof.Machine

/-! ### Layers of a Sluice -/

def State.slayer? (s : State) (n : SluiceId) (id : Nat) : Option Layer := s.sluices[n].layers.find? fun l => l.id == id

def State.updLayer (s : State) (n : SluiceId) (id : Nat) (f : Layer → Layer) : State :=
  s.updSluice n fun x => { x with layers := x.layers.map fun l => if l.id = id then f l else l }

/-- The open layer of a partition with an identifier. -/
def State.layerOf (s : State) (n : SluiceId) (p : PartId) (layerId : W32) : Option Layer :=
  s.sluices[n].layers.find? fun l => l.part == p && l.layerId == layerId

def Layer.updRoute (l : Layer) (i : Nat) (f : Route → Route) : Layer :=
  { l with routes := l.routes.map fun r => if r.token * l.k + r.slot = i then f r else r }

/-- The index of a route (R332). -/
def Layer.index (l : Layer) (r : Route) : Nat := r.token * l.k + r.slot

/-- The phase code of SLC_LAYERi. -/
def Layer.phase (l : Layer) : Nat :=
  if l.destDone then 5 else if l.returned then 4 else if l.arrived then 3 else if l.formed then 2 else 1

/-! ### The expert axis (R333) -/

def State.expertAxis (s : State) : Option (Fin 3) := (allFin 3).find? fun d => s.image.fabric.roles[d] == 3

def State.expertSize (s : State) : Nat :=
  match s.expertAxis with
  | some d => s.image.fabric.dims[d]
  | none => 1

/-- The expert-axis coordinate of a chip. -/
def State.expertCoord (s : State) (chip : BitVec 15) : Nat :=
  match s.expertAxis with
  | some d => coord chip d
  | none => 0

/-- The chip with this chip's other coordinates and a coordinate on the expert axis. -/
def State.expertChip (s : State) (x : Nat) : BitVec 15 :=
  let c (d : Fin 3) : Nat := if s.expertAxis = some d then x else coord s.chip d
  BitVec.ofNat 15 (c 0 * 1024 + c 1 * 32 + c 2)

/-! ### Placement entries -/

def peValid (w : W32) : Bool := bit w 31
def peCoord (w : W32) : Nat := bits w 24 5
def peSluice (w : W32) : Nat := bits w 16 2
def peLocal (w : W32) : Nat := bits w 0 8
def peReserved (w : W32) : Bool := bits w 29 2 == 0 && bits w 18 6 == 0 && bits w 8 8 == 0

def Sluice.entry (x : Sluice) (e : Nat) : W32 := if e < x.tableCount then Sparse.getD x.table e 0 else 0

/-- Every Sluice that a placement table names, by coordinate and index. -/
def Sluice.named (x : Sluice) : List (Nat × Nat) :=
  ((x.table.filter fun e => peValid e.2).map fun e => (peCoord e.2, peSluice e.2)).eraseDups

/-! ### Gates (R339) -/

def posInf32 : W32 := 0x7F800000
def negInf32 : W32 := 0xFF800000

/-- A finite value with 704 fraction bits. -/
def gateFix (v : W32) : Int :=
  match dec32 v.toNat with
  | .num s m e => if s then -(fuFix m e : Int) else fuFix m e
  | _ => 0

/-- The weight of a value in the sum of its token's gates, with 704 fraction bits: exp(v − v_0), or σ(v) in mode 2. -/
def gateWeight (mode : Nat) (vs : List W32) (v : W32) : Nat :=
  if v = negInf32 then 0
  else if mode = 0 then
    let top := (vs.filter (· != negInf32)).foldl (fun a x => max a (gateFix x)) (gateFix v)
    fuExpNeg (top - gateFix v).toNat
  else if v = posInf32 then fuOne
  else fuSigm (decide (gateFix v < 0)) (gateFix v).natAbs

/-- The gate of one slot among the values of its token's routes: one of the codes within 4 ulp of the exact quotient,
which of them the manual does not say. Where every σ lies below the least normal the two sentences of R339, a zero sum
and the exact value, differ: a free pattern (log 9). -/
def gateOf (mode : Nat) (vs : List W32) (j : Nat) : W32 :=
  let v := vs.getD j 0
  if mode = 1 then v
  else if v = negInf32 then 0
  else if mode = 0 && vs.contains posInf32 then
    let m := (vs.filter (· == posInf32)).length
    if v = posInf32 then
      BitVec.ofNat 32 (choose32 (if [1, 2, 4, 8].contains m then 0 else 4) 1 m (Config.sluiceGate mode vs j).toNat)
    else 0
  else
    let sum := (vs.map (gateWeight mode vs)).foldl (· + ·) 0
    let pick := Config.sluiceGate mode vs j
    if sum < fuOne >>> 126 then pick else BitVec.ofNat 32 (choose32 4 (gateWeight mode vs v) sum pick.toNat)

/-! ### TOKEN packets (R340) -/

/-- The 32-byte TOKEN head. -/
def tokenHead (layerId : W32) (sub seg nseg slot token expert src arg : Nat) (gate step : W32) (count : Nat) : List Byte :=
  leBytes layerId.toNat 4 ++ leBytes sub 1 ++ leBytes seg 1 ++ leBytes nseg 1 ++ leBytes slot 1 ++ leBytes token 4 ++
    leBytes expert 2 ++ leBytes src 1 ++ leBytes arg 1 ++ leBytes gate.toNat 4 ++ leBytes step.toNat 4 ++
    leBytes count 4 ++ leBytes 0 4

/-- A TOKEN packet to a Sluice of another chip. -/
def State.tokenPacket (s : State) (p : PartId) (chip : BitVec 15) (dest : Nat) (head data : List Byte) (poison : Bool) : Packet :=
  { mkPacket chip 0x12 2 p (s.pairOf p) dest (head ++ data) with poison := poison }

/-- Segments of a row: offset and length of each. -/
def segCuts (row : Nat) : List (Nat × Nat) :=
  (List.range ((row + 4031) / 4032)).map fun i => (4032 * i, min 4032 (row - 4032 * i))

/-- Bytes written into the view at any offset, metered. -/
def State.slcWrite (s : State) (p : PartId) (off : Nat) (data : List Byte) (poison : Bool) : State :=
  (s.patchView p off data poison .engine (data.length / 64 + 2)).meterMove p off data.length true

/-- Bytes read from the view at any offset, metered. -/
def State.slcRead (s : State) (p : PartId) (off len : Nat) : (List Byte × Bool) × State :=
  let (r, s1) := s.viewBytes p off len
  (r, s1.meterMove p off len false)

/-! ### The send phase (R338) -/

/-- The non-empty slots of a candidate entry: slot, expert, value (R332). -/
def slotsOf (k : Nat) (e : List Byte) : List (Nat × Nat × W32) :=
  (List.range k).filterMap fun j =>
    let v : W32 := BitVec.ofNat 32 (ldNat e (4 * j) 4)
    let x := ldNat e (32 + 4 * j) 4
    if x = 0xFFFFFFFF ∨ (dec32 v.toNat).isNan = true then none else some (j, x, v)

/-- One segment of a route's row sent to another chip. -/
def State.sendSegment (s : State) (n : SluiceId) (l : Layer) (r : Route) (nseg i : Nat) (c : Nat × Nat) : State :=
  let from_ := l.inBase.toNat + r.token * l.rowBytes + c.1
  let ((d, b), s1) := s.slcRead l.part from_ c.2
  let head := tokenHead l.layerId 1 i nseg r.slot r.token r.expert n.val 0 r.gate l.step 0
  let s2 := if b then s1.updLayer n l.id (·.updRoute (l.index r) fun r => { r with poison := true }) else s1
  s2.inject (s2.tokenPacket l.part (s.expertChip r.coord) r.dest head d (b || r.poison))
    (.route n l.id (l.index r)) (some (BitVec.ofNat 64 from_))

/-- One route formed: its placement looked up, counted, and its row dispatched (R338). -/
def State.formRoute (s : State) (n : SluiceId) (id : Nat) (r0 : Route) : State :=
  match s.slayer? n id with
  | none => s
  | some l =>
    let e := s.sluices[n].entry r0.expert
    if !peValid e then s.updLayer n id fun l => { l with routes := l.routes ++ [{ r0 with outcome := some .refusedState }] }
    else
      let cuts := segCuts l.rowBytes
      let here := peCoord e == s.expertCoord s.chip
      let r := { r0 with coord := peCoord e, dest := peSluice e, waits := here, unsettled := if here then 0 else cuts.length }
      let s1 := ((s.updLayer n id fun l => { l with
          routes := l.routes ++ [r], hist := Sparse.put l.hist r.expert (Sparse.getD l.hist r.expert 0 + 1) }).meter
          l.part mTokens 1).updSluice n fun x => { x with routesOut := x.routesOut + 1 }
      if here then s1
      else s1.over cuts.zipIdx fun s c => s.sendSegment n l r cuts.length c.2 c.1

/-- The routes of one token formed in slot order. -/
def State.formToken (s : State) (n : SluiceId) (l : Layer) (t : Nat) : State :=
  let ((e, b), s1) := s.slcRead l.part (l.routeBase.toNat + 256 * t) 256
  let slots := slotsOf l.k e
  let vs := slots.map (·.2.2)
  let s2 := s1.updSluice n fun x => { x with emptySlots := x.emptySlots + BitVec.ofNat 64 (l.k - slots.length) }
  s2.over slots.zipIdx fun s x => s.formRoute n l.id
    { token := t, slot := x.1.1, expert := x.1.2.1, gate := gateOf l.gateMode vs x.2, poison := b }

/-- The send trigger fires (R338). -/
def State.sendLayer (s : State) (n : SluiceId) (l : Layer) : State :=
  (s.updLayer n l.id fun l => { l with formed := true }).over (List.range l.tokens) fun s t => s.formToken n l t

/-! ### Admission (R341 to R343) -/

/-- The local expert of a placement entry that names this Sluice. -/
def State.localExpert (s : State) (n : SluiceId) (expert : Nat) : Option Nat :=
  let e := s.sluices[n].entry expert
  if peValid e && peCoord e == s.expertCoord s.chip && peSluice e == n.val then some (peLocal e) else none

/-- A position taken in an expert's buffer and its record written, or the reason of the refusal (R341, R343). -/
def State.admitRoute (s : State) (n : SluiceId) (l : Layer) (src : BitVec 15) (srcSluice token slot expert : Nat)
    (gate : W32) (fits : Bool) : Except Nat (Nat × Nat) × State :=
  let s1 := s.updLayer n l.id fun l => { l with arrivals := l.arrivals + 1 }
  match s.localExpert n expert with
  | none => (.error 0x16, s1)
  | some loc =>
    let (_, _, meta_, cap) := l.desc.getD loc (0, 0, 0, 0)
    let pos := Sparse.getD l.admitted loc 0
    if !fits then (.error 0x16, s1)
    else if pos < cap then
      let rec_ := leBytes src.toNat 2 ++ leBytes srcSluice 1 ++ leBytes slot 1 ++ leBytes token 4 ++ leBytes gate.toNat 4 ++
        leBytes 0 4
      (.ok (loc, pos), ((s1.updLayer n l.id fun l => { l with admitted := Sparse.put l.admitted loc (pos + 1) }).slcWrite
        l.part (meta_ + 16 * pos) rec_ false).updSluice n fun x => { x with admitted := x.admitted + 1 })
    else
      (.error 0x14, (s1.updLayer n l.id fun l => { l with
        refused := Sparse.put l.refused loc (Sparse.getD l.refused loc 0 + 1) }).updSluice n fun x =>
          { x with refused := x.refused + 1 })

/-- Where a segment of an admitted route stands. -/
def Layer.segPlace (l : Layer) (loc pos seg : Nat) : Nat := (l.desc.getD loc (0, 0, 0, 0)).1 + pos * l.rowBytes + 4032 * seg

/-- A route of this chip handed to a Sluice whose layer is open: its whole row, or its refusal. -/
def State.passLocal (s : State) (n : SluiceId) (l : Layer) (r : Route) : State :=
  let m := sluiceOf r.dest
  match s.layerOf m l.part l.layerId with
  | none => s
  | some d =>
    let i := l.index r
    let s1 := s.updLayer n l.id (·.updRoute i fun r => { r with waits := false })
    match s1.admitRoute m d s.chip n.val r.token r.slot r.expert r.gate (l.rowBytes == d.rowBytes && l.step == d.step) with
    | (.error c, s2) => s2.updLayer n l.id (·.updRoute i fun r => { r with outcome := some (OutcomeCode.ofCode c) })
    | (.ok (loc, pos), s2) =>
      let ((row, b), s3) := s2.slcRead l.part (l.inBase.toNat + r.token * l.rowBytes) l.rowBytes
      let s4 := s3.slcWrite l.part (d.segPlace loc pos 0) row (b || r.poison)
      if b then s4.updLayer n l.id (·.updRoute i fun r => { r with poison := true }) else s4

/-! ### Ends (R344) -/

/-- Is every route to a Sluice dispatched and settled? -/
def Layer.settledTo (l : Layer) (d : Nat × Nat) : Bool :=
  l.routes.all fun r => !(r.coord == d.1 && r.dest == d.2 && r.outcome != some .refusedState) || (r.unsettled == 0 && !r.waits)

/-- Routes dispatched to a Sluice: those whose expert has a valid entry that names it. -/
def Sluice.sentTo (x : Sluice) (l : Layer) (d : Nat × Nat) : Nat :=
  (l.routes.filter fun r => let e := x.entry r.expert; peValid e && peCoord e == d.1 && peSluice e == d.2).length

/-- An END heard. -/
def Layer.hearEnd (l : Layer) (c src count arg : Nat) : Layer :=
  if l.ends.any (fun e => e.1 == c && e.2.1 == src) then l else { l with ends := l.ends ++ [(c, src, count, arg)] }

/-- One END sent, on the chip or off it; a Sluice of this chip whose layer is not open yet has to wait. -/
def State.sendEnd (s : State) (n : SluiceId) (id : Nat) (d : Nat × Nat) : State :=
  match s.slayer? n id with
  | none => s
  | some l =>
    if l.endsTo.contains d || !l.settledTo d then s
    else
      let count := s.sluices[n].sentTo l d
      let mark (s : State) : State := s.updLayer n id fun l => { l with endsTo := l.endsTo ++ [d] }
      if d.1 = s.expertCoord s.chip then
        match s.layerOf (sluiceOf d.2) l.part l.layerId with
        | none => s
        | some e => (mark s).updLayer (sluiceOf d.2) e.id (·.hearEnd d.1 n.val count l.localSenders)
      else
        (mark s).inject (s.tokenPacket l.part (s.expertChip d.1) d.2
          (tokenHead l.layerId 4 0 0 0 0 0 n.val l.localSenders 0 l.step count) [] false) (.layerEnd n id) none

/-- Has every coordinate sent as many ENDs as it announces, and every route they count been admitted or refused? -/
def Layer.allHeard (l : Layer) (D : Nat) : Bool :=
  ((List.range D).all fun c =>
    let es := l.ends.filter fun e => e.1 == c
    !es.isEmpty && es.all fun e => e.2.2.2 == es.length) &&
    decide ((l.ends.map fun e => e.2.2.1).foldl (· + ·) 0 ≤ l.arrivals)

/-- The local expert counts written (R348). -/
def State.writeCounts (s : State) (l : Layer) : State :=
  s.slcWrite l.part (l.countBase.toNat + 0x4000)
    ((List.range 256).flatMap fun i => leBytes (Sparse.getD l.admitted i 0) 4 ++ leBytes (Sparse.getD l.refused i 0) 4) false

/-- Arrival complete at a destination. -/
def State.tryArrive (s : State) (n : SluiceId) (id : Nat) : State :=
  match s.slayer? n id with
  | none => s
  | some l =>
    if l.arrived || l.cause.isSome || !l.allHeard s.expertSize then s
    else ((s.updLayer n id fun l => { l with arrived := true }).writeCounts l).raiseNamed l.arriveCore l.arriveCtr true

/-! ### Returns (R345) -/

/-- A returned segment staged at the source; with the last one the route has its outcome. -/
def State.stageSegment (s : State) (n : SluiceId) (l : Layer) (token slot seg : Nat) (data : List Byte) (poison : Bool) : State :=
  let i := token * l.k + slot
  match l.routes.find? fun r => l.index r == i && r.outcome.isNone with
  | none => s
  | some _ =>
    let s1 := s.slcWrite l.part (l.stageBase.toNat + i * l.outBytes + 4032 * seg) data poison
    s1.updLayer n l.id (·.updRoute i fun r =>
      let st := addTo r.staged seg
      let bad := r.poison || poison
      { r with staged := st, poison := bad,
               outcome := if st.length = (segCuts l.outBytes).length then some (if bad then .failedPoison else .done) else none })

/-- The global number of a local expert, as the placement table gives it. -/
def State.expertOf (s : State) (n : SluiceId) (loc : Nat) : Nat :=
  ((s.sluices[n].table.find? fun e =>
    peValid e.2 && peCoord e.2 == s.expertCoord s.chip && peSluice e.2 == n.val && peLocal e.2 == loc).map (·.1)).getD 0

/-- One admitted position returned to its source. -/
def State.returnRow (s : State) (n : SluiceId) (l : Layer) (loc pos : Nat) : State :=
  let (_, out, meta_, _) := l.desc.getD loc (0, 0, 0, 0)
  let ((m, mb), s1) := s.slcRead l.part (meta_ + 16 * pos) 16
  let chip : BitVec 15 := BitVec.ofNat 15 (ldNat m 0 2)
  let src := ldNat m 2 1
  let slot := ldNat m 3 1
  let token := ldNat m 4 4
  let cuts := segCuts l.outBytes
  s1.over cuts.zipIdx fun s c =>
    let from_ := out + pos * l.outBytes + c.1.1
    let ((d, b), s2) := s.slcRead l.part from_ c.1.2
    if chip = s.chip then
      match s2.layerOf (sluiceOf src) l.part l.layerId with
      | some x => s2.stageSegment (sluiceOf src) x token slot c.2 d (b || mb)
      | none => s2
    else
      let head := tokenHead l.layerId 2 c.2 cuts.length slot token (s.expertOf n loc) src 0
        (BitVec.ofNat 32 (ldNat m 8 4)) l.step 0
      (s2.updLayer n l.id fun l => { l with returnsLeft := l.returnsLeft + 1 }).inject
        (s2.tokenPacket l.part chip src head d (b || mb)) (.ret n l.id) (some (BitVec.ofNat 64 from_))

/-- The return trigger fires: every admitted position in ascending order. -/
def State.returnLayer (s : State) (n : SluiceId) (l : Layer) : State :=
  let all := l.admitted.flatMap fun e => (List.range e.2).map fun i => (e.1, i)
  (s.updLayer n l.id fun l => { l with returned := true }).over all fun s x => s.returnRow n l x.1 x.2

/-! ### The combine (R346) and route records (R347) -/

/-- The FP32 patterns of a row in the format of a layer, and a pattern in that format. -/
def rowElems (fmt : Nat) (d : List Byte) : List Nat :=
  if fmt = 7 then (blockElems 2 d).map fun x => x * 65536 else blockElems 4 d

def rowBytesOf (fmt : Nat) (sat : Bool) (xs : List Nat) : List Byte :=
  if fmt = 7 then blockBytes 2 (xs.map fun x => (convert .bf16 sat .rne (dec32 x)).1) else blockBytes 4 xs

/-- Has a row an element that is not finite? -/
def rowNonfinite (fmt : Nat) (d : List Byte) : Bool :=
  (rowElems fmt d).any fun x => (dec32 x).isNan || (dec32 x).isInf

/-- One DONE route folded into the accumulators of its token. -/
def combineStep (sat : Bool) (g : Nat) (acc xs : List Nat) : List Nat :=
  (acc.zip xs).map fun e => (arith32 sat .rne (ffma (dec32 g) (dec32 e.2) (dec32 e.1))).1

/-- The combined row of a token from the gates and staged rows of its DONE routes, in slot order. -/
def combineRow (sat renorm : Bool) (n : Nat) (rs : List (W32 × List Nat)) : List Nat :=
  let sum := rs.foldl (fun a r => (add32 sat a r.1.toNat).1) 0
  let use := renorm && !(dec32 sum).isZero
  rs.foldl (fun acc r => combineStep sat (if use then (div32 sat r.1.toNat sum).1 else r.1.toNat) acc r.2)
    (List.replicate n 0)

/-- The staged rows of a token's routes: a route whose staged row reads poisoned has failed. -/
def State.readStaged (s : State) (n : SluiceId) (l : Layer) : List Route → List (W32 × List Nat) × State
  | [] => ([], s)
  | r :: rs =>
    if r.outcome = some .done then
      let ((d, b), s1) := s.slcRead l.part (l.stageBase.toNat + l.index r * l.outBytes) l.outBytes
      if b then
        State.readStaged (s1.updLayer n l.id (·.updRoute (l.index r) fun r => { r with outcome := some .failedPoison })) n l rs
      else
        let (xs, s2) := State.readStaged s1 n l rs
        ((r.gate, rowElems l.outFmt d) :: xs, s2)
    else State.readStaged s n l rs

/-- The record of a route (R347). -/
def Layer.routeRecord (l : Layer) (r : Route) (o : OutcomeCode) : Record :=
  { tag := l.tagBase + BitVec.ofNat 64 (l.index r), step := l.step, outcome := o, engine := 0x06, partition := l.part,
    detail0 := place r.token 32 32 ||| place r.expert 16 16 ||| place r.slot 8 8 ||| place r.coord 0 8,
    incident := if l.cause = some o then l.incident else 0 }

/-- One route's record written to the record area, or to the orphan store where that cannot be written (R395). -/
def State.writeRouteRecord (s : State) (n : SluiceId) (l : Layer) (r : Route) : State :=
  let c := l.routeRecord r (r.outcome.getD .done)
  let off := l.recBase.toNat + 32 * l.index r
  let s1 := if s.viewGone l.part (off / 64 * 64) 1 then s.orphan l.part c [] else s.slcWrite l.part off (c.bytes true) false
  s1.updLayer n l.id (·.updRoute (l.index r) fun r => { r with recorded := true })

/-- A token that is complete: its combined row, then the records of its routes. -/
def State.combineToken (s : State) (n : SluiceId) (id t : Nat) : State :=
  match s.slayer? n id with
  | none => s
  | some l =>
    let rs := l.routes.filter fun r => r.token == t
    if !l.formed || l.combined.contains t || !(rs.all fun r => r.outcome.isSome) then s
    else
      let sat := s.parts[l.part].fmt.ovmode != 2
      let (xs, s1) := s.readStaged n l rs
      match s1.slayer? n id with
      | none => s1
      | some l1 =>
        let rs1 := l1.routes.filter fun r => r.token == t
        let row := rowBytesOf l.outFmt sat (combineRow sat l.renorm (l.outBytes / (if l.outFmt = 7 then 2 else 4)) xs)
        let bad := rs1.any fun r => r.outcome == some .failedPoison
        let s2 := (s1.slcWrite l.part (l.combBase.toNat + t * l.outBytes) row bad).updSluice n fun x =>
          if rowNonfinite l.outFmt row then { x with nonfinite := x.nonfinite + 1 } else x
        (s2.over rs1 fun s r => s.writeRouteRecord n l1 r).updLayer n id fun l => { l with combined := addTo l.combined t }

/-! ### The end of a layer (R348, R349) -/

/-- The failures of a layer other than FAILED_CAPACITY and REFUSED_STATE. -/
def Layer.failures (l : Layer) : List OutcomeCode :=
  l.routes.filterMap fun r => match r.outcome with
    | some .done | some .failedCapacity => none
    | o => o

/-- The outcome of a layer's record with its cause mask. -/
def Layer.outcome (l : Layer) : OutcomeCode × BitVec 7 :=
  let fs := (l.failures.filter (· != .refusedState)) ++ l.cause.toList
  let r := fs.foldl (fun (a : Option OutcomeCode × BitVec 7) o => addCause a.1 a.2 o) (none, 0)
  (r.1.getD .done, r.2)

/-- detail0 of a layer's record. -/
def Layer.detail (l : Layer) : Nat :=
  let cnt (f : Option OutcomeCode → Bool) : Nat := (l.routes.filter fun r => f r.outcome).length
  (satAdd 32 (cnt (· == some .done)) 0 <<< 32) + (satAdd 16 (cnt (· == some .failedCapacity)) 0 <<< 16) +
    satAdd 16 l.failures.length 0

/-- A layer whose routes are all recorded and whose destination part has ended: histogram, record, done counter. -/
def State.tryEndLayer (s : State) (n : SluiceId) (id : Nat) : State :=
  match s.slayer? n id with
  | none => s
  | some l =>
    if !l.formed || !l.destDone || l.combined.length < l.tokens then s
    else
      let s1 := s.slcWrite l.part l.countBase.toNat
        ((List.range 4096).flatMap fun e => leBytes (Sparse.getD l.hist e 0) 4) false
      let (o, causes) := l.outcome
      (s1.updSluice n fun x => { x with
          layers := x.layers.filter fun d => d.id != id
          progress := x.progress.filter fun r => r.layerId != l.layerId }).post l.part
        { tag := l.tag, step := l.step, outcome := o, engine := 0x06, partition := l.part,
          detail0 := BitVec.ofNat 64 l.detail, incident := l.incident, causes := causes, sluice := some n
          done := namedCtr l.doneCore l.doneCtr } l.raiseV0

/-- A layer closed by an outcome (R349): every route not yet final ends with it, its destination part ends, and an
arrival that had not completed raises its counter with its fail count. -/
def State.closeLayer (s : State) (n : SluiceId) (id : Nat) (o : OutcomeCode) (inc : W32) : State :=
  match s.slayer? n id with
  | none => s
  | some l =>
    let s1 := s.updLayer n id fun l => { l with
      formed := true, destDone := true, cause := if l.cause.isSome then l.cause else some o, incident := inc
      routes := l.routes.map fun r => if r.outcome.isNone then { r with outcome := some o, waits := false } else r }
    if l.arrived then s1 else (s1.writeCounts l).raiseNamed l.arriveCore l.arriveCtr false

/-- ABANDON sent to every other Sluice that the placement table names (R349); ABORTED_RESET goes as FAILED_LINK. -/
def State.sendAbandon (s : State) (n : SluiceId) (l : Layer) (o : OutcomeCode) (inc : W32) : State :=
  let o1 := if o = .abortedReset then .failedLink else o
  s.over (s.sluices[n].named.filter fun d => d != (s.expertCoord s.chip, n.val)) fun s d =>
    if d.1 = s.expertCoord s.chip then
      match s.layerOf (sluiceOf d.2) l.part l.layerId with
      | some e => s.closeLayer (sluiceOf d.2) e.id o1 inc
      | none => s
    else
      s.inject (s.tokenPacket l.part (s.expertChip d.1) d.2
        (tokenHead l.layerId 5 0 0 0 0 0 n.val o1.code 0 l.step 0) [] false) .none none

/-- A layer that fails here: ABANDON goes out, and the layer closes. -/
def State.failLayer (s : State) (n : SluiceId) (l : Layer) (o : OutcomeCode) (inc : W32) : State :=
  (s.sendAbandon n l o inc).closeLayer n l.id o inc

/-! ### Bringing layers forward -/

/-- The next layer that waits for one of the four places of its partition (R336); a layer whose record waits here keeps
its place (R124). -/
def State.openNext (s : State) (n : SluiceId) : State :=
  match s.sluices[n].waiting with
  | [] => s
  | l :: r =>
    if (s.sluices[n].layers.filter fun x => x.part == l.part).length +
        (s.parts[l.part].cq.waiting.filter fun e => e.1.sluice == some n).length < 4 then
      s.updSluice n fun x => { x with waiting := r, layers := x.layers ++ [l] }
    else s

/-- What one layer can do now. -/
def State.advanceLayer (s : State) (n : SluiceId) (id : Nat) : State :=
  match s.slayer? n id with
  | none => s
  | some l =>
    let s1 := s.over (l.routes.filter (·.waits)) fun s r => s.passLocal n l r
    let s2 := if l.formed && l.cause.isNone then s1.over (s1.sluices[n].named) fun s d => s.sendEnd n id d else s1
    let s3 := s2.tryArrive n id
    let s4 := s3.updLayer n id fun l => { l with destDone := l.destDone || (l.returned && l.returnsLeft == 0) }
    (s4.over (List.range l.tokens) fun s t => s.combineToken n id t).tryEndLayer n id

/-- Every layer of every Sluice brought forward, `fuel` rounds. -/
def State.sluicePass (s : State) : Nat → State
  | 0 => s
  | fuel + 1 =>
    let s1 := s.over (allFin 4) fun s n => s.over (s.sluices[n].layers.map (·.id)) fun s id => s.advanceLayer n id
    State.sluicePass (s1.over (allFin 4) fun s n => s.openNext n) fuel

/-- Rounds enough for what one event can set going: locals, ENDs, arrivals, and layers that wait. -/
def passRounds : Nat := 4

/-! ### Packets settled -/

/-- A DISPATCH packet of a route settled (R344, R349). -/
def State.settleRoute (s : State) (n : SluiceId) (id index : Nat) (o : OutcomeCode) : State :=
  match s.slayer? n id with
  | none => s
  | some l =>
    if o = .done then
      (s.updLayer n id (·.updRoute index fun r => { r with unsettled := r.unsettled - 1 })).sluicePass passRounds
    else
      ((s.updLayer n id (·.updRoute index fun r =>
          { r with unsettled := 0, outcome := if r.outcome.isNone then some o else r.outcome })).failLayer n l o 0).sluicePass passRounds

/-- An END or a REFUSE settled. -/
def State.settleLayerEnd (s : State) (n : SluiceId) (id : Nat) (o : OutcomeCode) : State :=
  match s.slayer? n id with
  | none => s
  | some l => if o = .done then s else (s.failLayer n l o 0).sluicePass passRounds

/-- A RETURN settled. -/
def State.settleReturn (s : State) (n : SluiceId) (id : Nat) (o : OutcomeCode) : State :=
  match s.slayer? n id with
  | none => s
  | some l =>
    if o = .done then (s.updLayer n id fun l => { l with returnsLeft := l.returnsLeft - 1 }).sluicePass passRounds
    else (s.failLayer n l o 0).sluicePass passRounds

/-! ### Partitions that stop -/

/-- A layer that waits for its place ended: it has no routes, and its done counter follows its record (R336, R348; log 34). -/
def State.endWaitingLayer (s : State) (l : Layer) (o : OutcomeCode) (inc : W32) : State :=
  s.post l.part { tag := l.tag, step := l.step, outcome := o, engine := 0x06, partition := l.part, incident := inc
                  done := namedCtr l.doneCore l.doneCtr } l.raiseV0

/-- STOP over the layers of a partition (R350, R89): those not in their return phase close with FAILED_TIMEOUT, and
those that wait complete with REFUSED_STATE. -/
def State.stopSluices (s : State) (p : PartId) (inc : W32) : State :=
  let s1 := s.over (allFin 4) fun s n =>
    let w := s.sluices[n].waiting.filter fun l => l.part == p
    let s1 := (s.updSluice n fun x => { x with waiting := x.waiting.filter fun l => l.part != p }).over w fun s l => s.endWaitingLayer l .refusedState 0
    s1.over (s1.sluices[n].layers.filter fun l => l.part == p && !l.returned && l.cause.isNone) fun s l =>
      s.closeLayer n l.id .failedTimeout inc
  s1.sluicePass passRounds

end Sys2Proof.Machine
end

