-- ==== Sys2Proof/Machine/Sluice.lean ====
section
/-! DEFINITION. The family of Sluice commands (14 R334 to R351): SLUICE capsules, the triggers of a layer, TOKEN packets,
and the limit. A capsule with an op outside the table is completed by PLACE. -/

namespace Sys2Proof.Machine

/-! ### PLACE (R334) -/

/-- The words of a placement table. -/
def tableWords (d : List Byte) (n : Nat) : List (Nat × W32) :=
  (List.range n).map fun e => (e, BitVec.ofNat 32 (ldNat d (4 * e) 4))

/-- Checks 4 to 6 of R334 on the entries with valid 1. -/
def State.tableCheck (s : State) (p : PartId) (ws : List (Nat × W32)) : Option (OutcomeCode × Nat) :=
  let vs := (ws.map (·.2)).filter peValid
  let here := vs.filter fun w => peCoord w == s.expertCoord s.chip
  if vs.any fun w => !peReserved w || decide (s.expertSize ≤ peCoord w) then some (.refusedState, 4)
  else if here.any fun w => !s.sluicePresent (peSluice w) then some (.refusedAbsent, 0)
  else if here.any fun w => !s.parts[p].im.img.sluiceMask.testBit (peSluice w) then some (.refusedOwner, 0)
  else none

/-- The checks of R10 on the Sluice a capsule targets. -/
def State.sluiceTarget (s : State) (p : PartId) (t : Nat) : Option OutcomeCode :=
  if !s.sluicePresent t then some .refusedAbsent
  else if !s.parts[p].im.img.sluiceMask.testBit t then some .refusedOwner
  else none

/-- A PLACE capsule. -/
def State.placeCapsule (s : State) (p : PartId) (c : Capsule) : State :=
  let count := c.field 2 2
  let off := c.field 8 8
  let fail (o : OutcomeCode) (d : Nat) (s : State) : State := s.capDone p c 0x06 o d
  if c.body.length != 128 || !c.noParams || c.field 0 1 != 1 || c.field 1 1 != 0 || !zeroBytes c.body 4 4 ||
      !zeroBytes c.body 16 112 || decide (4 ≤ c.target) || decide (4096 < count) then s.capBad p c 4
  else
    match s.sluiceTarget p c.target with
    | some o => fail o 0 s
    | none =>
      if (s.viewCheck p off (4 * count)).isSome then fail .refusedOwner 0 s
      else
        let ((d, _), s1) := s.slcRead p off (4 * count)
        let ws := tableWords d count
        match s1.tableCheck p ws with
        | some (o, k) => fail o k s1
        | none =>
          let n := sluiceOf c.target
          if !kindRuns (s1.capState p) kSluice false || !s1.sluices[n].layers.isEmpty then fail .refusedState 0 s1
          else
            fail .done 0 (s1.updSluice n fun x => { x with
              placed := true, tableCount := count, table := ws.filter fun e => e.2 != 0 })

/-- PLACE (R334). -/
def execPlace (p : PartId) (s : State) : Out :=
  .next (s.withCapsule p kSluice (fun c => c.field 0 1 != 2) fun s c => s.placeCapsule p c)

/-! ### LAYER (R335, R336) -/

/-- The layer a body spells. -/
def parseLayer (id : Nat) (p : PartId) (c : Capsule) : Layer :=
  let f := c.field
  let w (a : Nat) : W64 := BitVec.ofNat 64 (f a 8)
  let limit := f 0x54 4
  { id := id, layerId := BitVec.ofNat 32 (f 4 4), part := p, tag := c.tag, step := c.step, raiseV0 := c.v0, k := f 1 1,
    gateMode := f 2 1, renorm := f 3 1 == 1, tokens := f 8 4, rowBytes := f 0x0C 2, outBytes := f 0x0E 2,
    routeBase := w 0x10, inBase := w 0x18, combBase := w 0x20, stageBase := w 0x28, recBase := w 0x30,
    countBase := w 0x38, expBase := w 0x40, tagBase := w 0x48, outFmt := f 0x50 1, localSenders := f 0x51 1,
    limitAt := c.takenAt + 1000 * (if limit = 0 then 100000 else limit), sendCore := f 0x58 1, sendCtr := f 0x59 1,
    sendVal := BitVec.ofNat 32 (f 0x5C 4), retCore := f 0x60 1, retCtr := f 0x61 1, retVal := BitVec.ofNat 32 (f 0x64 4),
    arriveCore := f 0x68 1, arriveCtr := f 0x69 1, doneCore := f 0x6A 1, doneCtr := f 0x6B 1 }

/-- A row length of R335. -/
def rowOk (n : Nat) : Bool := decide (64 ≤ n ∧ n ≤ 32256) && n % 64 == 0

/-- The base ranges of a layer: offset and length, and whether the Sluice writes them. -/
def Layer.ranges (l : Layer) : List (Nat × Nat × Bool) :=
  [(l.routeBase.toNat, 256 * l.tokens, false), (l.inBase.toNat, l.tokens * l.rowBytes, false),
   (l.combBase.toNat, l.tokens * l.outBytes, true), (l.stageBase.toNat, l.tokens * l.k * l.outBytes, true),
   (l.recBase.toNat, 32 * l.tokens * l.k, true), (l.countBase.toNat, 18432, true), (l.expBase.toNat, 8192, false)]

/-- A base of R335: aligned, in the wells range or in core memory. -/
def baseOk (a : Nat) : Bool := a % 64 == 0 && (decide (a < wellsEnd) || decide (coreBase ≤ a ∧ a < coreEnd))

/-- Codes and values of a LAYER body, reserved fields zero (R335, R336). -/
def State.layerCodes (s : State) (p : PartId) (c : Capsule) (l : Layer) : Bool :=
  c.body.length == 128 && c.noParams && decide (c.target < 4) && decide (1 ≤ l.k ∧ l.k ≤ 8) && decide (l.gateMode ≤ 2) &&
    decide (c.field 3 1 ≤ 1) && l.layerId != 0 && decide (l.tokens ≤ 1048576) && rowOk l.rowBytes && rowOk l.outBytes &&
    (l.outFmt == 7 || l.outFmt == 9) && decide (1 ≤ l.localSenders ∧ l.localSenders ≤ 4) && zeroBytes c.body 0x52 2 &&
    zeroBytes c.body 0x5A 2 && zeroBytes c.body 0x62 2 && zeroBytes c.body 0x6C 20 && (l.ranges.all fun r => baseOk r.1) &&
    s.collCore p l.sendCore l.sendCtr && s.collCore p l.retCore l.retCtr && l.retCore != 0xFF &&
    s.collCore p l.arriveCore l.arriveCtr && s.collCore p l.doneCore l.doneCtr

/-- The first `k` groups of `n` bytes of a list. -/
def chunks (n : Nat) : Nat → List Byte → List (List Byte)
  | 0, _ => []
  | k + 1, l => l.take n :: chunks n k (l.drop n)

/-- The local expert descriptors of a layer: none where one is unreadable or out of range (R336). -/
def State.descriptors (s : State) (p : PartId) (l : Layer) : Option (List (Nat × Nat × Nat × Nat)) × State :=
  let ((d, b), s1) := s.slcRead p l.expBase.toNat 8192
  let one (e : List Byte) : Nat × Nat × Nat × Nat := (ldNat e 0 8, ldNat e 8 8, ldNat e 16 8, ldNat e 24 4)
  let ok (e : List Byte) : Bool :=
    let (a, o, m, cap) := one e
    decide (cap ≤ 65535) && ldNat e 28 4 == 0 &&
      (cap == 0 || ((s.viewCheck p a (cap * l.rowBytes)).isNone && (s.viewCheck p o (cap * l.outBytes)).isNone &&
        (s.viewCheck p m (16 * cap)).isNone))
  let l := chunks 32 256 d
  (if !b && l.all ok then some (l.map one) else none, s1)

/-- Does a range that the layer writes meet a protected region (R386)? -/
def State.layerProtected (s : State) (p : PartId) (l : Layer) : Bool :=
  (l.ranges.any fun r => s.protected? p r.1 r.2.1) ||
    l.desc.any fun d => d.2.2.2 != 0 && (s.protected? p d.1 (d.2.2.2 * l.rowBytes) ||
      s.protected? p d.2.1 (d.2.2.2 * l.outBytes) || s.protected? p d.2.2.1 (16 * d.2.2.2))

/-- The members of a layer that are other chips. -/
def State.layerChips (s : State) : List (BitVec 15) :=
  ((List.range s.expertSize).map s.expertChip).filter fun c => c != s.chip

/-- A LAYER capsule. -/
def State.layerCapsule (s : State) (p : PartId) (c : Capsule) : State :=
  let (id, s1) := s.newItem
  let l := parseLayer id p c
  let fail (o : OutcomeCode) (d : Nat) (s : State) : State := s.capDoneBy p c 0x06 o d l.doneCore l.doneCtr
  if !s.layerCodes p c l then s.capBad p c 4
  else
    match s.sluiceTarget p c.target with
    | some o => fail o 0 s
    | none =>
      let n := sluiceOf c.target
      let x := s.sluices[n]
      if (x.layers ++ x.waiting).any (fun d => d.part == p && d.layerId == l.layerId) || !x.placed then s.capBad p c 4
      else if l.ranges.any fun r => (s.viewCheck p r.1 r.2.1).isSome then fail .refusedOwner 0 s
      else
        match s1.descriptors p l with
        | (none, s2) => s2.capBad p c 4
        | (some d, s2) =>
          let l1 := { l with desc := d }
          if !kindRuns (s.capState p) kSluice false then fail .refusedState 0 s2
          else if s.layerProtected p l1 then fail .refusedState 4 s2
          else if s.fabric.selfFenced || s.layerChips.any s.isFenced then fail .failedFenced 0 s2
          else ((s2.updSluice n fun x => { x with waiting := x.waiting ++ [l1] }).openNext n).sluicePass passRounds

/-- LAYER (R336). -/
def execLayer (p : PartId) (s : State) : Out :=
  .next (s.withCapsule p kSluice (fun c => c.field 0 1 == 2) fun s c => s.layerCapsule p c)

/-! ### Triggers and the limit -/

/-- The open layer of a Sluice that an identifier names. -/
def State.layerNamed (s : State) (n : SluiceId) (layerId : W32) : Option Layer :=
  s.sluices[n].layers.find? fun l => l.layerId == layerId

/-- SLUICE_SEND_TRIGGER (R338). -/
def execSluiceSendTrigger (n : SluiceId) (layerId : W32) (s : State) : Out :=
  .next <|
    match s.layerNamed n layerId with
    | some l =>
      if !l.formed && s.trigDue l.sendCore l.sendCtr l.sendVal then (s.sendLayer n l).sluicePass passRounds else s
    | none => s

/-- SLUICE_RETURN_TRIGGER (R345): after arrival. -/
def execSluiceReturnTrigger (n : SluiceId) (layerId : W32) (s : State) : Out :=
  .next <|
    match s.layerNamed n layerId with
    | some l =>
      if l.arrived && !l.returned && !l.destDone && s.trigDue l.retCore l.retCtr l.retVal then
        (s.returnLayer n l).sluicePass passRounds
      else s
    | none => s

/-- SLUICE_LIMIT_EXPIRY (R349): an open layer fails; one that still waits completes FAILED_TIMEOUT. -/
def execSluiceLimitExpiry (n : SluiceId) (layerId : W32) (atNs : Nat) (s : State) : Out :=
  .next <|
    let s1 := s.advanceTo atNs
    match s1.layerNamed n layerId with
    | some l => if l.limitAt ≤ s1.timeNs then (s1.failLayer n l .failedTimeout 0).sluicePass passRounds else s1
    | none =>
      match s1.sluices[n].waiting.find? fun l => l.layerId == layerId with
      | some l =>
        if l.limitAt ≤ s1.timeNs then
          (s1.updSluice n fun x => { x with waiting := x.waiting.filter fun d => d.id != l.id }).endWaitingLayer l .failedTimeout 0
        else s1
      | none => s1

/-! ### TOKEN packets -/

/-- Fields of a TOKEN head. -/
def tkLayer (k : Packet) : W32 := BitVec.ofNat 32 (ldNat k.payload 0 4)
def tkSub (k : Packet) : Nat := ldNat k.payload 4 1
def tkSeg (k : Packet) : Nat := ldNat k.payload 5 1
def tkNseg (k : Packet) : Nat := ldNat k.payload 6 1
def tkSlot (k : Packet) : Nat := ldNat k.payload 7 1
def tkToken (k : Packet) : Nat := ldNat k.payload 8 4
def tkExpert (k : Packet) : Nat := ldNat k.payload 12 2
def tkSrc (k : Packet) : Nat := ldNat k.payload 14 1
def tkArg (k : Packet) : Nat := ldNat k.payload 15 1
def tkGate (k : Packet) : W32 := BitVec.ofNat 32 (ldNat k.payload 16 4)
def tkStep (k : Packet) : W32 := BitVec.ofNat 32 (ldNat k.payload 20 4)
def tkCount (k : Packet) : Nat := ldNat k.payload 24 4

/-- The Sluice a TOKEN packet names. -/
def tkSluice (k : Packet) : SluiceId := sluiceOf (bits k.addr 0 2)

/-- The checks of R307 and R343 on a TOKEN packet. -/
def State.tokenRefusal (s : State) (k : Packet) : Option Nat :=
  s.destRefusal k
    (if s.sluicePresent (tkSluice k).val && s.parts[k.dstPart].im.img.sluiceMask.testBit (tkSluice k).val then none
      else some .refusedOwner)

/-- A TOKEN packet of one kind taken in: given to its meaning with the layer it is for, or discarded where that layer is
not open (R343). The meaning marks it delivered. -/
def State.takeToken (s : State) (n : PortId) (k : Packet) (trailer : W64) (sub : Nat)
    (f : State → SluiceId → Layer → State) : State :=
  if s.mine n k && k.kind == 0x12 && tkSub k == sub then
    let (ok, s1) := s.arrive n k trailer fun s => s.tokenRefusal k
    if !ok then s1
    else
      match s1.layerOf (tkSluice k) k.dstPart (tkLayer k) with
      | none => s1.updSluice (tkSluice k) fun x => { x with earlyDrops := satAdd 32 x.earlyDrops 1 }
      | some l => (f (s1.wakeBy k) (tkSluice k) l).sluicePass passRounds
  else s

/-- Is a route in progress the one of a packet? -/
def sameRoute (k : Packet) (r : InRoute) : Bool :=
  r.layerId == tkLayer k && r.srcChip == k.src.toNat && r.srcSluice == tkSrc k && r.token == tkToken k && r.slot == tkSlot k

/-- A segment of a route in progress: written or discarded; its last segment ends the entry. -/
def State.landSegment (s : State) (n : SluiceId) (l : Layer) (k : Packet) (r : InRoute) : State :=
  let s1 := if r.refused then s
    else s.slcWrite l.part (l.segPlace r.loc r.pos (tkSeg k)) (k.payload.drop 32) k.poison
  let r1 := { r with segs := addTo r.segs (tkSeg k) }
  s1.updSluice n fun x => { x with
    progress := (x.progress.filter fun q => !sameRoute k q) ++ (if r1.segs.length < tkNseg k then [r1] else []) }

/-- Does a DISPATCH match its layer (R343)? -/
def Layer.matches? (l : Layer) (k : Packet) : Bool :=
  let cuts := segCuts l.rowBytes
  tkStep k == l.step && tkNseg k == cuts.length &&
    match cuts[tkSeg k]? with | some c => k.payload.length == 32 + c.2 | none => false

/-- A DISPATCH refused (R343): its segment is discarded, and its source gets a REFUSE with the reason. -/
def State.refuseDispatch (s : State) (n : SluiceId) (l : Layer) (k : Packet) (r : InRoute) (c : Nat) : State :=
  let s1 := (s.landSegment n l k { r with refused := true }).markDelivered k
  s1.inject (s1.tokenPacket l.part k.src (tkSrc k)
    (tokenHead l.layerId 3 0 0 (tkSlot k) (tkToken k) (tkExpert k) (tkSrc k) c (tkGate k) l.step 0) [] false)
    (.layerEnd n l.id) none

/-- A DISPATCH taken by the admission unit (R341, R343). -/
def State.landDispatch (s : State) (n : SluiceId) (l : Layer) (k : Packet) : State :=
  match s.sluices[n].progress.find? (sameRoute k) with
  | some r => if r.refused || l.matches? k then (s.landSegment n l k r).markDelivered k else s.refuseDispatch n l k r 0x16
  | none =>
    if 4096 ≤ s.sluices[n].progress.length then
      s.updSluice n fun x => { x with tableDrops := satAdd 32 x.tableDrops 1 }
    else
      let e : InRoute := { layerId := l.layerId, srcChip := k.src.toNat, srcSluice := tkSrc k, token := tkToken k,
                           slot := tkSlot k, refused := false, loc := 0, pos := 0, segs := [] }
      match s.admitRoute n l k.src (tkSrc k) (tkToken k) (tkSlot k) (tkExpert k) (tkGate k) (l.matches? k) with
      | (.ok (loc, pos), s1) => (s1.landSegment n l k { e with loc := loc, pos := pos }).markDelivered k
      | (.error c, s1) => s1.refuseDispatch n l k e c

/-- DISPATCH (R341, R343). -/
def execDispatch (n : PortId) (k : Packet) (trailer : W64) (s : State) : Out :=
  .next (s.takeToken n k trailer 1 fun s m l => s.landDispatch m l k)

/-- REFUSE (R341, R347): the route has its outcome. -/
def execRefuse (n : PortId) (k : Packet) (trailer : W64) (s : State) : Out :=
  .next (s.takeToken n k trailer 3 fun s m l =>
    (s.updLayer m l.id (·.updRoute (tkToken k * l.k + tkSlot k) fun r =>
      { r with outcome := if r.outcome.isNone then some (OutcomeCode.ofCode (tkArg k)) else r.outcome })).markDelivered k)

/-- TOKEN_END (R344). -/
def execTokenEnd (n : PortId) (k : Packet) (trailer : W64) (s : State) : Out :=
  .next (s.takeToken n k trailer 4 fun s m l =>
    (s.updLayer m l.id (·.hearEnd (s.expertCoord k.src) (tkSrc k) (tkCount k) (tkArg k))).markDelivered k)

/-- TOKEN_RETURN (R345, R346). -/
def execTokenReturn (n : PortId) (k : Packet) (trailer : W64) (s : State) : Out :=
  .next (s.takeToken n k trailer 2 fun s m l =>
    (s.stageSegment m l (tkToken k) (tkSlot k) (tkSeg k) (k.payload.drop 32) k.poison).markDelivered k)

/-- TOKEN_ABANDON (R349): nothing is forwarded. -/
def execTokenAbandon (n : PortId) (k : Packet) (trailer : W64) (s : State) : Out :=
  .next (s.takeToken n k trailer 5 fun s m l =>
    (s.closeLayer m l.id (OutcomeCode.ofCode (tkArg k)) 0).markDelivered k)

end Sys2Proof.Machine
end

