-- ==== Sys2Proof/Machine/Settle.lean ====
section
/-! DEFINITION. Packets settled at their source (12 R303 to R306), and the packets of transfers and signals applied at
their destination (12 R302, R304, R307; 07 R170, R175). -/

namespace Sys2Proof.Machine

/-! ### At the source -/

/-- What a settled packet means for its item. -/
def State.settleItem (s : State) (o : OutPacket) (r : OutcomeCode) : State :=
  match o.item with
  | .xfer id => s.settleXfer id r o.pkt o.from_
  | .coll a id => s.settleColl a id r
  | .atomic a id => s.settleAtomic a id r
  | .route n id index => s.settleRoute n id index r
  | .layerEnd n id => s.settleLayerEnd n id r
  | .ret n id => s.settleReturn n id r
  | .none => s

/-- A packet acknowledged: it leaves its stream, and its item is one packet nearer its end. -/
def State.settleOk (s : State) (key : Nat) (o : OutPacket) : State := (s.unlist key o.pkt.psn).settleItem o .done

/-- A packet that failed: later ordered packets of its stream go again (R303). -/
def State.settleFail (s : State) (key : Nat) (o : OutPacket) (r : OutcomeCode) : State :=
  ((s.unlist key o.pkt.psn).resendOrdered key o.pkt.psn).settleItem o r

/-- Does an ACK cover a psn (R304)? -/
def ackCovers (cum : W32) (bitmap : Nat) (psn : W32) : Bool :=
  seqLt psn cum || (let d := (psn - cum).toNat; decide (1 ≤ d) && decide (d ≤ 128) && bitmap.testBit (d - 1))

/-- The packets of a stream that an ACK settles: all it covers but READ_REQ and CONTROL, which
READ_DATA and CONTROL_REPLY acknowledge (R291). -/
def State.ackPackets (s : State) (key : Nat) (cum : W32) (bitmap : Nat) : State :=
  s.over ((s.srcStream key).out.filter fun o => o.pkt.kind != 0x02 && o.pkt.kind != 0x09 && ackCovers cum bitmap o.pkt.psn) fun s o => s.settleOk key o

/-- The next attempt of a packet, at the time it was due (R305). -/
def State.nextAttempt (s : State) (key : Nat) (o : OutPacket) (at_ : Nat) : State :=
  let a := o.pkt.attempt.toNat + 1
  s.resend key { o with pkt := { o.pkt with attempt := BitVec.ofNat 3 a }, nextAt := at_ + waitAfter a }

/-- A packet whose wait has ended: sent again, or failed with FAILED_LINK after its seventh attempt (R305). -/
def State.waitEnded (s : State) (key : Nat) (o : OutPacket) : State :=
  if o.pkt.attempt = 7 then
    (s.updFabric fun f => { f with failed := satAdd 24 f.failed 1 }).settleFail key o .failedLink
  else s.nextAttempt key o o.nextAt

/-- A NAK's effect on the packet it names (R304). -/
def State.nakPacket (s : State) (key : Nat) (o : OutPacket) (code : Nat) : State :=
  match code with
  | 0x00 => if o.pkt.attempt = 7 then s else s.nextAttempt key o s.timeNs
  | 0x15 => s.settleFail key o .refusedOwner
  | 0x16 => s.settleFail key o .refusedState
  | 0x11 => s.settleFail key o .failedFenced
  | _ => s

/-! ### READ_DATA at the requester -/

/-- The data of a read landed for a transfer: in its partition's view, in host memory, or sent on to another chip. -/
def State.landRead (s : State) (x : Xfer) (o : OutPacket) (k : Packet) : State :=
  let n := k.payload.length
  let a := match o.from_ with | some a => a.toNat | none => k.addr.toNat
  let done (s : State) : State :=
    let s1 := s.settleXfer x.id .done o.pkt o.from_
    if k.poison then s1.updXfer x.id (·.fail .failedPoison) else s1
  if x.dstHost then (done { s with host := wrL s.host a k.payload }).meter x.part mHost n
  else if s.isLocal x.dst then
    let s := if x.op = 0 then s else s.meterMove x.part a n false
    let ((bad, _), s1) := s.applyBlocks x.part a (if x.op = 0 then .write else .sum) x.op.toNat 0 .int32 x.ieee k.payload
      k.poison (n / 64)
    let s2 := done ((s1.itemFlags s s.epoch).meterMove x.part a n true)
    if bad && !k.poison then s2.updXfer x.id (·.fail .failedPoison) else s2
  else
    let s1 := s.updXfer x.id fun y =>
      let z := if k.poison then y.fail .failedPoison else y
      { z with settled := z.settled + 1, sent := z.sent + 1 }
    s1.inject { mkPacket (gaChip x.dst) 0x01 x.tc x.part (s.pairOf x.part) k.addr.toNat k.payload with
      ord := x.ord, ieee := x.ieee, op := x.op, poison := k.poison } (.xfer x.id) none

/-- The payload of a packet that was read again at its source: the packet goes out with it (R305). -/
def State.renew (s : State) (key : Nat) (psn : W32) (k : Packet) : State :=
  match (s.srcStream key).find psn with
  | some o =>
    let o1 := { o with pkt := { o.pkt with payload := k.payload, poison := k.poison } }
    (if k.poison then s.poisonItem o.item else s).sendCopy key o1
  | none => s

/-- READ_DATA taken: it settles its READ_REQ (R304). -/
def State.takeReadData (s : State) (k : Packet) : State :=
  let key := streamKey k.src k.tc
  match (s.srcStream key).find k.psn with
  | none => s
  | some o =>
    if o.pkt.kind != 0x02 then s
    else
      let s1 := (s.unlist key k.psn).meter o.pkt.srcPart mRx k.payload.length
      match o.renews, o.item with
      | some (key, psn), _ => s1.renew key psn k
      | none, .xfer id => match s1.xfer? id with | some x => s1.landRead x o k | none => s1
      | none, _ => s1

/-! ### At the destination -/

/-- A WRITE applied and marked delivered (R302, R307). -/
def State.landWrite (s0 : State) (k : Packet) : State :=
  let s := s0.wakeBy k
  let off := k.addr.toNat
  let n := k.payload.length
  let (_, s1) := s.applyBlocks k.dstPart off (if k.op = 0 then .write else .sum) k.op.toNat 0 .int32 k.ieee k.payload
    k.poison (n / 64)
  let s2 := if k.op = 0 then s1 else (s1.itemFlags s s.epoch).meterMove k.dstPart off n false
  (s2.meterMove k.dstPart off n true).markDelivered k

/-- The length a READ_REQ asks for. -/
def readLen (k : Packet) : Nat := ldNat k.payload 8 4

/-- The checks of a READ_REQ (R307). -/
def State.readRefusal (s : State) (k : Packet) : Option Nat :=
  let o := k.addr.toNat
  let n := readLen k
  s.destRefusal k
    (if o % 64 = 0 ∧ n % 64 = 0 ∧ 64 ≤ n ∧ n ≤ 4096 then s.viewCheck k.dstPart o n else some .refusedOwner)

/-- A READ_REQ answered with the data read afresh (R304); only its first answer counts as injected (R104). -/
def State.answerRead (s0 : State) (k : Packet) (first : Bool) : State :=
  let s := s0.wakeBy k
  let n := readLen k
  let ((d, b), s1) := s.readView k.dstPart k.addr.toNat (n / 64)
  let r : Packet := { mkPacket k.src 0x03 k.tc k.dstPart k.srcPart (ldNat k.payload 0 8) d with
    psn := k.psn, poison := b, ieee := k.ieee }
  ((s1.meterMove k.dstPart k.addr.toNat n false).iff first (·.meter k.dstPart (mTx k.tc) n)).sendLoose r

/-- A READ_REQ applied: marked delivered at its first arrival, answered at each. -/
def State.landReadReq (s : State) (k : Packet) : State :=
  if (s.dstStream (pktStream k)).has k.psn then s.answerRead k false else (s.markDelivered k).answerRead k true

/-- The target of a SIGNAL packet (R291, R175). -/
def sigCore (k : Packet) : Nat := bits k.addr 8 8
def sigCtr (k : Packet) : CtrId := ctrOf (bits k.addr 0 5)

/-- The checks of a SIGNAL packet (R307). -/
def State.signalRefusal (s : State) (k : Packet) : Option Nat :=
  let c := sigCore k
  s.destRefusal k
    (if decide (c < 192) && s.corePresent c && s.parts[k.dstPart].im.img.wardMask.testBit (c / 12) then none
      else some .refusedOwner)

/-- A SIGNAL applied: the counter rises by one (R175). -/
def State.landSignal (s : State) (k : Packet) : State :=
  ((s.wakeBy k).raiseCtr (coreOf (sigCore k)) (sigCtr k) true).markDelivered k

/-- A packet whose turn has come, by its kind (R303). -/
def State.landKind (s : State) (k : Packet) : State :=
  if k.kind = 0x01 then s.landWrite k
  else if k.kind = 0x02 then s.landReadReq k
  else if k.kind = 0x04 then s.landSignal k
  else if k.kind = 0x11 then s.landAtomic k
  else s.markDelivered k

/-- Held packets of a stream applied while the next in order is there, at most `n` (R303). -/
def State.releaseOrdered (s : State) (key : Nat) : Nat → State
  | 0 => s
  | n + 1 =>
    let x := s.dstStream key
    match x.held.find? fun e => e.2.psn == x.cum with
    | none => s
    | some e =>
      let s1 := (s.putDst key { x with held := x.held.filter fun q => q.2.psn != e.2.psn }).updFabric fun f =>
        { f with reorderBytes := f.reorderBytes - (e.2.payload.length + 40) }
      State.releaseOrdered (s1.landKind e.2) key n

end Sys2Proof.Machine
end

