-- ==== Sys2Proof/Machine/Fabric.lean ====
section
/-! DEFINITION. The family of stream packets (12 R302 to R307; 07 R175): writes, reads and signals that arrive, the
release of ordered packets, acknowledgements, and resends. -/

namespace Sys2Proof.Machine

/-- The arrival of a packet outside every stream (R291): true where it is taken. One that fails the check of R290 is
answered with a NAK as every packet is. -/
def State.arriveLoose (s : State) (n : PortId) (k : Packet) (trailer : W64) (kind : Byte) : Bool × State :=
  if s.mine n k && k.kind == kind then
    let s1 := s.noteTc12 k
    if s1.isFenced k.src && !fenceExempt kind then (false, s1)
    else if pktTrailer k != trailer then (false, (s1.countE2e n).nakTo k 0x00)
    else (true, s1)
  else (false, s)

/-- The checks of a WRITE: whole 64-byte blocks, in a range its partition may write. -/
def State.wholeWriteRefusal (s : State) (k : Packet) : Option Nat :=
  if k.payload.length % 64 = 0 then s.writeRefusal k k.payload.length else some 0x15

/-- WRITE_PACKET (R302, R307). -/
def execWritePacket (n : PortId) (k : Packet) (trailer : W64) (s : State) : Out :=
  .next <|
    if s.mine n k && k.kind == 0x01 then
      let (ok, s1) := s.arrive n k trailer fun s => s.wholeWriteRefusal k
      if ok then s1.landWrite k else s1
    else s

/-- A READ_REQ that has been delivered before is checked again and answered again (R304). -/
def State.readAgain (s : State) (n : PortId) (k : Packet) (trailer : W64) : State :=
  if pktTrailer k != trailer then (s.countE2e n).nakTo k 0x00
  else
    match s.readRefusal k with
    | some c => s.nakTo k c
    | none => s.answerRead k false

/-- READ_REQ (R304, R307). -/
def execReadReq (n : PortId) (k : Packet) (trailer : W64) (s : State) : Out :=
  .next <|
    if s.mine n k && k.kind == 0x02 then
      let (ok, s1) := s.arrive n k trailer fun s => s.readRefusal k
      if !ok then s1
      else if (s1.dstStream (pktStream k)).has k.psn then s1.readAgain n k trailer
      else s1.landReadReq k
    else s

/-- READ_DATA (R291, R304). -/
def execReadData (n : PortId) (k : Packet) (trailer : W64) (s : State) : Out :=
  .next <|
    let (ok, s1) := s.arriveLoose n k trailer 0x03
    if ok then s1.takeReadData k else s1

/-- SIGNAL_PACKET (R175, R291). -/
def execSignalPacket (n : PortId) (k : Packet) (trailer : W64) (s : State) : Out :=
  .next <|
    if s.mine n k && k.kind == 0x04 then
      let (ok, s1) := s.arrive n k trailer fun s => s.signalRefusal k
      if ok then s1.landSignal k else s1
    else s

/-- ORDERED_PACKET_RELEASE (R303): held packets whose turn has come are applied. -/
def execOrderedPacketRelease (src : BitVec 15) (tc : BitVec 2) (s : State) : Out :=
  .next <|
    let key := streamKey src tc
    s.releaseOrdered key (s.dstStream key).held.length

/-- ACK_SEND (R304): one ACK for a stream that owes one. -/
def execAckSend (src : BitVec 15) (tc : BitVec 2) (s : State) : Out :=
  .next <|
    let key := streamKey src tc
    let x := s.dstStream key
    if x.ackDue then
      (s.putDst key { x with ackDue := false }).sendLoose (mkPacket src 0x05 0 0 0 0 (ackPayload tc x))
    else s

/-- ACK (R304). -/
def execAck (n : PortId) (k : Packet) (trailer : W64) (s : State) : Out :=
  .next <|
    let (ok, s1) := s.arriveLoose n k trailer 0x05
    if ok then
      s1.ackPackets (streamKey k.src (BitVec.ofNat 2 (ldNat k.payload 0 1))) (BitVec.ofNat 32 (ldNat k.payload 4 4))
        (ldNat k.payload 8 16)
    else s1

/-- NAK (R304, R307, R403). -/
def execNak (n : PortId) (k : Packet) (trailer : W64) (s : State) : Out :=
  .next <|
    let (ok, s1) := s.arriveLoose n k trailer 0x06
    if ok then
      let key := streamKey k.src (BitVec.ofNat 2 (ldNat k.payload 0 1))
      match (s1.srcStream key).find (BitVec.ofNat 32 (ldNat k.payload 4 4)) with
      | some o => s1.nakPacket key o (ldNat k.payload 1 1)
      | none => s1
    else s1

/-- RESEND_TIMER (R305): the wait of an unsettled packet ends. -/
def execResendTimer (dst : BitVec 15) (tc : BitVec 2) (psn : W32) (atNs : Nat) (s : State) : Out :=
  .next <|
    let s1 := s.advanceTo atNs
    let key := streamKey dst tc
    match (s1.srcStream key).find psn with
    | some o => if o.nextAt ≤ s1.timeNs then s1.waitEnded key o else s1
    | none => s1

end Sys2Proof.Machine
end

