-- ==== Sys2Proof/Machine/ImageHeader.lean ====
section
/-! DEFINITION. Zhezel image headers (03): the fixed header, the directory, R54, R56, digests and signatures, over a
reader of the image's bytes. -/

namespace Sys2Proof.Machine

/-- A directory entry. -/
structure DirEntry where
  type : Nat
  layout : Nat
  offset : Nat
  length : Nat
  reserved : Nat
  digest : BitVec 384
  deriving DecidableEq, Repr

/-- The image header: fixed header and directory. -/
structure ImageHeader where
  magic : Nat
  layout : Nat
  kind : Nat
  count : Nat
  svn : Nat
  length : Nat
  gradeMask : Nat
  target : Nat
  buildId : W64
  reserved : Nat
  dir : List DirEntry
  raw : List Byte
  deriving DecidableEq, Repr

/-- A byte reader of an image. -/
abbrev ImgReader := Nat → Byte

/-- `n` bytes of an image from an offset. -/
def imgBytes (r : ImgReader) (a n : Nat) : List Byte := (List.range n).map fun i => r (a + i)

/-- A little-endian field of an image (R3). -/
def imgNat (r : ImgReader) (a n : Nat) : Nat := leNat (imgBytes r a n)

def parseDirEntry (r : ImgReader) (i : Nat) : DirEntry :=
  let a := 0x40 + i * 0x40
  { type := imgNat r a 2, layout := imgNat r (a + 2) 2, offset := imgNat r (a + 4) 4, length := imgNat r (a + 8) 4,
    reserved := imgNat r (a + 12) 4, digest := BitVec.ofNat 384 (imgNat r (a + 16) 48) }

/-- The header as its bytes spell it. -/
def parseHeader (r : ImgReader) : ImageHeader :=
  let count := imgNat r 6 1
  { magic := imgNat r 0 4, layout := imgNat r 4 1, kind := imgNat r 5 1, count := count, svn := imgNat r 7 1,
    length := imgNat r 8 4, gradeMask := imgNat r 12 1, target := imgNat r 13 1,
    buildId := BitVec.ofNat 64 (imgNat r 16 8), reserved := imgNat r 14 2 + imgNat r 24 40,
    dir := (List.range (min count 16)).map (parseDirEntry r), raw := imgBytes r 0 (64 * (1 + min count 16)) }

/-- Bytes of the image header (R55). -/
def ImageHeader.size (h : ImageHeader) : Nat := 64 * (1 + h.count)

/-- Two sections do not overlap. -/
def disjointSections (a b : DirEntry) : Bool := a.offset + a.length ≤ b.offset || b.offset + b.length ≤ a.offset

/-- Every pair of a list is related. -/
def allPairs {α : Type} (f : α → α → Bool) : List α → Bool
  | [] => true
  | x :: r => r.all (f x) && allPairs f r

/-- Well formed under R54, with svn and image_length within their ranges and a signature block of its 4 KiB (log 16). -/
def ImageHeader.wellFormed (h : ImageHeader) : Bool :=
  h.magic == 0x4C5A485A && h.layout == 1 && decide (2 ≤ h.count ∧ h.count ≤ 16) && h.reserved == 0 &&
  decide (h.svn ≤ 63) && decide (h.length ≤ if h.kind = 2 then 0x400000 else 0x3000000) &&
  h.dir.all (fun e => e.offset % 4096 == 0 && decide (h.size ≤ e.offset) && decide (e.offset + e.length ≤ h.length) &&
    e.reserved == 0) &&
  allPairs disjointSections h.dir && allPairs (fun a b => a.type != b.type) h.dir &&
  (match h.dir.getLast? with
   | some e => e.type == 0x0F && e.length == 4096 && h.dir.all fun x => decide (x.offset ≤ e.offset)
   | none => false)

/-- The directory entry of a section type. -/
def ImageHeader.section? (h : ImageHeader) (t : Nat) : Option DirEntry := h.dir.find? fun e => e.type == t

/-- The size limits of R56. -/
def sectionLimit (t : Nat) : Nat :=
  match t with
  | 0x01 => 0x400000
  | 0x02 | 0x03 | 0x04 => 0x10000
  | 0x05 => 0x1000000
  | _ => 0x1000

/-- The sections R56 requires of, and allows in, a device image (kind 1) or a partition image (kind 2), within their
size limits and with section_layout 0x0001 (log 16). -/
def ImageHeader.sectionsOk (h : ImageHeader) : Bool :=
  let req := if h.kind = 1 then [1, 2, 3, 4, 5, 6, 15] else [2, 3, 4, 15]
  let allowed := if h.kind = 1 then req else req ++ [6]
  req.all (fun t => (h.section? t).isSome) &&
    h.dir.all fun e => allowed.contains e.type && e.layout == 1 && decide (e.length ≤ sectionLimit e.type)

/-- The measurement of an image: SHA-384 of its header (R55). -/
def ImageHeader.measurement (h : ImageHeader) : BitVec 384 := Config.sha384 h.raw

/-- A section's digest matches (zero for the signature block). -/
def digestOk (r : ImgReader) (e : DirEntry) : Bool :=
  if e.type = 0x0F then e.digest == 0 else e.digest == Config.sha384 (imgBytes r e.offset e.length)

/-- The fields of a signature block (03, Keys and signatures), read at its offset. -/
structure SigBlock where
  kind : Nat
  serial : List Byte
  firstKey : List Byte
  signingKey : List Byte
  certSig : List Byte
  imageSig : List Byte
  padOk : Bool
  deriving DecidableEq, Repr

def parseSig (r : ImgReader) (a : Nat) : SigBlock :=
  { kind := imgNat r a 4, serial := imgBytes r (a + 4) 4, firstKey := imgBytes r (a + 8) 97,
    signingKey := imgBytes r (a + 0x70) 97, certSig := imgBytes r (a + 0xD8) 96, imageSig := imgBytes r (a + 0x138) 96,
    padOk := imgNat r (a + 0x69) 7 == 0 && imgNat r (a + 0xD1) 7 == 0 && imgNat r (a + 0x198) 3688 == 0 }

/-- The root hash and both signatures of a device image (R59), in a block of its form (log 16). -/
def SigBlock.deviceOk (g : SigBlock) (h : ImageHeader) : Bool :=
  g.kind == 1 && g.padOk && Config.sha384 g.firstKey == Config.rootHash &&
    Config.ecdsaVerify g.firstKey (g.serial ++ g.signingKey) g.certSig && Config.ecdsaVerify g.signingKey h.raw g.imageSig

/-- The owner key slot whose hash is that of the first key, if it is enrolled (R74 step 3): the lowest such slot (log 16). -/
def State.keySlotOf (s : State) (key : List Byte) : Option (Fin 4) :=
  (allFin 4).find? fun k => s.fuses.keys[k].state == .enrolled && s.fuses.keys[k].hash == Config.sha384 key

/-- The grade bit of grade_mask (R59): bit 0 for D7-A, bit 1 for D7-S. -/
def State.gradeOk (s : State) (h : ImageHeader) : Bool :=
  let g := bits s.fuses.map 28 4
  (g == 1 && h.gradeMask.testBit 0) || (g == 2 && h.gradeMask.testBit 1)

/-- The image slot of the flash as a reader; an erased byte reads 0xFF. -/
def State.slotReader (s : State) : ImgReader := fun a => Sparse.getD (α := Byte) s.loader.slot a 0xFF

/-- Fetched image bytes as a reader. -/
def bytesReader (m : Memory) : ImgReader := fun a => rd m a

end Sys2Proof.Machine
end

