-- ==== Sys2Proof/Machine/PumpOps.lean ====
section
/-! DEFINITION. Parameter groups, PUMP commands and sweeps (15 R352 to R372), and the latch of the storm gate (16 R380)
as the Pumps meet it. -/

namespace Sys2Proof.Machine

/-! ### Group table entries (R352, R353) -/

def Group.parse (b : List Byte) : Group :=
  let f := ldNat b 0 1
  { valid := f.testBit 0, frozen := f.testBit 1, privileged := f.testBit 2, torn := f.testBit 3, mixed := f.testBit 4,
    busy := f.testBit 5, curve := f.testBit 6, pump := ldNat b 1 1, gradFmt := ldNat b 2 1, workFmt := ldNat b 3 1,
    step := BitVec.ofNat 32 (ldNat b 4 4), count := ldNat b 8 8, stateOff := BitVec.ofNat 64 (ldNat b 0x10 8),
    workOff := BitVec.ofNat 64 (ldNat b 0x18 8), gradOff := BitVec.ofNat 64 (ldNat b 0x20 8),
    sweepMark := BitVec.ofNat 32 (ldNat b 0x28 4), tornStep := BitVec.ofNat 32 (ldNat b 0x2C 4),
    curveOff := BitVec.ofNat 64 (ldNat b 0x30 8),
    coef := Vector.ofFn fun i => BitVec.ofNat 32 (ldNat b (0x40 + 4 * i.val) 4) }

def Group.flags (g : Group) : Nat :=
  g.valid.toNat + (g.frozen.toNat <<< 1) + (g.privileged.toNat <<< 2) + (g.torn.toNat <<< 3) + (g.mixed.toNat <<< 4) +
    (g.busy.toNat <<< 5) + (g.curve.toNat <<< 6)

/-- The 128 bytes of an entry. -/
def Group.bytes (g : Group) : List Byte :=
  leBytes g.flags 1 ++ leBytes g.pump 1 ++ leBytes g.gradFmt 1 ++ leBytes g.workFmt 1 ++ leBytes g.step.toNat 4 ++
    leBytes g.count 8 ++ leBytes g.stateOff.toNat 8 ++ leBytes g.workOff.toNat 8 ++ leBytes g.gradOff.toNat 8 ++
    leBytes g.sweepMark.toNat 4 ++ leBytes g.tornStep.toNat 4 ++ leBytes g.curveOff.toNat 8 ++ leBytes 0 8 ++
    (g.coef.toList.map fun c => leBytes c.toNat 4).flatten

/-- Bytes of one gradient element, and of one element of the working copy. -/
def gradSize (fmt : Nat) : Nat := if fmt = 7 then 2 else 4
def workSize (fmt : Nat) : Nat := match fmt with | 7 | 8 => 2 | 9 => 4 | _ => 0

/-- A range in the wells range of a view. -/
def State.inWells (s : State) (p : PartId) (off len : Nat) : Bool :=
  decide (off + len ≤ wellsEnd) && (s.viewCheck p off len).isNone

/-- A view range anywhere. -/
def State.inView (s : State) (p : PartId) (off len : Nat) : Bool := (s.viewCheck p off len).isNone

/-- The view offset of a group's state array `k` (0 weights, 1 and 2 moments), element `e`. -/
def Group.stateAt (g : Group) (k e : Nat) : Nat :=
  (if g.privileged then 0 else cisBase + g.pump * 0x4000000000) + g.stateOff.toNat + 4 * g.count * k + 4 * e

/-- Is an FP32 pattern NaN? -/
def isNan32 (x : Nat) : Bool := (dec32 x).isNan

/-- The conditions of R353 on a source entry of 128 bytes. -/
def State.groupValid (s : State) (p : PartId) (b : List Byte) : Bool :=
  let g := Group.parse b
  let i := s.parts[p].im.img
  (g.gradFmt == 7 || g.gradFmt == 9) && (workSize g.workFmt != 0 || g.workFmt == 0xFF) && !(ldNat b 0 1).testBit 7 &&
    zeroBytes b 0x38 8 && g.count % 64 == 0 && decide (64 ≤ g.count ∧ g.count ≤ 1 <<< 36) &&
    g.stateOff.toNat % 256 == 0 && g.workOff.toNat % 64 == 0 && g.gradOff.toNat % 64 == 0 &&
    decide (g.pump < 4) && i.cisZ[pumpOf g.pump] != 0 &&
    (if g.privileged then s.inWells p g.stateOff.toNat (12 * g.count)
      else decide (g.stateOff.toNat + 12 * g.count ≤ i.cisZ[pumpOf g.pump] * g4)) &&
    (g.workFmt == 0xFF || s.inWells p g.workOff.toNat (g.count * workSize g.workFmt)) &&
    (decide (g.gradOff.toNat < wellsEnd) || decide (coreBase ≤ g.gradOff.toNat)) &&
    s.inView p g.gradOff.toNat (g.count * gradSize g.gradFmt) &&
    g.coef.toList.all (fun c => !isNan32 c.toNat) && (!g.curve || s.inWells p g.curveOff.toNat 8)

/-- Are the device-set fields of a source entry zero (R353)? -/
def deviceZero (b : List Byte) : Bool :=
  let f := ldNat b 0 1
  !f.testBit 3 && !f.testBit 4 && !f.testBit 5 && zeroBytes b 0x28 8

def State.group (s : State) (p : PartId) (g : Nat) : Group := Sparse.getD s.parts[p].groups g {}

def State.setGroup (s : State) (p : PartId) (g : Nat) (x : Group) : State :=
  s.updPart p fun y => { y with groups := Sparse.set {} y.groups g x }

def State.updGroup (s : State) (p : PartId) (g : Nat) (f : Group → Group) : State := s.setGroup p g (f (s.group p g))

/-! ### PUMP commands (R359 to R364) -/

def State.pumpCmd? (s : State) (p : PartId) (id : Nat) : Option PumpCmd := s.parts[p].cmds.find? fun c => c.id == id

def State.updCmd (s : State) (p : PartId) (id : Nat) (f : PumpCmd → PumpCmd) : State :=
  s.updPart p fun x => { x with cmds := x.cmds.map fun c => if c.id = id then f c else c }

def GroupStage.isEnded : GroupStage → Bool
  | .ended _ _ _ => true
  | _ => false

/-- How many groups of a command ended with an outcome. -/
def PumpCmd.ends (c : PumpCmd) (o : OutcomeCode) : Nat :=
  (c.stages.filter fun x => match x with | .ended q _ _ => q == o | _ => false).length

/-- The outcome of the command's capsule (R360). -/
def PumpCmd.outcome (c : PumpCmd) : OutcomeCode :=
  (c.stages.findSome? fun x => match x with
    | .ended o _ _ => if o = .done ∨ o = .skippedFrozen then none else some o
    | _ => none).getD .done

/-- detail0 of the capsule's record (R360). -/
def PumpCmd.detail (c : PumpCmd) : Nat :=
  let d := c.ends .done
  let g := c.ends .gated
  let f := c.ends .skippedFrozen
  (d <<< 48) + (g <<< 32) + (f <<< 16) + (c.count - d - g - f)

/-- The record of one group (R360). -/
def PumpCmd.groupRecord (c : PumpCmd) (p : PartId) (i : Nat) (o : OutcomeCode) (code params : Nat) (inc : W32) : Record :=
  { tag := c.tag + BitVec.ofNat 64 i, step := c.t, outcome := o, engine := 0x08, partition := p,
    detail0 := BitVec.ofNat 64 ((params <<< 24) + ((c.first + i) <<< 12) + code), incident := inc }

/-- A record written into a record area of a view, or placed in the orphan store (R395). -/
def State.writeRecord (s : State) (p : PartId) (off : Nat) (r : Record) : State :=
  let place := match s.viewLoc p off with | some l => !s.locGone l | none => false
  if place && s.parts[p].claims? then
    ((s.patchView p off (r.bytes true) false .engine 2).meterMove p off 32 true).touch p
  else s.orphan p r []

/-- A command whose groups have all ended: its capsule's record, then the done counter (R360). -/
def State.endCmd (s : State) (p : PartId) (c : PumpCmd) (inc : W32) : State :=
  let s1 := s.updPart p fun x => { x with cmds := x.cmds.filter fun y => y.id != c.id }
  s1.post p
    { tag := c.tag, step := c.t, outcome := c.outcome, engine := 0x08, partition := p,
      detail0 := BitVec.ofNat 64 c.detail, incident := inc, done := namedCtr c.doneCore c.doneCtr } c.raiseV0

/-- The two lines a CLAIM writes for a group (R370). -/
def claimLines (t : W32) (o : OutcomeCode) (row : Option (List Nat)) : List Byte :=
  (match row with
    | some _ => leBytes t.toNat 4
    | none => leBytes 0 4) ++ leBytes o.code 4 ++ List.replicate 248 0 ++
  (match row with
    | some r => (r.map fun x => leBytes x 4).flatten ++ List.replicate 192 0
    | none => List.replicate 256 0)

/-- A group of a command ended (R360, R370): a CLAIM's lines, its record, and the command with its last group. -/
def State.endGroup (s : State) (p : PartId) (id i : Nat) (o : OutcomeCode) (code params : Nat) (row : Option (List Nat))
    (inc : W32) : State :=
  match s.pumpCmd? p id with
  | none => s
  | some c =>
    let s1 := if c.op = .claim then
        let s0 := s.writeView p (c.clearOff.toNat + 512 * i) (claimLines c.t o row) false 8
        s0.updPart p fun x => { x with
          claims := x.claims.filter (fun n => n.group != c.first + i) ++ [⟨c.first + i, c.t, o⟩] }
      else s
    let s2 := (s1.writeRecord p (c.recOff.toNat + 32 * i) (c.groupRecord p i o code params inc)).updCmd p id fun c =>
      { c with stages := c.stages.set i (.ended o code params), recorded := c.recorded ++ [i] }
    match s2.pumpCmd? p id with
    | some c1 => if c1.stages.all (·.isEnded) then s2.endCmd p c1 inc else s2
    | none => s2

/-- A group's reservation given up. -/
def State.unbusy (s : State) (p : PartId) (g : Nat) : State := s.updGroup p g fun x => { x with busy := false }

/-- A command's groups at a stage. -/
def PumpCmd.atStage (c : PumpCmd) (st : GroupStage) : List Nat := (List.range c.count).filter fun i => c.stages[i]? == some st

/-- Groups of a command taken from the order of a Pump. -/
def State.unorder (s : State) (p : PartId) (g : Nat) : State :=
  s.over (allFin 4) fun s u => s.updPump u fun x => { x with order := x.order.filter fun e => !(e.1 == p && e.2.1 == g) }

/-- A waiting group of a command ended before any of its blocks: its reservation is given up. -/
def State.dropWaiting (s : State) (p : PartId) (id i : Nat) (o : OutcomeCode) (inc : W32) : State :=
  match s.pumpCmd? p id with
  | none => s
  | some c => (((s.unorder p (c.first + i)).unbusy p (c.first + i))).endGroup p id i o 0 0 none inc

/-- Every waiting group of a command ended with an outcome (R362, R363, R372). -/
def State.endWaiting (s : State) (p : PartId) (c : PumpCmd) (untriggered : Bool) (o : OutcomeCode) (inc : W32) : State :=
  let s1 := s.over (c.atStage .verdict) fun s i => s.dropWaiting p c.id i o inc
  if untriggered then s1.over (c.atStage .untriggered) fun s i => s.endGroup p c.id i o 0 0 none inc else s1

/-! ### The gate as the Pumps meet it (R362, R363, R380) -/

/-- A latched gate: every group whose sweep has not begun ends GATED; those of a trigger that fires now meet the checks of
R361 first. -/
def State.gateAll (s : State) (p : PartId) : State :=
  s.over (s.parts[p].cmds.filter fun c => c.op != .settle) fun s c => s.endWaiting p c (!c.fired) .gated 0

/-- The gate latched with a cause (R380), and the stop of action 3, which falls in this control epoch. -/
def State.latch (s : State) (p : PartId) (cause action : Nat) : State :=
  let rec_ (s : State) : State := s.event 0x0402 unitSteward (partByte p) sevJob 0
    (packDetail [(s.parts[p].storm.latchCause, 1), (s.parts[p].storm.curStep.toNat, 4)])
  let s1 := if s.parts[p].storm.latched then s else
    (rec_ (s.updPart p fun x => { x with storm := { x.storm with latched := true, latchCause := cause } })).msi (.vf p) 2
  let s2 := s1.gateAll p
  if action = 3 then rec_ (s2.deviceStop p 0x05) else s2

/-- A mismatch (R362): the log, the Almanac, and the report to storm watch. -/
def State.mismatch (s : State) (p : PartId) (g : Nat) (t : W32) : State :=
  let e := s.group p g
  let u := pumpOf e.pump
  let m : Mismatch := { torn := e.torn, partition := p, group := g, carried := t, stored := e.step }
  let s1 := s.updPump u fun x => { x with
    log := x.log.set (x.logHead % 16) (some m) (Nat.mod_lt _ (by decide))
    logHead := (x.logHead + 1) % 16
    logWrapped := x.logWrapped || (x.log[x.logHead % 16]'(Nat.mod_lt _ (by decide))) != none }
  let w := (1 <<< 63) + (e.torn.toNat <<< 62) + (p.val <<< 44) + (g <<< 32) + t.toNat
  let s2 := s1.event 0x0701 (unitPump u) (partByte p) sevAbsorbed 0 (packDetail [(w, 8), (e.step.toNat, 8)])
  s2.latch p 1 s2.parts[p].storm.policy.mismatchAction

/-! ### Rows and curves (R355, R356) -/

/-- An integer converted to FP32 (R228, R243). -/
def natTo32 (sat : Bool) (r : Rnd) (n : Nat) : Nat × NFlags := fp32Spec.deliver sat true r false n 1

/-- The rounding of the conversions of a curve (R228): the partition's default. The spec gives a stochastic default no
draw there: it is a free value (log 9). -/
def State.curveRound (s : State) (p : PartId) (k : Nat) : Rnd :=
  match s.parts[p].fmt.cvtRound.toNat with
  | 3 => .sr ((Config.free64 (s.freeCount + k)).toNat % 256)
  | 2 => .rz
  | _ => .rna

/-- curve(t) over knots (steps, values); `rs` are the roundings of its two conversions (R356). -/
def curveAt (sat : Bool) (rs : Rnd × Rnd) (t : Nat) : List (Nat × Nat) → Nat × NFlags
  | [] => (0, {})
  | [(_, y)] => (y, {})
  | (a, y) :: (b, z) :: r =>
    if t ≤ a then (y, {})
    else if t < b then
      let (d, f1) := sub32 sat z y
      let (n, c1) := natTo32 sat rs.1 (t - a)
      let (m, f2) := mul32 sat d n
      let (k, c2) := natTo32 sat rs.2 (b - a)
      let (q, f3) := div32 sat m k
      let (v, f4) := add32 sat y q
      (v, ((((f1.or c1).or f2).or c2).or f3).or f4)
    else curveAt sat rs t ((b, z) :: r)

/-- Steps that rise strictly. -/
def stepsRise : List (Nat × Nat) → Bool
  | (a, _) :: (b, z) :: r => decide (a < b) && stepsRise ((b, z) :: r)
  | _ => true

/-- The factor of the schedule curve: a value, or the outcome and detail code that end the group. -/
def State.curveValue (s : State) (p : PartId) (off t : Nat) (sat : Bool) :
    Except (OutcomeCode × Nat) (Nat × NFlags) × State :=
  let ((h, bad), s0) := s.viewBytes p off 8
  let s1 := s0.meterMove p off 8 false
  let k := ldNat h 0 2
  if bad then (.error (.failedPoison, 0), s1)
  else if k < 1 ∨ 64 < k ∨ !zeroBytes h 2 6 then (.error (.refusedState, 5), s1)
  else if !s1.inWells p off (8 + 8 * k) then (.error (.refusedOwner, 5), s1)
  else
    let ((d, bad2), s2) := s1.viewBytes p (off + 8) (8 * k)
    let s3 := { s2.meterMove p (off + 8) (8 * k) false with freeCount := s2.freeCount + 2 }
    let ks := (List.range k).map fun i => (ldNat d (8 * i) 4, ldNat d (8 * i + 4) 4)
    if bad2 then (.error (.failedPoison, 0), s3)
    else if !stepsRise ks || ks.any (fun e => match dec32 e.2 with | .num _ _ _ => false | _ => true) then
      (.error (.refusedState, 5), s3)
    else (.ok (curveAt sat (s2.curveRound p 0, s2.curveRound p 1) t ks), s3)

/-- r1 and r2 (R355): one of the codes within 2 ulp of 1 / (1 − β^t), which of them the manual does not publish; where
that quotient does not exist, a free pattern (log 9). -/
def biasOf (on : Bool) (beta t : W32) : Nat :=
  let pick := (Config.biasCorrection beta t).toNat
  if !on then 0x3F800000
  else
    match dec32 beta.toNat with
    | .num s m e =>
      let y : Nat := if m = 0 && t != 0 then 0 else fuPow (fuFix m e) 32 t.toNat
      let d : Int := fuOne - if s && t.toNat % 2 == 1 then -(y : Int) else y
      if d = 0 then pick else fp32Spec.signed (decide (d < 0)) (choose32 2 fuOne d.natAbs pick)
    | _ => pick

/-- The evaluated row of a group for a step (R355). -/
def State.evalRow (s : State) (p : PartId) (g : Nat) (t gScale : W32) :
    Except (OutcomeCode × Nat) (List Nat × NFlags) × State :=
  let e := s.group p g
  let c (i : Fin 16) : Nat := e.coef[i].toNat
  let sat := !s.ieee p
  let row (eta : Nat) (f : NFlags) : List Nat × NFlags :=
    let (l, f2) := mul32 sat eta (c 8)
    ([c 0, c 1, c 2, c 3, c 4, 0, c 6, eta, l, 0, biasOf ((c 14).testBit 3) e.coef[(0 : Fin 16)] t,
      biasOf ((c 14).testBit 4) e.coef[(2 : Fin 16)] t, gScale.toNat, c 13, c 14, 0], f.or f2)
  if e.curve then
    match s.curveValue p e.curveOff.toNat t.toNat sat with
    | (.error x, s1) => (.error x, s1)
    | (.ok (y, f), s1) =>
      let (eta, f1) := mul32 sat (c 7) y
      (.ok (row eta (f.or f1)), s1)
  else (.ok (row (c 7) {}), s)

/-! ### Verdicts and claims (R363, R370, R382) -/

/-- The newest entry of the history for a step, as its place behind the head. -/
def Storm.newest (x : Storm) (t : W32) : Option HistEntry :=
  ((List.range 16).map fun k => x.hist[(x.histHead + 15 - k) % 16]'(Nat.mod_lt _ (by decide))).find? fun e =>
    e.valid && e.step == t

/-- The verdict standing for a step at the Pumps (R382): formed, delivered, and not withdrawn by a new attempt. -/
def Storm.standing (x : Storm) (t : W32) : Option Bool :=
  if (x.isOpen && x.attempt && x.curStep == t) || x.deliver.any (fun d => d.1.step == t) then none
  else (x.newest t).map (·.isOpen)

/-- An open verdict for a group of a CLAIM (R370): its lines are written, and it stays busy. -/
def State.claimGroup (s : State) (p : PartId) (id i : Nat) : State :=
  match s.pumpCmd? p id with
  | none => s
  | some c =>
    let g := c.first + i
    match s.evalRow p g c.t c.gScale with
    | (.error (o, code), s1) => (s1.unbusy p g).endGroup p id i o code 0 none 0
    | (.ok (row, f), s1) =>
      let u := pumpOf (s1.group p g).pump
      (s1.updPump u fun x => { x with mem := { x.mem with flags := x.mem.flags.note s.epoch f } }).endGroup p id i .done 0 0
        (some row) 0

/-- A verdict bound to a fired command (R363, R382): closed, every waiting group ends GATED; open, claims are written
and sweeps may begin. -/
def State.bindVerdict (s : State) (p : PartId) (id : Nat) (open_ : Bool) : State :=
  match s.pumpCmd? p id with
  | none => s
  | some c =>
    let s1 := s.updCmd p id fun c => { c with bound := some open_ }
    if !open_ then s1.endWaiting p c false .gated 0
    else if c.op = .claim then s1.over (c.atStage .verdict) fun s i => s.claimGroup p id i
    else s1

/-! ### The checks at the trigger (R361, R371) -/

/-- SETTLE of a group that passed its checks (R371). -/
def State.settleGroup (s : State) (p : PartId) (id i : Nat) (c : PumpCmd) : State :=
  let g := c.first + i
  let fin (s : State) (o : OutcomeCode) (code params : Nat) : State := s.endGroup p id i o code params none 0
  let e := s.group p g
  match s.parts[p].claims.find? fun n => n.group == g && n.t == c.t with
  | some n =>
    if n.outcome = .done then
      if e.busy then fin (s.updGroup p g fun x => { x with step := c.t, busy := false }) .done 0 e.count
      else fin s .refusedState 2 0
    else fin s n.outcome 0 0
  | none => fin s .refusedState 2 0

/-- Does the step of a command fit a group (R361 row 5)? -/
def stepFits (c : PumpCmd) (e : Group) : Bool :=
  if c.resume then e.tornStep == c.t && !e.mixed else !e.torn && e.step == c.t - 1

/-- The checks of R361 on one group; a group that passes becomes busy and waits for its verdict. -/
def State.checkGroup (s : State) (p : PartId) (id i : Nat) : State :=
  match s.pumpCmd? p id with
  | none => s
  | some c =>
    if c.stages[i]? != some .untriggered then s
    else
      let g := c.first + i
      let e := s.group p g
      let fin (s : State) (o : OutcomeCode) (code : Nat) : State := s.endGroup p id i o code 0 none 0
      if !e.valid then fin s .refusedState 4
      else if s.parts[p].im.img.cisZ[pumpOf e.pump] = 0 then fin s .refusedOwner 0
      else if c.op = .settle then (if e.privileged then s.settleGroup p id i c else fin s .refusedState 2)
      else if e.busy then fin s .refusedState 1
      else if (c.op = .update && e.privileged) || (c.op = .claim && !e.privileged) || (c.resume && !e.torn) then
        fin s .refusedState 2
      else if e.frozen then fin s .skippedFrozen 0
      else if !stepFits c e then (fin s .refusedStep 0).mismatch p g c.t
      else if s.parts[p].storm.latched then fin s .gated 0
      else
        let s1 := (s.updGroup p g fun x => { x with busy := true }).updCmd p id fun c =>
          { c with stages := c.stages.set i .verdict }
        if c.op = .update then
          s1.updPump (pumpOf e.pump) fun x => { x with order := x.order ++ [(p, g, id)] }
        else s1

/-- A command fired (R364): its groups are checked in ascending order, and it takes its verdict (R382). -/
def State.fireCmd (s : State) (p : PartId) (id : Nat) : State :=
  match s.pumpCmd? p id with
  | none => s
  | some c =>
    let s1 := (s.updCmd p id fun c => { c with fired := true }).over (List.range c.count) fun s i => s.checkGroup p id i
    match s1.parts[p].storm.standing c.t with
    | some o => s1.bindVerdict p id o
    | none => s1

/-! ### Sweeps (R365 to R368) -/

def blockLen : Nat := 262144

/-- The elements of a block: gradient, w, m, v in; w1, m1, v1 and the working copy out. -/
def sweepElem (sat : Bool) (r : Rnd) (row : List Nat) (work g w m v : Nat) : (Nat × Nat × Nat × Nat) × NFlags :=
  let (m1, f1) := updM sat row g m
  let (v1, f2) := updV sat row g v
  let (w1, f3) := updW sat row w m1 v1
  let (k, f4) := match fmtOf work with
    | some t => convert t sat r (dec32 w1)
    | none => (0, {})
  ((w1, m1, v1, k), ((f1.or f2).or f3).or f4)

/-- The draw register of a lane at the start of a block (R366). -/
def sweepSeed (t : W32) (g b : Nat) (i : Nat) : W32 :=
  let x := (t * 0x00010001#32) ^^^ BitVec.ofNat 32 (g <<< 20) ^^^ BitVec.ofNat 32 (i <<< 14) ^^^ BitVec.ofNat 32 b
  if x = 0 then 1 else x

/-- Every element of a block in order, the draws of a stochastic default taken per lane. -/
def sweepElems (sat : Bool) (rnd : Nat) (row : List Nat) (work k : Nat) (st : Vector W32 64) :
    List (Nat × Nat × Nat × Nat) → List ((Nat × Nat × Nat × Nat) × NFlags)
  | [] => []
  | (g, w, m, v) :: r =>
    let i : Fin 64 := finMod 64 (by decide) k
    let (mode, st1) : Rnd × Vector W32 64 :=
      match rnd with
      | 3 => let (d, x) := lfsrDraw st[i]; (.sr d, st.set i x)
      | 2 => (.rz, st)
      | _ => (.rna, st)
    sweepElem sat mode row work g w m v :: sweepElems sat rnd row work (k + 1) st1 r

/-- A sweep that ends without its last block (R367, R368): the group is torn at a mark. -/
def State.tear (s : State) (u : PumpId) (w : Sweep) (o : OutcomeCode) (mixed : Bool) (inc : W32) : State :=
  let s1 := (s.updPump u fun x => { x with
    sweep := none, mem := { x.mem with flags := x.mem.flags.note s.epoch w.flags } }).updGroup w.part w.group fun g =>
    { g with torn := true, tornStep := w.t, sweepMark := BitVec.ofNat 32 w.block, busy := false, mixed := g.mixed || mixed }
  match s1.pumpCmd? w.part w.cmd with
  | some c => s1.endGroup w.part w.cmd (w.group - c.first) o 0 (min (w.block * blockLen) (s.group w.part w.group).count) none inc
  | none => s1

/-- The four inputs of a block read: elements, and whether any is poisoned. -/
def State.sweepInputs (s : State) (p : PartId) (e : Group) (lo n : Nat) : (List (Nat × Nat × Nat × Nat) × Bool) × State :=
  let gz := gradSize e.gradFmt
  let ((g, b0), s0) := s.readView p (e.gradOff.toNat + lo * gz) (n * gz / 64)
  let ((w, b1), s1) := s0.readView p (e.stateAt 0 lo) (n / 16)
  let ((m, b2), s2) := s1.readView p (e.stateAt 1 lo) (n / 16)
  let ((v, b3), s3) := s2.readView p (e.stateAt 2 lo) (n / 16)
  let gs := (blockElems gz g).map fun x => if gz = 2 then x * 65536 else x
  let l := gs.zip ((blockElems 4 w).zip ((blockElems 4 m).zip (blockElems 4 v)))
  ((l, b0 || b1 || b2 || b3),
    (s3.meterMove p (e.gradOff.toNat + lo * gz) (n * gz) false).meterPump (pumpOf e.pump) p mCistern (12 * n))

/-- One block of a sweep (R365). -/
def State.sweepBlock (s : State) (u : PumpId) (w : Sweep) : State :=
  let p := w.part
  let e := s.group p w.group
  let lo := w.block * blockLen
  let n := min blockLen (e.count - lo)
  let ((l, bad), s1) := s.sweepInputs p e lo n
  if bad then s1.tear u w .failedPoison false 0
  else
    let f := s1.parts[p].fmt
    let rs := sweepElems (!s1.ieee p) f.cvtRound.toNat w.row e.workFmt 0
      (Vector.ofFn fun i => sweepSeed w.t w.group w.block i.val) l
    let fl := rs.foldl (fun a r => a.or r.2) w.flags
    let s2 := s1.writeView p (e.stateAt 0 lo) (blockBytes 4 (rs.map (·.1.1))) false (n / 16)
    let s3 := s2.writeView p (e.stateAt 1 lo) (blockBytes 4 (rs.map (·.1.2.1))) false (n / 16)
    let s4 := s3.writeView p (e.stateAt 2 lo) (blockBytes 4 (rs.map (·.1.2.2.1))) false (n / 16)
    let wz := workSize e.workFmt
    let s5 := if wz = 0 then s4 else
      (s4.writeView p (e.workOff.toNat + lo * wz) (blockBytes wz (rs.map (·.1.2.2.2))) false (n * wz / 64)).meterMove p
        (e.workOff.toNat + lo * wz) (n * wz) true
    let s6 := (s5.meterPump u p mCistern (12 * n)).updPump u fun x => { x with
      lastBlock := w.block, lastGroup := w.group, lastPart := p }
    if (w.block + 1) * blockLen < e.count then
      (s6.updGroup p w.group fun g => { g with sweepMark := BitVec.ofNat 32 (w.block + 1) }).updPump u fun x =>
        { x with sweep := some { w with block := w.block + 1, flags := fl } }
    else
      let s7 := (s6.updGroup p w.group fun g =>
        { g with step := w.t, sweepMark := 0, busy := false, torn := false, tornStep := 0 }).updPump u fun x =>
          { x with sweep := none, mem := { x.mem with flags := x.mem.flags.note s.epoch fl } }
      match s7.pumpCmd? p w.cmd with
      | some c => (s7.meterPump u p mUpdates e.count).endGroup p w.cmd (w.group - c.first) .done 0 e.count none 0
      | none => s7

/-! ### Stops and resets (R368, R371, R372) -/

/-- Claims that nothing has settled: torn with mixed set (R371). -/
def State.tearClaims (s : State) (p : PartId) (sel : Group → Bool) : State :=
  let l := s.parts[p].claims.filter fun n => n.outcome == .done && (s.group p n.group).busy && sel (s.group p n.group)
  s.over l fun s n =>
    (s.updGroup p n.group fun g => { g with torn := true, mixed := true, tornStep := n.t, sweepMark := 0, busy := false }).updPart p
      fun x => { x with claims := x.claims.filter fun k => k != n }

/-- STOP over the update items of a partition (R372). -/
def State.stopPumps (s : State) (p : PartId) (inc : W32) : State :=
  let s1 := s.over s.parts[p].cmds fun s c =>
    let s0 := s.over (if c.fired then [] else c.atStage .untriggered) fun s i => s.endGroup p c.id i .refusedState 0 0 none inc
    s0.over (c.atStage .verdict) fun s i => s.dropWaiting p c.id i .failedTimeout inc
  s1.tearClaims p fun _ => true

/-- The sweep of a Pump, where one runs, ended without its last block. -/
def State.tearSweep (s : State) (u : PumpId) (o : OutcomeCode) (mixed : Bool) (inc : W32) : State :=
  match s.pumps[u].sweep with
  | some w => s.tear u w o mixed inc
  | none => s

/-- The update items of a Pump ended by a reset or a fence: sweeps stop at the block boundary, waiting groups end. -/
def State.resetPumpItems (s : State) (u : PumpId) (o : OutcomeCode) (mixed : Bool) (inc : W32) : State :=
  (s.tearSweep u o mixed inc).over (allFin 16) fun s p =>
    let s2 := s.over s.parts[p].cmds fun s c =>
      s.over (List.range c.count) fun s i =>
        if (s.group p (c.first + i)).valid && (s.group p (c.first + i)).pump == u.val then
          match s.pumpCmd? p c.id with
          | some d =>
            if d.stages[i]? == some .verdict then s.dropWaiting p c.id i o inc
            else if d.stages[i]? == some .untriggered then s.endGroup p c.id i o 0 0 none inc
            else s
          | none => s
        else s
    s2.tearClaims p fun g => g.pump == u.val

end Sys2Proof.Machine
end

