-- ==== Sys2Proof/Machine/StormOps.lean ====
section
/-! DEFINITION. Storm watch (16 R373 to R382): steps, counts, the spike test, verdicts and their delivery. -/

namespace Sys2Proof.Machine

/-- A change to the storm watch of a partition. -/
def State.updStorm (s : State) (p : PartId) (f : Storm → Storm) : State := s.updPart p fun x => { x with storm := f x.storm }

/-- The step a report opens or meets (R373): whether the report counts in it. -/
def Storm.meet (x : Storm) (step : W32) : Bool × Storm :=
  if !x.isOpen then (true, { x with isOpen := true, curStep := step, attempt := (x.newest step).isSome })
  else if x.curStep = step then (true, x)
  else (false, { x with mixed := true, mixedReports := satAdd 16 x.mixedReports 1 })

/-- A COUNT or LOSS report applied (R373, R376). -/
def Storm.report (x : Storm) (sat : Bool) : StormReport → Storm
  | .count t n => match x.meet t with
    | (true, y) => { y with nonfinite := satAdd 32 y.nonfinite n }
    | (false, y) => y
  | .loss t v => match x.meet t with
    | (true, y) =>
      let z := { y with lossReports := satAdd 16 y.lossReports 1 }
      match dec32 v.toNat with
      | .num _ _ _ =>
        { z with finiteLoss := true, lossSum := BitVec.ofNat 32 (add32 sat z.lossSum.toNat v.toNat).1 }
      | _ => { z with nonfinite := satAdd 32 z.nonfinite 1 }
    | (false, y) => y
  | .close t _ => (x.meet t).2

/-- 2^-k as an FP32 pattern, k from 0 to 12. -/
def pow2neg (k : Nat) : Nat := (127 - k) * 0x800000

/-- m of the spike test, m_quarters / 4, as an FP32 pattern. -/
def quarters32 (q : Nat) : Nat := (fp32Spec.deliver true true .rne false q 4).1

/-- The spike test (R377). -/
def Storm.spike (x : Storm) (sat : Bool) : Bool :=
  let (a, _) := mul32 sat (quarters32 x.policy.mQuarters) x.dev.toNat
  let (b, _) := add32 sat x.mean.toNat a
  x.finiteLoss && decide (x.policy.warmup ≤ x.folded.toNat) && flt (dec32 b) (dec32 x.lossSum.toNat)

/-- The fold of a loss into the averages (R377). -/
def Storm.fold (x : Storm) (sat : Bool) : Storm :=
  if x.folded = 0 then { x with mean := x.lossSum, dev := 0, folded := 1 }
  else
    let (d0, _) := sub32 sat x.lossSum.toNat x.mean.toNat
    let d := d0 % 0x80000000
    let (a, _) := mul32 sat d0 (pow2neg x.policy.kMean)
    let (m, _) := add32 sat x.mean.toNat a
    let (e, _) := sub32 sat d x.dev.toNat
    let (b, _) := mul32 sat e (pow2neg x.policy.kDev)
    let (v, _) := add32 sat x.dev.toNat b
    { x with mean := BitVec.ofNat 32 m, dev := BitVec.ofNat 32 v, folded := x.folded + 1 }

/-- The step's counts returned to zero (R375). -/
def Storm.endStep (x : Storm) : Storm :=
  { x with isOpen := false, mixed := false, nonfinite := 0, lossReports := 0, finiteLoss := false, mixedReports := 0,
           lossSum := 0, closing := none, closes := [], attempt := false }

/-- A verdict formed (R375, R377, R379, R380): the history, the averages, the latch, and its way to cores and Pumps. -/
def State.formVerdict (s : State) (p : PartId) : State :=
  let x := s.parts[p].storm
  let sat := !s.ieee p
  let nf := x.nonfinite != 0
  let sp := x.spike sat
  let byNf := x.policy.enable && nf
  let bySp := x.policy.enable && sp && x.policy.spikeAction != 0
  let closed := x.latched || x.mixed || byNf || bySp
  let cause := if x.mixed then 0 else if byNf && decide (2 ≤ x.policy.nfAction) then 2
    else if bySp && decide (2 ≤ x.policy.spikeAction) then 3 else 0
  let action := if x.mixed then 0 else max (if byNf then x.policy.nfAction else 0) (if bySp then x.policy.spikeAction else 0)
  let h : HistEntry :=
    { step := x.curStep, valid := true, isOpen := !closed, latched := x.latched || cause != 0, mixed := x.mixed, spike := sp,
      nonfinite := nf }
  let y := if !closed && x.finiteLoss then x.fold sat else x
  let s1 := s.updStorm p fun _ => { y.endStep with
    hist := y.hist.set (y.histHead % 16) h (Nat.mod_lt _ (by decide))
    histHead := (y.histHead + 1) % 16
    deliver := y.deliver ++ [({ step := x.curStep, isOpen := !closed }, x.closes, x.firstCtr)] }
  if cause = 0 then s1 else s1.latch p cause action

/-- The closing set of a step (R374): the present cores of every sequencer that runs or halts a main-region program. -/
def State.closingSet (s : State) (p : PartId) : List CoreId :=
  (s.parts[p].im.img.seqs.filter fun n =>
    (s.seqs[n].state == .running || s.seqs[n].state == .halting) && !s.seqs[n].region).flatMap s.seqCores

/-- May a verdict form now: RUNNING, a closing set, and a CLOSE from every core still in it (R374)? -/
def State.verdictDue (s : State) (p : PartId) : Bool :=
  s.parts[p].state == .running && s.parts[p].storm.isOpen &&
    match s.parts[p].storm.closing with
    | some l => l.all fun c => s.parts[p].storm.closes.any fun e => e.1 == c
    | none => false

/-- A CLOSE that arrives (R374). -/
def State.closeArrives (s : State) (p : PartId) (c : CoreId) (step : W32) (ctr : CtrId) : State :=
  let (counts, x) := s.parts[p].storm.meet step
  let s1 := s.updStorm p fun _ => x
  if !counts then s1
  else
    let l := match x.closing with | some l => l | none => s1.closingSet p
    let y : Storm :=
      { x with closing := some l
               firstCtr := if x.closing.isNone then ctr else x.firstCtr
               closes := if l.contains c && !x.closes.any (fun e => e.1 == c) then x.closes ++ [(c, ctr)] else x.closes }
    let s2 := s1.updStorm p fun _ => y
    if s2.verdictDue p then s2.formVerdict p else s2

/-- A sequencer that has completed a halt: its cores whose CLOSE has not arrived leave the closing set (R374). -/
def State.departClosing (s : State) (p : PartId) (n : SeqId) : State :=
  let gone := s.seqCores n
  let s1 := s.updStorm p fun x => { x with
    closing := x.closing.map fun l => l.filter fun c => !gone.contains c || x.closes.any fun e => e.1 == c }
  if s1.verdictDue p then s1.formVerdict p else s1

/-- A verdict in every core and every Pump of the partition (R375, R203, R363). -/
def State.deliverVerdict (s : State) (p : PartId) : State :=
  match s.parts[p].storm.deliver with
  | [] => s
  | (v, closes, first) :: rest =>
    let s1 := s.updStorm p fun x => { x with deliver := rest }
    let s2 := s1.over (s1.partCores p) fun s c =>
      let n := match closes.find? fun e => e.1 == c with | some e => e.2 | none => first
      (s.updCore c fun x => { x with vx := { x.vx with verdict := some v } }).raiseCtr c n true
    let s3 := if v.isOpen then s2 else s2.msi (.vf p) 2
    s3.over (s3.parts[p].cmds.filter fun c => c.fired && c.op != .settle && c.bound.isNone && c.t == v.step) fun s c =>
      s.bindVerdict p c.id (v.isOpen && !s.parts[p].storm.latched)

end Sys2Proof.Machine
end

