-- ==== Sys2Proof/Machine/Storm.lean ====
section
/-! DEFINITION. The family of step integrity commands (16 R373 to R384): reports, verdicts, STORM capsules. -/

namespace Sys2Proof.Machine

/-- The oldest report of a core taken from its way to storm watch (R203). -/
def State.dropReport (s : State) (c : CoreId) : State :=
  s.updCore c fun x => { x with vx := { x.vx with storms := x.vx.storms.drop 1 } }

/-- STORM_REPORT_ARRIVAL (R376). -/
def execStormReportArrival (c : CoreId) (s : State) : Out :=
  .next <|
    match s.cores[c].vx.storms, s.coreHolder c with
    | .close _ _ :: _, _ => s
    | r :: _, some p => (s.dropReport c).updStorm p fun x => x.report (!s.ieee p) r
    | _, _ => s

/-- STORM_CLOSE_ARRIVAL (R374, R375): discarded while the partition is QUIESCED or STOPPED. -/
def execStormCloseArrival (c : CoreId) (s : State) : Out :=
  .next <|
    match s.cores[c].vx.storms, s.coreHolder c with
    | .close t n :: _, some p =>
      let s1 := s.dropReport c
      if s.parts[p].state == .quiesced || s.parts[p].state == .stopped then s1 else s1.closeArrives p c t n
    | _, _ => s

/-- VERDICT_DELIVERY (R375). -/
def execVerdictDelivery (p : PartId) (s : State) : Out := .next (s.deliverVerdict p)

/-! ### STORM capsules (R384) -/

/-- Does a body match the table of R384? -/
def stormBodyOk (c : Capsule) : Bool :=
  let op := c.field 0 1
  c.body.length == 64 && c.noParams && c.target == 0xFF && decide (1 ≤ op ∧ op ≤ 3) &&
    decide (c.field 1 1 ≤ if op = 1 then 1 else 0) && decide (c.field 2 1 ≤ if op = 2 then 7 else 0) &&
    c.field 3 1 == 0 && (op == 3 || c.field 4 4 == 0) &&
    (op != 2 || (c.field 8 8 % 64 == 0 && decide (c.field 8 8 < wellsEnd) && c.field 0x10 8 % 64 == 0)) &&
    (op != 3 ||
      ((match dec32 (c.field 0x18 4) with | .num _ _ _ => true | _ => false) &&
        match dec32 (c.field 0x1C 4) with | .num n m _ => !n || m == 0 | _ => false)) &&
    zeroBytes c.body 0x20 32

/-- The effect of an op that passed every check. -/
def State.stormRun (s : State) (p : PartId) (c : Capsule) : State :=
  match c.field 0 1 with
  | 2 =>
    let r : W64 × W64 :=
      if c.field 0x10 8 = 0 then (0, 0) else (BitVec.ofNat 64 (c.field 8 8), BitVec.ofNat 64 (c.field 0x10 8))
    s.updStorm p fun x => { x with prot := x.prot.set (c.field 2 1 % 8) r (Nat.mod_lt _ (by decide)) }
  | 3 => s.updStorm p fun x => { x with
      folded := BitVec.ofNat 32 (c.field 4 4), mean := BitVec.ofNat 32 (c.field 0x18 4), dev := BitVec.ofNat 32 (c.field 0x1C 4) }
  | _ => s.updStorm p fun x =>
      let y := { x with latched := false, latchCause := 0 }
      if c.field 1 1 = 1 then { y with mean := 0, dev := 0, folded := 0 } else y

/-- A STORM capsule (R120, R10, R384). -/
def State.stormCapsule (s : State) (p : PartId) (c : Capsule) : State :=
  let op := c.field 0 1
  if !stormBodyOk c then s.capBad p c 4
  else if op == 2 && c.field 0x10 8 != 0 && !s.inWells p (c.field 8 8) (c.field 0x10 8) then
    s.capDone p c 0x0A .refusedOwner 0
  else if op != 1 && (s.parts[p].run.interlude || s.parts[p].storm.isOpen) then s.capDone p c 0x0A .refusedState 0
  else (s.stormRun p c).capDone p c 0x0A .done 0

/-- REOPEN (R384). -/
def execReopen (p : PartId) (s : State) : Out :=
  .next (s.withCapsule p kStorm (fun c => c.field 0 1 != 2 && c.field 0 1 != 3) fun s c => s.stormCapsule p c)

/-- PROTECT (R384). -/
def execProtect (p : PartId) (s : State) : Out :=
  .next (s.withCapsule p kStorm (fun c => c.field 0 1 == 2) fun s c => s.stormCapsule p c)

/-- SET_AVERAGES (R384). -/
def execSetAverages (p : PartId) (s : State) : Out :=
  .next (s.withCapsule p kStorm (fun c => c.field 0 1 == 3) fun s c => s.stormCapsule p c)

end Sys2Proof.Machine
end

