-- ==== Sys2Proof/Machine/Stop.lean ====
section
/-! DEFINITION. Partitions that stop, end or lose their resources (04 R89 to R92; 06 R149, R152; 17 R394 to R396): the
program item, the stop of a partition, the orphan store's maps, and what every item of a partition comes to in a
reset. -/

namespace Sys2Proof.Machine

/-! ### Program items (R150, R152) -/

/-- Does a program item cover a sequencer? -/
def Program.covers (x : Program) (n : SeqId) : Bool := x.seqs.contains n

/-- A fault word with its cause replaced by 0xFF. -/
def elsewhere (w : W64) : W64 := (w &&& 0x00FFFFFFFFFFFFFF#64) ||| 0xFF00000000000000#64

/-- The fault that reaches the collector next: the first signalled, the lower core number in a tie. -/
def PFault.next (x : PFault) : Option (Nat × SeqId × W64 × BitVec 48 × W64) := x.transit.head?

/-- The word that a program item reports for a fault of sequencer `n` of its partition (R150). -/
def Program.faultDetail (x : Program) (n : SeqId) (w : W64) : W64 := if x.covers n then w else elsewhere w

/-- The outcome, cause mask and detail0 of a program item that ends: a fault of its partition that is on its way to the
collector is one more cause (R11, R149, R150). -/
def State.programEnd (s : State) (x : Program) (o : OutcomeCode) (detail : W64) : OutcomeCode × BitVec 7 × W64 :=
  match s.parts[x.part].fault.next with
  | none => (o, 0, detail)
  | some (_, n, w, _, _) =>
    let r := joinCause o 0 .failedSchedule
    (r.1, r.2, if r.1 = o then detail else x.faultDetail n w)

/-- A program item ended: its one record, with engine 0x02. -/
def State.endProgram (s : State) (x : Program) (o : OutcomeCode) (detail : W64) (inc : W32) : State :=
  let e := s.programEnd x o detail
  let s1 := { s with programs := s.programs.filter fun y => y.id != x.id }
  let s2 := s1.over x.seqs fun s n => s.updSeq n fun q => { q with item := if q.item = some x.id then none else q.item }
  s2.post x.part
    { tag := x.tag, step := x.step, outcome := e.1, engine := 0x02, partition := x.part, detail0 := e.2.2, incident := inc
      causes := e.2.1 }
    x.raiseV0

/-- The program items of a partition. -/
def State.programsOf (s : State) (p : PartId) : List Program := s.programs.filter fun x => x.part == p

/-! ### STOP (R89) -/

/-- The sequencers of a partition halted: RUNNING and HALTING read IDLE, FAULTED stays (R149). -/
def State.haltSeqs (s : State) (p : PartId) : State :=
  s.over s.parts[p].im.img.seqs fun s n => s.updSeq n fun q => { q with
    state := if q.state = .running ∨ q.state = .halting then .idle else q.state, loops := [] }

/-- The cores of a partition stopped at a bundle boundary, what their FIFOs hold discarded; a core that faulted still
completes its operations in flight (R148). -/
def State.haltCores (s : State) (p : PartId) : State :=
  s.over (s.partCores p) fun s c => s.updCore c fun x => { x with
    halted := true, drains := x.drains && x.grace.isSome, fifo := [], waiting := none }

/-- Atomics of a partition that wait for their trigger end FAILED_TIMEOUT: no program can raise it any more. -/
def State.stopAtomics (s : State) (p : PartId) (inc : W32) : State :=
  s.over (allFin 3) fun s a =>
    s.over (s.axes[a].atomics.filter fun x => x.part == p && !x.started) fun s x => s.endAtomic a x .failedTimeout inc

/-- May a stop take a partition: it is committed, and no stop is pending? -/
def Partition.stoppable (x : Partition) : Bool :=
  (x.state == .committed || x.state == .running || x.state == .quiesced) && x.run.stopping.isNone

/-- A stop applied (R89, R92): a pending QUIESCE ends REFUSED_STATE; what can no longer run ends; the rest runs to its
own outcome. `byCmd` tells a STOP command, `inc` the incident of a fault. -/
def State.stopPart (s : State) (p : PartId) (cause : Byte) (byCmd : Bool) (inc : W32) : State :=
  if s.parts[p].stoppable then
    let q := s.parts[p].run.quiescing.isSome
    let s1 := s.updPart p fun x => { x with run := { x.run with
      stopping := some (cause, byCmd), interlude := false, quiescing := none,
      lastCmd := if q then 2 else x.run.lastCmd
      outcome := if q then BitVec.ofNat 8 OutcomeCode.refusedState.code else x.run.outcome } }
    let s2 := ((s1.haltSeqs p).haltCores p).refuseQueued p
    let s3 := s2.over (s2.programsOf p) fun s x => s.endProgram x .failedTimeout 0 inc
    (((s3.stopAtomics p inc).stopColls p inc).stopSluices p inc).stopPumps p inc
  else s

/-! ### Maps in the orphan store (R396) -/

/-- The nibble of one tag. -/
def mapNibble : Option OutcomeCode → Nat
  | none => 0
  | some .done => 0xF
  | some o => o.code - 0x0F

/-- Map words, 16 tags each. -/
def mapWords (l : List (Option OutcomeCode)) : List W64 :=
  (List.range ((l.length + 15) / 16)).map fun w =>
    BitVec.ofNat 64 (((l.drop (16 * w)).take 16).foldr (fun o a => mapNibble o + (a <<< 4)) 0)

/-- The outcome of a map: the first in the order of R11, else the lowest code. -/
def mapOutcome (l : List OutcomeCode) : OutcomeCode :=
  match l with
  | [] => .done
  | o :: r => r.foldl (fun a b =>
      if a.rank < b.rank then a else if b.rank < a.rank then b else if a.code ≤ b.code then a else b) o

/-- A map record placed for the tags from `tag` on: one entry per tag, none where its own record was delivered. -/
def State.orphanMap (s : State) (p : PartId) (tag : W64) (step : W32) (engine : Byte) (l : List (Option OutcomeCode))
    (inc : W32) : State :=
  match l.filterMap id with
  | [] => s
  | o :: r => s.orphan p
      { tag := tag, step := step, outcome := mapOutcome (o :: r), engine := engine, partition := p,
        detail0 := place l.length 0 40, incident := inc, map := true } (mapWords l)

/-! ### Every item of a partition ended (R91, R394, R410) -/

/-- The map of a layer: its routes not yet recorded. -/
def Layer.unrecorded (l : Layer) (o : OutcomeCode) : List (Option OutcomeCode) :=
  (List.range (l.tokens * l.k)).map fun i =>
    match l.routes.find? fun r => l.index r == i with
    | some r => if r.recorded then none else some (r.outcome.getD o)
    | none => none

/-- A layer whose routes that are not final end with an outcome. -/
def Layer.endedBy (l : Layer) (o : OutcomeCode) : Layer :=
  { l with routes := l.routes.map fun r => if r.outcome.isNone then { r with outcome := some o } else r }

/-- A layer ended by a reset: ABANDON goes out, its unrecorded routes become a map, its capsule a record. -/
def State.abortLayer (s : State) (n : SluiceId) (l : Layer) (o : OutcomeCode) (inc : W32) : State :=
  let s1 := s.over (s.sluices[n].named.filter fun d => d.1 != s.expertCoord s.chip) fun s d =>
    s.inject (s.tokenPacket l.part (s.expertChip d.1) d.2
      (tokenHead l.layerId 5 0 0 0 0 0 n.val OutcomeCode.failedLink.code 0 l.step 0) [] false) .none none
  let r := addCause (some l.outcome.1) l.outcome.2 o
  ((s1.updSluice n fun x => { x with layers := x.layers.filter fun d => d.id != l.id }).orphanMap l.part l.tagBase l.step
    0x06 (l.unrecorded o) inc).orphan l.part
      { tag := l.tag, step := l.step, outcome := r.1.getD o, engine := 0x06, partition := l.part
        detail0 := BitVec.ofNat 64 (l.endedBy o).detail, incident := inc, causes := r.2 } []

/-- The map of a PUMP command: its groups not yet recorded. -/
def PumpCmd.unrecorded (c : PumpCmd) (o : OutcomeCode) : List (Option OutcomeCode) :=
  (List.range c.count).map fun i => if c.recorded.contains i then none else some o

/-- A PUMP command whose groups that have not ended end with an outcome. -/
def PumpCmd.endedBy (c : PumpCmd) (o : OutcomeCode) : PumpCmd :=
  { c with stages := c.stages.map fun x => if x.isEnded then x else .ended o 0 0 }

/-- A PUMP command ended by a reset: its unrecorded groups become a map, its capsule a record (R360). -/
def State.abortCmd (s : State) (p : PartId) (c : PumpCmd) (o : OutcomeCode) (inc : W32) : State :=
  ((s.updPart p fun x => { x with cmds := x.cmds.filter fun d => d.id != c.id }).orphanMap p c.tag c.t 0x08
    (c.unrecorded o) inc).orphan p
      { tag := c.tag, step := c.t, outcome := (c.endedBy o).outcome, engine := 0x08, partition := p
        detail0 := BitVec.ofNat 64 (c.endedBy o).detail, incident := inc } []

/-- Records that have not been written go to the orphan store, in order (R395). -/
def State.orphanHeld (s : State) (p : PartId) : State :=
  let q := s.parts[p].cq
  (s.updPart p fun x => { x with cq := { x.cq with held := [], waiting := [] } }).over (q.held ++ q.waiting) fun s r =>
    s.orphan p r.1 []

/-- Capsules taken and not started, ended. -/
def State.abortQueued (s : State) (p : PartId) (o : OutcomeCode) (inc : W32) : State :=
  let l := s.parts[p].caps.queue
  (s.updPart p fun x => { x with caps := { x.caps with queue := [] } }).over l fun s c =>
    s.orphan p { tag := c.tag, step := c.step, outcome := o, engine := kindEngine c.kind, partition := p, incident := inc } []

/-- Every item of a partition ended with an outcome and reported through the orphan store. The partition reads EMPTY
already, so every record goes there. -/
def State.abortItems (s : State) (p : PartId) (o : OutcomeCode) (inc : W32) : State :=
  let s0 := s.orphanHeld p
  let s1 := s0.over (s0.xfers.filter fun x => x.part == p) fun s x =>
    (s.poisonUnread x).endXferFor { x with incident := inc } o
  let s2 := s1.over (s1.programsOf p) fun s x => s.endProgram x o 0 inc
  let s3 := s2.over (allFin 3) fun s a =>
    let s' := s.over (s.axes[a].atomics.filter fun x => x.part == p) fun s x => s.endAtomic a x o inc
    let w := s'.axes[a].waiting.filter fun c => c.part == p
    let s'' := (s'.updAxis a fun x => { x with waiting := x.waiting.filter fun c => c.part != p }).over w fun s c =>
      s.endColl a c o inc
    s''.over (s''.axes[a].colls.filter fun c => c.part == p) fun s c => s.failColl a c o inc
  let s4 := s3.over (allFin 4) fun s n =>
    let w := s.sluices[n].waiting.filter fun l => l.part == p
    let s' := (s.updSluice n fun x => { x with waiting := x.waiting.filter fun l => l.part != p }).over w fun s l =>
      s.orphan p { tag := l.tag, step := l.step, outcome := o, engine := 0x06, partition := p, incident := inc } []
    s'.over (s'.sluices[n].layers.filter fun l => l.part == p) fun s l => s.abortLayer n l o inc
  let s5 := s4.over s4.parts[p].cmds fun s c => s.abortCmd p c o inc
  s5.abortQueued p o inc

/-! ### Resources given back (R86, R91) -/

/-- The wards attached to a sequencer: those of the partition that holds it, else its default ones that no partition
holds (R79, R85, R131). -/
def State.wardsAttached (s : State) (n : SeqId) : Nat :=
  match s.seqHolder n with
  | some p => s.parts[p].im.img.wardsOf n.val
  | none => maskOf ((List.range 16).filter fun w => s.image.seqWards[n].testBit w && (s.wardHolder w).isNone)

/-- Every sequencer's attachment brought up to date. -/
def State.attachSeqs (s : State) : State :=
  s.over (allFin 16) fun st n =>
    let m := s.wardsAttached n
    st.updSeq n fun q => { q with
      wardMask := m, state := if m = 0 then .unattached else if q.state = .unattached then .idle else q.state }

/-- The topology entry QTP_ shows for a queue end: its holder's, else the device image's (R142; beside R78,
log 24). -/
def State.topoOf (s : State) (c : CoreId) (q : Nat) : W64 :=
  match s.coreHolder c with
  | some p => Sparse.getD s.parts[p].im.img.topo (c.val * 32 + q) 0
  | none => Sparse.getD s.image.topo (c.val * 32 + q) 0

/-- QTP_ brought up to date for the cores of some wards. -/
def State.showTopo (s : State) (wards : Nat) : State :=
  s.over ((allFin 192).filter fun c => wards.testBit (c.val / 12)) fun st c =>
    st.updCore c fun x => { x with queues := Vector.ofFn fun q : Fin 32 => { x.queues[q] with topo := s.topoOf c q.val } }

/-- The Pumps forget a partition. -/
def State.leavePumps (s : State) (p : PartId) : State :=
  s.over (allFin 4) fun s u => s.updPump u fun x => { x with
    order := x.order.filter fun e => e.1 != p
    sweep := match x.sweep with | some w => if w.part = p then none else some w | none => none }

/-- The Sluices a partition held forget its tables and layers. -/
def State.leaveSluices (s : State) (p : PartId) : State :=
  s.over ((allFin 4).filter fun n => s.parts[p].im.img.sluiceMask.testBit n.val) fun s n => s.updSluice n fun x =>
    { x with placed := false, table := [], tableCount := 0, layers := [], waiting := [], progress := [] }

/-- The resources that a partition holds given back: its sequencers, its places on the Pumps, its Sluices. -/
def State.leaveUnits (s : State) (p : PartId) : State :=
  let s1 := s.over s.parts[p].im.img.seqs fun s n => s.updSeq n fun q => { q with state := .unattached, arm := false, item := none }
  (s1.leavePumps p).leaveSluices p

/-- The resources of a partition freed (R86, R73, R91): what it held, if `held`, belongs to nobody, and contents stay (R90);
nothing of another partition is written (R93). -/
def State.freePart (s : State) (p : PartId) (held : Bool) : State :=
  let wards := s.parts[p].im.img.wardMask
  let s2 := (s.iff held (·.leaveUnits p)).updPart p fun x => { x with
    im := { x.im with img := {}, build := 0, measure := 0, fillPermille := 0, busy := none }
    run := { x.run with interlude := false, quiescing := none, stopping := none, releasing := false }
    caps := { x.caps with queue := [] }
    state := .empty
    fmt := {}, meter := { x.meter with metered := false }, fault := {}, cmds := [], claims := [], storm := {} }
  let s3 := s2.attachSeqs
  (s3.showTopo wards).updPart p fun x => { x with state := s.parts[p].state }

end Sys2Proof.Machine
end

