-- ==== Sys2Proof/Machine/Images.lean ====
section
/-! DEFINITION. What Zhezel images hold (03 R54 to R59, R64, R74; 04 R83 to R85, R95; 06 R142; 10 R246, R247; 11 R255,
R256; 12 R281, R282, R312; 13 R313; 16 R378): their contents read and checked, and applied at COMMIT and in FILL. -/

namespace Sys2Proof.Machine

/-! ### Fields of a section -/

/-- A section as a reader from its first byte. -/
def sectionReader (r : ImgReader) (e : DirEntry) : ImgReader := fun a => r (e.offset + a)

/-- A range of a section is all zero. -/
def zeroAt (r : ImgReader) (a n : Nat) : Bool := (List.range n).all fun i => r (a + i) == 0

/-- A byte table of a section. -/
def byteTable (n : Nat) (r : ImgReader) (a : Nat) : Vector Nat n := Vector.ofFn fun i => (r (a + i.val)).toNat

/-- The ward and Sluice bits present on this module (STW_FUSE_MAP). -/
def State.wardMask (s : State) : Nat := bits s.fuses.map 0 16
def State.sluiceMask (s : State) : Nat := bits s.fuses.map 24 4

/-- A mask within another. -/
def within (m of_ : Nat) : Bool := m &&& of_ == m

/-! ### The structure section of a device image (R83, R85, R95) -/

/-- A seq_default word: explicit, follow_fuse, wards. -/
structure SeqDefault where
  explicit : Bool
  follow : Bool
  wards : Nat
  ok : Bool

def seqDefault (r : ImgReader) (n : Nat) : SeqDefault :=
  let w := imgNat r (0x10 + 4 * n) 4
  let ex := w.testBit 31
  { explicit := ex, follow := w.testBit 16, wards := w % 65536,
    ok := (w >>> 17) % 16384 == 0 && (ex || w % 131072 == 0) }

/-- The wards a sequencer with explicit set attaches, after follow_fuse. -/
def State.explicitWards (s : State) (d : SeqDefault) : Nat :=
  if !d.explicit then 0 else if d.follow then d.wards &&& s.wardMask else d.wards

/-- The default attachments of the sixteen sequencers (R83, R85, R57): a fused ward of R12 is dropped. -/
def State.seqAttach (s : State) (r : ImgReader) : Vector Nat 16 :=
  let ds := (List.range 16).map (seqDefault r)
  let taken := ds.foldl (fun m d => m ||| s.explicitWards d) 0
  Vector.ofFn fun n =>
    let d := seqDefault r n.val
    if d.explicit then s.explicitWards d
    else if taken.testBit n.val || !s.wardPresent n.val then 0 else 1 <<< n.val

/-- Is a byte an entry of the owner map: 0x00, or a master of R94? -/
def ownerByte (b : Byte) : Bool := decide (b.toNat ≤ 4 ∨ (16 ≤ b.toNat ∧ b.toNat < 32))

/-- The owner map's values and window rules (R95). -/
def ownerMapOk (r : ImgReader) : Bool :=
  (List.range 128).all fun e =>
    let b := r (0x80 + e)
    ownerByte b && (e != 12 || decide (b.toNat ≤ 1)) &&
      (!decide (16 ≤ e ∧ e < 80) || decide (b.toNat < 16) || b.toNat == 16 + e % 16)

/-- An envelope as its bytes spell it. -/
def parseEnvelope (r : ImgReader) : Envelope :=
  { defined := (r 0).getLsbD 0, wardFollow := (r 0).getLsbD 1, sluiceFollow := (r 0).getLsbD 2
    keyMask := (r 1).toNat, minSvn := (r 2).toNat, wardMask := imgNat r 4 2, sluiceMask := (r 6).toNat
    pumpMask := (r 7).toNat, wellMask := imgNat r 8 2, maxShare := (r 0x0A).toNat, maxGroups := imgNat r 0x0C 2
    maxWellW := byteTable 12 r 0x10, maxPumpW := byteTable 4 r 0x1C, maxCis := byteTable 4 r 0x20
    maxAxis := byteTable 3 r 0x24, maxPort := byteTable 18 r 0x28 }

/-- An envelope's values are in range. -/
def envelopeOk (r : ImgReader) : Bool :=
  let e := parseEnvelope r
  decide ((r 0).toNat < 8 ∧ e.keyMask < 16 ∧ e.minSvn ≤ 63 ∧ e.sluiceMask < 16 ∧ e.pumpMask < 16 ∧
    e.wellMask < 4096 ∧ e.maxShare ≤ 32 ∧ e.maxGroups ≤ 4096) &&
    e.maxCis.all (fun z => decide (z ≤ 64)) && zeroAt r 3 1 && zeroAt r 0x0B 1 && zeroAt r 0x0E 2 && zeroAt r 0x27 1 &&
    zeroAt r 0x3A 70

def envelopeReader (r : ImgReader) (p : Nat) : ImgReader := fun a => r (0x100 + 0x80 * p + a)

/-- A power cap field: 400 to 2,000, or 0 for a default. -/
def capField (x : Nat) : Bool := x == 0 || decide (400 ≤ x ∧ x ≤ 2000)

/-- The structure section of a device image is in range. -/
def State.deviceStructureOk (s : State) (r : ImgReader) (len : Nat) : Bool :=
  let ds := (List.range 16).map (seqDefault r)
  len == 4096 && capField (imgNat r 0 2) && capField (imgNat r 2 2) && zeroAt r 4 12 && zeroAt r 0x50 48 &&
    zeroAt r 0x900 1792 && ds.all (·.ok) &&
    allPairs (fun a b => s.explicitWards a &&& s.explicitWards b == 0) ds && ownerMapOk r &&
    (List.range 16).all fun p => envelopeOk (envelopeReader r p)

/-- Does the structure section name a fused ward or Sluice (R57)? -/
def State.deviceNamesFused (s : State) (r : ImgReader) : Bool :=
  (List.range 16).any (fun n => !within (s.explicitWards (seqDefault r n)) s.wardMask) ||
    (List.range 16).any fun p =>
      let e := parseEnvelope (envelopeReader r p)
      (!e.wardFollow && !within e.wardMask s.wardMask) || (!e.sluiceFollow && !within e.sluiceMask s.sluiceMask)

/-! ### Queue topology (R142) -/

/-- Push and pop port codes (06, Port codes). -/
def pushPort (x : Nat) : Bool := [0, 1, 2, 3, 4, 5, 7].contains x
def popPort (x : Nat) : Bool := x == 0 || decide (0x11 ≤ x ∧ x ≤ 0x19)

/-- Core records of a topology section, as (core, offset of its entries). -/
def topoRecords (r : ImgReader) (len : Nat) : List (Nat × Nat) :=
  (List.range (len / 264)).map fun i => (imgNat r (264 * i) 2, 264 * i + 8)

/-- The entries of a topology section, keyed core × 32 + queue end. -/
def parseTopo (r : ImgReader) (len : Nat) : Sparse W64 :=
  (topoRecords r len).flatMap fun e => (List.range 32).filterMap fun q =>
    let w : W64 := BitVec.ofNat 64 (imgNat r (e.2 + 8 * q) 8)
    if w = 0 then none else some (e.1 * 32 + q, w)


/-- Strictly rising numbers. -/
def rising (l : List Nat) : Bool := allPairs (fun a b => decide (a < b)) l

/-- The records and codes of a topology section are in range. -/
def topoForm (r : ImgReader) (len : Nat) : Bool :=
  len % 264 == 0 && decide (len / 264 ≤ 192) && rising ((topoRecords r len).map (·.1)) &&
    (topoRecords r len).all (fun e => decide (e.1 < 192) && zeroAt r (e.2 - 6) 6) &&
    (parseTopo r len).all fun e => pushPort (topoPush e.2) && popPort (topoPop e.2) && bits e.2 0 35 == 0 &&
      (topoPush e.2 == 7 || topoPop e.2 == 0x19 || bits e.2 35 13 == 0)

/-- The far end of each cross-core link of an entry: (core, queue end, is it the pop side there). -/
def topoLink (w : W64) : Bool := topoPush w == 7 || topoPop w == 0x19

/-- Does the far end of a link name it back (R142)? -/
def topoBack (t : Sparse W64) (key : Nat) (w : W64) : Bool :=
  let far := Sparse.getD t (topoCore w * 32 + topoQueue w) 0
  let back := topoCore far == key / 32 && topoQueue far == key % 32
  (topoPush w != 7 || (topoPop far == 0x19 && back)) && (topoPop w != 0x19 || (topoPush far == 7 && back))

/-- The links of a topology pair up; a link to a fused core is left to the check of R57. -/
def State.topoPairs (s : State) (t : Sparse W64) : Bool :=
  t.all fun e => !topoLink e.2 ||
    (decide (topoCore e.2 < 192) && (!s.corePresent (topoCore e.2) || topoBack t e.1 e.2))

/-- Does a topology link a present core's queue end to a fused core (R57)? -/
def State.topoNamesFused (s : State) (t : Sparse W64) : Bool :=
  t.any fun e => topoLink e.2 && s.corePresent (e.1 / 32) && !s.corePresent (topoCore e.2)

/-! ### Memory (R255) -/

/-- The memory section of a device image is in range. -/
def deviceMemoryOk (r : ImgReader) (len : Nat) : Bool :=
  len == 256 && r 0 == 0x0B && decide (1 ≤ (r 1).toNat ∧ (r 1).toNat ≤ 72) && zeroAt r 2 18 &&
    (byteTable 12 r 0x14).all (fun w => decide (1 ≤ w ∧ w ≤ 64)) && zeroAt r 0x20 12 &&
    (byteTable 4 r 0x2C).all (fun w => decide (1 ≤ w ∧ w ≤ 64)) &&
    (List.range 4).all (fun p => decide (1 ≤ imgNat r (0x30 + 4 * p) 4 ∧ imgNat r (0x30 + 4 * p) 4 ≤ 64)) && zeroAt r 0x40 192

/-- The memory section of a partition image is in range, under the limits L_p of the device image. -/
def partMemoryOk (limit : Vector Nat 4) (r : ImgReader) (len : Nat) : Bool :=
  let wm := imgNat r 2 2
  let share := (r 4).toNat
  let ex := imgNat r 6 2
  len == 256 && r 0 == 0 && r 1 == 0 && decide (wm < 4096 ∧ share ≤ 32) && (wm == 0) == (share == 0) && r 5 == 0 &&
    within ex wm &&
    (List.range 12).all (fun w =>
      let b := (r (8 + w)).toNat
      let g := (r (0x14 + w)).toNat
      if wm.testBit w then decide (b + share ≤ 32 ∧ 1 ≤ g) else b == 0 && g == 0) &&
    (allFin 4).all (fun p =>
      let a := (r (0x30 + 4 * p.val)).toNat
      let z := (r (0x31 + 4 * p.val)).toNat
      decide (a + z ≤ limit[p]) && zeroAt r (0x32 + 4 * p.val) 2 && (z != 0 || r (0x2C + p.val) == 0)) && zeroAt r 0x40 192

/-! ### Format defaults (R246, R378) -/

def parseFmt (r : ImgReader) : FmtSection :=
  { ovmode := (r 0).toNat, cvtRound := (r 1).toNat, chunk := (r 2).toNat, sr := (r 3).toNat, enable := (r 0x40).toNat
    nfAction := (r 0x41).toNat, spikeAction := (r 0x42).toNat, mismatchAction := (r 0x43).toNat, kMean := (r 0x44).toNat
    kDev := (r 0x45).toNat, mQuarters := (r 0x46).toNat, warmup := imgNat r 0x48 2 }

def fmtOk (r : ImgReader) (len : Nat) : Bool :=
  let f := parseFmt r
  decide (256 ≤ len ∧ len ≤ 4096) && zeroAt r 256 (len - 256) && zeroAt r 4 60 && zeroAt r 0x47 1 && zeroAt r 0x4A 182 &&
    [1, 2, 255].contains f.ovmode && [1, 2, 3, 255].contains f.cvtRound && (decide (f.chunk ≤ 15) || f.chunk == 255) &&
    [0, 1, 255].contains f.sr && [0, 1, 255].contains f.enable && [1, 2, 3, 255].contains f.nfAction &&
    [0, 1, 2, 3, 255].contains f.spikeAction && [2, 3, 255].contains f.mismatchAction &&
    (decide (1 ≤ f.kMean ∧ f.kMean ≤ 12) || f.kMean == 255) && (decide (1 ≤ f.kDev ∧ f.kDev ≤ 12) || f.kDev == 255) &&
    (decide (4 ≤ f.mQuarters ∧ f.mQuarters ≤ 64) || f.mQuarters == 255) && f.warmup != 0

/-- A field resolved (R247): the partition's value, else the device's, else the built-in default. -/
def pick (unset part dev builtin : Nat) : Nat := if part != unset then part else if dev != unset then dev else builtin

def resolveFmt (p d : FmtSection) : PFmt :=
  { ovmode := BitVec.ofNat 2 (pick 255 p.ovmode d.ovmode 1), cvtRound := BitVec.ofNat 2 (pick 255 p.cvtRound d.cvtRound 1)
    sr := pick 255 p.sr d.sr 0 == 1, chunk := BitVec.ofNat 4 (pick 255 p.chunk d.chunk 3) }

/-- The storm gate policy resolved (R378). -/
def resolvePolicy (p d : FmtSection) : Policy :=
  { enable := pick 255 p.enable d.enable 1 == 1, nfAction := pick 255 p.nfAction d.nfAction 1
    spikeAction := pick 255 p.spikeAction d.spikeAction 0, mismatchAction := pick 255 p.mismatchAction d.mismatchAction 2
    kMean := pick 255 p.kMean d.kMean 6, kDev := pick 255 p.kDev d.kDev 6
    mQuarters := pick 255 p.mQuarters d.mQuarters 16, warmup := pick 65535 p.warmup d.warmup 100 }

/-! ### Fabric (R281, R282, R293, R299, R312, R313) -/

/-- A placement entry: serial and chip number. -/
def placeEntry (r : ImgReader) (i : Nat) : Nat × Nat := (imgNat r (0x8100 + 32 * i) 16, imgNat r (0x8110 + 32 * i) 2)

/-- Does a chip number lie inside a torus? -/
def chipIn (dims : Vector Nat 3) (c : Nat) : Bool :=
  decide (c < 0x8000) && (allFin 3).all fun d => decide (coord (BitVec.ofNat 15 c) d < dims[d])

/-- The chip number this module takes (R282). -/
def placedChip (r : ImgReader) (count : Nat) : Option Nat :=
  let es := (List.range count).map (placeEntry r)
  match es.find? fun e => e.1 == Config.chipSerial.toNat with
  | some e => some e.2
  | none => (es.find? fun e => e.1 == 0).map (·.2)

/-- The reserves are within R293, and the pool left over is at least 65. -/
def reservesOk (r : ImgReader) : Bool :=
  let v (i : Nat) := imgNat r (0x10 + 2 * i) 2
  (List.range 12).all (fun i =>
    if i < 3 then v i == 16 else if i % 3 == 0 then decide (v i ≤ 512) else decide (65 ≤ v i ∧ v i ≤ 512)) &&
    decide ((List.range 12).foldl (fun a i => a + v i) 0 + 65 ≤ 4096)

/-- The roles are within R313. -/
def rolesOk (r : ImgReader) (dims : Vector Nat 3) : Bool :=
  let ro := byteTable 3 r 4
  (allFin 3).all (fun a => decide (ro[a] ≤ 3) && (dims[a] != 1 || ro[a] == 0)) && r 7 == 0 &&
    allPairs (fun a b => a == 0 || a != b) ro.toList

/-- The fabric section is in range, placement included. -/
def fabricOk (r : ImgReader) (len : Nat) : Bool :=
  let dims := byteTable 3 r 0
  let count := imgNat r 0x40 4
  let es := (List.range count).map (placeEntry r)
  dims.all (fun d => decide (1 ≤ d ∧ d ≤ 32)) && r 3 == 0 && rolesOk r dims &&
    decide (2 ≤ (r 8).toNat ∧ (r 8).toNat ≤ 64 ∧ 3 ≤ (r 9).toNat ∧ (r 9).toNat ≤ 32 ∧ 50 ≤ imgNat r 0xA 2 ∧
      imgNat r 0xA 2 ≤ 60000 ∧ 1 ≤ (r 0xC).toNat ∧ (r 0xC).toNat ≤ 50) &&
    (byteTable 3 r 0xD).all (fun w => decide (1 ≤ w)) && reservesOk r && (byteTable 16 r 0x28).all (fun p => decide (p ≤ 15)) &&
    (List.range 4).all (fun g => let c := imgNat r (0x38 + 2 * g) 2; c == 0xFFFF || chipIn dims c) &&
    decide (1 ≤ count ∧ count ≤ 32768) && len == 0x8100 + 32 * count && zeroAt r 0x44 188 &&
    (List.range 32768).all (fun c =>
      let m := (r (0x100 + c)).toNat
      decide (m < 64) && (allFin 6).all fun n => !m.testBit n.val || dims[portDim n] != 1) &&
    es.all (fun e => chipIn dims e.2) && (List.range count).all (fun i => zeroAt r (0x8112 + 32 * i) 14) &&
    (es.map (·.2)).eraseDups.length == count && decide ((es.filter fun e => e.1 == 0).length ≤ 1) &&
    (placedChip r count).isSome

def parseFabric (r : ImgReader) (len : Nat) : FabricCfg :=
  { chip := BitVec.ofNat 15 ((placedChip r (imgNat r 0x40 4)).getD 0), dims := byteTable 3 r 0, roles := byteTable 3 r 4
    hbPeriodUs := (r 8).toNat, missLimit := (r 9).toNat, probationMs := imgNat r 0xA 2, tc0Permille := (r 0xC).toNat
    classWeight := byteTable 3 r 0xD, reserve := Vector.ofFn fun i => imgNat r (0x10 + 2 * i.val) 2
    pair := Vector.ofFn fun i => partOf (r (0x28 + i.val)).toNat
    gateways := ((List.range 4).map fun g => imgNat r (0x38 + 2 * g) 2).filter (· != 0xFFFF)
    digest := Config.sha384 (imgBytes r 0 len) }

/-- The routing table of epoch 0 (R299); entries not listed are zero. -/
def parseRoutes (r : ImgReader) : Sparse Byte :=
  (List.range 32768).filterMap fun c => if r (0x100 + c) = 0 then none else some (c, r (0x100 + c))

/-! ### The device image (R64) -/

/-- The entry of a section that is present. -/
def ImageHeader.sec (h : ImageHeader) (t : Nat) : DirEntry := (h.section? t).getD ⟨t, 1, 0, 0, 0, 0⟩

/-- A device image as its sections spell it. -/
def State.parseDevice (s : State) (r : ImgReader) (h : ImageHeader) : DeviceImage :=
  let st := sectionReader r (h.sec 2)
  let me := sectionReader r (h.sec 4)
  let fa := sectionReader r (h.sec 5)
  let capOr (x d : Nat) : Nat := if x = 0 then d else x
  { svn := h.svn, buildId := h.buildId, measure := h.measurement
    powerCap := capOr (imgNat st 0 2) 2000, brakeCap := capOr (imgNat st 2 2) 1000
    seqWards := s.seqAttach st, owner := Vector.ofFn fun i => st (0x80 + i.val)
    envelopes := Vector.ofFn fun p => parseEnvelope (envelopeReader st p.val)
    topo := parseTopo (sectionReader r (h.sec 3)) (h.sec 3).length
    patrolHours := (me 1).toNat, wellWeight := byteTable 12 me 0x14, pumpWeight := byteTable 4 me 0x2C
    cisLimit := Vector.ofFn fun p => (me (0x30 + 4 * p.val)).toNat
    fmt := parseFmt (sectionReader r (h.sec 6)), fabric := parseFabric fa (h.sec 5).length, route0 := parseRoutes fa }

/-- The sections of a device image whose contents are out of range, in the order of R64 step 7. -/
def State.deviceBadSection (s : State) (r : ImgReader) (h : ImageHeader) : Option Nat :=
  let rd (t : Nat) := sectionReader r (h.sec t)
  let len (t : Nat) := (h.sec t).length
  if !s.deviceStructureOk (rd 2) (len 2) then some 2
  else if !topoForm (rd 3) (len 3) || !s.topoPairs (parseTopo (rd 3) (len 3)) then some 3
  else if !deviceMemoryOk (rd 4) (len 4) then some 4
  else if !fabricOk (rd 5) (len 5) then some 5
  else if !fmtOk (rd 6) (len 6) then some 6
  else none

/-- VERIFY (R64): the image, or the reason of the first check that fails and the section it looked at. -/
def State.verifyImage (s : State) : Except (Byte × Byte) DeviceImage :=
  let r := s.slotReader
  let h := parseHeader r
  if !h.wellFormed then .error (0x01, 0)
  else if h.kind != 1 || h.target != 0xFF then .error (0x02, 0)
  else if !h.sectionsOk then .error (0x01, 0)
  else
    match h.dir.find? fun e => !digestOk r e with
    | some e => .error (0x03, BitVec.ofNat 8 e.type)
    | none =>
      if !(parseSig r (h.sec 0x0F).offset).deviceOk h then .error (0x04, 0x0F)
      else if h.svn < s.fuses.minSvn then .error (0x06, 0)
      else if !s.gradeOk h then .error (0x07, 0)
      else
        match s.deviceBadSection r h with
        | some t => .error (0x08, BitVec.ofNat 8 t)
        | none =>
          if s.deviceNamesFused (sectionReader r (h.sec 2)) then .error (0x09, 0x02)
          else if s.topoNamesFused (parseTopo (sectionReader r (h.sec 3)) (h.sec 3).length) then .error (0x09, 0x03)
          else .ok (s.parseDevice r h)

/-! ### Partition images (R74, R84, R85) -/

/-- The driver of a ward, 0xFE resolved to the sequencer whose default attachment holds it and lies within the
partition (R85): none where there is none. -/
def State.resolveDriver (s : State) (wards : Nat) (w d : Nat) : Option Nat :=
  if d = 0xFE then
    ((List.range 16).find? fun n => (s.image.seqWards[seqOf n]).testBit w && within s.image.seqWards[seqOf n] wards)
  else if d < 16 then some d else none

/-- The structure section of a partition image is in range. A driver of 0xFE on a fused ward is left to step 6 of R74,
as the example of 03 takes it. -/
def State.partStructureOk (s : State) (r me : ImgReader) (len : Nat) : Bool :=
  let wm := imgNat r 0 2
  let dims := s.image.fabric.dims
  len == 256 && wm != 0 && zeroAt r 2 2 && zeroAt r 0x15 3 && zeroAt r 0x23 1 && zeroAt r 0x36 202 &&
    decide ((r 0x14).toNat < 16) &&
    (List.range 16).all (fun w =>
      let d := (r (4 + w)).toNat
      if wm.testBit w then (s.resolveDriver wm w d).isSome || (d == 0xFE && !s.wardPresent w) else d == 0xFF) &&
    decide ((List.range 4).foldl (fun a p => a + imgNat r (0x18 + 2 * p) 2) 0 ≤ 4096) &&
    (List.range 4).all (fun p => me (0x31 + 4 * p) != 0 || imgNat r (0x18 + 2 * p) 2 == 0) &&
    (allFin 3).all (fun a => r (0x20 + a.val) == 0 || decide (2 ≤ dims[a])) &&
    (allFin 6).all fun n => (List.range 3).all fun c => r (0x24 + 3 * n.val + c) == 0 || decide (2 ≤ dims[portDim n])

/-- A partition image as its sections spell it. -/
def State.parsePart (s : State) (r : ImgReader) (h : ImageHeader) : PartImage :=
  let st := sectionReader r (h.sec 2)
  let me := sectionReader r (h.sec 4)
  let wm := imgNat st 0 2
  { svn := h.svn, buildId := h.buildId, measure := h.measurement, wardMask := wm
    driver := Vector.ofFn fun w =>
      if wm.testBit w.val then (s.resolveDriver wm w.val (st (4 + w.val)).toNat).getD 0xFF else 0xFF
    sluiceMask := (st 0x14).toNat, groupCount := Vector.ofFn fun p => imgNat st (0x18 + 2 * p.val) 2
    axisWeight := byteTable 3 st 0x20, portShare := byteTable 18 st 0x24
    wellMask := imgNat me 2 2, share2g := (me 4).toNat, exclMask := imgNat me 6 2, base2g := byteTable 12 me 8
    weight := byteTable 12 me 0x14, cap := byteTable 12 me 0x20, pumpWeight := byteTable 4 me 0x2C
    cisA := Vector.ofFn fun p => (me (0x30 + 4 * p.val)).toNat, cisZ := Vector.ofFn fun p => (me (0x31 + 4 * p.val)).toNat
    topo := parseTopo (sectionReader r (h.sec 3)) (h.sec 3).length
    fmt := match h.section? 6 with | some e => parseFmt (sectionReader r e) | none => {} }

/-- Every present core of the wards has a record (R142). -/
def State.topoCovers (s : State) (wards : Nat) (r : ImgReader) (len : Nat) : Bool :=
  (List.range 192).all fun c => !wards.testBit (c / 12) || !s.corePresent c ||
    (topoRecords r len).any fun e => e.1 == c

/-- The entries of the cores of some wards. -/
def topoOfWards (t : Sparse W64) (wards : Nat) : Sparse W64 := t.filter fun e => wards.testBit (e.1 / 384)

/-- The links among a partition's cores pair up; links to fused cores or to cores outside are left to R57 and R142. -/
def State.partTopoPairs (s : State) (wards : Nat) (t : Sparse W64) : Bool :=
  t.all fun e => !topoLink e.2 || (decide (topoCore e.2 < 192) &&
    (!s.corePresent (topoCore e.2) || !wards.testBit (topoCore e.2 / 12) || topoBack t e.1 e.2))

/-- Step 5 of R74: every section's contents are in range. -/
def State.partContentsOk (s : State) (r : ImgReader) (h : ImageHeader) : Bool :=
  let rd (t : Nat) := sectionReader r (h.sec t)
  let len (t : Nat) := (h.sec t).length
  let wm := imgNat (rd 2) 0 2
  s.partStructureOk (rd 2) (rd 4) (len 2) && topoForm (rd 3) (len 3) && s.topoCovers wm (rd 3) (len 3) &&
    s.partTopoPairs wm (topoOfWards (parseTopo (rd 3) (len 3)) wm) && partMemoryOk s.image.cisLimit (rd 4) (len 4) &&
    match h.section? 6 with | some e => fmtOk (sectionReader r e) e.length | none => true

/-- Step 7 of R74: the image lies within its envelope. -/
def State.inEnvelope (s : State) (e : Envelope) (i : PartImage) : Bool :=
  let wards := if e.wardFollow then e.wardMask &&& s.wardMask else e.wardMask
  let sluices := if e.sluiceFollow then e.sluiceMask &&& s.sluiceMask else e.sluiceMask
  e.defined && within i.wardMask wards && within i.sluiceMask sluices &&
    within (maskOf (i.pumps.map (·.val))) e.pumpMask && within i.wellMask e.wellMask && decide (i.share2g ≤ e.maxShare) &&
    decide (i.groupCount.foldl (· + ·) 0 ≤ e.maxGroups) &&
    (allFin 12).all (fun w => decide (i.weight[w] ≤ e.maxWellW[w])) &&
    (allFin 4).all (fun p => decide (i.pumpWeight[p] ≤ e.maxPumpW[p] ∧ i.cisZ[p] ≤ e.maxCis[p])) &&
    (allFin 3).all (fun a => decide (i.axisWeight[a] ≤ e.maxAxis[a])) &&
    (allFin 18).all (fun k => decide (i.portShare[k] ≤ e.maxPort[k])) &&
    (topoOfWards i.topo i.wardMask).all fun t => !topoLink t.2 || i.wardMask.testBit (topoCore t.2 / 12)

/-- The zero fields of a partition image's signature block. -/
def SigBlock.partForm (g : SigBlock) : Bool :=
  g.kind == 2 && g.padOk && g.serial.all (· == 0) && g.signingKey.all (· == 0) && g.certSig.all (· == 0)

/-- STAGE's checks (R74): the image, or the outcome and reason of the first check that fails. -/
def State.checkPartImage (s : State) (p : PartId) : Except (OutcomeCode × Byte) PartImage :=
  let x := s.parts[p].im
  let r := bytesReader x.bytes
  let h := parseHeader r
  let e := s.image.envelopes[p]
  let g := parseSig r (h.sec 0x0F).offset
  if x.length = 0 || decide (0x400000 < x.length.toNat) || !h.wellFormed || h.length != x.length.toNat then
    .error (.refusedState, 0x01)
  else if h.kind != 2 || (h.target != p.val && h.target != 0xFF) then .error (.refusedState, 0x02)
  else if !h.sectionsOk then .error (.refusedState, 0x01)
  else if !h.dir.all (digestOk r) then .error (.refusedState, 0x03)
  else
    match s.keySlotOf g.firstKey with
    | none => .error (.refusedState, 0x05)
    | some k =>
      if !e.keyMask.testBit k.val then .error (.refusedState, 0x05)
      else if !g.partForm || !Config.ecdsaVerify g.firstKey h.raw g.imageSig then .error (.refusedState, 0x04)
      else if h.svn < e.minSvn then .error (.refusedState, 0x06)
      else if !s.gradeOk h then .error (.refusedState, 0x07)
      else if !s.partContentsOk r h then .error (.refusedState, 0x08)
      else
        let i := s.parsePart r h
        if !within i.wardMask s.wardMask || !within i.sluiceMask s.sluiceMask ||
            s.topoNamesFused (topoOfWards i.topo i.wardMask) then .error (.refusedAbsent, 0x09)
        else if !s.inEnvelope e i then .error (.refusedState, 0x0A)
        else .ok i

/-! ### COMMIT's checks (R75, R80, R256) -/

/-- Is a unit of an image out of service: in a failed field, or a well or Pump that is not ACTIVE or SELF_REFRESH? -/
def State.outOfService (s : State) (i : PartImage) : Bool :=
  let bad (f : Nat) : Bool := s.fields[fieldOf f].failed
  let idle (m : MemCtl) : Bool := m.state != .active && m.state != .selfRefresh
  (List.range 16).any (fun w => i.wardMask.testBit w && bad (w / 4)) || i.seqs.any (fun n => bad (n.val / 4)) ||
    (List.range 4).any (fun n => i.sluiceMask.testBit n && bad n) ||
    i.wells.any (fun w => bad (w.val / 3) || idle s.wells[w]) || i.pumps.any fun u => bad u.val || idle s.pumps[u].mem

/-- Two ranges of numbers overlap; an empty one overlaps nothing. -/
def overlaps (a n b m : Nat) : Bool := decide (0 < n ∧ 0 < m ∧ a < b + m ∧ b < a + n)

/-- Does an image conflict with one that is committed? -/
def PartImage.conflicts (i j : PartImage) : Bool :=
  i.wardMask &&& j.wardMask != 0 || i.sluiceMask &&& j.sluiceMask != 0 || i.seqs.any (fun n => j.seqs.contains n) ||
    (i.exclMask &&& j.wellMask != 0) || (j.exclMask &&& i.wellMask != 0) ||
    (allFin 12).any (fun w => i.wellMask.testBit w.val && j.wellMask.testBit w.val &&
      overlaps i.base2g[w] i.share2g j.base2g[w] j.share2g) ||
    (allFin 4).any fun p => overlaps i.cisA[p] i.cisZ[p] j.cisA[p] j.cisZ[p]

/-- A sum of shares over an image and the committed ones. -/
def shareSum (l : List PartImage) (i : PartImage) (f : PartImage → Nat) : Nat := l.foldl (fun a j => a + f j) (f i)

/-- R75 step 3: a resource held by another partition, or a share above the whole. -/
def State.conflicts (s : State) (p : PartId) (i : PartImage) : Bool :=
  let l := (s.committedParts.filter (· != p)).map fun q => s.parts[q].im.img
  l.any i.conflicts ||
    (allFin 12).any (fun w => decide (256 < s.image.wellWeight[w] + shareSum l i fun j => j.weight[w])) ||
    (allFin 4).any (fun u => decide (256 < s.image.pumpWeight[u] + shareSum l i fun j => j.pumpWeight[u])) ||
    (allFin 3).any (fun a => decide (256 < shareSum l i fun j => j.axisWeight[a])) ||
    (allFin 18).any fun k => decide (256 < shareSum l i fun j => j.portShare[k])

/-! ### Soundings that end (R424) -/

/-- A running sounding ended with an outcome: what it changed returns (R423). -/
def State.endSounding (s : State) (o : OutcomeCode) : State :=
  if s.snd.running then
    { s with snd := { s.snd with running := false, outcome := BitVec.ofNat 8 o.code, lastKind := s.snd.runKind,
                                 lastTarget := s.snd.runTarget }
             ports := s.ports.map fun x =>
               match x.scanLane with
               | some l => { x with scanLane := none, laneMask := x.laneMask ||| (1#16 <<< l.toNat) }
               | none => x }
  else s

/-- A sounding of a port that leaves ADMITTED, parks or loses a lane ends FAILED_LINK (R424). -/
def State.endPortSounding (s : State) (n : PortId) : State :=
  if [1, 4, 5].contains s.snd.runKind.toNat && s.snd.runTarget.toNat == n.val then s.endSounding .failedLink else s

/-- An intrusive sounding of a well or Pump of partition p ends with REFUSED_STATE before RESUME or COMMIT applies. -/
def State.endSoundingsOf (s : State) (p : PartId) : State :=
  let i := s.parts[p].im.img
  let hit := (s.snd.runKind == 6 && i.wellMask.testBit s.snd.runTarget.toNat) ||
    (s.snd.runKind == 7 && i.pumps.any fun u => u.val == s.snd.runTarget.toNat)
  if hit then s.endSounding .refusedState else s

/-! ### COMMIT applied (R75, R247, R277, R278, R433) -/

/-- The sections applied: sequencers attached, defaults resolved, the storm watch and the counts of the units reset. -/
def State.applySections (s : State) (p : PartId) : State :=
  let i := s.parts[p].im.img
  let s1 := s.attachSeqs.updPart p fun x => { x with
    fmt := resolveFmt i.fmt s.image.fmt, storm := { policy := resolvePolicy i.fmt s.image.fmt }
    groups := [], cmds := [], claims := [], fault := {} }
  let s2 := s1.over (allFin 3) fun s a => s.updAxis a fun x => { x with records := x.records.set p 0, failed := x.failed.set p 0 }
  s2.over ((allFin 4).filter fun n => i.sluiceMask.testBit n.val) fun s n => s.updSluice n fun _ => { dead := s.sluices[n].dead }

/-- A range of a unit written with zeros in epoch `e` (R277): listed pages are skipped; an armed flip mask fires (R274). -/
def MemCtl.fill (m : MemCtl) (e a n : Nat) : MemCtl :=
  let inR (x : Nat) : Bool := decide (a ≤ x ∧ x < a + n) && !m.quarantined x
  let m1 := { m with data := m.data.filter fun c => !inR c.1, marker := m.marker.filter fun k => !inR (64 * k),
                     errs := m.errs.filter fun e => !inR (64 * e.1) }
  if m.flipArm && inR (64 * m.flipSector.toNat) then m1.fire e else m1

/-- A core's memories, queues, counters, tiles, holds and sticky flags as COMMIT and FILL leave them (R75, R90, R141,
R187, R188, R196, R245). -/
def Core.cleared (x : Core) : Core :=
  { x with mem := [], memPoison := [], acc := [], accPoison := [], beats := 0, inflight := [], ring := {}
           sync := Vector.replicate 32 {}, barriers := Vector.replicate 16 0, raised := [], fifo := [], waiting := none
           grace := none, drains := false, halted := false, queues := x.queues.map fun q => { q with entries := [] }
           mx := { x.mx with active := {}, shadow := {}, pend := [], heldUntil := 0, rowHeld := [], counted := [], flags := {} }
           vx := { x.vx with funcUntil := 0, topkUntil := 0, storms := [], flags := {} } }

/-- The fill of a commit: view, allocations, cores, instruction memories. -/
def State.fillPart (s : State) (p : PartId) : State :=
  let i := s.parts[p].im.img
  let s1 := s.over i.wells fun s w => s.updWell w fun m => m.fill s.epoch (i.base2g[w] * g2) (i.share2g * g2)
  let s2 := s1.over i.pumps fun s u => s.updMem (.quarter u) fun m => m.fill s.epoch (i.cisA[u] * g4) (i.cisZ[u] * g4)
  let s3 := s2.over (s2.partCores p) fun s c => s.updCore c Core.cleared
  s3.over i.seqs fun s n => s.updSeq n fun q => { q with imem := [] }

/-- The queue topology published in QTP_ (R75). -/
def State.publishTopology (s : State) (p : PartId) : State := s.showTopo s.parts[p].im.img.wardMask

/-- Do two images claim shares of one resource (R80, R256)? -/
def PartImage.sharesWith (i j : PartImage) : Bool :=
  i.wellMask &&& j.wellMask != 0 || (allFin 4).any (fun u => i.pumpWeight[u] != 0 && j.pumpWeight[u] != 0) ||
    (allFin 3).any (fun a => i.axisWeight[a] != 0 && j.axisWeight[a] != 0) ||
    (allFin 18).any fun k => i.portShare[k] != 0 && j.portShare[k] != 0

/-- Do the staged images of two partitions claim a common resource (R76)? -/
def State.contend (s : State) (p q : PartId) : Bool :=
  s.parts[p].im.img.conflicts s.parts[q].im.img || s.parts[p].im.img.sharesWith s.parts[q].im.img

end Sys2Proof.Machine
end

