-- ==== Sys2Proof/Machine/Reset.lean ====
section
/-! DEFINITION. Resets (05 R128, R129; 17 R388 to R390, R394, R395, R410; 03 R63, R67, R68, R72, R78; 04 R91): what each
ends, what each keeps, and where boot begins again. -/

namespace Sys2Proof.Machine

/-! ### Boot states (R63, R68) -/

/-- The boot state changed (R125: PF vector 0); entering BARE ends what earlier loader sessions allowed (R68). -/
def State.setBoot (s : State) (b : BootState) : State :=
  if s.boot.state == b then s
  else
    let bare := b == .bare
    let s1 := { s with
      boot := { s.boot with state := b, bareCause := if bare then s.boot.bareCause else 0, fillPermille := 0 }
      loader := { s.loader with endedSinceBare := s.loader.endedSinceBare && !bare } }
    s1.msi .pf 0

/-- MOD_FAULT# asserted (R17, R125). -/
def State.modFault (s : State) : State :=
  if s.power.modFault then s else ({ s with power := { s.power with modFault := true } }).msi .pf 0

/-- BARE entered with a cause. -/
def State.bare (s : State) (cause : BitVec 4) : State :=
  ({ s with boot := { s.boot with bareCause := cause } }).setBoot .bare

/-- Is the fuse map one that R27 allows? -/
def fuseMapOk (m : W64) : Bool :=
  let wards := bits m 0 16
  let sluices := bits m 24 4
  let fusedW := (List.range 16).filter fun w => !wards.testBit w
  let fusedS := (List.range 4).filter fun n => !sluices.testBit n
  match bits m 28 4, fusedW, fusedS with
  | 1, [], [] => true
  | 2, [a, b], [n] => a / 4 != b / 4 && (n == a / 4 || n == b / 4)
  | _, _, _ => false

/-- Boot begins (R63): VERIFY, or BARE where the fuse map is invalid, the strap holds the module there, or the slot
lacks its valid mark. -/
def State.bootStart (s : State) : State :=
  if !fuseMapOk s.fuses.map then
    ((s.event 0x0102 unitSteward partNone sevDevice 0 (packDetail [(s.fuses.map.toNat, 8)])).bare 4).modFault
  else if s.power.straps.bootBare && !s.loader.endedSinceStraps then s.bare 1
  else if !s.loader.slotValid then s.bare 2
  else s.setBoot .verify

/-- Boot after a device reset (R68): BARE stays unless a session has ended in it; a boot without rails waits for them. -/
def State.reboot (s : State) : State :=
  if s.boot.state == .bare && !s.loader.endedSinceBare then s
  else if s.boot.railsUp then s.bootStart
  else s.setBoot .verify

/-! ### What a reset ends -/

/-- An interrupted image command of a partition, recorded in the Almanac (R78). -/
def State.noteImageReset (s : State) (p : PartId) : State :=
  match s.parts[p].im.busy with
  | some c => s.event 0x0103 unitSteward (partByte p) sevInfo 0 (packDetail [(c.toNat, 1), (0x0C, 1)])
  | none => s

/-- A partition taken to EMPTY: its items end with an outcome in the orphan store, and its resources are free (R91,
R394, R395). -/
def State.emptyPart (s : State) (p : PartId) (o : OutcomeCode) (inc : W32) : State :=
  let held := s.parts[p].claims?
  let s1 := s.updPart p fun x => { x with im := { x.im with busy := none, bytes := [] } }
  ((s1.setPart p .empty).abortItems p o inc).freePart p held

/-- A partition's registers after a device reset: only the orphan store remains (R397). -/
def Partition.afterReset (x : Partition) : Partition := { orphan := x.orphan }

/-- A memory unit after a device reset: its flash tables remain (R271, R275). -/
def MemCtl.afterReset (m : MemCtl) : MemCtl :=
  { data := m.data, marker := m.marker, errs := m.errs, remap := m.remap, qtn := m.qtn, tempC := m.tempC, refresh2x := m.refresh2x }

/-- What a device reset leaves (R410; the rail of a failed field is tried again, R400): all but what R410, R101, R405, R427 and the always-on domain keep is at its reset
value; reject_reason and fail_section of STW_BOOT_STATUS are kept (log 16). -/
def State.afterReset (s : State) : State :=
  { pending := s.pending, timeNs := s.timeNs, freeCount := s.freeCount, nextItem := s.nextItem
    power := { s.power with
      capW := 2000, brakeCapW := 1000
      railFields := Vector.ofFn fun f => s.power.railFields[f] || (s.fields[f].failed && s.power.railWells) }
    fields := s.fields.map fun f => { f with failed := false }
    fuses := s.fuses
    boot := { state := s.boot.state, bareCause := s.boot.bareCause, rejectReason := s.boot.rejectReason,
              failSection := s.boot.failSection, railsUp := s.boot.railsUp }
    loader := { slot := s.loader.slot, slotValid := s.loader.slotValid, endedSinceStraps := s.loader.endedSinceStraps,
                endedSinceBare := s.loader.endedSinceBare }
    almanac := s.almanac
    ctl := { recordedGen := s.ctl.recordedGen, incident := s.ctl.incident, faultSource := s.ctl.faultSource,
             halted := s.ctl.halted }
    link := { link := s.link.link, width := s.link.width, detectUntil := s.link.detectUntil, msi := s.link.msi }
    host := s.host
    parts := s.parts.map Partition.afterReset
    wells := s.wells.map MemCtl.afterReset
    pumps := s.pumps.map fun x => { mem := x.mem.afterReset }
    fabric := { fenceEpoch := s.fabric.fenceEpoch, fenced := s.fabric.fenced, fencedAt := s.fabric.fencedAt,
                selfFenced := s.fabric.selfFenced, readmits := s.fabric.readmits }
    cisTemp := s.cisTemp }

/-- A device reset (R128, R395, R410): every item of every partition ends, and what is not kept is at its reset value. -/
def State.deviceReset (s : State) (o : OutcomeCode) (inc : W32) : State :=
  let s1 := s.over (allFin 16) fun s p => s.noteImageReset p
  let s2 := s1.over (allFin 16) fun s p => s.emptyPart p o inc
  ((s2.over (allFin 4) fun s f => s.unretain f).flushAlmanac).afterReset

/-- The field, well, Cistern and optics rails on, in that order (R18). -/
def State.railsOn (s : State) : State :=
  { s with power := { s.power with railFields := Vector.replicate 4 true, railWells := true, railCistern := true,
                                   railOptics := true, govAt := s.timeNs, commonMv := 650 } }

/-- A PERST#, hot reset or PF function-level reset (R128, R389): the rails return after an input collapse once P54V is
back; after a thermal trip the device stays halted. -/
def State.hostReset (s : State) : State :=
  let s1 := s.deviceReset .abortedReset 0
  if s1.ctl.halted then
    if s1.power.thermTrip || s1.power.supply != .inRange || !s1.power.pwrEn then s1
    else ({ s1 with ctl := { s1.ctl with halted := false } }).railsOn
  else if s1.power.pwrEn then s1.reboot else s1

/-- A function-level reset of VF p + 1 (R91, R78, R129): the usage record first, then EMPTY. -/
def State.vfReset (s : State) (p : PartId) : State :=
  let busy := s.parts[p].im.busy
  let s1 := (s.usage p 4).emptyPart p .abortedReset 0
  let s2 := s1.updPart p fun x => { x with
    cq := {}
    caps := { x.caps with expected := 1, takenSeq := 0, ignored := 0, lastTaken := Vector.replicate 32 0, bar2Log2 := 36 } }
  match busy with
  | some c => (s2.updPart p fun x => { x with im := { x.im with
      outcome := BitVec.ofNat 8 OutcomeCode.abortedReset.code, reason := 0x0C, lastCmd := c.setWidth 3 } }).msi (.vf p) 3
  | none => s2

/-! ### Loss of P54V (R21, R24, R410) -/

/-- The next sequence number that the flash shows (R427). -/
def flashSeq (slots : Sparse AlmRecord) : W32 :=
  slots.foldl (fun n e => if n.toNat ≤ e.2.seq.toNat then e.2.seq + 1 else n) 0

/-- Everything but the fuses, the flash and what stands outside the module is lost; Almanac writes not yet in flash
are lost with it (R430). The owner key slots are fuses and stay (R61, log 15). -/
def State.powerLoss (s : State) : State :=
  { pending := s.pending, timeNs := s.timeNs, freeCount := s.freeCount, nextItem := s.nextItem
    power := { perst := s.power.perst, brake := s.power.brake }
    fuses := s.fuses
    loader := { slot := s.loader.slot, slotValid := s.loader.slotValid }
    almanac := { slots := s.almanac.slots, nextSeq := flashSeq s.almanac.slots, cycles := s.almanac.cycles,
                 opNs := s.almanac.opNs }
    link := { msi := s.link.msi }
    host := s.host
    wells := s.wells.map fun m => { remap := m.remap, qtn := m.qtn }
    pumps := s.pumps.map fun x => { mem := { remap := x.mem.remap, qtn := x.mem.qtn } } }

end Sys2Proof.Machine
end

