-- ==== Sys2Proof/Machine/Boot.lean ====
section
/-! DEFINITION. The family of boot commands (03 R63 to R68): VERIFY, STRUCTURE, FILL and READY. -/

namespace Sys2Proof.Machine

/-- VERIFY ended with a failure (R67). -/
def State.verifyFailed (s : State) (reason section_ : Byte) : State :=
  let s1 := { s with boot := { s.boot with rejectReason := reason, failSection := section_ } }
  ((s1.event 0x0101 unitSteward partNone sevDevice 0
    (packDetail [(reason.toNat, 1), (section_.toNat, 1)])).bare 3).modFault

/-- A verified device image taken (R58, R66): what it fixes, and the image registers. -/
def State.takeImage (s : State) (i : DeviceImage) : State :=
  { s with
    image := i
    boot := { s.boot with infoSvn := i.svn, infoMinSvn := s.fuses.minSvn, infoLayout := 1, infoBuild := i.buildId,
                          infoMeasure := i.measure }
    power := { s.power with capW := BitVec.ofNat 16 i.powerCap, brakeCapW := BitVec.ofNat 16 i.brakeCap } }

/-- BOOT_VERIFY (R64, R67). -/
def execBootVerify (s : State) : Out :=
  .next <|
    if s.boot.state == .verify && s.boot.railsUp then
      match s.verifyImage with
      | .error (reason, sect) => s.verifyFailed reason sect
      | .ok i => (s.takeImage i).setBoot .structure_
    else s

/-- A port as STRUCTURE leaves it: training, or DOWN where its dimension has size 1 (R63, R281). -/
def State.trainPort (s : State) (n : PortId) : State :=
  s.updPort n fun _ =>
    if s.image.fabric.dims[portDim n] ≤ 1 then { state := .down, cause := 0x07 } else
      { state := .training, transmitting := true, hbSentAt := s.timeNs, hbSeenAt := s.timeNs, tokenAt := s.timeNs }

/-- A memory unit trained in STRUCTURE (R257, R258): to what rate is the stack's, a free value (log 7). -/
def State.trainMem (s : State) (u : MemUnit) : State :=
  let (v, s1) := s.fresh
  s1.updMem u fun m => { m with rate := v.toNat % 10 + 1 }

/-- The Cistern's rate per pin in Mb/s (R258, R279): that of the slowest quarter, what lies below a Gb/s free (log 7). -/
def State.trainCistern (s : State) : State :=
  let (v, s1) := s.fresh
  let least := s1.pumps.foldl (fun a x => min a x.mem.rate) 10
  { s1 with cisRate := BitVec.ofNat 16 (min 10667 (1000 * least + v.toNat % 1000)) }

/-- BOOT_STRUCTURE (R63): the sections are applied and link training begins. -/
def execBootStructure (s : State) : Out :=
  .next <|
    if s.boot.state == .structure_ then
      let s1 := { s with fabric := { s.fabric with tables := (Vector.replicate 2 []).set 0 s.image.route0 } }
      let s2 := (s1.attachSeqs.showTopo 0xFFFF).over (allFin 6) fun s n => s.trainPort n
      let s3 := (s2.over (allFin 12) fun s w => s.trainMem (.well w)).over (allFin 4) fun s u => s.trainMem (.quarter u)
      s3.trainCistern.setBoot .fill
    else s

/-- A unit filled whole (R277). -/
def MemCtl.fillAll (m : MemCtl) (e size : Nat) : MemCtl :=
  if m.state = .filling then { m.fill e 0 size with state := .active } else m

/-- Bytes of a well and of a quarter (R251). -/
def wellSize : Nat := 0x1000000000
def quarterSize : Nat := 0x4000000000

/-- The permille of the wells' 768 GiB and the Cistern's 1,024 GiB whose fill has ended (03, fill_permille; log 24). -/
def State.fillProgress (s : State) : Nat :=
  (64 * s.wells.countP (fun m => m.state != .filling) + 256 * s.pumps.countP (fun x => x.mem.state != .filling)) * 1000 / 1792

/-- The packages of a quarter, as CIS_STATUS.pkg_ok numbers them (R279). -/
def pkgsOf (u : PumpId) : W16 := 0xF#16 <<< (4 * u.val)

/-- The memory whose fill ends next: the wells, then the Cistern quarters, in rising order; after them the core
memories, accumulator buffers and instruction memory (none). The order is the model's choice (log 24). -/
def State.nextFill (s : State) : Option MemUnit :=
  match (allFin 12).find? fun w => s.wells[w].state == .filling with
  | some w => some (.well w)
  | none => ((allFin 4).find? fun u => s.pumps[u].mem.state == .filling).map .quarter

/-- BOOT_FILL (R63, R277, R279, R433): zeros in one unit, or in every core and instruction memory. -/
def execBootFill (s : State) : Out :=
  .next <|
    if s.boot.state == .fill then
      let s1 : State := match s.nextFill with
        | some (.well w) => s.updWell w fun m => m.fillAll s.epoch wellSize
        | some (.quarter q) =>
          let s1 := s.updPump q fun x => { x with mem := x.mem.fillAll s.epoch quarterSize }
          { s1 with pkgOk := s1.pkgOk ||| pkgsOf q }
        | none =>
          { s with
            boot := { s.boot with coresFilled := true }
            cores := s.cores.map Core.cleared
            seqs := s.seqs.map fun q => { q with imem := [] } }
      { s1 with boot := { s1.boot with fillPermille := s1.fillProgress } }
    else s

/-- FILL_COMPLETE (R63, R277, R416): every fill has ended; READY, observation begins for every part. -/
def execFillComplete (s : State) : Out :=
  .next <|
    if s.boot.state == .fill && s.boot.coresFilled && s.wells.all (fun m => m.state != .filling) && s.pumps.all (fun x => x.mem.state != .filling) then
      let s1 := s.setBoot .ready
      { s1 with
        boot := { s1.boot with fillPermille := 1000 }
        power := { s1.power with modFault := false }
        readyAt := s1.timeNs
        parts := s1.parts.map fun x => { x with lull := { x.lull with idleSince := s1.timeNs } }
        baro := { s1.baro with evalAt := s1.timeNs, marginAt := s1.timeNs, parts := (Vector.ofFn fun i : Fin 26 => { out := decide (20 ≤ i.val) }) } }
    else s

end Sys2Proof.Machine
end

