-- ==== Sys2Proof/Machine/Mem.lean ====
section
/-! DEFINITION. The family of memory commands (11 R262 to R275; 17 R401): sector accesses, patrol, remap table,
quarantine list, flip mask, and service of a unit. -/

namespace Sys2Proof.Machine

/-- Sectors and pages of a unit. -/
def memSectors : MemUnit → Nat
  | .well _ => wellSize / 64
  | .quarter _ => quarterSize / 64
def memPages (u : MemUnit) : Nat := memSectors u / 1024

/-- Control space offset of a unit's register block (R7). -/
def memOffset : MemUnit → Nat
  | .well w => 0x2000000 + w.val * 0x10000
  | .quarter u => 0x2200000 + u.val * 0x10000

/-- Does a unit serve accesses: it is ACTIVE, or leaves self-refresh for them? -/
def MemCtl.serves (m : MemCtl) : Bool := m.state == .active || m.state == .selfRefresh

/-- WELL_READ (R265, R266, R268): a sector read by an engine, a transfer or the host. -/
def execWellRead (w : WellId) (sector : Nat) (src : ReadSource) (errs : List Nat) (onDie : Nat) (s : State) : Out :=
  .next <|
    if s.wells[w].serves && decide (sector < memSectors (.well w)) then
      ((s.unrest (.well w)).readSector (.well w) (64 * sector) src errs onDie).2
    else s

/-- WELL_WRITE (R262, R269): a whole sector written. -/
def execWellWrite (w : WellId) (sector : Nat) (data : Sector) (poison : Bool) (s : State) : Out :=
  .next <|
    if s.wells[w].serves && decide (sector < memSectors (.well w)) then
      (s.unrest (.well w)).updWell w fun m => m.store s.epoch (64 * sector) (leBytes data.toNat 64) poison
    else s

/-- MEMORY_SIDE_ADD (R263, R264): one block added; op 0 is no add. -/
def execMemorySideAdd (w : WellId) (sector : Nat) (op : BitVec 2) (data : Sector) (poison ieee : Bool) (s : State) : Out :=
  .next <|
    if s.wells[w].serves && decide (sector < memSectors (.well w)) && op != 0 then
      ((s.unrest (.well w)).addSector w (64 * sector) op.toNat (leBytes data.toNat 64) poison ieee).2
    else s

/-- PATROL_READ (R267, R270): the next sector of the patrol; a patrol that has gone round begins a new period. -/
def execPatrolRead (u : MemUnit) (errs : List Nat) (s : State) : Out :=
  .next <|
    let m := s.mem u
    if m.state == .active then
      let k := m.patrolPos % memSectors u
      let s1 := (s.readSector u (64 * k) .patrol errs 0).2
      s1.updMem u fun m =>
        if k + 1 < memSectors u then { m with patrolPos := k + 1 } else { m with patrolPos := 0, corrected := [] }
    else s

/-! ### Remap table (R271, R272) -/

/-- A remap command ended (11, MEM_REMAP_CTRL). -/
def State.remapDone (s : State) (u : MemUnit) (o : OutcomeCode) : State :=
  s.updMem u fun m => { m with remapOutcome := BitVec.ofNat 8 o.code }

/-- Does a committed partition have a share in a unit? -/
def State.memHeld (s : State) (u : MemUnit) : Bool :=
  s.committedParts.any fun p =>
    match u with
    | .well w => s.parts[p].im.img.wellMask.testBit w.val
    | .quarter q => s.parts[p].im.img.cisZ[q] != 0

/-- The effect of ADD by the driver (R271): the sector is read, corrected or poisoned, and served from a spare. -/
def State.remapAdd (s : State) (u : MemUnit) (k : Nat) : State :=
  if (s.mem u).remapped k then s.remapDone u .done
  else if (s.mem u).gone || 16 ≤ (s.mem u).remap.length || memSectors u ≤ k then s.remapDone u .refusedState
  else
    let s1 := (s.readSector u (64 * k) .remap [] 0).2
    let s2 := s1.updMem u fun m => ((m.store s.epoch (64 * k) (m.sectorData (64 * k)) (m.marked (64 * k))).addRemap k true)
    (s2.event 0x0502 (unitMem u) partNone sevAbsorbed 0 (packDetail [((unitMem u).toNat, 1), (k, 4)])).remapDone u .done

/-- REMAP_ADD (R65, R271). -/
def execRemapAdd (u : MemUnit) (sector : Nat) (s : State) : Out := .next (s.atReg (memOffset u + 0x100) (·.remapAdd u sector))

/-- A sector that its spare no longer serves: what the array holds there is not given, free values (log 7). -/
def State.unspare (s : State) (u : MemUnit) (k : Nat) : State :=
  let n := s.freeCount
  ({ s with freeCount := n + 1 }).updMem u fun m =>
    m.put (64 * k) ((List.range 64).map fun i => Config.freeByte n i) false

/-- The effect of CLEAR (R272). -/
def State.remapClear (s : State) (u : MemUnit) : State :=
  if s.memHeld u then s.remapDone u .refusedState
  else
    let l := (s.mem u).remap
    ((s.updMem u fun m => { m with remap := [] }).over l fun s e => s.unspare u e.1).remapDone u .done

/-- REMAP_CLEAR (R65, R272). -/
def execRemapClear (u : MemUnit) (s : State) : Out := .next (s.atReg (memOffset u + 0x100) (·.remapClear u))

/-! ### Quarantine list (R275) -/

def State.qtnDone (s : State) (u : MemUnit) (o : OutcomeCode) : State :=
  s.updMem u fun m => { m with qtnOutcome := BitVec.ofNat 8 o.code }

/-- Does a committed partition's share cover a page? -/
def State.pageHeld (s : State) (u : MemUnit) (page : Nat) : Bool := (s.sectorHolder u (65536 * page)).isSome

/-- The effect of ADD. -/
def State.quarantineAdd (s : State) (u : MemUnit) (page : Nat) : State :=
  if has (s.mem u).qtn page then s.qtnDone u .done
  else if 256 ≤ (s.mem u).qtn.length || memPages u ≤ page then s.qtnDone u .refusedState
  else (s.updMem u fun m => { m with qtn := m.qtn ++ [page] }).qtnDone u .done

/-- QUARANTINE_ADD (R65, R275). -/
def execQuarantineAdd (u : MemUnit) (page : Nat) (s : State) : Out :=
  .next (s.atReg (memOffset u + 0x118) (·.quarantineAdd u page))

/-- The effect of REMOVE: the gap is closed. -/
def State.quarantineRemove (s : State) (u : MemUnit) (page : Nat) : State :=
  if s.pageHeld u page then s.qtnDone u .refusedState
  else (s.updMem u fun m => { m with qtn := delFrom m.qtn page }).qtnDone u .done

/-- QUARANTINE_REMOVE (R65, R275). -/
def execQuarantineRemove (u : MemUnit) (page : Nat) (s : State) : Out :=
  .next (s.atReg (memOffset u + 0x118) (·.quarantineRemove u page))

/-! ### Flip mask (R273, R274) -/

/-- A bit field as written: 576 to 1,022 is applied as 0x3FF. -/
def flipField (v : W64) (lo : Nat) : BitVec 10 :=
  let n := bits v lo 10
  if 576 ≤ n then 0x3FF else BitVec.ofNat 10 n

/-- The effect of a write of MEM_FLIP_CTRL by a master, of epoch `n` (R273); a firing of that epoch or a later one is not
undone (R6). -/
def State.flipWrite (s : State) (u : MemUnit) (v : W64) (master : Byte) (n : Nat) : State :=
  let k := bits v 6 32
  let set (m : MemCtl) : MemCtl := { m with
    flipB := flipField v 54, flipA := flipField v 44, flipSector := BitVec.ofNat 32 k,
    flipFired := m.flipFired && (!bit v 1 || decide (n ≤ m.flipEpoch)) }
  if bit v 0 then
    let h := s.sectorHolder u (64 * k)
    let ok : Bool := match h with | some p => s.parts[p].state == .quiesced | none => true
    if ok then s.updMem u fun m => { set m with flipArm := true, flipAt := s.timeNs, flipPart := h }
    else s.report master (memOffset u + 0x110) .refusedState false none
  else s.updMem u set

def execFlipArm (u : MemUnit) (value : W64) (atNs : Nat) (s : State) : Out :=
  .next <|
    let s1 := s.advanceTo atNs
    s1.atReg (memOffset u + 0x110) fun s => s.flipWrite u value (s.owner (memOffset u + 0x110)) s.epoch

/-- FLIP_ARM_EXPIRY (R273): 1 s after arming. -/
def execFlipArmExpiry (u : MemUnit) (atNs : Nat) (s : State) : Out :=
  .next <|
    let s1 := s.advanceTo atNs
    if (s1.mem u).flipArm && decide ((s1.mem u).flipAt + 1000000000 ≤ s1.timeNs) then
      s1.updMem u fun m => { m with flipArm := false, flipPart := none }
    else s1

/-! ### Service (R401, R416) -/

def State.svcDone (s : State) (u : MemUnit) (code : Byte) : State :=
  s.updMem u fun m => { m with svcOutcome := code, svcRunning := false }

def codeByte (o : OutcomeCode) : Byte := BitVec.ofNat 8 o.code

/-- The effect of TAKE_OUT. -/
def State.takeOut (s : State) (u : MemUnit) : State :=
  if (s.mem u).svcRunning then s
  else if (s.mem u).serves && !s.memHeld u then
    ((s.updMem u fun m => { m with state := .out }).baroOut (baroMem u) true).svcDone u (codeByte .done)
  else s.svcDone u (codeByte .refusedState)

/-- TAKE_OUT (R65, R401). -/
def execTakeOut (u : MemUnit) (s : State) : Out := .next (s.atReg (memOffset u + 0x120) (·.takeOut u))

/-- The effect of RETURN: tests and fill run. -/
def State.unitReturn (s : State) (u : MemUnit) : State :=
  if (s.mem u).svcRunning then s
  else if (s.mem u).gone && !s.memHeld u then s.updMem u fun m => { m with svcRunning := true }
  else s.svcDone u (codeByte .refusedState)

/-- RETURN (R65, R401). -/
def execUnitReturn (u : MemUnit) (s : State) : Out := .next (s.atReg (memOffset u + 0x120) (·.unitReturn u))

/-- The field whose rail a unit depends on (R12). -/
def memField : MemUnit → FieldId
  | .well w => fieldOf (w.val / 3)
  | .quarter u => u

/-- The outcome codes other than DONE (R9). -/
def failureCodes : List OutcomeCode :=
  [.failedLink, .failedFenced, .failedPoison, .failedTimeout, .failedCapacity, .refusedOwner, .refusedState, .refusedAbsent,
   .refusedStep, .skippedFrozen, .abortedReset, .failedSchedule, .gated]

/-- UNIT_RETURN_COMPLETE (R401, R277, R416): ACTIVE, or DEAD, after a fill also where
a quarter returns (log 25); which code of R9 a failure has is not given, a
free value (log 7). A unit of a failed field cannot return. -/
def execUnitReturnComplete (u : MemUnit) (ok : Bool) (s : State) : Out :=
  .next <|
    if (s.mem u).svcRunning then
      if ok && !s.fields[memField u].failed then
        let s1 := s.updMem u fun m => { m.fill s.epoch 0 (64 * memSectors u) with state := .active, retrains := 0 }
        (s1.baroOut (baroMem u) false).svcDone u (codeByte .done)
      else
        let (v, s1) := s.fresh
        (s1.updMem u fun m => { m with state := .dead }).svcDone u (codeByte (failureCodes.getD (v.toNat % 13) .failedLink))
    else s

end Sys2Proof.Machine
end

