-- ==== Sys2Proof/Machine/Dead.lean ====
section
/-! DEFINITION. The family of units that fail (17 R398 to R400; 04 R92; 13 R331; 14 R350): dead wells, Pumps, axis engines
and Sluices, field rails, and the retrains before them. -/

namespace Sys2Proof.Machine

/-- A job-ending fault (R388, R390, R92): one incident, and every partition of the list stops with a cause. -/
def State.jobFault (s : State) (source : Byte) (l : List PartId) (cause : Byte) : State :=
  let s1 := s.incident source (maskOf (l.map (·.val))) sevJob
  s1.over l fun s p => s.stopPart p cause false s1.ctl.incident

/-- Transfers in flight whose source or destination is gone carry the incident that will end them (R390, R398). -/
def State.markGone (s : State) : State :=
  { s with xfers := s.xfers.map fun x =>
      let far (h : Bool) (a : W64) : Bool := !h && s.isLocal a && s.viewGone x.part (gaOff a) (x.length / 64)
      if x.kind != .signal && x.outcome.isNone && (far x.srcHost x.src || far x.dstHost x.dst) then
        { x with incident := s.ctl.incident }
      else x }

/-- A unit made DEAD, its out bit set (R416). -/
def State.killMem (s : State) (u : MemUnit) : State :=
  (s.updMem u fun m => { m with state := .dead, svcRunning := false }).baroOut (baroMem u) true

/-- The committed partitions that hold a share of a unit. -/
def State.usersOf (s : State) (u : MemUnit) : List PartId :=
  s.committedParts.filter fun p =>
    match u with
    | .well w => s.parts[p].im.img.wellMask.testBit w.val
    | .quarter q => s.parts[p].im.img.cisZ[q] != 0

/-- The effect of a dead well (R398, R92). -/
def State.wellDead (s : State) (w : WellId) : State :=
  if s.wells[w].state == .dead then s
  else ((s.killMem (.well w)).jobFault 0x03 (s.usersOf (.well w)) 0x04).markGone

def execWellDead (w : WellId) (s : State) : Out := .next (s.wellDead w)

/-- The update items of a dead Pump: its sweep leaves the group torn with mixed set (R399, R368; log 31). What waits ends
with the stop of its partition (R372). -/
def State.pumpItemsDead (s : State) (u : PumpId) (inc : W32) : State :=
  (s.tearSweep u .failedLink true inc).updPump u fun x => { x with order := [], idle := false, resetting := false }

/-- The effect of a dead Pump (R399, R92). -/
def State.pumpDead (s : State) (u : PumpId) : State :=
  if s.pumps[u].mem.state == .dead then s
  else
    let l := s.usersOf (.quarter u)
    let s1 := (s.killMem (.quarter u)).incident 0x04 (maskOf (l.map (·.val))) sevJob
    let s2 := s1.pumpItemsDead u s1.ctl.incident
    (s2.over l fun s p => s.stopPart p 0x04 false s1.ctl.incident).markGone

def execPumpDead (u : PumpId) (s : State) : Out := .next (s.pumpDead u)

/-- The items of an axis engine that is dead end FAILED_LINK (log 18). -/
def State.axisItemsDead (s : State) (a : AxisId) (inc : W32) : State :=
  let s1 := s.over s.axes[a].atomics fun s x => s.endAtomic a x .failedLink inc
  let w := s1.axes[a].waiting
  let s2 := (s1.updAxis a fun x => { x with waiting := [] }).over w fun s c => s.endColl a c .failedLink inc
  s2.over s2.axes[a].colls fun s c => s.failColl a c .failedLink inc

/-- AXIS_ENGINE_DEAD (R331, R92). -/
def execAxisEngineDead (a : AxisId) (s : State) : Out :=
  .next <|
    if s.axes[a].dead then s
    else
      let l := s.committedParts.filter fun p => s.parts[p].im.img.axisWeight[a] != 0
      let s1 := (s.updAxis a fun x => { x with dead := true }).incident 0x05 (maskOf (l.map (·.val))) sevJob
      let s2 := s1.axisItemsDead a s1.ctl.incident
      s2.over l fun s p => s.stopPart p 0x04 false s1.ctl.incident

/-- The layers of a Sluice that is dead end FAILED_LINK (log 18). -/
def State.sluiceItemsDead (s : State) (n : SluiceId) (inc : W32) : State :=
  let w := s.sluices[n].waiting
  let s1 := (s.updSluice n fun x => { x with waiting := [] }).over w fun s l => s.endWaitingLayer l .failedLink inc
  s1.over s1.sluices[n].layers fun s l => s.failLayer n l .failedLink inc

/-- SLUICE_DEAD (R350, R388): a fault in a resource that only its holder uses. -/
def execSluiceDead (n : SluiceId) (s : State) : Out :=
  .next <|
    if s.sluices[n].dead || !s.sluicePresent n.val then s
    else
      let l := (s.sluiceHolder n).toList
      let s1 := (s.updSluice n fun x => { x with dead := true }).incident 0x06 (maskOf (l.map (·.val))) sevJob
      let s2 := s1.sluiceItemsDead n s1.ctl.incident
      s2.over l fun s p => s.stopPart p 0x04 false s1.ctl.incident

/-- Does a partition hold a ward, a Sluice, a well or an allocation that a field rail serves (R92)? -/
def State.onField (s : State) (f : FieldId) (p : PartId) : Bool :=
  let i := s.parts[p].im.img
  (List.range 16).any (fun w => i.wardMask.testBit w && w / 4 == f.val) || i.sluiceMask.testBit f.val ||
    (List.range 12).any (fun w => i.wellMask.testBit w && w / 3 == f.val) || i.cisZ[f] != 0

/-- FIELD_RAIL_FAULT (R400, R92): its wells and its Pump go DEAD, its cores and its Sluice are gone. -/
def execFieldRailFault (f : FieldId) (s : State) : Out :=
  .next <|
    if s.fields[f].failed then s
    else
      let l := s.committedParts.filter fun p => s.onField f p
      let s1 := (s.updField f fun x => { x with failed := true, railMv := 0, rateMbeat := 0, retained := false }).incident 0x08
        (maskOf (l.map (·.val))) sevJob
      let inc := s1.ctl.incident
      let s2 := { s1 with power := { s1.power with railFields := s1.power.railFields.set f false } }
      let s3 := s2.over ((allFin 12).filter fun w => w.val / 3 == f.val) fun s w => s.killMem (.well w)
      let s4 := (s3.killMem (.quarter f)).pumpItemsDead f inc
      let s5 := s4.sluiceItemsDead f inc
      (s5.over l fun s p => s.stopPart p 0x04 false inc).markGone

/-- WELL_INTERFACE_RETRAIN (R398, R414): three failed retrains in a row are a dead well. -/
def execWellInterfaceRetrain (w : WellId) (ok : Bool) (s : State) : Out :=
  .next <|
    if s.wells[w].gone then s
    else
      let s1 := s.evidence (baroMem (.well w)) evRetrain 1
      if ok then s1.updWell w fun m => { m with retrains := 0 }
      else
        let s2 := s1.updWell w fun m => { m with retrains := m.retrains + 1 }
        if 3 ≤ s2.wells[w].retrains then s2.wellDead w else s2

/-- PUMP_LINK_RETRAIN (R399, R414): a link that fails retraining is a dead Pump. -/
def execPumpLinkRetrain (u : PumpId) (ok : Bool) (s : State) : Out :=
  .next <|
    if s.pumps[u].mem.gone then s
    else
      let s1 := s.evidence (baroMem (.quarter u)) evRetrain 1
      if ok then s1 else s1.pumpDead u

end Sys2Proof.Machine
end

