-- ==== Sys2Proof/Machine/Bundle.lean ====
section
/-! DEFINITION. The 512-bit bundle (06 The bundle, R136; 07 and 08 slot encodings): its fields, the load checks of
R155, R157, R185, R194, R197, R198, R201, R203, and the words of a bundle that holds one sync operation. -/

namespace Sys2Proof.Machine

/-- Flow operations of the sync slot (R177). -/
inductive FlowOp where
  | none | loop (e count : Nat) | loopa (arg : Fin 3) (e : Nat) | jump (i : Nat) | halt
  deriving DecidableEq, Repr

/-- A bundle, its slots taken apart. -/
structure Bundle where
  version : Nat := 1
  seqIdx : BitVec 12 := 0
  skip : Nat := 0
  scalar : ScalarOp × SArgs
  vector : VecOp × VArgs
  matrix : MatOp × MArgs
  load : MemOp := .nop
  store : MemOp := .nop
  flow : FlowOp := .none
  sync : SyncOp := .none
  deriving DecidableEq, Repr

/-! ### Unused slots -/

def noSArgs : SArgs := ⟨0, 0, 0, 0, 0⟩
def noQ : QOp := ⟨0, 0⟩
def noMArgs : MArgs := ⟨.int4, noQ, noQ, 0, false, 0, false, false, false, 0, 0⟩
def noVArgs : VArgs := ⟨.int4, 0, .queue false noQ, .queue false noQ, .queue false noQ, .queue false noQ, 0⟩

/-- A bundle without operations. -/
def emptyBundle : Bundle :=
  { version := 0, scalar := (.nop, noSArgs), vector := (.nop, noVArgs), matrix := (.nop, noMArgs) }

/-! ### Operands in range -/

def scalarOk (o : ScalarOp) (x : SArgs) : Bool :=
  match o with
  | .agset => decide (x.f.toNat ≤ 4)
  | .xfree => decide (1 ≤ x.imm.toNat ∧ x.imm.toNat ≤ 4096)
  | _ => true

/-- Formats an entry may carry (R184, R226). -/
def entryFmt (f : Fmt) : Bool := f != .a20

/-- A load or store operation in range; `store` tells a PUT from a GET. -/
def memOpOk (store : Bool) (o : MemOp) : Bool :=
  match o with
  | .nop => true
  | .one x => entryFmt x.fmt
  | .two x => entryFmt x.fmtA && entryFmt x.fmtB
  | .bulk x => x.tc != 2 && (if store then decide (x.op.toNat < 4) else x.op == 0)

/-- The operand formats of the matrix slot (R186). -/
def matFmt : Fmt → Bool
  | .int4 | .int8 | .e2m1 | .e3m2 | .e2m3 | .e4m3 | .e5m2 | .bf16 | .fp16 | .fp32 => true
  | _ => false

/-- The formats of MEW: float formats of 16 bits and narrower. -/
def mewFmt : Fmt → Bool
  | .e2m1 | .e3m2 | .e2m3 | .e4m3 | .e5m2 | .bf16 | .fp16 => true
  | _ => false

/-- The formats a scaled MMUL may have (R192). -/
def scaledFmt : Fmt → Bool
  | .e2m1 | .e3m2 | .e2m3 | .e4m3 | .e5m2 | .int8 => true
  | _ => false

/-- Entries a tile may have: the dual count where the format has one (R188). -/
def tileIndexLimit (f : Fmt) : Nat := if narrow f then 2 * tileEntries f else tileEntries f

/-- An operation of the matrix slot that R185 accepts; dmode counts where it is used, in MMUL and MMULT. -/
def matrixOk (o : MatOp) (x : MArgs) : Bool :=
  match o with
  | .nop => true
  | .mcfg => !x.scaled && decide (bits x.imm 12 2 ≠ 3 ∧ bits x.imm 0 2 < 2)
  | .mseed | .mswap | .mflush => !x.scaled
  | .mloadw => !x.scaled && matFmt x.fmt && decide (x.index.toNat < tileIndexLimit x.fmt)
  | .mloads => !x.scaled && decide (x.index.toNat < 10)
  | .mmul => x.dmode != 3 && matFmt x.fmt && (!x.scaled || scaledFmt x.fmt)
  | .mmult => !x.scaled && x.dmode != 3 && matFmt x.fmt
  | .mew => !x.scaled && mewFmt x.fmt && decide (x.index.toNat < 128)

def isFloatArith : Fmt → Bool
  | .fp32 | .bf16 | .fp16 => true
  | _ => false

/-- CVT's immediate (R197); UE8 and A20 are no targets (R233). -/
def cvtOk (f : Fmt) (imm : W32) : Bool :=
  match fmtOf (bits imm 0 4) with
  | none => false
  | some t =>
    let n := elemCount f
    let m := elemCount t
    let q := bits imm 8 6
    entryFmt t && t != .ue8 && (if m < n then decide (q < n / m) else if n < m then decide (q < m / n) else q == 0)

/-- QUANT's immediate (R198). -/
def quantOk (f : Fmt) (imm : W32) : Bool :=
  let p := bits imm 8 6
  let s := bits imm 16 7
  (match fmtOf (bits imm 0 4) with
    | some .e2m1 => decide (p < 8)
    | some .e3m2 | some .e2m3 | some .e4m3 | some .e5m2 | some .int8 => decide (p < 4)
    | _ => false) && (f != .bf16 || (p % 2 == 0 && s % 2 == 0))

/-- An operation of the vector slot that the load accepts. -/
def vectorOk (o : VecOp) (x : VArgs) : Bool :=
  let arith := isFloatArith x.fmt || x.fmt == .int32
  match o with
  | .nop | .amaxrd | .seed => true
  | .mov | .sel => entryFmt x.fmt
  | .add | .sub | .mul | .min | .max | .abs | .neg => arith
  | .cmp => arith && decide (bits x.imm 0 3 ≤ 4)
  | .fma | .func _ | .amax => isFloatArith x.fmt
  | .and | .or | .xor | .shl | .shr | .gate => x.fmt == .int32
  | .cvt => entryFmt x.fmt && cvtOk x.fmt x.imm
  | .quant => (x.fmt == .fp32 || x.fmt == .bf16) && quantOk x.fmt x.imm
  | .rsum | .rmax => x.fmt == .fp32 || x.fmt == .bf16 || x.fmt == .int32
  | .topk =>
    x.fmt == .fp32 && decide (1 ≤ bits x.imm 0 4 ∧ bits x.imm 0 4 ≤ 8) &&
      decide (1 ≤ bits x.imm 8 7 ∧ bits x.imm 8 7 ≤ 64) &&
      (bit x.imm 15 || match x.b with | .vreg _ => true | _ => false)
  | .updm | .updv | .updw | .coef => x.fmt == .fp32
  | .storm =>
    isFloatArith x.fmt && decide (bits x.imm 0 2 ≠ 3) && match x.b with | .kreg _ => true | _ => false

/-- An operation of the sync slot in range; BARRIER's mask needs the partition as well (R176). -/
def syncOk (o : SyncOp) : Bool :=
  match o with
  | .waitqp _ k | .waitqr _ k => decide (1 ≤ k.toNat ∧ k.toNat ≤ 8)
  | .raise v => decide (4 ≤ v.toNat)
  | _ => true

/-! ### Slots from their bits -/

def regAt {n : Nat} (w : BitVec n) (lo : Nat) : Reg4 := regOf (bits w lo 4)
def qopOf (x : Nat) : QOp := ⟨qOf (x / 16), BitVec.ofNat 4 x⟩
def qopAt {n : Nat} (w : BitVec n) (lo : Nat) : QOp := qopOf (bits w lo 9)

/-- The scalar opcodes (R159). -/
def scalarOpOf (n : Nat) : Option ScalarOp :=
  match n with
  | 0x00 => some .nop | 0x01 => some .movi | 0x02 => some .movhi | 0x03 => some .add | 0x04 => some .sub
  | 0x05 => some .and | 0x06 => some .or | 0x07 => some .xor | 0x08 => some .shl | 0x09 => some .shr
  | 0x0A => some .sar | 0x0B => some .mul | 0x10 => some .agset | 0x11 => some .agrst | 0x12 => some .agget
  | 0x18 => some .rdbeats | 0x19 => some .rdtime | 0x20 => some .xring | 0x21 => some .xfree
  | _ => none

def decodeScalar (w : W64) : Option (ScalarOp × SArgs) := do
  let o ← scalarOpOf (bits w 56 8)
  let x : SArgs := ⟨regAt w 52, regAt w 48, regAt w 44, w.extractLsb' 40 4, w.extractLsb' 0 32⟩
  if scalarOk o x then some (o, x) else none

/-- LDQ and STQ, LDQ2 and STQ2, GET and PUT (07, Load and store slots). -/
def decodeMem (store : Bool) (w : W64) : Option MemOp :=
  let o : Option MemOp :=
    match bits w 56 8 with
    | 0x00 => some .nop
    | 0x01 => do
      let f ← fmtOf (bits w 37 4)
      some (.one ⟨regAt w 52, bit w 51, bit w 50, qopAt w 41, f⟩)
    | 0x02 => do
      let f ← fmtOf (bits w 38 4)
      let g ← fmtOf (bits w 20 4)
      some (.two ⟨regAt w 52, bit w 51, qopAt w 42, f, regAt w 34, bit w 33, qopAt w 24, g⟩)
    | 0x10 =>
      some (.bulk ⟨regAt w 52, regAt w 48, regAt w 44, regAt w 40, bit w 39, ctrOf (bits w 34 5),
        w.extractLsb' 32 2, bit w 31, w.extractLsb' 28 3⟩)
    | _ => none
  o.filter (memOpOk store)

/-- The matrix opcodes (R186). -/
def matOpOf (n : Nat) : Option MatOp :=
  match n with
  | 0x00 => some .nop | 0x01 => some .mcfg | 0x02 => some .mseed | 0x08 => some .mloadw | 0x09 => some .mloads
  | 0x0A => some .mswap | 0x10 => some .mmul | 0x11 => some .mmult | 0x12 => some .mew | 0x18 => some .mflush
  | _ => none

/-- Does a matrix operation use its fmt? -/
def matUsesFmt : MatOp → Bool
  | .mloadw | .mmul | .mmult | .mew => true
  | _ => false

def decodeMatrix (w : BitVec 96) : Option (MatOp × MArgs) := do
  let o ← matOpOf (bits w 88 8)
  let f ← if matUsesFmt o then fmtOf (bits w 84 4) else some ((fmtOf (bits w 84 4)).getD .int4)
  let x : MArgs := ⟨f, qopAt w 75, qopAt w 66, regAt w 62, bit w 61, w.extractLsb' 59 2, bit w 58, bit w 57, bit w 56,
    w.extractLsb' 46 10, w.extractLsb' 0 32⟩
  if matrixOk o x then some (o, x) else none

/-- The vector opcodes (R195). -/
def vecOpOf (n : Nat) : Option VecOp :=
  match n with
  | 0x00 => some .nop | 0x01 => some .mov | 0x02 => some .add | 0x03 => some .sub | 0x04 => some .mul
  | 0x05 => some .fma | 0x06 => some .min | 0x07 => some .max | 0x08 => some .abs | 0x09 => some .neg
  | 0x0A => some .cmp | 0x0B => some .sel | 0x10 => some .and | 0x11 => some .or | 0x12 => some .xor
  | 0x13 => some .shl | 0x14 => some .shr
  | 0x18 => some (.func 0) | 0x19 => some (.func 1) | 0x1A => some (.func 2) | 0x1B => some (.func 3)
  | 0x1C => some (.func 4) | 0x1D => some (.func 5) | 0x1E => some (.func 6)
  | 0x20 => some .cvt | 0x21 => some .quant | 0x28 => some .amax | 0x29 => some .amaxrd | 0x2A => some .rsum
  | 0x2B => some .rmax | 0x30 => some .topk | 0x38 => some .updm | 0x39 => some .updv | 0x3A => some .updw
  | 0x3B => some .coef | 0x3C => some .gate | 0x3D => some .storm | 0x3E => some .seed
  | _ => none

/-- A vector operand (08, Vector operand). -/
def vopOf (x : Nat) : VOperand :=
  match x / 1024 with
  | 0 => .queue (x.testBit 9) (qopOf (x % 512))
  | 1 => .vreg (regOf x)
  | 2 => .acc (x.testBit 4) (regOf x)
  | _ => .kreg (regOf x)

/-- Does a vector operation use its fmt? -/
def vecUsesFmt : VecOp → Bool
  | .nop | .amaxrd | .seed => false
  | _ => true

def decodeVector (w : BitVec 96) : Option (VecOp × VArgs) := do
  let o ← vecOpOf (bits w 88 8)
  let f ← if vecUsesFmt o then fmtOf (bits w 84 4) else some ((fmtOf (bits w 84 4)).getD .int4)
  let x : VArgs := ⟨f, w.extractLsb' 82 2, vopOf (bits w 68 12), vopOf (bits w 56 12), vopOf (bits w 44 12),
    vopOf (bits w 32 12), w.extractLsb' 0 32⟩
  if vectorOk o x then some (o, x) else none

/-- The flow half of the sync slot. -/
def decodeFlow (w : BitVec 96) : Option FlowOp :=
  match bits w 92 4 with
  | 0 => some .none
  | 1 => if bits w 64 12 = 0 then none else some (.loop (bits w 76 12) (bits w 64 12))
  | 2 => if h : bits w 90 2 < 3 then some (.loopa ⟨bits w 90 2, h⟩ (bits w 76 12)) else none
  | 3 => some (.jump (bits w 76 12))
  | 4 => some .halt
  | _ => none

/-- The core half of the sync slot (R174). -/
def decodeSync (w : BitVec 96) : Option SyncOp :=
  let imm : W32 := w.extractLsb' 0 32
  let n := ctrOf (bits w 51 5)
  let o : Option SyncOp :=
    match bits w 56 8 with
    | 0x00 => some .none
    | 0x01 => some (.cset n imm)
    | 0x02 => some (.cadd n imm)
    | 0x03 => some (.waitc n imm)
    | 0x04 => some (.waitqp (qOf (bits w 51 5)) (w.extractLsb' 47 4))
    | 0x05 => some (.waitqr (qOf (bits w 51 5)) (w.extractLsb' 47 4))
    | 0x06 => some (.barrier (w.extractLsb' 52 4) (w.extractLsb' 32 16))
    | 0x07 => some (.signal (regAt w 52) (regAt w 48) (ctrOf (bits w 43 5)))
    | 0x08 => some (.raise (w.extractLsb' 50 6))
    | _ => none
  o.filter syncOk

/-- A slot that is valid, taken apart; a slot whose valid bit is 0 is its no-operation (R136). -/
def slotIf {α : Type} (valid : Bool) (x : Option α) (nop : α) : Option α := if valid then x else some nop

/-- A bundle from its bits: none where a valid slot breaks the load checks (R136, R155, R157). -/
def decodeBundle (w : Bundle512) : Option Bundle := do
  let v (i : Nat) : Bool := bit w (480 + i)
  let sc ← slotIf (v 0) (decodeScalar (w.extractLsb' 416 64)) (.nop, noSArgs)
  let ve ← slotIf (v 1) (decodeVector (w.extractLsb' 320 96)) (.nop, noVArgs)
  let mx ← slotIf (v 2) (decodeMatrix (w.extractLsb' 224 96)) (.nop, noMArgs)
  let ld ← slotIf (v 3) (decodeMem false (w.extractLsb' 160 64)) .nop
  let st ← slotIf (v 4) (decodeMem true (w.extractLsb' 96 64)) .nop
  let fl ← slotIf (v 5) (decodeFlow (w.extractLsb' 0 96)) .none
  let sy ← slotIf (v 5) (decodeSync (w.extractLsb' 0 96)) .none
  some { version := bits w 508 4, seqIdx := w.extractLsb' 496 12, skip := bits w 488 8, scalar := sc, vector := ve,
         matrix := mx, load := ld, store := st, flow := fl, sync := sy }

/-- A bundle in instruction memory as a core and its sequencer run it; the load checks let no other in (R147, R155). -/
def bundleOf (w : Bundle512) : Bundle := (decodeBundle w).getD emptyBundle

/-- The checks of PROGRAM_LOAD on the bundle for index `i` of sequencer `n` (R155, R176): `group` holds the sequencers
of the partition. -/
def loadOk (w : Bundle512) (i n : Nat) (group : List Nat) : Bool :=
  match decodeBundle w with
  | none => false
  | some b =>
    b.version == 1 && b.seqIdx.toNat == i &&
      (match b.sync with
        | .barrier _ m => m.toNat.testBit n && (maskBits m.toNat 16).all fun k => group.contains k
        | _ => true)

/-! ### A bundle of one sync operation -/

/-- The sync slot of a wait, a flow half of none. -/
def encodeWait (o : SyncOp) : BitVec 96 :=
  match o with
  | .waitc n imm => BitVec.ofNat 96 (3 * 0x100000000000000 + n.val * 0x8000000000000 + imm.toNat)
  | .waitqp q k => BitVec.ofNat 96 (4 * 0x100000000000000 + q.val * 0x8000000000000 + k.toNat * 0x800000000000)
  | .waitqr q k => BitVec.ofNat 96 (5 * 0x100000000000000 + q.val * 0x8000000000000 + k.toNat * 0x800000000000)
  | .barrier id m => BitVec.ofNat 96 (6 * 0x100000000000000 + id.toNat * 0x10000000000000 + m.toNat * 0x100000000)
  | _ => 0

/-- A bundle whose one valid slot is a wait: version 1, sequence 0, no skip. -/
def waitBundle (o : SyncOp) : Bundle512 :=
  ((BitVec.ofNat 512 0x10000020) <<< 480) ||| (encodeWait o).setWidth 512

end Sys2Proof.Machine
end

