-- ==== Sys2Proof/Machine/Issue.lean ====
section
/-! DEFINITION. The issue of a bundle in its beat (06 R137 to R141, R148 to R150; 07 R173, R176): its operations, its
outside effects, its faults, and the beats that follow. -/

namespace Sys2Proof.Machine

/-- Every slot of a bundle in its issue beat, in the order of the valid mask. -/
def Beat.bundle (b : Beat) (d : Bundle) : Beat :=
  (((((b.scalar d.scalar.1 d.scalar.2).vector d.vector.1 d.vector.2).matrix d.matrix.1 d.matrix.2).load d.load).store
    d.store).sync d.sync

/-- The time RDTIME reads: at most 40 ns behind STW_TIME (R159), how far is not given by the spec (log 7). -/
def State.fieldTime (s : State) : W64 := BitVec.ofNat 64 (s.timeNs - 10 * ((Config.free64 s.freeCount).toNat % 5))

/-- The sequencer that drives a core (R131). -/
def State.driverOf (s : State) (c : CoreId) : Option SeqId :=
  (allFin 16).find? fun n => s.seqs[n].wardMask.testBit (c.val / 12)

/-! ### Faults (R148 to R150) -/

/-- A fault signalled: the registers of its core and sequencer, the FAULTED state, the 64 beats left to the other
cores, and the way to the collector. `core` is none for FLOW and IMEM. -/
def State.raiseFault (s : State) (core : Option CoreId) (n : Option SeqId) (p : Option PartId) (word : W64)
    (issue : BitVec 48) (beats : Nat) : State :=
  let s1 := match core with
    | some c => s.updCore c fun x => { x with faultWord := if x.faultWord = 0 then word else x.faultWord,
                                              halted := true, drains := true, fifo := [], waiting := none }
    | none => s
  let s2 := match n with
    | some n => s1.updSeq n fun q =>
        if q.fault0 = 0 then { q with fault0 := word, fault1 := issue, fault2 := BitVec.ofNat 64 beats } else q
    | none => s1
  match p with
  | none => s2
  | some p =>
    let s3 := s2.over s2.parts[p].im.img.seqs fun s m => s.updSeq m fun q =>
      if q.state = .running ∨ q.state = .halting then { q with state := .faulted } else q
    let s4 := s3.over (s3.partCores p) fun s c => s.updCore c fun x =>
      if x.grace.isNone then { x with grace := some (x.beats + 64) } else x
    s4.updPart p fun x => { x with fault := { x.fault with
      transit := x.fault.transit ++ [((core.map (·.val)).getD 0xFF, n.getD 0, word, issue, BitVec.ofNat 64 beats)] } }

/-- The lowest-numbered slot's fault among those of one beat (R148). -/
def lowestFault (l : List (Nat × W64 × BitVec 48)) : Option (Nat × W64 × BitVec 48) :=
  l.foldl (fun a x => match a with
    | none => some x
    | some y => if x.1 < y.1 then some x else some y) none

/-- The fault word of a core's fault. -/
def coreFaultWord (c : CoreId) (f : FaultInfo) (slot : Nat) (seq : BitVec 12) (issue : BitVec 48) : W64 :=
  faultWord f c.val seq.toNat slot (issue.toNat % 4096)

/-- The faults of one beat reported (R148): the operations issued in it, and the pushes that landed in it. -/
def State.beatFaults (s : State) (c : CoreId) (beats : Nat) (l : List (Nat × W64 × BitVec 48)) : State :=
  match lowestFault l with
  | none => s
  | some (_, w, i) => s.raiseFault (some c) (s.driverOf c) (s.coreHolder c) w i beats

/-- Fault words of pushes that found their queue end full. -/
def pushFaults (c : CoreId) (l : List (Flight × FaultInfo)) : List (Nat × W64 × BitVec 48) :=
  l.map fun e => (e.1.slot, coreFaultWord c e.2 e.1.slot e.1.seqIdx e.1.issue, e.1.issue)

/-! ### Beats -/

/-- Beats completed and counted for their partition (R104, R141). -/
def State.countBeats (s : State) (c : CoreId) (n : Nat) : State :=
  match s.coreHolder c with
  | some p => (s.meter p mBeats n).act (c.val / 48) p.val n
  | none => s

/-- One empty beat of a core. -/
def State.emptyBeat (s : State) (c : CoreId) : State :=
  let b := s.cores[c].beats
  let (x, l) := s.cores[c].endBeat s.epoch
  ((s.updCore c fun _ => x).countBeats c 1).beatFaults c b (pushFaults c l)

/-- May a core complete another beat: it has not used up its beats after a fault of its partition (R149)? -/
def Core.hasBeat (x : Core) : Bool :=
  match x.grace with
  | none => true
  | some g => decide (x.beats < g)

/-- `n` empty beats, as far as the core may complete them. -/
def State.emptyBeats (s : State) (c : CoreId) : Nat → State
  | 0 => s
  | n + 1 => if s.cores[c].hasBeat then State.emptyBeats (s.emptyBeat c) c n else s

/-- A core that has used up its beats after a fault stops at a bundle boundary (R149). -/
def Core.stopAtGrace (x : Core) : Core :=
  match x.grace with
  | some g => if g ≤ x.beats then { x with halted := true, fifo := [], waiting := none } else x
  | none => x

/-! ### Outside effects -/

/-- A transfer of the load, store or sync slot (R165 to R169). -/
def State.extXfer (s : State) (c : CoreId) (p : PartId) (kind : XferKind) (ga : W64) (len : Nat) (tag : W64)
    (addr : Nat) (n : CtrId) (tc : BitVec 2) (ord : Bool) (op : BitVec 3) (ringAt : Nat) (phase : Bool)
    (seq : BitVec 12) : State :=
  let (id, s1) := s.newItem
  let own := s1.coreGa c addr
  let x : Xfer :=
    { id := id, kind := kind, part := p, tag := tag, core := c, ringAt := ringAt, ringPhase := phase, ctr := n,
      seqIdx := seq, src := if kind = .put then own else ga, dst := if kind = .get then own else ga, length := len,
      op := op.truncate 2, tc := tc, ord := ord, ieee := s1.ieee p }
  s1.startXfer x

/-- RAISE (R174): vector v once per bundle, when the last core of the mask has executed it. -/
def State.extRaise (s : State) (c : CoreId) (p : PartId) (v : Nat) (issue : BitVec 48) : State :=
  let s1 := s.updCore c fun x => { x with raised := x.raised ++ [issue] }
  match s1.driverOf c with
  | none => s1
  | some n =>
    let cs := s1.seqCores n
    if cs.all fun d => s1.cores[d].raised.contains issue then
      (s1.over cs fun s d => s.updCore d fun x => { x with raised := x.raised.erase issue }).msi (.vf p) v
    else s1

/-- The outside effects of one beat, in slot order. -/
def State.applyExt (s : State) (c : CoreId) (seq : BitVec 12) (issue : BitVec 48) (e : Ext) : State :=
  match s.coreHolder c, e with
  | some p, .xfer kind ga len tag addr n tc ord op at_ ph => s.extXfer c p kind ga len tag addr n tc ord op at_ ph seq
  | some p, .raise v => s.extRaise c p v issue
  | none, _ => s

/-! ### Issue -/

/-- The field of a core (R12). -/
def fieldOfCore (c : CoreId) : FieldId := fieldOf (c.val / 48)

/-- Can a core complete beats: present, held by a partition (R142), its field supplied and not at the retention voltage
(R18, R42)? -/
def State.coreLive (s : State) (c : CoreId) : Bool :=
  s.corePresent c.val && (s.coreHolder c).isSome && s.power.railFields[fieldOfCore c] && !s.fields[fieldOfCore c].retained

/-- May a core issue: live, not stopped, not waiting? -/
def State.coreReady (s : State) (c : CoreId) : Bool :=
  s.coreLive c && !s.cores[c].halted && s.cores[c].waiting.isNone

/-- Does a core run empty beats for its results in flight: after HALT, or after its own fault (R31, R148)? -/
def State.coreDrains (s : State) (c : CoreId) : Bool :=
  s.coreLive c && s.cores[c].halted && s.cores[c].drains

/-- Does a core run an interlude program, whose VSTORM has no effect (R387)? -/
def State.inInterlude (s : State) (c : CoreId) : Bool :=
  match s.driverOf c with
  | some n => s.seqs[n].region && (s.seqs[n].state == .running || s.seqs[n].state == .halting)
  | none => false

/-- The beat of a core as the slots of a bundle find it. -/
def State.issueBeat (s : State) (c : CoreId) (seq : BitVec 12) (count : BitVec 48) : Beat :=
  let x := { s.cores[c] with curSeq := seq, curIssue := count }
  { old := x, new := x, index := c, now := s.fieldTime, free := s.freeCount, epoch := s.epoch }

/-- The core of an interlude program keeps the storm reports it had (R387). -/
def State.keepReports (s : State) (c : CoreId) (x : Core) : Core :=
  if s.inInterlude c then { x with vx := { x.vx with storms := s.cores[c].vx.storms } } else x

/-- What follows the slots of a bundle (R137): the results due in the beat, its faults and outside effects, then its
empty beats. -/
def State.afterSlots (s : State) (c : CoreId) (skip : Nat) (seq : BitVec 12) (count : BitVec 48) (b : Beat) : State :=
  let r := b.new.endBeat s.epoch
  let s1 := ({ s with freeCount := s.freeCount + 1 }).updCore c fun _ => s.keepReports c r.1
  let s2 := (s1.countBeats c 1).over b.exts fun s e => s.applyExt c seq count e
  let own := b.faults.map fun f => (f.1, coreFaultWord c f.2 f.1 seq count, count)
  let s3 := s2.beatFaults c s.cores[c].beats (own ++ pushFaults c r.2)
  let s4 := s3.emptyBeats c skip
  s4.updCore c Core.stopAtGrace

/-- The issue of a bundle (R137): its slots in its issue beat, and what follows them. -/
def State.issue (s : State) (c : CoreId) (d : Bundle) (count : BitVec 48) : State :=
  s.afterSlots c d.skip d.seqIdx count ((s.issueBeat c d.seqIdx count).bundle d)

/-- The core after a bundle that carries HALT (R153). -/
def State.haltCore (s : State) (c : CoreId) (d : Bundle) : State :=
  if d.flow = .halt then s.updCore c fun x => { x with halted := true, drains := true } else s

/-- The head of the FIFO issued and taken from it. -/
def State.issueHead (s : State) (c : CoreId) : State :=
  match s.cores[c].fifo with
  | [] => s
  | (w, n) :: r =>
    let s1 := s.updCore c fun x => { x with fifo := r, waiting := none }
    (s1.issue c (bundleOf w) n).haltCore c (bundleOf w)

/-- A core reaches a wait (R173, R176): a barrier is counted; it issues at once where the condition holds. -/
def State.reachWait (s : State) (c : CoreId) (w : Wait) : State :=
  let s1 := s.updCore c fun x => { x with
    waiting := some w
    barriers := match w with | .barrier id _ m _ => x.barriers.set (regOf id.toNat) m | _ => x.barriers }
  if w.holds s1.cores[c] then s1.issueHead c else s1

/-- The next bundle of a core (R137, R173); a core reaches a barrier only once its storm reports have arrived (R203). -/
def State.nextBundle (s : State) (c : CoreId) : State :=
  if s.coreReady c then
    match s.cores[c].fifo with
    | [] => s
    | (w, _) :: _ =>
      match (bundleOf w).sync.wait s.cores[c] with
      | some v =>
        let barrier := match v with | .barrier .. => true | _ => false
        if barrier && !s.cores[c].vx.storms.isEmpty then s else s.reachWait c v
      | none => s.issueHead c
  else s

/-- A slot operation given to a core by itself: a bundle of that one operation, where its operands are in range and no
bundle comes before it in the FIFO. -/
def State.single (s : State) (c : CoreId) (ok : Bool) (d : Bundle) : State :=
  if s.coreReady c && s.cores[c].fifo.isEmpty && ok then s.issue c { d with version := 1 } 0 else s

/-- A wait given to a core by itself: the bundle of that wait stands alone in its FIFO. -/
def State.singleWait (s : State) (c : CoreId) (o : SyncOp) : State :=
  if s.coreReady c && s.cores[c].fifo.isEmpty && syncOk o then
    (s.updCore c fun x => { x with fifo := [(waitBundle o, 0)] }).nextBundle c
  else s

/-! ### The commands of 06 on cores -/

/-- BUNDLE_ISSUE (R137). -/
def execBundleIssue (c : CoreId) (s : State) : Out := .next (s.nextBundle c)

/-- The first beat in which a result is due, counted from the present beat. -/
def Core.firstDue (x : Core) : Option Nat :=
  match x.inflight.map (·.due) with
  | [] => none
  | d :: r => some (r.foldl min d - x.beats)

/-- OPERATION_RESULT_WRITE (R139): the drain beats up to the first result due complete (R31). A core that does not drain
completes beats with its bundles alone, and its results are written in those. -/
def execOperationResultWrite (c : CoreId) (s : State) : Out :=
  .next <|
    if s.coreDrains c then
      match s.cores[c].firstDue with
      | some k => s.emptyBeats c (k + 1)
      | none => s
    else s

/-- WAIT_RELEASE (R173). -/
def execWaitRelease (c : CoreId) (s : State) : Out :=
  .next <|
    match s.cores[c].waiting with
    | some w => if w.holds s.cores[c] && s.coreLive c && !s.cores[c].halted then s.issueHead c else s
    | none => s

/-- Has every present core of every sequencer of a mask executed its m-th barrier of an id (R176)? -/
def State.barrierMet (s : State) (id : BitVec 4) (mask : W16) (m : Nat) : Bool :=
  ((allFin 16).filter fun n => mask.toNat.testBit n.val).all fun n =>
    (s.seqCores n).all fun d => decide (m ≤ s.cores[d].barriers[regOf id.toNat])

/-- BARRIER_RELEASE (R176): every core that waits at the barrier is released. -/
def execBarrierRelease (c : CoreId) (s : State) : Out :=
  .next <|
    match s.cores[c].waiting with
    | some (.barrier id mask m false) =>
      if s.barrierMet id mask m then
        let cs := ((allFin 16).filter fun n => mask.toNat.testBit n.val).flatMap s.seqCores
        s.over cs fun s d => s.updCore d fun x =>
          match x.waiting with
          | some (.barrier i k j false) => if i = id ∧ j = m then { x with waiting := some (.barrier i k j true) } else x
          | _ => x
      else s
    | _ => s

/-- MATRIX_DRAIN (R212): the drain beats up to the end of drain stage 2 of the next vector complete (R31). -/
def execMatrixDrain (c : CoreId) (s : State) : Out :=
  .next <|
    if s.coreDrains c then
      match (s.cores[c].inflight.filterMap fun f => match f.res with
        | .drain1 _ => some (f.due + 1) | .drain2 _ _ => some f.due | _ => none) with
      | [] => s
      | d :: r => s.emptyBeats c (r.foldl min d - s.cores[c].beats + 1)
    else s

end Sys2Proof.Machine
end

