-- ==== Sys2Proof/Machine/Sequencer.lean ====
section
/-! DEFINITION. The family of sequencer and program commands (06 R131 to R135, R143, R150 to R155; 07 R172, R176 to
R183; 16 R385, R387): load, start, fetch, halt, faults collected, limits, cadences, TRANSFER and NOP capsules. -/

namespace Sys2Proof.Machine

/-! ### Starting a program (R134, R158, R179, R204) -/

/-- A core at the start of a program. -/
def Core.start (x : Core) (c : CoreId) (f : PFmt) (args : Vector W64 3) : Core :=
  { x with
    fifo := [], grace := none, drains := false, halted := false, waiting := none, faultWord := 0
    k := Vector.ofFn fun i : Fin 16 =>
      if i.val < 12 then 0 else if i.val = 12 then BitVec.ofNat 64 c.val
      else if i.val = 13 then args[0] else if i.val = 14 then args[1] else args[2]
    ag := Vector.replicate 16 {}, sync := Vector.replicate 32 {}, ring := {}, barriers := Vector.replicate 16 0, raised := []
    mx := { x.mx with
      cfg := { ovmode := f.ovmode, sr := f.sr, chunk := f.chunk, accMode := 0 }, seed := 1
      lfsr := Vector.ofFn fun i : Fin 256 => lfsrSeed 1 i.val, rowPtr := 0, actPtr := 0 }
    vx := { x.vx with
      dataAsm := {}, scaleAsm := {}, laneMax := 0, nanCount := 0, infCount := 0, statPoison := false
      lfsr := Vector.ofFn fun i : Fin 64 => lfsrSeed 1 i.val, zeroRange := 0, topkNan := 0, updFlag := false
      verdict := none }
    ovmode := f.ovmode, cvtRound := f.cvtRound }

/-- One sequencer and its cores started. -/
def State.startSeq (s : State) (p : PartId) (n : SeqId) (region : Bool) (entry : Nat) (args : Vector W64 3) (item : Nat) :
    State :=
  let s1 := s.updSeq n fun q => { q with
    state := .running, pc := entry, region := region, issueCount := 0, args := args, loops := [], item := some item
    haltSeq := 0, fault0 := 0, fault1 := 0, fault2 := 0 }
  s1.over (s1.seqCores n) fun s c => s.updCore c fun x => x.start c s.parts[p].fmt args

/-- A program item made, its sequencers started, its partition awake (R47). -/
def State.startProgram (s0 : State) (p : PartId) (seqs : List SeqId) (region : Bool) (entry : Nat) (args : Vector W64 3)
    (tag : W64) (step : W32) (limitUs : Nat) (v0 : Bool) : State :=
  let (id, s) := (s0.wake p).newItem
  let x : Program :=
    { id := id, part := p, tag := tag, step := step, seqs := seqs, region := region,
      limitAt := if limitUs = 0 then none else some (s.timeNs + 1000 * limitUs), raiseV0 := v0 }
  let s1 := { s with programs := s.programs ++ [x] }
  let s2 := s1.over seqs fun s n => s.startSeq p n region entry args id
  if region then s2.updPart p fun y => { y with run := { y.run with interlude := true } } else s2

/-- Is a sequencer at work? -/
def Sequencer.active (q : Sequencer) : Bool := q.state == .running || q.state == .halting

/-- The region of a sequencer: first bundle, and the one beyond its last (R152). -/
def Sequencer.bounds (q : Sequencer) (region : Bool) : Nat × Nat := if region then (q.split, 4096) else (0, q.split)

/-! ### PROGRAM_LOAD (R151, R154, R155) -/

/-- The bundles of a body. -/
def bundlesOf (d : List Byte) (n : Nat) : List Bundle512 := (List.range n).map fun i => BitVec.ofNat 512 (ldNat d (64 * i) 64)

/-- The holdings of a partition: does a capsule target one of its sequencers (R154)? -/
def State.holdsSeq (s : State) (p : PartId) (t : Nat) : Bool := decide (t < 16) && s.parts[p].im.img.seqs.contains (seqOf t)

/-- A PROGRAM_LOAD capsule. -/
def State.loadCapsule (s : State) (p : PartId) (c : Capsule) : State :=
  let first := c.param 0 2
  let count := c.param 2 2
  let ws := bundlesOf c.body count
  let group := s.parts[p].im.img.seqs.map (·.val)
  let ok := decide (1 ≤ count ∧ count ≤ 1023) && zeroBytes c.params 4 28 && c.body.length == 64 * count &&
    decide (first + count ≤ 4096) && ws.zipIdx.all fun e => loadOk e.1 (first + e.2) c.target group
  if !ok then s.capBad p c 4
  else if !s.holdsSeq p c.target then s.capDone p c 0x02 .refusedOwner 0
  else
    let n := seqOf c.target
    let q := s.seqs[n]
    let b := q.bounds q.region
    if !kindRuns (s.capState p) kLoad false || (q.active && decide (first < b.2 ∧ b.1 < first + count)) then
      s.capDone p c 0x02 .refusedState 0
    else
      (s.updSeq n fun q => { q with
        imem := ws.zipIdx.foldl (fun m e => Sparse.set (α := Bundle512) 0 m (first + e.2) e.1) q.imem }).capDone p c 0x02 .done 0

/-- PROGRAM_LOAD (R151). -/
def execProgramLoad (p : PartId) (s : State) : Out :=
  .next (s.withCapsule p kLoad (fun _ => true) fun s c => s.loadCapsule p c)

/-! ### PROGRAM_START (R152, R154, R183, R385, R387) -/

/-- Does a tick of a sequencer's cadence fall in the present epoch (R183)? -/
def State.tickInEpoch (s : State) (n : SeqId) : Bool :=
  let q := s.seqs[n]
  let t := max 10000 q.periodNs.toNat
  let e := s.epoch * 1000
  q.arm && decide (q.tArm < e + 1000) && (let k := (e + 999 - q.tArm) / t; decide (1 ≤ k) && decide (e ≤ q.tArm + k * t))

/-- The state checks of a PROGRAM_START: detail0 of the refusal. -/
def State.startRefused (s : State) (p : PartId) (seqs : List SeqId) (region : Bool) (entry : Nat) : Option Nat :=
  let mine := s.parts[p].im.img.seqs
  if seqs.any (fun n => s.seqs[n].state == .unattached) then some 0
  else if seqs.any fun n => let b := s.seqs[n].bounds region; !decide (b.1 ≤ entry ∧ entry < b.2) then some 3
  else if seqs.isEmpty || !kindRuns (s.capState p) kStart false ||
      seqs.any (fun n => s.seqs[n].state != .idle || s.tickInEpoch n) then some 0
  else if !region && s.parts[p].run.interlude then some 0
  else if region && mine.any (fun n => s.seqs[n].active && !s.seqs[n].region) then some 2
  else if region && s.parts[p].groups.any (fun g => g.2.busy) then some 1
  else none

/-- Does a capsule target a sequencer that no ward is attached to (R131)? -/
def State.unattached (s : State) (t : Nat) : Bool := decide (t < 16) && s.seqs[seqOf t].state == .unattached

/-- A PROGRAM_START capsule; one addressed to a sequencer that is UNATTACHED is refused for its state (R131). -/
def State.startCapsule (s : State) (p : PartId) (c : Capsule) : State :=
  let region := c.param 0 1
  let entry := c.param 2 2
  let arg (i : Nat) : W64 := BitVec.ofNat 64 (c.param (8 + 8 * i) 8)
  let seqs := if c.target = 0xFF then s.parts[p].im.img.seqs else [seqOf c.target]
  if decide (1 < region) then s.capBad p c 4
  else if c.target != 0xFF && !s.holdsSeq p c.target && !s.unattached c.target then s.capDone p c 0x02 .refusedOwner 0
  else
    match s.startRefused p seqs (region == 1) entry with
    | some d => s.capDone p c 0x02 .refusedState d
    | none => s.startProgram p seqs (region == 1) entry #v[arg 0, arg 1, arg 2] c.tag c.step (c.param 4 4) c.v0

/-- PROGRAM_START (R152). -/
def execProgramStart (p : PartId) (s : State) : Out :=
  .next (s.withCapsule p kStart (fun _ => true) fun s c => s.startCapsule p c)

/-! ### Fetch (R132, R133, R177, R178) -/

/-- What the sequencer does after a bundle. -/
inductive FlowStep where
  | at_ (pc : Nat) (loops : List Loop)
  | halt
  | fault
  deriving DecidableEq, Repr

/-- The ends of the active loops at an index, innermost first; the head of the list is the innermost (R177). -/
def loopEnds (i pc : Nat) : List Loop → Nat × List Loop
  | [] => (pc, [])
  | l :: r =>
    if l.last = i then
      if l.left = 0 then loopEnds i (i + 1) r else (l.first, { l with left := l.left - 1 } :: r)
    else (pc, l :: r)

/-- The flow decision of the bundle at index `i` of a region. -/
def Sequencer.flow (q : Sequencer) (f : FlowOp) (i : Nat) : FlowStep :=
  let b := q.bounds q.region
  let ends := q.loops.any fun l => l.last == i
  let inner (e : Nat) : Bool := match q.loops with | [] => true | l :: _ => decide (e ≤ l.last)
  let enter (e n : Nat) : FlowStep :=
    if decide (0 < n ∧ 4 ≤ q.loops.length) || decide (e ≤ i) || !inner e || ends then .fault
    else if n = 0 then .at_ (e + 1) q.loops
    else .at_ (i + 1) ({ first := i + 1, last := e, left := n - 1 } :: q.loops)
  match f with
  | .none => let r := loopEnds i (i + 1) q.loops; .at_ r.1 r.2
  | .loop e n => enter e n
  | .loopa a e => enter e (bits q.args[a] 0 32)
  | .jump t =>
    if ends || !decide (b.1 ≤ t ∧ t < b.2) || q.loops.any (fun l => decide (t < l.first ∨ l.last < t)) then .fault
    else .at_ t q.loops
  | .halt => .halt

/-- A fault that a sequencer raises itself at an index: FLOW or IMEM (R147, R150, R178). -/
def State.flowFault (s : State) (n : SeqId) (i cause : Nat) : State :=
  let q := s.seqs[n]
  let count : BitVec 48 := BitVec.ofNat 48 (q.issueCount + 1)
  let beats := match s.seqCores n with | c :: _ => s.cores[c].beats | [] => 0
  let w := faultWord { cause := cause } 0xFF (i % 4096) 5 (count.toNat % 4096)
  s.raiseFault none (some n) (s.seqHolder n) w count beats

/-- A bundle broadcast to every core of the mask (R132, R134). -/
def State.broadcast (s : State) (n : SeqId) (w : Bundle512) : State :=
  let s1 := s.updSeq n fun q => { q with issueCount := q.issueCount + 1 }
  let count : BitVec 48 := BitVec.ofNat 48 s1.seqs[n].issueCount
  s1.over (s1.seqCores n) fun s c => s.updCore c fun x => { x with fifo := x.fifo ++ [(w, count)] }

/-- The bundle at a sequencer's index, its flow applied and the bundle issued (R132, R177, R178). -/
def State.fetchBundle (s : State) (n : SeqId) : State :=
  let q := s.seqs[n]
  let w := Sparse.getD q.imem q.pc 0
  let d := bundleOf w
  match q.flow d.flow q.pc with
  | .fault => s.flowFault n q.pc 0x09
  | .halt => (s.broadcast n w).updSeq n fun q => { q with state := .halting, haltSeq := d.seqIdx }
  | .at_ pc l => (s.broadcast n w).updSeq n fun q => { q with pc := pc, loops := l }

/-- May a sequencer fetch: it runs, and every FIFO of its mask has room (R132, R133)? -/
def State.fetches (s : State) (n : SeqId) : Bool :=
  s.seqs[n].state == .running && (s.seqCores n).all fun c => decide (s.cores[c].fifo.length < 16)

/-- SEQUENCER_FETCH (R132, R147, R177, R178): one bundle fetched and issued, where every FIFO of the mask has room. A
corrected error of instruction memory is evidence against the field of the sequencer (R414). -/
def execSequencerFetch (x : Fetch) (s : State) : Out :=
  .next <|
    let n := x.seq
    let q := s.seqs[n]
    let b := q.bounds q.region
    if s.fetches n then
      if b.1 ≤ q.pc ∧ q.pc < b.2 then
        match x.ecc with
        | .ok => s.fetchBundle n
        | .corrected => (s.evidence (n.val / 4) evCe 1).fetchBundle n
        | .uncorrectable => s.flowFault n q.pc 0x0B
      else s.flowFault n q.pc 0x09
    else s

/-! ### Halt (R153, R150 LEFTOVER) -/

/-- The LEFTOVER fault of a core, if a queue end of it still holds entries. -/
def State.leftover (s : State) (n : SeqId) (c : CoreId) : Option W64 :=
  let x := s.cores[c]
  match (allFin 32).find? fun i => !x.queues[i].entries.isEmpty with
  | none => none
  | some i =>
    match x.queues[i].entries with
    | [] => none
    | e :: _ => some (faultWord
        { cause := 0x0A, queue := i.val, actE := e.epoch.toNat, actF := e.fmt.toNat }
        c.val s.seqs[n].haltSeq.toNat 5 (s.seqs[n].issueCount % 4096))

/-- Has every core of a mask executed HALT and written every result, its transfers and reports included (R153, R170)? -/
def State.haltDrained (s : State) (n : SeqId) : Bool :=
  (s.seqCores n).all fun c =>
    let x := s.cores[c]
    x.halted && x.fifo.isEmpty && x.inflight.isEmpty && x.vx.storms.isEmpty &&
      !s.xfers.any fun t => t.kind != .capsule && t.core == c

/-- The program item of a sequencer ended once every one of its sequencers has halted (R152). -/
def State.tryEndProgram (s : State) (p : PartId) (id : Nat) : State :=
  match s.programs.find? fun x => x.id == id with
  | none => s
  | some x =>
    if x.seqs.all fun n => s.seqs[n].state == .idle then
      let s1 := s.endProgram x .done 0 0
      s1.updPart p fun y => { y with run := { y.run with
        interlude := y.run.interlude && s1.programs.any fun z => z.part == p && z.region } }
    else s

/-- PROGRAM_HALT_COMPLETE (R153). -/
def execProgramHaltComplete (n : SeqId) (s : State) : Out :=
  .next <|
    if s.seqs[n].state == .halting && s.haltDrained n then
      let bad := (s.seqCores n).filterMap fun c => (s.leftover n c).map fun w => (c, w)
      match bad with
      | [] =>
        let s1 := s.updSeq n fun q => { q with state := .idle }
        match s.seqHolder n, s.seqs[n].item with
        | some p, some id => (s1.departClosing p n).tryEndProgram p id
        | _, _ => s1
      | l => s.over l fun s e => s.raiseFault (some e.1) (some n) (s.seqHolder n) e.2
          (BitVec.ofNat 48 s.seqs[n].issueCount) s.cores[e.1].beats
    else s

/-! ### Cross-core links, regions -/

/-- CROSS_CORE_MOVE (R143): the head of an XCO queue end of a core that a partition holds moves once the far end has room
(R142). -/
def execCrossCoreMove (c : CoreId) (q : QId) (s : State) : Out :=
  .next <|
    let e := s.cores[c].queues[q]
    let far := coreOf (bits e.topo 40 8)
    let fq := qOf (bits e.topo 35 5)
    match e.entries with
    | x :: r =>
      if s.coreLive c ∧ bits e.topo 48 8 = portXCO ∧ bits e.topo 40 8 < 192 ∧ s.cores[far].queues[fq].entries.length < 8 then
        (s.updCore c fun y => { y with queues := updAt y.queues q fun k => { k with entries := r } }).updCore far fun y =>
          { y with queues := updAt y.queues fq fun k => { k with entries := k.entries ++ [x] } }
      else s
    | [] => s

/-- Control space offset of a register of sequencer n's window (R7). -/
def seqOffset (n : SeqId) (x : Nat) : Nat := 0x400000 + n.val * 0x10000 + x

/-- A write of a sequencer's register by a master that completes with REFUSED_STATE (R97). -/
def State.refuseSeq (s : State) (n : SeqId) (x : Nat) (master : Byte) : State :=
  s.report master (seqOffset n x) .refusedState false none

/-- The effect of a write of SEQ_REGION by a master (R135). -/
def State.setSplit (s : State) (n : SeqId) (split : Nat) (master : Byte) : State :=
  if s.seqs[n].active then s.refuseSeq n 0x008 master else s.updSeq n fun q => { q with split := min 4096 split }

/-- SEQ_REGION_WRITE (R135). -/
def execSeqRegionWrite (n : SeqId) (split : BitVec 13) (s : State) : Out :=
  .next (s.atReg (seqOffset n 0x008) fun s => (s.wakeAccess (seqOffset n 0x008)).setSplit n split.toNat (s.owner (seqOffset n 0x008)))

/-! ### Faults collected (R149, R150), limits (R180) -/

/-- FAULT_COLLECT (R150). -/
def execFaultCollect (p : PartId) (s : State) : Out :=
  .next <|
    match s.parts[p].fault.next with
    | none => s
    | some (_, n, w, issue, _) =>
      let s1 := s.updPart p fun x => { x with fault := { x.fault with transit := x.fault.transit.drop 1 } }
      if s.parts[p].fault.first.isSome then
        s1.updPart p fun x => { x with fault := { x.fault with count := satAdd 16 x.fault.count 1 } }
      else
        let s2 := s1.updPart p fun x => { x with fault := { x.fault with first := some (n, w) } }
        let s3 := (s2.incident 0x01 (1 <<< p.val) sevJob)
        let inc := s3.ctl.incident
        let s4 := s3.event 0x0401 unitSteward (partByte p) sevJob inc
          (packDetail [(w.toNat, 8), (issue.toNat * 65536, 8)])
        let s5 := s4.over (s4.programsOf p) fun s x =>
          s.endProgram x .failedSchedule (x.faultDetail n w) inc
        s5.stopPart p 0x02 false inc

/-- Has a program run past its limit (R180)? -/
def Program.expired (x : Program) (now : Nat) : Bool := match x.limitAt with | some t => decide (t ≤ now) | none => false

/-- PROGRAM_LIMIT_EXPIRY (R180): STOP in the epoch in which the limit expires. -/
def execProgramLimitExpiry (p : PartId) (atNs : Nat) (s : State) : Out :=
  .next <|
    let s1 := s.advanceTo atNs
    if (s1.programsOf p).any (·.expired s1.timeNs) then
      { s1 with programs := s1.programs.map fun x => if x.part = p ∧ x.expired s1.timeNs then { x with limitAt := none } else x
        : State }.deviceStop p 0x01
    else s1

/-! ### Cadence (R181 to R183, R387) -/

/-- May a cadence be armed (R181)? -/
def State.armOk (s : State) (n : SeqId) (entry : Nat) : Bool :=
  s.seqs[n].state != .unattached && decide (entry < s.seqs[n].split)

/-- The effect of arming in epoch `epoch` by a master; a refused arm has no effect (07, Cadence; R97). -/
def State.armCadence (s : State) (n : SeqId) (periodNs : W32) (entry : BitVec 12) (epoch : Nat) (master : Byte) : State :=
  if s.armOk n entry.toNat then
    s.updSeq n fun q => { q with
      arm := true, periodNs := periodNs, entry := entry, missed := 0, tickLow := 0, tickK := 0, tArm := (epoch + 1) * 1000 }
  else s.refuseSeq n 0x080 master

/-- CADENCE_ARM (R181). -/
def execCadenceArm (n : SeqId) (periodNs : W32) (entry : BitVec 12) (epoch : Nat) (s : State) : Out :=
  .next (s.atReg (seqOffset n 0x080) fun s =>
    (s.wakeAccess (seqOffset n 0x080)).armCadence n periodNs entry epoch (s.owner (seqOffset n 0x080)))

/-- CADENCE_DISARM (R181). -/
def execCadenceDisarm (n : SeqId) (s : State) : Out :=
  .next (s.atReg (seqOffset n 0x080) fun s =>
    (s.wakeAccess (seqOffset n 0x080)).updSeq n fun q => { q with arm := false })

/-- The period that applies: below 10,000 ns it is 10,000. -/
def Sequencer.period (q : Sequencer) : Nat := max 10000 q.periodNs.toNat

/-- One tick of a cadence at its place on the grid. -/
def State.tick (s : State) (n : SeqId) (k : Nat) : State :=
  let q := s.seqs[n]
  match s.seqHolder n with
  | none => s
  | some p =>
    let run := s.capState p == .running
    if !run then s.updSeq n fun q => { q with tickK := k }
    else
      let s1 := s.updSeq n fun q => { q with tickK := k, tickLow := BitVec.ofNat 32 k }
      if q.state == .idle && !s.parts[p].run.interlude then
        s1.startProgram p [n] false q.entry.toNat
          #v[BitVec.ofNat 64 k, BitVec.ofNat 64 (q.tArm + k * q.period), q.cadArg] (q.cadTag + BitVec.ofNat 64 k) 0 0 false
      else s1.updSeq n fun q => { q with missed := satAdd 32 q.missed 1 }

/-- CADENCE_TICK (R182): the tick that falls at `atNs`. -/
def execCadenceTick (n : SeqId) (atNs : Nat) (s : State) : Out :=
  .next <|
    let s1 := s.advanceTo atNs
    let q := s1.seqs[n]
    let k := (atNs - q.tArm) / q.period
    if q.arm && decide (q.tickK < k) && atNs == q.tArm + k * q.period && decide (atNs ≤ s1.timeNs) then s1.tick n k else s1

/-! ### TRANSFER and NOP capsules -/

/-- A TRANSFER capsule (R172). -/
def State.transferCapsule (s : State) (p : PartId) (c : Capsule) : State :=
  let flags := c.param 0x18 1
  let tc := flags / 4 % 4
  let op := flags / 32
  let len := c.param 0x10 8
  let (id, s1) := s.newItem
  let x : Xfer :=
    { id := id, kind := .capsule, part := p, tag := c.tag, src := BitVec.ofNat 64 (c.param 0 8),
      dst := BitVec.ofNat 64 (c.param 8 8), srcHost := flags.testBit 0, dstHost := flags.testBit 1, length := len,
      op := BitVec.ofNat 2 op, tc := BitVec.ofNat 2 tc, ord := flags.testBit 4, ieee := s.ieee p, step := c.step,
      raiseV0 := c.v0 }
  let ok := c.body.isEmpty && zeroBytes c.params 0x19 7 && decide (64 ≤ len ∧ len ≤ 4294967296) && len % 64 == 0 &&
    tc != 2 && decide (op ≤ 3) && !(x.srcHost && x.dstHost)
  let far (h : Bool) (a : W64) : Bool := !h && !s.isLocal a
  let engine : Byte := if far x.srcHost x.src || far x.dstHost x.dst then 0x09 else 0x03
  if !ok then s.capDone p c engine .refusedState 4
  else
    match s.xferCheck x with
    | some o => s.capDone p c engine o 0
    | none => if !kindRuns (s.capState p) kTransfer false then s.capDone p c engine .refusedState 0 else (s1.wake p).startXfer x

/-- TRANSFER (R172). -/
def execTransfer (p : PartId) (s : State) : Out :=
  .next (s.withCapsule p kTransfer (fun _ => true) fun s c => s.transferCapsule p c)

/-- CAPSULE_NOP (05, Capsule kinds): completes with DONE. -/
def execCapsuleNop (p : PartId) (s : State) : Out :=
  .next (s.withCapsule p kNop (fun _ => true) fun s c => s.capDone p c 0x01 .done 0)

end Sys2Proof.Machine
end

