-- ==== Sys2Proof/Machine/Lull.lean ====
section
/-! DEFINITION. The family of lull commands (02 R42 to R50; 12 R301): entries, wakes, the wake budget, unparking. -/

namespace Sys2Proof.Machine

/-- The first tick of an armed cadence after the present. -/
def Sequencer.nextTick (q : Sequencer) (now : Nat) : Nat :=
  q.tArm + (max (q.tickK + 1) ((now - q.tArm) / max 1 q.period + 1)) * q.period

/-- May a depth be entered for the cadences of a partition (R49)? -/
def State.cadenceAllows (s : State) (p : PartId) (d : Nat) : Bool :=
  !s.parts[p].claims? || s.parts[p].im.img.seqs.all fun n =>
    !s.seqs[n].arm || decide (4 * wakeLatency d < s.seqs[n].nextTick s.timeNs - s.timeNs)

/-- May a partition enter a depth now (R44, R49)? One in EMPTY counts as idle (R43). -/
def State.mayRest (s : State) (p : PartId) (d : Nat) : Bool :=
  s.partIdle p && decide (d ≤ allowedDepth s.parts[p].lull.budget) &&
    decide (s.parts[p].lull.idleSince + 4 * wakeLatency d ≤ s.timeNs) && s.cadenceAllows p d

/-- The components of a partition that may rest at a depth it has reached (R45). -/
def State.restAt (s : State) (p : PartId) (d : Nat) : State :=
  if !s.parts[p].claims? then s
  else if d = 1 then (allFin 4).foldl (fun s f => if s.usesField p f && s.fieldRests f && !s.fields[f].retained then s.retain f else s) s
  else if d = 2 then
    let i := s.parts[p].im.img
    let s1 := s.over i.wells fun s w =>
      if s.wellRests w then s.updWell w fun m => if m.state = .active then { m with state := .selfRefresh } else m else s
    s1.over i.pumps fun s u =>
      if s.pumpRests u then s.updPump u fun x => { x with
        idle := true, mem := if x.mem.state = .active then { x.mem with state := .selfRefresh } else x.mem } else s
  else s

/-- LULL_ENTRY (R42, R44, R45, R49): depths are entered in order; Lull-0 changes no register, and the parking of
Lull-3 is the device's. -/
def execLullEntry (p : PartId) (depth : Fin 4) (atNs : Nat) (s : State) : Out :=
  .next <|
    let s1 := s.advanceTo atNs
    let d := depth.val
    if d = 0 || d = 3 || !s1.mayRest p d || s1.parts[p].lull.reached + 1 != d then s1
    else (s1.updPart p fun x => { x with lull := { x.lull with reached := d } }).restAt p d

/-- A port parked (R46, R424): a sounding of it ends FAILED_LINK. -/
def State.park (s : State) (n : PortId) : State :=
  ((s.endPortSounding n).refill n).updPort n fun x => if x.state = .admitted then { x with parked := true } else x

/-- LULL3_ENTRY (R46). -/
def execLull3Entry (atNs : Nat) (s : State) : Out :=
  .next <|
    let s1 := s.advanceTo atNs
    if s1.lull3Enable && !s1.inLull3 && s1.boot.state == .ready && decide (s1.tc12At + 3600000 ≤ s1.timeNs) &&
        (allFin 16).all (fun p => s1.mayRest p 3 && decide (2 ≤ s1.parts[p].lull.reached)) then
      ({ s1 with inLull3 := true }).over (allFin 6) fun s n => s.park n
    else s1

/-- WAKE_EVENT (R47, R48, R50): a request for a shared component wakes that alone; a lowered budget wakes what is too
deep. -/
def execWakeEvent (p : PartId) (cause : WakeCause) (s : State) : Out :=
  .next <|
    if s.parts[p].claims? then
      match cause with
      | .shared u => if s.usesMem p u then s.wakeShared u else s
      | .budget => s.wakeTo p (allowedDepth s.parts[p].lull.budget)
      | _ => s.wake p
    else s

/-- CADENCE_PREWAKE (R49): one wake latency before the tick. -/
def execCadencePrewake (n : SeqId) (atNs : Nat) (s : State) : Out :=
  .next <|
    let s1 := s.advanceTo atNs
    match s1.seqHolder n with
    | some p =>
      if s1.seqs[n].arm &&
          decide (s1.seqs[n].nextTick s1.timeNs ≤ s1.timeNs + wakeLatency (s1.effectiveDepth p)) then s1.wakeTo p 0
      else s1
    | none => s1

/-- The budget of a partition written (R50): what is too deep for it wakes at once. -/
def State.setBudget (s : State) (p : PartId) (b : W32) : State :=
  let s1 := s.updPart p fun x => { x with lull := { x.lull with budget := b } }
  if allowedDepth b < max (s1.effectiveDepth p) s1.parts[p].lull.reached then s1.wakeTo p (allowedDepth b) else s1

/-- LUL_WAKE_BUDGET_WRITE (R50, R65). -/
def execLulWakeBudgetWrite (p : PartId) (budgetNs : W32) (s : State) : Out := .next (s.atReg (0x300000 + p.val * 0x1000) (·.setBudget p budgetNs))

/-- The whole device woken from Lull-3 (R46). -/
def State.wakeAll (s : State) : State := (({ s with inLull3 := false }).over s.committedParts fun s p => s.wake p)

/-- A TC1 or TC2 head flit waits for a parked link, here or at the neighbour (R301). -/
def Port.wants (x : Port) : Bool := x.wakeReq || x.held.any fun e => e.pkt.tc == 1 || e.pkt.tc == 2

/-- The wake request in this port's next link control flit: it holds a TC1 or TC2 packet for a neighbour's parked port
(R287, R301). -/
def Port.asks (x : Port) : Bool := x.nbrParked && x.held.any fun e => e.pkt.tc == 1 || e.pkt.tc == 2

/-- PORT_UNPARK (R301): the port is back at width 16, and the held flits go. -/
def execPortUnpark (n : PortId) (s : State) : Out :=
  .next <|
    if s.ports[n].parked && (!s.inLull3 || s.ports[n].wants) then
      let s1 := if s.ports[n].wants then s.wakeAll else s
      ((s1.refill n).updPort n fun x => { x with parked := false, wakeReq := false }).flushPort n
    else s

end Sys2Proof.Machine
end

