-- ==== Sys2Proof/Machine/Health.lean ====
section
/-! DEFINITION. The family of health commands (18; 17 R397): Barometer, Almanac writes, orphan records. -/

namespace Sys2Proof.Machine

/-! ### Barometer (R413 to R420) -/

/-- Weights of the kinds of evidence (R414). -/
def evidWeight (k : Nat) : Nat := [1, 1, 64, 16, 1, 4, 4, 4, 1, 128, 32].getD k 0

/-- Events of a kind in the window. -/
def BaroPart.count (b : BaroPart) (k : Fin 11) : Nat := b.buckets.foldl (fun a v => a + v[k]) 0

/-- The score of the window (R415). -/
def BaroPart.windowScore (b : BaroPart) : Nat :=
  min 65535 ((allFin 11).foldl (fun a k => a + evidWeight k.val * b.count k) 0)

/-- Word w of BRM_EVID. -/
def BaroPart.evidWord (b : BaroPart) (w : Nat) : W64 :=
  (List.range 4).foldl (fun a j => if h : 4 * w + j < 11 then
    a ||| place (min 65535 (b.count ⟨4 * w + j, h⟩)) (16 * j) 16 else a) 0

/-- The bucket of the last 10 s closed, and the score taken. -/
def BaroPart.evaluate (b : BaroPart) : BaroPart :=
  let b1 := { b with buckets := (b.cur :: b.buckets).take 60, cur := Vector.replicate 11 0, evals := b.evals + 1 }
  { b1 with score := b1.windowScore }

/-- The state a part moves to (R417): at most one transition. -/
def Barometer.next (x : Barometer) (b : BaroPart) (nowS : Nat) : BitVec 2 :=
  let held := 600 ≤ nowS - b.sinceS
  if b.state = 2 then (if b.score < x.warnOff.toNat ∧ held then 1 else 2)
  else if x.warnOn.toNat ≤ b.score then 2
  else if b.state = 1 then (if b.score < x.watchOff.toNat ∧ held then 0 else 1)
  else if x.watchOn.toNat ≤ b.score then 1 else 0

/-- One part evaluated (R415 to R417, R419): whether it changed state. -/
def State.evaluatePart (s : State) (i : Fin 26) : State × Bool :=
  let seen := decide (60 ≤ s.baro.parts[i].evals)
  let b := s.baro.parts[i].evaluate
  let now := s.timeNs / 1000000000
  let st := if seen && !b.out then s.baro.next b now else b.state
  let put (b : BaroPart) (x : Barometer) : State := { s with baro := { x with parts := x.parts.set i b } }
  if st = b.state then (put b s.baro, false)
  else
    let b1 := { b with state := st, sinceS := now }
    let s1 := put b1 { s.baro with advSeq := s.baro.advSeq + 1, lastPart := BitVec.ofNat 8 i.val, lastState := st }
    (s1.event 0x0801 (BitVec.ofNat 8 i.val) partNone sevInfo 0
      (packDetail [(st.toNat, 1), (b.score, 2), ((b.evidWord 0).toNat, 8), ((b.evidWord 1).toNat, 8), ((b.evidWord 2).toNat, 8)]),
      true)

/-- 10 s in nanoseconds: the distance of two evaluations, and of two periodic soundings (R415, R426; log 37). -/
def tenSeconds : Nat := 10000000000

/-- BAROMETER_EVALUATION (R415, R419), once every 10 s: every part in order, and PF vector 3 once. -/
def execBarometerEvaluation (atNs : Nat) (s : State) : Out :=
  .next <|
    let s1 := s.advanceTo atNs
    if s1.boot.state == .ready && decide (s1.baro.evalAt + tenSeconds ≤ s1.timeNs) then
      let s2 := { s1 with baro := { s1.baro with evalAt := s1.timeNs } }
      let r := (allFin 26).foldl (fun (a : State × Bool) i => let x := a.1.evaluatePart i; (x.1, a.2 || x.2)) (s2, false)
      if r.2 then r.1.msi .pf 3 else r.1
    else s1

/-- A write of BRM_CFG by a master (R418). -/
def State.brmWrite (s : State) (v : W64) (master : Byte) : State :=
  let won := bits v 48 16
  let woff := bits v 32 16
  let ton := bits v 16 16
  let toff := bits v 0 16
  if toff < ton ∧ woff < won ∧ ton ≤ won then
    { s with baro := { s.baro with warnOn := BitVec.ofNat 16 won, warnOff := BitVec.ofNat 16 woff,
                                   watchOn := BitVec.ofNat 16 ton, watchOff := BitVec.ofNat 16 toff } }
  else s.report master 0x2700000 .refusedState false none

/-- BRM_CFG_WRITE (R418). -/
def execBrmCfgWrite (value : W64) (s : State) : Out := .next (s.atReg 0x2700000 fun s => s.brmWrite value (s.owner 0x2700000))

/-! ### Almanac (R427 to R430) -/

/-- ALMANAC_WRITE (R430): every pending record and fold is in flash. -/
def execAlmanacWrite (s : State) : Out := .next (if s.power.alwaysOn then s.flushAlmanac else s)

/-! ### Orphan records (R396, R397) -/

/-- next_record written: the current record and its map words are passed. -/
def State.passRecord (s : State) (p : PartId) : State :=
  s.updPart p fun x => { x with orphan := { records := x.orphan.records.drop 1 } }

def execNextRecord (p : PartId) (s : State) : Out := .next (s.atReg (prtOffset p 0x0F0) (·.passRecord p))

/-- next_word written: the next map word of the current record is presented. -/
def State.passWord (s : State) (p : PartId) : State :=
  s.updPart p fun x => { x with orphan := { records :=
    match x.orphan.records with
    | [] => []
    | (r, w) :: l => (r, w.drop 1) :: l } }

def execNextWord (p : PartId) (s : State) : Out := .next (s.atReg (prtOffset p 0x0F0) (·.passWord p))

end Sys2Proof.Machine
end

