-- ==== Sys2Proof/Machine/Sounding.lean ====
section
/-! DEFINITION. The family of soundings (18 R421 to R426): requests, the probes of a link, and the margin run. -/

namespace Sys2Proof.Machine

/-- Targets of a kind (R421): how many there are. -/
def sndTargets (kind : Nat) : Nat :=
  match kind with
  | 1 | 4 | 5 => 6
  | 2 | 3 => 4
  | 6 => 12
  | 7 => 4
  | _ => 0

/-- Is a target of a kind dead? -/
def State.sndDead (s : State) (kind t : Nat) : Bool :=
  match kind with
  | 2 | 3 => s.fields[fieldOf t].failed
  | 6 => s.wells[wellOf t].state == .dead
  | 7 => s.pumps[pumpOf t].mem.state == .dead
  | _ => false

/-- Is the target of an intrusive sounding quiesced (R422)? -/
def State.sndQuiesced (s : State) (kind t : Nat) : Bool :=
  let all (f : PartId → Bool) : Bool := s.committedParts.all fun p => !f p || s.parts[p].state == .quiesced
  match kind with
  | 6 => s.wells[wellOf t].state == .out || all fun p => s.parts[p].im.img.wellMask.testBit t
  | 7 => s.pumps[pumpOf t].mem.state == .out || all fun p => s.parts[p].im.img.cisZ[pumpOf t] != 0
  | _ => true

/-- May a port be scanned on a lane (R423)? -/
def State.scannable (s : State) (t lane : Nat) : Bool :=
  let x := s.ports[portOf t]
  x.state == .admitted && laneCount x.laneMask == 16 && !x.parked && decide (lane < 16)

/-- Bytes of pattern in this module's own probes (log 19). -/
def patternBytes : Nat := 8

/-- The pattern of a probe: successive draws of R217 from a seed (R425). -/
def probePattern (seed : W32) : Nat → List Byte
  | 0 => []
  | n + 1 => let (d, t) := lfsrDraw seed; BitVec.ofNat 8 d :: probePattern t n

/-- The payload of a SOUNDING packet (R425). -/
def probePayload (sub port : Nat) (seq : Nat) (sent : Nat) (seed : W32) : List Byte :=
  leBytes sub 1 ++ leBytes port 1 ++ leBytes 0 2 ++ leBytes seq 4 ++ leBytes sent 8 ++ leBytes seed.toNat 4 ++ leBytes 0 4 ++
    probePattern seed patternBytes

/-- A SOUNDING packet sent to the facing port, one hop away. -/
def State.sendSounding (s : State) (n : PortId) (payload : List Byte) : State :=
  let k := { mkPacket (s.neighbour n) 0x0D 3 0 0 0 payload with src := s.chip, repoch := s.fabric.repoch }
  if s.ports[n].state = .down then s else s.toPort n (adaptiveVc k) k none

/-- The 1,024 probes of a LINK_PROBE (R421), sent together (log 19). -/
def State.sendProbes (s : State) (n : PortId) (seed : W32) : State :=
  let sd := if seed = 0 then 1 else seed
  s.over (List.range 1024) fun s i => s.sendSounding n (probePayload 1 n.val i s.timeNs sd)

/-- A requested sounding (R421 to R423): refused, or begun. -/
def State.startSounding (s : State) (kind target lane : Nat) (seed : W32) : State :=
  let refuse (s : State) : State := { s with snd := { s.snd with
    outcome := BitVec.ofNat 8 OutcomeCode.refusedState.code, lastKind := BitVec.ofNat 8 kind, lastTarget := BitVec.ofNat 8 target } }
  if s.snd.running || sndTargets kind ≤ target || s.sndDead kind target || !s.sndQuiesced kind target ||
      (kind == 5 && !s.scannable target lane) then refuse s
  else
    let s1 := { s with snd := { s.snd with
      running := true, kind := BitVec.ofNat 8 kind, target := BitVec.ofNat 8 target, lane := BitVec.ofNat 8 lane,
      runKind := BitVec.ofNat 8 kind, runTarget := BitVec.ofNat 8 target
      probes := 0, echoes := 0, least := 0xFFFFFFFF, greatest := 0 } }
    if kind = 5 then (s1.refill (portOf target)).updPort (portOf target) fun x => { x with
      scanLane := some (BitVec.ofNat 4 lane), laneMask := x.laneMask &&& ~~~ (1#16 <<< lane) }
    else if kind = 4 then
      ({ s1 with snd := { s1.snd with probes := 1024 } }).sendProbes (portOf target) seed
    else s1

/-- A sounding requested by a write of SND_CTRL, where that register is served (R65). -/
def State.request (s : State) (kind target lane : Nat) (seed : W32) : State :=
  s.atReg 0x2800000 (·.startSounding kind target lane seed)

/-- RX_POWER (R421). -/
def execRxPower (n : PortId) (s : State) : Out := .next (s.request 1 n.val 0 0)
/-- CANARY (R421). -/
def execCanary (f : FieldId) (s : State) : Out := .next (s.request 2 f.val 0 0)
/-- DROOP (R421). -/
def execDroop (f : FieldId) (s : State) : Out := .next (s.request 3 f.val 0 0)
/-- LINK_PROBE (R421, R425). -/
def execLinkProbe (n : PortId) (seed : W32) (s : State) : Out := .next (s.request 4 n.val 0 seed)
/-- EYE_SCAN (R423). -/
def execEyeScan (n : PortId) (lane : BitVec 8) (s : State) : Out := .next (s.request 5 n.val lane.toNat 0)
/-- WELL_MARGIN (R421, R422). -/
def execWellMargin (w : WellId) (s : State) : Out := .next (s.request 6 w.val 0 0)
/-- CIS_MARGIN (R421, R422). -/
def execCisMargin (u : PumpId) (s : State) : Out := .next (s.request 7 u.val 0 0)

/-- The result words of an ended sounding: the probe's own counts, or what was measured. With no echo at all the round
trips have no value, a free one (log 7). -/
def State.sndResults (s : State) (results : Vector W64 4) : Vector W64 4 × State :=
  if s.snd.runKind = 1 then (results, s)
  else if s.snd.runKind = 4 then
    let lost := place (s.snd.probes - s.snd.echoes) 0 32
    if s.snd.echoes = 0 then
      let (v, s1) := s.fresh
      (#v[v, lost, 0, 0], s1)
    else (#v[place s.snd.least.toNat 0 32 ||| place s.snd.greatest.toNat 32 32, lost, 0, 0], s)
  else (#v[results[0], results[1] &&& 0xFFFFFFFF, 0, 0], s)

/-- SOUNDING_COMPLETE (R421): DONE, with the results. -/
def execSoundingComplete (kind target : Byte) (results : Vector W64 4) (s : State) : Out :=
  .next <|
    if s.snd.running && s.snd.runKind == kind && s.snd.runTarget == target then
      let (r, s1) := s.sndResults results
      let s2 := s1.endSounding .done
      { s2 with snd := { s2.snd with results := r } }
    else s

/-- MARGIN_SOUNDING_RUN (R426), once every 10 s: a target below a limit counts one SOUND_LOW in this evaluation. -/
def execMarginSoundingRun (m : MarginReading) (s : State) : Out :=
  .next <|
    if s.boot.state == .ready && decide (s.baro.marginAt + tenSeconds ≤ s.timeNs) then
      let s0 := { s with baro := { s.baro with marginAt := s.timeNs } }
      let s1 := s0.over (allFin 6) fun s n => if m.rx[n] < -80 then s.evidence (20 + n.val) evSoundLow 1 else s
      s1.over (allFin 4) fun s f =>
        if (m.slack[f] < 20 ∨ 40 < m.droop[f]) ∧ s.fields[f].failed = false then s.evidence f.val evSoundLow 1 else s
    else s

/-! ### Probes (R425) -/

/-- Does a SOUNDING packet end here, on a port that carries probes? -/
def State.soundingMine (s : State) (n : PortId) (k : Packet) : Bool :=
  s.ports[n].state != .down && k.dst == s.chip && k.kind == 0x0D &&
    decide (24 ≤ k.payload.length)

/-- An event that begins probation anew (R407). -/
def State.probationEvent (s : State) (n : PortId) : State :=
  s.updPort n fun x => if x.state = .probation then { x with probationAt := s.timeNs, ready := false } else x

/-- Checks of a SOUNDING packet (R290, R425): whether it passes, with what a failure counts. -/
def State.checkSounding (s0 : State) (n : PortId) (k : Packet) (trailer : W64) : Bool × State :=
  let s := s0.noteTc12 k
  if pktTrailer k != trailer then (false, ((s.countE2e n).probationEvent n).nakTo k 0x00)
  else
    let seed : W32 := BitVec.ofNat 32 (ldNat k.payload 16 4)
    if (k.payload.drop 24) == probePattern seed (k.payload.length - 24) then (true, s)
    else (true, (s.countE2e n).probationEvent n)

/-- PROBE (R425): answered with an ECHO. -/
def execProbe (n : PortId) (k : Packet) (trailer : W64) (s : State) : Out :=
  .next <|
    if s.soundingMine n k && ldNat k.payload 0 1 == 1 then
      let (ok, s1) := s.checkSounding n k trailer
      if ok then s1.sendSounding n (leBytes 2 1 ++ leBytes n.val 1 ++ k.payload.drop 2) else s1
    else s

/-- ECHO (R421, R425): one round trip of a running LINK_PROBE of this port. -/
def execEcho (n : PortId) (k : Packet) (trailer : W64) (s : State) : Out :=
  .next <|
    if s.soundingMine n k && ldNat k.payload 0 1 == 2 then
      let (ok, s1) := s.checkSounding n k trailer
      if ok && s1.snd.running && s1.snd.runKind == 4 && s1.snd.runTarget.toNat == n.val then
        let t := s1.timeNs - ldNat k.payload 8 8
        { s1 with snd := { s1.snd with
          echoes := s1.snd.echoes + 1, least := BitVec.ofNat 32 (min s1.snd.least.toNat t),
          greatest := BitVec.ofNat 32 (max s1.snd.greatest.toNat (min t 0xFFFFFFFF)) } }
      else s1
    else s

end Sys2Proof.Machine
end

