-- ==== Sys2Proof/Machine/Ports.lean ====
section
/-! DEFINITION. The family of port commands (12 R283 to R289, R296, R298 to R301, R309, R310; 17 R407): training and
loss, heartbeats, blocks and control flits, the packets a hop forwards, and the TC0 regulator. -/

namespace Sys2Proof.Machine

/-! ### A packet in progress on a virtual channel (R287) -/

/-- The rest of a packet that came in on `via` discarded at its output: where part of it has left, an abort flit goes
out for its channel. -/
def State.abortOn (s : State) (via : PortId × VcId) (m : PortId) (v : VcId) : State :=
  match s.ports[m].held.find? fun e => e.via == some via && e.vc == v with
  | some e => s.updPort m fun x => { x with
      held := x.held.erase e, aborts := if e.left < pktFlits e.pkt then x.aborts ++ [v] else x.aborts }
  | none => s.updPort m fun x => { x with aborts := x.aborts ++ [v] }

/-- The packet in progress on a channel ended, what was forwarded of it aborted. -/
def State.endProgress (s : State) (n : PortId) (v : VcId) : State :=
  let c := s.ports[n].vcs[v]
  if c.inProgress then
    let s1 := s.updPort n fun x => { x with
      vcs := updAt x.vcs v fun c => { c with inProgress := false, onward := none } }
    match c.onward with
    | some (m, w) => s1.abortOn (n, v) m w
    | none => s1
  else s

/-! ### Loss of a port (R300, R309, R310) -/

/-- Does the current routing table keep every packet off a port (R299, R300)? -/
def State.routedAround (s : State) (n : PortId) : Bool :=
  let t := s.fabric.tables[if s.fabric.repoch then (1 : Fin 2) else 0]
  (List.range 32768).all fun c =>
    let chip : BitVec 15 := BitVec.ofNat 15 c
    let e := (Sparse.getD t c 0#8).toNat % 64
    !s.inTorus chip || (if e = 0 then !s.productive chip n else !e.testBit n.val)

/-- Is the loss of a port absorbed (R300)? -/
def State.absorbed (s : State) (n : PortId) : Bool :=
  ((allFin 6).all fun m =>
    m == n || s.image.fabric.dims[portDim m] ≤ 1 || s.ports[m].state == .admitted) || s.routedAround n

/-- Has a partition a share on a port (R92)? -/
def PartImage.onPort (i : PartImage) (n : PortId) : Bool :=
  (allFin 3).any fun c => i.portShare[3 * n.val + c.val]'(by omega) != 0

/-- A port out of service: its transmitters are off, its link's credits and held packets are gone (R309, R310). -/
def Port.downed (x : Port) (cause : Byte) : Port :=
  { x with state := .down, cause := cause, laneMask := 0, parked := false, nbrParked := false, transmitting := false, nbrAdmitted := false,
           ready := false, wakeReq := false, scanLane := none, held := [], arb := {}, tc0Queue := [], aborts := [],
           vcs := Vector.replicate 12 {} }

/-- A port DOWN (R309, R310, R300, R92): TC0 packets of this source that waited for tokens are routed anew. -/
def State.portDown (s : State) (n : PortId) (cause : Byte) : State :=
  if s.ports[n].state == .down then s
  else
    let was := s.ports[n].state == .admitted
    let s1 := (allFin 12).foldl (fun s v => s.endProgress n v) (s.endPortSounding n)
    let q := s1.ports[n].tc0Queue
    let s2 := (s1.updPort n (·.downed cause)).baroOut (20 + n.val) true
    let ok := !was || s2.absorbed n
    let s3 := s2.event 0x0602 (unitPort n) partNone (if ok then sevAbsorbed else sevJob) 0 (packDetail [(cause.toNat, 1)])
    let s4 := q.foldl (fun s k => s.launch k) s3
    if ok then s4 else s4.jobFault 0x07 (s4.committedParts.filter fun p => s4.parts[p].im.img.onPort n) 0x04

/-! ### Training, lanes, light (R283, R284, R309, R407) -/

/-- A port begins to train: counts stay, the link starts afresh. -/
def State.beginTraining (s : State) (n : PortId) : State :=
  s.updPort n fun x => { x.downed 0 with
    state := .training, transmitting := true, hbSentAt := s.timeNs, hbSeenAt := s.timeNs, tokens := 40960,
    tokenAt := s.timeNs }

/-- What a port that trains sees of its neighbour, and what that makes of it (R283). -/
def State.trained (s : State) (n : PortId) (i : TrainInfo) : State :=
  let note (s : State) (cause : Byte) : State :=
    (s.updPort n fun x => { x with cause := cause }).event 0x0601 (unitPort n) partNone sevAbsorbed 0
      (packDetail [(n.val, 1), (i.chip.toNat, 2), (i.port.toNat, 1)])
  let lanes := laneCount i.lanes
  if lanes = 0 then s.portDown n 0x01
  else if lanes < 8 then s.portDown n 0x05
  else
    let s1 := s.updPort n fun x => { x with nbrChip := i.chip, nbrPort := i.port, laneMask := i.lanes }
    if i.chip != s.neighbour n || i.port.toNat != n.val ^^^ 1 then note s1 0x03
    else if i.digest != s.image.fabric.digest then note s1 0x04
    else s1.updPort n fun x => { x with state := .probation, cause := 0, probationAt := s.timeNs, ready := false }

/-- LINK_TRAINING (R283). -/
def execLinkTraining (n : PortId) (info : TrainInfo) (atNs : Nat) (s : State) : Out :=
  .next <|
    let s1 := s.advanceTo atNs
    let x := s1.ports[n]
    if (s1.boot.state == .fill || s1.boot.state == .ready) && 1 < s1.image.fabric.dims[portDim n] && !x.disable then
      match x.state with
      | .down => (s1.beginTraining n).trained n info
      | .training => s1.trained n info
      | _ => s1
    else s1

/-- LANE_LOSS (R284, R309, R392): the port goes on at a lower width, or goes DOWN. -/
def execLaneLoss (n : PortId) (bad : BitVec 16) (s : State) : Out :=
  .next <|
    if s.ports[n].state == .down then s
    else
      let s0 := s.endPortSounding n
      let m := s0.ports[n].laneMask
      if m &&& bad = 0 then s
      else
        let left := laneCount (m &&& ~~~ bad)
        if left = 0 then s0.portDown n 0x01
        else if left < 8 then s0.portDown n 0x05
        else ((s0.refill n).updPort n fun x => { x with laneMask := m &&& ~~~ bad }).evidence (20 + n.val) evRetrain 1

/-- LOSS_OF_LIGHT (R309). -/
def execLossOfLight (n : PortId) (s : State) : Out := .next (s.portDown n 0x01)

/-- PORT_DISABLE (R309, ILN_PORT_CTRL). -/
def State.setDisable (s : State) (n : PortId) (disable : Bool) : State :=
  let s1 := s.updPort n fun x => { x with disable := disable }
  if !disable then s1
  else if s1.ports[n].state == .down then
    s1.updPort n fun x => { x with cause := if x.cause = 0x07 then x.cause else 0x06 }
  else s1.portDown n 0x06

def execPortDisable (n : PortId) (disable : Bool) (s : State) : Out :=
  .next (s.atReg (0x2300020 + n.val * 0x10000) (·.setDisable n disable))

/-- PROBATION_PASS (R407): probation_ms without an event. -/
def execProbationPass (n : PortId) (atNs : Nat) (s : State) : Out :=
  .next <|
    let s1 := s.advanceTo atNs
    s1.updPort n fun x =>
      if x.state = .probation ∧ x.probationAt + s1.image.fabric.probationMs * 1000000 ≤ s1.timeNs then
        { x with ready := true } else x

/-! ### Heartbeats (R309) -/

/-- The code of a port state. -/
def PortState.code : PortState → Nat
  | .down => 0 | .training => 1 | .probation => 2 | .admitted => 3

/-- A HEARTBEAT's payload. -/
def State.hbPayload (s : State) (n : PortId) : List Byte :=
  let x := s.ports[n]
  leBytes s.chip.toNat 2 ++ leBytes n.val 1 ++ leBytes x.state.code 1 ++ leBytes x.hbSeq.toNat 4 ++
    leBytes (b2n s.fabric.repoch) 1 ++ leBytes 0 7 ++ leBytes s.timeNs 8

/-- A TC0 packet for the facing port alone, under the regulator (R296). -/
def State.sendFacing (s : State) (n : PortId) (k : Packet) : State :=
  let k1 := { k with dst := s.neighbour n, src := s.chip, repoch := s.fabric.repoch }
  s.tc0 n 0 k1

/-- One heartbeat sent. -/
def State.sendHeartbeat (s : State) (n : PortId) : State :=
  (s.sendFacing n (mkPacket 0 0x08 0 0 0 0 (s.hbPayload n))).updPort n fun x =>
    { x with hbSeq := x.hbSeq + 1, hbSentAt := s.timeNs }

def State.hbPeriod (s : State) : Nat := s.image.fabric.hbPeriodUs * 1000

/-- HEARTBEAT_TIMER (R309, R407): a heartbeat is due; a period without one from the neighbour restarts probation. -/
def execHeartbeatTimer (n : PortId) (atNs : Nat) (s : State) : Out :=
  .next <|
    let s1 := s.advanceTo atNs
    let x := s1.ports[n]
    if x.state == .down || s1.timeNs < x.hbSentAt + s1.hbPeriod then s1
    else
      let s2 := if x.hbSeenAt + s1.hbPeriod < s1.timeNs then s1.probationEvent n else s1
      s2.sendHeartbeat n

/-- HEARTBEAT_MISS_LIMIT (R309). -/
def execHeartbeatMissLimit (n : PortId) (atNs : Nat) (s : State) : Out :=
  .next <|
    let s1 := s.advanceTo atNs
    if s1.ports[n].hbSeenAt + s1.image.fabric.missLimit * s1.hbPeriod ≤ s1.timeNs then s1.portDown n 0x02 else s1

/-- HEARTBEAT (R309, R407): the first that reports ADMITTED lets traffic go. -/
def execHeartbeat (n : PortId) (k : Packet) (trailer : W64) (s : State) : Out :=
  .next <|
    if s.ports[n].state == .down || k.kind != 0x08 || k.dst != s.chip then s
    else
      let s1 := s.noteTc12 k
      if pktTrailer k != trailer then ((s1.countE2e n).probationEvent n).nakTo k 0x00
      else
        let s2 := s1.updPort n fun x => { x with
          hbSeenAt := s1.timeNs, nbrAdmitted := x.nbrAdmitted || ldNat k.payload 3 1 == 3 }
        s2.flushPort n

/-! ### Blocks, control flits, aborts (R285 to R287, R310) -/

/-- A flit of a packet received on a channel, its buffer freed; a head begins a packet in progress, a tail ends it
(R286, R287). PACKET_FORWARD comes between the head and the tail of its packet (log 18). -/
def Vc.flit (c : Vc) (kind : Nat) : Vc :=
  { c with
    recv := c.recv + 1, recvFreed := c.recvFreed + 1
    inProgress := if kind = 1 then true else if kind = 0 then c.inProgress else false
    onward := if kind = 0 then c.onward else none }

/-- BLOCK_RECEIVE (R285, R286): a burst of up to 8 bits is corrected, a longer one loses the block. -/
def execBlockReceive (n : PortId) (burst : Nat) (sideband : W16) (s : State) : Out :=
  .next <|
    if s.ports[n].state == .down then s
    else if 8 < burst then
      ((s.updPort n fun x => { x with fecLost := satAdd 16 x.fecLost 1 }).evidence (20 + n.val) evFecLost 1).probationEvent n
    else
      let s1 := if burst = 0 then s else
        (s.updPort n fun x => { x with fecCorr := x.fecCorr + 1 }).evidence (20 + n.val) evFecCorr 1
      let v := bits sideband 12 4
      let kind := bits sideband 10 2
      if v < 12 then s1.updPort n fun x => { x with vcs := updAt x.vcs (vcOf v) (·.flit kind) } else s1

/-- The flits that a control flit shows to be missing on a channel, counted as received and freed (R287). -/
def State.missingFlits (s : State) (n : PortId) (v : VcId) (sent : BitVec 12) : State :=
  let m := sent - s.ports[n].vcs[v].recv
  if m = 0 ∨ 2048 ≤ m.toNat then s
  else (s.updPort n fun x => { x with
    vcs := updAt x.vcs v fun c => { c with recv := c.recv + m, recvFreed := c.recvFreed + m } }).endProgress n v

/-- LINK_CONTROL_FLIT (R287, R293, R301). -/
def execLinkControlFlit (n : PortId) (sent freed : Vector (BitVec 12) 12) (bits : WakeBits) (s : State) : Out :=
  .next <|
    if s.ports[n].state != .down then
      let s1 := (allFin 12).foldl (fun s v => s.missingFlits n v sent[v]) (s.refill n)
      let s2 := s1.updPort n fun x => { x with
        wakeReq := x.wakeReq || (bits.wake && x.parked)
        nbrParked := bits.parked
        vcs := Vector.ofFn fun v => { x.vcs[v] with freed := freed[v] } }
      s2.flushPort n
    else s

/-- ABORT_FLIT (R287): the rest of the packet is discarded and the abort passed on. -/
def execAbortFlit (n : PortId) (v : VcId) (s : State) : Out := .next (s.endProgress n v)

/-- VC_IDLE_TIMEOUT (R310): no flit for 10 µs with a packet in progress. -/
def execVcIdleTimeout (n : PortId) (v : VcId) (s : State) : Out := .next (s.endProgress n v)

/-! ### Packets passed on (R289, R298 to R300) -/

/-- The types of R291. -/
def knownKind (b : Byte) : Bool :=
  [1, 2, 3, 4, 5, 6, 8, 9, 0xA, 0xB, 0xC, 0xD, 0x10, 0x11, 0x12].contains b.toNat

/-- A packet in transit sent on: its hop chosen, the detour marked; where its tail has not come yet, its channel
remembers where it goes. -/
def State.passOn (s : State) (n : PortId) (v : VcId) (k : Packet) : State :=
  match s.hop k with
  | .drop => s.routeDrop (some n)
  | .to m w d =>
    let s1 := s.updPort n fun x => { x with
      vcs := updAt x.vcs v fun c => if c.inProgress then { c with onward := some (m, w) } else c }
    (s1.toPort m w (if d then { k with detoured := true } else k) (some (n, v))).act (20 + m.val) 16 k.payload.length

/-- PACKET_FORWARD (R289, R298 to R300). A packet for this chip is not forwarded; one of an unknown type is discarded
(R291). -/
def execPacketForward (n : PortId) (v : VcId) (k : Packet) (hcrc : W16) (s : State) : Out :=
  .next <|
    if s.ports[n].state == .admitted then
      if hcrc != pktHcrc k then
        (s.updPort n fun x => { x with hdrDrops := satAdd 16 x.hdrDrops 1 }).evidence (20 + n.val) evHdrDrop 1
      else if k.dst = s.chip then
        if knownKind k.kind then s else s.countE2e n
      else (s.noteTc12 k).passOn n v k
    else if s.ports[n].state != .down && hcrc != pktHcrc k then
      ((s.updPort n fun x => { x with hdrDrops := satAdd 16 x.hdrDrops 1 }).evidence (20 + n.val) evHdrDrop 1).probationEvent n
    else s

/-- TC0_INJECT (R296): packets that waited for tokens go. -/
def execTc0Inject (n : PortId) (atNs : Nat) (s : State) : Out :=
  .next <|
    let s1 := (s.advanceTo atNs).refill n
    if s1.ports[n].state != .down then s1.tc0Drain n s1.ports[n].tc0Queue.length else s1

end Sys2Proof.Machine
end

