-- ==== Sys2Proof/Machine/Power.lean ====
section
/-! DEFINITION. The family of module power and thermal commands (01, 02): supply, rails, brake, alarms, governor,
field status, well temperatures, the power cap. -/

namespace Sys2Proof.Machine

/-- The cap in force (R37, R19, R22): the lowest of the clamped cap_w, the brake cap while it applies, and 2,000 W. -/
def State.capInForce (s : State) : Nat :=
  let cap := min 2000 (max 400 s.power.capW.toNat)
  if s.power.brake || s.power.undervoltage then min cap s.power.brakeCapW.toNat else cap

/-- Every rail outside the always-on domain removed (R18, R21, R26). -/
def State.railsOff (s : State) : State :=
  { s with
    power := { s.power with railFields := Vector.replicate 4 false, railWells := false, railCistern := false,
                            railOptics := false, atLimit := 0 }
    boot := { s.boot with railsUp := false }
    fields := s.fields.map fun f => { failed := f.failed } }

/-- P54V_WITHIN_RANGE (R21, R428; 02, STW_TIME). After an input collapse the always-on domain has kept running, and
only the supply is back (log 15). -/
def execP54vWithinRange (s : State) : Out :=
  .next <|
    if s.power.alwaysOn then { s with power := { s.power with supply := .inRange } }
    else { s with
      timeNs := 0
      power := { s.power with alwaysOn := true, supply := .inRange }
      almanac := { s.almanac with cycles := s.almanac.cycles + 1 } }

/-- STEWARD_ROM_RESET_EXIT (R16): the straps are sampled once per power cycle; with PWR_EN low the device is in BARE
with bare_cause 0x5 (R18). -/
def execStewardRomResetExit (levels : Straps) (s : State) : Out :=
  .next <|
    if s.power.alwaysOn && !s.power.strapsSampled then
      let s1 := { s with power := { s.power with straps := levels, strapsSampled := true } }
      if s1.power.pwrEn then s1 else { s1 with boot := { s1.boot with bareCause := 5 } }
    else s

/-- PWR_EN_RISE (R18, R20). After a trip the rails return only after a P54V cycle (R26), after a collapse at the reset that
R389 names. -/
def execPwrEnRise (atNs : Nat) (s : State) : Out :=
  .next <|
    if s.power.alwaysOn && !s.power.pwrEn then
      let s1 := s.advanceTo atNs
      let s2 := { s1 with
        power := { s1.power with pwrEn := true, pwrEnAt := s1.timeNs }
        link := { s1.link with detectUntil := s1.timeNs + 100000000 } }
      if s2.ctl.halted then s2 else s2.railsOn
    else s

/-- PWR_EN_FALL (R18, R410): a reset of everything outside the always-on domain; BARE with bare_cause 0x5. -/
def execPwrEnFall (s : State) : Out :=
  .next <|
    if s.power.pwrEn then
      let s1 := (s.deviceReset .abortedReset 0).railsOff
      ({ s1 with
        power := { s1.power with pwrEn := false }
        link := { s1.link with link := .detect } }).bare 5
    else s

/-- Is the device in BARE for a reason that only a loader session removes (R68)? -/
def State.heldBare (s : State) : Bool :=
  s.boot.state == .bare && s.boot.bareCause != 0 && s.boot.bareCause != 5 && !s.loader.endedSinceBare

/-- RAILS_IN_REGULATION (R63, R66): VERIFY begins, or BARE under R63. -/
def execRailsInRegulation (s : State) : Out :=
  .next <|
    if s.power.pwrEn && s.power.railWells && !s.boot.railsUp then
      let s1 := { s with boot := { s.boot with railsUp := true } }
      if s1.heldBare then s1 else s1.bootStart
    else s

/-- PWR_BRAKE_ASSERT (R19): the brake cap enters the cap in force. -/
def execPwrBrakeAssert (s : State) : Out := .next { s with power := { s.power with brake := true } }

/-- PWR_BRAKE_RELEASE (R19): the master's cap applies again. -/
def execPwrBrakeRelease (s : State) : Out := .next { s with power := { s.power with brake := false } }

/-- UNDERVOLTAGE (R21): an Almanac event, and the brake cap applies. -/
def execUndervoltage (mv : W16) (s : State) : Out :=
  .next <|
    if s.power.alwaysOn && !s.power.undervoltage && decide (mv.toNat < 45000) then
      let s1 := { s with power := { s.power with undervoltage := true, supply := .undervolt } }
      s1.event 0x0201 unitNone partNone sevInfo 0 (packDetail [(mv.toNat, 2)])
    else s

/-- UNDERVOLTAGE_CLEAR (R21): P54V is back at 45.0 V or above, and the undervoltage brake ends. -/
def execUndervoltageClear (s : State) : Out :=
  .next <|
    if s.power.undervoltage then { s with power := { s.power with undervoltage := false, supply := .inRange } } else s

/-- A device-ending event that leaves the rails off and the device halted (R388, R389, R410). -/
def State.halt (s : State) (source : Byte) : State :=
  let s1 := s.incident source (maskOf (s.committedParts.map (·.val))) sevDevice
  let s2 := (s1.deviceReset .abortedReset s1.ctl.incident).railsOff
  ({ s2 with ctl := { s2.ctl with halted := true } }).reboot.modFault

/-- INPUT_COLLAPSE (R389, R21). -/
def execInputCollapse (mv : W16) (s : State) : Out :=
  .next <|
    if s.power.alwaysOn && decide (38000 ≤ mv.toNat ∧ mv.toNat < 42000) && s.power.supply != .collapsed then
      let s1 := { s with power := { s.power with supply := .collapsed, undervoltage := true } }
      let s2 := if s.power.undervoltage then s1
        else s1.event 0x0201 unitNone partNone sevInfo 0 (packDetail [(mv.toNat, 2)])
      (s2.event 0x0203 unitNone partNone sevDevice 0 (packDetail [(mv.toNat, 2)])).halt 0x0B
    else s

/-- LOSS_OF_P54V (R21): the always-on domain stops. Fuses and flash remain: the image slot, the Almanac with its
counts, the remap tables and quarantine lists (R53, R271, R275). -/
def execLossOfP54v (s : State) : Out := .next s.powerLoss

/-- The trip threshold of a sensor (R25), °C. -/
def tripC : Sensor → Int
  | .die _ => 115
  | .optic _ => 85
  | _ => 105

/-- The Almanac unit of a sensor. -/
def sensorUnit : Sensor → Byte
  | .die f => unitField f
  | .well w => unitWell w
  | .optic n => unitPort n
  | .pump u => unitPump u
  | .cistern k => BitVec.ofNat 8 (16 + k.val / 4)

/-- The number of a sensor within its kind. -/
def sensorIndex : Sensor → Nat
  | .die f => f.val
  | .well w => w.val
  | .optic n => n.val
  | .pump u => u.val
  | .cistern k => k.val

/-- The warning threshold of a sensor (R25), °C. -/
def warnC : Sensor → Int
  | .die _ => 100
  | .optic _ => 72
  | _ => 90

/-- A reading of a sensor kept where the spec shows it, or where the governor reads it (R25, R257, R258, R279). A quarter
shows the hottest of its packages, at double refresh above 85 °C (log 15). -/
def State.setTemp (s : State) (x : Sensor) (t : Byte) : State :=
  match x with
  | .die f => s.updField f fun y => { y with junctionC := t }
  | .well w => s.updWell w fun m => { m with tempC := t, refresh2x := decide (85 < sgn t) }
  | .optic n => { s with power := { s.power with opticC := s.power.opticC.set n t } }
  | .pump u => { s with power := { s.power with pumpC := s.power.pumpC.set u t } }
  | .cistern k =>
    let temps := s.cisTemp.set k t
    let u : PumpId := ⟨k.val / 4, by omega⟩
    let hot := (allFin 16).foldl (fun a j => if j.val / 4 == u.val && sgn a < sgn temps[j] then temps[j] else a) t
    ({ s with cisTemp := temps }).updPump u fun y => { y with
      mem := { y.mem with tempC := hot, refresh2x := decide (85 < sgn hot) } }

/-- A reading of a sensor (R17, R25): kept, and THERM_WARN# asserted while any sensor is above its warning threshold. -/
def State.sense (s : State) (x : Sensor) (t : Byte) : State :=
  let s1 := s.setTemp x t
  let l := s1.power.warnSensors.filter (· != x)
  let l' := if warnC x < sgn t then x :: l else l
  { s1 with power := { s1.power with warnSensors := l', thermWarn := !l'.isEmpty } }

/-- THERMAL_WARNING (R17, R25). -/
def execThermalWarning (x : Sensor) (tempC : Byte) (s : State) : Out :=
  .next (s.iff s.power.alwaysOn (·.sense x tempC))

/-- THERMAL_TRIP (R26, R17): THERM_TRIP# stays asserted until P54V is removed. -/
def execThermalTrip (x : Sensor) (tempC : Byte) (s : State) : Out :=
  .next <|
    if s.power.alwaysOn && !s.power.thermTrip && decide (tripC x ≤ sgn tempC) then
      let s0 := s.sense x tempC
      let s1 := { s0 with power := { s0.power with thermTrip := true } }
      (s1.event 0x0202 (sensorUnit x) partNone sevDevice 0
        (packDetail [((sensorUnit x).toNat, 1), (sensorIndex x, 1), (tempC.toNat, 1)])).halt 0x0A
    else s

/-! ### Governor (R36, R37, R25) -/

/-- How far the hottest sensor of a field stands above its governor limit, in °C; the field is at a limit from 0 up. A
well or a package counts for the field it lies at, an optical engine for every field (log 15). -/
def State.overLimit (s : State) (f : FieldId) : Int :=
  let l := [sgn s.fields[f].junctionC - 105, sgn s.power.pumpC[f] - 95] ++
    ((allFin 12).filter (fun w => w.val / 3 == f.val)).map (fun w => sgn s.wells[w].tempC - 95) ++
    ((allFin 16).filter (fun k => k.val / 4 == f.val)).map (fun k => sgn s.cisTemp[k] - 95) ++
    (allFin 6).map fun n => sgn s.power.opticC[n] - 75
  l.foldl max (-105)

/-- Is a field at a governor limit (R25)? -/
def State.fieldHot (s : State) (f : FieldId) : Bool := decide (0 ≤ s.overLimit f)

/-- A setting in steps of 5 mV from `lo` to `hi`: where in that range is not given by the spec, a free value (log 7). -/
def govSetting (free : W64) (lo hi : Nat) : Nat := lo + 5 * (free.toNat % ((max lo hi - lo) / 5 + 1))

/-- The common setting after a run (R36, R37): 50 mV away at most, down to the floor while input power is above the cap
in force, not up at the cap. A field at a limit leaves 5 mV of the fall to that field. -/
def State.commonSetting (s : State) (free : W64) (anyHot : Bool) : Nat :=
  let cur := s.power.commonMv
  let lo := max 650 (cur - if anyHot then 45 else 50)
  if s.capInForce < s.power.inputW.toNat then govSetting free lo (max 650 (cur - 5))
  else if s.capInForce = s.power.inputW.toNat then govSetting free lo cur
  else govSetting free lo (min 800 (cur + 50))

/-- The setting of one field (R25, R36): the common one as fast as the rail may move; below it at a governor limit,
and falling while its sensor is above the limit. -/
def State.fieldSetting (s : State) (f : FieldId) (free : W64) (common : Nat) : Nat :=
  let cur := s.fields[f].railMv.toNat
  if s.fieldHot f then
    let hi := if 0 < s.overLimit f then cur - 5 else cur
    govSetting free (max 650 (cur - 50)) (max 650 (min hi (common - 5)))
  else if cur < 650 then common
  else min common (cur + 50)

/-- One run of the governor (R36). A field in retention keeps 0.45 V, a failed one has no supply. -/
def State.govern (s : State) (inputW : W16) : State :=
  let hot := BitVec.ofNat 4 (maskOf (((allFin 4).filter fun f => s.fieldHot f).map (·.val)))
  let s0 := { s with power := { s.power with inputW := inputW, atLimit := hot, govAt := s.timeNs } }
  let (v, s1) := s0.fresh
  let common := s0.commonSetting v (hot != 0)
  let s2 := { s1 with power := { s1.power with commonMv := common } }
  s2.over (allFin 4) fun st f =>
    let (u, st1) := st.fresh
    let mv := s.fieldSetting f u common
    st1.updField f fun x =>
      if x.retained || x.failed then x
      else { x with railMv := BitVec.ofNat 16 mv, limiter := s0.limiterOf mv (s.fieldHot f) }

/-- GOVERNOR_RUN (R33, R36): every 10 µs of STW_TIME. -/
def execGovernorRun (inputW : W16) (atNs : Nat) (s : State) : Out :=
  .next <|
    let s1 := s.advanceTo atNs
    if s1.power.pwrEn && !s1.ctl.halted && decide (s1.power.govAt + 10000 ≤ s1.timeNs) then s1.govern inputW else s1

/-- FIELD_STATUS_UPDATE (R35): the beat monitor has run at `rateMbeat` over the last 10 µs; it stops in retention. -/
def execFieldStatusUpdate (f : FieldId) (junctionC : Byte) (rateMbeat : W16) (s : State) : Out :=
  .next <|
    if s.power.pwrEn then
      (s.sense (.die f) junctionC).updField f fun x =>
        if x.retained || x.railMv == 0 then { x with rateMbeat := 0 }
        else { x with rateMbeat := rateMbeat, beats := x.beats + BitVec.ofNat 64 (10 * rateMbeat.toNat) }
    else s

/-- WELL_TEMP_READOUT (R257, R25): above 85 °C refresh runs at double rate. -/
def execWellTempReadout (w : WellId) (tempC : Byte) (s : State) : Out :=
  .next (s.iff s.power.railWells (·.sense (.well w) tempC))

/-- The effect of a write of STW_POWER_CAP (R38): cap_w changes, and nothing else. -/
def State.setPowerCap (s : State) (capW : W16) : State := { s with power := { s.power with capW := capW } }

/-- STW_POWER_CAP_WRITE (R38, R65). -/
def execStwPowerCapWrite (capW : W16) (s : State) : Out := .next (s.atReg 0x280 (·.setPowerCap capW))

end Sys2Proof.Machine
end

