-- ==== Sys2Proof/Machine/Regs.lean ====
section
/-! DEFINITION. The register map as a master reads it (00 R4, R5, R7, R29; the register tables of 01 to 18): one function
per block, from an offset that is a multiple of 8 to a 64-bit word. Offsets that no register occupies read zero. -/

namespace Sys2Proof.Machine

/-! ### Helpers -/

/-- A word of up to 64 bits. -/
def word (n : Nat) : W64 := BitVec.ofNat 64 n

/-- Word i of a list of bytes. -/
def byteWord (l : List Byte) (i : Nat) : W64 := word (ldNat l (8 * i) 8)

/-- Word i of a wide value, least significant first. -/
def wideWord {n : Nat} (v : BitVec n) (i : Nat) : W64 := word (bits v (64 * i) 64)

/-- The index of an entry of a table of `n` entries of `w` bytes at `base`, if the offset lies in it. -/
def entryAt (x base w n : Nat) : Option Nat := if base ≤ x ∧ x < base + w * n then some ((x - base) / w) else none

/-- The code of a sequencer state (06, SEQ_STATUS). -/
def SeqState.code : SeqState → Nat
  | .idle => 0 | .running => 1 | .halting => 2 | .faulted => 3 | .unattached => 4

/-- The code of a memory unit's state (11, MEM_STATUS). -/
def UnitState.code : UnitState → Nat
  | .filling => 0 | .active => 1 | .selfRefresh => 2 | .out => 3 | .dead => 4

/-- The code of a boot state (03, STW_BOOT_STATUS). -/
def BootState.code : BootState → Nat
  | .bare => 0 | .verify => 1 | .structure_ => 2 | .fill => 3 | .ready => 4

/-- The code of an owner key slot's state (03, STW_OWNER_KEYS). -/
def KeyState.code : KeyState → Nat
  | .empty => 0 | .enrolled => 1 | .revoked => 3

/-! ### STW_ (01, 02, 03, 04, 17) -/

def State.readBoot (s : State) : W64 :=
  let low := !s.power.pwrEn
  place s.boot.rejectReason.toNat 40 8 ||| place s.boot.failSection.toNat 32 8 ||| place s.boot.fillPermille 16 10 |||
    place (if low then 5 else s.boot.bareCause.toNat) 4 4 ||| place (if low then 0 else s.boot.state.code) 0 3

def State.readField (s : State) (f : FieldId) : W64 :=
  let x := if s.power.pwrEn then s.fields[f] else {}
  place x.junctionC.toNat 40 8 ||| place x.limiter.toNat 32 4 ||| place x.rateMbeat.toNat 16 16 ||| place x.railMv.toNat 0 16

def State.readPower (s : State) : W64 :=
  if !s.power.pwrEn then 0
  else place s.power.inputW.toNat 32 16 ||| place s.capInForce 16 16 ||| placeB (s.power.atLimit != 0) 2 |||
    placeB s.power.undervoltage 1 ||| placeB s.power.brake 0

def Loader.readCtrl (l : Loader) : W64 :=
  place l.chunkLen.toNat 16 20 ||| place l.cmd.toNat 1 3 ||| placeB l.run.isSome 0

def Loader.readStatus (l : Loader) : W64 :=
  let ses := match l.session with | none => 0 | some .pcie => 1 | some .mctp => 2
  place l.rejectReason.toNat 40 8 ||| place l.outcome.toNat 32 8 ||| place ses 30 2 ||| place l.bytesWritten 0 26

def Fuses.readKeys (f : Fuses) : W64 :=
  (allFin 4).foldl (fun a k => a ||| place f.keys[k].state.code (2 * k.val) 2) 0

def Control.readRefusal (c : Control) : W64 :=
  place c.refusalOffset.toNat 32 32 ||| place c.refusalOutcome.toNat 24 8 ||| place c.refusalMaster.toNat 16 8 |||
    placeB c.refusalStale 0

/-- One byte of STW_OWNER_MAP: entries that R95 does not use read zero. -/
def State.ownerByte (s : State) (e : Nat) : Byte :=
  if e < 14 ∨ (16 ≤ e ∧ e < 80) then s.ownerEntry (ownerIdx e) else 0

def State.readFault (s : State) : W64 :=
  place s.ctl.incident.toNat 32 32 ||| place (maskOf (((allFin 4).filter fun f => s.fields[f].failed).map (·.val))) 28 4 |||
    place s.ctl.faultSource.toNat 8 8 ||| placeB s.ctl.halted 0

def State.readStw (s : State) (x : Nat) : W64 :=
  match x with
  | 0x100 => s.fuses.map
  | 0x200 => word s.timeNs
  | 0x280 => place s.power.capW.toNat 0 16
  | 0x288 => s.readPower
  | 0x300 => s.readBoot
  | 0x308 => place s.boot.infoSvn 56 8 ||| place s.boot.infoMinSvn 48 8 ||| place s.boot.infoLayout 40 8
  | 0x310 => s.boot.infoBuild
  | 0x380 => s.loader.readCtrl
  | 0x388 => s.loader.readStatus
  | 0x390 => s.loader.nonce
  | 0x398 => s.fuses.readKeys
  | 0x408 => s.ctl.readRefusal
  | 0x410 => s.ctl.refusalCount
  | 0x480 => place s.ctl.pfGen.toNat 0 32
  | 0x600 => s.readFault
  | _ =>
    match entryAt x 0x210 8 4, entryAt x 0x240 8 4, entryAt x 0x320 8 6, entryAt x 0x500 8 16, entryAt x 0x80000 8 65536 with
    | some f, _, _, _, _ => s.readField (fieldOf f)
    | _, some f, _, _, _ => if s.power.pwrEn then s.fields[fieldOf f].beats else 0
    | _, _, some n, _, _ => wideWord s.boot.infoMeasure n
    | _, _, _, some k, _ => byteWord ((List.range 8).map fun i => s.ownerByte (8 * k + i)) 0
    | _, _, _, _, some k => word (rdNat s.loader.window (8 * k) 8)
    | _, _, _, _, _ => 0

/-! ### PRT_ (03, 04, 05, 10, 11, 17) -/

/-- Does a run command run (04, PRT_RUN_CTRL.go)? -/
def PRun.going (r : PRun) : Bool :=
  r.quiescing.isSome || r.releasing || (match r.stopping with | some (_, c) => c | none => false)

def Partition.readRefusal (x : Partition) : W64 :=
  place x.run.refOffset.toNat 32 32 ||| place x.run.refOutcome.toNat 24 8 ||| place x.run.refMaster.toNat 16 8 |||
    place x.run.refCount 1 15 ||| placeB x.run.refStale 0

def PCq.readCtrl (q : PCq) : W64 :=
  place q.coalesceNs.toNat 32 16 ||| place q.coalesceCount.toNat 24 8 ||| place q.ringLog2.toNat 1 4 ||| placeB q.enable 0

/-- PRT_VIEW, PRT_VIEW_BASE and PRT_VIEW_CIS read zero until COMMIT. -/
def Partition.readView (x : Partition) (k : Nat) : W64 :=
  let i := x.im.img
  if !x.state.committed' then 0
  else
    match k with
    | 0 => place i.exclMask 32 12 ||| place i.wellMask 16 12 ||| place i.share2g 0 6
    | 1 => (allFin 12).foldl (fun a w => a ||| place i.base2g[w] (5 * w.val) 5) 0
    | _ => (allFin 4).foldl (fun a u => a ||| place i.cisA[u] (16 * u.val) 8 ||| place i.cisZ[u] (16 * u.val + 8) 8) 0

/-- The orphan registers (17): the record at the front, with its remaining map words. -/
def Partition.readOrphan (x : Partition) (k : Nat) : W64 :=
  match x.orphan.records with
  | [] => 0
  | (r, w) :: l =>
    match k with
    | 0 => place (l.length + 1) 32 32 ||| place w.length 0 32
    | 5 => w.headD 0
    | _ => byteWord (r.bytes false) (k - 1)

def Partition.readImgStatus (x : Partition) : W64 :=
  place x.im.reason.toNat 40 8 ||| place x.im.outcome.toNat 32 8 ||| place x.im.lastCmd.toNat 29 3 |||
    place x.im.fillPermille 12 10 ||| placeB x.im.busy.isSome 8 ||| place x.state.code 0 3

def State.readPrt (s : State) (p : PartId) (off : Nat) : W64 :=
  let x := s.parts[p]
  match off with
  | 0x000 => place x.run.cmd.toNat 1 3 ||| placeB x.run.going 0
  | 0x008 => place x.run.stopCause.toNat 40 8 ||| place x.run.outcome.toNat 32 8 ||| place x.run.lastCmd.toNat 29 3 |||
      place x.state.code 0 3
  | 0x010 => place x.run.drvGen.toNat 0 32
  | 0x018 => place x.run.quiesceLimit.toNat 0 32
  | 0x028 => x.readRefusal
  | 0x040 => place x.cq.base.toNat 12 52
  | 0x048 => x.cq.readCtrl
  | 0x050 => place x.cq.head 0 21
  | 0x058 => place x.cq.tail.toNat 0 21
  | 0x060 => place x.caps.takenSeq.toNat 32 32 ||| place x.caps.ignored 16 16 ||| place x.cq.held.length 0 13
  | 0x070 => place x.caps.bar2Base.toNat 0 49
  | 0x080 => place x.fmt.ovmode.toNat 12 2 ||| place x.fmt.cvtRound.toNat 10 2 ||| placeB x.fmt.sr 8 ||| place x.fmt.chunk.toNat 4 4
  | 0x090 => x.readView 0
  | 0x098 => x.readView 1
  | 0x0A0 => x.readView 2
  | 0x100 => place x.im.addr.toNat 12 52
  | 0x108 => place x.im.length.toNat 32 23 ||| place x.im.cmd.toNat 1 2 ||| placeB x.im.busy.isSome 0
  | 0x110 => x.readImgStatus
  | 0x118 => x.im.build
  | _ =>
    match entryAt off 0x0C0 8 6, entryAt off 0x120 8 6 with
    | some k, _ => x.readOrphan k
    | _, some n => wideWord x.im.measure n
    | _, _ => 0

/-! ### MTR_, LUL_ (02, 04) -/

def State.readMtr (s : State) (p : PartId) (x : Nat) : W64 :=
  let m := s.parts[p].meter
  match x with
  | 0x200 => place m.base.toNat 12 52
  | 0x208 => place m.periodMs.toNat 32 32 ||| place m.ringLog2.toNat 1 4 ||| placeB m.enable 0
  | 0x210 => place m.head 0 20
  | 0x218 => place m.tail.toNat 0 20
  | _ => match entryAt x 0x30 8 14 with | some k => word (m.counters.toList.getD k 0) | none => 0

/-- The device account (R107). -/
def State.readMtrDev (s : State) (x : Nat) : W64 :=
  match x with
  | 0x10038 => word s.devEnergy
  | 0x10090 => word (if s.boot.state == .ready then s.timeNs - s.readyAt else 0)
  | _ => 0

def State.readLul (s : State) (p : PartId) (x : Nat) : W64 :=
  let l := s.parts[p].lull
  let i := s.parts[p].im.img
  let on {n : Nat} (f : Fin n → Bool) : Nat := maskOf (((allFin n).filter f).map (·.val))
  match x with
  | 0x000 => place l.budget.toNat 0 32
  | 0x008 =>
    place (on fun w : WellId => i.wellMask.testBit w.val && s.wells[w].state == .selfRefresh) 36 12 |||
      place (on fun u : PumpId => i.cisZ[u] != 0 && s.pumps[u].idle) 32 4 |||
      place (on fun f : FieldId => (List.range 16).any (fun w => i.wardMask.testBit w && w / 4 == f.val) && s.fields[f].retained) 16 4 |||
      place (allowedDepth l.budget) 8 3 ||| place (s.effectiveDepth p) 4 3 ||| placeB (s.partIdle p) 0
  | _ => match entryAt x 0x10 8 4 with | some d => word (l.residency.toList.getD d 0) | none => 0

def State.readLulDev (s : State) (x : Nat) : W64 :=
  match x with
  | 0x10000 => placeB s.lull3Enable 0
  | 0x10008 => place (maskOf (((allFin 6).filter fun n => s.ports[n].parked).map (·.val))) 8 6 ||| placeB s.inLull3 0
  | _ => 0

/-! ### SEQ_, COR_, QTP_ (06, 07, 08, 10) -/

/-- Faults of the sequencer's partition after the first (R150). -/
def State.faultCount (s : State) (n : SeqId) : Nat :=
  match s.seqHolder n with | some p => s.parts[p].fault.count | none => 0

def State.readSeq (s : State) (n : SeqId) (x : Nat) : W64 :=
  let q := s.seqs[n]
  match x with
  | 0x000 => place q.pc 32 12 ||| place q.wardMask 16 16 ||| placeB q.region 3 ||| place q.state.code 0 3
  | 0x008 => place q.split 0 13
  | 0x010 => place q.issueCount 0 48
  | 0x040 => q.fault0
  | 0x048 => place q.fault1.toNat 16 48 ||| place (s.faultCount n) 0 16
  | 0x050 => q.fault2
  | 0x080 => place q.periodNs.toNat 32 32 ||| place q.entry.toNat 20 12 ||| placeB q.arm 0
  | 0x088 => place q.missed 32 32 ||| place q.tickLow.toNat 0 32
  | 0x090 => q.cadArg
  | 0x098 => q.cadTag
  | 0x100 => place q.peekIndex 0 12
  | _ => match entryAt x 0x140 8 8 with | some w => wideWord (Sparse.getD q.imem q.peekIndex 0) w | none => 0

/-- Occupancy of sixteen queue ends (06, COR_QOCC). -/
def Core.readOcc (c : Core) (k : Nat) : W64 :=
  (List.range 16).foldl (fun a j => a ||| place (c.occ (qOf (16 * k + j))) (4 * j) 4) 0

/-- Head tags of four queue ends (06, COR_QHEAD); 0x0080 for an empty one. -/
def Core.readHead (c : Core) (n : Nat) : W64 :=
  (List.range 4).foldl (fun a j =>
    a ||| place (match (c.queue (qOf (4 * n + j))).entries with | [] => 0x80 | e :: _ => e.tag.toNat) (16 * j) 16) 0

def State.readCor (s : State) (c : CoreId) (x : Nat) : W64 :=
  let q := s.cores[c]
  match x with
  | 0x000 => word q.beats
  | 0x008 => q.faultWord
  | 0x060 => place q.ring.head 48 16 ||| place q.ring.tail 32 16 ||| place q.ring.sizeLog2 28 4 ||| place q.ring.baseLine.toNat 0 14
  | 0x080 => place q.mx.seed.toNat 32 32 ||| place q.mx.cfg.ovmode.toNat 12 2 ||| placeB q.mx.cfg.sr 8 |||
      place q.mx.cfg.chunk.toNat 4 4 ||| place q.mx.cfg.accMode.toNat 0 2
  | 0x088 => place q.vx.zeroRange 48 16 ||| place q.vx.topkNan 32 16
  | 0x090 => q.mx.flags.read
  | 0x098 => q.vx.flags.read
  | _ =>
    match entryAt x 0x010 8 2, entryAt x 0x020 8 8, entryAt x 0x100 8 32 with
    | some k, _, _ => q.readOcc k
    | _, some n, _ => q.readHead n
    | _, _, some n => place q.sync[ctrOf n].fail.toNat 32 16 ||| place q.sync[ctrOf n].count.toNat 0 32
    | _, _, _ => 0

def State.readQtp (s : State) (x : Nat) : W64 :=
  (s.cores[coreOf (x / 0x100)].queue (qOf (x % 0x100 / 8))).topo

/-! ### MEM_, CIS_, PMP_ (11, 15, 17) -/

/-- MEM_REG or PMP_REG of a class: 0 to 15 a partition, 16 the device class. -/
def State.readReg (s : State) (u : MemUnit) (k : Nat) : W64 :=
  let waits := place ((s.mem u).waits.toList.getD k 0) 32 16
  if k = 16 then
    waits ||| (match u with | .well w => place s.image.wellWeight[w] 0 8 | .quarter q => place s.image.pumpWeight[q] 0 8)
  else
    let x := s.parts[partOf k]
    let i := x.im.img
    if !x.state.committed' then waits
    else match u with
      | .well w =>
        if i.wellMask.testBit w.val then
          waits ||| place i.share2g 24 6 ||| place i.base2g[w] 16 5 ||| place i.cap[w] 8 8 ||| place i.weight[w] 0 8
        else waits
      | .quarter q => waits ||| place i.cisZ[q] 24 8 ||| place i.cisA[q] 16 8 ||| place i.pumpWeight[q] 0 8

def UeEntry.read (e : UeEntry) : W64 :=
  placeB true 63 ||| place (sourceCode e.source) 60 3 ||| place e.partition 55 5 ||| place e.sector 6 32

def State.readMem (s : State) (u : MemUnit) (x : Nat) : W64 :=
  let m := s.mem u
  match x with
  | 0x000 => place m.tempC.toNat 32 8 ||| place m.rate 16 4 ||| placeB m.refresh2x 8 ||| place m.state.code 0 3
  | 0x008 => place m.ceCtrl 32 32 ||| place m.ceOnDie 16 16 ||| place m.ue 0 16
  | 0x010 => place m.remap.length 32 5 ||| place m.qtn.length 16 9 ||| placeB m.logWrapped 4 ||| place m.logHead 0 4
  | 0x0F0 => m.flags.read
  | 0x100 => place m.remapOutcome.toNat 40 8 ||| place m.remapSector.toNat 6 32 ||| place m.remapCmd.toNat 1 2
  | 0x110 => place m.flipB.toNat 54 10 ||| place m.flipA.toNat 44 10 ||| place m.flipSector.toNat 6 32 |||
      placeB m.flipFired 1 ||| placeB m.flipArm 0
  | 0x118 => place m.qtnOutcome.toNat 48 8 ||| place m.qtnPage.toNat 24 22 ||| place m.qtnCmd.toNat 1 2
  | 0x120 => place m.svcOutcome.toNat 48 8 ||| place m.svcCmd.toNat 1 2 ||| placeB m.svcRunning 0
  | _ =>
    match entryAt x 0x200 8 17, entryAt x 0x300 8 16, entryAt x 0x380 8 16, entryAt x 0x400 8 256 with
    | some k, _, _, _ => s.readReg u k
    | _, some i, _, _ => match m.remap[i]? with | some e => placeB true 63 ||| placeB e.2 62 ||| place e.1 6 32 | none => 0
    | _, _, some i, _ => match m.log.toList.getD i none with | some e => e.read | none => 0
    | _, _, _, some n => match m.qtn[n]? with | some g => placeB true 63 ||| place g 24 22 | none => 0
    | _, _, _, _ => 0

def State.readCis (s : State) (x : Nat) : W64 :=
  let sum (n : Nat) (f : MemCtl → Nat) : Nat := min ((1 <<< n) - 1) ((allFin 4).foldl (fun a u => a + f s.pumps[u].mem) 0)
  match x with
  | 0x000 => place s.cisRate.toNat 32 16 ||| place s.pkgOk.toNat 16 16 |||
      (allFin 4).foldl (fun a u => a ||| place s.pumps[u].mem.state.code (3 * u.val) 3) 0
  | 0x010 => byteWord (s.cisTemp.toList.take 8) 0
  | 0x018 => byteWord (s.cisTemp.toList.drop 8) 0
  | 0x020 => place (sum 32 (·.ceCtrl)) 32 32 ||| place (sum 16 (·.ue)) 0 16
  | _ => 0

def Mismatch.read (e : Mismatch) (w : Nat) : W64 :=
  if w = 0 then placeB true 63 ||| placeB e.torn 62 ||| place e.partition.val 44 4 ||| place e.group 32 12 ||| place e.carried.toNat 0 32
  else place e.stored.toNat 0 32

def State.readPmp (s : State) (u : PumpId) (x : Nat) : W64 :=
  let q := s.pumps[u]
  match x with
  | 0x1000 => place q.logHead 60 4 ||| place q.lastGroup 44 12 ||| place q.lastPart.val 40 4 ||| place q.lastBlock 8 32 |||
      placeB q.logWrapped 1 ||| placeB q.sweep.isSome 0
  | 0x1008 => placeB q.resetting 0
  | _ =>
    match entryAt x 0x1200 16 16 with
    | some i => match q.log.toList.getD i none with | some e => e.read (x % 16 / 8) | none => 0
    | none => if x < 0x1000 then s.readMem (.quarter u) x else 0

/-! ### ILN_, AXE_, SLC_ (12, 13, 14, 17) -/

def Port.readStatus (x : Port) : W64 :=
  place x.cause.toNat 40 8 ||| place x.laneMask.toNat 16 16 ||| place x.width 8 5 ||| placeB x.parked 5 ||| place x.state.code 0 2

def State.readPort (s : State) (n : PortId) (x : Nat) : W64 :=
  let q := s.ports[n]
  match x with
  | 0x000 => q.readStatus
  | 0x008 => place q.fecLost 48 16 ||| place q.hdrDrops 32 16 ||| place q.routeDrops 16 16 ||| place q.e2e 0 16
  | 0x010 => q.fecCorr
  | 0x018 => place q.nbrChip.toNat 16 15 ||| place q.nbrPort.toNat 0 3
  | 0x020 => placeB q.disable 1
  | 0x028 => placeB q.ready 1 ||| placeB q.admits 0
  | _ => 0

/-- Packets of the non-current epoch in this chip's buffers (R409). -/
def State.oldInFlight (s : State) : Nat :=
  min 0xFFFF ((allFin 6).foldl (fun a n =>
    a + ((s.ports[n].held.filter fun e => e.pkt.repoch != s.fabric.repoch).length +
      (s.ports[n].tc0Queue.filter fun k => k.repoch != s.fabric.repoch).length)) 0)

/-- Packets sent and not settled (12, ILN_E2E_STATUS). -/
def State.outstanding (s : State) : Nat := s.fabric.src.foldl (fun a e => a + e.2.out.length) 0

/-- A word of one of the two routing tables (R299). -/
def State.readRoute (s : State) (e : Bool) (x : Nat) : W64 :=
  byteWord ((List.range 8).map fun i => Sparse.getD (s.fabric.tables[if e then (1 : Fin 2) else 0]) (x / 8 * 8 + i) 0) 0

def State.readIln (s : State) (x : Nat) : W64 :=
  let f := s.fabric
  let d := s.image.fabric.dims
  match x with
  | 0x60000 => place s.chip.toNat 49 15 ||| placeB f.repoch 32 ||| place d[2] 16 8 ||| place d[1] 8 8 ||| place d[0] 0 8
  | 0x60008 => place (min 0xFFFF s.outstanding) 48 16 ||| place f.resends 24 24 ||| place f.failed 0 24
  | 0x60010 => place f.markSeq.toNat 32 32 ||| place s.oldInFlight 16 16 ||| placeB f.oldLocked 0
  | 0x60018 => place f.fenceEpoch.toNat 32 32 ||| place f.fenced.length 16 16 ||| placeB f.selfFenced 0
  | 0x60120 => f.fmTxDst
  | 0x60140 => f.fmInj0 &&& injMask f.fmInjType
  | 0x60148 => f.fmInj1
  | 0x60150 => placeB f.fmInjType 1
  | _ =>
    match entryAt x 0x60100 8 3, entryAt x 0x60200 8 3, entryAt x 0x61000 8 512 with
    | some k, _, _ => f.fmTx.toList.getD k 0
    | _, some k, _ => byteWord f.fmRx k
    | _, _, some k => word (maskOf ((List.range 64).filter fun b => has f.fenced (64 * k + b)))
    | _, _, _ =>
      if 0x70000 ≤ x ∧ x < 0x78000 then s.readRoute false (x - 0x70000)
      else if 0x78000 ≤ x ∧ x < 0x80000 then s.readRoute true (x - 0x78000) else 0

def State.readAxe (s : State) (a : AxisId) (x : Nat) : W64 :=
  let q := s.axes[a]
  match x with
  | 0x000 =>
    let run := (q.colls.filter fun c => c.phase == .data).length
    place s.image.fabric.roles[a] 40 2 ||| place (min 255 (q.waiting.length + (q.colls.length - run))) 24 8 |||
      place (min 255 run) 16 8 ||| placeB q.dead 0
  | 0x0F0 => q.flags.read
  | _ =>
    match entryAt x 0x100 8 16 with
    | some p =>
      let i := s.parts[partOf p]
      place q.records[partOf p] 32 32 ||| place q.failed[partOf p] 16 16 |||
        (if i.state.committed' then place i.im.img.axisWeight[a] 0 8 else 0)
    | none => 0

def State.readSlc (s : State) (n : SluiceId) (x : Nat) : W64 :=
  let q := s.sluices[n]
  let h := s.sluiceHolder n
  match x with
  | 0x000 => place q.progress.length 32 16 ||| placeB h.isSome 28 ||| place (match h with | some p => p.val | none => 0) 24 4 |||
      place q.layers.length 12 4 ||| place (min 15 q.waiting.length) 8 4 ||| placeB q.placed 1 ||| placeB q.dead 0
  | 0x080 => q.routesOut
  | 0x088 => q.admitted
  | 0x090 => q.refused
  | 0x098 => place q.earlyDrops 32 32 ||| place q.tableDrops 0 32
  | 0x0A0 => q.emptySlots
  | 0x0A8 => q.nonfinite
  | _ =>
    match entryAt x 0x040 8 4 with
    | some i =>
      (match q.layers[i]? with
        | some l => place l.layerId.toNat 32 32 ||| place l.phase 24 4 ||| place l.ends.length 16 8
        | none => 0)
    | none =>
      if 0x8000 ≤ x then
        place (peShown (Sparse.getD q.table ((x - 0x8000) / 4) 0)).toNat 0 32 |||
          place (peShown (Sparse.getD q.table ((x - 0x8000) / 4 + 1) 0)).toNat 32 32
      else 0

/-! ### STM_, BRM_, SND_, ALM_ (16, 18) -/

def Policy.read (y : Policy) : W64 :=
  place y.warmup 48 16 ||| place y.mQuarters 40 8 ||| place y.kDev 36 4 ||| place y.kMean 32 4 ||| place y.mismatchAction 20 4 |||
    place y.spikeAction 16 4 ||| place y.nfAction 12 4 ||| placeB y.enable 0

def HistEntry.read (e : HistEntry) : W64 :=
  place e.step.toNat 32 32 ||| placeB e.valid 7 ||| placeB e.isOpen 4 ||| placeB e.latched 3 ||| placeB e.mixed 2 |||
    placeB e.spike 1 ||| placeB e.nonfinite 0

/-- Closing cores whose CLOSE has not arrived (R374). -/
def Storm.closingLeft (x : Storm) : Nat :=
  match x.closing with
  | some l => (l.filter fun c => !x.closes.any fun e => e.1 == c).length
  | none => 0

def State.readStm (s : State) (p : PartId) (off : Nat) : W64 :=
  let x := s.parts[p].storm
  match off with
  | 0x000 => place x.curStep.toNat 32 32 ||| place x.histHead 28 4 ||| place x.latchCause 20 4 |||
      placeB s.parts[p].run.interlude 16 ||| place x.closingLeft 8 8 ||| placeB x.latched 2 ||| placeB x.mixed 1 |||
      placeB x.isOpen 0
  | 0x008 => place x.nonfinite 32 32 ||| place x.lossReports 16 16 ||| place x.mixedReports 0 16
  | 0x010 => place x.lossSum.toNat 32 32
  | 0x018 => place x.mean.toNat 32 32 ||| place x.dev.toNat 0 32
  | 0x020 => place x.folded.toNat 0 32
  | 0x028 => x.policy.read
  | _ =>
    match entryAt off 0x100 8 16, entryAt off 0x200 8 16 with
    | some i, _ => (x.hist.toList.getD i {}).read
    | _, some i => let e := x.prot.toList.getD (i / 2) (0, 0); if i % 2 = 0 then e.1 else e.2
    | _, _ => 0

def State.readBrm (s : State) (x : Nat) : W64 :=
  let b := s.baro
  match x with
  | 0x000 => place b.warnOn.toNat 48 16 ||| place b.warnOff.toNat 32 16 ||| place b.watchOn.toNat 16 16 ||| place b.watchOff.toNat 0 16
  | 0x008 => place b.advSeq.toNat 32 32 ||| place b.lastPart.toNat 8 8 ||| place b.lastState.toNat 0 2
  | _ =>
    match entryAt x 0x1000 0x40 26 with
    | some i =>
      let e := b.parts.toList.getD i {}
      (match x % 0x40 with
        | 0x00 => place e.score 48 16 ||| place e.sinceS 8 32 ||| placeB e.out 3 ||| placeB (e.evals < 60) 2 ||| place e.state.toNat 0 2
        | 0x08 => e.evidWord 0
        | 0x10 => e.evidWord 1
        | 0x18 => e.evidWord 2
        | _ => 0)
    | none => 0

def State.readSnd (s : State) (x : Nat) : W64 :=
  let n := s.snd
  match x with
  | 0x000 => place n.lane.toNat 32 8 ||| place n.target.toNat 24 8 ||| place n.kind.toNat 16 8 ||| placeB n.running 0
  | 0x008 => place n.outcome.toNat 48 8 ||| place n.lastKind.toNat 40 8 ||| place n.lastTarget.toNat 32 8
  | _ => match entryAt x 0x040 8 4 with | some i => n.results.toList.getD i 0 | none => 0

/-- The 64 bytes of an Almanac record (R428). -/
def AlmRecord.bytes (r : AlmRecord) : List Byte :=
  let b := leBytes r.powerCycles.toNat 4 ++ leBytes r.firstS.toNat 5 ++ leBytes r.lastS.toNat 5 ++ leBytes r.rep.toNat 2 ++
    leBytes r.code.toNat 2 ++ [r.unit, r.partition, r.severity] ++ leBytes 0 3 ++ leBytes r.incident.toNat 4 ++
    leBytes r.seq.toNat 4 ++ leBytes r.detail.toNat 28
  b ++ leBytes (crc32c b).toNat 4

/-- A slot of the Almanac; an erased slot reads all ones (R432). -/
def State.almSlotBytes (s : State) (i : Nat) : List Byte :=
  match Sparse.find s.almanac.slots i with | some r => r.bytes | none => List.replicate 64 0xFF

def State.readAlm (s : State) (x : Nat) : W64 :=
  match x with
  | 0x000 => place s.almanac.nextSeq.toNat 32 32 ||| place s.almanac.folds.toNat 0 32
  | 0x008 => place s.opSeconds.toNat 0 40
  | 0x010 => place s.almanac.cycles.toNat 0 32
  | _ => match entryAt x 0x10000 0x40 4096 with | some i => byteWord (s.almSlotBytes i) (x % 0x40 / 8) | none => 0

/-! ### The whole map -/

/-- The word at an offset that is a multiple of 8. -/
def State.regWord (s : State) (off : Nat) : W64 :=
  if !s.served off || s.absentWindow off then 0
  else
    match blockOf off with
    | .stw x => s.readStw x
    | .prt p x => s.readPrt p x
    | .mtr p x => s.readMtr p x
    | .mtrDev x => s.readMtrDev x
    | .lul p x => s.readLul p x
    | .lulDev x => s.readLulDev x
    | .seq n x => s.readSeq n x
    | .cor c x => s.readCor c x
    | .mem w x => s.readMem (.well w) x
    | .cis x => s.readCis x
    | .pmp u x => s.readPmp u x
    | .port n x => s.readPort n x
    | .iln x => s.readIln x
    | .axe a x => s.readAxe a x
    | .slc n x => s.readSlc n x
    | .stm p x => s.readStm p x
    | .brm x => s.readBrm x
    | .snd x => s.readSnd x
    | .alm x => s.readAlm x
    | .pci x => if x = 0 then place s.link.pfWinBase.toNat 0 49 else 0
    | .qtp x => s.readQtp x
    | .none => 0

/-- Eight bytes of control space from any offset. -/
def State.regBytes (s : State) (off : Nat) : List Byte :=
  ((leBytes (s.regWord (off / 8 * 8)).toNat 8 ++ leBytes (s.regWord (off / 8 * 8 + 8)).toNat 8).drop (off % 8)).take 8

end Sys2Proof.Machine
end

