-- ==== Sys2Proof/Machine/Arrival.lean ====
section
/-! DEFINITION. A control write that arrives at the steward's control arbiter (04 R94 to R100; 01 R29; 03 R65, R71), and the
replies to messages (05 R127; 12 R311). -/

namespace Sys2Proof.Machine

/-! ### Replies -/

/-- The recorded generation of a master (R100). -/
def State.genRecord (s : State) (m : Byte) : W32 := Sparse.getD s.ctl.recordedGen m.toNat 0

/-- The payload of a CONTROL_REPLY (R311). -/
def replyPayload (gen id : W32) (o : OutcomeCode) : List Byte :=
  leBytes gen.toNat 4 ++ leBytes id.toNat 4 ++ leBytes o.code 1 ++ leBytes 0 15

/-- A CONTROL_REPLY in ILN_FM_RX, with PF vector 4 (R125, R311). -/
def State.fmReceive (s : State) (payload : List Byte) : State :=
  ({ s with fabric := { s.fabric with fmRx := payload } }).msi .pf 4

/-- A CONTROL_REPLY sent to a gateway, which may be this chip. -/
def State.sendReply (s : State) (g : BitVec 15) (payload : List Byte) : State :=
  if g = s.chip then s.fmReceive payload else s.sendLoose (mkPacket g 0x0A 0 0 0 0 payload)

/-- The newest replies kept, for CONTROL packets that arrive again (R302; log 21). -/
def keptReplies : Nat := 512

/-- The answer to a message (R97, R127, R311). A message that is ignored for a stale generation is told the recorded
generation (R100), and a gateway always is. -/
def State.answer (s : State) (r : Option ReplyTo) (master : Byte) (o : OutcomeCode) (stale : Bool) : State :=
  match r with
  | none => s
  | some (.mctp h) =>
    { s with ctl := { s.ctl with replies := s.ctl.replies ++
        [{ head := if stale then { h with gen := s.genRecord master } else h, outcome := o }] } }
  | some (.gateway k id) =>
    match s.image.fabric.gateways[k]? with
    | some g =>
      let c : BitVec 15 := BitVec.ofNat 15 g
      let b := replyPayload (s.genRecord master) id o
      let s1 := s.updFabric fun f => { f with replied := ((c, id, b) :: f.replied).take keptReplies }
      s1.sendReply c b
    | none => s

/-! ### Generations (R99, R100) -/

/-- The generation a write carries: that recorded for the function, for a write over PCIe (R99). -/
def State.writeGen (s : State) (w : CtlWrite) : W32 :=
  if w.master = 0x04 then s.ctl.pfGen
  else match vfOf w.master with
    | some p => s.parts[p].run.drvGen
    | none => w.gen

/-- The record of a master raised. -/
def State.raiseGen (s : State) (m : Byte) (g : W32) : State :=
  if (s.genRecord m).toNat < g.toNat then
    { s with ctl := { s.ctl with recordedGen := Sparse.set 0 s.ctl.recordedGen m.toNat g } }
  else s

/-- A write ignored for a stale generation (R100), reported under R97. -/
def State.stale (s : State) (w : CtlWrite) (reply : Option ReplyTo) : State :=
  (s.report w.master w.offset .refusedState true (windowPart w.offset)).answer reply w.master .refusedState true

/-- The function whose generation a register sets: STW_PF_GEN or PRT_DRV_GEN (R99). -/
def genTarget (off : Nat) : Option Byte :=
  match blockOf off with
  | .stw x => if x = 0x480 then some 0x04 else none
  | .prt p x => if x = 0x010 then some (BitVec.ofNat 8 (0x10 + p.val)) else none
  | _ => none

/-- The generation of a function set, and its record raised; a value below the record is ignored and reported. -/
def State.setGen (s : State) (fn : Byte) (w : CtlWrite) (reply : Option ReplyTo) : State :=
  let g : W32 := w.value.setWidth 32
  if g.toNat < (s.genRecord fn).toNat then s.stale w reply
  else
    let s1 := s.raiseGen fn g
    let s2 := if fn = 0x04 then { s1 with ctl := { s1.ctl with pfGen := g } }
      else s1.updPart (partOf (fn.toNat - 0x10)) fun x => { x with run := { x.run with drvGen := g } }
    s2.answer reply w.master .done false

/-! ### Arrival -/

/-- Loader registers, which the PF and the board management controller reach before READY (R71). -/
def loaderOffset (off : Nat) : Bool :=
  decide (0x380 ≤ off ∧ off < 0x3A0) || decide (0x80000 ≤ off ∧ off < 0x100000)

/-- May a master write an offset (R96, R71)? -/
def State.mayWrite (s : State) (w : CtlWrite) : Bool :=
  w.master == s.owner w.offset ||
    (s.boot.state != .ready && loaderOffset w.offset && (w.master == 0x03 || w.master == 0x04))

/-- A discarded write to the window of an absent unit (R29). -/
def State.absentWrite (s : State) (off : Nat) : State :=
  s.event 0x0302 unitNone partNone sevInfo 0 (packDetail [(off, 8)])

/-- A control write whose generation holds: discarded, refused, handled at once, or kept for the end of its epoch
(R29, R65, R96, R99, R102). -/
def State.accepted (s : State) (w : CtlWrite) (reply : Option ReplyTo) : State :=
  if blockOf w.offset = .none || !s.served w.offset then s.answer reply w.master .done false
  else if !s.mayWrite w then
    (s.report w.master w.offset .refusedOwner false (windowPart w.offset)).answer reply w.master .refusedOwner false
  else if s.absentWindow w.offset then (s.absentWrite w.offset).answer reply w.master .done false
  else
    match genTarget w.offset with
    | some fn => s.setGen fn w reply
    | none =>
      let s1 := s.wakeAccess w.offset
      { s1 with ctl := { s1.ctl with writes := s1.ctl.writes ++ [{ w := w, epoch := s.epoch, reply := reply }] } }

/-- A control write that arrives: ignored for its generation, which otherwise raises the record, and then handled
(R100). A master without a path to the offset writes nothing (R94). -/
def State.writeArrives (s : State) (w : CtlWrite) (reply : Option ReplyTo) : State :=
  let g := s.writeGen w
  if !s.power.alwaysOn || !reaches w.master w.offset then s
  else if genTarget w.offset == some w.master then s.accepted w reply
  else if g.toNat < (s.genRecord w.master).toNat then s.stale w reply
  else (s.raiseGen w.master g).accepted { w with gen := g } reply

end Sys2Proof.Machine
end

