-- ==== Sys2Proof/Machine/FenceOps.lean ====
section
/-! DEFINITION. Fences, readmission, epoch marks and fabric manager messages (17 R402 to R409; 12 R311): what a chip takes,
passes on and applies. -/

namespace Sys2Proof.Machine

/-! ### Streams and items that involve a chip (R403) -/

/-- The items with an unsettled packet to a chip. -/
def State.itemsTo (s : State) (c : BitVec 15) : List ItemRef :=
  ((List.range 4).map fun tc =>
    let x := s.srcStream (c.toNat * 4 + tc)
    (x.out ++ x.queue).map (·.item)).flatten.eraseDups

/-- The stream state for a chip discarded, held packets with it. -/
def State.dropStreams (s : State) (c : BitVec 15) : State :=
  s.over (List.range 4) fun s tc =>
    let k := c.toNat * 4 + tc
    let b := (s.dstStream k).held.foldl (fun a e => a + e.2.payload.length + 40) 0
    s.updFabric fun f => { f with
      src := Sparse.del f.src k, dst := Sparse.del f.dst k, reorderBytes := f.reorderBytes - b }

/-- An item ended by a fence. Sluice layers and collectives end by their members. -/
def State.fenceItem (s : State) (inc : W32) (r : ItemRef) : State :=
  match r with
  | .xfer id => match s.xfer? id with | some x => s.endXfer { x with incident := inc } .failedFenced | none => s
  | .atomic a id => match s.axes[a].atomics.find? (fun x => x.id == id) with
    | some x => s.endAtomic a x .failedFenced inc
    | none => s
  | .coll a id => match s.coll? a id with | some c => s.endColl a c .failedFenced inc | none => s
  | .route n id _ | .layerEnd n id | .ret n id => s.closeLayer n id .failedFenced inc
  | .none => s

/-- Is a chip a member of a collective (R327)? -/
def State.collHas (s : State) (a : AxisId) (c : Coll) (chip : BitVec 15) : Bool :=
  (s.others a c).any fun m => s.collChip a c m == chip

/-- The collectives and layers of which a fenced chip is a member end (R327, R349). -/
def State.fenceMembers (s : State) (chip : BitVec 15) (inc : W32) : State :=
  let s1 := s.over (allFin 3) fun s a =>
    let w := s.axes[a].waiting.filter fun c => s.collHas a c chip
    let s' := (s.updAxis a fun x => { x with waiting := x.waiting.filter fun c => !s.collHas a c chip }).over w fun s c =>
      s.endColl a c .failedFenced inc
    s'.over (s'.axes[a].colls.filter fun c => s'.collHas a c chip) fun s c => s.endColl a c .failedFenced inc
  if s1.layerChips.contains chip then
    s1.over (allFin 4) fun s n =>
      let w := s.sluices[n].waiting
      let s' := (s.updSluice n fun x => { x with waiting := [] }).over w fun s l => s.endWaitingLayer l .failedFenced inc
      s'.over s'.sluices[n].layers fun s l => s.closeLayer n l.id .failedFenced inc
  else s1

/-- A fence of another chip applied (R403): one incident; its stream state and the items that involve it end. -/
def State.fenceOther (s : State) (c : BitVec 15) : State :=
  let s1 := s.incident 0x09 0 sevJob
  let inc := s1.ctl.incident
  let l := s1.itemsTo c
  let s2 := ((s1.over (s1.xfers.filter fun x => l.contains (.xfer x.id)) fun s x => s.poisonUnread x).updFabric fun f => { f with
    fenced := addTo f.fenced c.toNat, fencedAt := Sparse.put f.fencedAt c.toNat s.timeNs }).dropStreams c
  ((s2.over l fun s r => s.fenceItem inc r).fenceMembers c inc).sluicePass passRounds

/-! ### A fence of this chip (R404) -/

/-- Every outstanding item of a partition ended FAILED_FENCED. -/
def State.fencePart (s : State) (inc : W32) (p : PartId) : State :=
  let q := s.parts[p].caps.queue
  let s0 := (s.updPart p fun x => { x with caps := { x.caps with queue := [] } }).over q fun s c =>
    s.post p { tag := c.tag, step := c.step, outcome := .failedFenced, engine := kindEngine c.kind, partition := p, incident := inc }
      (bit c.flags 0)
  let s1 := s0.over (s0.programsOf p) fun s x => s.endProgram x .failedFenced 0 inc
  s1.over (s1.xfers.filter fun x => x.part == p) fun s x => s.endXfer { x with incident := inc } .failedFenced

/-- Every item of the axis engines and Sluices ended FAILED_FENCED. -/
def State.fenceEngines (s : State) (inc : W32) : State :=
  let s1 := s.over (allFin 3) fun s a =>
    let s' := s.over s.axes[a].atomics fun s x => s.endAtomic a x .failedFenced inc
    let w := s'.axes[a].waiting
    let s'' := (s'.updAxis a fun x => { x with waiting := [] }).over w fun s c => s.endColl a c .failedFenced inc
    s''.over s''.axes[a].colls fun s c => s.endColl a c .failedFenced inc
  let s2 := s1.over (allFin 4) fun s n =>
    let w := s.sluices[n].waiting
    let s' := (s.updSluice n fun x => { x with waiting := [] }).over w fun s l => s.endWaitingLayer l .failedFenced inc
    s'.over s'.sluices[n].layers fun s l => s.closeLayer n l.id .failedFenced inc
  s2.sluicePass passRounds

/-- A fence of this chip applied (R404, R368, R424). -/
def State.fenceSelf (s : State) : State :=
  let l := s.committedParts
  let s1 := s.incident 0x09 (maskOf (l.map (·.val))) sevJob
  let inc := s1.ctl.incident
  let s2 := (s1.over s1.xfers fun s x => s.poisonUnread x).updFabric fun f => { f with
    selfFenced := true, fencedAt := Sparse.put f.fencedAt s.chip.toNat s.timeNs, src := [], dst := [], reorderBytes := 0 }
  let s3 := ((s2.over l fun s p => s.fencePart inc p).fenceEngines inc).over (allFin 4) fun s u =>
    s.resetPumpItems u .failedFenced false inc
  let s4 := s3.over l fun s p =>
    (s.over s.parts[p].cmds fun s c => s.endWaiting p c true .failedFenced inc).stopPart p 0x03 false inc
  if s4.snd.runKind = 6 ∨ s4.snd.runKind = 7 then s4.endSounding .failedFenced else s4

/-- A taken fence applied at rank 1 of its control epoch (R402, R103). -/
def State.applyFence (s : State) (c : BitVec 15) : State := if c = s.chip then s.fenceSelf else s.fenceOther c

/-! ### Readmission (R405) -/

/-- READMIT takes effect. -/
def State.readmitNow (s : State) (c : BitVec 15) : State :=
  s.updFabric fun f =>
    let g := { f with readmits := f.readmits.filter fun e => e.1 != c, fencedAt := Sparse.del f.fencedAt c.toNat }
    if c = s.chip then { g with selfFenced := false } else { g with fenced := delFrom f.fenced c.toNat }

/-- Has a chip been fenced here for 2 ms? -/
def State.readmitDue (s : State) (c : BitVec 15) : Bool :=
  match Sparse.find s.fabric.fencedAt c.toNat with
  | some t => decide (t + 2000000 ≤ s.timeNs)
  | none => false

/-- A READMIT taken: held until 2 ms after the fence; without effect where no fence of the chip stands or waits. -/
def State.takeReadmit (s : State) (c : BitVec 15) (e : W32) : State :=
  if s.readmitDue c then s.readmitNow c
  else if (Sparse.find s.fabric.fencedAt c.toNat).isSome || s.ctl.fences.any (fun x => x.2 == c) then
    s.updFabric fun f => { f with readmits := (f.readmits.filter fun x => x.1 != c) ++ [(c, e)] }
  else s

/-! ### Taking FENCE and EPOCH_MARK packets (R402, R408) -/

/-- Is a chip a gateway (R311)? -/
def State.isGateway (s : State) (c : BitVec 15) : Bool := s.image.fabric.gateways.contains c.toNat

/-- A flooded packet passed on to the facing port; one that this gateway injects passes its regulator (R296). `n` is the
port it came in on. -/
def State.floodOn (s : State) (n : Option PortId) (k : Packet) (m : PortId) : State :=
  let k1 := { k with dst := s.neighbour m, detoured := false }
  if s.ports[m].state = .down then s
  else match n with
    | some i => s.toPort m 0 k1 (some (i, 0))
    | none => s.tc0 m 0 k1

/-- The source and generation rules of R402. -/
def State.manages (s : State) (src : BitVec 15) (gen : W32) : Bool :=
  s.isGateway src && decide ((s.genRecord 0x02).toNat ≤ gen.toNat)

/-- A FENCE packet (R402): taken, recorded, passed on and answered; else discarded. `n` is its arrival port. -/
def State.takeFence (s : State) (n : Option PortId) (k : Packet) : State :=
  let action := ldNat k.payload 0 1
  let c : BitVec 15 := BitVec.ofNat 15 (ldNat k.payload 2 2)
  let e : W32 := BitVec.ofNat 32 (ldNat k.payload 4 4)
  let gen : W32 := BitVec.ofNat 32 (ldNat k.payload 8 4)
  if s.manages k.src gen && decide (s.fabric.fenceEpoch.toNat < e.toNat) && (action == 1 || action == 2) then
    let s1 := (s.raiseGen 0x02 gen).updFabric fun f => { f with fenceEpoch := e }
    let s2 := if action = 1 then
        { s1 with
          ctl := { s1.ctl with fences := s1.ctl.fences ++ [(s1.epoch, c)] }
          fabric := { s1.fabric with readmits := s1.fabric.readmits.filter fun x => x.1 != c } }
      else s1.takeReadmit c e
    let s3 := s2.over ((allFin 6).filter fun m => some m != n) fun s m => s.floodOn n k m
    s3.sendReply k.src (replyPayload (s3.genRecord 0x02) e .done)
  else s

/-- A port admitted (R407, R416). -/
def State.admitPort (s : State) (n : PortId) : State :=
  ((s.updPort n fun x => { x with state := .admitted, ready := false }).baroOut (20 + n.val) false).sendHeartbeat n

/-- An EPOCH_MARK packet (R408). -/
def State.takeMark (s : State) (n : Option PortId) (k : Packet) : State :=
  let e := ldNat k.payload 0 1
  let q : W32 := BitVec.ofNat 32 (ldNat k.payload 4 4)
  let gen : W32 := BitVec.ofNat 32 (ldNat k.payload 8 4)
  if s.manages k.src gen && decide (s.fabric.markSeq.toNat < q.toNat) && decide (e < 2) then
    let s1 := (s.raiseGen 0x02 gen).updFabric fun f => { f with
      markSeq := q, repoch := e == 1, oldLocked := true, switchAt := some s.timeNs }
    let ready := (allFin 6).filter fun m =>
      s1.ports[m].state == .probation && s1.ports[m].ready && s1.ports[m].admits
    let s2 := s1.over ready fun s m => s.admitPort m
    s2.over ((allFin 6).filter fun m => s2.ports[m].state == .admitted) fun s m => s.floodOn n k m
  else s

/-! ### The gateway registers (R311; 17, Fences) -/

/-- The payload in ILN_FM_INJ0 and ILN_FM_INJ1. -/
def State.injPayload (s : State) (mark : Bool) : List Byte :=
  leBytes (s.fabric.fmInj0 &&& injMask mark).toNat 8 ++ leBytes s.fabric.fmInj1.toNat 8

/-- Control space offset of ILN_FM_INJ_CTRL. -/
def injOffset : Nat := 0x2360150

/-- An injection by a master: refused on a module that is no gateway; else the gateway takes it itself, and PF vector 4
tells that it has ended. -/
def State.fmInject (s : State) (mark : Bool) (master : Byte) : State :=
  if s.isGateway s.chip then
    let k := { mkPacket s.chip (if mark then 0x0C else 0x0B) 0 0 0 0 (s.injPayload mark) with src := s.chip }
    (if mark then s.takeMark none k else s.takeFence none k).msi .pf 4
  else s.report master injOffset .refusedState false none

/-- A CONTROL message that ends here (R311): a control write by master 0x02, or a discard that is counted. -/
def State.takeControl (s : State) (src : BitVec 15) (payload : List Byte) : State :=
  match s.image.fabric.gateways.findIdx? fun g => g == src.toNat with
  | some i =>
    s.writeArrives ⟨0x02, BitVec.ofNat 32 (ldNat payload 0 4), ldNat payload 8 8, BitVec.ofNat 64 (ldNat payload 16 8)⟩
      (some (.gateway i (BitVec.ofNat 32 (ldNat payload 4 4))))
  | none => { s with ctl := { s.ctl with refusalCount := s.ctl.refusalCount + 1 } }

/-- A CONTROL packet put into its stream (R291, R302); no partition is charged for it. -/
def State.injectControl (s : State) (dst : BitVec 15) (payload : List Byte) : State :=
  s.enqueue { pkt := mkPacket dst 0x09 0 0 0 0 payload, item := .none, firstAt := s.timeNs, nextAt := s.timeNs + 20000 }

/-- ILN_FM_TX sent to ILN_FM_TX_DST. A fenced chip injects no CONTROL packet (R404). -/
def State.fmSend (s : State) : State :=
  let dst : BitVec 15 := s.fabric.fmTxDst.setWidth 15
  let payload := (s.fabric.fmTx.toList.map fun w => leBytes w.toNat 8).flatten
  if dst = s.chip then s.takeControl s.chip payload
  else if s.fabric.selfFenced then s
  else s.injectControl dst payload

/-- A CONTROL_REPLY: it settles its CONTROL packet and stands in ILN_FM_RX (R291, R311). -/
def State.takeReply (s : State) (src : BitVec 15) (payload : List Byte) : State :=
  let key := streamKey src 0
  let id := ldNat payload 4 4
  let s1 := match (s.srcStream key).out.find? fun o => o.pkt.kind == 0x09 && ldNat o.pkt.payload 4 4 == id with
    | some o => s.settleOk key o
    | none => s
  s1.fmReceive payload

/-! ### The routing table (R299, R409) -/

/-- Control space offset of an entry of a routing table. -/
def routeOffset (epoch : Bool) (chip : Nat) : Nat := 0x2370000 + (if epoch then 0x8000 else 0) + chip

/-- Are writes to the non-current table refused (R409)? -/
def State.routeLocked (s : State) : Bool :=
  s.oldInFlight != 0 || (match s.fabric.switchAt with | some t => decide (s.timeNs < t + 1000000) | none => false)

/-- Entries of a table written by a master: the current table is read-only. -/
def State.routeWrite (s : State) (epoch : Bool) (l : List (Nat × Byte)) (master : Byte) : State :=
  if epoch = s.fabric.repoch then s
  else if s.routeLocked then
    s.report master (routeOffset epoch (l.headD (0, 0)).1) .refusedState false none
  else
    let put (t : Sparse Byte) : Sparse Byte := l.foldl (fun t e => Sparse.set 0#8 t e.1 (e.2 &&& 0x3F)) t
    s.updFabric fun f => { f with tables := updAt f.tables (if epoch then (1 : Fin 2) else 0) put }

end Sys2Proof.Machine
end

