-- ==== Sys2Proof/Machine/Loader.lean ====
section
/-! DEFINITION. The family of ROM loader and key commands (03 R60 to R62, R69 to R72). A command applies its
effect when it starts; LOADER_COMMAND_END publishes its outcome (03, STW_LOADER_STATUS; R125). -/

namespace Sys2Proof.Machine

/-- The bytes a command carries: the first chunk_len bytes of the loader window over PCIe, the message's data over MCTP
(R62, R70). -/
def State.loaderData' (s : State) (src : LoaderPort) (data : List Byte) : List Byte :=
  match src with
  | .pcie => rdL s.loader.window 0 s.loader.chunkLen.toNat
  | .mctp => data

/-- May a master run loader commands (R71)? Before READY, from the PF and from MCTP. -/
def State.loaderOwner (s : State) (master : Byte) : Bool :=
  if s.boot.state == .ready then master == s.owner 0x380 else master == 0x03 || master == 0x04

/-- A command started: what its end will report; every command starts the 10 s of R69 anew (log 16). -/
def State.loaderRun (s : State) (cmd : LoaderCmd) (o : OutcomeCode) (reason : Byte) : State :=
  { s with loader := { s.loader with run := some ⟨cmd, o, reason⟩, lastCmdNs := s.timeNs } }

/-- The checks every command starts with: nothing runs, and the master may (R71). -/
def State.loaderStart (s : State) (cmd : LoaderCmd) (master : Byte) (f : State → State) : State :=
  if s.loader.run.isSome || !s.power.alwaysOn then s
  else if s.loaderOwner master then f s
  else s.loaderRun cmd .refusedOwner 0

/-- The header that the open session carries. -/
def State.sessionHeader (s : State) : ImageHeader := parseHeader fun a => s.loader.header.getD a 0

/-- The image offset of the signature block that BEGIN carried. -/
def ImageHeader.sigAt (h : ImageHeader) : Nat := (h.sec 0x0F).offset

/-- BEGIN's check of the header and the signature block that follows it (R70, R59; data of a wrong length, log 16). -/
def State.beginReason (s : State) (d : List Byte) : Option Byte :=
  let r : ImgReader := fun a => d.getD a 0
  let h := parseHeader r
  if !h.wellFormed || d.length != h.size + 4096 then some 0x01
  else if !(parseSig r h.size).deviceOk h then some 0x04
  else if h.svn < s.fuses.minSvn then some 0x06
  else none

/-- The slot erased up to `n` bytes. -/
def eraseSlot (m : Memory) (n : Nat) : Memory := m.filter fun c => decide (n ≤ c.1)

/-- Bytes written into the slot, where an unlisted byte reads 0xFF. -/
def wrSlot (m : Memory) (a : Nat) : List Byte → Memory
  | [] => m
  | b :: bs => wrSlot (Sparse.set (α := Byte) 0xFF m a b) (a + 1) bs

/-- BEGIN (R69, R70). -/
def execLoaderBegin (src : LoaderPort) (master : Byte) (data : List Byte) (s : State) : Out :=
  .next <| s.loaderStart .begin_ master fun s =>
    match s.loader.session with
    | some o => if o = src then go s else s.loaderRun .begin_ .refusedState 0
    | none => go s
where
  go (s : State) : State :=
    let d := s.loaderData' src data
    match s.beginReason d with
    | some r => s.loaderRun .begin_ .refusedState r
    | none =>
      let h := parseHeader fun a => d.getD a 0
      let hdr := d.take h.size
      let slot := wrSlot (wrSlot (eraseSlot s.loader.slot h.length) 0 hdr) h.sigAt (d.drop h.size)
      ({ s with loader := { s.loader with
          session := some src, header := hdr, erased := true, slot := slot, slotValid := false,
          bytesWritten := h.size + 4096 } }).loaderRun .begin_ .done 0

/-- The image offset of the next DATA byte: bytes after the header in image order, without the signature block that
BEGIN carried (R70, log 16). -/
def State.dataOffset (s : State) : Nat :=
  let a := s.loader.bytesWritten - 4096
  if a < s.sessionHeader.sigAt then a else a + 4096

/-- DATA bytes written into the slot in image order, around the signature block. -/
def State.dataSlot (s : State) (d : List Byte) : Memory :=
  let a := s.dataOffset
  let k := s.sessionHeader.sigAt - a
  wrSlot (wrSlot s.loader.slot a (d.take (if a < s.sessionHeader.sigAt then k else d.length)))
    (s.sessionHeader.sigAt + 4096) (d.drop (if a < s.sessionHeader.sigAt then k else d.length))

/-- Sections that the bytes up to `b` complete and those up to `a` did not, with a digest that does not match. -/
def State.badDigest (s : State) (a b : Nat) : Bool :=
  s.sessionHeader.dir.any fun e =>
    e.type != 0x0F && decide (a < e.offset + e.length ∧ e.offset + e.length ≤ b) && !digestOk s.slotReader e

/-- LOADER_DATA (R70; outside the image, log 16). -/
def execLoaderData (src : LoaderPort) (master : Byte) (data : List Byte) (s : State) : Out :=
  .next <| s.loaderStart .data master fun s =>
    if s.loader.session == some src then
      let d := s.loaderData' src data
      let a := s.dataOffset
      if s.sessionHeader.length < s.loader.bytesWritten + d.length then s.loaderRun .data .refusedState 0
      else
        let s1 := { s with loader := { s.loader with
          slot := s.dataSlot d, bytesWritten := s.loader.bytesWritten + d.length } }
        let sig := s1.sessionHeader.sigAt
        let b := if a < sig ∧ sig < a + d.length then a + d.length + 4096 else a + d.length
        if s1.badDigest a b then s1.loaderRun .data .refusedState 0x03 else s1.loaderRun .data .done 0
    else s.loaderRun .data .refusedState 0

/-- LOADER_END (R70, R63, R68; too early, log 16): the valid mark is written. -/
def execLoaderEnd (src : LoaderPort) (master : Byte) (s : State) : Out :=
  .next <| s.loaderStart .end_ master fun s =>
    if s.loader.session == some src then
      let h := s.sessionHeader
      if s.loader.bytesWritten != h.length then s.loaderRun .end_ .refusedState 0
      else if h.dir.all (digestOk s.slotReader) then
        ({ s with loader := { s.loader with
            session := none, erased := false, slotValid := true, header := [], bytesWritten := 0,
            endedSinceStraps := true, endedSinceBare := true } }).loaderRun .end_ .done 0
      else s.loaderRun .end_ .refusedState 0x03
    else s.loaderRun .end_ .refusedState 0

/-- An open session closed (R69, R72): a slot that was erased stays without its valid mark. -/
def State.closeSession (s : State) : State :=
  { s with loader := { s.loader with session := none, header := [], erased := false, bytesWritten := 0 } }

/-- LOADER_ABORT (R69). -/
def execLoaderAbort (src : LoaderPort) (master : Byte) (s : State) : Out :=
  .next <| s.loaderStart .abort master fun s =>
    if s.loader.session == some src then s.closeSession.loaderRun .abort .done 0 else s.loaderRun .abort .refusedState 0

/-- LOADER_SESSION_TIMEOUT (R69): no command runs, and none has ended within 10 s. -/
def execLoaderSessionTimeout (atNs : Nat) (s : State) : Out :=
  .next <|
    let s1 := s.advanceTo atNs
    if s1.loader.session.isSome && s1.loader.run.isNone && decide (s1.loader.lastCmdNs + 10000000000 ≤ s1.timeNs) then s1.closeSession else s1

/-- LOADER_COMMAND_END: go clears, the outcome is published and PF vector 2 is raised. -/
def execLoaderCommandEnd (s : State) : Out :=
  .next <|
    match s.loader.run with
    | none => s
    | some r =>
      ({ s with loader := { s.loader with
          run := none, lastCmdNs := s.timeNs, outcome := BitVec.ofNat 8 r.outcome.code,
          rejectReason := if r.outcome = OutcomeCode.done then s.loader.rejectReason else r.reason } }).msi .pf 2

/-- SVN_COMMIT (R60): the fused minimum rises to the svn of the running image, and never falls. -/
def execSvnCommit (_src : LoaderPort) (master : Byte) (s : State) : Out :=
  .next <| s.loaderStart .svnCommit master fun s =>
    if s.boot.state == .ready then
      let n := max s.fuses.minSvn s.image.svn
      ({ s with fuses := { s.fuses with minSvn := n }, boot := { s.boot with infoMinSvn := n } }).loaderRun .svnCommit .done 0
    else s.loaderRun .svnCommit .refusedState 0

/-! ### Owner keys (R61, R62) -/

/-- Is any slot enrolled? -/
def Fuses.anyEnrolled (f : Fuses) : Bool := f.keys.any fun k => k.state == .enrolled

/-- The checks of R62 in order: the reason of the first that fails. `cmd` is 1 ENROLL or 2 REVOKE.
Fields that R62 gives no check, ENROLL's slot byte among them, as log 16 says. -/
def State.keyReason (s : State) (cmd : Nat) (d : List Byte) : Option Byte :=
  let signer := ldNat d 2 1
  let unsigned := signer == 0xFF
  let key := slice d 0x78 97
  if d.length != 0x140 || ldNat d 0 1 != cmd || (cmd == 1 && ldNat d 1 1 != 0) || ldNat d 3 5 != 0 ||
      ldNat d 0x71 7 != 0 || ldNat d 0xD9 7 != 0 then some 0x08
  else if ldNat d 8 8 != s.loader.nonce.toNat then some 0x04
  else if unsigned then (if s.fuses.anyEnrolled || cmd != 1 then some 0x05 else none)
  else if h : signer < 4 then
    if s.fuses.keys[signer].state != .enrolled || s.fuses.keys[signer].hash != Config.sha384 key then some 0x05
    else if Config.ecdsaVerify key (slice d 0 0xE0) (slice d 0xE0 96) then none else some 0x04
  else some 0x05

/-- STW_LOADER_NONCE replaced by a fresh value (R62, log 7). -/
def State.freshNonce (s : State) : State :=
  let (v, s1) := s.fresh
  { s1 with loader := { s1.loader with nonce := v } }

/-- A slot's state after ENROLL in the lowest empty slot: none where no slot is empty (R61). -/
def Fuses.enroll (f : Fuses) (hash : BitVec 384) : Option Fuses :=
  match (allFin 4).find? fun k => f.keys[k].state == .empty with
  | some k => some { f with keys := f.keys.set k ⟨.enrolled, hash⟩ }
  | none => none

/-- A slot marked revoked: none where that would leave no slot enrolled and none empty (R61). -/
def Fuses.revoke (f : Fuses) (k : Fin 4) : Option Fuses :=
  let f' := { f with keys := updAt f.keys k fun x => { x with state := .revoked } }
  if f'.anyEnrolled || f'.keys.any (fun x => x.state == .empty) then some f' else none

/-- ENROLL (R61, R62). -/
def execEnroll (src : LoaderPort) (master : Byte) (data : List Byte) (s : State) : Out :=
  .next <|
    if s.loader.run.isSome || !s.power.alwaysOn then s
    else State.freshNonce <| s.loaderStart .enroll master fun s =>
      let d := s.loaderData' src data
      if s.boot.state != .ready then s.loaderRun .enroll .refusedState 0
      else
        match s.keyReason 1 d with
        | some r => s.loaderRun .enroll .refusedState r
        | none =>
          match s.fuses.enroll (Config.sha384 (slice d 0x10 97)) with
          | some f => ({ s with fuses := f }).loaderRun .enroll .done 0
          | none => s.loaderRun .enroll .refusedState 0

/-- REVOKE (R61, R62; a slot above 3, log 16). -/
def execRevoke (src : LoaderPort) (master : Byte) (data : List Byte) (s : State) : Out :=
  .next <|
    if s.loader.run.isSome || !s.power.alwaysOn then s
    else State.freshNonce <| s.loaderStart .revoke master fun s =>
      let d := s.loaderData' src data
      let slot := ldNat d 1 1
      if s.boot.state != .ready then s.loaderRun .revoke .refusedState 0
      else
        match s.keyReason 2 d with
        | some r => s.loaderRun .revoke .refusedState r
        | none =>
          if h : slot < 4 then
            match s.fuses.revoke ⟨slot, h⟩ with
            | some f => ({ s with fuses := f }).loaderRun .revoke .done 0
            | none => s.loaderRun .revoke .refusedState 0
          else s.loaderRun .revoke .refusedState 0x08

end Sys2Proof.Machine
end

