-- ==== Sys2Proof/Machine/Pump.lean ====
section
/-! DEFINITION. The family of parameter update commands (15 R352 to R372): GROUP_TABLE, PUMP, sweeps and the Pump
reset. A capsule of a kind with an op outside its table is completed by the first command of its kind. -/

namespace Sys2Proof.Machine

/-! ### GROUP_TABLE (R357, R358) -/

def groupOpOf (c : Capsule) : Nat := c.field 0 1

/-- Does a body match the table of R357? -/
def groupBodyOk (c : Capsule) : Bool :=
  let op := groupOpOf c
  let first := c.field 2 2
  let count := c.field 4 2
  c.body.length == 64 && c.noParams && c.target == 0xFF && decide (1 ≤ op ∧ op ≤ 5) && c.field 1 1 == 0 &&
    zeroBytes c.body 6 2 && decide (1 ≤ count ∧ first + count ≤ 4096) &&
    (if op = 1 ∨ op = 2 then c.field 8 8 % 64 == 0 else c.field 8 8 == 0) && (op == 5 || c.field 0x10 4 == 0) &&
    zeroBytes c.body 0x14 44

/-- The source entries of a WRITE, each with its poison. -/
def State.groupSource (s : State) (p : PartId) (off : Nat) : Nat → List (List Byte × Bool) × State
  | 0 => ([], s)
  | n + 1 =>
    let (x, s1) := s.readView p off 2
    let (l, s2) := State.groupSource s1 p (off + 128) n
    (x :: l, s2)

/-- Valid groups that name a Pump once the entries of a WRITE stand. -/
def State.groupsOn (s : State) (p : PartId) (first : Nat) (new : List Group) (u : Nat) : Nat :=
  (s.parts[p].groups.filter fun e => e.2.valid && e.2.pump == u && !decide (first ≤ e.1 ∧ e.1 < first + new.length)).length +
    (new.filter fun g => g.valid && g.pump == u).length

/-- The code of the first condition of R358 that refuses a group; 0 for none. `src` is its entry in a WRITE. -/
def State.groupRefusal (s : State) (p : PartId) (op first g : Nat) (src : List Byte) (new : List Group) : Nat :=
  let e := s.group p g
  if op = 5 then (if !e.torn then 3 else if e.busy then 1 else 0)
  else if e.busy then 1
  else if e.torn then 2
  else if op = 1 then
    let n := Group.parse src
    if !deviceZero src || (n.valid && !s.groupValid p src) then 4
    else if n.valid && decide (s.parts[p].im.img.groupCount[pumpOf n.pump] < s.groupsOn p first new n.pump) then 5
    else 0
  else 0

/-- The change an op makes to one group. -/
def groupChange (op : Nat) (step : W32) (src : List Byte) (e : Group) : Group :=
  match op with
  | 1 => let n := Group.parse src; if n.valid then n else {}
  | 3 => { e with frozen := true }
  | 4 => { e with frozen := false }
  | 5 => { e with step := step, torn := false, mixed := false, sweepMark := 0, tornStep := 0 }
  | _ => e

/-- A GROUP_TABLE op that passed the checks of R10 (R358). -/
def State.groupRun (s : State) (p : PartId) (c : Capsule) : State :=
  let op := groupOpOf c
  let first := c.field 2 2
  let n := c.field 4 2
  let buf := c.field 8 8
  if op = 2 then
    let data := (List.range n).flatMap fun i => (s.group p (first + i)).bytes
    ((s.writeView p buf data false (2 * n)).meterMove p buf (128 * n) true).capDone p c 0x08 .done (n <<< 32)
  else
    let (src, s1) := if op = 1 then
        let (l, s0) := s.groupSource p buf n
        (l, s0.meterMove p buf (128 * n) false)
      else (List.replicate n ([], false), s)
    match (List.range n).find? fun i => (src.getD i ([], false)).2 with
    | some i => s1.capDone p c 0x08 .failedPoison (first + i)
    | none =>
      let at_ (i : Nat) : List Byte := (src.getD i ([], false)).1
      let new := if op = 1 then (List.range n).map fun i => Group.parse (at_ i) else []
      let codes := (List.range n).map fun i => (first + i, s1.groupRefusal p op first (first + i) (at_ i) new)
      match codes.find? fun e => e.2 != 0 with
      | some (g, k) => s1.capDone p c 0x08 .refusedState ((k <<< 16) + g)
      | none =>
        let s2 := s1.over (List.range n) fun s i =>
          s.updGroup p (first + i) (groupChange op (BitVec.ofNat 32 (c.field 0x10 4)) (at_ i))
        s2.capDone p c 0x08 .done (n <<< 32)

/-- A GROUP_TABLE capsule (R120, R10, R87). -/
def State.groupCapsule (s : State) (p : PartId) (c : Capsule) : State :=
  if !groupBodyOk c then s.capBad p c 4
  else
    let op := groupOpOf c
    match (if op = 1 ∨ op = 2 then s.viewCheck p (c.field 8 8) (128 * c.field 4 2) else none) with
    | some o => s.capDone p c 0x08 o 0
    | none =>
      if !kindRuns (s.capState p) kGroup (op == 2) then s.capDone p c 0x08 .refusedState 0 else s.groupRun p c

/-- GROUP_TABLE_WRITE (R358). -/
def execGroupTableWrite (p : PartId) (s : State) : Out :=
  .next (s.withCapsule p kGroup (fun c => !(2 ≤ groupOpOf c && groupOpOf c ≤ 5)) fun s c => s.groupCapsule p c)

/-- GROUP_TABLE_READ (R358). -/
def execGroupTableRead (p : PartId) (s : State) : Out :=
  .next (s.withCapsule p kGroup (fun c => groupOpOf c == 2) fun s c => s.groupCapsule p c)

/-- FREEZE (R358). -/
def execFreeze (p : PartId) (s : State) : Out :=
  .next (s.withCapsule p kGroup (fun c => groupOpOf c == 3) fun s c => s.groupCapsule p c)

/-- THAW (R358). -/
def execThaw (p : PartId) (s : State) : Out :=
  .next (s.withCapsule p kGroup (fun c => groupOpOf c == 4) fun s c => s.groupCapsule p c)

/-- CLEAR_TORN (R358, R369). -/
def execClearTorn (p : PartId) (s : State) : Out :=
  .next (s.withCapsule p kGroup (fun c => groupOpOf c == 5) fun s c => s.groupCapsule p c)

/-! ### PUMP capsules (R359, R360) -/

/-- Is a core named by a body a present core of the partition, or 0xFF, and its counter at most 31? -/
def State.namedOk (s : State) (p : PartId) (core ctr : Nat) : Bool :=
  decide (ctr ≤ 31) &&
    (core == 0xFF || (decide (core < 192) && s.corePresent core && s.parts[p].im.img.wardMask.testBit (core / 12)))

/-- Do the lines of a CLAIM lie, aligned, in the core memory of one core of the partition (R359)? -/
def State.claimRangeOk (s : State) (p : PartId) (off len : Nat) : Bool :=
  off % 256 == 0 && decide (coreBase ≤ off ∧ off < coreEnd) && (s.viewCheck p off len).isNone

/-- Does a body match the table of R359? -/
def State.pumpBodyOk (s : State) (p : PartId) (c : Capsule) : Bool :=
  let op := c.field 0 1
  c.body.length == 64 && c.noParams && c.target == 0xFF && decide (1 ≤ op ∧ op ≤ 3) &&
    decide (c.field 1 1 ≤ if op = 1 then 1 else 0) && decide (1 ≤ c.field 4 2 ∧ c.field 2 2 + c.field 4 2 ≤ 4096) &&
    zeroBytes c.body 6 2 && (op == 3 || !isNan32 (c.field 8 4)) && zeroBytes c.body 0x0C 4 && c.field 0x10 8 % 64 == 0 &&
    (if op = 2 then s.claimRangeOk p (c.field 0x18 8) (512 * c.field 4 2) else c.field 0x18 8 == 0) && zeroBytes c.body 0x22 2 &&
    zeroBytes c.body 0x2A 2 && zeroBytes c.body 0x30 16 && c.step != 0 && s.namedOk p (c.field 0x20 1) (c.field 0x21 1) &&
    s.namedOk p (c.field 0x28 1) (c.field 0x29 1)

/-- Is the counter of a trigger at its value, or is there none? -/
def State.triggered (s : State) (core ctr : Nat) (v : W32) : Bool :=
  core == 0xFF || decide (v.toNat ≤ s.cores[coreOf core].sync[ctrOf ctr].count.toNat)

/-- A PUMP capsule (R120, R10, R87, R359). -/
def State.pumpCapsule (s : State) (p : PartId) (op : PumpOp) (c : Capsule) : State :=
  let fail (o : OutcomeCode) : State := s.capDoneBy p c 0x08 o 0 (c.field 0x28 1) (c.field 0x29 1)
  if !s.pumpBodyOk p c then s.capBad p c 4
  else
    let n := c.field 4 2
    let clear := c.field 0x18 8
    match s.viewCheck p (c.field 0x10 8) (32 * n) with
    | some o => fail o
    | none =>
      if !kindRuns (s.capState p) kPump false then fail .refusedState
      else
        let (id, s1) := s.newItem
        let limit := c.field 0x2C 4
        let cmd : PumpCmd :=
          { id := id, op := op, resume := c.field 1 1 == 1, tag := c.tag, t := c.step, first := c.field 2 2, count := n,
            gScale := BitVec.ofNat 32 (c.field 8 4), recOff := BitVec.ofNat 64 (c.field 0x10 8),
            clearOff := BitVec.ofNat 64 clear, trigCore := c.field 0x20 1, trigCtr := c.field 0x21 1,
            trigVal := BitVec.ofNat 32 (c.field 0x24 4), doneCore := c.field 0x28 1, doneCtr := c.field 0x29 1,
            limitAt := c.takenAt + 1000 * (if limit = 0 then 100000 else limit),
            stages := List.replicate n .untriggered, raiseV0 := c.v0 }
        let s2 := s1.updPart p fun x => { x with cmds := x.cmds ++ [cmd] }
        if s2.parts[p].storm.latched && op != .settle && !s2.triggered cmd.trigCore cmd.trigCtr cmd.trigVal then
          s2.endWaiting p cmd true .gated 0
        else s2

/-- UPDATE (R359). -/
def execUpdate (p : PartId) (s : State) : Out :=
  .next (s.withCapsule p kPump (fun c => c.field 0 1 != 2 && c.field 0 1 != 3) fun s c => s.pumpCapsule p .update c)

/-- CLAIM (R370). -/
def execClaim (p : PartId) (s : State) : Out :=
  .next (s.withCapsule p kPump (fun c => c.field 0 1 == 2) fun s c => s.pumpCapsule p .claim c)

/-- SETTLE (R371). -/
def execSettle (p : PartId) (s : State) : Out :=
  .next (s.withCapsule p kPump (fun c => c.field 0 1 == 3) fun s c => s.pumpCapsule p .settle c)

/-- PUMP_TRIGGER (R364): the trigger of a command fires. -/
def execPumpTrigger (p : PartId) (cmd : Nat) (s : State) : Out :=
  .next <|
    match s.pumpCmd? p cmd with
    | some c => if !c.fired && s.triggered c.trigCore c.trigCtr c.trigVal then s.fireCmd p cmd else s
    | none => s

/-- May the sweep of a waiting group begin: an open verdict bound, and no interlude (R363, R386)? -/
def State.sweepReady (s : State) (e : PartId × Nat × Nat) : Bool :=
  !s.parts[e.1].run.interlude &&
    match s.pumpCmd? e.1 e.2.2 with
    | some c => c.bound == some true
    | none => false

/-- SWEEP_START (R363, R364): the first group in trigger order whose sweep may begin. -/
def execSweepStart (u : PumpId) (s : State) : Out :=
  .next <|
    let x := s.pumps[u]
    if x.sweep.isSome || x.resetting || x.mem.gone then s
    else
      match x.order.find? fun e => s.sweepReady e with
      | none => s
      | some (p, g, id) =>
        match s.pumpCmd? p id with
        | none => s
        | some c =>
          match s.evalRow p g c.t c.gScale with
          | (.error (o, code), s1) =>
            (((s1.unorder p g).unbusy p g)).endGroup p id (g - c.first) o code 0 none 0
          | (.ok (row, f), s1) =>
            let w : Sweep :=
              { part := p, group := g, cmd := id, t := c.t, row := row, flags := f,
                block := if c.resume then (s1.group p g).sweepMark.toNat else 0 }
            ((s1.unorder p g).updPump u fun y => { y with sweep := some w }).updCmd p id fun c =>
              { c with stages := c.stages.set (g - c.first) .sweep }

/-- SWEEP_BLOCK_DONE (R365, R367). -/
def execSweepBlockDone (u : PumpId) (s : State) : Out :=
  .next <|
    match s.pumps[u].sweep with
    | some w => s.sweepBlock u w
    | none => s

/-- PUMP_LIMIT_EXPIRY (R363). -/
def execPumpLimitExpiry (p : PartId) (cmd : Nat) (atNs : Nat) (s : State) : Out :=
  .next <|
    let s1 := s.advanceTo atNs
    match s1.pumpCmd? p cmd with
    | some c => if c.limitAt ≤ s1.timeNs then s1.endWaiting p c true .failedTimeout 0 else s1
    | none => s1

/-- The effect of a reset written to PMP_UPD_CTRL (R368, R372): the quarter goes to self-refresh, and every item of
the Pump ends ABORTED_RESET. -/
def State.pumpReset (s : State) (u : PumpId) : State :=
  if s.pumps[u].resetting then s
  else (s.resetPumpItems u .abortedReset false 0).updPump u fun x => { x with
    resetting := true
    order := []
    mem := { x.mem with state := if x.mem.state = .active then .selfRefresh else x.mem.state } }

def execPumpReset (u : PumpId) (s : State) : Out := .next (s.atReg (0x2201008 + u.val * 0x10000) (·.pumpReset u))

/-- PUMP_RESET_COMPLETE (R368): the Pump is ready. -/
def execPumpResetComplete (u : PumpId) (s : State) : Out :=
  .next <|
    if s.pumps[u].resetting then
      s.updPump u fun x => { x with
        resetting := false
        idle := false
        mem := { x.mem with state := if x.mem.state = .selfRefresh then .active else x.mem.state } }
    else s

end Sys2Proof.Machine
end

