-- ==== Sys2Proof/Machine/RunControl.lean ====
section
/-! DEFINITION. The family of partition commands (03 R73 to R78, 04 R86 to R91): staging, commit, run control,
and usage records. Each meaning is the application of the command; ownership and generation are checked where a
write arrives (Control.lean). -/

namespace Sys2Proof.Machine

/-- A run command ended (04, PRT_RUN_STATUS). -/
def State.runDone (s : State) (p : PartId) (cmd : BitVec 3) (o : OutcomeCode) : State :=
  s.updPart p fun x => { x with run := { x.run with lastCmd := cmd, outcome := BitVec.ofNat 8 o.code } }

/-- A run command has no place while a stop is pending or a RELEASE waits (R89, R109). -/
def Partition.runBusy (x : Partition) : Bool := x.run.stopping.isSome || x.run.releasing

/-- An image command ended (03, PRT_IMG_STATUS), with VF vector 3 (R125). -/
def State.imgDone (s : State) (p : PartId) (cmd : BitVec 2) (o : OutcomeCode) (reason : Byte) : State :=
  (s.updPart p fun x => { x with im := { x.im with
    busy := none, lastCmd := cmd.setWidth 3, outcome := BitVec.ofNat 8 o.code, reason := reason } }).msi (.vf p) 3

/-- A command written while another runs (R73): reported under R97. -/
def State.imgBusyWrite (s : State) (p : PartId) : State :=
  s.report (s.owner (prtOffset p 0x108)) (prtOffset p 0x108) .refusedState false (some p)

/-- The image bytes fetched by DMA from a bus address (R73). -/
def State.dma (s : State) (addr len : Nat) : Memory :=
  (s.host.filter fun c => decide (addr ≤ c.1 ∧ c.1 < addr + len)).map fun c => (c.1 - addr, c.2)

/-- The effect of STAGE (R73). -/
def State.stage (s : State) (p : PartId) : State :=
  let x := s.parts[p]
  if x.im.busy.isSome then s.imgBusyWrite p
  else if (x.state != .empty && x.state != .stopped) || x.runBusy || (x.state == .stopped && s.usageFull p) then
    s.imgDone p 1 .refusedState 0
  else
    let s1 := if x.state == .stopped then (((s.refuseQueued p).usage p 3).freePart p true).setPart p .empty else s
    s1.updPart p fun y => { y with im := { y.im with
      busy := some 1, lastCmd := 1, outcome := 0, reason := 0,
      readAt := s.timeNs, bytes := s.dma (y.im.addr.toNat * 4096) (min y.im.length.toNat 0x400000) } }

/-- STAGE (R65): a command that the window takes. -/
def execStage (p : PartId) (s : State) : Out := .next (s.atReg (prtOffset p 0x108) (·.stage p))

/-- STAGE_CHECKS (R74): the staged image is checked in order; the partition is STAGED, or ends EMPTY. -/
def execStageChecks (p : PartId) (s : State) : Out :=
  .next <|
    let x := s.parts[p]
    if x.im.busy == some 1 then
      match s.checkPartImage p with
      | .error (o, reason) =>
        (s.updPart p fun y => { y with im := { y.im with bytes := [] } }).imgDone p 1 o reason
      | .ok (im : PartImage) =>
        let s1 := s.updPart p fun y => { y with im := { y.im with
          img := im, build := im.buildId, measure := im.measure, bytes := [], fillPermille := 0 } }
        (s1.imgDone p 1 .done 0).setPart p .staged
    else s

/-- The first check of R75 that fails, if any. -/
def State.commitReason (s : State) (p : PartId) : Option Byte :=
  let i := s.parts[p].im.img
  if !s.parts[p].orphan.records.isEmpty then some 0x0E
  else if s.outOfService i then some 0x0D
  else if s.conflicts p i then some 0x0B
  else none

/-- The effect of COMMIT (R75): resources claimed, sections applied, the fill started. -/
def State.commit (s : State) (p : PartId) : State :=
  let x := s.parts[p]
  if x.im.busy.isSome then s.imgBusyWrite p
  else if x.state != .staged then s.imgDone p 2 .refusedState 0
  else
    match s.commitReason p with
    | some r => s.imgDone p 2 .refusedState r
    | none =>
      let s1 := (s.endSoundingsOf p)
      (s1.updPart p fun y => { y with im := { y.im with
        busy := some 2, lastCmd := 2, outcome := 0, reason := 0, fillPermille := 0 } }).applySections p

/-- COMMIT (R65): a command that the window takes. -/
def execCommit (p : PartId) (s : State) : Out := .next (s.atReg (prtOffset p 0x108) (·.commit p))

/-- COMMIT_FILL_DONE (R75): the fill is complete, QTP_ shows the topology, and the partition is COMMITTED. -/
def execCommitFillDone (p : PartId) (s : State) : Out :=
  .next <|
    if s.parts[p].im.busy == some 2 then
      let s1 := (s.fillPart p).publishTopology p
      let s2 := s1.updPart p fun y => { y with
        im := { y.im with fillPermille := 1000 }
        run := { y.run with refOffset := 0, refOutcome := 0, refMaster := 0, refCount := 0, refStale := false,
                            stopCause := y.run.stopCause }
        caps := { y.caps with expected := 1, takenSeq := 0, ignored := 0, queue := [], lastTaken := Vector.replicate 32 0 }
        meter := { y.meter with counters := Vector.replicate 14 0, metered := true, nextSeq := 1, skipped := false,
                                tCommit := s1.timeNs, lastPeriodic := s1.timeNs }
        lull := { y.lull with reached := 0, idleSince := s1.timeNs } }
      (s2.imgDone p 2 .done 0).setPart p .committed
    else s

/-- The effect of DISCARD (R77). -/
def State.discard (s : State) (p : PartId) : State :=
  let x := s.parts[p]
  if x.im.busy.isSome then s.imgBusyWrite p
  else if x.state != .staged then s.imgDone p 3 .refusedState 0
  else
    let s1 := s.updPart p fun y => { y with im := { y.im with img := {}, build := 0, measure := 0 } }
    (s1.imgDone p 3 .done 0).setPart p .empty

/-- DISCARD (R65): a command that the window takes. -/
def execDiscard (p : PartId) (s : State) : Out := .next (s.atReg (prtOffset p 0x108) (·.discard p))

/-- The effect of START (R86, R404). -/
def State.start (s : State) (p : PartId) : State :=
  let x := s.parts[p]
  if x.state == .committed && !x.runBusy && !s.fabric.selfFenced then (s.runDone p 1 .done).setPart p .running
  else s.runDone p 1 .refusedState

/-- START (R65): a command that the window takes. -/
def execStart (p : PartId) (s : State) : Out := .next (s.atReg (prtOffset p 0x000) (·.start p))

/-- The effect of QUIESCE (R88): the wait begins; a limit of 0 is applied as 1. -/
def State.quiesce (s : State) (p : PartId) : State :=
  let x := s.parts[p]
  if x.state == .running && !x.runBusy && !s.usageFull p then
    s.updPart p fun y => { y with run := { y.run with
      quiescing := some (s.timeNs + 1000 * max 1 y.run.quiesceLimit.toNat) } }
  else s.runDone p 2 .refusedState

/-- QUIESCE (R65): a command that the window takes. -/
def execQuiesce (p : PartId) (s : State) : Out := .next (s.atReg (prtOffset p 0x000) (·.quiesce p))

/-- QUIESCE_COMPLETE (R88): the conditions of R43 hold. -/
def execQuiesceComplete (p : PartId) (s : State) : Out :=
  .next <|
    if s.parts[p].run.quiescing.isSome && s.partIdle p then
      let s1 := s.updPart p fun y => { y with run := { y.run with quiescing := none } }
      ((s1.runDone p 2 .done).setPart p .quiesced).usage p 3
    else s

/-- QUIESCE_TIMEOUT (R88): the partition stays RUNNING. -/
def execQuiesceTimeout (p : PartId) (atNs : Nat) (s : State) : Out :=
  .next <|
    let s1 := s.advanceTo atNs
    match s1.parts[p].run.quiescing with
    | some d =>
      if d ≤ s1.timeNs then
        (s1.updPart p fun y => { y with run := { y.run with quiescing := none } }).runDone p 2 .failedTimeout
      else s1
    | none => s1

/-- The effect of RESUME (R86, R404, R424). -/
def State.resume (s : State) (p : PartId) : State :=
  let x := s.parts[p]
  if x.state == .quiesced && !x.runBusy && !s.fabric.selfFenced then
    ((s.endSoundingsOf p).runDone p 3 .done).setPart p .running
  else s.runDone p 3 .refusedState

/-- RESUME (R65): a command that the window takes. -/
def execResume (p : PartId) (s : State) : Out := .next (s.atReg (prtOffset p 0x000) (·.resume p))

/-- A stop ends once the last record has been written (R89); at once where nothing is left to wait for. -/
def State.stopEnd (s : State) (p : PartId) : State :=
  match s.parts[p].run.stopping with
  | some (cause, byCmd) =>
    if s.partDrained p then
      let s1 := s.updPart p fun y => { y with run := { y.run with stopping := none, stopCause := cause } }
      let s2 := if byCmd then s1.runDone p 4 .done else s1
      (s2.setPart p .stopped).usage p 3
    else s
  | none => s

/-- A STOP applied (R89), by its owner or by the device as if its owner had written it (R180, R380). -/
def State.stopFor (s : State) (p : PartId) (cause : Byte) : State :=
  let x := s.parts[p]
  if (x.state == .committed || x.state == .running || x.state == .quiesced) && !x.runBusy && !s.usageFull p then
    (s.stopPart p cause true 0).stopEnd p
  else s.runDone p 4 .refusedState

/-- The effect of STOP (R89). -/
def State.stop (s : State) (p : PartId) : State := s.stopFor p 0x01

/-- STOP (R65): a command that the window takes. -/
def execStop (p : PartId) (s : State) : Out := .next (s.atReg (prtOffset p 0x000) (·.stop p))

/-- STOP_COMPLETE (R89): the last record has been written. -/
def execStopComplete (p : PartId) (s : State) : Out := .next (s.stopEnd p)

/-- RELEASE ends once no usage record is held (R109); a capsule that waits ends first (R8). -/
def State.releaseEnd (s : State) (p : PartId) : State :=
  if s.parts[p].run.releasing && s.parts[p].meter.held.isEmpty then
    let s1 := s.updPart p fun y => { y with run := { y.run with releasing := false } }
    (((s1.refuseQueued p).freePart p true).runDone p 5 .done).setPart p .empty
  else s

/-- The effect of RELEASE (R86, R108, R109). -/
def State.release (s : State) (p : PartId) : State :=
  let x := s.parts[p]
  if x.state == .stopped && !x.runBusy && !x.im.busy.isSome && !s.usageFull p then
    ((s.usage p 3).updPart p fun y => { y with run := { y.run with releasing := true } }).releaseEnd p
  else s.runDone p 5 .refusedState

/-- RELEASE (R65): a command that the window takes. -/
def execRelease (p : PartId) (s : State) : Out := .next (s.atReg (prtOffset p 0x000) (·.release p))

/-- Control space offset of MTR_RING_CTRL of a partition (R7). -/
def ringOffset (p : PartId) : Nat := 0x200000 + p.val * 0x1000 + 0x208

/-- The effect of SNAP (R108, R109). -/
def State.snap (s : State) (p : PartId) (master : Byte) : State :=
  if s.parts[p].meter.metered then
    if s.usageFull p then s.report master (ringOffset p) .refusedState false (some p) else s.usage p 2
  else s

/-- SNAP (R108, R109). -/
def execSnap (p : PartId) (s : State) : Out := .next (s.atReg (ringOffset p) fun s => s.snap p (s.owner (ringOffset p)))

/-- USAGE_RECORD_PERIODIC (R108, R109): one record every period_ms, none written while the ring is full. -/
def execUsageRecordPeriodic (p : PartId) (atNs : Nat) (s : State) : Out :=
  .next <|
    let s1 := s.advanceTo atNs
    let m := s1.parts[p].meter
    if m.metered && m.periodMs != 0 && decide (m.lastPeriodic + 1000000 * m.periodMs.toNat ≤ s1.timeNs) then
      let s2 := s1.updPart p fun y => { y with meter := { y.meter with
        lastPeriodic := y.meter.lastPeriodic + 1000000 * y.meter.periodMs.toNat } }
      if !m.enable then
        if m.held.length < 64 then s2.usage p 1
        else s2.updPart p fun y => { y with meter := { y.meter with skipped := true } }
      else if m.room && m.held.isEmpty then s2.usage p 1
      else s2.updPart p fun y => { y with meter := { y.meter with skipped := true } }
    else s1

end Sys2Proof.Machine
end

