-- ==== Sys2Proof/Machine/Control.lean ====
section
/-! DEFINITION. The effects of control writes at the end of their control epoch (04 R102, R103; 00 R5, R6), register by
register, and the family of control commands. -/

namespace Sys2Proof.Machine

open Host

/-- The state a meaning answers. -/
def Outcome.state (o : Out) (s : State) : State :=
  match o with
  | .next t => t
  | _ => s

/-! ### Registers with rules of their own -/

/-- PRT_CQ_CTRL written by a master (R123). -/
def State.cqCtrl (s : State) (p : PartId) (v : W64) (master : Byte) : State :=
  let q := s.parts[p].cq
  let ring : BitVec 4 := BitVec.ofNat 4 (bits v 1 4)
  if q.enable && ring != q.ringLog2 then s.report master (prtOffset p 0x048) .refusedState false (some p)
  else
    let rise := !q.enable && bit v 0
    s.updPart p fun x => { x with cq := { x.cq with
      coalesceNs := BitVec.ofNat 16 (bits v 32 16), coalesceCount := BitVec.ofNat 8 (bits v 24 8), ringLog2 := ring
      enable := bit v 0
      head := if rise then 0 else x.cq.head
      tail := if rise then 0 else x.cq.tail
      phase := rise || x.cq.phase } }

/-- PRT_CQ_BASE written by a master (R123). -/
def State.cqBase (s : State) (p : PartId) (v : W64) (master : Byte) : State :=
  let base : BitVec 52 := BitVec.ofNat 52 (bits v 12 52)
  let q := s.parts[p].cq
  if q.enable && base != q.base then s.report master (prtOffset p 0x040) .refusedState false (some p)
  else s.updPart p fun x => { x with cq := { x.cq with base := base } }

/-- PRT_BAR2_BASE written by a master (R116). -/
def State.setBar2Base (s : State) (p : PartId) (v : W64) (master : Byte) : State :=
  let b := bits v 0 49
  if b % (1 <<< s.parts[p].caps.bar2Log2) = 0 then
    s.updPart p fun x => { x with caps := { x.caps with bar2Base := BitVec.ofNat 49 b } }
  else s.report master (prtOffset p 0x070) .refusedState false (some p)

/-- PCI_PF_WIN_BASE written by a master (R116). -/
def State.setPfBase (s : State) (v : W64) (master : Byte) : State :=
  let b := bits v 0 49
  if b % (1 <<< s.link.pfBar2Log2) = 0 then
    { s with link := { s.link with pfWinBase := BitVec.ofNat 49 b } }
  else s.report master 0x2A00000 .refusedState false none

/-- STW_LOADER_CTRL written by a master (03, R5): the fields are stored; a go while a command runs starts nothing
(log 17). -/
def State.loaderCtrl (s : State) (v : W64) (master : Byte) : State :=
    let s1 := { s with loader := { s.loader with
      chunkLen := BitVec.ofNat 20 (bits v 16 20), cmd := BitVec.ofNat 3 (bits v 1 3) } }
    let src : LoaderPort := if master = 0x03 then .mctp else .pcie
    let d := rdL s1.loader.window 0 s1.loader.chunkLen.toNat
    if !bit v 0 || s1.loader.run.isSome then s1
    else
      match bits v 1 3 with
      | 1 => Outcome.state (execLoaderBegin src master d s1) s1
      | 2 => Outcome.state (execLoaderData src master d s1) s1
      | 3 => Outcome.state (execLoaderEnd src master s1) s1
      | 4 => Outcome.state (execLoaderAbort src master s1) s1
      | 5 => Outcome.state (execSvnCommit src master s1) s1
      | 6 => Outcome.state (execEnroll src master d s1) s1
      | 7 => Outcome.state (execRevoke src master d s1) s1
      | _ => { s1 with loader := { s1.loader with outcome := BitVec.ofNat 8 OutcomeCode.refusedState.code, rejectReason := 0 } }

/-- PRT_RUN_CTRL written (04): the command in bits [3:1] runs if go is set. -/
def State.runCtrl (s : State) (p : PartId) (v : W64) : State :=
  let c : BitVec 3 := BitVec.ofNat 3 (bits v 1 3)
  let s1 := s.updPart p fun x => { x with run := { x.run with cmd := c } }
  if !bit v 0 then s1
  else
    match c.toNat with
    | 1 => s1.start p
    | 2 => s1.quiesce p
    | 3 => s1.resume p
    | 4 => s1.stop p
    | 5 => s1.release p
    | _ => s1.runDone p c .refusedState

/-- PRT_IMG_CTRL written (R73): refused as a whole while a command runs; a go with command 0, log 16. -/
def State.imgCtrl (s : State) (p : PartId) (v : W64) : State :=
  let c : BitVec 2 := BitVec.ofNat 2 (bits v 1 2)
  if s.parts[p].im.busy.isSome then s.imgBusyWrite p
  else
    let s1 := s.updPart p fun x => { x with im := { x.im with length := BitVec.ofNat 23 (bits v 32 23), cmd := c } }
    if !bit v 0 then s1
    else
      match c.toNat with
      | 1 => s1.stage p
      | 2 => s1.commit p
      | 3 => s1.discard p
      | _ => s1.imgDone p c .refusedState 0

/-- MTR_RING_CTRL written (R108, R109), with SNAP. -/
def State.ringCtrl (s : State) (p : PartId) (v : W64) (master : Byte) : State :=
  let s1 := s.updPart p fun x => { x with meter := { x.meter with
    periodMs := BitVec.ofNat 32 (bits v 32 32), ringLog2 := BitVec.ofNat 4 (bits v 1 4), enable := bit v 0 } }
  s1.iff (bit v 8) (·.snap p master)

/-- Held usage records written as room appears; a RELEASE that waited for them ends (R109). -/
def State.drainUsage (s : State) (p : PartId) : State := (s.flushUsage p 65).releaseEnd p

/-- A flags register written in an epoch (R244): the conditions written with ones clear, and clr_counts. -/
def State.flagsWrite (s : State) (r : FlagReg) (v : W64) (n : Nat) : State :=
  let mask : BitVec 4 := BitVec.ofNat 4 (bits v 0 4)
  let s1 := s.updFlags r (·.clear mask n)
  if bit v 4 then s1.updFlags r (·.clearCounts n) else s1

/-- A command register of a memory unit written (11, 17; R5). MEM_SVC_CTRL's fields are stored; a go while a RETURN runs
starts nothing (log 17). -/
def State.memWrite (s : State) (u : MemUnit) (x : Nat) (v : W64) (master : Byte) (n : Nat) : State :=
  match x with
  | 0x0F0 => s.flagsWrite (match u with | .well w => .well w | .quarter q => .pump q) v n
  | 0x100 =>
    let k := bits v 6 32
    let s1 := s.updMem u fun m => { m with remapSector := BitVec.ofNat 32 k, remapCmd := BitVec.ofNat 2 (bits v 1 2) }
    if !bit v 0 then s1
    else match bits v 1 2 with
      | 1 => s1.remapAdd u k
      | 2 => s1.remapClear u
      | _ => s1.remapDone u .refusedState
  | 0x110 => s.flipWrite u v master n
  | 0x118 =>
    let g := match u with | .well _ => bits v 24 20 | .quarter _ => bits v 24 22
    let s1 := s.updMem u fun m => { m with qtnPage := BitVec.ofNat 22 g, qtnCmd := BitVec.ofNat 2 (bits v 1 2) }
    if !bit v 0 then s1
    else match bits v 1 2 with
      | 1 => s1.quarantineAdd u g
      | 2 => s1.quarantineRemove u g
      | _ => s1.qtnDone u .refusedState
  | 0x120 =>
    let s1 := s.updMem u fun m => { m with svcCmd := BitVec.ofNat 2 (bits v 1 2) }
    if !bit v 0 || (s.mem u).svcRunning then s1
    else match bits v 1 2 with
      | 1 => s1.takeOut u
      | 2 => s1.unitReturn u
      | _ => s1.svcDone u (codeByte .refusedState)
  | _ => s

/-- SND_CTRL written (18, R5): the fields are stored; a request while a sounding runs is refused. -/
def State.sndCtrl (s : State) (v : W64) : State :=
  let kind := bits v 16 8
  let target := bits v 24 8
  let lane := bits v 32 8
  let s1 := { s with snd := { s.snd with
    lane := BitVec.ofNat 8 lane, target := BitVec.ofNat 8 target, kind := BitVec.ofNat 8 kind } }
  if !bit v 0 then s1
  else if kind = 4 && !s.snd.running then
    let (seed, s2) := s1.fresh
    s2.startSounding kind target lane (seed.setWidth 32)
  else s1.startSounding kind target lane 0

/-- A gateway or routing register of ILN_ written (12, 17). -/
def State.ilnWrite (s : State) (x : Nat) (v : W64) (master : Byte) : State :=
  match x with
  | 0x60120 => s.updFabric fun f => { f with fmTxDst := v &&& 0x7FFF }
  | 0x60128 => if bit v 0 then s.fmSend else s
  | 0x60140 => s.updFabric fun f => { f with fmInj0 := v }
  | 0x60148 => s.updFabric fun f => { f with fmInj1 := v &&& 0xFFFFFFFF }
  | 0x60150 =>
    let s1 := s.updFabric fun f => { f with fmInjType := bit v 1 }
    if bit v 0 then s1.fmInject (bit v 1) master else s1
  | _ =>
    match entryAt x 0x60100 8 3, entryAt x 0x70000 8 8192 with
    | some k, _ => s.updFabric fun f => { f with fmTx := updAt f.fmTx (finMod 3 (by decide) k) fun _ => v }
    | _, some k => s.routeWrite (decide (4096 ≤ k))
        ((leBytes v.toNat 8).zipIdx.map fun e => (8 * (k % 4096) + e.2, e.1)) master
    | _, _ => s

/-! ### One write (R5, R103) -/

/-- The effect of a control write of epoch `n` on a register that takes one. A register that is read-only, or none, takes
nothing (R5); reserved bits are dropped (R4). -/
def State.writeReg (s : State) (w : CtlWrite) (n : Nat) : State :=
  let v := w.value
  let m := w.master
  match blockOf w.offset with
  | .stw x =>
    if x = 0x280 then s.setPowerCap (BitVec.ofNat 16 (bits v 0 16))
    else if x = 0x380 then s.loaderCtrl v m
    else if 0x80000 ≤ x ∧ x % 8 = 0 then
      { s with loader := { s.loader with window := wrL s.loader.window (x - 0x80000) (leBytes v.toNat 8) } }
    else s
  | .prt p x =>
    match x with
    | 0x000 => s.runCtrl p v
    | 0x018 => s.updPart p fun y => { y with run := { y.run with quiesceLimit := BitVec.ofNat 32 (bits v 0 32) } }
    | 0x040 => s.cqBase p v m
    | 0x048 => s.cqCtrl p v m
    | 0x058 => s.updPart p fun y => { y with cq := { y.cq with tail := BitVec.ofNat 21 (bits v 0 21) } }
    | 0x070 => s.setBar2Base p v m
    | 0x0F0 => (s.iff (bit v 1) (·.passWord p)).iff (bit v 0) (·.passRecord p)
    | 0x100 => s.updPart p fun y => { y with im := { y.im with addr := BitVec.ofNat 52 (bits v 12 52) } }
    | 0x108 => s.imgCtrl p v
    | _ => s
  | .mtr p x =>
    match x with
    | 0x200 => s.updPart p fun y => { y with meter := { y.meter with base := BitVec.ofNat 52 (bits v 12 52) } }
    | 0x208 => (s.ringCtrl p v m).drainUsage p
    | 0x218 => (s.updPart p fun y => { y with meter := { y.meter with tail := BitVec.ofNat 20 (bits v 0 20) } }).drainUsage p
    | _ => s
  | .lul p x => if x = 0 then s.setBudget p (BitVec.ofNat 32 (bits v 0 32)) else s
  | .lulDev x => if x = 0x10000 then { s with lull3Enable := bit v 0 } else s
  | .seq q x =>
    match x with
    | 0x008 => s.setSplit q (bits v 0 13) m
    | 0x080 =>
      let period : W32 := BitVec.ofNat 32 (bits v 32 32)
      let entry : BitVec 12 := BitVec.ofNat 12 (bits v 20 12)
      if bit v 0 then s.armCadence q period entry n m
      else s.updSeq q fun y => { y with arm := false, periodNs := period, entry := entry }
    | 0x090 => s.updSeq q fun y => { y with cadArg := v }
    | 0x098 => s.updSeq q fun y => { y with cadTag := v }
    | 0x100 => s.updSeq q fun y => { y with peekIndex := bits v 0 12 }
    | _ => s
  | .cor c x =>
    match x with
    | 0x090 => s.flagsWrite (.coreM c) v n
    | 0x098 => s.flagsWrite (.coreV c) v n
    | _ => s
  | .mem q x => s.memWrite (.well q) x v m n
  | .pmp u x => if x = 0x1008 then s.iff (bit v 0) (·.pumpReset u) else s.memWrite (.quarter u) x v m n
  | .port q x =>
    match x with
    | 0x020 => s.setDisable q (bit v 1)
    | 0x028 => s.updPort q fun y => { y with admits := bit v 0 }
    | _ => s
  | .iln x => s.ilnWrite x v m
  | .axe a x => if x = 0x0F0 then s.flagsWrite (.axis a) v n else s
  | .brm x => if x = 0 then s.brmWrite v m else s
  | .snd x => if x = 0 then s.sndCtrl v else s
  | .pci x => if x = 0 then s.setPfBase v m else s
  | _ => s

/-- The effect of a control write of epoch `n` in the state it meets: refused where an image fixes the register (R58). -/
def State.applyWrite (s : State) (w : CtlWrite) (n : Nat) : State :=
  if s.locked w.offset then s.report w.master w.offset .refusedState false (windowPart w.offset) else s.writeReg w n

/-! ### The end of an epoch (R102, R103) -/

/-- The rank of a write among the effects of its epoch (R103). -/
def writeRank (w : CtlWrite) : Nat :=
  let v := w.value
  match blockOf w.offset with
  | .stw x => if x = 0x280 then 2 else 5
  | .prt _ x =>
    if x = 0x000 ∧ bit v 0 then
      match bits v 1 3 with
      | 2 | 4 | 5 => 3
      | 1 | 3 => 4
      | _ => 5
    else if x = 0x108 ∧ bit v 0 then
      match bits v 1 2 with
      | 3 => 3
      | 1 | 2 => 4
      | _ => 5
    else 5
  | _ => 5

/-- The partition that a write commits, if it is a COMMIT. -/
def commitOf (w : CtlWrite) : Option PartId :=
  match blockOf w.offset with
  | .prt p x => if x = 0x108 ∧ bit w.value 0 ∧ bits w.value 1 2 = 2 then some p else none
  | _ => none

/-- Does `y` come before `x` at rank 4: an earlier write of the same partition, or a COMMIT of a lower partition that
claims a resource in common (R76, R103)? `earlier` tells that `y` arrived first. -/
def State.startsBefore (s : State) (earlier : Bool) (y x : PendingWrite) : Bool :=
  (earlier && windowPart y.w.offset == windowPart x.w.offset) ||
    match commitOf y.w, commitOf x.w with
    | some q, some p => decide (q.val < p.val) && s.contend q p
    | _, _ => false

/-- The first write of a list that none of the others comes before, and the others; `seen` arrived before the list. -/
def State.nextStart (s : State) (seen : List PendingWrite) : List PendingWrite → Option (PendingWrite × List PendingWrite)
  | [] => none
  | x :: r =>
    if seen.any (fun y => s.startsBefore true y x) || r.any (fun y => s.startsBefore false y x) then
      s.nextStart (seen ++ [x]) r
    else some (x, seen ++ r)

/-- Rank-4 writes in the order in which they apply: of arrival, but for R76. At most `n` of them. -/
def State.startOrder (s : State) : Nat → List PendingWrite → List PendingWrite
  | 0, _ => []
  | n + 1, l =>
    match s.nextStart [] l with
    | some (x, r) => x :: s.startOrder n r
    | none => []

/-- One effect applied, and its message answered (R97). -/
def State.applyPending (s : State) (w : PendingWrite) : State :=
  match w.stop with
  | some cause =>
    match windowPart w.w.offset with
    | some p => s.stopFor p cause
    | none => s
  | none =>
    let t := s.applyWrite w.w w.epoch
    t.answer w.reply w.w.master (if t.ctl.refusalCount = s.ctl.refusalCount then .done else .refusedState) false

/-- The writes of one epoch applied in the order of their ranks; pending stops whose records are all written end before
rank 3 and after it (R89). -/
def State.applyEpoch (s : State) (ws : List PendingWrite) : State :=
  let of (r : Nat) := ws.filter fun w => writeRank w.w == r
  let ends (s : State) : State := s.over (allFin 16) fun s p => s.stopEnd p
  let s1 := (ends s).over (of 2) fun s w => s.applyPending w
  let s2 := ends (s1.over (of 3) fun s w => s.applyPending w)
  let s3 := s2.over (s2.startOrder (of 4).length (of 4)) fun s w => s.applyPending w
  s3.over (of 5) fun s w => s.applyPending w

/-- The effects of one epoch: fences at rank 1, then the writes (R103). -/
def State.endEpoch (s : State) (n : Nat) : State :=
  let fs := (s.ctl.fences.filter fun e => e.1 == n).map (·.2)
  let ws := s.ctl.writes.filter fun w => w.epoch == n
  let s0 := { s with ctl := { s.ctl with
    fences := s.ctl.fences.filter fun e => e.1 != n
    writes := s.ctl.writes.filter fun w => w.epoch != n } }
  (s0.over fs fun s c => s.applyFence c).applyEpoch ws

/-- A number put into a rising list. -/
def insertNat (n : Nat) : List Nat → List Nat
  | [] => [n]
  | x :: r => if n < x then n :: x :: r else if n = x then x :: r else x :: insertNat n r

/-- The epochs up to `n` whose effects wait. -/
def Control.epochs (c : Control) (n : Nat) : List Nat :=
  ((c.fences.map (·.1) ++ c.writes.map (·.epoch)).filter fun e => decide (e ≤ n)).foldl
    (fun l e => insertNat e l) []

/-- What a master's read returns from (R102): the state after every write of that master that has arrived, epoch by
epoch. -/
def State.ahead (s : State) (master : Byte) : State :=
  let ws := (s.ctl.writes.filter fun w => w.w.master == master && w.stop.isNone).map fun w => { w with reply := none }
  let es := ws.foldl (fun l w => insertNat w.epoch l) []
  s.over es fun s e => s.applyEpoch (ws.filter fun w => w.epoch == e)

/-- Changes of flag bits that no later write can meet are no longer kept apart (R6). -/
def State.closeFlags (s : State) : State :=
  let n := s.epoch
  let mem (m : MemCtl) : MemCtl := { m with flags := m.flags.prune n }
  { s with
    wells := s.wells.map mem
    pumps := s.pumps.map fun x => { x with mem := mem x.mem }
    axes := s.axes.map fun x => { x with flags := x.flags.prune n }
    cores := s.cores.map fun x =>
      { x with mx := { x.mx with flags := x.mx.flags.prune n }, vx := { x.vx with flags := x.vx.flags.prune n } } }

/-- CONTROL_EPOCH_END (R102, R103): epoch `n` ends. -/
def execControlEpochEnd (n : Nat) (s : State) : Out :=
  .next <|
    let s1 := s.advanceTo ((n + 1) * 1000)
    (s1.over (s1.ctl.epochs n) fun s e => s.endEpoch e).closeFlags

/-! ### The other control commands -/

/-- A write of eight bytes to BAR0 of a function (R94, R104, R114): a control write of its driver, bytes of the capsule
window, or nothing. -/
def State.bar0Write (s : State) (fn : PciFn) (x : Nat) (v : W64) : State :=
  match fn, bar0Offset fn x with
  | .pf, some off => s.writeArrives ⟨masterOf fn, 0, off, v⟩ none
  | .vf p, some off => (s.meter p mHost 8).writeArrives ⟨masterOf fn, 0, off, v⟩ none
  | .vf p, none => if 0x1E00000 ≤ x ∧ x < 0x2000000 then s.capWrite p (x - 0x1E00000) (leBytes v.toNat 8) else s
  | .pf, none => s

/-- REGISTER_WRITE (R5, R96, R100, R114). -/
def execRegisterWrite (w : RegWrite) (s : State) : Out :=
  .next <|
    match w with
    | .control w => s.writeArrives w none
    | .bar0 fn x v => s.iff s.power.alwaysOn (·.bar0Write fn x v)

/-- ABSENT_WINDOW_WRITE (R29). -/
def execAbsentWindowWrite (offset : Nat) (s : State) : Out :=
  .next (s.atReg offset fun s => s.iff (s.absentWindow offset) (·.absentWrite offset))

/-- The control space offset of a flags register (R7, R244). -/
def flagOffset : FlagReg → Nat
  | .coreM c => 0x1000000 + c.val * 0x10000 + 0x090
  | .coreV c => 0x1000000 + c.val * 0x10000 + 0x098
  | .axis a => 0x2400000 + a.val * 0x10000 + 0x0F0
  | .well w => 0x2000000 + w.val * 0x10000 + 0x0F0
  | .pump u => 0x2200000 + u.val * 0x10000 + 0x0F0

/-- Does a flags register take writes: it is served, and its unit is present (R29, R65)? -/
def State.flagsOpen (s : State) (r : FlagReg) : Bool := s.served (flagOffset r) && !s.absentWindow (flagOffset r)

/-- W1C_FLAG_CLEAR (R6, R244): a write of epoch `n`. -/
def execW1cFlagClear (r : FlagReg) (mask : BitVec 4) (n : Nat) (s : State) : Out :=
  .next (s.iff (s.flagsOpen r) (·.updFlags r (·.clear mask n)))

/-- FLAGS_CLR_COUNTS (R244): a write of epoch `n`. -/
def execFlagsClrCounts (r : FlagReg) (n : Nat) (s : State) : Out :=
  .next (s.iff (s.flagsOpen r) (·.updFlags r (·.clearCounts n)))

/-- STW_PF_GEN_WRITE (R96, R99, R100): by the PF driver. -/
def execStwPfGenWrite (gen : W32) (s : State) : Out :=
  .next (s.writeArrives ⟨0x04, 0, 0x480, gen.setWidth 64⟩ none)

/-- PRT_DRV_GEN_WRITE (R96, R99, R100): by the VF driver of the partition. -/
def execPrtDrvGenWrite (p : PartId) (gen : W32) (s : State) : Out :=
  .next (s.writeArrives ⟨masterOf (.vf p), 0, prtOffset p 0x010, gen.setWidth 64⟩ none)

end Sys2Proof.Machine
end

