-- ==== Sys2Proof/Machine/Bar.lean ====
section
/-! DEFINITION. Host accesses through BAR2 (05 R113, R114, R116; 11 R252, R269; 16 R386; 17 R398), and reads of host
memory that fail (05 R113). -/

namespace Sys2Proof.Machine

/-! ### The window -/

/-- BAR2's size of a function (R114). -/
def State.barSize (s : State) : PciFn → Nat
  | .pf => 1 <<< s.link.pfBar2Log2
  | .vf p => 1 <<< s.parts[p].caps.bar2Log2

/-- The base in force: the bits below the BAR2 size are taken as zero (R116). -/
def State.barBase (s : State) (fn : PciFn) : Nat :=
  let b := match fn with | .pf => s.link.pfWinBase.toNat | .vf p => s.parts[p].caps.bar2Base.toNat
  b / s.barSize fn * s.barSize fn

/-- The place of an offset of a function's map: none outside it (R116, R252). Memory is served in READY (R65; log 2). -/
def State.barLoc (s : State) (fn : PciFn) (a : Nat) : Option Loc :=
  if s.boot.state == .ready && !s.ctl.halted then
    match fn with
    | .pf => s.pfLoc a
    | .vf p => if s.parts[p].state.committed' then s.viewLoc p a else none
  else none

/-- The 64-byte blocks that a range touches. -/
def blocksOf (a len : Nat) : List Nat :=
  if len = 0 then [] else (List.range ((a + len - 1) / 64 - a / 64 + 1)).map fun i => (a / 64 + i) * 64

/-- Does a range lie in the window and in the map? -/
def State.barIn (s : State) (fn : PciFn) (off len : Nat) : Bool :=
  decide (off + len ≤ s.barSize fn) && decide (s.barBase fn + off + len ≤ 1 <<< 49) &&
    (blocksOf (s.barBase fn + off) len).all fun b => (s.barLoc fn b).isSome

/-- An access completed as an Unsupported Request (R116): a non-fatal AER error. -/
def State.unsupported (s : State) : State := { s with link := { s.link with aer := s.link.aer + 1 } }

/-- A unit in self-refresh or idle that an access reaches leaves it. -/
def State.rouse (s : State) : Loc → State
  | .mem u _ => s.unrest u
  | .core _ _ => s

/-- What a function moves over its BAR2 (R104). -/
def State.barMeter (s : State) (fn : PciFn) (a len : Nat) (write : Bool) : State :=
  match fn with
  | .pf => s
  | .vf p => (s.meter p mHost len).meterMove p a len write

/-! ### Reads -/

/-- The blocks of a range read in order: their bytes, and whether any is poisoned. -/
def State.barBlocks (s : State) (fn : PciFn) : List Nat → (List Byte × Bool) × State
  | [] => (([], false), s)
  | b :: r =>
    match s.barLoc fn b with
    | none => (([], false), s)
    | some l =>
      if s.locGone l then
        let n := s.freeCount
        let (x, s2) := State.barBlocks { s with freeCount := n + 1 } fn r
        (((List.range 64).map (fun i => Config.freeByte n i) ++ x.1, true), s2)
      else
        let (d, s1) := (s.rouse l).readBlock l .host
        let (x, s2) := s1.barBlocks fn r
        ((d.1 ++ x.1, d.2 || x.2), s2)

/-- A completed read kept for the host. -/
def State.barReply (s : State) (fn : PciFn) (off : Nat) (data : Option (List Byte)) (poisoned : Bool) : State :=
  { s with link := { s.link with reads := s.link.reads ++ [⟨fn, off, data, poisoned⟩] } }

/-- Control space read by a function: words of a unit that its partition does not hold read zero (R115). -/
def State.ctlRead (s : State) (fn : PciFn) (off len : Nat) : List Byte :=
  ((List.range (len / 8 + 1)).map fun i =>
    if s.hidden fn (off + 8 * i) then leBytes 0 8 else s.regBytes (off + 8 * i)).flatten.take len

/-- The units that a read of control space reaches woken (R51). -/
def State.wakeRange (s : State) (fn : PciFn) (off len : Nat) : State :=
  s.over (List.range (len / 8 + 1)) fun s i => s.iff (!s.hidden fn (off + 8 * i)) (·.wakeAccess (off + 8 * i))

/-- A read of control space over PCIe (R51, R102, R104, R114). -/
def State.pcieRegRead (s : State) (fn : PciFn) (off len : Nat) : List Byte × State :=
  let s1 := match fn with | .vf p => s.meter p mHost len | .pf => s
  let s2 := s1.wakeRange fn off len
  ((s2.ahead (masterOf fn)).ctlRead fn off len, s2)

/-- Does a PF range lie in control space? -/
def inCtl (fn : PciFn) (a : Nat) : Bool := fn == .pf && decide (ctlBase ≤ a)

/-- A read of BAR0 (R114): a VF's capsule window and the offsets that map nothing read zero (log 2). -/
def State.bar0Read (s : State) (fn : PciFn) (offset len : Nat) : State :=
  match bar0Offset fn offset with
  | some off => let (d, s1) := s.pcieRegRead fn off len; s1.barReply fn offset (some d) false
  | none =>
    match fn with
    | .vf p => (s.meter p mHost len).barReply fn offset (some (List.replicate len 0)) false
    | .pf => s.barReply fn offset (some (List.replicate len 0)) false

/-- BAR2_READ (R113, R114, R116). -/
def execBar2Read (x : BarOf) (offset : Nat) (len : Nat) (s : State) : Out :=
  .next <|
    let fn := x.fn
    let a := s.barBase fn + offset
    if !s.power.alwaysOn then s
    else if x.bar = .bar0 then s.bar0Read fn offset len
    else if inCtl fn a && decide (offset + len ≤ s.barSize fn ∧ a + len ≤ 1 <<< 49) then
      let (d, s1) := s.pcieRegRead fn (a - ctlBase) len
      s1.barReply fn offset (some d) false
    else if s.barIn fn offset len then
      let (d, s1) := s.barBlocks fn (blocksOf a len)
      (s1.barMeter fn a len false).barReply fn offset (some ((d.1.drop (a % 64)).take len)) d.2
    else s.unsupported.barReply fn offset none false

/-! ### Writes -/

/-- One block of a write: `data` placed at `at_` in the block. Less than a block is merged by reading first; a merge
into a poisoned sector has no other effect (R269). -/
def State.barMerge (s : State) (l : Loc) (at_ : Nat) (data : List Byte) (poisoned : Bool) : State :=
  if data.length = 64 then s.writeBlock l data poisoned
  else
    let (d, s1) := s.readBlock l .host
    let new := d.1.take at_ ++ data ++ d.1.drop (at_ + data.length)
    match l with
    | .mem _ _ => if d.2 then s1 else s1.writeBlock l new poisoned
    | .core _ _ => s1.writeBlock l new (d.2 || poisoned)

/-- The blocks of a write in order, from byte `a` on; blocks of a unit that is gone are dropped (R398). -/
def State.barWrites (s : State) (fn : PciFn) (a : Nat) (data : List Byte) (poisoned : Bool) : Nat → State
  | 0 => s
  | n + 1 =>
    if data.isEmpty then s
    else
      let k := 64 - a % 64
      let s1 :=
        match s.barLoc fn (a / 64 * 64) with
        | none => s
        | some l => if s.locGone l then s else (s.rouse l).barMerge l (a % 64) (data.take k) poisoned
      State.barWrites s1 fn (a + k) (data.drop k) poisoned n

/-- Is a write dropped: outside the map, or in a parameter region while an interlude runs (R386)? -/
def State.barDrops (s : State) (fn : PciFn) (off len : Nat) : Bool :=
  !s.barIn fn off len ||
    (match fn with | .pf => false | .vf p => s.protected? p (s.barBase fn + off) len)

/-- Control writes of the PF through its BAR2 (R251, R252): whole registers. -/
def State.ctlWrites (s : State) (off : Nat) (data : List Byte) : State :=
  s.over (List.range (data.length / 8)) fun s i =>
    s.writeArrives ⟨0x04, 0, off + 8 * i, BitVec.ofNat 64 (ldNat data (8 * i) 8)⟩ none

/-- BAR2_WRITE (R113, R116). -/
def execBar2Write (fn : PciFn) (offset : Nat) (data : List Byte) (poisoned : Bool) (s : State) : Out :=
  .next <|
    let a := s.barBase fn + offset
    let n := data.length
    if !s.power.alwaysOn then s
    else if inCtl fn a && decide (offset + n ≤ s.barSize fn ∧ a + n ≤ 1 <<< 49) then
      s.iff (a % 8 == 0) (·.ctlWrites (a - ctlBase) data)
    else if s.barDrops fn offset n then s.unsupported
    else
      let gone := (blocksOf a n).any fun b => match s.barLoc fn b with | some l => s.locGone l || s.locQuarantined l | none => false
      (((s.iff gone (·.unsupported)).barWrites fn a data poisoned (n / 64 + 2)).barMeter fn a n true)

/-- BAR2 of a function resized through its Resizable BAR capability (R114): the stored base stays (R116). -/
def State.resizeBar2 (s : State) (fn : PciFn) (log2 : Nat) : State :=
  if 30 ≤ log2 ∧ log2 ≤ 40 then
    match fn with
    | .pf => { s with link := { s.link with pfBar2Log2 := log2 } }
    | .vf p => s.updPart p fun x => { x with caps := { x.caps with bar2Log2 := log2 } }
  else s

/-- BAR2_BASE_WRITE (R114, R116). -/
def execBar2BaseWrite (fn : PciFn) (x : BarSet) (s : State) : Out :=
  .next <|
    match fn, x with
    | fn, .resize n => s.resizeBar2 fn n
    | .pf, .base v => s.atReg 0x2A00000 fun s => s.setPfBase v (s.owner 0x2A00000)
    | .vf p, .base v => s.atReg (prtOffset p 0x070) fun s => s.setBar2Base p v (s.owner (prtOffset p 0x070))

/-! ### Reads of host memory (R113) -/

/-- A read of host memory that fails ends its item; a STAGE leaves the partition EMPTY. -/
def State.hostReadFails (s : State) (r : HostReader) (o : OutcomeCode) : State :=
  match r with
  | .transfer id =>
    match s.xfer? id with
    | some x => if x.srcHost then s.endXferFor x o else s
    | none => s
  | .stage p =>
    if s.parts[p].im.busy == some 1 then
      (s.updPart p fun y => { y with im := { y.im with bytes := [] } }).imgDone p 1 o 0
    else s

/-- The STW_TIME at which the read of host memory that an item waits for began (R113). -/
def State.hostReadAt (s : State) : HostReader → Nat
  | .transfer id => match s.xfer? id with | some x => x.hostAt | none => 0
  | .stage p => s.parts[p].im.readAt

/-- HOST_READ_TIMEOUT (R33, R113): no completion within 10 ms. -/
def execHostReadTimeout (x : HostWait) (s : State) : Out :=
  .next <|
    let s1 := s.advanceTo x.atNs
    s1.iff (decide (s1.hostReadAt x.reader + 10000000 ≤ s1.timeNs)) (·.hostReadFails x.reader .failedTimeout)

/-- HOST_ERROR_COMPLETION (R113). -/
def execHostErrorCompletion (r : HostReader) (s : State) : Out := .next (s.hostReadFails r .failedLink)

end Sys2Proof.Machine
end

