-- ==== Sys2Proof/Machine/Fence.lean ====
section
/-! DEFINITION. The family of fabric manager commands (12 R311; 17 R402 to R409): CONTROL packets and their replies,
fences, readmission, epoch marks, and the routing table. -/

namespace Sys2Proof.Machine

/-- A CONTROL packet that arrives again: its reply, once there is one, is sent again (R302; log 21). -/
def State.replyAgain (s : State) (k : Packet) : State :=
  let id : W32 := BitVec.ofNat 32 (ldNat k.payload 4 4)
  match s.fabric.replied.find? fun e => e.1 == k.src && e.2.1 == id with
  | some e => s.sendReply k.src e.2.2
  | none => s

/-- A psn of a stream marked delivered, with no partition to charge. -/
def State.markControl (s : State) (k : Packet) : State :=
  s.putDst (pktStream k) ((s.dstStream (pktStream k)).deliver k.psn)

/-- CONTROL_PACKET (R311). One whose source is no gateway is discarded and counted in STW_REFUSAL_COUNT. -/
def execControlPacket (n : PortId) (k : Packet) (trailer : W64) (s : State) : Out :=
  .next <|
    if s.mine n k && k.kind == 0x09 then
      if !s.isGateway k.src && pktTrailer k == trailer then (s.noteTc12 k).takeControl k.src k.payload
      else if (s.dstStream (pktStream k)).has k.psn && !s.isFenced k.src then (s.noteTc12 k).replyAgain k
      else
        let (ok, s1) := s.arrive n k trailer fun _ => none
        if ok then (s1.markControl k).takeControl k.src k.payload else s1
    else s

/-- CONTROL_REPLY (R291, R311). -/
def execControlReply (n : PortId) (k : Packet) (trailer : W64) (s : State) : Out :=
  .next <|
    let (ok, s1) := s.arriveLoose n k trailer 0x0A
    if ok then s1.takeReply k.src k.payload else s1

/-- FM_CONTROL_SEND (R311). -/
def execFmControlSend (s : State) : Out := .next (s.atReg injOffset (·.fmSend))

/-- FM_INJECT_FENCE (R402). -/
def execFmInjectFence (s : State) : Out := .next (s.atReg injOffset fun s => s.fmInject false (s.owner injOffset))

/-- FM_INJECT_EPOCH_MARK (R408). -/
def execFmInjectEpochMark (s : State) : Out :=
  .next (s.atReg injOffset fun s => s.fmInject true (s.owner injOffset))

/-- A flooded packet that arrives on a port whose link is up: true where its trailer holds (R290). -/
def State.arriveFlood (s : State) (n : PortId) (k : Packet) (trailer : W64) : Bool × State :=
  let s1 := s.noteTc12 k
  if pktTrailer k != trailer then (false, (s1.countE2e n).nakTo k 0x00) else (true, s1)

/-- FENCE (R402 to R404): taken, passed on and answered; it is applied at rank 1 of its control epoch (R103). -/
def execFence (n : PortId) (k : Packet) (trailer : W64) (s : State) : Out :=
  .next <|
    if s.ports[n].state != .down && k.kind == 0x0B && ldNat k.payload 0 1 != 2 then
      let (ok, s1) := s.arriveFlood n k trailer
      if ok then s1.takeFence (some n) k else s1
    else s

/-- READMIT (R402, R405): a FENCE packet with action 2. -/
def execReadmit (n : PortId) (k : Packet) (trailer : W64) (s : State) : Out :=
  .next <|
    if s.ports[n].state != .down && k.kind == 0x0B && ldNat k.payload 0 1 == 2 then
      let (ok, s1) := s.arriveFlood n k trailer
      if ok then s1.takeFence (some n) k else s1
    else s

/-- READMIT_APPLY (R405): 2 ms after the fence. -/
def execReadmitApply (chip : BitVec 15) (atNs : Nat) (s : State) : Out :=
  .next <|
    let s1 := s.advanceTo atNs
    if (s1.fabric.readmits.any fun e => e.1 == chip) && s1.readmitDue chip then s1.readmitNow chip else s1

/-- EPOCH_MARK (R408). -/
def execEpochMark (n : PortId) (k : Packet) (trailer : W64) (s : State) : Out :=
  .next <|
    if s.ports[n].state == .admitted && k.kind == 0x0C then
      let (ok, s1) := s.arriveFlood n k trailer
      if ok then s1.takeMark (some n) k else s1
    else s

/-- ROUTING_TABLE_WRITE (R299, R409). -/
def execRoutingTableWrite (epoch : Bool) (chip : BitVec 15) (mask : Byte) (s : State) : Out :=
  .next (s.atReg (routeOffset epoch chip.toNat) fun s =>
    s.routeWrite epoch [(chip.toNat, mask)] (s.owner (routeOffset epoch chip.toNat)))

/-- OLD_LOCKED_CLEAR (R409): 1 ms after the switch, with no packet of the old epoch left. -/
def execOldLockedClear (atNs : Nat) (s : State) : Out :=
  .next <|
    let s1 := s.advanceTo atNs
    if s1.routeLocked then s1 else s1.updFabric fun f => { f with oldLocked := false }

end Sys2Proof.Machine
end

