-- ==== Sys2Proof/Machine/HostLink.lean ====
section
/-! DEFINITION. The families of the host link (05 R112, R117, R123 to R129, R434; 17 R389, R432): link and resets, the
completion ring, attestation over DOE, and MCTP messages. -/

namespace Sys2Proof.Machine

/-! ### Link and resets (R20, R112, R128, R129) -/

/-- The link back in Detect. -/
def State.toDetect (s : State) : State := { s with link := { s.link with link := .detect, width := 0 } }

/-- The width a link of `n` lanes runs at (R111). -/
def linkWidth (n : Nat) : Nat := if 16 ≤ n then 16 else if 8 ≤ n then 8 else 4

/-- PCIE_LINK_TRAIN (R112, R20, R129). -/
def execPcieLinkTrain (width : Nat) (atNs : Nat) (s : State) : Out :=
  .next <|
    let s1 := s.advanceTo atNs
    if !s1.power.pwrEn || s1.power.perst || s1.link.link == .l0 || decide (s1.timeNs < s1.link.detectUntil) then s1
    else if width < 4 then
      ({ s1 with link := { s1.link with detectUntil := s1.timeNs + 100000000 } }).event 0x0303 unitHost partNone sevInfo 0
        (packDetail [(width, 1)])
    else { s1 with link := { s1.link with link := .l0, width := linkWidth width } }

/-- PERST_ASSERT (R128, R129): acts at its assertion; holding it resets nothing further. -/
def execPerstAssert (s : State) : Out :=
  .next <|
    if s.power.perst then s
    else
      let s1 := { s with power := { s.power with perst := true } }
      (if s1.power.alwaysOn then s1.hostReset else s1).toDetect

/-- PERST_RELEASE (R20): Detect is held until 100 ms after PWR_EN. -/
def execPerstRelease (atNs : Nat) (s : State) : Out :=
  .next <|
    let s1 := s.advanceTo atNs
    if s1.power.perst then
      { s1 with
        power := { s1.power with perst := false }
        link := { s1.link with detectUntil := max s1.link.detectUntil (s1.power.pwrEnAt + 100000000) } }
    else s1

/-- HOT_RESET (R128). -/
def execHotReset (s : State) : Out := .next (if s.power.alwaysOn then s.hostReset.toDetect else s)

/-- PF_FLR (R128): the link stays in L0. -/
def execPfFlr (s : State) : Out := .next (if s.power.alwaysOn then s.hostReset else s)

/-- VF_FLR (R91, R128, R129). -/
def execVfFlr (p : PartId) (s : State) : Out := .next (if s.power.alwaysOn then s.vfReset p else s)

/-- STEWARD_WATCHDOG_EXPIRY (R389, R390, R17): the expiry recorded, one incident, and a device reset that boots at
VERIFY. A halted device stays halted. -/
def execStewardWatchdogExpiry (checkpoint : W64) (s : State) : Out :=
  .next <|
    if s.power.alwaysOn then
      let s1 := s.incident 0x0C (maskOf (s.committedParts.map (·.val))) sevDevice
      let inc := s1.ctl.incident
      let s2 := s1.event 0x0902 unitSteward partNone sevDevice inc (packDetail [(checkpoint.toNat, 8)])
      let s3 := (s2.deviceReset .abortedReset inc).modFault
      if s3.ctl.halted || !s3.power.pwrEn then s3 else s3.reboot
    else s

/-! ### Capsule window and completion ring (R117, R123, R124, R434) -/

/-- CAPSULE_HEADER_WRITE (R117). -/
def execCapsuleHeaderWrite (p : PartId) (offset : Nat) (data : List Byte) (s : State) : Out :=
  .next (s.capWrite p offset data)

/-- HELD_RECORD_FLUSH (R124). -/
def execHeldRecordFlush (p : PartId) (s : State) : Out := .next (s.flushAndTake p)

/-- PRT_CQ_CTRL_WRITE (R123). -/
def execPrtCqCtrlWrite (p : PartId) (value : W64) (s : State) : Out :=
  .next (s.atReg (prtOffset p 0x048) fun s => s.cqCtrl p value (s.owner (prtOffset p 0x048)))

/-- COALESCE_TIMER_EXPIRY (R434). -/
def execCoalesceTimerExpiry (p : PartId) (atNs : Nat) (s : State) : Out :=
  .next <|
    let s1 := s.advanceTo atNs
    let q := s1.parts[p].cq
    match q.firstAt with
    | some t => if q.coalesceNs != 0 && decide (t + q.coalesceNs.toNat ≤ s1.timeNs) then s1.raiseV0 p else s1
    | none => s1

/-! ### Attestation over DOE (R126) -/

/-- A DOE answer kept for the requester. -/
def State.doeReply (s : State) (b : List Byte) : State := { s with link := { s.link with doeOut := s.link.doeOut ++ [b] } }

/-- Does the device answer objects other than IDENTITY: from VERIFY onward (R126)? -/
def State.doeOpen (s : State) : Bool := s.power.pwrEn && s.boot.state != .bare

/-- The measurement of a partition's image: zero when EMPTY or STAGED. -/
def Partition.shownMeasure (x : Partition) : List Byte :=
  leBytes (if x.state.committed' then x.im.measure.toNat else 0) 48

/-- The bytes of a MEASURE answer before its signature. -/
def State.measureBody (s : State) (nonce : List Byte) : List Byte :=
  slice nonce 0 32 ++ leBytes s.fuses.map.toNat 8 ++ leBytes s.boot.infoSvn 1 ++ leBytes s.fuses.minSvn 1 ++
    leBytes s.boot.infoMeasure.toNat 48 ++ (s.parts.toList.map Partition.shownMeasure).flatten ++ leBytes s.timeNs 8

/-- A signature of the identity key as its 96 bytes. -/
def signed (b : List Byte) : List Byte := leBytes (Config.identitySign b).toNat 96

/-- KEY_EXCHANGE: the ephemeral key is a free value (log 7), and the exchanged key replaces any earlier one. -/
def State.exchange (s : State) (pub : List Byte) : List Byte × State :=
  let n := s.freeCount
  let own := (List.range 97).map fun i => Config.freeByte n i
  (own ++ signed (slice pub 0 97 ++ own),
    { s with freeCount := n + 1, link := { s.link with exchanged := some (Config.free64 n) } })

/-- IDE_KEY_SET: a key wrapped under the exchanged key is installed for one direction of a stream. -/
def State.setIdeKey (s : State) (i : IdeStream) (wrapped : List Byte) : OutcomeCode × State :=
  match s.link.exchanged with
  | none => (.refusedState, s)
  | some x =>
    match Config.ideUnwrap x wrapped with
    | none => (.refusedState, s)
    | some k =>
      (.done, { s with link := { s.link with ideKeys := Sparse.put s.link.ideKeys (2 * i.stream.val + i.rx.toNat) k } })

/-- One DOE exchange: the object's type and request, the outcome and the answer (R126). A type outside the table is
refused. -/
def State.doe (s : State) (type : Nat) (req : List Byte) : (OutcomeCode × List Byte) × State :=
  if !s.power.alwaysOn then ((.refusedState, []), s)
  else if type = 1 then ((.done, Config.identityObject), s)
  else if !s.doeOpen then ((.refusedState, []), s)
  else
    match type with
    | 2 => let b := s.measureBody req; ((.done, b ++ signed b), s)
    | 3 => let (b, t) := s.exchange req; ((.done, b), t)
    | 4 =>
      if 9 ≤ ldNat req 0 1 then ((.refusedState, []), s)
      else
        let (o, t) := s.setIdeKey ⟨finMod 9 (by decide) (ldNat req 0 1), ldNat req 1 1 % 2 == 1⟩ (req.drop 2)
        ((o, []), t)
    | _ => ((.refusedState, []), s)

/-- The answer of the mailbox: the object, or the outcome code alone. -/
def doeBytes (r : OutcomeCode × List Byte) : List Byte := if r.2.isEmpty then [codeByte r.1] else r.2

/-- IDENTITY (R126): answered in every boot state. -/
def execIdentity (s : State) : Out :=
  .next (if s.power.alwaysOn then s.doeReply Config.identityObject else s)

/-- MEASURE (R126). -/
def execMeasure (nonce : List Byte) (s : State) : Out :=
  .next <|
    if !s.power.alwaysOn then s
    else if s.doeOpen then s.doeReply (s.measureBody nonce ++ signed (s.measureBody nonce))
    else s.doeReply [codeByte .refusedState]

/-- KEY_EXCHANGE (R126). -/
def execKeyExchange (pub : List Byte) (s : State) : Out :=
  .next <|
    if !s.power.alwaysOn then s
    else if s.doeOpen then (s.exchange pub).2.doeReply (s.exchange pub).1
    else s.doeReply [codeByte .refusedState]

/-- IDE_KEY_SET (R126). -/
def execIdeKeySet (x : IdeStream) (wrapped : List Byte) (s : State) : Out :=
  .next <|
    if !s.power.alwaysOn then s
    else if s.doeOpen then (s.setIdeKey x wrapped).2.doeReply [codeByte (s.setIdeKey x wrapped).1]
    else s.doeReply [codeByte .refusedState]

/-! ### MCTP messages (R127, R432) -/

/-- A reply to the board management controller: the message's header, an outcome and data. -/
def State.mctpReply (s : State) (m : MctpMsg) (o : OutcomeCode) (data : List Byte) : State :=
  { s with ctl := { s.ctl with replies := s.ctl.replies ++ [{ head := m.head, outcome := o, data := data }] } }

/-- Is a header well formed (R127)? -/
def mctpOk (m : MctpMsg) : Bool :=
  m.reservedZero && decide (m.head.dataLen.toNat = m.data.length ∧ m.data.length ≤ 4096)

/-- Does a message reach the device: over SMBus at 0x60 + MOD_ADDR once the straps are sampled (R16), or over PCIe? -/
def State.mctpHeard (s : State) (m : MctpMsg) : Bool :=
  s.power.alwaysOn &&
    match m.path with
    | .smbus a => s.power.strapsSampled && a.toNat == 0x60 + s.power.straps.modAddr.toNat
    | .pcie => s.link.link == .l0

/-- A message with the command `code` handled, or answered with REFUSED_STATE for a malformed header. -/
def State.mctp (s : State) (m : MctpMsg) (code : Byte) (ok : Bool) (f : State → State) : State :=
  if !s.mctpHeard m then s
  else if m.head.command == code && mctpOk m && ok then f s
  else s.mctpReply m .refusedState []

/-- MCTP_REG_READ (R51, R102, R127): the eight bytes at an offset. -/
def execMctpRegRead (m : MctpMsg) (s : State) : Out :=
  .next <| s.mctp m 1 m.data.isEmpty fun s =>
    let s1 := (s.wakeAccess m.head.address.toNat).wakeAccess (m.head.address.toNat + 7)
    s1.mctpReply m .done ((s1.ahead 0x03).regBytes m.head.address.toNat)

/-- MCTP_REG_WRITE (R127): a control write by master 0x03; the data is the value. -/
def execMctpRegWrite (m : MctpMsg) (s : State) : Out :=
  .next <| s.mctp m 2 (m.data.length == 8) fun s =>
    s.writeArrives ⟨0x03, m.head.gen, m.head.address.toNat, BitVec.ofNat 64 (ldNat m.data 0 8)⟩ (some (.mctp m.head))

/-- A loader command named by the fields of STW_LOADER_CTRL that the address holds. -/
def State.loaderMessage (s : State) (m : MctpMsg) : State :=
  match bits m.head.address 1 3 with
  | 1 => Outcome.state (execLoaderBegin .mctp 0x03 m.data s) s
  | 2 => Outcome.state (execLoaderData .mctp 0x03 m.data s) s
  | 3 => Outcome.state (execLoaderEnd .mctp 0x03 s) s
  | 4 => Outcome.state (execLoaderAbort .mctp 0x03 s) s
  | 5 => Outcome.state (execSvnCommit .mctp 0x03 s) s
  | 6 => Outcome.state (execEnroll .mctp 0x03 m.data s) s
  | 7 => Outcome.state (execRevoke .mctp 0x03 m.data s) s
  | _ => s

/-- MCTP_LOADER (R127, R71, R100): answered with the command's outcome; while a command runs, and for no command of the
table, with REFUSED_STATE. -/
def execMctpLoader (m : MctpMsg) (s : State) : Out :=
  .next <| s.mctp m 3 true fun s =>
    if m.head.gen.toNat < (s.genRecord 0x03).toNat then
      s.stale ⟨0x03, m.head.gen, 0x380, m.head.address⟩ (some (.mctp m.head))
    else
      let s1 := s.raiseGen 0x03 m.head.gen
      if s1.loader.run.isSome then s1.mctpReply m .refusedState []
      else
        let s2 := s1.loaderMessage m
        match s2.loader.run with
        | some r => s2.mctpReply m r.outcome []
        | none => s2.mctpReply m .refusedState []

/-- ALMANAC_READ (R432): readable in every boot state. -/
def execAlmanacRead (m : MctpMsg) (s : State) : Out :=
  .next <|
    let first := bits m.head.address 0 16
    let count := bits m.head.address 16 8
    let ok := m.data.isEmpty && decide (first ≤ 4095 ∧ 1 ≤ count ∧ count ≤ 64) && decide (bits m.head.address 24 40 = 0)
    s.mctp m 4 ok fun s =>
      s.mctpReply m .done ((List.range (min count (4096 - first))).map fun i => s.almSlotBytes (first + i)).flatten

/-- MCTP_DOE (R127): the data is the object's type and its request. -/
def execMctpDoe (m : MctpMsg) (s : State) : Out :=
  .next <| s.mctp m 5 true fun s =>
    let (r, t) := s.doe (ldNat m.data 0 1) (m.data.drop 1)
    t.mctpReply m r.1 r.2

end Sys2Proof.Machine
end

