-- ==== Sys2Proof/Machine/LoadStoreSync.lean ====
section
/-! DEFINITION. The families of load, store and sync slot commands (07 R162 to R168, R173 to R176). -/

namespace Sys2Proof.Machine

def loadBundle (o : MemOp) : Bundle := { emptyBundle with load := o }
def storeBundle (o : MemOp) : Bundle := { emptyBundle with store := o }
def syncBundle (o : SyncOp) : Bundle := { emptyBundle with sync := o }

/-- LOAD_NOP (R162). -/
def execLoadNop (c : CoreId) (s : State) : Out := .next (s.single c true (loadBundle .nop))

/-- STORE_NOP (R162). -/
def execStoreNop (c : CoreId) (s : State) : Out := .next (s.single c true (storeBundle .nop))

/-- LDQ (R162). -/
def execLdq (c : CoreId) (x : LqArgs) (s : State) : Out :=
  .next (s.single c (memOpOk false (.one x)) (loadBundle (.one x)))

/-- LDQ2 (R162). -/
def execLdq2 (c : CoreId) (x : Lq2Args) (s : State) : Out :=
  .next (s.single c (memOpOk false (.two x)) (loadBundle (.two x)))

/-- GET (R166). -/
def execGet (c : CoreId) (x : XferArgs) (s : State) : Out :=
  .next (s.single c (memOpOk false (.bulk x)) (loadBundle (.bulk x)))

/-- STQ (R162). -/
def execStq (c : CoreId) (x : LqArgs) (s : State) : Out :=
  .next (s.single c (memOpOk true (.one x)) (storeBundle (.one x)))

/-- STQ2 (R162). -/
def execStq2 (c : CoreId) (x : Lq2Args) (s : State) : Out :=
  .next (s.single c (memOpOk true (.two x)) (storeBundle (.two x)))

/-- PUT (R166). -/
def execPut (c : CoreId) (x : XferArgs) (s : State) : Out :=
  .next (s.single c (memOpOk true (.bulk x)) (storeBundle (.bulk x)))

/-- SYNC_NONE (R174). -/
def execSyncNone (c : CoreId) (s : State) : Out := .next (s.single c true (syncBundle .none))

/-- CSET (R174). -/
def execCset (c : CoreId) (n : CtrId) (imm : W32) (s : State) : Out := .next (s.single c true (syncBundle (.cset n imm)))

/-- CADD (R174). -/
def execCadd (c : CoreId) (n : CtrId) (imm : W32) (s : State) : Out := .next (s.single c true (syncBundle (.cadd n imm)))

/-- WAITC (R173). -/
def execWaitc (c : CoreId) (n : CtrId) (imm : W32) (s : State) : Out := .next (s.singleWait c (.waitc n imm))

/-- WAITQP (R174). -/
def execWaitqp (c : CoreId) (q : QId) (k : BitVec 4) (s : State) : Out := .next (s.singleWait c (.waitqp q k))

/-- WAITQR (R174). -/
def execWaitqr (c : CoreId) (q : QId) (k : BitVec 4) (s : State) : Out := .next (s.singleWait c (.waitqr q k))

/-- Does a barrier's mask include the driving sequencer, and only sequencers of the partition (R176)? -/
def State.barrierOk (s : State) (c : CoreId) (mask : W16) : Bool :=
  match s.driverOf c, s.coreHolder c with
  | some n, some p =>
    mask.toNat.testBit n.val && (allFin 16).all fun m => !mask.toNat.testBit m.val || s.parts[p].im.img.seqs.contains m
  | _, _ => false

/-- BARRIER (R176). -/
def execBarrier (c : CoreId) (id : BitVec 4) (mask : W16) (s : State) : Out :=
  .next (if s.barrierOk c mask then s.singleWait c (.barrier id mask) else s)

/-- SIGNAL (R174). -/
def execSignal (c : CoreId) (kd kt : Reg4) (n : CtrId) (s : State) : Out :=
  .next (s.single c true (syncBundle (.signal kd kt n)))

/-- RAISE (R174). -/
def execRaise (c : CoreId) (v : BitVec 6) (s : State) : Out :=
  .next (s.single c (syncOk (.raise v)) (syncBundle (.raise v)))

/-- TRANSFER_COMPLETE (R169). -/
def execTransferComplete (id : Nat) (s : State) : Out := .next (s.completeXfer id)

end Sys2Proof.Machine
end

