-- ==== Sys2Proof/Machine/Matrix.lean ====
section
/-! DEFINITION. The family of matrix slot commands (08 R185 to R193, 09 R206 to R217): each is the issue of one operation. -/

namespace Sys2Proof.Machine

/-- A bundle of one matrix operation. -/
def matrixBundle (o : MatOp) (x : MArgs) : Bundle := { emptyBundle with matrix := (o, x) }

/-- Matrix operands that are an immediate alone. -/
def immMArgs (imm : W32) : MArgs := { noMArgs with imm := imm }

/-- MATRIX_NOP (R186). -/
def execMatrixNop (c : CoreId) (s : State) : Out := .next (s.single c true (matrixBundle .nop noMArgs))

/-- MCFG (R191, R214). -/
def execMcfg (c : CoreId) (imm : W32) (s : State) : Out :=
  .next (s.single c (matrixOk .mcfg (immMArgs imm)) (matrixBundle .mcfg (immMArgs imm)))

/-- MSEED (R217). -/
def execMseed (c : CoreId) (imm : W32) (s : State) : Out :=
  .next (s.single c (matrixOk .mseed (immMArgs imm)) (matrixBundle .mseed (immMArgs imm)))

/-- MSWAP (R207). -/
def execMswap (c : CoreId) (s : State) : Out := .next (s.single c true (matrixBundle .mswap noMArgs))

/-- MFLUSH (R215). -/
def execMflush (c : CoreId) (s : State) : Out := .next (s.single c true (matrixBundle .mflush noMArgs))

/-- MLOADW (R188). -/
def execMloadw (c : CoreId) (x : MArgs) (s : State) : Out :=
  .next (s.single c (matrixOk .mloadw x) (matrixBundle .mloadw x))

/-- MLOADS (R192). -/
def execMloads (c : CoreId) (x : MArgs) (s : State) : Out :=
  .next (s.single c (matrixOk .mloads x) (matrixBundle .mloads x))

/-- MMUL (R206). -/
def execMmul (c : CoreId) (x : MArgs) (s : State) : Out :=
  .next (s.single c (matrixOk .mmul x) (matrixBundle .mmul x))

/-- MMULT (R208). -/
def execMmult (c : CoreId) (x : MArgs) (s : State) : Out :=
  .next (s.single c (matrixOk .mmult x) (matrixBundle .mmult x))

/-- MEW (R193, R209). -/
def execMew (c : CoreId) (x : MArgs) (s : State) : Out :=
  .next (s.single c (matrixOk .mew x) (matrixBundle .mew x))

end Sys2Proof.Machine
end

