-- ==== Sys2Proof/Machine/Meter.lean ====
section
/-! DEFINITION. The metering interval (04 R106, R107): the energy of each source divided among the partitions, the
device account taking what is left. -/

namespace Sys2Proof.Machine

/-- Activity of a partition on a unit in the interval; 16 stands for traffic of no partition. -/
def State.actOf (s : State) (unit p : Nat) : Nat := Sparse.getD s.acts (unit * 32 + p) 0

/-- All activity on a unit. -/
def State.actAll (s : State) (unit : Nat) : Nat := (List.range 17).foldl (fun a p => a + s.actOf unit p) 0

/-- A part `w` of `total` of an energy; nothing where the whole is nothing. -/
def shareOf (energy w total : Nat) : Rat := if total = 0 then 0 else (energy : Rat) * w / total

/-- Wards of a mask in a field. -/
def wardsIn (mask : Nat) (f : FieldId) : Nat :=
  ((List.range 4).filter fun i => mask.testBit (4 * f.val + i)).length

/-- A partition's share of a field (R106): by beats, and by wards held for what the field drew in retention. -/
def State.fieldShare (s : State) (e : EnergyReading) (p : PartId) (f : FieldId) : Rat :=
  shareOf e.fields[f] (s.actOf f.val p.val) (s.actAll f.val) +
    shareOf e.fieldsRest[f] (wardsIn s.parts[p].im.img.wardMask f) (wardsIn s.fuses.map.toNat f)

/-- A partition's share of a well: by bytes moved, and by capacity for refresh. -/
def State.wellShare (s : State) (e : EnergyReading) (p : PartId) (w : WellId) : Rat :=
  let i := s.parts[p].im.img
  shareOf e.wellsMove[w] (s.actOf (4 + w.val) p.val) (s.actAll (4 + w.val)) +
    shareOf e.wellsIdle[w] (if i.wellMask.testBit w.val then i.share2g else 0) 32

/-- A partition's share of a Pump and its quarter: by parameters and bytes, and by Cistern allocation. -/
def State.pumpShare (s : State) (e : EnergyReading) (p : PartId) (u : PumpId) : Rat :=
  shareOf e.pumpsMove[u] (s.actOf (16 + u.val) p.val) (s.actAll (16 + u.val)) +
    shareOf e.pumpsIdle[u] s.parts[p].im.img.cisZ[u] 64

/-- A partition's share of a port: by bytes injected, and by its port shares. -/
def State.portEnergy (s : State) (e : EnergyReading) (p : PartId) (n : PortId) : Rat :=
  let i := s.parts[p].im.img
  let w := (allFin 3).foldl (fun a c => a + i.portShare[3 * n.val + c.val]'(by omega)) 0
  shareOf e.portsMove[n] (s.actOf (20 + n.val) p.val) (s.actAll (20 + n.val)) + shareOf e.portsIdle[n] w 768

/-- A sum over units. -/
def sumFin {n : Nat} (f : Fin n → Rat) : Rat := (allFin n).foldl (fun a i => a + f i) 0

/-- What R106 attributes to a partition before conversion losses. -/
def State.attributed (s : State) (e : EnergyReading) (p : PartId) : Rat :=
  sumFin (s.fieldShare e p) + sumFin (s.wellShare e p) + sumFin (s.pumpShare e p) + sumFin (s.portEnergy e p) +
    shareOf e.host (s.actOf 26 p.val) (s.actAll 26)

/-- All the energy read behind the converters. -/
def energyDelivered (e : EnergyReading) : Nat :=
  let sum {n : Nat} (v : Vector Nat n) : Nat := v.toList.foldl (· + ·) 0
  sum e.fields + sum e.fieldsRest + sum e.wellsMove + sum e.wellsIdle + sum e.pumpsMove + sum e.pumpsIdle + sum e.portsMove + sum e.portsIdle +
    e.host + e.device

/-- A partition's energy of the interval, in whole microjoules: its part of the input energy, so that conversion losses
fall in proportion to what each account is attributed (R106). -/
def State.partEnergy (s : State) (e : EnergyReading) (p : PartId) : Nat :=
  if s.parts[p].meter.metered ∧ energyDelivered e ≠ 0 then (s.attributed e p * e.input / energyDelivered e).floor.toNat else 0

/-- Energy given to accounts in order, each at most what is left of it; and the rest. -/
def allot (f : PartId → Nat) : List PartId → Nat → List (PartId × Nat) × Nat
  | [], r => ([], r)
  | p :: l, r =>
    let x := min (f p) r
    let (a, b) := allot f l (r - x)
    ((p, x) :: a, b)

/-- METER_INTERVAL (R106, R107): the accounts add up to the input energy, remainders in the device account. -/
def execMeterInterval (e : EnergyReading) (s : State) : Out :=
  .next <|
    let (l, rest) := allot (s.partEnergy e) (allFin 16) e.input
    let s1 := s.over l fun t x => t.meter x.1 mEnergy x.2
    { s1 with devEnergy := s1.devEnergy + rest, acts := [] }

end Sys2Proof.Machine
end

