-- ==== Sys2Proof/Machine/Scalar.lean ====
section
/-! DEFINITION. The family of scalar slot commands (07 R159, R160, R167, R168): each is the issue of one operation. -/

namespace Sys2Proof.Machine

/-- A bundle of one scalar operation. -/
def scalarBundle (o : ScalarOp) (x : SArgs) : Bundle := { emptyBundle with scalar := (o, x) }

/-- SCALAR_NOP (R159). -/
def execScalarNop (c : CoreId) (s : State) : Out := .next (s.single c true (scalarBundle .nop noSArgs))

/-- MOVI (R159). -/
def execMovi (c : CoreId) (x : SArgs) (s : State) : Out :=
  .next (s.single c (scalarOk .movi x) (scalarBundle .movi x))

/-- MOVHI (R159). -/
def execMovhi (c : CoreId) (x : SArgs) (s : State) : Out :=
  .next (s.single c (scalarOk .movhi x) (scalarBundle .movhi x))

/-- ADD (R159). -/
def execAdd (c : CoreId) (x : SArgs) (s : State) : Out :=
  .next (s.single c (scalarOk .add x) (scalarBundle .add x))

/-- SUB (R159). -/
def execSub (c : CoreId) (x : SArgs) (s : State) : Out :=
  .next (s.single c (scalarOk .sub x) (scalarBundle .sub x))

/-- AND (R159). -/
def execAnd (c : CoreId) (x : SArgs) (s : State) : Out :=
  .next (s.single c (scalarOk .and x) (scalarBundle .and x))

/-- OR (R159). -/
def execOr (c : CoreId) (x : SArgs) (s : State) : Out :=
  .next (s.single c (scalarOk .or x) (scalarBundle .or x))

/-- XOR (R159). -/
def execXor (c : CoreId) (x : SArgs) (s : State) : Out :=
  .next (s.single c (scalarOk .xor x) (scalarBundle .xor x))

/-- SHL (R159). -/
def execShl (c : CoreId) (x : SArgs) (s : State) : Out :=
  .next (s.single c (scalarOk .shl x) (scalarBundle .shl x))

/-- SHR (R159). -/
def execShr (c : CoreId) (x : SArgs) (s : State) : Out :=
  .next (s.single c (scalarOk .shr x) (scalarBundle .shr x))

/-- SAR (R159). -/
def execSar (c : CoreId) (x : SArgs) (s : State) : Out :=
  .next (s.single c (scalarOk .sar x) (scalarBundle .sar x))

/-- MUL (R159). -/
def execMul (c : CoreId) (x : SArgs) (s : State) : Out :=
  .next (s.single c (scalarOk .mul x) (scalarBundle .mul x))

/-- AGSET (R160). -/
def execAgset (c : CoreId) (x : SArgs) (s : State) : Out :=
  .next (s.single c (scalarOk .agset x) (scalarBundle .agset x))

/-- AGRST (R160). -/
def execAgrst (c : CoreId) (x : SArgs) (s : State) : Out :=
  .next (s.single c (scalarOk .agrst x) (scalarBundle .agrst x))

/-- AGGET (R159). -/
def execAgget (c : CoreId) (x : SArgs) (s : State) : Out :=
  .next (s.single c (scalarOk .agget x) (scalarBundle .agget x))

/-- RDBEATS (R159). -/
def execRdbeats (c : CoreId) (x : SArgs) (s : State) : Out :=
  .next (s.single c (scalarOk .rdbeats x) (scalarBundle .rdbeats x))

/-- RDTIME (R159). -/
def execRdtime (c : CoreId) (x : SArgs) (s : State) : Out :=
  .next (s.single c (scalarOk .rdtime x) (scalarBundle .rdtime x))

/-- XRING (R167). -/
def execXring (c : CoreId) (x : SArgs) (s : State) : Out :=
  .next (s.single c (scalarOk .xring x) (scalarBundle .xring x))

/-- XFREE (R168). -/
def execXfree (c : CoreId) (x : SArgs) (s : State) : Out :=
  .next (s.single c (scalarOk .xfree x) (scalarBundle .xfree x))

end Sys2Proof.Machine
end

