-- ==== Sys2Proof/Machine/Vector.lean ====
section
/-! DEFINITION. The family of vector slot commands (08 R194 to R203, R230, R435): each is the issue of one operation. -/

namespace Sys2Proof.Machine

/-- A bundle of one vector operation. -/
def vectorBundle (o : VecOp) (x : VArgs) : Bundle := { emptyBundle with vector := (o, x) }

/-- VECTOR_NOP (R195). -/
def execVectorNop (c : CoreId) (s : State) : Out := .next (s.single c true (vectorBundle .nop noVArgs))

/-- VMOV (R195). -/
def execVmov (c : CoreId) (x : VArgs) (s : State) : Out :=
  .next (s.single c (vectorOk .mov x) (vectorBundle .mov x))

/-- VADD (R195). -/
def execVadd (c : CoreId) (x : VArgs) (s : State) : Out :=
  .next (s.single c (vectorOk .add x) (vectorBundle .add x))

/-- VSUB (R195). -/
def execVsub (c : CoreId) (x : VArgs) (s : State) : Out :=
  .next (s.single c (vectorOk .sub x) (vectorBundle .sub x))

/-- VMUL (R195). -/
def execVmul (c : CoreId) (x : VArgs) (s : State) : Out :=
  .next (s.single c (vectorOk .mul x) (vectorBundle .mul x))

/-- VFMA (R195). -/
def execVfma (c : CoreId) (x : VArgs) (s : State) : Out :=
  .next (s.single c (vectorOk .fma x) (vectorBundle .fma x))

/-- VMIN (R195). -/
def execVmin (c : CoreId) (x : VArgs) (s : State) : Out :=
  .next (s.single c (vectorOk .min x) (vectorBundle .min x))

/-- VMAX (R195). -/
def execVmax (c : CoreId) (x : VArgs) (s : State) : Out :=
  .next (s.single c (vectorOk .max x) (vectorBundle .max x))

/-- VABS (R195). -/
def execVabs (c : CoreId) (x : VArgs) (s : State) : Out :=
  .next (s.single c (vectorOk .abs x) (vectorBundle .abs x))

/-- VNEG (R195). -/
def execVneg (c : CoreId) (x : VArgs) (s : State) : Out :=
  .next (s.single c (vectorOk .neg x) (vectorBundle .neg x))

/-- VCMP (R195). -/
def execVcmp (c : CoreId) (x : VArgs) (s : State) : Out :=
  .next (s.single c (vectorOk .cmp x) (vectorBundle .cmp x))

/-- VSEL (R195). -/
def execVsel (c : CoreId) (x : VArgs) (s : State) : Out :=
  .next (s.single c (vectorOk .sel x) (vectorBundle .sel x))

/-- VAND (R195). -/
def execVand (c : CoreId) (x : VArgs) (s : State) : Out :=
  .next (s.single c (vectorOk .and x) (vectorBundle .and x))

/-- VOR (R195). -/
def execVor (c : CoreId) (x : VArgs) (s : State) : Out :=
  .next (s.single c (vectorOk .or x) (vectorBundle .or x))

/-- VXOR (R195). -/
def execVxor (c : CoreId) (x : VArgs) (s : State) : Out :=
  .next (s.single c (vectorOk .xor x) (vectorBundle .xor x))

/-- VSHL (R195). -/
def execVshl (c : CoreId) (x : VArgs) (s : State) : Out :=
  .next (s.single c (vectorOk .shl x) (vectorBundle .shl x))

/-- VSHR (R195). -/
def execVshr (c : CoreId) (x : VArgs) (s : State) : Out :=
  .next (s.single c (vectorOk .shr x) (vectorBundle .shr x))

/-- VEXP2 (R237, R435). -/
def execVexp2 (c : CoreId) (x : VArgs) (s : State) : Out :=
  .next (s.single c (vectorOk (.func 0) x) (vectorBundle (.func 0) x))

/-- VLOG2 (R237, R435). -/
def execVlog2 (c : CoreId) (x : VArgs) (s : State) : Out :=
  .next (s.single c (vectorOk (.func 1) x) (vectorBundle (.func 1) x))

/-- VRCP (R237, R435). -/
def execVrcp (c : CoreId) (x : VArgs) (s : State) : Out :=
  .next (s.single c (vectorOk (.func 2) x) (vectorBundle (.func 2) x))

/-- VRSQRT (R237, R435). -/
def execVrsqrt (c : CoreId) (x : VArgs) (s : State) : Out :=
  .next (s.single c (vectorOk (.func 3) x) (vectorBundle (.func 3) x))

/-- VSQRT (R237, R435). -/
def execVsqrt (c : CoreId) (x : VArgs) (s : State) : Out :=
  .next (s.single c (vectorOk (.func 4) x) (vectorBundle (.func 4) x))

/-- VTANH (R237, R435). -/
def execVtanh (c : CoreId) (x : VArgs) (s : State) : Out :=
  .next (s.single c (vectorOk (.func 5) x) (vectorBundle (.func 5) x))

/-- VSIGM (R237, R435). -/
def execVsigm (c : CoreId) (x : VArgs) (s : State) : Out :=
  .next (s.single c (vectorOk (.func 6) x) (vectorBundle (.func 6) x))

/-- CVT (R197). -/
def execCvt (c : CoreId) (x : VArgs) (s : State) : Out :=
  .next (s.single c (vectorOk .cvt x) (vectorBundle .cvt x))

/-- QUANT (R198). -/
def execQuant (c : CoreId) (x : VArgs) (s : State) : Out :=
  .next (s.single c (vectorOk .quant x) (vectorBundle .quant x))

/-- AMAX (R199). -/
def execAmax (c : CoreId) (x : VArgs) (s : State) : Out :=
  .next (s.single c (vectorOk .amax x) (vectorBundle .amax x))

/-- AMAXRD (R199). -/
def execAmaxrd (c : CoreId) (x : VArgs) (s : State) : Out :=
  .next (s.single c (vectorOk .amaxrd x) (vectorBundle .amaxrd x))

/-- RSUM (R200). -/
def execRsum (c : CoreId) (x : VArgs) (s : State) : Out :=
  .next (s.single c (vectorOk .rsum x) (vectorBundle .rsum x))

/-- RMAX (R200). -/
def execRmax (c : CoreId) (x : VArgs) (s : State) : Out :=
  .next (s.single c (vectorOk .rmax x) (vectorBundle .rmax x))

/-- TOPK (R201). -/
def execTopk (c : CoreId) (x : VArgs) (s : State) : Out :=
  .next (s.single c (vectorOk .topk x) (vectorBundle .topk x))

/-- VUPDM (R202). -/
def execVupdm (c : CoreId) (x : VArgs) (s : State) : Out :=
  .next (s.single c (vectorOk .updm x) (vectorBundle .updm x))

/-- VUPDV (R202). -/
def execVupdv (c : CoreId) (x : VArgs) (s : State) : Out :=
  .next (s.single c (vectorOk .updv x) (vectorBundle .updv x))

/-- VUPDW (R202). -/
def execVupdw (c : CoreId) (x : VArgs) (s : State) : Out :=
  .next (s.single c (vectorOk .updw x) (vectorBundle .updw x))

/-- VCOEF (R202). -/
def execVcoef (c : CoreId) (x : VArgs) (s : State) : Out :=
  .next (s.single c (vectorOk .coef x) (vectorBundle .coef x))

/-- VGATE (R202). -/
def execVgate (c : CoreId) (x : VArgs) (s : State) : Out :=
  .next (s.single c (vectorOk .gate x) (vectorBundle .gate x))

/-- VSTORM_COUNT (R203): mode 0 of VSTORM. -/
def execVstormCount (c : CoreId) (x : VArgs) (s : State) : Out :=
  .next (s.single c (vectorOk .storm x && bits x.imm 0 2 == 0) (vectorBundle .storm x))

/-- VSTORM_LOSS (R203): mode 1 of VSTORM. -/
def execVstormLoss (c : CoreId) (x : VArgs) (s : State) : Out :=
  .next (s.single c (vectorOk .storm x && bits x.imm 0 2 == 1) (vectorBundle .storm x))

/-- VSTORM_CLOSE (R203): mode 2 of VSTORM. -/
def execVstormClose (c : CoreId) (x : VArgs) (s : State) : Out :=
  .next (s.single c (vectorOk .storm x && bits x.imm 0 2 == 2) (vectorBundle .storm x))

/-- VSEED (R230). -/
def execVseed (c : CoreId) (imm : W32) (s : State) : Out :=
  .next (s.single c true (vectorBundle .seed { noVArgs with imm := imm }))

end Sys2Proof.Machine
end

