-- ==== Sys2Proof/Machine/Dispatch.lean ====
section
/-! DEFINITION. The dispatch: one arm per command, each one direct call of its meaning. -/

namespace Sys2Proof.Machine

open Host

def exec (i : Instr) (s : State) : Host.Outcome State Fault Refusal :=
  match i with
  | .p54vWithinRange => Sys2Proof.Machine.execP54vWithinRange s
  | .stewardRomResetExit levels => Sys2Proof.Machine.execStewardRomResetExit levels s
  | .pwrEnRise atNs => Sys2Proof.Machine.execPwrEnRise atNs s
  | .pwrEnFall => Sys2Proof.Machine.execPwrEnFall s
  | .railsInRegulation => Sys2Proof.Machine.execRailsInRegulation s
  | .pwrBrakeAssert => Sys2Proof.Machine.execPwrBrakeAssert s
  | .pwrBrakeRelease => Sys2Proof.Machine.execPwrBrakeRelease s
  | .undervoltage mv => Sys2Proof.Machine.execUndervoltage mv s
  | .inputCollapse mv => Sys2Proof.Machine.execInputCollapse mv s
  | .lossOfP54v => Sys2Proof.Machine.execLossOfP54v s
  | .thermalWarning x tempC => Sys2Proof.Machine.execThermalWarning x tempC s
  | .thermalTrip x tempC => Sys2Proof.Machine.execThermalTrip x tempC s
  | .governorRun inputW atNs => Sys2Proof.Machine.execGovernorRun inputW atNs s
  | .fieldStatusUpdate f junctionC rateMbeat => Sys2Proof.Machine.execFieldStatusUpdate f junctionC rateMbeat s
  | .wellTempReadout w tempC => Sys2Proof.Machine.execWellTempReadout w tempC s
  | .stwPowerCapWrite capW => Sys2Proof.Machine.execStwPowerCapWrite capW s
  | .controlEpochEnd n => Sys2Proof.Machine.execControlEpochEnd n s
  | .registerWrite w => Sys2Proof.Machine.execRegisterWrite w s
  | .absentWindowWrite offset => Sys2Proof.Machine.execAbsentWindowWrite offset s
  | .w1cFlagClear r mask n => Sys2Proof.Machine.execW1cFlagClear r mask n s
  | .flagsClrCounts r n => Sys2Proof.Machine.execFlagsClrCounts r n s
  | .lullEntry p depth atNs => Sys2Proof.Machine.execLullEntry p depth atNs s
  | .lull3Entry atNs => Sys2Proof.Machine.execLull3Entry atNs s
  | .wakeEvent p cause => Sys2Proof.Machine.execWakeEvent p cause s
  | .cadencePrewake n atNs => Sys2Proof.Machine.execCadencePrewake n atNs s
  | .lulWakeBudgetWrite p budgetNs => Sys2Proof.Machine.execLulWakeBudgetWrite p budgetNs s
  | .portUnpark n => Sys2Proof.Machine.execPortUnpark n s
  | .bootVerify => Sys2Proof.Machine.execBootVerify s
  | .bootStructure => Sys2Proof.Machine.execBootStructure s
  | .bootFill => Sys2Proof.Machine.execBootFill s
  | .fillComplete => Sys2Proof.Machine.execFillComplete s
  | .loaderBegin src master data => Sys2Proof.Machine.execLoaderBegin src master data s
  | .loaderData src master data => Sys2Proof.Machine.execLoaderData src master data s
  | .loaderEnd src master => Sys2Proof.Machine.execLoaderEnd src master s
  | .loaderAbort src master => Sys2Proof.Machine.execLoaderAbort src master s
  | .loaderSessionTimeout atNs => Sys2Proof.Machine.execLoaderSessionTimeout atNs s
  | .svnCommit src master => Sys2Proof.Machine.execSvnCommit src master s
  | .enroll src master data => Sys2Proof.Machine.execEnroll src master data s
  | .revoke src master data => Sys2Proof.Machine.execRevoke src master data s
  | .stage p => Sys2Proof.Machine.execStage p s
  | .stageChecks p => Sys2Proof.Machine.execStageChecks p s
  | .commit p => Sys2Proof.Machine.execCommit p s
  | .commitFillDone p => Sys2Proof.Machine.execCommitFillDone p s
  | .discard p => Sys2Proof.Machine.execDiscard p s
  | .start p => Sys2Proof.Machine.execStart p s
  | .quiesce p => Sys2Proof.Machine.execQuiesce p s
  | .quiesceComplete p => Sys2Proof.Machine.execQuiesceComplete p s
  | .quiesceTimeout p atNs => Sys2Proof.Machine.execQuiesceTimeout p atNs s
  | .resume p => Sys2Proof.Machine.execResume p s
  | .stop p => Sys2Proof.Machine.execStop p s
  | .stopComplete p => Sys2Proof.Machine.execStopComplete p s
  | .release p => Sys2Proof.Machine.execRelease p s
  | .stwPfGenWrite gen => Sys2Proof.Machine.execStwPfGenWrite gen s
  | .prtDrvGenWrite p gen => Sys2Proof.Machine.execPrtDrvGenWrite p gen s
  | .meterInterval e => Sys2Proof.Machine.execMeterInterval e s
  | .usageRecordPeriodic p atNs => Sys2Proof.Machine.execUsageRecordPeriodic p atNs s
  | .snap p => Sys2Proof.Machine.execSnap p s
  | .pcieLinkTrain width atNs => Sys2Proof.Machine.execPcieLinkTrain width atNs s
  | .perstAssert => Sys2Proof.Machine.execPerstAssert s
  | .perstRelease atNs => Sys2Proof.Machine.execPerstRelease atNs s
  | .hotReset => Sys2Proof.Machine.execHotReset s
  | .pfFlr => Sys2Proof.Machine.execPfFlr s
  | .vfFlr p => Sys2Proof.Machine.execVfFlr p s
  | .stewardWatchdogExpiry checkpoint => Sys2Proof.Machine.execStewardWatchdogExpiry checkpoint s
  | .bar2Read x offset len => Sys2Proof.Machine.execBar2Read x offset len s
  | .bar2Write fn offset data poisoned => Sys2Proof.Machine.execBar2Write fn offset data poisoned s
  | .bar2BaseWrite fn x => Sys2Proof.Machine.execBar2BaseWrite fn x s
  | .hostReadTimeout x => Sys2Proof.Machine.execHostReadTimeout x s
  | .capsuleHeaderWrite p offset data => Sys2Proof.Machine.execCapsuleHeaderWrite p offset data s
  | .heldRecordFlush p => Sys2Proof.Machine.execHeldRecordFlush p s
  | .prtCqCtrlWrite p value => Sys2Proof.Machine.execPrtCqCtrlWrite p value s
  | .coalesceTimerExpiry p atNs => Sys2Proof.Machine.execCoalesceTimerExpiry p atNs s
  | .capsuleNop p => Sys2Proof.Machine.execCapsuleNop p s
  | .programLoad p => Sys2Proof.Machine.execProgramLoad p s
  | .programStart p => Sys2Proof.Machine.execProgramStart p s
  | .transfer p => Sys2Proof.Machine.execTransfer p s
  | .identity => Sys2Proof.Machine.execIdentity s
  | .measure nonce => Sys2Proof.Machine.execMeasure nonce s
  | .keyExchange pub => Sys2Proof.Machine.execKeyExchange pub s
  | .ideKeySet x wrapped => Sys2Proof.Machine.execIdeKeySet x wrapped s
  | .mctpRegRead m => Sys2Proof.Machine.execMctpRegRead m s
  | .mctpRegWrite m => Sys2Proof.Machine.execMctpRegWrite m s
  | .mctpLoader m => Sys2Proof.Machine.execMctpLoader m s
  | .almanacRead m => Sys2Proof.Machine.execAlmanacRead m s
  | .mctpDoe m => Sys2Proof.Machine.execMctpDoe m s
  | .sequencerFetch x => Sys2Proof.Machine.execSequencerFetch x s
  | .bundleIssue c => Sys2Proof.Machine.execBundleIssue c s
  | .faultCollect p => Sys2Proof.Machine.execFaultCollect p s
  | .operationResultWrite c => Sys2Proof.Machine.execOperationResultWrite c s
  | .programHaltComplete n => Sys2Proof.Machine.execProgramHaltComplete n s
  | .crossCoreMove c q => Sys2Proof.Machine.execCrossCoreMove c q s
  | .seqRegionWrite n split => Sys2Proof.Machine.execSeqRegionWrite n split s
  | .scalarNop c => Sys2Proof.Machine.execScalarNop c s
  | .movi c x => Sys2Proof.Machine.execMovi c x s
  | .movhi c x => Sys2Proof.Machine.execMovhi c x s
  | .add c x => Sys2Proof.Machine.execAdd c x s
  | .sub c x => Sys2Proof.Machine.execSub c x s
  | .and c x => Sys2Proof.Machine.execAnd c x s
  | .or c x => Sys2Proof.Machine.execOr c x s
  | .xor c x => Sys2Proof.Machine.execXor c x s
  | .shl c x => Sys2Proof.Machine.execShl c x s
  | .shr c x => Sys2Proof.Machine.execShr c x s
  | .sar c x => Sys2Proof.Machine.execSar c x s
  | .mul c x => Sys2Proof.Machine.execMul c x s
  | .agset c x => Sys2Proof.Machine.execAgset c x s
  | .agrst c x => Sys2Proof.Machine.execAgrst c x s
  | .agget c x => Sys2Proof.Machine.execAgget c x s
  | .rdbeats c x => Sys2Proof.Machine.execRdbeats c x s
  | .rdtime c x => Sys2Proof.Machine.execRdtime c x s
  | .xring c x => Sys2Proof.Machine.execXring c x s
  | .xfree c x => Sys2Proof.Machine.execXfree c x s
  | .loadNop c => Sys2Proof.Machine.execLoadNop c s
  | .storeNop c => Sys2Proof.Machine.execStoreNop c s
  | .ldq c x => Sys2Proof.Machine.execLdq c x s
  | .ldq2 c x => Sys2Proof.Machine.execLdq2 c x s
  | .get c x => Sys2Proof.Machine.execGet c x s
  | .stq c x => Sys2Proof.Machine.execStq c x s
  | .stq2 c x => Sys2Proof.Machine.execStq2 c x s
  | .put c x => Sys2Proof.Machine.execPut c x s
  | .transferComplete id => Sys2Proof.Machine.execTransferComplete id s
  | .syncNone c => Sys2Proof.Machine.execSyncNone c s
  | .cset c n imm => Sys2Proof.Machine.execCset c n imm s
  | .cadd c n imm => Sys2Proof.Machine.execCadd c n imm s
  | .waitc c n imm => Sys2Proof.Machine.execWaitc c n imm s
  | .waitqp c q k => Sys2Proof.Machine.execWaitqp c q k s
  | .waitqr c q k => Sys2Proof.Machine.execWaitqr c q k s
  | .waitRelease c => Sys2Proof.Machine.execWaitRelease c s
  | .barrier c id mask => Sys2Proof.Machine.execBarrier c id mask s
  | .barrierRelease c => Sys2Proof.Machine.execBarrierRelease c s
  | .signal c kd kt n => Sys2Proof.Machine.execSignal c kd kt n s
  | .raise c v => Sys2Proof.Machine.execRaise c v s
  | .programLimitExpiry p atNs => Sys2Proof.Machine.execProgramLimitExpiry p atNs s
  | .cadenceArm n periodNs entry epoch => Sys2Proof.Machine.execCadenceArm n periodNs entry epoch s
  | .cadenceDisarm n => Sys2Proof.Machine.execCadenceDisarm n s
  | .cadenceTick n atNs => Sys2Proof.Machine.execCadenceTick n atNs s
  | .matrixNop c => Sys2Proof.Machine.execMatrixNop c s
  | .mcfg c imm => Sys2Proof.Machine.execMcfg c imm s
  | .mseed c imm => Sys2Proof.Machine.execMseed c imm s
  | .mloadw c x => Sys2Proof.Machine.execMloadw c x s
  | .mloads c x => Sys2Proof.Machine.execMloads c x s
  | .mswap c => Sys2Proof.Machine.execMswap c s
  | .mmul c x => Sys2Proof.Machine.execMmul c x s
  | .mmult c x => Sys2Proof.Machine.execMmult c x s
  | .mew c x => Sys2Proof.Machine.execMew c x s
  | .mflush c => Sys2Proof.Machine.execMflush c s
  | .matrixDrain c => Sys2Proof.Machine.execMatrixDrain c s
  | .vectorNop c => Sys2Proof.Machine.execVectorNop c s
  | .vmov c x => Sys2Proof.Machine.execVmov c x s
  | .vadd c x => Sys2Proof.Machine.execVadd c x s
  | .vsub c x => Sys2Proof.Machine.execVsub c x s
  | .vmul c x => Sys2Proof.Machine.execVmul c x s
  | .vfma c x => Sys2Proof.Machine.execVfma c x s
  | .vmin c x => Sys2Proof.Machine.execVmin c x s
  | .vmax c x => Sys2Proof.Machine.execVmax c x s
  | .vabs c x => Sys2Proof.Machine.execVabs c x s
  | .vneg c x => Sys2Proof.Machine.execVneg c x s
  | .vcmp c x => Sys2Proof.Machine.execVcmp c x s
  | .vsel c x => Sys2Proof.Machine.execVsel c x s
  | .vand c x => Sys2Proof.Machine.execVand c x s
  | .vor c x => Sys2Proof.Machine.execVor c x s
  | .vxor c x => Sys2Proof.Machine.execVxor c x s
  | .vshl c x => Sys2Proof.Machine.execVshl c x s
  | .vshr c x => Sys2Proof.Machine.execVshr c x s
  | .vexp2 c x => Sys2Proof.Machine.execVexp2 c x s
  | .vlog2 c x => Sys2Proof.Machine.execVlog2 c x s
  | .vrcp c x => Sys2Proof.Machine.execVrcp c x s
  | .vrsqrt c x => Sys2Proof.Machine.execVrsqrt c x s
  | .vsqrt c x => Sys2Proof.Machine.execVsqrt c x s
  | .vtanh c x => Sys2Proof.Machine.execVtanh c x s
  | .vsigm c x => Sys2Proof.Machine.execVsigm c x s
  | .cvt c x => Sys2Proof.Machine.execCvt c x s
  | .quant c x => Sys2Proof.Machine.execQuant c x s
  | .amax c x => Sys2Proof.Machine.execAmax c x s
  | .amaxrd c x => Sys2Proof.Machine.execAmaxrd c x s
  | .rsum c x => Sys2Proof.Machine.execRsum c x s
  | .rmax c x => Sys2Proof.Machine.execRmax c x s
  | .topk c x => Sys2Proof.Machine.execTopk c x s
  | .vupdm c x => Sys2Proof.Machine.execVupdm c x s
  | .vupdv c x => Sys2Proof.Machine.execVupdv c x s
  | .vupdw c x => Sys2Proof.Machine.execVupdw c x s
  | .vcoef c x => Sys2Proof.Machine.execVcoef c x s
  | .vgate c x => Sys2Proof.Machine.execVgate c x s
  | .vstormCount c x => Sys2Proof.Machine.execVstormCount c x s
  | .vstormLoss c x => Sys2Proof.Machine.execVstormLoss c x s
  | .vstormClose c x => Sys2Proof.Machine.execVstormClose c x s
  | .vseed c imm => Sys2Proof.Machine.execVseed c imm s
  | .stormReportArrival c => Sys2Proof.Machine.execStormReportArrival c s
  | .stormCloseArrival c => Sys2Proof.Machine.execStormCloseArrival c s
  | .verdictDelivery p => Sys2Proof.Machine.execVerdictDelivery p s
  | .reopen p => Sys2Proof.Machine.execReopen p s
  | .protect p => Sys2Proof.Machine.execProtect p s
  | .setAverages p => Sys2Proof.Machine.execSetAverages p s
  | .wellRead w sector src errs onDie => Sys2Proof.Machine.execWellRead w sector src errs onDie s
  | .wellWrite w sector data poison => Sys2Proof.Machine.execWellWrite w sector data poison s
  | .memorySideAdd w sector op data poison ieee => Sys2Proof.Machine.execMemorySideAdd w sector op data poison ieee s
  | .patrolRead u errs => Sys2Proof.Machine.execPatrolRead u errs s
  | .remapAdd u sector => Sys2Proof.Machine.execRemapAdd u sector s
  | .remapClear u => Sys2Proof.Machine.execRemapClear u s
  | .quarantineAdd u page => Sys2Proof.Machine.execQuarantineAdd u page s
  | .quarantineRemove u page => Sys2Proof.Machine.execQuarantineRemove u page s
  | .flipArm u value atNs => Sys2Proof.Machine.execFlipArm u value atNs s
  | .flipArmExpiry u atNs => Sys2Proof.Machine.execFlipArmExpiry u atNs s
  | .takeOut u => Sys2Proof.Machine.execTakeOut u s
  | .unitReturn u => Sys2Proof.Machine.execUnitReturn u s
  | .unitReturnComplete u ok => Sys2Proof.Machine.execUnitReturnComplete u ok s
  | .wellDead w => Sys2Proof.Machine.execWellDead w s
  | .pumpDead p => Sys2Proof.Machine.execPumpDead p s
  | .fieldRailFault f => Sys2Proof.Machine.execFieldRailFault f s
  | .axisEngineDead a => Sys2Proof.Machine.execAxisEngineDead a s
  | .sluiceDead n => Sys2Proof.Machine.execSluiceDead n s
  | .linkTraining n info atNs => Sys2Proof.Machine.execLinkTraining n info atNs s
  | .laneLoss n bad => Sys2Proof.Machine.execLaneLoss n bad s
  | .lossOfLight n => Sys2Proof.Machine.execLossOfLight n s
  | .heartbeatTimer n atNs => Sys2Proof.Machine.execHeartbeatTimer n atNs s
  | .heartbeatMissLimit n atNs => Sys2Proof.Machine.execHeartbeatMissLimit n atNs s
  | .portDisable n disable => Sys2Proof.Machine.execPortDisable n disable s
  | .probationPass n atNs => Sys2Proof.Machine.execProbationPass n atNs s
  | .vcIdleTimeout n v => Sys2Proof.Machine.execVcIdleTimeout n v s
  | .blockReceive n burst sideband => Sys2Proof.Machine.execBlockReceive n burst sideband s
  | .linkControlFlit n sent freed bits => Sys2Proof.Machine.execLinkControlFlit n sent freed bits s
  | .abortFlit n v => Sys2Proof.Machine.execAbortFlit n v s
  | .packetForward n v k hcrc => Sys2Proof.Machine.execPacketForward n v k hcrc s
  | .tc0Inject n atNs => Sys2Proof.Machine.execTc0Inject n atNs s
  | .writePacket n k trailer => Sys2Proof.Machine.execWritePacket n k trailer s
  | .readReq n k trailer => Sys2Proof.Machine.execReadReq n k trailer s
  | .readData n k trailer => Sys2Proof.Machine.execReadData n k trailer s
  | .signalPacket n k trailer => Sys2Proof.Machine.execSignalPacket n k trailer s
  | .orderedPacketRelease src tc => Sys2Proof.Machine.execOrderedPacketRelease src tc s
  | .ackSend src tc => Sys2Proof.Machine.execAckSend src tc s
  | .ack n k trailer => Sys2Proof.Machine.execAck n k trailer s
  | .nak n k trailer => Sys2Proof.Machine.execNak n k trailer s
  | .resendTimer dst tc psn atNs => Sys2Proof.Machine.execResendTimer dst tc psn atNs s
  | .heartbeat n k trailer => Sys2Proof.Machine.execHeartbeat n k trailer s
  | .fmControlSend => Sys2Proof.Machine.execFmControlSend s
  | .controlPacket n k trailer => Sys2Proof.Machine.execControlPacket n k trailer s
  | .controlReply n k trailer => Sys2Proof.Machine.execControlReply n k trailer s
  | .fmInjectFence => Sys2Proof.Machine.execFmInjectFence s
  | .fmInjectEpochMark => Sys2Proof.Machine.execFmInjectEpochMark s
  | .fence n k trailer => Sys2Proof.Machine.execFence n k trailer s
  | .readmit n k trailer => Sys2Proof.Machine.execReadmit n k trailer s
  | .readmitApply chip atNs => Sys2Proof.Machine.execReadmitApply chip atNs s
  | .epochMark n k trailer => Sys2Proof.Machine.execEpochMark n k trailer s
  | .routingTableWrite epoch chip mask => Sys2Proof.Machine.execRoutingTableWrite epoch chip mask s
  | .reduceScatter p => Sys2Proof.Machine.execReduceScatter p s
  | .allGather p => Sys2Proof.Machine.execAllGather p s
  | .allReduce p => Sys2Proof.Machine.execAllReduce p s
  | .broadcast p => Sys2Proof.Machine.execBroadcast p s
  | .allToAll p => Sys2Proof.Machine.execAllToAll p s
  | .collectiveBarrier p => Sys2Proof.Machine.execCollectiveBarrier p s
  | .atomic p => Sys2Proof.Machine.execAtomic p s
  | .joinStart a p collId => Sys2Proof.Machine.execJoinStart a p collId s
  | .join n k trailer => Sys2Proof.Machine.execJoin n k trailer s
  | .joinTimeout a p collId atNs => Sys2Proof.Machine.execJoinTimeout a p collId atNs s
  | .collectiveData n k trailer => Sys2Proof.Machine.execCollectiveData n k trailer s
  | .collectiveAbandon n k trailer => Sys2Proof.Machine.execCollectiveAbandon n k trailer s
  | .atomicPacket n k trailer => Sys2Proof.Machine.execAtomicPacket n k trailer s
  | .place p => Sys2Proof.Machine.execPlace p s
  | .layer p => Sys2Proof.Machine.execLayer p s
  | .sluiceSendTrigger n layerId => Sys2Proof.Machine.execSluiceSendTrigger n layerId s
  | .dispatch n k trailer => Sys2Proof.Machine.execDispatch n k trailer s
  | .refuse n k trailer => Sys2Proof.Machine.execRefuse n k trailer s
  | .tokenEnd n k trailer => Sys2Proof.Machine.execTokenEnd n k trailer s
  | .sluiceReturnTrigger n layerId => Sys2Proof.Machine.execSluiceReturnTrigger n layerId s
  | .tokenReturn n k trailer => Sys2Proof.Machine.execTokenReturn n k trailer s
  | .tokenAbandon n k trailer => Sys2Proof.Machine.execTokenAbandon n k trailer s
  | .sluiceLimitExpiry n layerId atNs => Sys2Proof.Machine.execSluiceLimitExpiry n layerId atNs s
  | .groupTableWrite p => Sys2Proof.Machine.execGroupTableWrite p s
  | .groupTableRead p => Sys2Proof.Machine.execGroupTableRead p s
  | .freeze p => Sys2Proof.Machine.execFreeze p s
  | .thaw p => Sys2Proof.Machine.execThaw p s
  | .clearTorn p => Sys2Proof.Machine.execClearTorn p s
  | .update p => Sys2Proof.Machine.execUpdate p s
  | .claim p => Sys2Proof.Machine.execClaim p s
  | .settle p => Sys2Proof.Machine.execSettle p s
  | .pumpTrigger p cmd => Sys2Proof.Machine.execPumpTrigger p cmd s
  | .sweepStart u => Sys2Proof.Machine.execSweepStart u s
  | .sweepBlockDone u => Sys2Proof.Machine.execSweepBlockDone u s
  | .pumpLimitExpiry p cmd atNs => Sys2Proof.Machine.execPumpLimitExpiry p cmd atNs s
  | .pumpReset u => Sys2Proof.Machine.execPumpReset u s
  | .nextRecord p => Sys2Proof.Machine.execNextRecord p s
  | .nextWord p => Sys2Proof.Machine.execNextWord p s
  | .barometerEvaluation atNs => Sys2Proof.Machine.execBarometerEvaluation atNs s
  | .brmCfgWrite value => Sys2Proof.Machine.execBrmCfgWrite value s
  | .rxPower n => Sys2Proof.Machine.execRxPower n s
  | .canary f => Sys2Proof.Machine.execCanary f s
  | .droop f => Sys2Proof.Machine.execDroop f s
  | .linkProbe n seed => Sys2Proof.Machine.execLinkProbe n seed s
  | .eyeScan n lane => Sys2Proof.Machine.execEyeScan n lane s
  | .wellMargin w => Sys2Proof.Machine.execWellMargin w s
  | .cisMargin u => Sys2Proof.Machine.execCisMargin u s
  | .soundingComplete kind target results => Sys2Proof.Machine.execSoundingComplete kind target results s
  | .marginSoundingRun m => Sys2Proof.Machine.execMarginSoundingRun m s
  | .probe n k trailer => Sys2Proof.Machine.execProbe n k trailer s
  | .echo n k trailer => Sys2Proof.Machine.execEcho n k trailer s
  | .almanacWrite => Sys2Proof.Machine.execAlmanacWrite s
  | .undervoltageClear => Sys2Proof.Machine.execUndervoltageClear s
  | .wellInterfaceRetrain w ok => Sys2Proof.Machine.execWellInterfaceRetrain w ok s
  | .pumpLinkRetrain u ok => Sys2Proof.Machine.execPumpLinkRetrain u ok s
  | .pumpResetComplete u => Sys2Proof.Machine.execPumpResetComplete u s
  | .loaderCommandEnd => Sys2Proof.Machine.execLoaderCommandEnd s
  | .oldLockedClear atNs => Sys2Proof.Machine.execOldLockedClear atNs s
  | .hostErrorCompletion r => Sys2Proof.Machine.execHostErrorCompletion r s

end Sys2Proof.Machine
end

