-- ==== Sys2Proof/Machine/Idle.lean ====
section
/-! DEFINITION. What the block does when no command waits (log 1). -/

namespace Sys2Proof.Machine

/-- One tick of STW_TIME, 10 ns (R33), while the always-on domain runs. -/
def State.idle (s : State) : State := s.advanceTo (s.timeNs + 10)

end Sys2Proof.Machine
end

