-- ==== Sys2Proof/WellFormed.lean ====
section
/-! DEFINITION. Which commands are well formed: operands within what the rule of the row admits. A meaning is total
and answers for the others too; what the load checks of R155 turn away, no bundle can carry. -/

namespace Sys2Proof

open Sys2Proof.Machine

/-- An operation of the scalar slot in range (R155, R160, R168). -/
def scalarWf (o : ScalarOp) (x : SArgs) : Bool := scalarOk o x

/-- A vector slot in range (R155, R194, R197, R198, R201, R203). -/
def vectorWf (o : VecOp) (x : VArgs) : Bool := vectorOk o x

/-- A matrix slot in range (R155, R185). -/
def matrixWf (o : MatOp) (x : MArgs) : Bool := matrixOk o x

/-- A packet as the fabric carries it (R288): a class 0 to 3, and at most 4,096 bytes of payload behind 32 of head. -/
def packetWf (k : Packet) : Bool := decide (k.payload.length ≤ 4128)

/-- An MCTP message of a row (R127): in length, with the row's command or one that no row has. -/
def mctpWf (code : Byte) (m : MctpMsg) : Bool :=
  decide (m.data.length ≤ 4096) && (m.head.command == code || !decide (1 ≤ m.head.command.toNat ∧ m.head.command.toNat ≤ 5))

/-- The codeword bits of a sector (R265). -/
def bitsWf (l : List Nat) : Bool := l.all fun b => decide (b < 576)

/-- A sector number of a unit of `n` sectors of 64 bytes. -/
def sectorWf (n k : Nat) : Bool := decide (k < n)

/-- Sectors of a well (64 GiB) and of a quarter (256 GiB) (R251). -/
def unitSectors : MemUnit → Nat
  | .well _ => 0x40000000
  | .quarter _ => 0x100000000

/-- A host access within the largest payload (R111), and a read within the largest request. -/
def hostReadWf (len : Nat) : Bool := decide (len ≤ 4096)
def hostWriteWf (l : List Byte) : Bool := decide (l.length ≤ 512)

/-- A write inside the capsule window of 32 slots of 64 KiB (05, Capsules). -/
def capsuleWf (off : Nat) (l : List Byte) : Bool := decide (off + l.length ≤ 0x200000)

/-- Is a command well formed? -/
def Instr.wf : Instr → Bool
  | .agset _ x => scalarWf .agset x
  | .xfree _ x => scalarWf .xfree x
  | .ldq _ x => memOpOk false (.one x)
  | .ldq2 _ x => memOpOk false (.two x)
  | .get _ x => memOpOk false (.bulk x)
  | .stq _ x => memOpOk true (.one x)
  | .stq2 _ x => memOpOk true (.two x)
  | .put _ x => memOpOk true (.bulk x)
  | .waitqp _ q k => syncOk (.waitqp q k)
  | .waitqr _ q k => syncOk (.waitqr q k)
  | .raise _ v => syncOk (.raise v)
  | .mcfg _ imm => matrixWf .mcfg { noMArgs with imm := imm }
  | .mloadw _ x => matrixWf .mloadw x
  | .mloads _ x => matrixWf .mloads x
  | .mmul _ x => matrixWf .mmul x
  | .mmult _ x => matrixWf .mmult x
  | .mew _ x => matrixWf .mew x
  | .vmov _ x => vectorWf .mov x
  | .vadd _ x => vectorWf .add x
  | .vsub _ x => vectorWf .sub x
  | .vmul _ x => vectorWf .mul x
  | .vfma _ x => vectorWf .fma x
  | .vmin _ x => vectorWf .min x
  | .vmax _ x => vectorWf .max x
  | .vabs _ x => vectorWf .abs x
  | .vneg _ x => vectorWf .neg x
  | .vcmp _ x => vectorWf .cmp x
  | .vsel _ x => vectorWf .sel x
  | .vand _ x => vectorWf .and x
  | .vor _ x => vectorWf .or x
  | .vxor _ x => vectorWf .xor x
  | .vshl _ x => vectorWf .shl x
  | .vshr _ x => vectorWf .shr x
  | .vexp2 _ x => vectorWf (.func 0) x
  | .vlog2 _ x => vectorWf (.func 1) x
  | .vrcp _ x => vectorWf (.func 2) x
  | .vrsqrt _ x => vectorWf (.func 3) x
  | .vsqrt _ x => vectorWf (.func 4) x
  | .vtanh _ x => vectorWf (.func 5) x
  | .vsigm _ x => vectorWf (.func 6) x
  | .cvt _ x => vectorWf .cvt x
  | .quant _ x => vectorWf .quant x
  | .amax _ x => vectorWf .amax x
  | .rsum _ x => vectorWf .rsum x
  | .rmax _ x => vectorWf .rmax x
  | .topk _ x => vectorWf .topk x
  | .vupdm _ x => vectorWf .updm x
  | .vupdv _ x => vectorWf .updv x
  | .vupdw _ x => vectorWf .updw x
  | .vcoef _ x => vectorWf .coef x
  | .vgate _ x => vectorWf .gate x
  | .vstormCount _ x | .vstormLoss _ x | .vstormClose _ x => vectorWf .storm x
  | .wellRead _ k _ e _ => sectorWf 0x40000000 k && bitsWf e
  | .wellWrite _ k _ _ => sectorWf 0x40000000 k
  | .memorySideAdd _ k op _ _ _ => sectorWf 0x40000000 k && op != 0
  | .patrolRead _ e => bitsWf e
  | .remapAdd u k => sectorWf (unitSectors u) k
  | .quarantineAdd u g | .quarantineRemove u g => sectorWf (unitSectors u / 1024) g
  | .bar2Read _ _ len => hostReadWf len
  | .bar2Write _ _ l _ => hostWriteWf l
  | .capsuleHeaderWrite _ o l => capsuleWf o l
  | .bar2BaseWrite _ (.resize n) => decide (30 ≤ n ∧ n ≤ 40)
  | .mctpRegRead m => mctpWf 1 m
  | .mctpRegWrite m => mctpWf 2 m
  | .mctpLoader m => mctpWf 3 m
  | .almanacRead m => mctpWf 4 m
  | .mctpDoe m => mctpWf 5 m
  | .packetForward _ _ k _ => packetWf k
  | .writePacket _ k _ | .readReq _ k _ | .readData _ k _ | .signalPacket _ k _ | .ack _ k _ | .nak _ k _
  | .heartbeat _ k _ | .controlPacket _ k _ | .controlReply _ k _ | .fence _ k _ | .readmit _ k _ | .epochMark _ k _
  | .join _ k _ | .collectiveData _ k _ | .collectiveAbandon _ k _ | .atomicPacket _ k _ | .dispatch _ k _ | .refuse _ k _
  | .tokenEnd _ k _ | .tokenReturn _ k _ | .tokenAbandon _ k _ | .probe _ k _ | .echo _ k _ => packetWf k
  | .eyeScan _ lane => decide (lane.toNat < 16)
  | .measure l => decide (l.length = 32)
  | .keyExchange l => decide (l.length = 97)
  | _ => true

end Sys2Proof
end

