-- ==== Sys2Proof/Safety.lean ====
section
/-! DEFINITION. What counts as a safe step and a safe run, and the invariant of the machine that claims use: what no
command can undo in the one-time fuses (01 R1, 03 R60, R61), and the canonical form of what is held sparsely. -/

namespace Sys2Proof

open Sys2Proof.Machine Host

/-- A step that answers a state: neither a fault nor a refusal. -/
def SafeStep (s : State) : Prop := ∃ t, step s = .next t

/-- A run of `k` steps that stops nowhere. -/
def SafeRun (k : Nat) (s : State) : Prop := ∃ t, core.run k s = .next t

/-- A key slot's next states (R61): an empty one may be enrolled, an enrolled one revoked. -/
def KeyMoves (a b : KeySlot) : Prop :=
  (a.state = .enrolled → b.state = .enrolled ∧ b.hash = a.hash ∨ b.state = .revoked) ∧
    (a.state = .revoked → b.state = .revoked)

/-- Fuses only burn (R1, R60, R61): the map stands, the minimum svn never falls, key slots never go back. -/
def FusesBurn (a b : Fuses) : Prop :=
  b.map = a.map ∧ a.minSvn ≤ b.minSvn ∧ ∀ k : Fin 4, KeyMoves a.keys[k] b.keys[k]

/-- No key slot is left in a state from which no slot could serve: a slot is enrolled, or one is empty (R61). -/
def KeysServe (f : Fuses) : Prop := ∃ k : Fin 4, f.keys[k].state = .enrolled ∨ f.keys[k].state = .empty

/-- The newest Almanac event carries this code and detail, and is on its way to flash (R428 to R430). -/
def Noted (t : State) (code : W16) (detail : BitVec 224) : Prop :=
  (t.almanac.last.any fun r => r.code == code && r.detail == detail && t.almanac.toFlash.contains r) = true

/-- Every partition is EMPTY. -/
def AllEmpty (t : State) : Prop := ∀ p : PartId, t.parts[p].state = .empty

/-- Every rail outside the always-on domain is off (R18). -/
def RailsOff (t : State) : Prop :=
  (∀ f : FieldId, t.power.railFields[f] = false) ∧ t.power.railWells = false ∧ t.power.railCistern = false ∧
    t.power.railOptics = false

/-- A device that serves every register (R65): its always-on domain runs, it is READY, and no trip or collapse halts it. -/
def Ready (s : State) : Prop := s.power.alwaysOn = true ∧ s.boot.state = .ready ∧ s.ctl.halted = false

/-- THERM_WARN# after a reading of a sensor (R17, R25): that sensor is above its warning threshold or it is not, the others
are as they were, and the line is asserted while any is above. -/
def Warns (x : Sensor) (tempC : Byte) (s t : State) : Prop :=
  (x ∈ t.power.warnSensors ↔ warnC x < tempC.toInt) ∧
    (∀ y, y ≠ x → (y ∈ t.power.warnSensors ↔ y ∈ s.power.warnSensors)) ∧
    (t.power.thermWarn = true ↔ t.power.warnSensors ≠ []) ∧
    { t.power with warnSensors := s.power.warnSensors, thermWarn := s.power.thermWarn, opticC := s.power.opticC
                   pumpC := s.power.pumpC } = s.power

/-! ### Slot commands (06 R137, R139) -/

/-- A core that may issue a lone operation, none of whose results in flight falls due in this beat (R137, R139): it is
live, neither stopped nor waiting, and no bundle stands in its FIFO. -/
def CoreOpen (s : State) (c : CoreId) : Prop :=
  s.coreReady c = true ∧ s.cores[c].fifo = [] ∧ s.cores[c].grace = none ∧
    ∀ f ∈ s.cores[c].inflight, s.cores[c].beats < f.due

/-- Nothing but core `c` changes, metering apart: what R104 and R106 count for its partition, and the model's counter
of free values. -/
def OnlyCore (c : CoreId) (s t : State) : Prop :=
  (∀ d, d ≠ c → t.cores[d] = s.cores[d]) ∧
    (∀ p : PartId, { t.parts[p] with meter := s.parts[p].meter } = s.parts[p]) ∧
    { t with cores := s.cores, parts := s.parts, acts := s.acts, freeCount := s.freeCount } = s

/-- A core one beat later, with the results of a lone operation put in flight. -/
def oneBeat (x : Machine.Core) (l : List Flight) : Machine.Core :=
  { x with curSeq := 0, curIssue := 0, beats := x.beats + 1, inflight := x.inflight ++ l }

/-- A result of a lone operation of a slot, due `k` beats after its issue beat. -/
def due (s : State) (c : CoreId) (k rank slot : Nat) (r : Result) : Flight :=
  { due := s.cores[c].beats + k, beat := s.cores[c].beats, free := s.freeCount, rank := rank, res := r, seqIdx := 0
    issue := 0, slot := slot }

/-- The beat in which a lone operation of a core issues. -/
abbrev loneBeat (s : State) (c : CoreId) : Beat := s.issueBeat c 0 0

/-- A command completes, with core `c` as given after it and nothing else changed; the model's record of the operations in
flight that have counted an event (R244) is left open. -/
def CoreBecomes (i : Instr) (c : CoreId) (s : State) (x : Machine.Core) : Prop :=
  ∃ t, exec i s = .next t ∧ OnlyCore c s t ∧
    { t.cores[c] with mx := { t.cores[c].mx with counted := x.mx.counted } } = x

/-- A scalar command writes `v x Ka Kb` to Kd, `k` beats after its issue beat (R159). -/
def ScalarWrites (i : CoreId → SArgs → Instr) (k : Nat) (v : SArgs → W64 → W64 → W64) : Prop :=
  ∀ (s : State) (c : CoreId) (x : SArgs), CoreOpen s c →
    CoreBecomes (i c x) c s
      (oneBeat s.cores[c] [due s c k 1 0 (.kreg x.d (v x s.cores[c].k[x.a] s.cores[c].k[x.b]))])

/-- The line of core memory an address generator names (R163). -/
def agLine (x : Machine.Core) (g : Reg4) : Nat := x.ag[g].cur.toNat / 256 * 256

/-- A generator advanced where the operand asks for it (R161). -/
def advIf (adv : Bool) (g : Reg4) (v : Vector Agen 16) : Vector Agen 16 := if adv then updAt v g Agen.advance else v

/-- The head of a queue end, with the epoch and the format an operand names (R145, R148). -/
def HeadIs (x : Machine.Core) (q : QOp) (f : Fmt) (e : Entry) : Prop :=
  x.queues[q.q].entries.head? = some e ∧ e.epoch = q.epoch ∧ e.fmt.toNat = fmtCode f

/-- The queues of a core with the head of one of them popped. -/
def popped (x : Machine.Core) (q : QId) : Vector QueueEnd 32 :=
  updAt x.queues q fun k => { k with entries := k.entries.drop 1 }

/-- A wait command whose condition holds takes one beat; one whose condition does not hold leaves its core waiting at
the bundle (R173). -/
def Waits (i : Instr) (c : CoreId) (s : State) (o : SyncOp) (w : Wait) (met : Prop) : Prop :=
  (met → CoreBecomes i c s (oneBeat s.cores[c] [])) ∧
    (¬met → CoreBecomes i c s
      { s.cores[c] with waiting := some w, fifo := (waitBundle o, 0) :: s.cores[c].fifo })

/-- OPERATION_RESULT_WRITE on a core that drains (R31), whose one result in flight is `r`: the core after it, that result
written (R139). -/
def ResultLands (r : Result) (s : State) (c : CoreId) (y : Machine.Core) : Prop :=
  ∀ f : Flight, s.coreDrains c = true → s.cores[c].grace = none → s.cores[c].inflight = [f] → s.cores[c].beats ≤ f.due → f.rank ≤ 8 →
    f.res = r → CoreBecomes (.operationResultWrite c) c s { y with inflight := [], beats := f.due + 1 }

/-- Every check of a list passes (R148). -/
def Passes (l : List Check) : Prop := ∀ k ∈ l, k = none

/-! ### Vector commands (08 R194 to R196) -/

/-- A source operand of a lone vector operation: its 256 bytes and its poison (R194). -/
def vecSource (s : State) (c : CoreId) (f : Fmt) (o : VOperand) : Line × Bool := (loneBeat s c).vsrc f o

/-- The core once a vector operation has taken its operands: queue heads popped, generators advanced, its unit held. -/
def vecTaken (s : State) (c : CoreId) (o : VecOp) (x : VArgs) : Machine.Core :=
  ((((loneBeat s c).vpops (vecSources o x)).advance (vecAdvs o x)).vhold o x.fmt).new

/-- Where a vector result lands: a queue end, a vector register or an accumulator line (R194). -/
def landing (x : Machine.Core) (o : VOperand) (f : Fmt) (d : Line) (p : Bool) : List Result :=
  match o with
  | .queue _ q => [.push q f d p]
  | .vreg r => [.vreg r d p]
  | .acc _ g => [.accLine (agLine x g - 0x300000) d p]
  | .kreg _ => []

/-- A vector command whose checks pass sends one entry of format `f` to its destination D, `lat` beats on: data, flags
and poison as `res` gives them. -/
def VectorPuts (i : CoreId → VArgs → Instr) (o : VecOp) (lat : Fmt → Nat) (f : VArgs → Fmt)
    (res : State → CoreId → VArgs → Line × NFlags × Bool) : Prop :=
  ∀ (s : State) (c : CoreId) (x : VArgs), CoreOpen s c → (i c x).wf = true → Passes ((loneBeat s c).vecChecks o x) →
    let y := vecTaken s c o x
    let r := res s c x
    CoreBecomes (i c x) c s
      { oneBeat y ((landing s.cores[c] x.d (f x) r.1 r.2.2).map (due s c (lat x.fmt) 5 1)) with
        vx := { y.vx with flags := y.vx.flags.note s.epoch r.2.1 } }

/-- The result of an element-wise operation of `n` sources (R195, R236, R237): element by element, poisoned where one of
its sources is. -/
def elementWise (o : VecOp) (n : Nat) (s : State) (c : CoreId) (x : VArgs) : Line × NFlags × Bool :=
  let a := vecSource s c x.fmt x.a
  let b := vecSource s c x.fmt x.b
  let d := vecSource s c x.fmt x.c
  let r := vecMap o x.fmt x.imm (s.cores[c].ovmode != 2) a.1 b.1 d.1
  (r.1, r.2, a.2 || (decide (2 ≤ n) && b.2) || (decide (3 ≤ n) && d.2))

/-- No matrix operation holds the array (R187). -/
def ArrayFree (x : Machine.Core) : Prop := x.mx.heldUntil ≤ x.beats ∧ ∀ r ∈ x.mx.rowHeld, r.2 ≤ x.beats

/-! ### Partitions and their lulls -/

/-- No partition but `p` changes. -/
def OnlyPart (p : PartId) (s t : State) : Prop := ∀ q, q ≠ p → t.parts[q] = s.parts[q]

/-- Partition `p` awake at depth `d` or above (R45, R47, R50): the wells, Pumps and fields it needs are out of the deeper
depths, and nothing else of them, or of another partition, changes. -/
def Awake (p : PartId) (d : Nat) (s t : State) : Prop :=
  t.inLull3 = (s.inLull3 && decide (3 ≤ d)) ∧ t.parts[p].lull.reached = min d s.parts[p].lull.reached ∧ OnlyPart p s t ∧
    (∀ w : WellId, t.wells[w] =
      if d < 2 ∧ w ∈ s.parts[p].im.img.wells ∧ s.wells[w].state = .selfRefresh then { s.wells[w] with state := .active }
      else s.wells[w]) ∧
    (∀ u : PumpId, t.pumps[u] =
      if d < 2 ∧ (s.parts[p].im.img.cisZ[u] ≠ 0 ∨ s.parts[p].im.img.groupCount[u] ≠ 0) then
        { s.pumps[u] with
          idle := false
          mem := { s.pumps[u].mem with
            state := if s.pumps[u].mem.state = .selfRefresh then .active else s.pumps[u].mem.state } }
      else s.pumps[u]) ∧
    (∀ f : FieldId,
      (d = 0 ∧ s.usesField p f = true ∧ s.fields[f].retained = true →
        t.fields[f] = { s.fields[f] with
          retained := false, railMv := BitVec.ofNat 16 s.power.commonMv, limiter := s.limiterOf s.power.commonMv false }) ∧
      (¬(d = 0 ∧ s.usesField p f = true ∧ s.fields[f].retained = true) → t.fields[f] = s.fields[f])) ∧
    { t with inLull3 := s.inLull3, parts := s.parts, wells := s.wells, pumps := s.pumps, fields := s.fields } = s

/-- One usage record `u` of partition `p` taken (R108, R109): written at the ring's head where the ring has room and none
is held, else held; nothing where the partition is not metered. `m` is the metering afterwards. -/
def UsageTaken (p : PartId) (u : UsageRecord) (s t : State) (m : PMeter) : Prop :=
  let a := s.parts[p].meter
  (a.metered = false → t.host = s.host ∧ m = a) ∧
    (a.metered = true → a.room = true ∧ a.held = [] →
      t.host = wrL s.host (a.base.toNat * 4096 + 256 * a.head) u.bytes ∧
        m = { a with nextSeq := a.nextSeq + 1, skipped := false, head := (a.head + 1) % a.size }) ∧
    (a.metered = true → ¬(a.room = true ∧ a.held = []) →
      t.host = s.host ∧ m = { a with nextSeq := a.nextSeq + 1, skipped := false, held := a.held ++ [u] })

/-- No layer is open or waiting in a Sluice (R335, R336). -/
def SluicesIdle (s : State) : Prop := ∀ n : SluiceId, s.sluices[n].layers = [] ∧ s.sluices[n].waiting = []

/-- A partition no run command of which is pending (R89, R109). -/
abbrev RunFree (x : Partition) : Prop := x.run.stopping = none ∧ x.run.releasing = false

/-- A refused or ignored write reported (R97): STW_LAST_REFUSAL, its count, the Almanac, and PRT_REFUSAL of the partitions it
concerns, and nothing else. -/
def Refused (master : Byte) (offset : Nat) (o : OutcomeCode) (stale : Bool) (s t : State) : Prop :=
  t.ctl = { s.ctl with
    refusalOffset := BitVec.ofNat 32 offset, refusalOutcome := BitVec.ofNat 8 o.code, refusalMaster := master
    refusalStale := stale, refusalCount := s.ctl.refusalCount + 1 } ∧
    Noted t 0x0301
      (packDetail [(((offset % 4294967296) <<< 32) + (o.code <<< 24) + (master.toNat <<< 16) + stale.toNat, 8)]) ∧
    (∀ p : PartId, { t.parts[p] with run := s.parts[p].run } = s.parts[p] ∧
      { t.parts[p].run with
        refOffset := s.parts[p].run.refOffset, refOutcome := s.parts[p].run.refOutcome
        refMaster := s.parts[p].run.refMaster, refStale := s.parts[p].run.refStale
        refCount := s.parts[p].run.refCount } = s.parts[p].run) ∧
    { t with ctl := s.ctl, parts := s.parts, almanac := s.almanac } = s

/-! ### Resets -/

/-- What a device reset does in every case (R128, R395, R410): no partition holds anything, no item is left, and cores,
sequencers, ports, engines and Sluices are at their reset values; the fuses, the image slot, the recorded generations, the
fence state and the time stay. -/
def DeviceReset (s t : State) : Prop :=
  AllEmpty t ∧ t.xfers = [] ∧ t.programs = [] ∧ t.cores = State.reset.cores ∧ t.seqs = State.reset.seqs ∧
    t.ports = State.reset.ports ∧ t.axes = State.reset.axes ∧ t.sluices = State.reset.sluices ∧ t.image = {} ∧
    t.fuses = s.fuses ∧ t.loader.slot = s.loader.slot ∧ t.loader.slotValid = s.loader.slotValid ∧
    t.ctl.recordedGen = s.ctl.recordedGen ∧ t.fabric.fenced = s.fabric.fenced ∧
    t.fabric.selfFenced = s.fabric.selfFenced ∧ t.timeNs = s.timeNs ∧ t.pending = s.pending

/-! ### Completion records and capsules (05, 17) -/

/-- A completion record formed (R122 to R124, R395): written at the ring's head where there is room and none is held; held,
or waiting beyond 4,096 held ones; in the orphan store where the partition is EMPTY or STAGED. -/
def Formed (p : PartId) (r : Record) (v0 : Bool) (s t : State) : Prop :=
  let x := s.parts[p]
  let y := t.parts[p]
  let off := x.state = .empty ∨ x.state = .staged
  let direct := x.cq.room = true ∧ x.cq.held = []
  (off → t.host = s.host ∧ y.cq = x.cq ∧ y.orphan.records = x.orphan.records ++ [({ r with orphan := true }, [])]) ∧
    (¬off → y.orphan = x.orphan) ∧
    (¬off → direct → t.host = wrL s.host (x.cq.base.toNat * 4096 + 32 * x.cq.head) (r.bytes x.cq.phase) ∧
      y.cq.head = (x.cq.head + 1) % x.cq.size ∧ y.cq.held = [] ∧ y.cq.waiting = x.cq.waiting) ∧
    (¬off → ¬direct → t.host = s.host ∧ y.cq.head = x.cq.head ∧
      (x.cq.held.length < 4096 → y.cq.held = x.cq.held ++ [(r, v0)] ∧ y.cq.waiting = x.cq.waiting) ∧
      (4096 ≤ x.cq.held.length → y.cq.held = x.cq.held ∧ y.cq.waiting = x.cq.waiting ++ [(r, v0)]))

/-- The records and failures that axis engines count: that of a written or orphaned record counts once, at its engine
(R124, R331). -/
def Counted (r : Record) (s t : State) : Prop :=
  let x := s.parts[r.partition]
  let written := x.state = .empty ∨ x.state = .staged ∨ (x.cq.room = true ∧ x.cq.held = [])
  ∀ a : AxisId,
    (r.axis = some a ∧ written → t.axes[a] = { s.axes[a] with
      records := updAt s.axes[a].records r.partition (fun n => (n + 1) % 4294967296)
      failed := if r.outcome = .done then s.axes[a].failed
        else updAt s.axes[a].failed r.partition (fun n => min 65535 (n + 1)) }) ∧
    (¬(r.axis = some a ∧ written) → t.axes[a] = s.axes[a])

/-- Nothing changes but what a record of partition `p` changes: its ring, orphan store, idle time and metering, host
memory, the interrupts raised and the counts of the axis engines. -/
def RecordOnly (p : PartId) (s t : State) : Prop :=
  OnlyPart p s t ∧
    { t.parts[p] with
      cq := s.parts[p].cq, orphan := s.parts[p].orphan, lull := s.parts[p].lull, meter := s.parts[p].meter } = s.parts[p] ∧
    { t with parts := s.parts, host := s.host, link := { t.link with msi := s.link.msi }, acts := s.acts, axes := s.axes } = s

/-- A record of partition `p` that names no done counter formed and counted, and nothing else changed. -/
def Recorded (p : PartId) (r : Record) (v0 : Bool) (s t : State) : Prop :=
  Formed p r v0 s t ∧ Counted r s t ∧ RecordOnly p s t

/-- `c` is the capsule of its kind that comes next in partition `p`. -/
def NextCapsule (p : PartId) (kind : Nat) (s : State) (c : Capsule) : Prop :=
  s.parts[p].caps.queue.find? (fun d => d.kind == kind) = some c

/-- The state whose waiting capsules no longer hold `c`. -/
def without (p : PartId) (c : Capsule) (s : State) : State :=
  s.updPart p fun x => { x with caps := { x.caps with queue := x.caps.queue.erase c } }

/-- The record that completes a capsule: that of a COLLECTIVE capsule counts at the engine it names. -/
def capsuleRecord (s : State) (p : PartId) (c : Capsule) (engine : Byte) (o : OutcomeCode) (detail : Nat) : Record :=
  { tag := c.tag, step := c.step, outcome := o, engine := engine, partition := p, detail0 := BitVec.ofNat 64 detail
    axis := if c.kind = kColl then s.collEngine c.target else none }

/-- A command that ends the capsule `c` with one record, and changes nothing else. -/
def CapsuleEnds (i : Instr) (p : PartId) (c : Capsule) (s : State) (engine : Byte) (o : OutcomeCode) (detail : Nat) : Prop :=
  ∃ t, exec i s = .next t ∧ Recorded p (capsuleRecord s p c engine o detail) c.v0 (without p c s) t

/-- The header in the slot of the capsule expected next does not carry its sequence number (R117). -/
def NoneWaits (x : PCaps) : Prop := ldNat (rdL x.window ((slotOf x.expected).val * capSlot) 64) 0 4 ≠ x.expected.toNat

/-! ### Programs and sequencers (06, 07) -/

/-- No item of an axis engine, of a Sluice or of the Pumps is queued or at work for partition `p`, and no capsule of it
waits. -/
def NoItems (p : PartId) (s : State) : Prop :=
  SluicesIdle s ∧ s.parts[p].caps.queue = [] ∧ s.parts[p].cmds = [] ∧ s.parts[p].claims = [] ∧
    ∀ a : AxisId, s.axes[a].waiting = [] ∧ s.axes[a].colls = [] ∧ s.axes[a].atomics = []

/-- A program `x` of partition `p` started on its sequencers at `entry` (R134, R152, R158, R179): its sequencers run, their
cores are at the start of a program, its partition is awake, and no other sequencer, core or partition changes. -/
def Started (p : PartId) (entry : Nat) (args : Vector W64 3) (x : Program) (s t : State) : Prop :=
  t.programs = s.programs ++ [x] ∧ t.nextItem = s.nextItem + 1 ∧
    (∀ n : SeqId, t.seqs[n] = if n ∈ x.seqs then
        { s.seqs[n] with
          state := .running, pc := entry, region := x.region, issueCount := 0, args := args, loops := [], item := some x.id
          haltSeq := 0, fault0 := 0, fault1 := 0, fault2 := 0 }
      else s.seqs[n]) ∧
    (∀ c : CoreId, t.cores[c] =
      if ∃ n ∈ x.seqs, c ∈ s.seqCores n then s.cores[c].start c s.parts[p].fmt args else s.cores[c]) ∧
    t.parts[p].run = { s.parts[p].run with interlude := x.region || s.parts[p].run.interlude } ∧
    t.parts[p].lull.reached = 0 ∧ OnlyPart p s t ∧
    { t.parts[p] with run := s.parts[p].run, lull := s.parts[p].lull } = s.parts[p] ∧
    t.host = s.host ∧ t.xfers = s.xfers ∧ t.axes = s.axes ∧ t.sluices = s.sluices ∧ t.pending = s.pending

/-- A sequencer issues the bundle at its pc to every core of its mask (R132, R134), and is as `q` afterwards but for its
issue count; nothing else changes. -/
def Fetches (n : SeqId) (s : State) (q : Sequencer) : Prop :=
  let k := s.seqs[n].issueCount + 1
  let w := Sparse.getD s.seqs[n].imem s.seqs[n].pc 0
  ∃ t, exec (.sequencerFetch ⟨n, .ok⟩) s = .next t ∧ t.seqs = updAt s.seqs n (fun _ => { q with issueCount := k }) ∧
    (∀ c : CoreId, t.cores[c] =
      if c ∈ s.seqCores n then { s.cores[c] with fifo := s.cores[c].fifo ++ [(w, BitVec.ofNat 48 k)] } else s.cores[c]) ∧
    { t with seqs := s.seqs, cores := s.cores } = s

/-- A sequencer may issue: it runs, every FIFO of its mask has room, and its pc lies in its region (R132, R152). -/
def MayFetch (n : SeqId) (s : State) : Prop :=
  s.seqs[n].state = .running ∧ (∀ c ∈ s.seqCores n, s.cores[c].fifo.length < 16) ∧
    (if s.seqs[n].region then s.seqs[n].split ≤ s.seqs[n].pc ∧ s.seqs[n].pc < 4096 else s.seqs[n].pc < s.seqs[n].split)

/-! ### Units that fail (04 R92, 17 R398 to R400) -/

/-- No item of an engine is queued or at work: collectives, atomics, layers, PUMP commands, claims and sweeps. -/
def Quiet (s : State) : Prop :=
  SluicesIdle s ∧ (∀ a : AxisId, s.axes[a].waiting = [] ∧ s.axes[a].colls = [] ∧ s.axes[a].atomics = []) ∧
    (∀ p : PartId, s.parts[p].cmds = [] ∧ s.parts[p].claims = []) ∧ ∀ u : PumpId, s.pumps[u].sweep = none

/-- A fault in a shared unit with source `src` (R92, R388): one incident, and a stop with cause 0x04 for each partition of
`l` that can be stopped. Where no item of an engine is at work, no other partition changes, and no byte of a well or of a
core's memory. -/
def JobFault (src : Byte) (l : List PartId) (s t : State) : Prop :=
  t.ctl.incident = s.ctl.incident + 1 ∧ t.ctl.faultSource = src ∧
    (∀ p ∈ l, s.parts[p].stoppable = true → t.parts[p].run.stopping = some (0x04, false)) ∧
    (Quiet s → (∀ p, p ∉ l → t.parts[p] = s.parts[p]) ∧ (∀ w : WellId, t.wells[w].data = s.wells[w].data) ∧
      (∀ u : PumpId, t.pumps[u].mem.data = s.pumps[u].mem.data) ∧ ∀ c : CoreId, t.cores[c].mem = s.cores[c].mem) ∧
    t.fuses = s.fuses ∧ t.timeNs = s.timeNs ∧ t.pending = s.pending

/-! ### Ports (12 R300, R309, R310) -/

/-- A port goes DOWN with a cause (R309, R310): its transmitters are off, and what waited at it and its channels are gone.
A loss that is absorbed, or of a port that carried nothing, is noted and touches no partition (R300); any other stops the
partitions with a share on the port (R92). -/
def PortLost (n : PortId) (cause : Byte) (s t : State) : Prop :=
  t.ports[n].state = .down ∧ t.ports[n].cause = cause ∧ t.ports[n].laneMask = 0 ∧ t.ports[n].transmitting = false ∧
    t.ports[n].held = [] ∧ t.ports[n].tc0Queue = [] ∧ t.ports[n].vcs = Vector.replicate 12 {} ∧
    (∀ m, m ≠ n → t.ports[m].state = s.ports[m].state) ∧
    (s.ports[n].state ≠ .admitted ∨ s.absorbed n = true →
      t.parts = s.parts ∧ t.ctl = s.ctl ∧ Noted t 0x0602 (packDetail [(cause.toNat, 1)])) ∧
    (s.ports[n].state = .admitted → s.absorbed n = false →
      JobFault 0x07 (s.committedParts.filter fun p => s.parts[p].im.img.onPort n) s t)

/-! ### Packets of a stream (12 R302 to R305) -/

/-- A packet goes out at a port, or waits at one to go: its routing epoch and detour mark are those of the hop. -/
def Sends (r : Packet) (t : State) : Prop :=
  ∃ m : PortId, ∃ e ∈ t.ports[m].wire.map Prod.snd ++ t.ports[m].held.map HeldPkt.pkt ++ t.ports[m].tc0Queue,
    { e with repoch := r.repoch, detoured := r.detoured } = r

/-- This chip may send to another: it is not itself fenced, and a minimal hop out of a usable port leads there with no mask
on the route (R297 to R300). -/
def Reaches (dst : BitVec 15) (s : State) : Prop :=
  s.fabric.selfFenced = false ∧ Sparse.getD s.fabric.tables[if s.fabric.repoch then (1 : Fin 2) else 0] dst.toNat 0#8 = 0 ∧
    ∃ n : PortId, s.productive dst n = true ∧ s.usable n = true

/-- A packet that ends here is the next of its stream: nothing is held, every earlier one is delivered, and it carries the
floor that stands (R302). -/
def NextOfStream (k : Packet) (s : State) : Prop :=
  let x := s.dstStream (pktStream k)
  s.isFenced k.src = false ∧ x.held = [] ∧ x.delivered = [] ∧
    (x.started = true ∧ x.cum = k.psn ∧ x.floor = k.floor ∧ seqLt k.psn k.floor = false ∨
      x.started = false ∧ k.psn = k.floor ∧ x.has k.psn = false)

/-- A packet of a stream is delivered: it counts below `cum`, and an acknowledgement is owed (R302, R304). -/
def Delivers (k : Packet) (t : State) : Prop :=
  (t.dstStream (pktStream k)).cum = k.psn + 1 ∧ (t.dstStream (pktStream k)).ackDue = true

/-- No memory, core, Pump group or host byte changes: a packet that is not applied. -/
def NotApplied (s t : State) : Prop :=
  t.wells = s.wells ∧ t.pumps = s.pumps ∧ t.cores = s.cores ∧ t.host = s.host ∧ t.parts = s.parts ∧ t.xfers = s.xfers

/-! ### Axis engines (13 R326, R328) -/

/-- The counter a body names, raised for an outcome (R169, R326): 0xFF names none. -/
def raised (core ctr : Nat) (o : OutcomeCode) (v : Vector Machine.Core 192) : Vector Machine.Core 192 :=
  if core = 0xFF then v
  else updAt v (coreOf core) fun x => { x with
    sync := updAt x.sync (ctrOf ctr) fun y =>
      { count := y.count + 1, fail := if o = .done then y.fail else BitVec.ofNat 16 (min 65535 (y.fail.toNat + 1)) } }

/-- The done counter a record names, once the record is written (R124, R326): a record that is held, or is an orphan, raises
none. `v` are the cores as they were. -/
def DoneRaised (r : Record) (core ctr : Nat) (s t : State) (v : Vector Machine.Core 192) : Prop :=
  let x := s.parts[r.partition]
  let off := x.state = .empty ∨ x.state = .staged
  let direct := x.cq.room = true ∧ x.cq.held = []
  (¬off → direct → t.cores = raised core ctr r.outcome v) ∧ (off ∨ ¬direct → t.cores = v)

/-- A record of partition `p` that names counter `ctr` of core `core` formed and counted, the counter raised once it is
written, and nothing else changed (R348, R359). -/
def RecordedBy (p : PartId) (r : Record) (v0 : Bool) (core ctr : Nat) (s t : State) : Prop :=
  Formed p r v0 s t ∧ Counted r s t ∧ DoneRaised r core ctr s t s.cores ∧ RecordOnly p { s with cores := t.cores } t

/-- The record that completes a capsule whose body names a done counter. -/
def recordBy (s : State) (p : PartId) (c : Capsule) (engine : Byte) (o : OutcomeCode) (detail core ctr : Nat) : Record :=
  { capsuleRecord s p c engine o detail with done := namedCtr core ctr }

/-- A command that ends the capsule `c`, whose body names a done counter, with one record, and changes nothing else. -/
def CapsuleEndsBy (i : Instr) (p : PartId) (c : Capsule) (s : State) (engine : Byte) (o : OutcomeCode) (detail core ctr : Nat) :
    Prop :=
  ∃ t, exec i s = .next t ∧ RecordedBy p (recordBy s p c engine o detail core ctr) c.v0 core ctr (without p c s) t

/-- An item of an axis engine ended with record `r` (R326, R328): the record formed; with its writing, the engine's counts
of its partition and the done counter it names. -/
def EngineRecord (a : AxisId) (r : Record) (v0 : Bool) (core ctr : Nat) (s t : State) : Prop :=
  let x := s.parts[r.partition]
  let written := x.state = .empty ∨ x.state = .staged ∨ (x.cq.room = true ∧ x.cq.held = [])
  Formed r.partition r v0 s t ∧ DoneRaised r core ctr s t s.cores ∧
    (written → t.axes[a].records = updAt s.axes[a].records r.partition (fun n => (n + 1) % 4294967296)) ∧
    (¬written → t.axes[a].records = s.axes[a].records) ∧
    (r.outcome = .done ∨ ¬written → t.axes[a].failed = s.axes[a].failed)

/-- The record of a collective on engine `a`. -/
def collRec (a : AxisId) (c : Coll) (o : OutcomeCode) (detail : Nat) : Record :=
  { tag := c.tag, step := c.step, outcome := o, engine := 0x07, partition := c.part, detail0 := BitVec.ofNat 64 detail
    axis := some a, done := namedCtr c.doneCore c.doneCtr }

/-- The command `i` ends the COLLECTIVE capsule `c`, which spells `x`, with the record of `x` at engine `a` (R317, R318,
R326), and takes up, drops and sends nothing. -/
def CollEnds (i : Instr) (a : AxisId) (c : Capsule) (x : Coll) (s : State) (o : OutcomeCode) (detail : Nat) : Prop :=
  ∃ t, exec i s = .next t ∧ EngineRecord a (collRec a x o detail) c.v0 x.doneCore x.doneCtr (without x.part c s) t ∧
    OnlyPart x.part s t ∧ t.parts[x.part].caps.queue = s.parts[x.part].caps.queue.erase c ∧ t.wells = s.wells ∧
    t.pumps = s.pumps ∧ t.ports = s.ports ∧ t.fabric = s.fabric ∧
    ∀ b : AxisId, t.axes[b].colls = s.axes[b].colls ∧ t.axes[b].waiting = s.axes[b].waiting ∧
      t.axes[b].atomics = s.axes[b].atomics ∧ t.axes[b].early = s.axes[b].early

/-- A sector that reads clean: its unit answers, its page is not quarantined, it is not marked and holds no error. -/
def CleanSector (w : WellId) (a : Nat) (s : State) : Prop :=
  s.locGone (.mem (.well w) a) = false ∧ has s.wells[w].qtn (a / 65536) = false ∧
    has s.wells[w].marker (a / 64) = false ∧ Sparse.getD s.wells[w].errs (a / 64) [] = []

/-! ### Sluices (14 R336 to R349) -/

/-- One layer is open on a Sluice, and no other on any, and none waits. -/
def LoneLayer (n : SluiceId) (l : Layer) (s : State) : Prop :=
  ∀ m : SluiceId, s.sluices[m].waiting = [] ∧ s.sluices[m].layers = if m = n then [l] else []

/-- A layer that has neither sent nor heard an END: nothing of it goes forward of its own accord on an expert axis of two
chips or more (R338, R344). -/
def Still (l : Layer) (s : State) : Prop :=
  l.formed = false ∧ l.routes = [] ∧ l.ends = [] ∧ l.arrived = false ∧ l.returned = false ∧ l.destDone = false ∧
    2 ≤ s.expertSize

/-- A layer whose routes are out, whose ENDs have gone, and that is neither closed nor at its returns. -/
def Sent (n : SluiceId) (l : Layer) (s : State) : Prop :=
  l.formed = true ∧ l.cause = none ∧ (∀ d ∈ s.sluices[n].named, d ∈ l.endsTo) ∧ l.ends = [] ∧ l.arrived = false ∧
    l.returned = false ∧ l.combined = [] ∧ l.tokens = 1 ∧ 2 ≤ s.expertSize

/-- The record of a layer of Sluice `n`. -/
def layerRec (n : SluiceId) (l : Layer) (o : OutcomeCode) (detail : Nat) : Record :=
  { tag := l.tag, step := l.step, outcome := o, engine := 0x06, partition := l.part, detail0 := BitVec.ofNat 64 detail
    sluice := some n, done := namedCtr l.doneCore l.doneCtr }

/-- Memory after a write into the view: the bytes of every core, well and Cistern are as in `t1`. -/
def SameBytes (t t1 : State) : Prop :=
  (∀ c : CoreId, t.cores[c].mem = t1.cores[c].mem ∧ t.cores[c].acc = t1.cores[c].acc) ∧
    (∀ w : WellId, t.wells[w].data = t1.wells[w].data) ∧ ∀ u : PumpId, t.pumps[u].mem.data = t1.pumps[u].mem.data

/-! ### Pumps (15 R359 to R372) -/

/-- The command a PUMP capsule spells (R359); its limit runs from the taking of the capsule. -/
def pumpCmdOf (op : PumpOp) (c : Capsule) (id : Nat) : PumpCmd :=
  { id := id, op := op, resume := c.field 1 1 == 1, tag := c.tag, t := c.step, first := c.field 2 2, count := c.field 4 2
    gScale := BitVec.ofNat 32 (c.field 8 4), recOff := BitVec.ofNat 64 (c.field 0x10 8)
    clearOff := BitVec.ofNat 64 (c.field 0x18 8), trigCore := c.field 0x20 1, trigCtr := c.field 0x21 1
    trigVal := BitVec.ofNat 32 (c.field 0x24 4), doneCore := c.field 0x28 1, doneCtr := c.field 0x29 1
    limitAt := c.takenAt + 1000 * (if c.field 0x2C 4 = 0 then 100000 else c.field 0x2C 4)
    stages := List.replicate (c.field 4 2) .untriggered, raiseV0 := c.v0 }

/-- A running partition's one PUMP command, of one group, whose record area is in its view. -/
def LoneCmd (p : PartId) (c : PumpCmd) (s : State) : Prop :=
  s.parts[p].cmds = [c] ∧ s.parts[p].state = .running ∧ c.count = 1 ∧ c.stages.length = 1 ∧
    (s.viewLoc p c.recOff.toNat).map s.locGone = some false

/-- The memory with the record of a one-group command's group written (R360). -/
def withGroupRecord (p : PartId) (c : PumpCmd) (o : OutcomeCode) (code params : Nat) (s : State) : State :=
  let r : Record := {
    tag := c.tag, step := c.t, outcome := o, engine := 0x08, partition := p
    detail0 := BitVec.ofNat 64 (params * 2 ^ 24 + c.first * 2 ^ 12 + code) }
  (s.patchView p c.recOff.toNat (r.bytes true) false .engine 2).meterMove p c.recOff.toNat 32 true

/-- A one-group command ended with its group (R360): the command is gone and its capsule's record formed. -/
def CmdEnds (p : PartId) (c : PumpCmd) (o : OutcomeCode) (s t : State) : Prop :=
  t.parts[p].cmds = [] ∧
    Formed p
      { tag := c.tag, step := c.t, outcome := if o = .skippedFrozen then .done else o, engine := 0x08, partition := p
        detail0 := BitVec.ofNat 64 (if o = .done then 2 ^ 48 else if o = .gated then 2 ^ 32 else
          if o = .skippedFrozen then 2 ^ 16 else 1)
        done := namedCtr c.doneCore c.doneCtr }
      c.raiseV0 s t

/-- The state arrays of a block and the working copy written (R365). -/
def blockWritten (p : PartId) (e : Group) (lo n : Nat) (rs : List ((Nat × Nat × Nat × Nat) × NFlags)) (s : State) : State :=
  let s1 := ((s.writeView p (e.stateAt 0 lo) (blockBytes 4 (rs.map (·.1.1))) false (n / 16)).writeView p (e.stateAt 1 lo)
    (blockBytes 4 (rs.map (·.1.2.1))) false (n / 16)).writeView p (e.stateAt 2 lo) (blockBytes 4 (rs.map (·.1.2.2.1))) false (n / 16)
  let z := workSize e.workFmt
  if z = 0 then s1
  else s1.writeView p (e.workOff.toNat + lo * z) (blockBytes z (rs.map (·.1.2.2.2))) false (n * z / 64)

/-! ### The invariant -/

/-- What no command breaks: some key slot still serves (R61), and the image slot is held in its canonical form. -/
def Sound (s : State) : Prop := KeysServe s.fuses ∧ Sparse.wf (α := Byte) 0xFF s.loader.slot = true

end Sys2Proof
end

