-- ==== Sys2Proof/Certificates/Slice0/Obligations.lean ====
section
/-! DEFINITION. What is claimed of the machine: obligations for the provers. Each cites the rules it formalises; a clause
that rests on a choice of the model names the log entry. -/

section

open Sys2Proof Sys2Proof.Machine Host

/-- A step takes the command at the front of the queue and runs it on the state with the rest of the queue (95). The
queue is the model's own (log entry 4). -/
def Obligations.StepRunsFrontCommand : Prop :=
  ∀ (c : Instr) (rest : List Instr) (s : State),
    step { s with pending := c :: rest } = exec c { s with pending := rest }

/-- After reset the invariant holds, no partition holds anything, no rail is on and no command waits (01 R18; 03 R61,
R63). That reset is the state with P54V absent is the model's choice (log entry 11). -/
def Obligations.ResetIsSoundAndEmpty : Prop :=
  Sound State.reset ∧ AllEmpty State.reset ∧ RailsOff State.reset ∧ Quiet State.reset ∧ State.reset.xfers = [] ∧
    State.reset.programs = [] ∧ State.reset.pending = []

/-- Every step answers a state, takes exactly one command from the queue, and time never runs back while P54V lasts
(95; 02 R33). On an empty queue the block idles for one tick of 10 ns where its always-on domain runs (the model's
choice, log entry 1): besides the time, only time spent (residencies, running time, hours of operation) may differ. -/
def Obligations.EveryStepAnswersAndTimeGoesOn : Prop :=
  ∀ s : State, ∃ t, step s = .next t ∧ t.pending = s.pending.tail ∧
    (s.pending.head? ≠ some .p54vWithinRange → s.timeNs ≤ t.timeNs) ∧
    (s.pending = [] → t.timeNs = (if s.power.alwaysOn then s.timeNs + 10 else s.timeNs) ∧
      (∀ p : PartId, { t.parts[p] with meter := s.parts[p].meter, lull := s.parts[p].lull } = s.parts[p]) ∧
      { t.almanac with opNs := s.almanac.opNs } = s.almanac ∧
      { t with timeNs := s.timeNs, parts := s.parts, almanac := s.almanac } = s)

/-- No command unburns a fuse: the fuse map stands, the minimum svn never falls, and no owner key slot goes back (00
R1; 03 R60, R61). -/
def Obligations.EveryStepOnlyBurnsFuses : Prop :=
  ∀ s t : State, step s = .next t → FusesBurn s.fuses t.fuses

/-- Every step keeps a key slot that can serve, and the image slot in its canonical form (03 R61, R69). -/
def Obligations.EveryStepKeepsTheInvariant : Prop :=
  ∀ s t : State, Sound s → step s = .next t → Sound t

/-- P54V, PWR_EN and the rails switch the domains: always-on first, rails on PWR_EN, VERIFY with the rails up (01
R16, R18, R20, R21; 03 R63; 18 R428). P54V_WITHIN_RANGE starts the always-on domain at STW_TIME 0 and counts a power
cycle (after a collapse only the supply is back, log 15). PWR_EN_RISE switches every rail on where the device is not
halted, at the governor's floor (log 15), and holds the PCIe link in Detect for 100 ms. -/
def Obligations.SupplyAndPowerEnableSwitchTheDomains : Prop :=
  (∀ s : State, s.power.alwaysOn = false →
    exec .p54vWithinRange s = .next { s with
      timeNs := 0
      power := { s.power with alwaysOn := true, supply := .inRange }
      almanac := { s.almanac with cycles := s.almanac.cycles + 1 } }) ∧
  (∀ s : State, s.power.alwaysOn = true →
    exec .p54vWithinRange s = .next { s with power := { s.power with supply := .inRange } }) ∧
  (∀ (s : State) (x : Straps), s.power.alwaysOn = true → s.power.strapsSampled = false →
    exec (.stewardRomResetExit x) s = .next { s with
      power := { s.power with straps := x, strapsSampled := true }
      boot := { s.boot with bareCause := if s.power.pwrEn then s.boot.bareCause else 5 } }) ∧
  (∀ (s : State) (at_ : Nat), s.power.alwaysOn = true → s.power.pwrEn = false → s.ctl.halted = false →
    let s1 := s.advanceTo at_
    exec (.pwrEnRise at_) s = .next { s1 with
      power := { s1.power with
        pwrEn := true, pwrEnAt := s1.timeNs, railFields := Vector.replicate 4 true, railWells := true
        railCistern := true, railOptics := true, govAt := s1.timeNs, commonMv := 650 }
      link := { s1.link with detectUntil := s1.timeNs + 100000000 } }) ∧
  (∀ s : State, s.power.pwrEn = true → s.power.railWells = true → s.boot.railsUp = false → s.heldBare = false →
    ∃ t, exec .railsInRegulation s = .next t ∧ t.boot.railsUp = true ∧
      (fuseMapOk s.fuses.map = false → t.boot.state = .bare ∧ t.boot.bareCause = 4 ∧ t.power.modFault = true) ∧
      (fuseMapOk s.fuses.map = true →
        ((s.power.straps.bootBare = true ∧ s.loader.endedSinceStraps = false) →
          t.boot.state = .bare ∧ t.boot.bareCause = 1) ∧
        ((s.power.straps.bootBare = false ∨ s.loader.endedSinceStraps = true) →
          (s.loader.slotValid = false → t.boot.state = .bare ∧ t.boot.bareCause = 2) ∧
          (s.loader.slotValid = true → t.boot.state = .verify))) ∧
      { t with boot := s.boot, link := s.link, loader := s.loader, power := s.power, almanac := s.almanac } = s)

/-- PWR_EN low, loss of P54V, an input collapse and a thermal trip take the rails off and leave every partition EMPTY
(01 R18, R21, R26; 17 R389, R410; 04 R101). -/
def Obligations.RemovedPowerEmptiesTheDevice : Prop :=
  (∀ s : State, s.power.pwrEn = true →
    ∃ t, exec .pwrEnFall s = .next t ∧ RailsOff t ∧ AllEmpty t ∧ t.power.pwrEn = false ∧
      t.power.alwaysOn = s.power.alwaysOn ∧ t.boot.state = .bare ∧ t.boot.bareCause = 5 ∧ t.boot.railsUp = false ∧
      (∀ f : FieldId, t.fields[f] = { failed := t.fields[f].failed }) ∧
      t.ctl.recordedGen = s.ctl.recordedGen ∧ t.fuses = s.fuses ∧ t.timeNs = s.timeNs ∧
      t.loader.slot = s.loader.slot ∧ t.loader.slotValid = s.loader.slotValid ∧ t.pending = s.pending) ∧
  (∀ s : State, ∃ t, exec .lossOfP54v s = .next t ∧ RailsOff t ∧ AllEmpty t ∧ t.power.alwaysOn = false ∧
    t.power.strapsSampled = false ∧ t.ctl.recordedGen = [] ∧ t.fuses = s.fuses ∧ t.loader.slot = s.loader.slot ∧
    t.loader.slotValid = s.loader.slotValid ∧ t.almanac.slots = s.almanac.slots ∧ t.pending = s.pending) ∧
  (∀ (s : State) (mv : W16), s.power.alwaysOn = true → 38000 ≤ mv.toNat → mv.toNat < 42000 → s.power.supply ≠ .collapsed →
    ∃ t, exec (.inputCollapse mv) s = .next t ∧ RailsOff t ∧ AllEmpty t ∧ t.power.supply = .collapsed ∧
      t.power.undervoltage = true ∧ t.power.modFault = true ∧ t.ctl.halted = true ∧ t.ctl.faultSource = 0x0B ∧
      t.ctl.incident = s.ctl.incident + 1 ∧ t.ctl.recordedGen = s.ctl.recordedGen ∧ t.fuses = s.fuses ∧
      t.timeNs = s.timeNs ∧ t.pending = s.pending) ∧
  (∀ (s : State) (x : Sensor) (c : Byte), s.power.alwaysOn = true → s.power.thermTrip = false → tripC x ≤ c.toInt →
    ∃ t, exec (.thermalTrip x c) s = .next t ∧ RailsOff t ∧ AllEmpty t ∧ t.power.thermTrip = true ∧
      t.power.modFault = true ∧ t.ctl.halted = true ∧ t.ctl.faultSource = 0x0A ∧ t.ctl.incident = s.ctl.incident + 1 ∧
      t.ctl.recordedGen = s.ctl.recordedGen ∧ t.fuses = s.fuses ∧ t.timeNs = s.timeNs ∧ t.pending = s.pending)

/-- The brake, the undervoltage brake, the cap register and the warning line change what R19, R21, R37 and R17 say
(01 R17, R19, R21, R25; 02 R37, R38; 03 R65). -/
def Obligations.CapsBrakesAndWarnings : Prop :=
  (∀ s : State, ∃ t, exec .pwrBrakeAssert s = .next t ∧ t = { s with power := { s.power with brake := true } } ∧
    t.capInForce = min (min 2000 (max 400 s.power.capW.toNat)) s.power.brakeCapW.toNat) ∧
  (∀ s : State, s.power.undervoltage = false →
    ∃ t, exec .pwrBrakeRelease s = .next t ∧ t = { s with power := { s.power with brake := false } } ∧
      t.capInForce = min 2000 (max 400 s.power.capW.toNat)) ∧
  (∀ (s : State) (mv : W16), s.power.alwaysOn = true → s.power.undervoltage = false → mv.toNat < 45000 →
    ∃ t, exec (.undervoltage mv) s = .next t ∧
      t.power = { s.power with undervoltage := true, supply := .undervolt } ∧ Noted t 0x0201 (mv.setWidth 224) ∧
      t.capInForce = min (min 2000 (max 400 s.power.capW.toNat)) s.power.brakeCapW.toNat ∧
      { t with power := s.power, almanac := s.almanac } = s) ∧
  (∀ s : State, s.power.undervoltage = true →
    exec .undervoltageClear s = .next { s with power := { s.power with undervoltage := false, supply := .inRange } }) ∧
  (∀ (s : State) (w : W16),
    (Ready s → exec (.stwPowerCapWrite w) s = .next { s with power := { s.power with capW := w } }) ∧
    (s.power.alwaysOn = false → exec (.stwPowerCapWrite w) s = .next s)) ∧
  (∀ (s : State) (x : Sensor) (c : Byte), s.power.alwaysOn = true →
    ∃ t, exec (.thermalWarning x c) s = .next t ∧ Warns x c s t ∧
      (∀ f : FieldId, t.fields[f] = if x = .die f then { s.fields[f] with junctionC := c } else s.fields[f]) ∧
      (∀ w : WellId, t.wells[w] =
        if x = .well w then { s.wells[w] with tempC := c, refresh2x := decide (85 < c.toInt) } else s.wells[w]) ∧
      (∀ k : Fin 16, t.cisTemp[k] = if x = .cistern k then c else s.cisTemp[k]) ∧
      (∀ u : PumpId, (∀ k : Fin 16, k.val / 4 = u.val → x ≠ .cistern k) → t.pumps[u] = s.pumps[u]) ∧
      { t with power := s.power, fields := s.fields, wells := s.wells, pumps := s.pumps, cisTemp := s.cisTemp } = s)

/-- The governor moves the common rail within 650 to 800 mV toward the cap in force; measurements set status alone
(01 R19, R22, R25; 02 R33, R35, R36, R42; 11 R257). How far is a free value (log 7). -/
def Obligations.GovernorAndMeasuredStatus : Prop :=
  (∀ (s : State) (w : W16) (at_ : Nat), let s1 := s.advanceTo at_
    s1.power.pwrEn = true → s1.ctl.halted = false → s1.power.govAt + 10000 ≤ s1.timeNs →
    650 ≤ s1.power.commonMv → s1.power.commonMv ≤ 800 →
    ∃ t, exec (.governorRun w at_) s = .next t ∧
      t.power = { s1.power with
        inputW := w, govAt := s1.timeNs, commonMv := t.power.commonMv, atLimit := t.power.atLimit } ∧
      650 ≤ t.power.commonMv ∧ t.power.commonMv ≤ 800 ∧ t.power.commonMv ≤ s1.power.commonMv + 50 ∧
      s1.power.commonMv ≤ t.power.commonMv + 50 ∧ (s1.power.commonMv % 5 = 0 → t.power.commonMv % 5 = 0) ∧
      (s1.capInForce < w.toNat → t.power.commonMv < s1.power.commonMv ∨ t.power.commonMv = 650) ∧
      (s1.capInForce = w.toNat → t.power.commonMv ≤ s1.power.commonMv) ∧
      (∀ f : FieldId, t.power.atLimit.getLsbD f.val = s1.fieldHot f) ∧
      (∀ f : FieldId, let x := s1.fields[f]
        (x.retained = true ∨ x.failed = true → t.fields[f] = x) ∧
        (x.retained = false → x.failed = false →
          (s1.fieldHot f = false → t.fields[f].railMv.toNat =
            if x.railMv.toNat < 650 then t.power.commonMv else min t.power.commonMv (x.railMv.toNat + 50)) ∧
          (s1.fieldHot f = true → x.railMv.toNat ≤ 800 → 650 ≤ t.fields[f].railMv.toNat ∧
            x.railMv.toNat ≤ t.fields[f].railMv.toNat + 50 ∧
            t.fields[f].railMv.toNat ≤ max 650 (max (x.railMv.toNat - 50) (t.power.commonMv - 5))) ∧
          (t.fields[f].limiter = 0 ↔ 800 ≤ t.fields[f].railMv.toNat) ∧
          (t.fields[f].railMv.toNat < 800 → (t.fields[f].limiter = 4 ↔ s1.fieldHot f = true)) ∧
          { t.fields[f] with railMv := x.railMv, limiter := x.limiter } = x)) ∧
      { t with power := s1.power, fields := s1.fields, freeCount := s1.freeCount } = s1) ∧
  (∀ (s : State) (w : W16) (at_ : Nat), (s.advanceTo at_).timeNs < (s.advanceTo at_).power.govAt + 10000 →
    exec (.governorRun w at_) s = .next (s.advanceTo at_)) ∧
  (∀ (s : State) (f : FieldId) (c : Byte) (r : W16), s.power.pwrEn = true →
    ∃ t, exec (.fieldStatusUpdate f c r) s = .next t ∧ Warns (.die f) c s t ∧
      t.fields = updAt s.fields f (fun x =>
        let off := x.retained || x.railMv == 0
        { x with
          junctionC := c, rateMbeat := if off then 0 else r
          beats := if off then x.beats else x.beats + BitVec.ofNat 64 (10 * r.toNat) }) ∧
      { t with power := s.power, fields := s.fields } = s) ∧
  (∀ (s : State) (w : WellId) (c : Byte), s.power.railWells = true →
    ∃ t, exec (.wellTempReadout w c) s = .next t ∧ Warns (.well w) c s t ∧
      t.wells = updAt s.wells w (fun m => { m with tempC := c, refresh2x := decide (85 < c.toInt) }) ∧
      { t with power := s.power, wells := s.wells } = s)

/-- An idle partition reaches Lull-1 and Lull-2 in order, each component rests once all its users may, and an event
wakes it (02 R42, R44, R45, R47, R48, R49, R50; 03 R65). -/
def Obligations.PartitionsRestInOrderAndWake : Prop :=
  (∀ (s : State) (p : PartId) (d : Fin 4) (at_ : Nat), let s1 := s.advanceTo at_
    (1 ≤ d.val → d.val ≤ 2 → s1.mayRest p d.val = true → s1.parts[p].lull.reached + 1 = d.val →
      ∃ t, exec (.lullEntry p d at_) s = .next t ∧
        t.parts[p] = { s1.parts[p] with lull := { s1.parts[p].lull with reached := d.val } } ∧ OnlyPart p s1 t ∧
        (∀ f : FieldId, t.fields[f] =
          if d.val = 1 ∧ s1.parts[p].claims? = true ∧ t.usesField p f = true ∧ t.fieldRests f = true ∧
              s1.fields[f].retained = false ∧ s1.fields[f].failed = false then
            { s1.fields[f] with retained := true, railMv := 450, rateMbeat := 0, limiter := 5 }
          else s1.fields[f]) ∧
        (∀ w : WellId, t.wells[w] =
          if d.val = 2 ∧ s1.parts[p].claims? = true ∧ w ∈ s1.parts[p].im.img.wells ∧ t.wellRests w = true ∧
              s1.wells[w].state = .active then
            { s1.wells[w] with state := .selfRefresh }
          else s1.wells[w]) ∧
        (∀ u : PumpId, t.pumps[u] =
          if d.val = 2 ∧ s1.parts[p].claims? = true ∧ u ∈ s1.parts[p].im.img.pumps ∧ t.pumpRests u = true then
            { s1.pumps[u] with
              idle := true
              mem := { s1.pumps[u].mem with
                state := if s1.pumps[u].mem.state = .active then .selfRefresh else s1.pumps[u].mem.state } }
          else s1.pumps[u]) ∧
        { t with parts := s1.parts, fields := s1.fields, wells := s1.wells, pumps := s1.pumps } = s1) ∧
    (d.val = 0 ∨ d.val = 3 ∨ s1.mayRest p d.val = false ∨ s1.parts[p].lull.reached + 1 ≠ d.val →
      exec (.lullEntry p d at_) s = .next s1)) ∧
  (∀ (s : State) (p : PartId), s.parts[p].claims? = true →
    (∀ w : WellId, s.parts[p].im.img.wellMask.testBit w.val = true →
      exec (.wakeEvent p (.shared (.well w))) s = .next { s with wells := updAt s.wells w fun m =>
        if m.state = .selfRefresh then { m with state := .active } else m }) ∧
    (∀ u : PumpId, s.parts[p].im.img.cisZ[u] ≠ 0 →
      exec (.wakeEvent p (.shared (.quarter u))) s = .next { s with pumps := updAt s.pumps u fun x => { x with
        idle := false, mem := if x.mem.state = .selfRefresh then { x.mem with state := .active } else x.mem } }) ∧
    (∃ t, exec (.wakeEvent p .budget) s = .next t ∧ Awake p (allowedDepth s.parts[p].lull.budget) s t) ∧
    (∀ k ∈ [WakeCause.capsule, .tick, .packet, .window],
      ∃ t, exec (.wakeEvent p k) s = .next t ∧ Awake p 0 s t ∧ t.parts[p].lull.idleSince = s.timeNs)) ∧
  (∀ (s : State) (p : PartId) (k : WakeCause), s.parts[p].claims? = false → exec (.wakeEvent p k) s = .next s) ∧
  (∀ (s : State) (n : SeqId) (at_ : Nat) (p : PartId), let s1 := s.advanceTo at_
    s1.seqHolder n = some p → s1.seqs[n].arm = true →
    s1.seqs[n].nextTick s1.timeNs ≤ s1.timeNs + wakeLatency (s1.effectiveDepth p) →
    ∃ t, exec (.cadencePrewake n at_) s = .next t ∧ Awake p 0 s1 t) ∧
  (∀ (s : State) (p : PartId) (b : W32), Ready s →
    let s1 := s.updPart p fun x => { x with lull := { x.lull with budget := b } }
    let deep := allowedDepth b < max (s.effectiveDepth p) s.parts[p].lull.reached
    (¬deep → exec (.lulWakeBudgetWrite p b) s = .next s1) ∧
    (deep → s.parts[p].claims? = true → ∃ t, exec (.lulWakeBudgetWrite p b) s = .next t ∧
      t.parts[p].lull.budget = b ∧ Awake p (allowedDepth b) s1 t) ∧
    (deep → s.parts[p].claims? = false → ∃ t, exec (.lulWakeBudgetWrite p b) s = .next t ∧
      t.parts[p] = { s.parts[p] with lull := { s.parts[p].lull with budget := b, reached := allowedDepth b } } ∧
      t.inLull3 = false ∧ OnlyPart p s t ∧ { t with parts := s.parts, inLull3 := s.inLull3 } = s))

/-- Lull-3 is entered only by the whole device and parks its ports; an unparked port runs at its lanes again (02 R46;
12 R301; 18 R424). -/
def Obligations.WholeDeviceRestsAndPortsUnpark : Prop :=
  (∀ (s : State) (at_ : Nat), let s1 := s.advanceTo at_
    (s1.lull3Enable = true → s1.inLull3 = false → s1.boot.state = .ready → s1.tc12At + 3600000 ≤ s1.timeNs →
      (∀ p : PartId, s1.mayRest p 3 = true ∧ 2 ≤ s1.parts[p].lull.reached) →
      ∃ t, exec (.lull3Entry at_) s = .next t ∧ t.inLull3 = true ∧
        (∀ n : PortId, (s1.ports[n].state = .admitted → t.ports[n].parked = true ∧ t.ports[n].width = 1) ∧
          (s1.ports[n].state ≠ .admitted → t.ports[n].parked = s1.ports[n].parked)) ∧
        { t with inLull3 := s1.inLull3, ports := s1.ports, snd := s1.snd } = s1) ∧
    (s1.lull3Enable = false ∨ (∃ p : PartId, s1.mayRest p 3 = false ∨ s1.parts[p].lull.reached < 2) →
      exec (.lull3Entry at_) s = .next s1)) ∧
  (∀ (s : State) (n : PortId), s.ports[n].parked = true → s.ports[n].wants = false → s.inLull3 = false →
    ∃ t, exec (.portUnpark n) s = .next t ∧ t.ports[n].parked = false ∧ t.ports[n].laneMask = s.ports[n].laneMask ∧
      (s.ports[n].nbrParked = false → t.ports[n].width = laneCount s.ports[n].laneMask) ∧
      (∀ m, m ≠ n → t.ports[m] = s.ports[m]) ∧ { t with ports := s.ports, tc12At := s.tc12At } = s) ∧
  (∀ (s : State) (n : PortId), s.ports[n].parked = true → s.ports[n].wants = true →
    ∃ t, exec (.portUnpark n) s = .next t ∧ t.inLull3 = false ∧ t.ports[n].parked = false ∧ t.ports[n].wakeReq = false ∧
      (s.ports[n].nbrParked = false → t.ports[n].width = laneCount s.ports[n].laneMask) ∧
      (∀ m, m ≠ n → t.ports[m] = s.ports[m]) ∧
      (∀ p : PartId, s.parts[p].claims? = true →
        t.parts[p].lull.reached = 0 ∧ t.parts[p].lull.idleSince = s.timeNs) ∧
      t.cores = s.cores ∧ t.xfers = s.xfers ∧ t.host = s.host ∧ t.pending = s.pending) ∧
  (∀ (s : State) (n : PortId), s.ports[n].parked = false → exec (.portUnpark n) s = .next s)

/-- Boot goes VERIFY, STRUCTURE, FILL, READY, and a device image that fails its checks ends in BARE with reason and
section (03 R63, R64, R66, R67; 11 R277; 12 R283; 18 R416). -/
def Obligations.BootRunsVerifyStructureFillReady : Prop :=
  (∀ (s : State) (r x : Byte), s.boot.state = .verify → s.boot.railsUp = true → s.verifyImage = .error (r, x) →
    ∃ t, exec .bootVerify s = .next t ∧ t.boot.state = .bare ∧ t.boot.bareCause = 3 ∧ t.boot.rejectReason = r ∧
      t.boot.failSection = x ∧ t.power = { s.power with modFault := true } ∧
      Noted t 0x0101 (packDetail [(r.toNat, 1), (x.toNat, 1)]) ∧
      { t with boot := s.boot, power := s.power, almanac := s.almanac, link := s.link, loader := s.loader } = s) ∧
  (∀ (s : State) (i : DeviceImage), s.boot.state = .verify → s.boot.railsUp = true → s.verifyImage = .ok i →
    ∃ t, exec .bootVerify s = .next t ∧ t.boot.state = .structure_ ∧ t.image = i ∧ t.boot.infoSvn = i.svn ∧
      t.boot.infoMinSvn = s.fuses.minSvn ∧ t.boot.infoLayout = 1 ∧ t.boot.infoBuild = i.buildId ∧
      t.boot.infoMeasure = i.measure ∧
      t.power = { s.power with capW := BitVec.ofNat 16 i.powerCap, brakeCapW := BitVec.ofNat 16 i.brakeCap } ∧
      { t with boot := s.boot, image := s.image, power := s.power, link := s.link, loader := s.loader } = s) ∧
  (∀ s : State, s.boot.state = .structure_ →
    ∃ t, exec .bootStructure s = .next t ∧ t.boot.state = .fill ∧
      t.fabric = { s.fabric with tables := (Vector.replicate 2 []).set 0 s.image.route0 } ∧
      (∀ n : SeqId, t.seqs[n].wardMask = s.wardsAttached n ∧ (t.seqs[n].state = .unattached ↔ s.wardsAttached n = 0)) ∧
      (∀ (c : CoreId) (q : QId), t.cores[c].queues[q].topo = s.topoOf c q.val) ∧
      (∀ n : PortId,
        (s.image.fabric.dims[portDim n] ≤ 1 → t.ports[n].state = .down ∧ t.ports[n].cause = 0x07) ∧
        (1 < s.image.fabric.dims[portDim n] → t.ports[n].state = .training)) ∧
      (∀ w : WellId, 1 ≤ t.wells[w].rate ∧ { t.wells[w] with rate := s.wells[w].rate } = s.wells[w]) ∧
      (∀ u : PumpId, 1 ≤ t.pumps[u].mem.rate ∧
        { t.pumps[u] with mem := { t.pumps[u].mem with rate := s.pumps[u].mem.rate } } = s.pumps[u]) ∧
      { t with boot := s.boot, fabric := s.fabric, seqs := s.seqs, cores := s.cores, ports := s.ports, wells := s.wells
               pumps := s.pumps, cisRate := s.cisRate, link := s.link, loader := s.loader, freeCount := s.freeCount } = s) ∧
  (∀ s : State, s.boot.state = .fill → (∀ w : WellId, s.wells[w].state ≠ .filling) →
    (∀ u : PumpId, s.pumps[u].mem.state ≠ .filling) →
    ∃ t, exec .bootFill s = .next t ∧ t.boot.coresFilled = true ∧
      (∀ (c : CoreId) (a : Nat), rd t.cores[c].mem a = 0 ∧ rd t.cores[c].acc a = 0) ∧
      (∀ c : CoreId, t.cores[c].k = s.cores[c].k ∧ t.cores[c].ag = s.cores[c].ag ∧
        (∀ q : QId, t.cores[c].queues[q].entries = [] ∧ t.cores[c].queues[q].topo = s.cores[c].queues[q].topo)) ∧
      (∀ (n : SeqId) (i : Nat), Sparse.find t.seqs[n].imem i = none ∧ { t.seqs[n] with imem := s.seqs[n].imem } = s.seqs[n]) ∧
      t.boot = { s.boot with coresFilled := true, fillPermille := t.fillProgress } ∧
      { t with cores := s.cores, seqs := s.seqs, boot := s.boot } = s) ∧
  (∀ (s : State) (w : WellId), s.boot.state = .fill → s.wells[w].state = .filling →
    (∀ v : WellId, v < w → s.wells[v].state ≠ .filling) →
    ∃ t, exec .bootFill s = .next t ∧ t.wells[w].state = .active ∧
      (∀ a : Nat, s.wells[w].quarantined a = false → a < wellSize → rd t.wells[w].data a = 0) ∧
      (∀ a : Nat, wellSize ≤ a ∨ s.wells[w].quarantined a = true → rd t.wells[w].data a = rd s.wells[w].data a) ∧
      (∀ v : WellId, v ≠ w → t.wells[v] = s.wells[v]) ∧ t.boot = { s.boot with fillPermille := t.fillProgress } ∧
      { t with wells := s.wells, boot := s.boot } = s) ∧
  (∀ (s : State) (u : PumpId), s.boot.state = .fill → s.pumps[u].mem.state = .filling →
    (∀ w : WellId, s.wells[w].state ≠ .filling) → (∀ v : PumpId, v < u → s.pumps[v].mem.state ≠ .filling) →
    ∃ t, exec .bootFill s = .next t ∧ t.pumps[u].mem.state = .active ∧
      (∀ a : Nat, s.pumps[u].mem.quarantined a = false → a < quarterSize → rd t.pumps[u].mem.data a = 0) ∧
      (∀ v : PumpId, v ≠ u → t.pumps[v] = s.pumps[v]) ∧ t.pkgOk = s.pkgOk ||| pkgsOf u ∧
      t.boot = { s.boot with fillPermille := t.fillProgress } ∧
      { t with pumps := s.pumps, boot := s.boot, pkgOk := s.pkgOk } = s) ∧
  (∀ s : State, s.boot.state = .fill → s.boot.coresFilled = true → (∀ w : WellId, s.wells[w].state ≠ .filling) →
    (∀ u : PumpId, s.pumps[u].mem.state ≠ .filling) →
    ∃ t, exec .fillComplete s = .next t ∧ t.boot.state = .ready ∧ t.boot.fillPermille = 1000 ∧
      t.power = { s.power with modFault := false } ∧ t.readyAt = s.timeNs ∧
      (∀ b : Fin 26, t.baro.parts[b].out = decide (20 ≤ b.val) ∧ t.baro.parts[b].evals = 0) ∧ t.baro.evalAt = s.timeNs ∧
      (∀ p : PartId, t.parts[p] = { s.parts[p] with lull := { s.parts[p].lull with idleSince := s.timeNs } }) ∧
      { t with parts := s.parts, boot := s.boot, power := s.power, readyAt := s.readyAt, baro := s.baro, link := s.link, loader := s.loader } = s)

/-- BEGIN opens a session and erases, DATA writes in order, END sets the valid mark, ABORT and 10 s of silence end it
(03 R69, R70, R71, R63, R68). The register write that starts a command is the model's choice of log 16. -/
def Obligations.LoaderSessionsWriteTheImageSlot : Prop :=
  (∀ (s : State) (src : LoaderPort) (m : Byte) (d : List Byte), s.loader.run = none → s.power.alwaysOn = true →
    s.loaderOwner m = false →
    ∀ e ∈ [(Instr.loaderBegin src m d, LoaderCmd.begin_), (.loaderData src m d, .data), (.loaderEnd src m, .end_),
        (.loaderAbort src m, .abort), (.svnCommit src m, .svnCommit)],
      exec e.1 s = .next { s with loader := { s.loader with
        run := some ⟨e.2, .refusedOwner, 0⟩, lastCmdNs := s.timeNs } }) ∧
  (∀ (s : State) (src : LoaderPort) (m : Byte) (d : List Byte), s.loader.run = none → s.power.alwaysOn = true →
    s.loaderOwner m = true → s.loader.session = none ∨ s.loader.session = some src →
    let h := parseHeader fun a => (s.loaderData' src d).getD a 0
    (∀ r, s.beginReason (s.loaderData' src d) = some r →
      exec (.loaderBegin src m d) s = .next { s with loader := { s.loader with
        run := some ⟨.begin_, .refusedState, r⟩, lastCmdNs := s.timeNs } }) ∧
    (s.beginReason (s.loaderData' src d) = none →
      ∃ t, exec (.loaderBegin src m d) s = .next t ∧ t.loader.session = some src ∧ t.loader.slotValid = false ∧
        t.loader.bytesWritten = (s.loaderData' src d).length ∧ t.loader.run = some ⟨.begin_, .done, 0⟩ ∧
        t.loader.lastCmdNs = s.timeNs ∧
        (Sparse.wf (α := Byte) 0xFF s.loader.slot = true → Sparse.wf (α := Byte) 0xFF t.loader.slot = true ∧
          imgBytes t.slotReader h.sigAt 4096 = (s.loaderData' src d).drop h.size) ∧
        { t with loader := s.loader } = s)) ∧
  (∀ (s : State) (src : LoaderPort) (m : Byte) (data : List Byte), s.loader.run = none → s.power.alwaysOn = true →
    s.loaderOwner m = true → s.loader.session = some src →
    let d := s.loaderData' src data
    let last := s.dataOffset + d.length +
      if s.dataOffset < s.sessionHeader.sigAt ∧ s.sessionHeader.sigAt < s.dataOffset + d.length then 4096 else 0
    (s.sessionHeader.length < s.loader.bytesWritten + d.length →
      exec (.loaderData src m data) s = .next { s with loader := { s.loader with
        run := some ⟨.data, .refusedState, 0⟩, lastCmdNs := s.timeNs } }) ∧
    (s.loader.bytesWritten + d.length ≤ s.sessionHeader.length →
      ∃ t, exec (.loaderData src m data) s = .next t ∧ t.loader.bytesWritten = s.loader.bytesWritten + d.length ∧
        (∀ a, a < s.dataOffset ∨ last ≤ a ∨ s.sessionHeader.sigAt ≤ a ∧ a < s.sessionHeader.sigAt + 4096 →
          t.slotReader a = s.slotReader a) ∧
        (Sparse.wf (α := Byte) 0xFF s.loader.slot = true →
          Sparse.wf (α := Byte) 0xFF t.loader.slot = true ∧
            ∀ (i : Nat) (b : Byte), d[i]? = some b →
              t.slotReader (if s.dataOffset < s.sessionHeader.sigAt ∧ s.sessionHeader.sigAt ≤ s.dataOffset + i then
                s.dataOffset + i + 4096 else s.dataOffset + i) = b) ∧
        (t.badDigest s.dataOffset last = true → t.loader.run = some ⟨.data, .refusedState, 0x03⟩) ∧
        (t.badDigest s.dataOffset last = false → t.loader.run = some ⟨.data, .done, 0⟩) ∧
        t.loader = { s.loader with
          bytesWritten := t.loader.bytesWritten, slot := t.loader.slot, run := t.loader.run, lastCmdNs := s.timeNs } ∧
        { t with loader := s.loader } = s)) ∧
  (∀ (s : State) (src : LoaderPort) (m : Byte), s.loader.run = none → s.power.alwaysOn = true →
    s.loaderOwner m = true → s.loader.session = some src →
    (s.loader.bytesWritten = s.sessionHeader.length → s.sessionHeader.dir.all (digestOk s.slotReader) = true →
      ∃ t, exec (.loaderEnd src m) s = .next t ∧ t.loader.session = none ∧ t.loader.slotValid = true ∧
        t.loader.slot = s.loader.slot ∧ t.loader.endedSinceStraps = true ∧ t.loader.endedSinceBare = true ∧
        t.loader.run = some ⟨.end_, .done, 0⟩ ∧ { t with loader := s.loader } = s) ∧
    (s.loader.bytesWritten ≠ s.sessionHeader.length →
      exec (.loaderEnd src m) s = .next { s with loader := { s.loader with
        run := some ⟨.end_, .refusedState, 0⟩, lastCmdNs := s.timeNs } }) ∧
    (∃ t, exec (.loaderAbort src m) s = .next t ∧ t.loader.session = none ∧ t.loader.slot = s.loader.slot ∧
      t.loader.slotValid = s.loader.slotValid ∧ t.loader.run = some ⟨.abort, .done, 0⟩ ∧ { t with loader := s.loader } = s)) ∧
  (∀ (s : State) (at_ : Nat), let s1 := s.advanceTo at_
    (s1.loader.session ≠ none → s1.loader.run = none → s1.loader.lastCmdNs + 10000000000 ≤ s1.timeNs →
      ∃ t, exec (.loaderSessionTimeout at_) s = .next t ∧ t.loader.session = none ∧ t.loader.slot = s1.loader.slot ∧
        t.loader.slotValid = s1.loader.slotValid ∧ { t with loader := s1.loader } = s1) ∧
    (s1.timeNs < s1.loader.lastCmdNs + 10000000000 → exec (.loaderSessionTimeout at_) s = .next s1)) ∧
  (∀ (s : State) (r : LoaderRun), s.loader.run = some r →
    ∃ t, exec .loaderCommandEnd s = .next t ∧ t.loader.run = none ∧ t.loader.outcome = BitVec.ofNat 8 r.outcome.code ∧
      (r.outcome ≠ .done → t.loader.rejectReason = r.reason) ∧ t.link.msi = s.link.msi ++ [(.pf, 2)] ∧
      t.loader.slot = s.loader.slot ∧ t.loader.session = s.loader.session ∧ t.loader.lastCmdNs = s.timeNs ∧
      { t with loader := s.loader, link := { t.link with msi := s.link.msi } } = s)

/-- SVN_COMMIT raises the fused minimum svn, ENROLL and REVOKE change one owner key slot, each under R60 to R62 (03
R60, R61, R62). ENROLL and REVOKE replace the nonce by a free value (log 7). -/
def Obligations.OwnerKeysAndMinimumSvn : Prop :=
  (∀ (s : State) (src : LoaderPort) (m : Byte), s.loader.run = none → s.power.alwaysOn = true → s.boot.state = .ready →
    s.loaderOwner m = true →
    ∃ t, exec (.svnCommit src m) s = .next t ∧ t.fuses = { s.fuses with minSvn := max s.fuses.minSvn s.image.svn } ∧
      t.boot = { s.boot with infoMinSvn := max s.fuses.minSvn s.image.svn } ∧
      t.loader = { s.loader with run := some ⟨.svnCommit, .done, 0⟩, lastCmdNs := s.timeNs } ∧
      { t with fuses := s.fuses, boot := s.boot, loader := s.loader } = s) ∧
  (∀ (s : State) (src : LoaderPort) (m : Byte) (d : List Byte), s.loader.run = none → s.power.alwaysOn = true →
    s.boot.state = .ready → s.loaderOwner m = true →
    let x := s.loaderData' src d
    ∃ t, exec (.enroll src m d) s = .next t ∧ { t with fuses := s.fuses, loader := s.loader, freeCount := s.freeCount } = s ∧
      { t.loader with run := none, lastCmdNs := s.loader.lastCmdNs, nonce := s.loader.nonce } = s.loader ∧
      t.loader.lastCmdNs = s.timeNs ∧
      (∀ r, s.keyReason 1 x = some r → t.fuses = s.fuses ∧ t.loader.run = some ⟨.enroll, .refusedState, r⟩) ∧
      (s.keyReason 1 x = none →
        (∀ k : Fin 4, s.fuses.keys[k].state = .empty → (∀ j : Fin 4, j < k → s.fuses.keys[j].state ≠ .empty) →
          t.fuses = { s.fuses with keys := s.fuses.keys.set k ⟨.enrolled, Config.sha384 (slice x 0x10 97)⟩ } ∧
            t.loader.run = some ⟨.enroll, .done, 0⟩) ∧
        ((∀ k : Fin 4, s.fuses.keys[k].state ≠ .empty) →
          t.fuses = s.fuses ∧ t.loader.run = some ⟨.enroll, .refusedState, 0⟩))) ∧
  (∀ (s : State) (src : LoaderPort) (m : Byte) (d : List Byte), s.loader.run = none → s.power.alwaysOn = true →
    s.boot.state = .ready → s.loaderOwner m = true →
    let x := s.loaderData' src d
    ∃ t, exec (.revoke src m d) s = .next t ∧ { t with fuses := s.fuses, loader := s.loader, freeCount := s.freeCount } = s ∧
      { t.loader with run := none, lastCmdNs := s.loader.lastCmdNs, nonce := s.loader.nonce } = s.loader ∧
      t.loader.lastCmdNs = s.timeNs ∧
      (∀ r, s.keyReason 2 x = some r → t.fuses = s.fuses ∧ t.loader.run = some ⟨.revoke, .refusedState, r⟩) ∧
      (s.keyReason 2 x = none → ∀ k : Fin 4, ldNat x 1 1 = k.val →
        ((∃ j : Fin 4, (j ≠ k ∧ s.fuses.keys[j].state = .enrolled) ∨ (j ≠ k ∧ s.fuses.keys[j].state = .empty)) →
          t.fuses = { s.fuses with keys := s.fuses.keys.set k { s.fuses.keys[k] with state := .revoked } } ∧
            t.loader.run = some ⟨.revoke, .done, 0⟩) ∧
        ((∀ j : Fin 4, j ≠ k → s.fuses.keys[j].state = .revoked) →
          t.fuses = s.fuses ∧ t.loader.run = some ⟨.revoke, .refusedState, 0⟩)) ∧
      (s.keyReason 2 x = none → 4 ≤ ldNat x 1 1 →
        t.fuses = s.fuses ∧ t.loader.run = some ⟨.revoke, .refusedState, 0x08⟩))

/-- DISCARD returns a STAGED partition to EMPTY and completes with DONE (03 R77). -/
def Obligations.DiscardReturnsAStagedPartitionToEmpty : Prop :=
  ∀ (s : State) (p : PartId), Ready s → s.parts[p].state = .staged → s.parts[p].im.busy = none →
    ∃ t, exec (.discard p) s = .next t ∧ OnlyPart p s t ∧
      t.parts[p] = { s.parts[p] with
        state := .empty
        im := { s.parts[p].im with img := {}, build := 0, measure := 0, lastCmd := 3, outcome := 0, reason := 0 } } ∧
      t.link.msi = s.link.msi ++ [(.vf p, 3), (.pf, 32 + p.val), (.vf p, 1)] ∧
      { t with parts := s.parts, link := { t.link with msi := s.link.msi } } = s

/-- STAGE fetches the image, its checks make the partition STAGED or leave it EMPTY, COMMIT claims and zero-fills
what it names (03 R73, R74, R75, R77; 04 R90; 10 R247). -/
def Obligations.ImagesAreStagedCheckedAndCommitted : Prop :=
  (∀ (s : State) (p : PartId), Ready s → s.parts[p].state = .empty ∨ s.parts[p].state = .stopped → RunFree s.parts[p] →
    s.parts[p].im.busy = none → (s.parts[p].state = .stopped → s.usageFull p = false) →
    ∃ t, exec (.stage p) s = .next t ∧ OnlyPart p s t ∧ t.parts[p].state = .empty ∧ t.parts[p].im.busy = some 1 ∧
      t.parts[p].im.lastCmd = 1 ∧ t.parts[p].im.outcome = 0 ∧
      t.parts[p].im.bytes = t.dma (s.parts[p].im.addr.toNat * 4096) (min s.parts[p].im.length.toNat 0x400000) ∧
      (s.parts[p].state = .empty → { t with parts := s.parts } = s) ∧
      t.fuses = s.fuses ∧ t.xfers = s.xfers ∧ t.pending = s.pending ∧ t.wells = s.wells) ∧
  (∀ (s : State) (p : PartId), Ready s → s.parts[p].im.busy = none →
    ∀ e ∈ [(Instr.stage p, (1 : BitVec 3), [PartState.empty, .stopped]), (.commit p, 2, [.staged]), (.discard p, 3, [.staged])],
      s.parts[p].state ∉ e.2.2 →
      ∃ t, exec e.1 s = .next t ∧ OnlyPart p s t ∧ t.parts[p] = { s.parts[p] with
          im := { s.parts[p].im with lastCmd := e.2.1, outcome := 0x16, reason := 0 } } ∧
        t.link.msi = s.link.msi ++ [(.vf p, 3)] ∧ { t with parts := s.parts, link := { t.link with msi := s.link.msi } } = s) ∧
  (∀ (s : State) (p : PartId), s.parts[p].im.busy = some 1 → s.parts[p].state = .empty →
    ∃ t, exec (.stageChecks p) s = .next t ∧ OnlyPart p s t ∧ t.parts[p].im.busy = none ∧ t.parts[p].im.lastCmd = 1 ∧
      { t with parts := s.parts, link := { t.link with msi := s.link.msi } } = s ∧
      (∀ o r, s.checkPartImage p = .error (o, r) →
        t.parts[p].state = .empty ∧ t.parts[p].im.outcome = BitVec.ofNat 8 o.code ∧ t.parts[p].im.reason = r ∧
          t.link.msi = s.link.msi ++ [(.vf p, 3)]) ∧
      (∀ i, s.checkPartImage p = .ok i →
        t.parts[p].state = .staged ∧ t.parts[p].im.outcome = 0 ∧ t.parts[p].im.img = i ∧ t.parts[p].im.build = i.buildId ∧
          t.parts[p].im.measure = i.measure ∧
          t.link.msi = s.link.msi ++ [(.vf p, 3), (.pf, 32 + p.val), (.vf p, 1)])) ∧
  (∀ (s : State) (p : PartId), Ready s → s.parts[p].state = .staged → s.parts[p].im.busy = none →
    (∀ r, s.commitReason p = some r →
      ∃ t, exec (.commit p) s = .next t ∧ OnlyPart p s t ∧ t.parts[p] = { s.parts[p] with
          im := { s.parts[p].im with lastCmd := 2, outcome := 0x16, reason := r } } ∧
        { t with parts := s.parts, link := { t.link with msi := s.link.msi } } = s) ∧
    (s.commitReason p = none →
      ∃ t, exec (.commit p) s = .next t ∧ OnlyPart p s t ∧ t.parts[p] = { s.parts[p] with
          im := { s.parts[p].im with busy := some 2, lastCmd := 2, outcome := 0, reason := 0, fillPermille := 0 }
          fmt := resolveFmt s.parts[p].im.img.fmt s.image.fmt
          storm := { policy := resolvePolicy s.parts[p].im.img.fmt s.image.fmt }
          groups := [], cmds := [], claims := [], fault := {} } ∧
        (∀ n : SeqId, t.seqs[n].wardMask = t.wardsAttached n) ∧
        (∀ a : AxisId, t.axes[a].records[p] = 0 ∧ t.axes[a].failed[p] = 0) ∧
        { t with parts := s.parts, seqs := s.seqs, axes := s.axes, sluices := s.sluices, snd := s.snd, ports := s.ports } = s)) ∧
  (∀ (s : State) (p : PartId), s.parts[p].im.busy = some 2 → s.parts[p].state = .staged →
    let i := s.parts[p].im.img
    ∃ t, exec (.commitFillDone p) s = .next t ∧ OnlyPart p s t ∧ t.parts[p].state = .committed ∧ t.parts[p].im.img = i ∧
      t.parts[p].im.busy = none ∧ t.parts[p].im.outcome = 0 ∧ t.parts[p].im.fillPermille = 1000 ∧
      t.parts[p].caps.expected = 1 ∧ t.parts[p].caps.takenSeq = 0 ∧ t.parts[p].caps.queue = [] ∧
      t.parts[p].meter.metered = true ∧ t.parts[p].meter.counters = Vector.replicate 14 0 ∧
      t.parts[p].meter.tCommit = s.timeNs ∧ t.parts[p].run.refCount = 0 ∧ t.parts[p].lull.idleSince = s.timeNs ∧
      (∀ (w : WellId) (a : Nat), i.wellMask.testBit w.val = true → i.base2g[w] * g2 ≤ a →
        a < i.base2g[w] * g2 + i.share2g * g2 → s.wells[w].quarantined a = false → rd t.wells[w].data a = 0) ∧
      (∀ (w : WellId) (a : Nat), i.wellMask.testBit w.val = false ∨ a < i.base2g[w] * g2 ∨
        i.base2g[w] * g2 + i.share2g * g2 ≤ a → rd t.wells[w].data a = rd s.wells[w].data a) ∧
      (∀ (c : CoreId) (a : Nat), c ∈ s.partCores p → rd t.cores[c].mem a = 0 ∧ rd t.cores[c].acc a = 0) ∧
      (∀ c : CoreId, c ∈ s.partCores p → ∀ q : QId, t.cores[c].queues[q].entries = [] ∧ t.cores[c].queues[q].topo = s.topoOf c q.val) ∧
      { t with parts := s.parts, wells := s.wells, pumps := s.pumps, cores := s.cores, seqs := s.seqs
               link := { t.link with msi := s.link.msi } } = s)

/-- START, QUIESCE, RESUME, STOP and RELEASE take a partition from one state to the next, each only where R86 draws
an arrow (04 R86, R88, R89, R108, R109). -/
def Obligations.RunControlMovesAPartition : Prop :=
  (∀ (s : State) (p : PartId), Ready s → RunFree s.parts[p] → s.fabric.selfFenced = false →
    (s.parts[p].state = .committed → ∃ t, exec (.start p) s = .next t ∧ OnlyPart p s t ∧
      t.parts[p] = { s.parts[p] with state := .running, run := { s.parts[p].run with lastCmd := 1, outcome := 0 } } ∧
      t.link.msi = s.link.msi ++ [(.pf, 32 + p.val), (.vf p, 1)] ∧
      { t with parts := s.parts, link := { t.link with msi := s.link.msi } } = s) ∧
    (s.parts[p].state = .quiesced → ∃ t, exec (.resume p) s = .next t ∧ OnlyPart p s t ∧
      t.parts[p] = { s.parts[p] with state := .running, run := { s.parts[p].run with lastCmd := 3, outcome := 0 } } ∧
      (∀ w : WellId, t.wells[w].flipPart ≠ some p) ∧
      { t with parts := s.parts, wells := s.wells, pumps := s.pumps, snd := s.snd, ports := s.ports
               link := { t.link with msi := s.link.msi } } = s)) ∧
  (∀ (s : State) (p : PartId), Ready s → RunFree s.parts[p] → s.usageFull p = false → s.parts[p].state = .running →
    exec (.quiesce p) s = .next (s.updPart p fun x => { x with run := { x.run with
      quiescing := some (s.timeNs + 1000 * max 1 x.run.quiesceLimit.toNat) } })) ∧
  (∀ (s : State) (p : PartId), Ready s →
    ∀ e ∈ [(Instr.start p, (1 : BitVec 3), [PartState.committed]), (.quiesce p, 2, [.running]), (.resume p, 3, [.quiesced]),
        (.stop p, 4, [.committed, .running, .quiesced]), (.release p, 5, [.stopped])], s.parts[p].state ∉ e.2.2 →
      exec e.1 s = .next (s.updPart p fun x => { x with run := { x.run with lastCmd := e.2.1, outcome := 0x16 } })) ∧
  (∀ (s : State) (p : PartId) (d : Nat), s.parts[p].run.quiescing = some d → s.parts[p].state = .running → s.partIdle p = true →
    ∃ t, exec (.quiesceComplete p) s = .next t ∧ OnlyPart p s t ∧
      t.parts[p] = { s.parts[p] with
        state := .quiesced, meter := t.parts[p].meter
        run := { s.parts[p].run with quiescing := none, lastCmd := 2, outcome := 0 } } ∧
      UsageTaken p { s.takeUsage p 3 with partState := 4 } s t t.parts[p].meter ∧
      { t with parts := s.parts, host := s.host, link := { t.link with msi := s.link.msi } } = s) ∧
  (∀ (s : State) (p : PartId) (at_ d : Nat), let s1 := s.advanceTo at_
    s1.parts[p].run.quiescing = some d →
    (d ≤ s1.timeNs → exec (.quiesceTimeout p at_) s = .next (s1.updPart p fun x => { x with
      run := { x.run with quiescing := none, lastCmd := 2, outcome := 0x13 } })) ∧
    (s1.timeNs < d → exec (.quiesceTimeout p at_) s = .next s1)) ∧
  (∀ (s : State) (p : PartId), Ready s → RunFree s.parts[p] → s.usageFull p = false →
    s.parts[p].state ∈ [PartState.committed, .running, .quiesced] → s.parts[p].run.quiescing = none →
    s.partDrained p = true → s.parts[p].caps.queue = [] → SluicesIdle s →
    ∃ t, exec (.stop p) s = .next t ∧ OnlyPart p s t ∧ t.parts[p].state = .stopped ∧ t.parts[p].run.stopCause = 0x01 ∧
      t.parts[p].run.lastCmd = 4 ∧ t.parts[p].run.outcome = 0 ∧ t.parts[p].run.stopping = none ∧
      UsageTaken p { s.takeUsage p 3 with partState := 5 } s t t.parts[p].meter ∧
      (∀ n ∈ s.parts[p].im.img.seqs, t.seqs[n].state ≠ .running ∧ t.seqs[n].state ≠ .halting) ∧
      (∀ c ∈ s.partCores p, t.cores[c].halted = true ∧ t.cores[c].fifo = [] ∧ t.cores[c].k = s.cores[c].k) ∧
      (∀ c, c ∉ s.partCores p → t.cores[c] = s.cores[c]) ∧
      { t with parts := s.parts, seqs := s.seqs, cores := s.cores, host := s.host, wells := s.wells, pumps := s.pumps
               link := { t.link with msi := s.link.msi } } = s) ∧
  (∀ (s : State) (p : PartId) (cause : Byte) (b : Bool), s.parts[p].run.stopping = some (cause, b) →
    (s.partDrained p = false → exec (.stopComplete p) s = .next s) ∧
    (s.partDrained p = true → s.parts[p].state ≠ .stopped →
      ∃ t, exec (.stopComplete p) s = .next t ∧ OnlyPart p s t ∧ t.parts[p].state = .stopped ∧
        t.parts[p].run.stopCause = cause ∧ t.parts[p].run.stopping = none ∧ (b = true → t.parts[p].run.outcome = 0) ∧
        UsageTaken p { s.takeUsage p 3 with partState := 5 } s t t.parts[p].meter ∧
        { t with parts := s.parts, host := s.host, wells := s.wells, pumps := s.pumps
                 link := { t.link with msi := s.link.msi } } = s)) ∧
  (∀ (s : State) (p : PartId), Ready s → RunFree s.parts[p] → s.parts[p].im.busy = none → s.usageFull p = false →
    s.parts[p].state = .stopped → ∃ t, exec (.release p) s = .next t ∧ OnlyPart p s t ∧
      ((s.parts[p].meter.metered = false ∨ s.parts[p].meter.room = true) ∧ s.parts[p].meter.held = [] →
        t.parts[p].state = .empty ∧ t.parts[p].im.img = {} ∧ t.parts[p].run.lastCmd = 5 ∧ t.parts[p].run.outcome = 0 ∧
        t.parts[p].meter.metered = false ∧ (∀ n : SeqId, t.seqs[n].wardMask = t.wardsAttached n)) ∧
      (s.parts[p].meter.metered = true ∧ ¬(s.parts[p].meter.room = true ∧ s.parts[p].meter.held = []) →
        t.parts[p] = { s.parts[p] with run := { s.parts[p].run with releasing := true }, meter := t.parts[p].meter } ∧
          UsageTaken p (s.takeUsage p 3) s t t.parts[p].meter) ∧
      t.fuses = s.fuses ∧ t.timeNs = s.timeNs ∧ t.xfers = s.xfers ∧ t.wells = s.wells ∧ t.pending = s.pending)

/-- A register write is taken from its owner at or above the recorded generation, and takes effect when its epoch
ends (04 R96, R97, R99, R100, R102; 00 R5; 01 R29). -/
def Obligations.ControlWritesWaitForTheEndOfTheirEpoch : Prop :=
  (∀ (s : State) (w : CtlWrite), s.power.alwaysOn = true → reaches w.master w.offset = true → genTarget w.offset = none →
    ((s.writeGen w).toNat < (s.genRecord w.master).toNat →
      ∃ t, exec (.registerWrite (.control w)) s = .next t ∧ Refused w.master w.offset .refusedState true s t) ∧
    ((s.genRecord w.master).toNat ≤ (s.writeGen w).toNat → blockOf w.offset ≠ .none → s.served w.offset = true →
      s.mayWrite w = false →
      ∃ t, exec (.registerWrite (.control w)) s = .next t ∧ t.genRecord w.master = s.writeGen w ∧
        Refused w.master w.offset .refusedOwner false (s.raiseGen w.master (s.writeGen w)) t) ∧
    ((s.genRecord w.master).toNat ≤ (s.writeGen w).toNat → blockOf w.offset ≠ .none → s.served w.offset = true →
      s.mayWrite w = true → s.absentWindow w.offset = false →
      ∃ t, exec (.registerWrite (.control w)) s = .next t ∧ t.genRecord w.master = s.writeGen w ∧
        (∀ m : Byte, m ≠ w.master → t.genRecord m = s.genRecord m) ∧
        t.ctl = { s.ctl with
          recordedGen := t.ctl.recordedGen
          writes := s.ctl.writes ++ [{ w := { w with gen := s.writeGen w }, epoch := s.epoch }] } ∧
        t.power = s.power ∧ t.cores = s.cores ∧ t.seqs = s.seqs ∧ t.host = s.host ∧ t.fuses = s.fuses ∧
        (∀ p : PartId, { t.parts[p] with lull := s.parts[p].lull } = s.parts[p]))) ∧
  (∀ (s : State) (n : Nat), let s1 := s.advanceTo ((n + 1) * 1000)
    s1.ctl.epochs n = [] →
    ∃ t, exec (.controlEpochEnd n) s = .next t ∧ (∀ r : FlagReg, { t.flags r with recent := (s1.flags r).recent } = s1.flags r) ∧
      (∀ c : CoreId, t.cores[c].k = s1.cores[c].k ∧ t.cores[c].mem = s1.cores[c].mem ∧ t.cores[c].queues = s1.cores[c].queues) ∧
      (∀ w : WellId, { t.wells[w] with flags := s1.wells[w].flags } = s1.wells[w]) ∧
      { t with wells := s1.wells, pumps := s1.pumps, axes := s1.axes, cores := s1.cores } = s1) ∧
  (∀ (s : State) (n : Nat) (w : CtlWrite), let s1 := s.advanceTo ((n + 1) * 1000)
    s1.ctl.fences = [] → s1.ctl.writes = [{ w := w, epoch := n }] → (∀ p : PartId, s1.parts[p].run.stopping = none) →
    ∃ t, exec (.controlEpochEnd n) s = .next t ∧
      t = (({ s1 with ctl := { s1.ctl with writes := [] } } : State).applyWrite w n).closeFlags ∧
      (w.offset = 0x280 → t.power = { s1.power with capW := BitVec.ofNat 16 (w.value.toNat % 65536) } ∧ t.ctl.writes = [] ∧
        t.parts = s1.parts ∧ t.host = s1.host)) ∧
  (∀ (s : State) (g : W32), Ready s →
    (s.owner 0x480 ≠ 0x04 → ∃ t, exec (.stwPfGenWrite g) s = .next t ∧ Refused 0x04 0x480 .refusedOwner false s t) ∧
    (s.owner 0x480 = 0x04 → (s.genRecord 0x04).toNat ≤ g.toNat → ∃ t, exec (.stwPfGenWrite g) s = .next t ∧ t.ctl.pfGen = g ∧ t.genRecord 0x04 = g ∧
      (∀ m : Byte, m ≠ 0x04 → t.genRecord m = s.genRecord m) ∧
      { t with ctl := { t.ctl with pfGen := s.ctl.pfGen, recordedGen := s.ctl.recordedGen } } = s) ∧
    (s.owner 0x480 = 0x04 → g.toNat < (s.genRecord 0x04).toNat → ∃ t, exec (.stwPfGenWrite g) s = .next t ∧ Refused 0x04 0x480 .refusedState true s t)) ∧
  (∀ (s : State) (p : PartId) (g : W32), Ready s → let m : Byte := BitVec.ofNat 8 (0x10 + p.val)
    (s.owner (prtOffset p 0x010) ≠ m →
      ∃ t, exec (.prtDrvGenWrite p g) s = .next t ∧ Refused m (prtOffset p 0x010) .refusedOwner false s t) ∧
    (s.owner (prtOffset p 0x010) = m → (s.genRecord m).toNat ≤ g.toNat → ∃ t, exec (.prtDrvGenWrite p g) s = .next t ∧ t.genRecord m = g ∧
      t.parts = updAt s.parts p (fun x => { x with run := { x.run with drvGen := g } }) ∧
      { t with parts := s.parts, ctl := { t.ctl with recordedGen := s.ctl.recordedGen } } = s) ∧
    (s.owner (prtOffset p 0x010) = m → g.toNat < (s.genRecord m).toNat →
      ∃ t, exec (.prtDrvGenWrite p g) s = .next t ∧ Refused m (prtOffset p 0x010) .refusedState true s t)) ∧
  (∀ (s : State) (off : Nat), s.served off = true → s.absentWindow off = true →
    ∃ t, exec (.absentWindowWrite off) s = .next t ∧ Noted t 0x0302 (packDetail [(off, 8)]) ∧ { t with almanac := s.almanac } = s)

/-- A SEQ_REGION write of an active sequencer has no effect and is REFUSED_STATE; else the split is set, at most
4,096 (06 R135). -/
def Obligations.SequencerRegionWritesOnlyAtRest : Prop :=
  ∀ (s : State) (n : SeqId) (split : BitVec 13), Ready s →
    let w := s.wakeAccess (seqOffset n 0x008)
    (s.seqs[n].state = .running ∨ s.seqs[n].state = .halting →
      ∃ t, exec (.seqRegionWrite n split) s = .next t ∧ t.seqs = s.seqs ∧
        Refused (s.owner (seqOffset n 0x008)) (seqOffset n 0x008) .refusedState false w t) ∧
    (s.seqs[n].state ≠ .running → s.seqs[n].state ≠ .halting →
      exec (.seqRegionWrite n split) s = .next (w.updSeq n fun q => { q with split := min 4096 split.toNat }))

/-- A W1C write clears the named flags, a clr_counts write the event counts, but not what its own or a later epoch
set (00 R6; 10 R244, R245). -/
def Obligations.StickyFlagsClearByOnes : Prop :=
  (∀ (s : State) (r : FlagReg) (m : BitVec 4) (n : Nat), s.flagsOpen r = true →
    ∃ t, exec (.w1cFlagClear r m n) s = .next t ∧
      (t.flags r).cur.ov = (if m.getLsbD 0 then ((s.flags r).since n).ov else (s.flags r).cur.ov) ∧
      (t.flags r).cur.un = (if m.getLsbD 1 then ((s.flags r).since n).un else (s.flags r).cur.un) ∧
      (t.flags r).cur.nx = (if m.getLsbD 2 then ((s.flags r).since n).nx else (s.flags r).cur.nx) ∧
      (t.flags r).cur.nv = (if m.getLsbD 3 then ((s.flags r).since n).nv else (s.flags r).cur.nv) ∧
      { t.flags r with cur := (s.flags r).cur } = s.flags r ∧ (∀ q, q ≠ r → t.flags q = s.flags q) ∧
      (∀ c : CoreId, t.cores[c].k = s.cores[c].k ∧ t.cores[c].mem = s.cores[c].mem ∧ t.cores[c].queues = s.cores[c].queues) ∧
      { t with cores := s.cores, axes := s.axes, wells := s.wells, pumps := s.pumps } = s) ∧
  (∀ (s : State) (r : FlagReg) (n : Nat), s.flagsOpen r = true →
    let k := (s.flags r).recent.filter fun e => decide (n ≤ e.epoch)
    ∃ t, exec (.flagsClrCounts r n) s = .next t ∧
      t.flags r = { s.flags r with
        nvEvents := (k.filter (·.counted.nv)).length, ovEvents := (k.filter (·.counted.ov)).length
        unEvents := (k.filter (·.counted.un)).length } ∧
      (∀ q, q ≠ r → t.flags q = s.flags q) ∧
      { t with cores := s.cores, axes := s.axes, wells := s.wells, pumps := s.pumps } = s) ∧
  (∀ (s : State) (r : FlagReg) (m : BitVec 4) (n : Nat), s.flagsOpen r = false →
    exec (.w1cFlagClear r m n) s = .next s ∧ exec (.flagsClrCounts r n) s = .next s)

/-- The energy of an interval is divided without loss or gain, and usage records hold all counters of one instant (04
R104, R105, R106, R107, R108, R109). -/
def Obligations.MeteringAddsUpAndIsRecorded : Prop :=
  (∀ (s : State) (e : EnergyReading), ∃ t, exec (.meterInterval e) s = .next t ∧
    ((allFin 16).map fun p : PartId => t.parts[p].meter.counters[mEnergy]).sum + t.devEnergy =
      ((allFin 16).map fun p : PartId => s.parts[p].meter.counters[mEnergy]).sum + s.devEnergy + e.input ∧
    (∀ p : PartId, s.parts[p].meter.counters[mEnergy] ≤ t.parts[p].meter.counters[mEnergy] ∧
      t.parts[p].meter.counters[mEnergy] ≤ s.parts[p].meter.counters[mEnergy] + s.partEnergy e p ∧
      (s.parts[p].meter.metered = false → t.parts[p] = s.parts[p]) ∧
      (∀ k, k ≠ mEnergy → t.parts[p].meter.counters[k] = s.parts[p].meter.counters[k]) ∧
      { t.parts[p] with meter := { t.parts[p].meter with counters := s.parts[p].meter.counters } } = s.parts[p]) ∧
    t.acts = [] ∧ { t with parts := s.parts, devEnergy := s.devEnergy, acts := s.acts } = s) ∧
  (∀ (s : State) (p : PartId) (at_ : Nat), let s1 := s.advanceTo at_
    let m := s1.parts[p].meter
    let s2 := s1.updPart p fun y => { y with meter := { y.meter with
      lastPeriodic := y.meter.lastPeriodic + 1000000 * y.meter.periodMs.toNat } }
    let due := m.metered = true ∧ m.periodMs ≠ 0 ∧ m.lastPeriodic + 1000000 * m.periodMs.toNat ≤ s1.timeNs
    let takes := if m.enable then m.room = true ∧ m.held = [] else m.held.length < 64
    (¬due → exec (.usageRecordPeriodic p at_) s = .next s1) ∧
    (due → takes → ∃ t, exec (.usageRecordPeriodic p at_) s = .next t ∧
      UsageTaken p (s2.takeUsage p 1) s2 t t.parts[p].meter ∧ OnlyPart p s1 t ∧
      { t with parts := s1.parts, host := s1.host, link := { t.link with msi := s1.link.msi } } = s1) ∧
    (due → ¬takes → exec (.usageRecordPeriodic p at_) s = .next
      (s2.updPart p fun y => { y with meter := { y.meter with skipped := true } }))) ∧
  (∀ (s : State) (p : PartId), Ready s → s.parts[p].meter.metered = true → s.usageFull p = false →
    ∃ t, exec (.snap p) s = .next t ∧ UsageTaken p (s.takeUsage p 2) s t t.parts[p].meter ∧ OnlyPart p s t ∧
      { t with parts := s.parts, host := s.host, link := { t.link with msi := s.link.msi } } = s) ∧
  (∀ (s : State) (p : PartId), Ready s → s.parts[p].meter.metered = true → s.usageFull p = true →
    ∃ t, exec (.snap p) s = .next t ∧ t.ctl.refusalOutcome = 0x16 ∧ t.ctl.refusalCount = s.ctl.refusalCount + 1 ∧
      { t.parts[p] with run := s.parts[p].run } = s.parts[p] ∧ t.host = s.host) ∧
  (∀ (s : State) (p : PartId), s.parts[p].meter.metered = false → exec (.snap p) s = .next s)

/-- The link trains to x4, x8 or x16; PERST#, hot reset, PF reset and the watchdog reset the device, a VF reset one
partition (05 R112, R128, R129; 01 R20; 04 R91; 17 R389, R395, R410). -/
def Obligations.HostLinkTrainsAndResetsTheDevice : Prop :=
  (∀ (s : State) (w at_ : Nat), let s1 := s.advanceTo at_
    s1.power.pwrEn = true → s1.power.perst = false → s1.link.link = .detect → s1.link.detectUntil ≤ s1.timeNs →
    (4 ≤ w → exec (.pcieLinkTrain w at_) s = .next { s1 with
      link := { s1.link with link := .l0, width := if 16 ≤ w then 16 else if 8 ≤ w then 8 else 4 } }) ∧
    (w < 4 → ∃ t, exec (.pcieLinkTrain w at_) s = .next t ∧
      t.link = { s1.link with detectUntil := s1.timeNs + 100000000 } ∧ Noted t 0x0303 (packDetail [(w, 1)]) ∧
      { t with link := s1.link, almanac := s1.almanac } = s1)) ∧
  (∀ s : State, s.power.alwaysOn = true → s.power.perst = false →
    ∃ t, exec .perstAssert s = .next t ∧ DeviceReset s t ∧ t.power.perst = true ∧ t.link.link = .detect ∧ t.link.width = 0) ∧
  (∀ s : State, s.power.perst = true → exec .perstAssert s = .next { s with link := s.link }) ∧
  (∀ (s : State) (at_ : Nat), let s1 := s.advanceTo at_
    s1.power.perst = true → exec (.perstRelease at_) s = .next { s1 with
      power := { s1.power with perst := false }
      link := { s1.link with detectUntil := max s1.link.detectUntil (s1.power.pwrEnAt + 100000000) } }) ∧
  (∀ s : State, s.power.alwaysOn = true →
    (∃ t, exec .hotReset s = .next t ∧ DeviceReset s t ∧ t.power.perst = s.power.perst ∧ t.link.link = .detect ∧ t.link.width = 0) ∧
    (∃ t, exec .pfFlr s = .next t ∧ DeviceReset s t ∧ t.power.perst = s.power.perst ∧ t.link.link = s.link.link ∧
      (s.ctl.halted = false → s.power.pwrEn = true → s.boot.railsUp = true → s.boot.state ≠ .bare →
        fuseMapOk s.fuses.map = true → s.power.straps.bootBare = false ∨ s.loader.endedSinceStraps = true →
        s.loader.slotValid = true → t.boot.state = .verify))) ∧
  (∀ (s : State) (x : W64), s.power.alwaysOn = true →
    ∃ t, exec (.stewardWatchdogExpiry x) s = .next t ∧ DeviceReset s t ∧ t.ctl.incident = s.ctl.incident + 1 ∧
      t.ctl.faultSource = 0x0C ∧ t.power.modFault = true ∧ t.ctl.halted = s.ctl.halted) ∧
  (∀ (s : State) (p : PartId), s.power.alwaysOn = true →
    ∃ t, exec (.vfFlr p) s = .next t ∧ t.parts[p].state = .empty ∧ t.parts[p].im.img = {} ∧ t.parts[p].cq = {} ∧
      t.parts[p].caps.expected = 1 ∧ t.parts[p].caps.takenSeq = 0 ∧ t.parts[p].caps.queue = [] ∧
      t.parts[p].caps.lastTaken = Vector.replicate 32 0 ∧
      (∀ c, s.parts[p].im.busy = some c → t.parts[p].im.outcome = 0x1A ∧ t.parts[p].im.reason = 0x0C) ∧
      t.fuses = s.fuses ∧ t.image = s.image ∧ t.ctl.recordedGen = s.ctl.recordedGen ∧ t.fabric.fenced = s.fabric.fenced ∧
      t.loader.slot = s.loader.slot ∧ t.timeNs = s.timeNs ∧ t.pending = s.pending) ∧
  (∀ s : State, s.power.alwaysOn = false → exec .hotReset s = .next s ∧ exec .pfFlr s = .next s)

/-- BAR2 reads return what the map holds, writes put whole blocks there, and both outside the map are Unsupported
Requests (05 R113, R116; 11 R252, R269; 04 R102). -/
def Obligations.HostReadsAndWritesThroughBar2 : Prop :=
  (∀ (s : State) (off len : Nat), ctlBase ≤ s.barBase .pf + off → off + len ≤ s.barSize .pf →
    s.barBase .pf + off + len ≤ 1 <<< 49 →
    s.power.alwaysOn = true →
    let x := s.barBase .pf + off - ctlBase
    let w := s.wakeRange .pf x len
    exec (.bar2Read ⟨.pf, .bar2⟩ off len) s = .next { w with link := { w.link with reads := w.link.reads ++
      [⟨.pf, off, some ((w.ahead 0x04).ctlRead .pf x len), false⟩] } }) ∧
  (∀ (s : State) (fn : PciFn) (off len : Nat), s.power.alwaysOn = true →
    ∃ t, exec (.bar2Read ⟨fn, .bar0⟩ off len) s = .next t ∧
      (bar0Offset fn off = none → t.link.reads = s.link.reads ++ [⟨fn, off, some (List.replicate len 0), false⟩]) ∧
      (∀ x, bar0Offset fn off = some x →
        t.link.reads = s.link.reads ++ [⟨fn, off, some (((s.wakeRange fn x len).ahead (masterOf fn)).ctlRead fn x len), false⟩]) ∧
      (∀ p : PartId, { t.parts[p] with meter := s.parts[p].meter, lull := s.parts[p].lull } = s.parts[p]) ∧
      t.cores = s.cores ∧ t.host = s.host ∧ t.ctl = s.ctl ∧ t.fuses = s.fuses) ∧
  (∀ (s : State) (fn : PciFn) (off : Nat) (l : Loc), s.power.alwaysOn = true → inCtl fn (s.barBase fn + off) = false → s.barIn fn off 64 = true →
    (s.barBase fn + off) % 64 = 0 → s.barLoc fn (s.barBase fn + off) = some l → s.locGone l = false →
    ∃ t, exec (.bar2Read ⟨fn, .bar2⟩ off 64) s = .next t ∧
      t.link.reads = s.link.reads ++ [⟨fn, off, some ((s.rouse l).readBlock l .host).1.1, ((s.rouse l).readBlock l .host).1.2⟩] ∧
      t.link.aer = s.link.aer ∧ t.cores = s.cores ∧ t.host = s.host ∧ t.fuses = s.fuses) ∧
  (∀ (s : State) (fn : PciFn) (off len : Nat), s.power.alwaysOn = true → inCtl fn (s.barBase fn + off) = false →
    s.barIn fn off len = false → exec (.bar2Read ⟨fn, .bar2⟩ off len) s = .next { s with link := { s.link with
      aer := s.link.aer + 1, reads := s.link.reads ++ [⟨fn, off, none, false⟩] } }) ∧
  (∀ (s : State) (fn : PciFn) (off : Nat) (d : List Byte) (po : Bool) (w : WellId) (a : Nat), s.power.alwaysOn = true → d.length = 64 →
    inCtl fn (s.barBase fn + off) = false → s.barDrops fn off 64 = false → (s.barBase fn + off) % 64 = 0 →
    s.barLoc fn (s.barBase fn + off) = some (.mem (.well w) a) → s.wells[w].gone = false → s.wells[w].quarantined a = false →
    ∃ t, exec (.bar2Write fn off d po) s = .next t ∧
      t.wells[w].data = wrL s.wells[w].data (a / 64 * 64) d ∧
      (∀ b, b < a / 64 * 64 ∨ a / 64 * 64 + 64 ≤ b → rd t.wells[w].data b = rd s.wells[w].data b) ∧
      t.wells[w].marked a = po ∧ (∀ v, v ≠ w → t.wells[v] = s.wells[v]) ∧ t.cores = s.cores ∧ t.pumps = s.pumps ∧
      t.host = s.host ∧ t.link = s.link ∧ t.ctl = s.ctl ∧ t.fuses = s.fuses) ∧
  (∀ (s : State) (fn : PciFn) (off : Nat) (d : List Byte) (po : Bool), s.power.alwaysOn = true → inCtl fn (s.barBase fn + off) = false →
    s.barDrops fn off d.length = true →
    exec (.bar2Write fn off d po) s = .next { s with link := { s.link with aer := s.link.aer + 1 } }) ∧
  (∀ (s : State) (v : W64), Ready s → let b := v.toNat % 562949953421312
    (b % (1 <<< s.link.pfBar2Log2) = 0 →
      exec (.bar2BaseWrite .pf (.base v)) s = .next { s with link := { s.link with pfWinBase := BitVec.ofNat 49 b } }) ∧
    (b % (1 <<< s.link.pfBar2Log2) ≠ 0 → ∃ t, exec (.bar2BaseWrite .pf (.base v)) s = .next t ∧
      Refused (s.owner 0x2A00000) 0x2A00000 .refusedState false s t)) ∧
  (∀ (s : State) (n : Nat), 30 ≤ n → n ≤ 40 →
    exec (.bar2BaseWrite .pf (.resize n)) s = .next { s with link := { s.link with pfBar2Log2 := n } } ∧
    ∀ p : PartId, exec (.bar2BaseWrite (.vf p) (.resize n)) s =
      .next (s.updPart p fun x => { x with caps := { x.caps with bar2Log2 := n } })) ∧
  (∀ (s : State) (p : PartId) (v : W64), Ready s → let b := v.toNat % 562949953421312
    (b % (1 <<< s.parts[p].caps.bar2Log2) = 0 → exec (.bar2BaseWrite (.vf p) (.base v)) s = .next
      (s.updPart p fun x => { x with caps := { x.caps with bar2Base := BitVec.ofNat 49 b } })) ∧
    (b % (1 <<< s.parts[p].caps.bar2Log2) ≠ 0 → ∃ t, exec (.bar2BaseWrite (.vf p) (.base v)) s = .next t ∧
      Refused (s.owner (prtOffset p 0x070)) (prtOffset p 0x070) .refusedState false s t)) ∧
  (∀ (s : State) (p : PartId) (at_ : Nat), s.parts[p].im.busy = some 1 →
    ∀ e ∈ [(Instr.hostReadTimeout ⟨.stage p, at_⟩, (0x13 : Byte), s.advanceTo at_), (.hostErrorCompletion (.stage p), 0x10, s)],
      (e.2.1 = 0x13 → e.2.2.parts[p].im.readAt + 10000000 ≤ e.2.2.timeNs) →
      ∃ t, exec e.1 s = .next t ∧ OnlyPart p e.2.2 t ∧ t.parts[p] = { e.2.2.parts[p] with
          im := { e.2.2.parts[p].im with busy := none, bytes := [], lastCmd := 1, outcome := e.2.1, reason := 0 } } ∧
        { t with parts := e.2.2.parts, link := { t.link with msi := e.2.2.link.msi } } = e.2.2)

/-- A header write takes the expected capsule and only it; held records flush in order; the ring's registers and
timer act as R123 and R434 say (05 R117, R119, R120, R121, R123, R124, R434). -/
def Obligations.CapsulesAreTakenInOrder : Prop :=
  (∀ (s : State) (p : PartId) (off : Nat) (data : List Byte), let d := data.take (capWindow - off)
    let x := s.parts[p].caps
    let w := wrL x.window off d
    let a := (slotOf x.expected).val * capSlot
    let h := rdL w a 64
    let good := (crc32c (h.take 0x3C)).toNat = ldNat h 0x3C 4 ∧ ldNat h 0 4 = x.expected.toNat
    let takes := touchesHeader x.expected off d.length = true ∧ s.watched p = true ∧ s.parts[p].cq.held = [] ∧ good
    let c := { parseCapsule w a with takenAt := s.timeNs }
    ∃ t, exec (.capsuleHeaderWrite p off data) s = .next t ∧ t.parts[p].caps.window = w ∧ OnlyPart p s t ∧
      (¬takes → t.parts[p].caps.expected = x.expected ∧ t.parts[p].caps.queue = x.queue ∧
        t.parts[p].caps.takenSeq = x.takenSeq ∧ t.parts[p].cq = s.parts[p].cq ∧ t.host = s.host) ∧
      (takes → NoneWaits { x with window := w, expected := nextSeq x.expected } →
        t.parts[p].caps.expected = nextSeq x.expected ∧ t.parts[p].caps.takenSeq = x.expected ∧
        t.parts[p].lull.reached = 0 ∧
        (c.bad = none → t.parts[p].caps.queue = x.queue ++ [c] ∧ t.host = s.host) ∧
        (∀ b, c.bad = some b → t.parts[p].caps.queue = x.queue ∧
          Formed p (capsuleRecord s p c 0x01 .refusedState b) c.v0 s t)) ∧
      t.cores = s.cores ∧ t.seqs = s.seqs ∧ t.xfers = s.xfers ∧ t.pending = s.pending) ∧
  (∀ (s : State) (p : PartId) (r : Record) (v0 : Bool), s.parts[p].cq.held = [(r, v0)] → s.parts[p].cq.waiting = [] →
    (s.parts[p].cq.room = true → NoneWaits s.parts[p].caps → ∃ t, exec (.heldRecordFlush p) s = .next t ∧
      t.host = wrL s.host (s.parts[p].cq.base.toNat * 4096 + 32 * s.parts[p].cq.head) (r.bytes s.parts[p].cq.phase) ∧
      t.parts[p].cq.held = [] ∧ t.parts[p].cq.head = (s.parts[p].cq.head + 1) % s.parts[p].cq.size ∧
      { t.parts[p].caps with ignored := s.parts[p].caps.ignored } = s.parts[p].caps ∧ OnlyPart p s t ∧
      t.cores = (match r.done with | none => s.cores | some (k, n) => raised k.val n.val r.outcome s.cores) ∧
      (r.partition = p → Counted r (s.updPart p fun x => { x with cq := { x.cq with held := [] } }) t) ∧
      { t with
        parts := s.parts, host := s.host, cores := s.cores, axes := s.axes, link := { t.link with msi := s.link.msi }
        acts := s.acts } = s) ∧
    (s.parts[p].cq.room = false → exec (.heldRecordFlush p) s = .next s)) ∧
  (∀ (s : State) (p : PartId), s.parts[p].cq.held = [] → s.parts[p].cq.waiting = [] → exec (.heldRecordFlush p) s = .next s) ∧
  (∀ (s : State) (p : PartId) (v : W64), Ready s → let q := s.parts[p].cq
    let ring : BitVec 4 := BitVec.ofNat 4 (v.toNat / 2 % 16)
    let on := v.getLsbD 0
    (q.enable = true → ring ≠ q.ringLog2 → ∃ t, exec (.prtCqCtrlWrite p v) s = .next t ∧ t.parts[p].cq = q ∧
      t.ctl.refusalOutcome = 0x16 ∧ t.ctl.refusalCount = s.ctl.refusalCount + 1 ∧ t.host = s.host) ∧
    (q.enable = false ∨ ring = q.ringLog2 → exec (.prtCqCtrlWrite p v) s = .next (s.updPart p fun x => { x with cq := { x.cq with
      coalesceNs := BitVec.ofNat 16 (v.toNat / 4294967296 % 65536), coalesceCount := BitVec.ofNat 8 (v.toNat / 16777216 % 256)
      ringLog2 := ring, enable := on
      head := if q.enable = false ∧ on = true then 0 else q.head
      tail := if q.enable = false ∧ on = true then 0 else q.tail
      phase := if q.enable = false ∧ on = true then true else q.phase } }))) ∧
  (∀ (s : State) (p : PartId) (at_ b : Nat), let s1 := s.advanceTo at_
    let q := s1.parts[p].cq
    q.firstAt = some b →
    (q.coalesceNs ≠ 0 → b + q.coalesceNs.toNat ≤ s1.timeNs → ∃ t, exec (.coalesceTimerExpiry p at_) s = .next t ∧
      t.parts = updAt s1.parts p (fun x => { x with cq := { x.cq with sinceRaise := 0, firstAt := none } }) ∧
      t.link.msi = s1.link.msi ++ [(.vf p, 0)] ∧ { t with parts := s1.parts, link := { t.link with msi := s1.link.msi } } = s1) ∧
    (q.coalesceNs = 0 ∨ s1.timeNs < b + q.coalesceNs.toNat → exec (.coalesceTimerExpiry p at_) s = .next s1)) ∧
  (∀ (s : State) (p : PartId) (c : Capsule), NextCapsule p kNop s c → CapsuleEnds (.capsuleNop p) p c s 0x01 .done 0)

/-- IDENTITY is answered in every boot state, other DOE objects from VERIFY on, and every MCTP message gets one reply
(05 R126, R127; 04 R102; 18 R432; 03 R71). MEASURE answers nonce, fuse map, svns, measurements and time with a
signature, KEY_EXCHANGE an ephemeral key (a free value, log 7) with a signature and keeps the exchanged key,
IDE_KEY_SET installs a key that unwraps under it for one direction of a stream. -/
def Obligations.AttestationAndMessagesAreAnswered : Prop :=
  let replied (s : State) (h : MctpHead) (o : OutcomeCode) (d : List Byte) : State :=
    { s with ctl := { s.ctl with replies := s.ctl.replies ++ [⟨h, o, d⟩] } }
  (∀ s : State, s.power.alwaysOn = true →
    exec .identity s = .next { s with link := { s.link with doeOut := s.link.doeOut ++ [Config.identityObject] } }) ∧
  (∀ (s : State) (b : List Byte), s.power.alwaysOn = true → s.power.pwrEn = true → s.boot.state ≠ .bare →
    let body := slice b 0 32 ++ leBytes s.fuses.map.toNat 8 ++ leBytes s.boot.infoSvn 1 ++ leBytes s.fuses.minSvn 1 ++
      leBytes s.boot.infoMeasure.toNat 48 ++ (s.parts.toList.map Partition.shownMeasure).flatten ++ leBytes s.timeNs 8
    exec (.measure b) s = .next { s with link := { s.link with
      doeOut := s.link.doeOut ++ [body ++ leBytes (Config.identitySign body).toNat 96] } }) ∧
  (∀ (s : State) (b : List Byte), s.power.alwaysOn = true → s.power.pwrEn = true → s.boot.state ≠ .bare →
    ∃ t, exec (.keyExchange b) s = .next t ∧ { t with link := s.link, freeCount := s.freeCount } = s ∧
      t.link = { s.link with doeOut := t.link.doeOut, exchanged := t.link.exchanged } ∧ t.link.exchanged ≠ none ∧
      (∃ key : List Byte, key.length = 97 ∧ t.link.doeOut = s.link.doeOut ++
        [key ++ leBytes (Config.identitySign (slice b 0 97 ++ key)).toNat 96])) ∧
  (∀ (s : State) (n : IdeStream) (b : List Byte) (x : W64), s.power.alwaysOn = true → s.power.pwrEn = true →
    s.boot.state ≠ .bare → s.link.exchanged = some x →
    (∀ k, Config.ideUnwrap x b = some k → exec (.ideKeySet n b) s = .next { s with link := { s.link with
      ideKeys := Sparse.put s.link.ideKeys (2 * n.stream.val + n.rx.toNat) k, doeOut := s.link.doeOut ++ [[0x00]] } }) ∧
    (Config.ideUnwrap x b = none → exec (.ideKeySet n b) s = .next { s with link := { s.link with
      doeOut := s.link.doeOut ++ [[0x16]] } })) ∧
  (∀ (s : State) (b : List Byte) (n : IdeStream), s.power.alwaysOn = true → s.boot.state = .bare →
    ∀ i ∈ [Instr.measure b, .keyExchange b, .ideKeySet n b],
      exec i s = .next { s with link := { s.link with doeOut := s.link.doeOut ++ [[0x16]] } }) ∧
  (∀ (s : State) (m : MctpMsg), s.mctpHeard m = true → m.head.command = 1 → mctpOk m = true → m.data = [] →
    let a := m.head.address.toNat
    let w := (s.wakeAccess a).wakeAccess (a + 7)
    exec (.mctpRegRead m) s = .next (replied w m.head .done ((w.ahead 0x03).regBytes a))) ∧
  (∀ (s : State) (m : MctpMsg), s.mctpHeard m = true → m.head.command = 2 → mctpOk m = true → m.data.length = 8 →
    let w : CtlWrite := ⟨0x03, m.head.gen, m.head.address.toNat, BitVec.ofNat 64 (leNat m.data)⟩
    genTarget w.offset = none →
    (m.head.gen.toNat < (s.genRecord 0x03).toNat → ∃ t, exec (.mctpRegWrite m) s = .next t ∧ t.ctl.writes = s.ctl.writes ∧
      t.ctl.refusalStale = true ∧
      t.ctl.replies = s.ctl.replies ++ [⟨{ m.head with gen := s.genRecord 0x03 }, .refusedState, []⟩]) ∧
    ((s.genRecord 0x03).toNat ≤ m.head.gen.toNat → blockOf w.offset ≠ .none → s.served w.offset = true →
      s.mayWrite w = false → ∃ t, exec (.mctpRegWrite m) s = .next t ∧ t.ctl.writes = s.ctl.writes ∧
        t.ctl.refusalOutcome = 0x15 ∧ t.ctl.replies = s.ctl.replies ++ [⟨m.head, .refusedOwner, []⟩]) ∧
    ((s.genRecord 0x03).toNat ≤ m.head.gen.toNat → blockOf w.offset ≠ .none → s.served w.offset = true →
      s.mayWrite w = true → s.absentWindow w.offset = false → ∃ t, exec (.mctpRegWrite m) s = .next t ∧
        t.ctl.writes = s.ctl.writes ++ [{ w := w, epoch := s.epoch, reply := some (.mctp m.head) }] ∧
        t.genRecord 0x03 = m.head.gen ∧ t.ctl.replies = s.ctl.replies ∧ t.power = s.power ∧ t.cores = s.cores ∧
        t.host = s.host)) ∧
  (∀ (s : State) (m : MctpMsg), s.mctpHeard m = true → m.head.command = 3 → mctpOk m = true →
    (m.head.gen.toNat < (s.genRecord 0x03).toNat → ∃ t, exec (.mctpLoader m) s = .next t ∧ t.loader = s.loader ∧
      t.ctl.refusalStale = true ∧
      t.ctl.replies = s.ctl.replies ++ [⟨{ m.head with gen := s.genRecord 0x03 }, .refusedState, []⟩]) ∧
    ((s.genRecord 0x03).toNat ≤ m.head.gen.toNat → s.loader.run = none → s.loaderOwner 0x03 = true →
      s.loader.session = some .mctp → m.head.address.toNat / 2 % 8 = 4 →
      ∃ t, exec (.mctpLoader m) s = .next t ∧ t.loader.session = none ∧ t.loader.run = some ⟨.abort, .done, 0⟩ ∧
        t.ctl.replies = s.ctl.replies ++ [⟨m.head, .done, []⟩] ∧ t.genRecord 0x03 = m.head.gen ∧
        { t with loader := s.loader, ctl := { t.ctl with replies := s.ctl.replies, recordedGen := s.ctl.recordedGen } } = s) ∧
    ((s.genRecord 0x03).toNat ≤ m.head.gen.toNat → s.loader.run ≠ none →
      ∃ t, exec (.mctpLoader m) s = .next t ∧ t.loader = s.loader ∧
        t.ctl.replies = s.ctl.replies ++ [⟨m.head, .refusedState, []⟩] ∧
        { t with ctl := { t.ctl with replies := s.ctl.replies, recordedGen := s.ctl.recordedGen } } = s)) ∧
  (∀ (s : State) (m : MctpMsg) (i n : Nat), s.mctpHeard m = true → m.head.command = 4 → mctpOk m = true → m.data = [] →
    m.head.address.toNat = n * 65536 + i → i ≤ 4095 → 1 ≤ n → n ≤ 64 →
    exec (.almanacRead m) s = .next
      (replied s m.head .done ((List.range (min n (4096 - i))).map fun k => s.almSlotBytes (i + k)).flatten)) ∧
  (∀ (s : State) (m : MctpMsg), s.mctpHeard m = true → m.head.command = 5 → mctpOk m = true →
    (m.data.head? = some 1 → exec (.mctpDoe m) s = .next (replied s m.head .done Config.identityObject)) ∧
    (m.data.head? ≠ some 1 → s.boot.state = .bare → exec (.mctpDoe m) s = .next (replied s m.head .refusedState []))) ∧
  (∀ (s : State) (m : MctpMsg), s.mctpHeard m = true →
    ∀ e ∈ [(Instr.mctpRegRead m, (1 : Byte)), (.mctpRegWrite m, 2), (.mctpLoader m, 3), (.almanacRead m, 4), (.mctpDoe m, 5)],
      mctpOk m = false ∨ m.head.command ≠ e.2 → exec e.1 s = .next (replied s m.head .refusedState [])) ∧
  (∀ (s : State) (m : MctpMsg), s.mctpHeard m = false →
    ∀ i ∈ [Instr.mctpRegRead m, .mctpRegWrite m, .mctpLoader m, .almanacRead m, .mctpDoe m], exec i s = .next s)

/-- PROGRAM_LOAD writes its bundles or none, PROGRAM_START starts its sequencers or answers which check fails,
TRANSFER starts one item (06 R151, R152, R154, R155; 07 R158, R172, R180; 16 R385). -/
def Obligations.ProgramAndTransferCapsules : Prop :=
  (∀ (s : State) (p : PartId) (c : Capsule), NextCapsule p kLoad s c →
    let first := ldNat c.params 0 2
    let count := ldNat c.params 2 2
    let b (i : Nat) : Bundle512 := BitVec.ofNat 512 (ldNat c.body (64 * i) 64)
    let mine := s.parts[p].im.img.seqs
    let good := 1 ≤ count ∧ count ≤ 1023 ∧ zeroBytes c.params 4 28 = true ∧ c.body.length = 64 * count ∧
      first + count ≤ 4096 ∧ ∀ i < count, loadOk (b i) (first + i) c.target (mine.map (·.val)) = true
    let n := seqOf c.target
    let held := c.target < 16 ∧ n ∈ mine
    let q := s.seqs[n]
    let r := q.bounds q.region
    let clear := s.capState p ≠ .stopped ∧ ¬(q.active = true ∧ first < r.2 ∧ r.1 < first + count)
    (¬good → CapsuleEnds (.programLoad p) p c s 0x02 .refusedState 4) ∧
    (good → ¬held → CapsuleEnds (.programLoad p) p c s 0x02 .refusedOwner 0) ∧
    (good → held → ¬clear → CapsuleEnds (.programLoad p) p c s 0x02 .refusedState 0) ∧
    (good → held → clear → ∃ t, exec (.programLoad p) s = .next t ∧
      (∀ i < count, Sparse.getD t.seqs[n].imem (first + i) 0 = b i) ∧
      (∀ k : Nat, k < first ∨ first + count ≤ k → Sparse.getD t.seqs[n].imem k 0 = Sparse.getD q.imem k 0) ∧
      { t.seqs[n] with imem := q.imem } = q ∧ (∀ m, m ≠ n → t.seqs[m] = s.seqs[m]) ∧
      Recorded p (capsuleRecord s p c 0x02 .done 0) c.v0 { without p c s with seqs := t.seqs } t)) ∧
  (∀ (s : State) (p : PartId) (c : Capsule), NextCapsule p kStart s c →
    let byte0 := ldNat c.params 0 1
    let region := byte0 = 1
    let entry := ldNat c.params 2 2
    let mine := s.parts[p].im.img.seqs
    let seqs := if c.target = 0xFF then mine else [seqOf c.target]
    let held := c.target = 0xFF ∨ c.target < 16 ∧ (seqOf c.target ∈ mine ∨ s.seqs[seqOf c.target].state = .unattached)
    let loose := ∃ n ∈ seqs, s.seqs[n].state = .unattached
    let outside := ∃ n ∈ seqs, ¬((s.seqs[n].bounds (byte0 == 1)).1 ≤ entry ∧ entry < (s.seqs[n].bounds (byte0 == 1)).2)
    let notIdle := seqs = [] ∨ s.capState p ≠ .running ∨ ∃ n ∈ seqs, s.seqs[n].state ≠ .idle ∨ s.tickInEpoch n = true
    let mainRuns := ∃ n ∈ mine, s.seqs[n].active = true ∧ s.seqs[n].region = false
    let busy := ∃ g ∈ s.parts[p].groups, g.2.busy = true
    let limit := ldNat c.params 4 4
    let i := Instr.programStart p
    (1 < byte0 → CapsuleEnds i p c s 0x02 .refusedState 4) ∧
    (byte0 ≤ 1 → ¬held → CapsuleEnds i p c s 0x02 .refusedOwner 0) ∧
    (byte0 ≤ 1 → held → loose → CapsuleEnds i p c s 0x02 .refusedState 0) ∧
    (byte0 ≤ 1 → held → ¬loose → outside → CapsuleEnds i p c s 0x02 .refusedState 3) ∧
    (byte0 ≤ 1 → held → ¬loose → ¬outside → (notIdle ∨ ¬region ∧ s.parts[p].run.interlude = true) →
      CapsuleEnds i p c s 0x02 .refusedState 0) ∧
    (held → ¬loose → ¬outside → ¬notIdle → region → mainRuns → CapsuleEnds i p c s 0x02 .refusedState 2) ∧
    (held → ¬loose → ¬outside → ¬notIdle → region → ¬mainRuns → busy → CapsuleEnds i p c s 0x02 .refusedState 1) ∧
    (byte0 ≤ 1 → held → ¬loose → ¬outside → ¬notIdle → (¬region → s.parts[p].run.interlude = false) →
      (region → ¬mainRuns ∧ ¬busy) → ∃ t, exec i s = .next t ∧
        Started p entry #v[BitVec.ofNat 64 (ldNat c.params 8 8), BitVec.ofNat 64 (ldNat c.params 16 8),
            BitVec.ofNat 64 (ldNat c.params 24 8)]
          { id := s.nextItem, part := p, tag := c.tag, step := c.step, seqs := seqs, region := byte0 == 1
            limitAt := if limit = 0 then none else some (s.timeNs + 1000 * limit), raiseV0 := c.v0 } (without p c s) t)) ∧
  (∀ (x : Machine.Core) (c : CoreId) (f : PFmt) (a : Vector W64 3), let y := x.start c f a
    y.k[12] = BitVec.ofNat 64 c.val ∧ y.k[13] = a[0] ∧ y.k[14] = a[1] ∧ y.k[15] = a[2] ∧
      (∀ i : Fin 16, i.val < 12 → y.k[i] = 0) ∧ y.queues = x.queues ∧ y.mem = x.mem ∧ y.acc = x.acc ∧ y.beats = x.beats) ∧
  (∀ (s : State) (p : PartId) (c : Capsule), NextCapsule p kTransfer s c →
    let flags := ldNat c.params 24 1
    let len := ldNat c.params 16 8
    let x : Xfer :=
      { id := s.nextItem, kind := .capsule, part := p, tag := c.tag, src := BitVec.ofNat 64 (ldNat c.params 0 8)
        dst := BitVec.ofNat 64 (ldNat c.params 8 8), srcHost := flags.testBit 0, dstHost := flags.testBit 1, length := len
        op := BitVec.ofNat 2 (flags / 32), tc := BitVec.ofNat 2 (flags / 4 % 4), ord := flags.testBit 4, ieee := s.ieee p
        step := c.step, raiseV0 := c.v0 }
    let good := c.body = [] ∧ zeroBytes c.params 25 7 = true ∧ 64 ≤ len ∧ len ≤ 4294967296 ∧ len % 64 = 0 ∧
      flags / 4 % 4 ≠ 2 ∧ flags / 32 ≤ 3 ∧ ¬(x.srcHost = true ∧ x.dstHost = true)
    let remote := x.srcHost = false ∧ s.isLocal x.src = false ∨ x.dstHost = false ∧ s.isLocal x.dst = false
    let engine : Byte := if remote then 0x09 else 0x03
    (¬good → CapsuleEnds (.transfer p) p c s engine .refusedState 4) ∧
    (∀ o, good → s.xferCheck x = some o → CapsuleEnds (.transfer p) p c s engine o 0) ∧
    (good → s.xferCheck x = none → s.capState p ≠ .running → CapsuleEnds (.transfer p) p c s engine .refusedState 0) ∧
    (good → s.xferCheck x = none → s.capState p = .running → ¬remote → ∃ t, exec (.transfer p) s = .next t ∧
      t.xfers = s.xfers ++ [{ x with hostAt := s.timeNs }] ∧ t.nextItem = s.nextItem + 1 ∧ t.parts[p].lull.reached = 0 ∧ OnlyPart p s t ∧
      { t.parts[p] with lull := s.parts[p].lull } = (without p c s).parts[p] ∧ t.host = s.host ∧ t.cores = s.cores ∧
      t.programs = s.programs ∧ t.seqs = s.seqs ∧ t.ports = s.ports ∧ t.pending = s.pending))

/-- A sequencer issues the bundle at its pc to all its cores and follows the flow operations; cores issue bundles in
order; halt and links (06 R132, R134, R137, R143, R153; 07 R173, R177, R178). -/
def Obligations.SequencersIssueInProgramOrder : Prop :=
  (∀ (s : State) (n : SeqId), MayFetch n s →
    let q := s.seqs[n]
    let d := bundleOf (Sparse.getD q.imem q.pc 0)
    let room (e : Nat) := q.pc < e ∧ (∀ l ∈ q.loops, l.last ≠ q.pc) ∧ ∀ l ∈ q.loops.head?, e ≤ l.last
    let r := q.bounds q.region
    (d.flow = .none → (∀ l ∈ q.loops.head?, l.last ≠ q.pc) → Fetches n s { q with pc := q.pc + 1 }) ∧
    (∀ (l : Loop) (t : List Loop), d.flow = .none → q.loops = l :: t → l.last = q.pc →
      (0 < l.left → Fetches n s { q with pc := l.first, loops := { l with left := l.left - 1 } :: t }) ∧
      (l.left = 0 → (∀ m ∈ t.head?, m.last ≠ q.pc) → Fetches n s { q with pc := q.pc + 1, loops := t })) ∧
    (∀ e k, d.flow = .loop e k ∨ (∃ a, d.flow = .loopa a e ∧ k = q.args[a].toNat % 4294967296) → room e →
      (0 < k → q.loops.length < 4 → Fetches n s { q with pc := q.pc + 1, loops := { first := q.pc + 1, last := e, left := k - 1 } :: q.loops }) ∧
      (k = 0 → Fetches n s { q with pc := e + 1 })) ∧
    (∀ a, d.flow = .jump a → r.1 ≤ a → a < r.2 → (∀ l ∈ q.loops, l.last ≠ q.pc ∧ l.first ≤ a ∧ a ≤ l.last) →
      Fetches n s { q with pc := a }) ∧
    (d.flow = .halt → Fetches n s { q with state := .halting, haltSeq := d.seqIdx })) ∧
  (∀ (s : State) (n : SeqId), s.seqs[n].state ≠ .running ∨ (∃ c ∈ s.seqCores n, 16 ≤ s.cores[c].fifo.length) →
    ∀ e, exec (.sequencerFetch ⟨n, e⟩) s = .next s) ∧
  (∀ (s : State) (n : SeqId), MayFetch n s →
    exec (.sequencerFetch ⟨n, .corrected⟩) s = exec (.sequencerFetch ⟨n, .ok⟩) (s.evidence (n.val / 4) evCe 1)) ∧
  (∀ (s : State) (c : CoreId) (w : Bundle512) (k : BitVec 48) (l : List (Bundle512 × BitVec 48)),
    s.coreReady c = true → s.cores[c].grace = none → s.cores[c].fifo = (w, k) :: l →
    let d := bundleOf w
    let b := ((s.updCore c fun x => { x with fifo := l, waiting := none }).issueBeat c d.seqIdx k).bundle d
    ((d.sync.wait s.cores[c] = none ∨
        ∃ v, d.sync.wait s.cores[c] = some v ∧ v.holds s.cores[c] = true ∧ ∀ id m, d.sync ≠ .barrier id m) →
      b.faults = [] → b.exts = [] → b.new.grace = none → b.new.vx.storms = s.cores[c].vx.storms →
      b.new.beats = s.cores[c].beats → (∀ f ∈ b.new.inflight, s.cores[c].beats + d.skip < f.due) →
      CoreBecomes (.bundleIssue c) c s
        { b.new with
          beats := s.cores[c].beats + 1 + d.skip, halted := b.new.halted || decide (d.flow = .halt)
          drains := b.new.drains || decide (d.flow = .halt) }) ∧
    (∀ v, d.sync.wait s.cores[c] = some v → v.holds s.cores[c] = false → (∀ id m, d.sync ≠ .barrier id m) →
      CoreBecomes (.bundleIssue c) c s { s.cores[c] with waiting := some v })) ∧
  (∀ (s : State) (c : CoreId), s.coreReady c = false ∨ s.cores[c].fifo = [] → exec (.bundleIssue c) s = .next s) ∧
  (∀ (s : State) (n : SeqId) (p : PartId) (x : Program),
    s.seqs[n].state = .halting → s.haltDrained n = true → s.seqHolder n = some p → x.seqs = [n] → x.part = p →
    s.seqs[n].item = some x.id → s.programs.find? (fun y => y.id == x.id) = some x → s.parts[p].storm.closing = none →
    ((∀ c ∈ s.seqCores n, ∀ q : QId, s.cores[c].queues[q].entries = []) →
      ∃ t, exec (.programHaltComplete n) s = .next t ∧
        t.seqs = updAt s.seqs n (fun q => { q with state := .idle, item := none }) ∧
        t.programs = s.programs.filter (fun y => y.id != x.id) ∧
        Formed p { tag := x.tag, step := x.step, outcome := .done, engine := 0x02, partition := p } x.raiseV0 s t ∧
        t.cores = s.cores ∧ t.xfers = s.xfers ∧ OnlyPart p s t) ∧
    ((∃ c ∈ s.seqCores n, ∃ q : QId, s.cores[c].queues[q].entries ≠ []) → n ∈ s.parts[p].im.img.seqs →
      ∃ t, exec (.programHaltComplete n) s = .next t ∧ t.seqs[n].state = .faulted ∧
        (s.seqs[n].fault0 = 0 → t.seqs[n].fault0.toNat / 2 ^ 56 = 0x0A) ∧
        t.parts[p].fault.transit.length > s.parts[p].fault.transit.length ∧ t.programs = s.programs ∧ OnlyPart p s t)) ∧
  (∀ (s : State) (n : SeqId), s.seqs[n].state ≠ .halting ∨ s.haltDrained n = false →
    exec (.programHaltComplete n) s = .next s) ∧
  (∀ (s : State) (c : CoreId) (q : QId) (x : Entry) (r : List Entry), s.cores[c].queues[q].entries = x :: r →
    s.coreLive c = true → let o := s.cores[c].queues[q].topo.toNat
    let far := coreOf (o / 2 ^ 40 % 256)
    let fq := qOf (o / 2 ^ 35 % 32)
    o / 2 ^ 48 % 256 = 0x19 → o / 2 ^ 40 % 256 < 192 → far ≠ c →
    (s.cores[far].queues[fq].entries.length < 8 → ∃ t, exec (.crossCoreMove c q) s = .next t ∧
      t.cores[far] = { s.cores[far] with queues := updAt s.cores[far].queues fq fun k => { k with entries := k.entries ++ [x] } } ∧
      t.cores[c] = { s.cores[c] with queues := updAt s.cores[c].queues q fun k => { k with entries := r } } ∧
      (∀ d, d ≠ c → d ≠ far → t.cores[d] = s.cores[d]) ∧ { t with cores := s.cores } = s) ∧
    (8 ≤ s.cores[far].queues[fq].entries.length → exec (.crossCoreMove c q) s = .next s))

/-- A schedule fault halts its core and faults its partition's sequencers; the first is collected; limits stop;
cadences tick on their grid (06 R148, R149, R150; 07 R178, R180, R181, R182). -/
def Obligations.FaultsLimitsAndCadences : Prop :=
  (∀ (s : State) (c : CoreId) (p : PartId) (n : SeqId) (x : LqArgs), CoreOpen s c → s.coreHolder c = some p →
    s.driverOf c = some n → (Instr.ldq c x).wf = true →
    topoPush s.cores[c].queues[x.q.q].topo ≠ (if x.portB then 0x02 else 0x01) →
    let w := faultWord { cause := 0x05, queue := x.q.q.val } c.val 0 3 0
    ∃ t, exec (.ldq c x) s = .next t ∧
      t.cores[c].halted = true ∧ t.cores[c].fifo = [] ∧ (s.cores[c].faultWord = 0 → t.cores[c].faultWord = w) ∧
      t.cores[c].queues = s.cores[c].queues ∧ t.cores[c].ag = s.cores[c].ag ∧ t.cores[c].mem = s.cores[c].mem ∧
      t.cores[c].inflight = s.cores[c].inflight ∧ t.cores[c].beats = s.cores[c].beats + 1 ∧
      (s.seqs[n].fault0 = 0 → t.seqs[n].fault0 = w) ∧
      (∀ m ∈ s.parts[p].im.img.seqs, s.seqs[m].state = .running ∨ s.seqs[m].state = .halting → t.seqs[m].state = .faulted) ∧
      (∀ m : SeqId, ¬(s.seqs[m].state = .running ∨ s.seqs[m].state = .halting) → t.seqs[m].state = s.seqs[m].state) ∧
      t.parts[p].fault.transit.length = s.parts[p].fault.transit.length + 1 ∧
      (∀ d : CoreId, d ∉ s.partCores p → d ≠ c → t.cores[d] = s.cores[d]) ∧ t.host = s.host ∧ t.xfers = s.xfers) ∧
  (∀ (s : State) (n : SeqId) (p : PartId), s.seqs[n].state = .running →
    (∀ c ∈ s.seqCores n, s.cores[c].fifo.length < 16) → s.seqs[n].region = false → s.seqs[n].split ≤ s.seqs[n].pc →
    s.seqHolder n = some p → n ∈ s.parts[p].im.img.seqs →
    ∀ e, ∃ t, exec (.sequencerFetch ⟨n, e⟩) s = .next t ∧ t.seqs[n].state = .faulted ∧
      t.seqs[n].issueCount = s.seqs[n].issueCount ∧ (s.seqs[n].fault0 = 0 → t.seqs[n].fault0.toNat / 2 ^ 56 = 0x09) ∧
      (∀ c : CoreId, t.cores[c].fifo = s.cores[c].fifo) ∧ OnlyPart p s t ∧ t.host = s.host) ∧
  (∀ (s : State) (n : SeqId) (p : PartId), MayFetch n s → s.seqHolder n = some p → n ∈ s.parts[p].im.img.seqs →
    ∃ t, exec (.sequencerFetch ⟨n, .uncorrectable⟩) s = .next t ∧ t.seqs[n].state = .faulted ∧
      t.seqs[n].issueCount = s.seqs[n].issueCount ∧ (s.seqs[n].fault0 = 0 → t.seqs[n].fault0.toNat / 2 ^ 56 = 0x0B) ∧
      (∀ c : CoreId, t.cores[c].fifo = s.cores[c].fifo) ∧ OnlyPart p s t ∧ t.host = s.host) ∧
  (∀ (s : State) (p : PartId) (x : Program) (cr : Nat) (n : SeqId) (w b : W64) (k : BitVec 48)
      (r : List (Nat × SeqId × W64 × BitVec 48 × W64)), s.parts[p].fault.transit = (cr, n, w, k, b) :: r →
    (s.parts[p].fault.first = none → s.parts[p].state = .running → s.parts[p].run.stopping = none →
      s.programs.filter (fun y => y.part == p) = [x] → x.part = p → NoItems p s →
      ∃ t, exec (.faultCollect p) s = .next t ∧ t.parts[p].fault = { s.parts[p].fault with transit := r, first := some (n, w) } ∧
        t.parts[p].run.stopping = some (0x02, false) ∧ t.ctl.incident = s.ctl.incident + 1 ∧ t.ctl.faultSource = 0x01 ∧
        Formed p { tag := x.tag, step := x.step, outcome := .failedSchedule, engine := 0x02, partition := p
                   detail0 := if n ∈ x.seqs then w else (w &&& 0x00FFFFFFFFFFFFFF#64) ||| 0xFF00000000000000#64
                   incident := s.ctl.incident + 1 } x.raiseV0 s t ∧
        (∀ y ∈ t.programs, y.id ≠ x.id) ∧ OnlyPart p s t) ∧
    (∀ f, s.parts[p].fault.first = some f → exec (.faultCollect p) s = .next (s.updPart p fun x => { x with
      fault := { x.fault with transit := r, count := satAdd 16 x.fault.count 1 } }))) ∧
  (∀ (s : State) (p : PartId), s.parts[p].fault.transit = [] → exec (.faultCollect p) s = .next s) ∧
  (∀ (s : State) (p : PartId) (at_ : Nat), let s1 := s.advanceTo at_
    ((∃ x ∈ s1.programs, x.part = p ∧ ∃ l ∈ x.limitAt, l ≤ s1.timeNs) → exec (.programLimitExpiry p at_) s = .next
      { s1 with
        programs := s1.programs.map fun x => if x.part = p ∧ x.expired s1.timeNs = true then { x with limitAt := none } else x
        ctl := { s1.ctl with writes := s1.ctl.writes ++
          [{ w := ⟨s1.owner (prtOffset p 0), 0, prtOffset p 0, 9⟩, epoch := s1.timeNs / 1000, stop := some 0x01 }] } }) ∧
    ((∀ x ∈ s1.programs, x.part = p → ∀ l ∈ x.limitAt, s1.timeNs < l) → exec (.programLimitExpiry p at_) s = .next s1)) ∧
  (∀ (s : State) (n : SeqId) (per : W32) (e : BitVec 12) (k : Nat), Ready s →
    let w := s.wakeAccess (0x400080 + n.val * 0x10000)
    (s.seqs[n].state ≠ .unattached ∧ e.toNat < s.seqs[n].split →
      exec (.cadenceArm n per e k) s = .next { w with seqs := updAt w.seqs n fun q => { q with
        arm := true, periodNs := per, entry := e, missed := 0, tickLow := 0, tickK := 0, tArm := (k + 1) * 1000 } }) ∧
    (¬(s.seqs[n].state ≠ .unattached ∧ e.toNat < s.seqs[n].split) → ∃ t, exec (.cadenceArm n per e k) s = .next t ∧
      Refused (s.owner (0x400080 + n.val * 0x10000)) (0x400080 + n.val * 0x10000) .refusedState false w t)) ∧
  (∀ (s : State) (n : SeqId), Ready s → let w := s.wakeAccess (0x400080 + n.val * 0x10000)
    exec (.cadenceDisarm n) s = .next { w with seqs := updAt w.seqs n fun q => { q with arm := false } }) ∧
  (∀ (s : State) (n : SeqId) (p : PartId) (at_ k : Nat), let s1 := s.advanceTo at_
    let q := s1.seqs[n]
    let t0 := max 10000 q.periodNs.toNat
    s1.seqHolder n = some p → at_ ≤ s1.timeNs → q.arm = true → at_ = q.tArm + k * t0 → q.tickK < k →
    (s1.capState p = .running → q.state = .idle → s1.parts[p].run.interlude = false →
      ∃ t, exec (.cadenceTick n at_) s = .next t ∧
        Started p q.entry.toNat #v[BitVec.ofNat 64 k, BitVec.ofNat 64 at_, q.cadArg]
          { id := s1.nextItem, part := p, tag := q.cadTag + BitVec.ofNat 64 k, seqs := [n], region := false }
          { s1 with seqs := updAt s1.seqs n fun q => { q with tickK := k, tickLow := BitVec.ofNat 32 k } } t) ∧
    (s1.capState p = .running → q.state ≠ .idle ∨ s1.parts[p].run.interlude = true →
      exec (.cadenceTick n at_) s = .next { s1 with seqs := updAt s1.seqs n fun q => { q with
        tickK := k, tickLow := BitVec.ofNat 32 k, missed := satAdd 32 q.missed 1 } }) ∧
    (s1.capState p ≠ .running →
      exec (.cadenceTick n at_) s = .next { s1 with seqs := updAt s1.seqs n fun q => { q with tickK := k } })) ∧
  (∀ (s : State) (n : SeqId) (at_ : Nat), let s1 := s.advanceTo at_
    s1.seqs[n].arm = false → exec (.cadenceTick n at_) s = .next s1)

/-- Scalar arithmetic puts its result in flight for Kd, 1 beat on, 3 for MUL, and a NOP none (07 R159; 06 R139). -/
def Obligations.ScalarArithmeticWritesItsRegister : Prop :=
  (∀ (s : State) (c : CoreId), CoreOpen s c → CoreBecomes (.scalarNop c) c s (oneBeat s.cores[c] [])) ∧
  ScalarWrites .movi 1 (fun x _ _ => x.imm.signExtend 64) ∧
  ScalarWrites .movhi 1 (fun x a _ => (x.imm.setWidth 64 <<< 32) ||| (a &&& 0xFFFFFFFF)) ∧
  ScalarWrites .add 1 (fun x a b => a + b + x.imm.signExtend 64) ∧
  ScalarWrites .sub 1 (fun _ a b => a - b) ∧
  ScalarWrites .and 1 (fun _ a b => a &&& b) ∧
  ScalarWrites .or 1 (fun _ a b => a ||| b) ∧
  ScalarWrites .xor 1 (fun _ a b => a ^^^ b) ∧
  ScalarWrites .shl 1 (fun x a _ => a <<< (x.imm.toNat % 64)) ∧
  ScalarWrites .shr 1 (fun x a _ => a >>> (x.imm.toNat % 64)) ∧
  ScalarWrites .sar 1 (fun x a _ => a.sshiftRight (x.imm.toNat % 64)) ∧
  ScalarWrites .mul 3 (fun _ a b => a * b)

/-- AGSET, AGRST, AGGET, RDBEATS, RDTIME, XRING and XFREE put their results in flight (07 R159, R160, R167, R168).
For every core that may issue: AGSET (fields 0 to 4) sends Ka + sext(imm) to the field of AGd, AGRST restarts AGd,
AGGET reads the current address of AGa, RDBEATS the beat count of the issue beat, RDTIME the field's copy of the
time, which lags by at most 40 ns (how far is a free value, log 7), two beats on. -/
def Obligations.GeneratorTimeAndRingCommands : Prop :=
  (∀ (s : State) (c : CoreId) (x : SArgs), CoreOpen s c → x.f.toNat ≤ 4 →
    CoreBecomes (.agset c x) c s (oneBeat s.cores[c]
      [due s c 1 1 0 (.agset x.d x.f (s.cores[c].k[x.a] + x.imm.signExtend 64))])) ∧
  (∀ (s : State) (c : CoreId) (x : SArgs), CoreOpen s c →
    CoreBecomes (.agrst c x) c s (oneBeat s.cores[c] [due s c 1 1 0 (.agrst x.d)])) ∧
  (∀ (s : State) (c : CoreId) (x : SArgs), CoreOpen s c →
    CoreBecomes (.agget c x) c s (oneBeat s.cores[c]
      [due s c 1 1 0 (.kreg x.d (s.cores[c].ag[x.a].cur.setWidth 64))])) ∧
  (∀ (s : State) (c : CoreId) (x : SArgs), CoreOpen s c →
    CoreBecomes (.rdbeats c x) c s (oneBeat s.cores[c]
      [due s c 1 1 0 (.kreg x.d (BitVec.ofNat 64 s.cores[c].beats))])) ∧
  (∀ (s : State) (c : CoreId) (x : SArgs), CoreOpen s c →
    ∃ lag : Nat, lag ≤ 40 ∧ CoreBecomes (.rdtime c x) c s (oneBeat s.cores[c]
      [due s c 2 1 0 (.kreg x.d (BitVec.ofNat 64 (s.timeNs - lag)))])) ∧
  (∀ (s : State) (c : CoreId) (x : SArgs), CoreOpen s c →
    let k := x.imm.toNat % 16
    let line := bits s.cores[c].k[x.a] 8 14
    4 ≤ k → k ≤ 12 → line * 256 + 32 * 2 ^ k ≤ 0x300000 → s.cores[c].ring.head ≤ s.cores[c].ring.tail →
    CoreBecomes (.xring c x) c s (oneBeat s.cores[c] [due s c 1 1 0 (.ring (BitVec.ofNat 14 line) k)])) ∧
  (∀ (s : State) (c : CoreId) (x : SArgs), CoreOpen s c → 1 ≤ x.imm.toNat → x.imm.toNat ≤ 4096 →
    s.cores[c].ring.tail + x.imm.toNat ≤ s.cores[c].ring.head →
    CoreBecomes (.xfree c x) c s (oneBeat s.cores[c] [due s c 1 1 0 (.ringFree x.imm.toNat)]))

/-- LDQ, LDQ2, STQ and STQ2 move 256-byte lines between core memory and queue ends, and a slot NOP moves none (07
R162, R163, R164; 06 R145, R146). -/
def Obligations.LoadAndStoreSlotsMoveLines : Prop :=
  (∀ (s : State) (c : CoreId), CoreOpen s c → CoreBecomes (.loadNop c) c s (oneBeat s.cores[c] [])) ∧
  (∀ (s : State) (c : CoreId), CoreOpen s c → CoreBecomes (.storeNop c) c s (oneBeat s.cores[c] [])) ∧
  (∀ (s : State) (c : CoreId) (x : LqArgs), CoreOpen s c → (Instr.ldq c x).wf = true →
    topoPush s.cores[c].queues[x.q.q].topo = (if x.portB then 0x02 else 0x01) →
    agLine s.cores[c] x.ag < 0x300000 →
    CoreBecomes (.ldq c x) c s { oneBeat s.cores[c] [due s c 3 1 3 (.push x.q x.fmt
        (s.cores[c].line (agLine s.cores[c] x.ag)) (s.cores[c].memPoisoned (agLine s.cores[c] x.ag) 256))] with
      ag := advIf x.adv x.ag s.cores[c].ag }) ∧
  (∀ (s : State) (c : CoreId) (x : Lq2Args), CoreOpen s c → (Instr.ldq2 c x).wf = true →
    topoPush s.cores[c].queues[x.qA.q].topo = 0x01 → topoPush s.cores[c].queues[x.qB.q].topo = 0x02 →
    agLine s.cores[c] x.agA < 0x300000 → agLine s.cores[c] x.agB < 0x300000 →
    bankOf (agLine s.cores[c] x.agA) ≠ bankOf (agLine s.cores[c] x.agB) →
    ¬(x.advA = true ∧ x.advB = true ∧ x.agA = x.agB) →
    CoreBecomes (.ldq2 c x) c s { oneBeat s.cores[c]
      [due s c 3 1 3 (.push x.qA x.fmtA
        (s.cores[c].line (agLine s.cores[c] x.agA)) (s.cores[c].memPoisoned (agLine s.cores[c] x.agA) 256)),
       due s c 3 1 3 (.push x.qB x.fmtB
        (s.cores[c].line (agLine s.cores[c] x.agB)) (s.cores[c].memPoisoned (agLine s.cores[c] x.agB) 256))] with
      ag := advIf x.advB x.agB (advIf x.advA x.agA s.cores[c].ag) }) ∧
  (∀ (s : State) (c : CoreId) (x : LqArgs) (e : Entry), CoreOpen s c → (Instr.stq c x).wf = true →
    topoPop s.cores[c].queues[x.q.q].topo = (if x.portB then 0x18 else 0x17) →
    agLine s.cores[c] x.ag < 0x300000 → HeadIs s.cores[c] x.q x.fmt e →
    CoreBecomes (.stq c x) c s { oneBeat s.cores[c]
      [due s c 2 1 4 (.memLine (agLine s.cores[c] x.ag) e.data e.poison)] with
      ag := advIf x.adv x.ag s.cores[c].ag
      queues := popped s.cores[c] x.q.q }) ∧
  (∀ (s : State) (c : CoreId) (x : Lq2Args) (e f : Entry), CoreOpen s c → (Instr.stq2 c x).wf = true →
    topoPop s.cores[c].queues[x.qA.q].topo = 0x17 → topoPop s.cores[c].queues[x.qB.q].topo = 0x18 →
    agLine s.cores[c] x.agA < 0x300000 → agLine s.cores[c] x.agB < 0x300000 →
    bankOf (agLine s.cores[c] x.agA) ≠ bankOf (agLine s.cores[c] x.agB) →
    ¬(x.advA = true ∧ x.advB = true ∧ x.agA = x.agB) →
    HeadIs s.cores[c] x.qA x.fmtA e → HeadIs s.cores[c] x.qB x.fmtB f →
    CoreBecomes (.stq2 c x) c s { oneBeat s.cores[c]
      [due s c 2 1 4 (.memLine (agLine s.cores[c] x.agA) e.data e.poison),
       due s c 2 1 4 (.memLine (agLine s.cores[c] x.agB) f.data f.poison)] with
      ag := advIf x.advB x.agB (advIf x.advA x.agA s.cores[c].ag)
      queues := updAt (popped s.cores[c] x.qA.q) x.qB.q fun k => { k with entries := k.entries.drop 1 } })

/-- GET, PUT and SIGNAL to a local address reserve one ring slot and put one transfer in flight (07 R165, R166, R168,
R174). -/
def Obligations.TransfersAreIssuedWithARingSlot : Prop :=
  (∀ (s : State) (c : CoreId) (p : PartId) (x : XferArgs) (store : Bool), CoreOpen s c → s.coreHolder c = some p →
    (if store then Instr.put c x else Instr.get c x).wf = true →
    let k := s.cores[c]
    let a := k.ag[x.ag].cur.toNat / 64 * 64
    let len := k.k[x.kl].toNat
    len % 64 = 0 → 64 ≤ len → a + len ≤ 0x300000 →
    k.ring.sizeLog2 ≠ 0 → k.ring.head - k.ring.tail < 2 ^ k.ring.sizeLog2 → s.isLocal k.k[x.ka] = true →
    let i : Xfer :=
      { id := s.nextItem, kind := if store then .put else .get, part := p, tag := k.k[x.kt], core := c
        ringAt := k.ring.baseLine.toNat * 256 + 32 * (k.ring.head % 2 ^ k.ring.sizeLog2)
        ringPhase := k.ring.head / 2 ^ k.ring.sizeLog2 % 2 == 0
        ctr := x.n, seqIdx := 0, src := if store then s.coreGa c a else k.k[x.ka]
        dst := if store then k.k[x.ka] else s.coreGa c a, length := len, op := x.op.truncate 2, tc := x.tc, ord := x.ord
        ieee := s.ieee p }
    ∃ t, exec (if store then .put c x else .get c x) s = .next t ∧
      t.xfers = s.xfers ++ [{ i with outcome := s.xferCheck i, hostAt := s.timeNs }] ∧ t.nextItem = s.nextItem + 1 ∧
      t.cores[c] = { oneBeat k [] with ag := advIf x.adv x.ag k.ag, ring := { k.ring with head := k.ring.head + 1 } } ∧
      OnlyCore c s { t with xfers := s.xfers, nextItem := s.nextItem }) ∧
  (∀ (s : State) (c : CoreId) (p : PartId) (kd kt : Reg4) (n : CtrId), CoreOpen s c → s.coreHolder c = some p →
    let k := s.cores[c]
    k.ring.sizeLog2 ≠ 0 → k.ring.head - k.ring.tail < 2 ^ k.ring.sizeLog2 → s.isLocal k.k[kd] = true →
    let i : Xfer :=
      { id := s.nextItem, kind := .signal, part := p, tag := k.k[kt], core := c
        ringAt := k.ring.baseLine.toNat * 256 + 32 * (k.ring.head % 2 ^ k.ring.sizeLog2)
        ringPhase := k.ring.head / 2 ^ k.ring.sizeLog2 % 2 == 0
        ctr := n, src := k.k[kd], dst := k.k[kd], length := 0, ieee := s.ieee p }
    ∃ t, exec (.signal c kd kt n) s = .next t ∧
      t.xfers = s.xfers ++ [{ i with outcome := s.signalCheck p k.k[kd], hostAt := s.timeNs }] ∧ t.nextItem = s.nextItem + 1 ∧
      t.cores[c] = { oneBeat k [] with ring := { k.ring with head := k.ring.head + 1 } } ∧
      OnlyCore c s { t with xfers := s.xfers, nextItem := s.nextItem })

/-- A transfer of a core that has its outcome ends with a record in its ring slot and its counter raised (07 R169,
R174; 05 R122). -/
def Obligations.TransferCompleteWritesItsRecord : Prop :=
  ∀ (s : State) (id : Nat) (x : Xfer) (o : OutcomeCode),
    s.xfers.find? (fun y => y.id == id) = some x → x.outcome = some o → x.sent ≤ x.settled → x.kind ≠ .capsule →
    s.parts[x.part].claims? = true → s.fields[fieldOf (x.core.val / 48)].failed = false →
    ∃ t, exec (.transferComplete id) s = .next t ∧
      t.xfers = s.xfers.filter (fun y => y.id != id) ∧
      t.cores[x.core].mem = wrL s.cores[x.core].mem x.ringAt ((x.record o).bytes x.ringPhase) ∧
      (∀ a, a < x.ringAt ∨ x.ringAt + 32 ≤ a → rd t.cores[x.core].mem a = rd s.cores[x.core].mem a) ∧
      t.cores[x.core].sync = updAt s.cores[x.core].sync x.ctr (fun y =>
        { count := y.count + 1
          fail := if o = .done then y.fail else BitVec.ofNat 16 (min (y.fail.toNat + 1) 0xFFFF) }) ∧
      t.parts = updAt s.parts x.part (fun y => { y with lull := { y.lull with idleSince := s.timeNs } }) ∧
      (∀ d, d ≠ x.core → t.cores[d] = s.cores[d]) ∧
      { t.cores[x.core] with mem := s.cores[x.core].mem, sync := s.cores[x.core].sync } = s.cores[x.core] ∧
      { t with cores := s.cores, xfers := s.xfers, parts := s.parts } = s

/-- CSET, CADD, the waits, BARRIER, RAISE and the two releases change a core as R173, R174 and R176 say (07 R173,
R174, R175, R176). -/
def Obligations.CountersWaitsAndBarriers : Prop :=
  (∀ (s : State) (c : CoreId), CoreOpen s c → CoreBecomes (.syncNone c) c s (oneBeat s.cores[c] [])) ∧
  (∀ (s : State) (c : CoreId) (n : CtrId) (v : W32), CoreOpen s c →
    CoreBecomes (.cset c n v) c s { oneBeat s.cores[c] [] with sync := s.cores[c].sync.set n { count := v, fail := 0 } }) ∧
  (∀ (s : State) (c : CoreId) (n : CtrId) (v : W32), CoreOpen s c →
    CoreBecomes (.cadd c n v) c s { oneBeat s.cores[c] [] with
      sync := updAt s.cores[c].sync n fun y => { y with count := y.count + v } }) ∧
  (∀ (s : State) (c : CoreId) (n : CtrId) (v : W32), CoreOpen s c →
    Waits (.waitc c n v) c s (.waitc n v) (.counter n v) (v.toNat ≤ s.cores[c].sync[n].count.toNat)) ∧
  (∀ (s : State) (c : CoreId) (q : QId) (k : BitVec 4), CoreOpen s c → 1 ≤ k.toNat → k.toNat ≤ 8 →
    Waits (.waitqp c q k) c s (.waitqp q k) (.qPop q k.toNat) (k.toNat ≤ s.cores[c].queues[q].entries.length)) ∧
  (∀ (s : State) (c : CoreId) (q : QId) (k : BitVec 4), CoreOpen s c → 1 ≤ k.toNat → k.toNat ≤ 8 →
    Waits (.waitqr c q k) c s (.waitqr q k) (.qRoom q k.toNat) (s.cores[c].queues[q].entries.length + k.toNat ≤ 8)) ∧
  (∀ (s : State) (c : CoreId) (b : BitVec 4) (m : W16), CoreOpen s c → s.barrierOk c m = true →
    s.cores[c].vx.storms = [] →
    let n := s.cores[c].barriers[b.toNat] + 1
    CoreBecomes (.barrier c b m) c s { s.cores[c] with
      waiting := some (.barrier b m n false), fifo := (waitBundle (.barrier b m), 0) :: s.cores[c].fifo
      barriers := s.cores[c].barriers.set b.toNat n }) ∧
  (∀ (s : State) (c : CoreId) (o : SyncOp) (v : Wait) (w : Bundle512) (n : BitVec 48) (r : List (Bundle512 × BitVec 48)),
    s.cores[c].waiting = some v → v.holds s.cores[c] = true → s.coreLive c = true → s.cores[c].halted = false → s.cores[c].grace = none →
    (∀ f ∈ s.cores[c].inflight, s.cores[c].beats < f.due) → s.cores[c].fifo = (w, n) :: r →
    bundleOf w = { emptyBundle with version := 1, sync := o } → (o.wait s.cores[c]).isSome = true →
    CoreBecomes (.waitRelease c) c s
      { oneBeat s.cores[c] [] with curIssue := n, fifo := r, waiting := none }) ∧
  (∀ (s : State) (c : CoreId) (b : BitVec 4) (m : W16) (n : Nat),
    s.cores[c].waiting = some (.barrier b m n false) → s.barrierMet b m n = true →
    ∃ t, exec (.barrierRelease c) s = .next t ∧ { t with cores := s.cores } = s ∧
      (∀ d : CoreId,
        let driven := (allFin 16).any fun k => m.toNat.testBit k.val && s.corePresent d.val &&
          s.seqs[k].wardMask.testBit (d.val / 12)
        t.cores[d] = match s.cores[d].waiting with
          | some (.barrier i k j false) =>
            if driven = true ∧ i = b ∧ j = n then { s.cores[d] with waiting := some (.barrier i k j true) } else s.cores[d]
          | _ => s.cores[d])) ∧
  (∀ (s : State) (c : CoreId) (p : PartId) (n : SeqId) (v : BitVec 6), CoreOpen s c → 4 ≤ v.toNat →
    s.coreHolder c = some p → s.driverOf c = some n →
    ((∃ d ∈ s.seqCores n, d ≠ c ∧ (0 : BitVec 48) ∉ s.cores[d].raised) →
      CoreBecomes (.raise c v) c s { oneBeat s.cores[c] [] with raised := s.cores[c].raised ++ [0] }) ∧
    ((∀ d ∈ s.seqCores n, d ≠ c → (0 : BitVec 48) ∈ s.cores[d].raised) →
      ∃ t, exec (.raise c v) s = .next t ∧ t.link = { s.link with msi := s.link.msi ++ [(.vf p, v.toNat)] } ∧
        (∀ d : CoreId, { t.cores[d] with raised := s.cores[d].raised } =
          if d = c then oneBeat s.cores[c] [] else s.cores[d]) ∧
        (∀ q : PartId, { t.parts[q] with meter := s.parts[q].meter } = s.parts[q]) ∧
        { t with link := s.link, cores := s.cores, parts := s.parts, acts := s.acts, freeCount := s.freeCount } = s))

/-- A result in flight is written to its register, generator, ring, counter, queue end or line in its beat (06 R139,
R141; 07 R160, R168, R174; 08 R194). For every core that drains and has one result in flight, OPERATION_RESULT_WRITE
completes the beats up to and with the one the result is due in, and writes it: a scalar register, a generator field
or its restart, the ring, a sync counter (CSET clears the fail count), a queue end with room (the entry is pushed
behind the others), a line of core memory with its poison (one of the transfer ring: undefined, R171, a free value of
log 7), a vector register, a coefficient register or the update flag. -/
def Obligations.ResultsAreWrittenInTheirBeat : Prop :=
  ∀ (s : State) (c : CoreId),
    let x := s.cores[c]
    (∀ d v, ResultLands (.kreg d v) s c { x with k := x.k.set d v }) ∧
    (∀ d f v, ResultLands (.agset d f v) s c { x with ag := updAt x.ag d (·.setField f v) }) ∧
    (∀ d, ResultLands (.agrst d) s c { x with ag := updAt x.ag d fun g => { g with cur := g.base, row := g.base, i := 0, j := 0 } }) ∧
    (∀ b k, ResultLands (.ring b k) s c { x with ring := { head := 0, tail := 0, sizeLog2 := k, baseLine := b } }) ∧
    (∀ n, ResultLands (.ringFree n) s c { x with ring := { x.ring with tail := x.ring.tail + n } }) ∧
    (∀ n v, ResultLands (.cset n v) s c { x with sync := x.sync.set n { count := v, fail := 0 } }) ∧
    (∀ n v, ResultLands (.cadd n v) s c { x with sync := updAt x.sync n fun y => { y with count := y.count + v } }) ∧
    (∀ (q : QOp) f l p, x.queues[q.q].entries.length < 8 → ResultLands (.push q f l p) s c { x with
      queues := updAt x.queues q.q fun k => { k with
        entries := k.entries ++ [{ data := l, epoch := q.epoch, fmt := BitVec.ofNat 4 (fmtCode f), poison := p }] } }) ∧
    (∀ a l p, x.inRing a = false → ResultLands (.memLine a l p) s c { x with
      mem := wrLine x.mem a l, memPoison := setBlocks x.memPoison a 256 p }) ∧
    (∀ (a : Nat) (l : Line) (p : Bool) (f : Flight), x.inRing a = true → s.coreDrains c = true → x.grace = none →
      x.inflight = [f] → x.beats ≤ f.due → f.rank ≤ 8 → f.res = .memLine a l p →
      ∃ d : Line, CoreBecomes (.operationResultWrite c) c s { x with
        mem := wrLine x.mem a d, memPoison := setBlocks x.memPoison a 256 p, inflight := [], beats := f.due + 1 }) ∧
    (∀ r l p, ResultLands (.vreg r l p) s c { x with vx := { x.vx with regs := x.vx.regs.set r ⟨l, p⟩ } }) ∧
    (∀ i l p, ResultLands (.coef i l p) s c { x with vx := { x.vx with coefs := x.vx.coefs.set i ⟨l, p⟩ } }) ∧
    (∀ b, ResultLands (.updFlag b) s c { x with vx := { x.vx with updFlag := b } })

/-- MCFG, MSEED, MSWAP, MFLUSH, MLOADW and MLOADS configure the array and load its tiles (08 R187, R188, R191, R192;
09 R207, R215, R217). -/
def Obligations.ArrayConfigurationAndTiles : Prop :=
  (∀ (s : State) (c : CoreId), CoreOpen s c → CoreBecomes (.matrixNop c) c s (oneBeat s.cores[c] [])) ∧
  (∀ (s : State) (c : CoreId) (imm : W32), CoreOpen s c → ArrayFree s.cores[c] → (Instr.mcfg c imm).wf = true →
    s.cores[c].mx.pend = [] →
    CoreBecomes (.mcfg c imm) c s { oneBeat s.cores[c] [] with mx := { s.cores[c].mx with
      heldUntil := s.cores[c].beats + 1
      cfg := { ovmode := if bits imm 12 2 = 0 then (if s.cores[c].ovmode = 2 then 2 else 1) else imm.extractLsb' 12 2
               sr := bit imm 8, chunk := imm.extractLsb' 4 4, accMode := imm.extractLsb' 0 2 } } }) ∧
  (∀ (s : State) (c : CoreId) (v : W32), CoreOpen s c →
    let seed : W32 := if v = 0 then 1 else v
    CoreBecomes (.mseed c v) c s { oneBeat s.cores[c] [] with mx := { s.cores[c].mx with
      seed := seed
      lfsr := Vector.ofFn fun o => let w := seed ^^^ BitVec.ofNat 32 (o.val * 0x10000); if w = 0 then 1 else w } }) ∧
  (∀ (s : State) (c : CoreId), CoreOpen s c → ArrayFree s.cores[c] →
    CoreBecomes (.mswap c) c s { oneBeat s.cores[c] [] with mx := { s.cores[c].mx with
      heldUntil := s.cores[c].beats + 1
      active := s.cores[c].mx.shadow, shadow := { s.cores[c].mx.active with fmt := none } } }) ∧
  (∀ (s : State) (c : CoreId), CoreOpen s c → ArrayFree s.cores[c] →
    CoreBecomes (.mflush c) c s { oneBeat s.cores[c] (if s.cores[c].mx.pend = [] then []
        else [due s c 4 4 2 (.flushAdd s.cores[c].mx.pend s.cores[c].mx.cfg)]) with
      mx := { s.cores[c].mx with heldUntil := s.cores[c].beats + 4, pend := [] } }) ∧
  (∀ (s : State) (c : CoreId) (x : MArgs) (e : Entry), CoreOpen s c → (Instr.mloadw c x).wf = true →
    topoPop s.cores[c].queues[x.qa.q].topo = 0x12 → HeadIs s.cores[c] x.qa x.fmt e →
    (s.cores[c].mx.cfg.accMode = 1 ∨ x.index.toNat < tileEntries x.fmt) →
    (s.cores[c].mx.shadow.fmt = none ∨ s.cores[c].mx.shadow.fmt = some x.fmt) →
    CoreBecomes (.mloadw c x) c s { oneBeat s.cores[c]
        [due s c 2 1 2 (.tileEntry x.index.toNat e.data e.poison)] with
      queues := popped s.cores[c] x.qa.q
      mx := { s.cores[c].mx with shadow := { s.cores[c].mx.shadow with fmt := some x.fmt } } }) ∧
  (∀ (s : State) (c : CoreId) (x : MArgs) (e : Entry), CoreOpen s c → (Instr.mloads c x).wf = true →
    topoPop s.cores[c].queues[x.qa.q].topo = 0x13 →
    HeadIs s.cores[c] x.qa (if x.index.toNat < 4 ∨ x.index.toNat = 9 then .ue8 else .fp32) e →
    CoreBecomes (.mloads c x) c s { oneBeat s.cores[c]
        [due s c 2 1 2 (.scalePart x.index.toNat e.data e.poison)] with
      queues := popped s.cores[c] x.qa.q })

/-- MMUL, MMULT and MEW take their entry, hold the array and put their drains in flight; a drain adds into its row
(08 R186, R187, R193; 09 R212, R221, R206, R208, R209). -/
def Obligations.MatrixOperationsLatchTheirVectors : Prop :=
  (∀ (s : State) (c : CoreId) (x : MArgs) (trans : Bool), CoreOpen s c →
    (if trans then Instr.mmult c x else Instr.mmul c x).wf = true → Passes ((loneBeat s c).mmulChecks x trans) →
    let k := s.cores[c]
    let e1 := k.head x.qa.q
    let q1 := popped k x.qa.q
    let e2 := if x.fmt = .fp32 then ({ k with queues := q1 } : Machine.Core).head x.qa.q else voidEntry
    let poison := e1.poison || (x.fmt == .fp32 && e2.poison) || k.mx.active.poison ||
      (x.scaled && k.mx.actScale.poison) || (x.rowscale && k.mx.rowScale.poison)
    CoreBecomes (if trans then .mmult c x else .mmul c x) c s
      { oneBeat k ((actVectors x.fmt e1.data e2.data).zipIdx.map fun v =>
          due s c ((v.2 + 1) * bpp x.fmt + 8) 3 2 (.drain1 ((loneBeat s c).drainOf x trans poison v.2 v.1))) with
        queues := if x.fmt = .fp32 then updAt q1 x.qa.q (fun q => { q with entries := q.entries.drop 1 }) else q1
        ag := if x.dmode = 2 then k.ag else advIf x.adv x.ag k.ag
        mx := { k.mx with
          heldUntil := k.beats + vecCount x.fmt * bpp x.fmt
          actPtr := if x.scaled then (k.mx.actPtr + 4 * vecCount x.fmt) % 256 else k.mx.actPtr
          rowPtr := if x.rowscale then (k.mx.rowPtr + vecCount x.fmt) % 64 else k.mx.rowPtr } }) ∧
  (∀ (s : State) (c : CoreId) (x : MArgs), CoreOpen s c → (Instr.mew c x).wf = true →
    Passes ((loneBeat s c).mewChecks x) →
    let k := s.cores[c]
    let e := k.head x.qa.q
    let row := x.index.toNat
    let rs := ((elems x.fmt e.data).take 128).zipIdx.map fun y =>
      let v := fmul (decodeElem x.fmt y.1) (decodeElem x.fmt (k.mx.active.weight x.fmt row y.2))
      let r := convert .bf16 k.mx.cfg.sat (mewRnd k) v.1
      (r.1, r.2.or v.2)
    CoreBecomes (.mew c x) c s
      { oneBeat k
          [due s c (bpp x.fmt + 2) 5 2
            (.push x.qb .bf16 (packElems .bf16 (rs.map (·.1))) (e.poison || k.mx.active.poison)),
           due s c (bpp x.fmt + 1) 1 2 (.mnote (rs.foldl (fun f r => f.or r.2) {}))] with
        queues := popped k x.qa.q
        mx := { k.mx with rowHeld := Sparse.put k.mx.rowHeld row (k.beats + bpp x.fmt) } }) ∧
  (∀ (s : State) (c : CoreId) (f : Flight) (d : Drain) (cs : List W32), s.coreDrains c = true → s.cores[c].grace = none →
      s.cores[c].inflight = [f] → f.res = .drain2 d cs → f.rank ≤ 8 → s.cores[c].beats ≤ f.due → d.isInt = true →
      let x := s.cores[c]
      let old := x.rowTotals d.row d.outs
      (d.dmode = 1 → CoreBecomes (.matrixDrain c) c s
        { x.setRow d.row (cs.map (·.toNat)) (fun _ => d.poison) with inflight := [], beats := f.due + 1 }) ∧
      (d.dmode ≠ 1 → CoreBecomes (.matrixDrain c) c s
        { x.setRow d.row ((old.zip (cs.map (·.toNat))).map fun e => (e.1 + e.2) % 2 ^ 32)
            (fun a => d.poison || x.accPoisoned a) with
          inflight := [], beats := f.due + 1 }))

/-- Element-wise vector operations send one entry to D with the latency of R195, flags noted and poison carried (08
R194, R195, R196; 10 R236, R237, R244). What the function unit gives for a finite operand R237 does not list, and the
INT32 results log 13 names, are free values. -/
def Obligations.ElementWiseVectorOperations : Prop :=
  let same (x : VArgs) : Fmt := x.fmt
  let wide (n : Nat) (f : Fmt) : Nat := if f = .int32 then 2 else n
  (∀ (s : State) (c : CoreId), CoreOpen s c → CoreBecomes (.vectorNop c) c s (oneBeat s.cores[c] [])) ∧
  VectorPuts .vmov .mov (fun _ => 2) same (fun s c x => ((vecSource s c x.fmt x.a).1, {}, (vecSource s c x.fmt x.a).2)) ∧
  VectorPuts .vadd .add (wide 4) same (elementWise .add 2) ∧
  VectorPuts .vsub .sub (wide 4) same (elementWise .sub 2) ∧
  VectorPuts .vmul .mul (fun _ => 4) same (elementWise .mul 2) ∧
  VectorPuts .vfma .fma (fun _ => 4) same (elementWise .fma 3) ∧
  VectorPuts .vmin .min (fun _ => 2) same (elementWise .min 2) ∧
  VectorPuts .vmax .max (fun _ => 2) same (elementWise .max 2) ∧
  VectorPuts .vabs .abs (fun _ => 2) same (elementWise .abs 1) ∧
  VectorPuts .vneg .neg (fun _ => 2) same (elementWise .neg 1) ∧
  VectorPuts .vcmp .cmp (fun _ => 2) same (elementWise .cmp 2) ∧
  VectorPuts .vsel .sel (fun _ => 2) same (elementWise .sel 3) ∧
  VectorPuts .vand .and (fun _ => 2) same (elementWise .and 2) ∧
  VectorPuts .vor .or (fun _ => 2) same (elementWise .or 2) ∧
  VectorPuts .vxor .xor (fun _ => 2) same (elementWise .xor 2) ∧
  VectorPuts .vshl .shl (fun _ => 2) same (elementWise .shl 1) ∧
  VectorPuts .vshr .shr (fun _ => 2) same (elementWise .shr 1) ∧
  VectorPuts .vexp2 (.func 0) (fun _ => 10) same (elementWise (.func 0) 1) ∧
  VectorPuts .vlog2 (.func 1) (fun _ => 10) same (elementWise (.func 1) 1) ∧
  VectorPuts .vrcp (.func 2) (fun _ => 10) same (elementWise (.func 2) 1) ∧
  VectorPuts .vrsqrt (.func 3) (fun _ => 10) same (elementWise (.func 3) 1) ∧
  VectorPuts .vsqrt (.func 4) (fun _ => 10) same (elementWise (.func 4) 1) ∧
  VectorPuts .vtanh (.func 5) (fun _ => 10) same (elementWise (.func 5) 1) ∧
  VectorPuts .vsigm (.func 6) (fun _ => 10) same (elementWise (.func 6) 1)

/-- INT32 lanes wrap modulo 2^32, and VABS, VNEG and VSEL on float formats act on the codes alone (08 R195; 10 R236). -/
def Obligations.IntegerAndSignLanes : Prop :=
  ∀ (imm : W32) (sat : Bool) (a b c : Line),
    let int (f : Nat → Nat → Nat → Nat) := packElems .int32
      (((elems .int32 a).zip ((elems .int32 b).zip (elems .int32 c))).map fun e => f e.1 e.2.1 e.2.2)
    let flt (f : Nat → Nat → Nat → Nat) := packElems .fp32
      (((elems .fp32 a).zip ((elems .fp32 b).zip (elems .fp32 c))).map fun e => f e.1 e.2.1 e.2.2)
    let run (o : VecOp) (f : Fmt) := vecMap o f imm sat a b c
    run .add .int32 = (int fun x y _ => (x + y) % 2 ^ 32, {}) ∧
    run .sub .int32 = (int fun x y _ => (x + 2 ^ 32 - y % 2 ^ 32) % 2 ^ 32, {}) ∧
    run .mul .int32 = (int fun x y _ => x * y % 2 ^ 32, {}) ∧
    run .and .int32 = (int fun x y _ => x &&& y, {}) ∧
    run .or .int32 = (int fun x y _ => x ||| y, {}) ∧
    run .xor .int32 = (int fun x y _ => x ^^^ y, {}) ∧
    run .shl .int32 = (int fun x _ _ => x * 2 ^ (imm.toNat % 32) % 2 ^ 32, {}) ∧
    run .shr .int32 = (int fun x _ _ => x / 2 ^ (imm.toNat % 32), {}) ∧
    run .sel .int32 = (int fun x y z => if z ≠ 0 then x else y, {}) ∧
    run .abs .fp32 = (flt fun x _ _ => x % 2 ^ 31, {}) ∧
    run .neg .fp32 = (flt fun x _ _ => x ^^^ 2 ^ 31, {}) ∧
    run .sel .fp32 = (flt fun x y z => if z ≠ 0 then x else y, {})

/-- RSUM, RMAX, TOPK, VUPDM, VUPDV and VUPDW send their entries to D (08 R200, R201, R202, R195). -/
def Obligations.ReductionsTopkAndUpdateSteps : Prop :=
  let f32 (_ : VArgs) : Fmt := .fp32
  let red (mx : Bool) (s : State) (c : CoreId) (x : VArgs) : Line × NFlags × Bool :=
    let a := vecSource s c x.fmt x.a
    let r := reduceLane mx (s.cores[c].ovmode != 2) x.fmt a.1
    (ofLanes 32 [r.1], r.2, a.2)
  let upd (o : VecOp) (step : Bool → List Nat → Nat → Nat → Nat → Nat × NFlags) (s : State) (c : CoreId) (x : VArgs) :
      Line × NFlags × Bool :=
    let a := vecSource s c x.fmt x.a
    let b := vecSource s c x.fmt x.b
    let d := vecSource s c x.fmt x.c
    let k := s.cores[c].vx
    let coef := k.coefs[(x.imm.toNat % 4 : Nat)]'(Nat.mod_lt _ (by decide))
    let rs := ((lanes a.1 32 64).zip ((lanes b.1 32 64).zip (lanes d.1 32 64))).map fun e =>
      step (s.cores[c].ovmode != 2) (lanes coef.data 32 16) e.1 e.2.1 e.2.2
    let p := a.2 || b.2 || (o == .updw && d.2) || coef.poison
    if k.updFlag then (ofLanes 32 (rs.map (·.1)), rs.foldl (fun f r => f.or r.2) {}, p)
    else (if o = .updw then a.1 else b.1, {}, p)
  VectorPuts .rsum .rsum (fun _ => 8) (fun x => if x.fmt = .int32 then .int32 else .fp32) (red false) ∧
  VectorPuts .rmax .rmax (fun _ => 8) (fun x => if x.fmt = .int32 then .int32 else .fp32) (red true) ∧
  VectorPuts .vupdm .updm (fun _ => 4) f32 (upd .updm fun sat cf m g _ => updM sat cf m g) ∧
  VectorPuts .vupdv .updv (fun _ => 6) f32 (upd .updv fun sat cf v g _ => updV sat cf v g) ∧
  VectorPuts .vupdw .updw (fun _ => 12) f32 (upd .updw fun sat cf m v w => updW sat cf m v w) ∧
  (∀ (s : State) (c : CoreId) (x : VArgs), CoreOpen s c → (Instr.topk c x).wf = true →
    Passes ((loneBeat s c).vecChecks .topk x) →
    let y := vecTaken s c .topk x
    let a := vecSource s c .fp32 x.a
    let b := vecSource s c .fp32 x.b
    let r := topkEntry x.imm a.1 b.1
    CoreBecomes (.topk c x) c s
      { oneBeat y ((landing s.cores[c] x.d .fp32 r.1 (a.2 || (!bit x.imm 15 && b.2))).map (due s c 12 5 1)) with
        vx := { y.vx with topkNan := min (y.vx.topkNan + r.2) 0xFFFF } })

/-- AMAX, AMAXRD, VCOEF, VGATE, VSTORM and VSEED change statistics, coefficients, the update flag, reports and LFSR
states (08 R199, R202, R203; 10 R230; 16 R387). -/
def Obligations.StatisticsGatesAndStormReports : Prop :=
  (∀ (s : State) (c : CoreId) (x : VArgs), CoreOpen s c → (Instr.amax c x).wf = true →
    Passes ((loneBeat s c).vecChecks .amax x) →
    let a := vecSource s c x.fmt x.a
    CoreBecomes (.amax c x) c s (oneBeat (vecTaken s c .amax x) [due s c 3 1 1 (.amax x.fmt a.1 a.2)])) ∧
  (∀ (s : State) (c : CoreId) (x : VArgs), CoreOpen s c → Passes ((loneBeat s c).vecChecks .amaxrd x) →
    let y := vecTaken s c .amaxrd x
    let k := s.cores[c].vx
    CoreBecomes (.amaxrd c x) c s
      { oneBeat y ((landing s.cores[c] x.d .fp32 (k.amaxEntry (bit x.imm 0)) k.statPoison).map (due s c 4 5 1)) with
        vx := if bit x.imm 1 then { y.vx with laneMax := 0, nanCount := 0, infCount := 0, statPoison := false } else y.vx }) ∧
  (∀ (s : State) (c : CoreId) (x : VArgs), CoreOpen s c → (Instr.vcoef c x).wf = true →
    Passes ((loneBeat s c).vecChecks .coef x) →
    CoreBecomes (.vcoef c x) c s (oneBeat (vecTaken s c .coef x)
      [due s c 2 5 1 (.coef ⟨x.imm.toNat % 4, Nat.mod_lt _ (by decide)⟩ (vecSource s c x.fmt x.a).1
        (vecSource s c x.fmt x.a).2)])) ∧
  (∀ (s : State) (c : CoreId) (x : VArgs), CoreOpen s c → (Instr.vgate c x).wf = true →
    Passes ((loneBeat s c).vecChecks .gate x) →
    let step := (vecSource s c x.fmt x.a).1.extractLsb' 0 32
    CoreBecomes (.vgate c x) c s (oneBeat (vecTaken s c .gate x)
      [due s c 1 5 1 (.updFlag (decide (s.cores[c].vx.verdict = some { step := step, isOpen := true })))])) ∧
  (∀ (s : State) (c : CoreId) (x : VArgs) (i : Instr), CoreOpen s c →
    i = .vstormCount c x ∧ bits x.imm 0 2 = 0 ∨ i = .vstormLoss c x ∧ bits x.imm 0 2 = 1 ∨
      i = .vstormClose c x ∧ bits x.imm 0 2 = 2 →
    i.wf = true → Passes ((loneBeat s c).vecChecks .storm x) →
    let y := vecTaken s c .storm x
    let a := vecSource s c x.fmt x.a
    let step := (vecSource s c x.fmt x.b).1.extractLsb' 0 32
    let vs := (elems x.fmt a.1).map (decodeElem x.fmt)
    let r : StormReport :=
      if bits x.imm 0 2 = 0 then .count step (if a.2 then vs.length else (vs.filter fun v => v.isNan || v.isInf).length)
      else if bits x.imm 0 2 = 1 then .loss step (BitVec.ofNat 32 (convert .fp32 false .rz (vs.headD (decodeElem x.fmt 0))).1)
      else .close step (ctrOf (bits x.imm 8 5))
    CoreBecomes i c s { oneBeat y [] with
      vx := { y.vx with storms := if s.inInterlude c then y.vx.storms else y.vx.storms ++ [r] } }) ∧
  (∀ (s : State) (c : CoreId) (v : W32), CoreOpen s c →
    let seed : W32 := if v = 0 then 1 else v
    CoreBecomes (.vseed c v) c s { oneBeat s.cores[c] [] with vx := { s.cores[c].vx with
      lfsr := Vector.ofFn fun o => let w := seed ^^^ BitVec.ofNat 32 (o.val * 0x10000); if w = 0 then 1 else w } })

/-- CVT and QUANT convert each element, draw where rounding is stochastic, assemble and deliver (08 R197, R198; 10
R230, R241, R242). -/
def Obligations.ConversionAndQuantisation : Prop :=
  (∀ (s : State) (c : CoreId) (x : VArgs), CoreOpen s c → (Instr.cvt c x).wf = true →
    Passes ((loneBeat s c).vecChecks .cvt x) →
    let y := vecTaken s c .cvt x
    let a := vecSource s c x.fmt x.a
    let t := cvtTarget x
    let n := elemCount x.fmt
    let m := elemCount t
    let part := bits x.imm 8 6
    let all := (elems x.fmt a.1).map (decodeElem x.fmt)
    let r := convElems s.cores[c].vx.lfsr (rndCode s.cores[c] x.rnd) 0 (fun r v => convert t (s.cores[c].ovmode != 2) r v)
      (if m < n then (all.drop (part * m)).take m else all)
    let codes := r.1.map (·.1)
    let vx := { y.vx with lfsr := r.2, flags := y.vx.flags.note s.epoch (r.1.foldl (fun f e => f.or e.2) {}) }
    let asm : VReg := ⟨setElems t vx.dataAsm.data (part * n) codes, vx.dataAsm.poison || a.2⟩
    (m ≤ n → CoreBecomes (.cvt c x) c s
      { oneBeat y ((landing s.cores[c] x.d t (packElems t codes) a.2).map (due s c 3 5 1)) with vx := vx }) ∧
    (n < m → bit x.imm 14 = false → CoreBecomes (.cvt c x) c s
      { oneBeat y [] with vx := { vx with dataAsm := asm } }) ∧
    (n < m → bit x.imm 14 = true → CoreBecomes (.cvt c x) c s
      { oneBeat y ((landing s.cores[c] x.d t asm.data asm.poison).map (due s c 3 5 1)) with
        vx := { vx with dataAsm := {} } })) ∧
  (∀ (s : State) (c : CoreId) (x : VArgs), CoreOpen s c → (Instr.quant c x).wf = true →
    Passes ((loneBeat s c).vecChecks .quant x) →
    let y := vecTaken s c .quant x
    let a := vecSource s c x.fmt x.a
    let t := cvtTarget x
    let sat := s.cores[c].ovmode != 2
    let blocks := blocks32 ((elems x.fmt a.1).map (decodeElem x.fmt))
    let rules := blocks.map (blockRule t sat)
    let r := convElems s.cores[c].vx.lfsr (rndCode s.cores[c] x.rnd) 0 (fun r e => quantElem t e.1 r e.2)
      ((blocks.zip rules).flatMap fun e => e.1.map fun v => (e.2, v))
    let flags := rules.foldl (fun f b => f.or b.flags) (r.1.foldl (fun f e => f.or e.2) {})
    let data : VReg := ⟨setElems t y.vx.dataAsm.data (64 * bits x.imm 8 6) (r.1.map (·.1)), y.vx.dataAsm.poison || a.2⟩
    let scale : VReg :=
      ⟨setElems .ue8 y.vx.scaleAsm.data (2 * bits x.imm 16 7) (rules.map (·.scale)), y.vx.scaleAsm.poison || a.2⟩
    CoreBecomes (.quant c x) c s
      { oneBeat y (((if bit x.imm 14 then landing s.cores[c] x.d t data.data data.poison else []) ++
          (if bit x.imm 23 then landing s.cores[c] x.c .ue8 scale.data scale.poison else [])).map (due s c 6 5 1)) with
        vx := { y.vx with
          lfsr := r.2
          dataAsm := if bit x.imm 14 then {} else data
          scaleAsm := if bit x.imm 23 then {} else scale
          zeroRange := min (y.vx.zeroRange + rules.foldl (fun n b => n + b.zero) 0) 0xFFFF
          flags := y.vx.flags.note s.epoch flags } })

/-- Reports open a step and add to it, the last CLOSE forms its verdict, delivery raises every core's counter, STORM
capsules act as R384 says (16 R373, R374, R375, R376, R377, R379, R380, R384). -/
def Obligations.StormWatchCountsAndGates : Prop :=
  (∀ (s : State) (c : CoreId) (p : PartId) (r : StormReport) (l : List StormReport),
    s.cores[c].vx.storms = r :: l → s.coreHolder c = some p →
    let x := s.parts[p].storm
    let cores := updAt s.cores c fun k => { k with vx := { k.vx with storms := l } }
    let opened (t : W32) : Storm := if x.isOpen then x else { x with isOpen := true, curStep := t, attempt := (x.newest t).isSome }
    let becomes (y : Storm) := exec (.stormReportArrival c) s = .next
      { s with cores := cores, parts := updAt s.parts p fun k => { k with storm := y } }
    (∀ t n, r = .count t n → x.isOpen = false ∨ x.curStep = t →
      becomes { opened t with nonfinite := min (2 ^ 32 - 1) ((opened t).nonfinite + n) }) ∧
    (∀ t v, r = .loss t v → x.isOpen = false ∨ x.curStep = t →
      let y : Storm := { opened t with lossReports := min (2 ^ 16 - 1) ((opened t).lossReports + 1) }
      (v.toNat / 2 ^ 23 % 256 ≠ 255 → becomes { y with
        finiteLoss := true, lossSum := BitVec.ofNat 32 (add32 (!s.ieee p) y.lossSum.toNat v.toNat).1 }) ∧
      (v.toNat / 2 ^ 23 % 256 = 255 → becomes { y with nonfinite := min (2 ^ 32 - 1) (y.nonfinite + 1) })) ∧
    (∀ t n v, r = .count t n ∨ r = .loss t v → x.isOpen = true → x.curStep ≠ t →
      becomes { x with mixed := true, mixedReports := min (2 ^ 16 - 1) (x.mixedReports + 1) })) ∧
  (∀ (s : State) (c : CoreId) (p : PartId) (t : W32) (n : CtrId) (l : List StormReport) (set : List CoreId),
    s.cores[c].vx.storms = .close t n :: l → s.coreHolder c = some p →
    let x := s.parts[p].storm
    let cores := updAt s.cores c fun k => { k with vx := { k.vx with storms := l } }
    (s.parts[p].state = .quiesced ∨ s.parts[p].state = .stopped →
      exec (.stormCloseArrival c) s = .next { s with cores := cores }) ∧
    (s.parts[p].state = .running → x.isOpen = true → x.curStep = t → x.closing = some set → c ∈ set →
      (∀ e ∈ x.closes, e.1 ≠ c) →
      ((∃ d ∈ set, d ≠ c ∧ ∀ e ∈ x.closes, e.1 ≠ d) → exec (.stormCloseArrival c) s = .next
        { s with cores := cores, parts := updAt s.parts p fun k => { k with storm := { x with closes := x.closes ++ [(c, n)] } } }) ∧
      ((∀ d ∈ set, d ≠ c → ∃ e ∈ x.closes, e.1 = d) →
        let byNf := x.policy.enable && x.nonfinite != 0
        let bySp := x.policy.enable && x.spike (!s.ieee p) && x.policy.spikeAction != 0
        let closed := x.latched || x.mixed || byNf || bySp
        let latches := !x.mixed && (byNf && decide (2 ≤ x.policy.nfAction) || bySp && decide (2 ≤ x.policy.spikeAction))
        let y := if !closed && x.finiteLoss then x.fold (!s.ieee p) else x
        ∃ u, exec (.stormCloseArrival c) s = .next u ∧ OnlyPart p s u ∧ u.cores = cores ∧
          u.parts[p].storm.isOpen = false ∧ u.parts[p].storm.nonfinite = 0 ∧ u.parts[p].storm.lossReports = 0 ∧
          u.parts[p].storm.lossSum = 0 ∧ u.parts[p].storm.mixed = false ∧ u.parts[p].storm.mixedReports = 0 ∧
          u.parts[p].storm.closing = none ∧ u.parts[p].storm.mean = y.mean ∧ u.parts[p].storm.dev = y.dev ∧
          u.parts[p].storm.folded = y.folded ∧ u.parts[p].storm.prot = x.prot ∧
          u.parts[p].storm.deliver = x.deliver ++ [({ step := t, isOpen := !closed }, x.closes ++ [(c, n)], x.firstCtr)] ∧
          u.parts[p].storm.histHead = (x.histHead + 1) % 16 ∧
          u.parts[p].storm.hist[x.histHead % 16]'(Nat.mod_lt _ (by decide)) =
            { step := t, valid := true, isOpen := !closed, latched := x.latched || latches
              mixed := x.mixed, spike := x.spike (!s.ieee p), nonfinite := x.nonfinite != 0 } ∧
          (latches = false → u.parts[p].storm.latched = x.latched ∧ { u with cores := s.cores, parts := s.parts } = s) ∧
          (latches = true → u.parts[p].storm.latched = true ∧
            (x.latched = false → u.parts[p].storm.latchCause = if byNf && decide (2 ≤ x.policy.nfAction) then 2 else 3) ∧
            (s.parts[p].cmds = [] → x.latched = false → u.link.msi = s.link.msi ++ [(.vf p, 2)]))))) ∧
  (∀ (s : State) (p : PartId) (v : Verdict) (cs : List (CoreId × CtrId)) (n : CtrId)
      (l : List (Verdict × List (CoreId × CtrId) × CtrId)),
    s.parts[p].storm.deliver = (v, cs, n) :: l → s.parts[p].cmds = [] → ∃ t, exec (.verdictDelivery p) s = .next t ∧
      t.parts = updAt s.parts p (fun x => { x with storm := { x.storm with deliver := l } }) ∧
      (∀ c : CoreId, t.cores[c] = if c ∈ s.partCores p then
          let m := ((cs.find? fun e => e.1 == c).map (·.2)).getD n
          { s.cores[c] with
            vx := { s.cores[c].vx with verdict := some v }
            sync := updAt s.cores[c].sync m fun y => { y with count := y.count + 1 } }
        else s.cores[c]) ∧
      t.link.msi = s.link.msi ++ (if v.isOpen then [] else [(.vf p, 2)]) ∧
      { t with cores := s.cores, parts := s.parts, link := s.link } = s) ∧
  (∀ (s : State) (p : PartId), s.parts[p].storm.deliver = [] → exec (.verdictDelivery p) s = .next s) ∧
  (∀ (s : State) (p : PartId) (c : Capsule), s.parts[p].caps.queue = [c] → c.kind = kStorm →
    let op := ldNat c.body 0 1
    let i := if op = 2 then Instr.protect p else if op = 3 then Instr.setAverages p else Instr.reopen p
    let base := ldNat c.body 8 8
    let len := ldNat c.body 16 8
    let x := s.parts[p].storm
    let shut := s.parts[p].run.interlude = true ∨ x.isOpen = true
    let does (f : Storm → Storm) := ∃ t, exec i s = .next t ∧ t.parts[p].storm = f x ∧
      Recorded p (capsuleRecord s p c 0x0A .done 0) c.v0 ((without p c s).updPart p fun k => { k with storm := f k.storm }) t
    (stormBodyOk c = false → CapsuleEnds i p c s 0x0A .refusedState 4) ∧
    (stormBodyOk c = true → op = 1 → does fun y => { y with
      latched := false, latchCause := 0
      mean := if ldNat c.body 1 1 = 1 then 0 else y.mean
      dev := if ldNat c.body 1 1 = 1 then 0 else y.dev
      folded := if ldNat c.body 1 1 = 1 then 0 else y.folded }) ∧
    (stormBodyOk c = true → op = 2 → len ≠ 0 → s.inWells p base len = false → CapsuleEnds i p c s 0x0A .refusedOwner 0) ∧
    (stormBodyOk c = true → op = 2 → len = 0 ∨ s.inWells p base len = true →
      (shut → CapsuleEnds i p c s 0x0A .refusedState 0) ∧
      (¬shut → does fun y => { y with
        prot := updAt y.prot (⟨ldNat c.body 2 1 % 8, Nat.mod_lt _ (by decide)⟩ : Fin 8) fun _ =>
          if len = 0 then (0, 0) else (BitVec.ofNat 64 base, BitVec.ofNat 64 len) })) ∧
    (stormBodyOk c = true → op = 3 → (shut → CapsuleEnds i p c s 0x0A .refusedState 0) ∧
      (¬shut → does fun y => { y with
        folded := BitVec.ofNat 32 (ldNat c.body 4 4), mean := BitVec.ofNat 32 (ldNat c.body 0x18 4)
        dev := BitVec.ofNat 32 (ldNat c.body 0x1C 4) })))

/-- A sector read corrects or poisons, a write or memory-side add stores 64 bytes and its poison, the patrol goes on
to the next sector (11 R262, R263, R264, R265, R266, R267, R268, R269, R274, R275). -/
def Obligations.SectorsAreReadWrittenAndAdded : Prop :=
  (∀ (s : State) (w : WellId) (k n : Nat) (src : ReadSource) (errs : List Nat), s.wells[w].state = .active →
    k < memSectors (.well w) →
    let m := s.wells[w]
    let e := errorBits (Sparse.getD m.errs k []) errs
    let old := rdL m.data (64 * k) 64
    let holder : Nat := match s.sectorHolder (.well w) (64 * k) with | some p => p.val | none => 0x1F
    let i := Instr.wellRead w k src errs n
    (has m.qtn (k / 1024) = true → exec i s = .next s) ∧
    (has m.qtn (k / 1024) = false → n = 0 → (has m.marker k = true ∨ e = []) → exec i s = .next s) ∧
    (has m.qtn (k / 1024) = false → n = 0 → has m.marker k = false → m.flipArm = false →
      ((errorBytes e).length = 1 → has m.corrected k = false → ∃ t, exec i s = .next t ∧
        t.wells = updAt s.wells w (fun m => { m with
          data := wrL m.data (64 * k) old, errs := Sparse.del m.errs k, marker := delFrom m.marker k
          ceCtrl := min (2 ^ 32 - 1) (m.ceCtrl + 1), corrected := addTo m.corrected k }) ∧
        { t with wells := s.wells, baro := s.baro } = s) ∧
      ((errorBytes e).length = 1 → has m.corrected k = true → m.remap.length < 16 → (∀ r ∈ m.remap, r.1 ≠ k) →
        ∃ t, exec i s = .next t ∧ t.wells[w].remap = m.remap ++ [(k, false)] ∧
          (∀ a, a < 64 * k ∨ 64 * k + 64 ≤ a → rd t.wells[w].data a = rd m.data a)) ∧
      ((errorBytes e).length = 2 → ∃ t, exec i s = .next t ∧
        t.wells = updAt s.wells w (fun m => { m with
          data := wrL m.data (64 * k) (spoil old (e.filter (· < 512))), errs := Sparse.del m.errs k
          marker := addTo m.marker k, ue := min (2 ^ 16 - 1) (m.ue + 1)
          log := m.log.set (m.logHead % 16) (some { source := src, partition := holder, sector := k }) (Nat.mod_lt _ (by decide))
          logHead := (m.logHead + 1) % 16
          logWrapped := m.logWrapped || m.log[m.logHead % 16]'(Nat.mod_lt _ (by decide)) != none }) ∧
        { t with wells := s.wells, baro := s.baro, almanac := s.almanac } = s))) ∧
  (∀ (s : State) (w : WellId) (k : Nat) (d : Sector) (poison : Bool), s.wells[w].state = .active → k < memSectors (.well w) →
    let m := s.wells[w]
    (has m.qtn (k / 1024) = true → exec (.wellWrite w k d poison) s = .next s) ∧
    (has m.qtn (k / 1024) = false → ∃ t, exec (.wellWrite w k d poison) s = .next t ∧ { t with wells := s.wells } = s ∧
      (∀ v, v ≠ w → t.wells[v] = s.wells[v]) ∧ t.wells[w].data = wrL m.data (64 * k) (leBytes d.toNat 64) ∧
      (∀ a, a < 64 * k ∨ 64 * k + 64 ≤ a → rd t.wells[w].data a = rd m.data a) ∧
      has t.wells[w].marker k = poison ∧
      (m.flipArm = true ∧ m.flipSector.toNat = k ∧ poison = false → t.wells[w].flipFired = true ∧
        t.wells[w].flipArm = false ∧ Sparse.getD t.wells[w].errs k [] = [m.flipA.toNat, m.flipB.toNat].filter (· < 576)) ∧
      (¬(m.flipArm = true ∧ m.flipSector.toNat = k ∧ poison = false) → t.wells[w].flipFired = m.flipFired ∧
        t.wells[w].flipArm = m.flipArm ∧ t.wells[w].errs = Sparse.del m.errs k))) ∧
  (∀ (s : State) (w : WellId) (k : Nat) (op : BitVec 2) (d : Sector) (poison ieee : Bool), s.wells[w].state = .active →
    k < memSectors (.well w) →
    let m := s.wells[w]
    let old := rdL m.data (64 * k) 64
    let sum := addBlocks op.toNat ieee old (leBytes d.toNat 64)
    let i := Instr.memorySideAdd w k op d poison ieee
    (op = 0 → exec i s = .next s) ∧
    (op ≠ 0 → has m.qtn (k / 1024) = false → m.flipArm = false → (has m.marker k = true ∨ Sparse.getD m.errs k [] = []) →
      (has m.marker k = true ∨ poison = true → exec i s = .next (s.updWell w fun m => { m with
        data := wrL m.data (64 * k) old, errs := Sparse.del m.errs k, marker := addTo m.marker k })) ∧
      (has m.marker k = false ∧ poison = false → exec i s = .next (s.updWell w fun m => { m with
        data := wrL m.data (64 * k) sum.1, errs := Sparse.del m.errs k, marker := delFrom m.marker k
        flags := m.flags.note s.epoch sum.2 })))) ∧
  (∀ (s : State) (u : MemUnit), (s.mem u).state = .active → let m := s.mem u
    let k := m.patrolPos % memSectors u
    has m.qtn (k / 1024) = false → (has m.marker k = true ∨ Sparse.getD m.errs k [] = []) →
    exec (.patrolRead u []) s = .next (s.updMem u fun m =>
      if k + 1 < memSectors u then { m with patrolPos := k + 1 } else { m with patrolPos := 0, corrected := [] })) ∧
  (∀ (s : State) (w : WellId) (k : Nat), s.wells[w].state = .selfRefresh → k < memSectors (.well w) →
    ∃ t, exec (.wellRead w k .engine [] 0) s = .next t ∧ t.wells[w].state = .active) ∧
  (∀ (s : State) (w : WellId) (k : Nat) (d : Sector) (b : Bool), s.wells[w].state = .out ∨ s.wells[w].state = .dead →
    ∀ i ∈ [Instr.wellRead w k .engine [] 0, .wellWrite w k d b, .memorySideAdd w k 1 d b b, .patrolRead (.well w) []],
      exec i s = .next s)

/-- The remap table, the quarantine list, the flip mask and the service commands of a well or Pump act and answer as
R271 to R275 and R401 say (11 R271, R272, R273, R275; 17 R401; 03 R65). a RETURN that passes its tests leaves it
ACTIVE with zeros (in a Pump's quarter the model's choice, log 25), one that fails DEAD. -/
def Obligations.RepairQuarantineFlipAndService : Prop :=
  (∀ (s : State) (u : MemUnit) (k : Nat), Ready s → let m := s.mem u
    let refused := s.updMem u fun m => { m with remapOutcome := 0x16 }
    ((∃ r ∈ m.remap, r.1 = k) → exec (.remapAdd u k) s = .next (s.updMem u fun m => { m with remapOutcome := 0 })) ∧
    ((∀ r ∈ m.remap, r.1 ≠ k) → m.state = .out ∨ m.state = .dead ∨ 16 ≤ m.remap.length ∨ memSectors u ≤ k →
      exec (.remapAdd u k) s = .next refused) ∧
    ((∀ r ∈ m.remap, r.1 ≠ k) → m.state ≠ .out → m.state ≠ .dead → m.remap.length < 16 → k < memSectors u →
      m.flipArm = false → has m.qtn (k / 1024) = false → (has m.marker k = true ∨ Sparse.getD m.errs k [] = []) →
      ∃ t, exec (.remapAdd u k) s = .next t ∧ (t.mem u).remap = m.remap ++ [(k, true)] ∧ (t.mem u).remapOutcome = 0 ∧
        (t.mem u).data = wrL m.data (64 * k) (rdL m.data (64 * k) 64) ∧
        (∀ a, a < 64 * k ∨ 64 * k + 64 ≤ a → rd (t.mem u).data a = rd m.data a) ∧ has (t.mem u).marker k = has m.marker k ∧
        t.parts = s.parts ∧ t.host = s.host ∧ t.cores = s.cores)) ∧
  (∀ (s : State) (u : MemUnit), Ready s →
    (s.memHeld u = true → exec (.remapClear u) s = .next (s.updMem u fun m => { m with remapOutcome := 0x16 })) ∧
    (s.memHeld u = false → ∃ t, exec (.remapClear u) s = .next t ∧ (t.mem u).remap = [] ∧ (t.mem u).remapOutcome = 0 ∧
      (∀ a, (∀ r ∈ (s.mem u).remap, a < 64 * r.1 ∨ 64 * r.1 + 64 ≤ a) → rd (t.mem u).data a = rd (s.mem u).data a) ∧
      (t.mem u).state = (s.mem u).state ∧ t.parts = s.parts ∧ t.host = s.host ∧ t.cores = s.cores)) ∧
  (∀ (s : State) (u : MemUnit) (g : Nat), Ready s → let m := s.mem u
    (has m.qtn g = true → exec (.quarantineAdd u g) s = .next (s.updMem u fun m => { m with qtnOutcome := 0 })) ∧
    (has m.qtn g = false → 256 ≤ m.qtn.length ∨ memPages u ≤ g →
      exec (.quarantineAdd u g) s = .next (s.updMem u fun m => { m with qtnOutcome := 0x16 })) ∧
    (has m.qtn g = false → m.qtn.length < 256 → g < memPages u →
      exec (.quarantineAdd u g) s = .next (s.updMem u fun m => { m with qtn := m.qtn ++ [g], qtnOutcome := 0 })) ∧
    (s.pageHeld u g = true → exec (.quarantineRemove u g) s = .next (s.updMem u fun m => { m with qtnOutcome := 0x16 })) ∧
    (s.pageHeld u g = false → exec (.quarantineRemove u g) s = .next (s.updMem u fun m => { m with
      qtn := m.qtn.filter (· != g), qtnOutcome := 0 }))) ∧
  (∀ (s : State) (u : MemUnit) (v : W64) (at_ : Nat), Ready s → let s1 := s.advanceTo at_
    let field (n : Nat) : BitVec 10 := if 576 ≤ n then 0x3FF else BitVec.ofNat 10 n
    let k := v.toNat / 64 % 4294967296
    let put (m : MemCtl) : MemCtl := { m with
      flipB := field (v.toNat / 2 ^ 54 % 1024), flipA := field (v.toNat / 2 ^ 44 % 1024), flipSector := BitVec.ofNat 32 k
      flipFired := m.flipFired && (!v.getLsbD 1 || decide (s1.epoch ≤ m.flipEpoch)) }
    let h := s1.sectorHolder u (64 * k)
    (v.getLsbD 0 = false → exec (.flipArm u v at_) s = .next (s1.updMem u put)) ∧
    (v.getLsbD 0 = true → (∀ p ∈ h, s1.parts[p].state = .quiesced) → exec (.flipArm u v at_) s = .next (s1.updMem u fun m =>
      { put m with flipArm := true, flipAt := s1.timeNs, flipPart := h })) ∧
    (v.getLsbD 0 = true → (∃ p ∈ h, s1.parts[p].state ≠ .quiesced) → ∃ t, exec (.flipArm u v at_) s = .next t ∧
      Refused (s1.owner (memOffset u + 0x110)) (memOffset u + 0x110) .refusedState false s1 t)) ∧
  (∀ (s : State) (u : MemUnit) (at_ : Nat), let s1 := s.advanceTo at_
    ((s1.mem u).flipArm = true ∧ (s1.mem u).flipAt + 1000000000 ≤ s1.timeNs →
      exec (.flipArmExpiry u at_) s = .next (s1.updMem u fun m => { m with flipArm := false, flipPart := none })) ∧
    (¬((s1.mem u).flipArm = true ∧ (s1.mem u).flipAt + 1000000000 ≤ s1.timeNs) → exec (.flipArmExpiry u at_) s = .next s1)) ∧
  (∀ (s : State) (u : MemUnit), Ready s → (s.mem u).svcRunning = true →
    exec (.takeOut u) s = .next s ∧ exec (.unitReturn u) s = .next s) ∧
  (∀ (s : State) (u : MemUnit), Ready s → (s.mem u).svcRunning = false →
    let refused := s.updMem u fun m => { m with svcOutcome := 0x16, svcRunning := false }
    let up := (s.mem u).state = .active ∨ (s.mem u).state = .selfRefresh
    let down := (s.mem u).state = .out ∨ (s.mem u).state = .dead
    (up → s.memHeld u = false → ∃ t, exec (.takeOut u) s = .next t ∧
      t.mem u = { s.mem u with state := .out, svcOutcome := 0, svcRunning := false } ∧
      { t with wells := s.wells, pumps := s.pumps, baro := s.baro } = s) ∧
    (¬up ∨ s.memHeld u = true → exec (.takeOut u) s = .next refused) ∧
    (down → s.memHeld u = false → exec (.unitReturn u) s = .next (s.updMem u fun m => { m with svcRunning := true })) ∧
    (¬down ∨ s.memHeld u = true → exec (.unitReturn u) s = .next refused) ∧
    (∀ b, exec (.unitReturnComplete u b) s = .next s)) ∧
  (∀ (s : State) (u : MemUnit), (s.mem u).svcRunning = true →
    (s.fields[memField u].failed = false → ∃ t, exec (.unitReturnComplete u true) s = .next t ∧
      (t.mem u).state = .active ∧ (t.mem u).svcRunning = false ∧ (t.mem u).svcOutcome = 0 ∧
      (∀ a, has (s.mem u).qtn (a / 65536) = false → a < 64 * memSectors u → rd (t.mem u).data a = 0) ∧
      { t with wells := s.wells, pumps := s.pumps, baro := s.baro } = s) ∧
    (∃ t, exec (.unitReturnComplete u false) s = .next t ∧ (t.mem u).state = .dead ∧ (t.mem u).svcRunning = false ∧
      (t.mem u).data = (s.mem u).data ∧ { t with wells := s.wells, pumps := s.pumps, freeCount := s.freeCount } = s))

/-- A dead well, Pump, axis engine or Sluice and a field rail fault each make one incident and stop exactly the
partitions that use the unit (04 R92; 17 R388, R398, R399, R400; 13 R331). -/
def Obligations.FailedUnitsStopTheirUsers : Prop :=
  (∀ (s : State) (w : WellId), s.wells[w].state ≠ .dead → ∃ t, exec (.wellDead w) s = .next t ∧
    t.wells[w].state = .dead ∧ t.wells[w].svcRunning = false ∧ (Quiet s → ∀ v, v ≠ w → t.wells[v] = s.wells[v]) ∧
    JobFault 0x03 (s.usersOf (.well w)) s t) ∧
  (∀ (s : State) (u : PumpId), s.pumps[u].mem.state ≠ .dead → ∃ t, exec (.pumpDead u) s = .next t ∧
    t.pumps[u].mem.state = .dead ∧ t.pumps[u].mem.svcRunning = false ∧ t.pumps[u].order = [] ∧
    JobFault 0x04 (s.usersOf (.quarter u)) s t) ∧
  (∀ (s : State) (a : AxisId), s.axes[a].dead = false → ∃ t, exec (.axisEngineDead a) s = .next t ∧
    t.axes[a].dead = true ∧ t.axes[a].waiting = [] ∧
    JobFault 0x05 (s.committedParts.filter fun p => s.parts[p].im.img.axisWeight[a] != 0) s t) ∧
  (∀ (s : State) (n : SluiceId), s.sluices[n].dead = false → s.sluicePresent n.val = true →
    ∃ t, exec (.sluiceDead n) s = .next t ∧ t.sluices[n].dead = true ∧ JobFault 0x06 (s.sluiceHolder n).toList s t) ∧
  (∀ (s : State) (f : FieldId), s.fields[f].failed = false → ∃ t, exec (.fieldRailFault f) s = .next t ∧
    t.fields[f].failed = true ∧ t.fields[f].railMv = 0 ∧ t.power.railFields[f] = false ∧
    (∀ w : WellId, w.val / 3 = f.val → t.wells[w].state = .dead) ∧
    (Quiet s → ∀ w : WellId, w.val / 3 ≠ f.val → t.wells[w] = s.wells[w]) ∧ t.pumps[f].mem.state = .dead ∧
    JobFault 0x08 (s.committedParts.filter fun p => s.onField f p) s t) ∧
  (∀ (s : State) (w : WellId), (s.wells[w].state = .dead → exec (.wellDead w) s = .next s)) ∧
  (∀ (s : State) (u : PumpId), (s.pumps[u].mem.state = .dead → exec (.pumpDead u) s = .next s)) ∧
  (∀ (s : State) (a : AxisId), (s.axes[a].dead = true → exec (.axisEngineDead a) s = .next s)) ∧
  (∀ (s : State) (n : SluiceId), (s.sluices[n].dead = true → exec (.sluiceDead n) s = .next s)) ∧
  (∀ (s : State) (f : FieldId), (s.fields[f].failed = true → exec (.fieldRailFault f) s = .next s)) ∧
  (∀ (s : State) (w : WellId) (ok : Bool), s.wells[w].state ≠ .dead → s.wells[w].state ≠ .out →
    (ok = true ∨ s.wells[w].retrains < 2 → ∃ t, exec (.wellInterfaceRetrain w ok) s = .next t ∧
      t.wells = updAt s.wells w (fun m => { m with retrains := if ok then 0 else m.retrains + 1 }) ∧
      { t with wells := s.wells, baro := s.baro } = s) ∧
    (ok = false → 2 ≤ s.wells[w].retrains → ∃ t, exec (.wellInterfaceRetrain w ok) s = .next t ∧
      t.wells[w].state = .dead ∧ JobFault 0x03 (s.usersOf (.well w)) s t)) ∧
  (∀ (s : State) (u : PumpId) (ok : Bool), s.pumps[u].mem.state ≠ .dead → s.pumps[u].mem.state ≠ .out →
    (ok = true → ∃ t, exec (.pumpLinkRetrain u ok) s = .next t ∧ { t with baro := s.baro } = s) ∧
    (ok = false → ∃ t, exec (.pumpLinkRetrain u ok) s = .next t ∧ t.pumps[u].mem.state = .dead ∧
      JobFault 0x04 (s.usersOf (.quarter u)) s t))

/-- Training takes a port to PROBATION or says why not; lost light, lanes, heartbeats or a disable take it DOWN;
heartbeats keep it up (12 R283, R284, R300, R309, R310; 17 R407). -/
def Obligations.PortsTrainHearAndGoDown : Prop :=
  (∀ (s : State) (n : PortId) (i : TrainInfo) (at_ : Nat), let s1 := s.advanceTo at_
    let f := s1.image.fabric
    let open_ := (s1.boot.state = .fill ∨ s1.boot.state = .ready) ∧ 1 < f.dims[portDim n] ∧ s1.ports[n].disable = false
    let right := i.chip = s1.neighbour n ∧ i.port.toNat = n.val ^^^ 1
    let seen (x : Port) : Port := { x with nbrChip := i.chip, nbrPort := i.port, laneMask := i.lanes }
    (open_ → s1.ports[n].state = .training → 8 ≤ laneCount i.lanes →
      (right → i.digest = f.digest → exec (.linkTraining n i at_) s = .next (s1.updPort n fun x => { seen x with
        state := .probation, cause := 0, probationAt := s1.timeNs, ready := false })) ∧
      (¬right ∨ i.digest ≠ f.digest → ∃ t, exec (.linkTraining n i at_) s = .next t ∧
        t.ports = updAt s1.ports n (fun x => { seen x with cause := if right then 0x04 else 0x03 }) ∧
        Noted t 0x0601 (packDetail [(n.val, 1), (i.chip.toNat, 2), (i.port.toNat, 1)]) ∧
        { t with ports := s1.ports, almanac := s1.almanac } = s1)) ∧
    (open_ → s1.ports[n].state = .training → laneCount i.lanes < 8 → ∃ t, exec (.linkTraining n i at_) s = .next t ∧
      PortLost n (if laneCount i.lanes = 0 then 0x01 else 0x05) s1 t) ∧
    (open_ → s1.ports[n].state = .down → 8 ≤ laneCount i.lanes → ∃ t, exec (.linkTraining n i at_) s = .next t ∧
      t.ports[n].laneMask = i.lanes ∧ t.ports[n].transmitting = true ∧
      t.ports[n].state = (if right ∧ i.digest = f.digest then .probation else .training) ∧
      (∀ m, m ≠ n → t.ports[m] = s1.ports[m]) ∧ { t with ports := s1.ports, almanac := s1.almanac } = s1) ∧
    (¬open_ ∨ s1.ports[n].state = .probation ∨ s1.ports[n].state = .admitted → exec (.linkTraining n i at_) s = .next s1)) ∧
  (∀ (s : State) (n : PortId) (bad : BitVec 16), let m := s.ports[n].laneMask
    let left := laneCount (m &&& ~~~ bad)
    (s.ports[n].state = .down ∨ s.ports[n].scanLane = none ∧ m &&& bad = 0 → exec (.laneLoss n bad) s = .next s) ∧
    (s.ports[n].state ≠ .down → m &&& bad ≠ 0 → s.ports[n].scanLane = none →
      (left < 8 → ∃ t, exec (.laneLoss n bad) s = .next t ∧ PortLost n (if left = 0 then 0x01 else 0x05) s t) ∧
      (8 ≤ left → ∃ t, exec (.laneLoss n bad) s = .next t ∧ t.ports[n].laneMask = m &&& ~~~ bad ∧
        t.ports[n].state = s.ports[n].state ∧ t.ports[n].vcs = s.ports[n].vcs ∧ (∀ q, q ≠ n → t.ports[q].vcs = s.ports[q].vcs) ∧
        t.parts = s.parts ∧ t.fabric = s.fabric)) ∧
    (∀ l, s.ports[n].state ≠ .down → s.ports[n].scanLane = some l → s.snd.running = true → s.snd.runKind = 4 →
      s.snd.runTarget.toNat = n.val → m &&& bad ≠ 0 → ∃ t, exec (.laneLoss n bad) s = .next t ∧
        t.snd.running = false ∧ t.ports[n].scanLane = none)) ∧
  (∀ (s : State) (n : PortId), (s.ports[n].state = .down → exec (.lossOfLight n) s = .next s) ∧
    (s.ports[n].state ≠ .down → ∃ t, exec (.lossOfLight n) s = .next t ∧ PortLost n 0x01 s t)) ∧
  (∀ (s : State) (n : PortId) (b : Bool), ¬Ready s → exec (.portDisable n b) s = .next s) ∧
  (∀ (s : State) (n : PortId), Ready s →
    exec (.portDisable n false) s = .next (s.updPort n fun x => { x with disable := false }) ∧
    (s.ports[n].state = .down → exec (.portDisable n true) s = .next (s.updPort n fun x => { x with
      disable := true, cause := if x.cause = 0x07 then 0x07 else 0x06 })) ∧
    (s.ports[n].state ≠ .down → ∃ t, exec (.portDisable n true) s = .next t ∧ t.ports[n].disable = true ∧
      PortLost n 0x06 s t)) ∧
  (∀ (s : State) (n : PortId) (at_ : Nat), let s1 := s.advanceTo at_
    exec (.probationPass n at_) s = .next (s1.updPort n fun x =>
      if x.state = .probation ∧ x.probationAt + s1.image.fabric.probationMs * 1000000 ≤ s1.timeNs then
        { x with ready := true } else x)) ∧
  (∀ (s : State) (n : PortId) (k : Packet) (trailer : W64),
    (s.ports[n].state = .down ∨ k.kind ≠ 0x08 ∨ k.dst ≠ s.chip → exec (.heartbeat n k trailer) s = .next s) ∧
    (s.ports[n].state ≠ .down → k.kind = 0x08 → k.dst = s.chip → trailer = pktTrailer k → s.ports[n].held = [] →
      ∃ t, exec (.heartbeat n k trailer) s = .next t ∧
        t.ports = updAt s.ports n (fun x => { x with
          hbSeenAt := s.timeNs, nbrAdmitted := x.nbrAdmitted || ldNat k.payload 3 1 == 3 }) ∧
        { t with ports := s.ports, tc12At := s.tc12At } = s) ∧
    (s.ports[n].state ≠ .down → k.kind = 0x08 → k.dst = s.chip → trailer ≠ pktTrailer k →
      ∃ t, exec (.heartbeat n k trailer) s = .next t ∧ t.ports[n].e2e = min 65535 (s.ports[n].e2e + 1) ∧
        t.ports[n].hbSeenAt = s.ports[n].hbSeenAt ∧ t.ports[n].nbrAdmitted = s.ports[n].nbrAdmitted ∧
        (s.ports[n].state = .probation → t.ports[n].probationAt = s.timeNs ∧ t.ports[n].ready = false) ∧
        { t with ports := s.ports, tc12At := s.tc12At, baro := s.baro } = s)) ∧
  (∀ (s : State) (n : PortId) (at_ : Nat), let s1 := s.advanceTo at_
    let x := s1.ports[n]
    let hb : Packet := { mkPacket (s1.neighbour n) 0x08 0 0 0 0
        (leBytes s1.chip.toNat 2 ++ leBytes n.val 1 ++ leBytes x.state.code 1 ++ leBytes x.hbSeq.toNat 4 ++
          leBytes s1.fabric.repoch.toNat 1 ++ leBytes 0 7 ++ leBytes s1.timeNs 8) with
        src := s1.chip, repoch := s1.fabric.repoch }
    let ready := x.tc0Queue = [] ∧ 2560 * pktFlits hb ≤ (s1.refill n).ports[n].tokens
    let period := s1.image.fabric.hbPeriodUs * 1000
    (x.state = .down ∨ s1.timeNs < x.hbSentAt + period → exec (.heartbeatTimer n at_) s = .next s1) ∧
    (x.state ≠ .down → x.hbSentAt + period ≤ s1.timeNs → ∃ t, exec (.heartbeatTimer n at_) s = .next t ∧
      t.ports[n].hbSeq = x.hbSeq + 1 ∧ t.ports[n].hbSentAt = s1.timeNs ∧ t.ports[n].hbSeenAt = x.hbSeenAt ∧
      (ready → x.held = [] → s1.credit n 0 (pktFlits hb) = true → t.ports[n].wire = x.wire ++ [(0, hb)] ∧
        t.ports[n].tc0Queue = [] ∧ t.ports[n].tokens + 2560 * pktFlits hb = (s1.refill n).ports[n].tokens) ∧
      (¬ready → t.ports[n].tc0Queue = x.tc0Queue ++ [hb] ∧ t.ports[n].wire = x.wire) ∧
      (x.state = .probation → x.hbSeenAt + period < s1.timeNs → t.ports[n].probationAt = s1.timeNs ∧ t.ports[n].ready = false) ∧
      (∀ m, m ≠ n → t.ports[m] = s1.ports[m]) ∧ { t with ports := s1.ports } = s1)) ∧
  (∀ (s : State) (n : PortId) (at_ : Nat), let s1 := s.advanceTo at_
    let limit := s1.ports[n].hbSeenAt + s1.image.fabric.missLimit * (s1.image.fabric.hbPeriodUs * 1000)
    (s1.timeNs < limit ∨ s1.ports[n].state = .down → exec (.heartbeatMissLimit n at_) s = .next s1) ∧
    (limit ≤ s1.timeNs → s1.ports[n].state ≠ .down →
      ∃ t, exec (.heartbeatMissLimit n at_) s = .next t ∧ PortLost n 0x02 s1 t))

/-- Blocks are corrected or lost and counted, control flits settle credits, aborts travel on, packets take their hop,
TC0 waits for tokens (12 R285, R286, R287, R289, R291, R293, R296, R300, R310). -/
def Obligations.BlocksFlitsAndHopsOfAPort : Prop :=
  (∀ (s : State) (n : PortId) (burst : Nat) (side : W16),
    (s.ports[n].state = .down → exec (.blockReceive n burst side) s = .next s) ∧
    (s.ports[n].state ≠ .down → 8 < burst → ∃ t, exec (.blockReceive n burst side) s = .next t ∧
      t.ports = updAt s.ports n (fun x => { x with
        fecLost := min 65535 (x.fecLost + 1)
        probationAt := if x.state = .probation then s.timeNs else x.probationAt
        ready := if x.state = .probation then false else x.ready }) ∧
      { t with ports := s.ports, baro := s.baro } = s) ∧
    (s.ports[n].state ≠ .down → burst ≤ 8 → ∃ t, exec (.blockReceive n burst side) s = .next t ∧
      let v := side.toNat / 4096
      let kind := side.toNat / 1024 % 4
      t.ports = updAt s.ports n (fun x => { x with
        fecCorr := if burst = 0 then x.fecCorr else x.fecCorr + 1
        vcs := if v < 12 then updAt x.vcs (vcOf v) (fun c => { c with
            recv := c.recv + 1, recvFreed := c.recvFreed + 1
            inProgress := kind == 1 || kind == 0 && c.inProgress
            onward := if kind = 0 then c.onward else none }) else x.vcs }) ∧
      { t with ports := s.ports, baro := s.baro } = s)) ∧
  (∀ (s : State) (n : PortId) (sent freed : Vector (BitVec 12) 12) (b : WakeBits),
    (s.ports[n].state = .down → exec (.linkControlFlit n sent freed b) s = .next s) ∧
    (s.ports[n].state ≠ .down → s.ports[n].held = [] → (∀ v : VcId, sent[v] = s.ports[n].vcs[v].recv) →
      exec (.linkControlFlit n sent freed b) s = .next ((s.refill n).updPort n fun x => { x with
        wakeReq := x.wakeReq || (b.wake && x.parked)
        nbrParked := b.parked
        vcs := Vector.ofFn fun v => { x.vcs[v] with freed := freed[v] } })) ∧
    (∀ v : VcId, s.ports[n].state ≠ .down → s.ports[n].held = [] →
      (∀ w, w ≠ v → sent[w] = s.ports[n].vcs[w].recv) → sent[v] ≠ s.ports[n].vcs[v].recv →
      (sent[v] - s.ports[n].vcs[v].recv).toNat < 2048 → s.ports[n].vcs[v].onward = none →
      exec (.linkControlFlit n sent freed b) s = .next ((s.refill n).updPort n fun x => { x with
        wakeReq := x.wakeReq || (b.wake && x.parked)
        nbrParked := b.parked
        vcs := Vector.ofFn fun w => if w = v then
            { x.vcs[w] with
              freed := freed[w], recv := sent[w], recvFreed := x.vcs[w].recvFreed + (sent[w] - x.vcs[w].recv)
              inProgress := false }
          else { x.vcs[w] with freed := freed[w] } }))) ∧
  (∀ (s : State) (n : PortId) (v : VcId), ∀ i ∈ [Instr.abortFlit n v, .vcIdleTimeout n v],
    let c := s.ports[n].vcs[v]
    let ended := updAt s.ports n fun x => { x with vcs := updAt x.vcs v fun c => { c with inProgress := false, onward := none } }
    (c.inProgress = false → exec i s = .next s) ∧
    (c.inProgress = true → c.onward = none → exec i s = .next { s with ports := ended }) ∧
    (∀ m w, c.inProgress = true → c.onward = some (m, w) → (∀ e ∈ s.ports[m].held, e.via ≠ some (n, v) ∨ e.vc ≠ w) →
      exec i s = .next { s with ports := updAt ended m fun x => { x with aborts := x.aborts ++ [w] } }) ∧
    (∀ m w e, c.inProgress = true → c.onward = some (m, w) → s.ports[m].held = [e] → e.via = some (n, v) → e.vc = w →
      exec i s = .next { s with ports := updAt ended m fun x => { x with
        held := [], aborts := if e.left < pktFlits e.pkt then x.aborts ++ [w] else x.aborts } })) ∧
  (∀ (s : State) (n : PortId) (v : VcId) (k : Packet) (hcrc : W16), s.ports[n].state = .admitted →
    let i := Instr.packetForward n v k hcrc
    (hcrc ≠ pktHcrc k → ∃ t, exec i s = .next t ∧
      t.ports = updAt s.ports n (fun x => { x with hdrDrops := min 65535 (x.hdrDrops + 1) }) ∧
      { t with ports := s.ports, baro := s.baro } = s) ∧
    (hcrc = pktHcrc k → k.dst = s.chip → (knownKind k.kind = true → exec i s = .next s) ∧
      (knownKind k.kind = false → ∃ t, exec i s = .next t ∧
        t.ports = updAt s.ports n (fun x => { x with e2e := min 65535 (x.e2e + 1) }) ∧
        { t with ports := s.ports, baro := s.baro } = s)) ∧
    (hcrc = pktHcrc k → k.dst ≠ s.chip →
      (s.hop k = .drop → ∃ t, exec i s = .next t ∧
        t.ports = updAt s.ports n (fun x => { x with routeDrops := min 65535 (x.routeDrops + 1) }) ∧
        { t with ports := s.ports, tc12At := s.tc12At } = s) ∧
      (∀ m w d, s.hop k = .to m w d → s.ports[m].held = [] → let sent : Packet := { k with detoured := k.detoured || d }
        ∃ t, exec i s = .next t ∧
          t.ports[n].vcs[v].inProgress = s.ports[n].vcs[v].inProgress ∧
          (s.ports[n].vcs[v].inProgress = true → t.ports[n].vcs[v].onward = some (m, w)) ∧
          (∀ q, q ≠ m → q ≠ n → t.ports[q] = s.ports[q]) ∧
          { t with ports := s.ports, acts := s.acts, tc12At := s.tc12At } = s ∧
          (s.maySend m k = true → s.credit m w (pktFlits k) = true → t.ports[m].held = [] ∧
            t.ports[m].wire = s.ports[m].wire ++ [(w, sent)]) ∧
          (s.maySend m k = false → t.ports[m].wire = s.ports[m].wire ∧
            t.ports[m].held = [{ vc := w, pkt := sent, via := some (n, v), left := pktFlits k }])))) ∧
  (∀ (s : State) (n : PortId) (v : VcId) (k : Packet) (hcrc : W16), s.ports[n].state ≠ .admitted →
    (s.ports[n].state = .down ∨ hcrc = pktHcrc k → exec (.packetForward n v k hcrc) s = .next s) ∧
    (s.ports[n].state ≠ .down → hcrc ≠ pktHcrc k → ∃ t, exec (.packetForward n v k hcrc) s = .next t ∧
      t.ports[n].hdrDrops = min 65535 (s.ports[n].hdrDrops + 1) ∧
      (s.ports[n].state = .probation → t.ports[n].probationAt = s.timeNs ∧ t.ports[n].ready = false) ∧
      (∀ q, q ≠ n → t.ports[q] = s.ports[q]) ∧ { t with ports := s.ports, baro := s.baro } = s)) ∧
  (∀ (s : State) (n : PortId) (at_ : Nat), let s1 := (s.advanceTo at_).refill n
    (s1.ports[n].state = .down ∨ s1.ports[n].tc0Queue = [] → exec (.tc0Inject n at_) s = .next s1) ∧
    (∀ k, s1.ports[n].state ≠ .down → s1.ports[n].tc0Queue = [k] → s1.ports[n].tokens < 2560 * pktFlits k →
      exec (.tc0Inject n at_) s = .next s1) ∧
    (∀ k, s1.ports[n].state ≠ .down → s1.ports[n].tc0Queue = [k] → 2560 * pktFlits k ≤ s1.ports[n].tokens → s1.maySend n k = true →
      s1.ports[n].held = [] → s1.credit n (s1.leaveVc n k) (pktFlits k) = true →
      ∃ t, exec (.tc0Inject n at_) s = .next t ∧ t.ports[n].tc0Queue = [] ∧
        t.ports[n].tokens = s1.ports[n].tokens - 2560 * pktFlits k ∧
        t.ports[n].wire = s1.ports[n].wire ++ [(s1.leaveVc n k, k)] ∧ (∀ m, m ≠ n → t.ports[m] = s1.ports[m]) ∧
        { t with ports := s1.ports, tc12At := s1.tc12At } = s1))

/-- A WRITE, READ_REQ or SIGNAL that is next in its stream and passes its checks is applied and delivered; any other
is not applied (12 R290, R302, R303, R304, R307; 07 R175; 17 R403). -/
def Obligations.PacketsOfAStreamAreAppliedOnce : Prop :=
  (∀ (s : State) (n : PortId) (k : Packet) (tr : W64),
    ∀ e ∈ [(Instr.writePacket n k tr, (0x01 : Byte)), (.readReq n k tr, 0x02), (.signalPacket n k tr, 0x04)],
      let x := s.dstStream (pktStream k)
      (s.mine n k = false ∨ k.kind ≠ e.2 → exec e.1 s = .next s) ∧
      (s.mine n k = true → k.kind = e.2 → s.isFenced k.src = true → ∃ t, exec e.1 s = .next t ∧ NotApplied s t ∧
        t.fabric = s.fabric ∧
        (Reaches k.src s → Sends { mkPacket k.src 0x06 0 k.dstPart k.srcPart 0 (nakPayload k.tc 0x11 k.psn) with src := s.chip } t)) ∧
      (s.mine n k = true → k.kind = e.2 → e.2 ≠ 0x02 → s.isFenced k.src = false → x.started = true → x.has k.psn = true →
        x.floor = k.floor → x.delivered = [] → x.held = [] → seqLt x.cum x.floor = false → ∃ t, exec e.1 s = .next t ∧
        NotApplied s t ∧ t.dstStream (pktStream k) = { x with ackDue := true }) ∧
      (s.mine n k = true → k.kind = e.2 → NextOfStream k s → tr ≠ pktTrailer k → ∃ t, exec e.1 s = .next t ∧
        NotApplied s t ∧ t.ports[n].e2e = min 65535 (s.ports[n].e2e + 1) ∧ (t.dstStream (pktStream k)).cum = k.psn) ∧
      (∀ c, s.mine n k = true → k.kind = e.2 → NextOfStream k s → tr = pktTrailer k →
        (if e.2 = 0x01 then s.wholeWriteRefusal k else if e.2 = 0x02 then s.readRefusal k else s.signalRefusal k) = some c →
        ∃ t, exec e.1 s = .next t ∧ NotApplied s t ∧ (t.dstStream (pktStream k)).cum = k.psn ∧
          (Reaches k.src s → Sends { mkPacket k.src 0x06 0 k.dstPart k.srcPart 0 (nakPayload k.tc c k.psn) with src := s.chip } t))) ∧
  (∀ (s : State) (n : PortId) (k : Packet), s.mine n k = true → k.kind = 0x01 → NextOfStream k s → k.op = 0 →
    s.wholeWriteRefusal k = none → k.payload.length = 64 →
    (∀ c a, s.viewLoc k.dstPart k.addr.toNat = some (.core c a) → s.locGone (.core c a) = false → a < 0x300000 →
      ∃ t, exec (.writePacket n k (pktTrailer k)) s = .next t ∧ Delivers k t ∧
        t.cores = updAt s.cores c (fun x => { x with
          mem := wrL x.mem (a / 64 * 64) k.payload, memPoison := setBlocks x.memPoison (a / 64 * 64) 64 k.poison }) ∧
        (∀ b, b < a / 64 * 64 ∨ a / 64 * 64 + 64 ≤ b → rd t.cores[c].mem b = rd s.cores[c].mem b) ∧
        t.host = s.host ∧ t.xfers = s.xfers ∧ ∀ w : WellId, t.wells[w].data = s.wells[w].data) ∧
    (∀ w a, s.viewLoc k.dstPart k.addr.toNat = some (.mem (.well w) a) → s.locGone (.mem (.well w) a) = false →
      has s.wells[w].qtn (a / 65536) = false →
      ∃ t, exec (.writePacket n k (pktTrailer k)) s = .next t ∧ Delivers k t ∧
        t.wells[w].data = wrL s.wells[w].data (64 * (a / 64)) k.payload ∧ has t.wells[w].marker (a / 64) = k.poison ∧
        (∀ b, b < 64 * (a / 64) ∨ 64 * (a / 64) + 64 ≤ b → rd t.wells[w].data b = rd s.wells[w].data b) ∧
        t.host = s.host ∧ t.xfers = s.xfers ∧ t.cores = s.cores ∧ ∀ v : WellId, v ≠ w → t.wells[v].data = s.wells[v].data)) ∧
  (∀ (s : State) (n : PortId) (k : Packet), s.mine n k = true → k.kind = 0x04 → NextOfStream k s → s.signalRefusal k = none →
    ∃ t, exec (.signalPacket n k (pktTrailer k)) s = .next t ∧ Delivers k t ∧
      t.cores = updAt s.cores (coreOf (k.addr.toNat / 256 % 256)) (fun x => { x with
        sync := updAt x.sync (ctrOf (k.addr.toNat % 32)) fun y => { y with count := y.count + 1 } }) ∧
      t.host = s.host ∧ t.xfers = s.xfers ∧ ∀ w : WellId, t.wells[w].data = s.wells[w].data) ∧
  (∀ (s : State) (n : PortId) (k : Packet) (c : CoreId) (a : Nat), s.mine n k = true → k.kind = 0x02 → NextOfStream k s →
    s.readRefusal k = none → ldNat k.payload 8 4 = 64 → s.viewLoc k.dstPart k.addr.toNat = some (.core c a) →
    s.locGone (.core c a) = false → a < 0x300000 → k.ord = false ∨ (s.dstStream (pktStream k)).cum = k.psn →
    ∃ t, exec (.readReq n k (pktTrailer k)) s = .next t ∧ Delivers k t ∧ t.cores = s.cores ∧ t.host = s.host ∧
      (Reaches k.src s → Sends { mkPacket k.src 0x03 k.tc k.dstPart k.srcPart (ldNat k.payload 0 8)
          (rdL s.cores[c].mem (a / 64 * 64) 64) with
        src := s.chip, psn := k.psn, poison := s.cores[c].memPoisoned (a / 64 * 64) 64, ieee := k.ieee } t)) ∧
  (∀ (s : State) (src : BitVec 15) (tc : BitVec 2) (n : PortId) (k : Packet), let x := s.dstStream (streamKey src tc)
    ((∀ e ∈ x.held, e.2.psn ≠ x.cum) → exec (.orderedPacketRelease src tc) s = .next s) ∧
    (x.held = [(n, k)] → k.psn = x.cum → k.src = src → k.tc = tc → k.kind = 0x04 → x.started = true → x.delivered = [] →
      ∃ t, exec (.orderedPacketRelease src tc) s = .next t ∧ Delivers k t ∧ (t.dstStream (streamKey src tc)).held = [] ∧
        t.cores = updAt s.cores (coreOf (k.addr.toNat / 256 % 256)) (fun x => { x with
          sync := updAt x.sync (ctrOf (k.addr.toNat % 32)) fun y => { y with count := y.count + 1 } }) ∧
        t.fabric.reorderBytes = s.fabric.reorderBytes - (k.payload.length + 40))) ∧
  (∀ (s : State) (src : BitVec 15) (tc : BitVec 2), let x := s.dstStream (streamKey src tc)
    (x.ackDue = false → exec (.ackSend src tc) s = .next s) ∧
    (x.ackDue = true → ∃ t, exec (.ackSend src tc) s = .next t ∧ NotApplied s t ∧
      t.fabric = { s.fabric with dst := Sparse.set {} s.fabric.dst (streamKey src tc) { x with ackDue := false } } ∧
      (Reaches src s → Sends { mkPacket src 0x05 0 0 0 0 (ackPayload tc x) with src := s.chip } t)))

/-- ACK and READ_DATA settle packets of a transfer, a NAK or the seventh resend fails them, a shorter wait sends them
again (12 R303, R304, R305, R306; 07 R170). -/
def Obligations.SettledPacketsMoveTheirItems : Prop :=
  (∀ (s : State) (n : PortId) (k : Packet) (tr : W64) (o : OutPacket) (x : Xfer), s.mine n k = true → s.isFenced k.src = false →
    let key := streamKey k.src (BitVec.ofNat 2 (ldNat k.payload 0 1))
    let y := s.srcStream key
    y.out = [o] → y.queue = [] → o.item = .xfer x.id → s.xfers = [x] → o.pkt.kind = 0x01 →
    let gone := Sparse.set {} s.fabric.src key { y with out := [], floor := y.next }
    let covers := ackCovers (BitVec.ofNat 32 (ldNat k.payload 4 4)) (ldNat k.payload 8 16) o.pkt.psn
    (k.kind = 0x05 → tr = pktTrailer k → covers = true → ∃ t, exec (.ack n k tr) s = .next t ∧
      t.fabric = { s.fabric with src := gone } ∧
      t.xfers = [{ x with settled := x.settled + 1, delivered := x.delivered + o.pkt.payload.length }] ∧
      t.parts = s.parts ∧ t.cores = s.cores ∧ t.wells = s.wells ∧ t.host = s.host) ∧
    (k.kind = 0x05 → tr ≠ pktTrailer k ∨ covers = false → ∃ t, exec (.ack n k tr) s = .next t ∧
      t.fabric = s.fabric ∧ NotApplied s t) ∧
    (∀ (code : Nat) (r : OutcomeCode), k.kind = 0x06 → tr = pktTrailer k → ldNat k.payload 1 1 = code →
      BitVec.ofNat 32 (ldNat k.payload 4 4) = o.pkt.psn →
      (code, r) ∈ [(0x15, OutcomeCode.refusedOwner), (0x16, .refusedState), (0x11, .failedFenced)] → ∃ t,
        exec (.nak n k tr) s = .next t ∧ t.fabric = { s.fabric with src := gone } ∧
        t.xfers = [{ x.fail r with settled := x.settled + 1 }] ∧ t.parts = s.parts ∧ t.cores = s.cores ∧ t.wells = s.wells) ∧
    (k.kind = 0x06 → tr ≠ pktTrailer k ∨ BitVec.ofNat 32 (ldNat k.payload 4 4) ≠ o.pkt.psn → ∃ t,
      exec (.nak n k tr) s = .next t ∧ t.fabric = s.fabric ∧ NotApplied s t)) ∧
  (∀ (s : State) (n : PortId) (k : Packet) (tr : W64),
    ∀ e ∈ [(Instr.ack n k tr, (0x05 : Byte)), (.nak n k tr, 0x06), (.readData n k tr, 0x03)],
      s.mine n k = false ∨ k.kind ≠ e.2 → exec e.1 s = .next s) ∧
  (∀ (s : State) (dst : BitVec 15) (tc : BitVec 2) (psn : W32) (at_ : Nat) (o : OutPacket), let s1 := s.advanceTo at_
    let key := streamKey dst tc
    let y := s1.srcStream key
    y.out = [o] → y.queue = [] → o.pkt.psn = psn →
    (s1.timeNs < o.nextAt → exec (.resendTimer dst tc psn at_) s = .next s1) ∧
    (o.nextAt ≤ s1.timeNs → o.pkt.attempt ≠ 7 → o.from_ = none ∨ o.pkt.kind = 0x02 → s1.renewOf key o = none → ∃ t, exec (.resendTimer dst tc psn at_) s = .next t ∧
      ((t.srcStream key).out.map fun q => (q.pkt.psn, q.pkt.attempt, q.nextAt, q.item, q.pkt.payload)) =
        [(psn, o.pkt.attempt + 1,
          o.nextAt + [20000, 40000, 60000, 80000, 100000, 120000, 200000, 200000].getD (o.pkt.attempt.toNat + 1) 0, o.item,
          o.pkt.payload)] ∧
      t.fabric.resends = min (2 ^ 24 - 1) (s1.fabric.resends + 1) ∧ t.fabric.failed = s1.fabric.failed ∧
      t.xfers = (if o.pkt.poison then s1.poisonItem o.item else s1).xfers ∧ t.parts = s1.parts ∧ t.cores = s1.cores) ∧
    (∀ (a : W64) (c : CoreId) (b : Nat), o.nextAt ≤ s1.timeNs → o.pkt.attempt ≠ 7 → o.from_ = some a → o.pkt.kind = 0x01 →
      o.pkt.payload.length = 64 → s1.itemHost o.item = false → s1.parts[o.pkt.srcPart].claims? = true →
      s1.viewLoc o.pkt.srcPart a.toNat = some (.core c b) → s1.locGone (.core c b) = false → b < 0x300000 →
      ∃ t, exec (.resendTimer dst tc psn at_) s = .next t ∧ t.cores = s1.cores ∧
        ((t.srcStream key).out.map fun q => (q.pkt.psn, q.pkt.attempt, q.pkt.payload, q.pkt.poison)) =
          [(psn, o.pkt.attempt + 1, rdL s1.cores[c].mem (b / 64 * 64) 64, s1.cores[c].memPoisoned (b / 64 * 64) 64)]) ∧
    (∀ r, o.nextAt ≤ s1.timeNs → o.pkt.attempt ≠ 7 → s1.renewOf key o = some r → ∃ t,
      exec (.resendTimer dst tc psn at_) s = .next t ∧ t.fabric.resends = min (2 ^ 24 - 1) (s1.fabric.resends + 1) ∧
      t.parts = s1.parts ∧ t.cores = s1.cores) ∧
    (∀ x : Xfer, o.nextAt ≤ s1.timeNs → o.pkt.attempt = 7 → o.item = .xfer x.id → s1.xfers = [x] → o.pkt.kind = 0x01 →
      ∃ t, exec (.resendTimer dst tc psn at_) s = .next t ∧
        t.fabric = { s1.fabric with
          src := Sparse.set {} s1.fabric.src key { y with out := [], floor := y.next }
          failed := min (2 ^ 24 - 1) (s1.fabric.failed + 1) } ∧
        t.xfers = [{ x.fail .failedLink with settled := x.settled + 1 }] ∧ t.parts = s1.parts ∧ t.cores = s1.cores)) ∧
  (∀ (s : State) (n : PortId) (k : Packet) (o : OutPacket) (x : Xfer) (c : CoreId) (a : Nat) (b0 : W64),
    s.mine n k = true →
    s.isFenced k.src = false → k.kind = 0x03 → k.payload.length = 64 → k.poison = false →
    let key := streamKey k.src k.tc
    let y := s.srcStream key
    y.out = [o] → y.queue = [] → o.pkt.psn = k.psn → o.pkt.kind = 0x02 → ldNat o.pkt.payload 8 4 = 64 →
    o.item = .xfer x.id → s.xfers = [x] → x.dstHost = false → s.isLocal x.dst = true → x.op = 0 →
    o.renews = none → o.from_ = some b0 → s.viewLoc x.part b0.toNat = some (.core c a) → s.locGone (.core c a) = false → a < 0x300000 →
    ∃ t, exec (.readData n k (pktTrailer k)) s = .next t ∧
      t.fabric = { s.fabric with src := Sparse.set {} s.fabric.src key { y with out := [], floor := y.next } } ∧
      t.xfers = [{ x with settled := x.settled + 1, delivered := x.delivered + 64 }] ∧
      t.cores = updAt s.cores c (fun z => { z with
        mem := wrL z.mem (a / 64 * 64) k.payload, memPoison := setBlocks z.memPoison (a / 64 * 64) 64 false }) ∧
      (∀ b, b < a / 64 * 64 ∨ a / 64 * 64 + 64 ≤ b → rd t.cores[c].mem b = rd s.cores[c].mem b) ∧ t.host = s.host) ∧
  (∀ (s : State) (n : PortId) (k : Packet), s.mine n k = true → s.isFenced k.src = false → k.kind = 0x03 →
    (∀ o ∈ (s.srcStream (streamKey k.src k.tc)).out, o.pkt.psn ≠ k.psn) → ∃ t, exec (.readData n k (pktTrailer k)) s = .next t ∧
      NotApplied s t ∧ t.fabric = s.fabric)

/-- A FENCE or READMIT from a gateway with a higher epoch is taken, passed on and answered; any other is discarded
(17 R402, R404, R405; 04 R99, R100, R103). -/
def Obligations.FencesAndReadmissionsAreTakenOnce : Prop :=
  (∀ (s : State) (n : PortId) (k : Packet) (tr : W64), s.ports[n].state ≠ .down → k.kind = 0x0B →
    let action := ldNat k.payload 0 1
    let c : BitVec 15 := BitVec.ofNat 15 (ldNat k.payload 2 2)
    let e : W32 := BitVec.ofNat 32 (ldNat k.payload 4 4)
    let g : W32 := BitVec.ofNat 32 (ldNat k.payload 8 4)
    let record := s.genRecord 0x02
    let takes := tr = pktTrailer k ∧ k.src.toNat ∈ s.image.fabric.gateways ∧ record.toNat ≤ g.toNat ∧
      s.fabric.fenceEpoch.toNat < e.toNat
    let i := if action = 2 then Instr.readmit n k tr else .fence n k tr
    (¬takes ∨ action ≠ 1 ∧ action ≠ 2 → ∃ t, exec i s = .next t ∧ NotApplied s t ∧ t.fabric = s.fabric ∧ t.ctl = s.ctl) ∧
    (takes → action = 1 → ∃ t, exec i s = .next t ∧ NotApplied s t ∧ t.fabric.fenceEpoch = e ∧
      t.ctl = { s.ctl with fences := s.ctl.fences ++ [(s.timeNs / 1000, c)], recordedGen := t.ctl.recordedGen } ∧
      t.fabric.fenced = s.fabric.fenced ∧ t.fabric.selfFenced = s.fabric.selfFenced ∧
      (record.toNat < g.toNat → t.genRecord 0x02 = g) ∧ (record = g → t.ctl.recordedGen = s.ctl.recordedGen) ∧
      (record = g → k.src ≠ s.chip → Reaches k.src s →
        Sends { mkPacket k.src 0x0A 0 0 0 0 (replyPayload g e .done) with src := s.chip } t)) ∧
    (takes → action = 2 → c ≠ s.chip → ∃ t, exec i s = .next t ∧ NotApplied s t ∧ t.fabric.fenceEpoch = e ∧
      t.ctl.fences = s.ctl.fences ∧ t.fabric.selfFenced = s.fabric.selfFenced ∧
      (∀ at_, Sparse.find s.fabric.fencedAt c.toNat = some at_ → at_ + 2000000 ≤ s.timeNs →
        t.fabric.fenced = s.fabric.fenced.filter (· != c.toNat)) ∧
      (∀ at_, Sparse.find s.fabric.fencedAt c.toNat = some at_ → s.timeNs < at_ + 2000000 →
        t.fabric.fenced = s.fabric.fenced ∧ (c, e) ∈ t.fabric.readmits))) ∧
  (∀ (s : State) (n : PortId) (k : Packet) (tr : W64), s.ports[n].state = .down ∨ k.kind ≠ 0x0B →
    exec (.fence n k tr) s = .next s ∧ exec (.readmit n k tr) s = .next s) ∧
  (∀ (s : State) (c : BitVec 15) (at_ a : Nat), let s1 := s.advanceTo at_
    let f := s1.fabric
    Sparse.find f.fencedAt c.toNat = some a →
    (f.readmits.any (fun r => r.1 == c) = true ∧ a + 2000000 ≤ s1.timeNs → exec (.readmitApply c at_) s = .next { s1 with fabric := { f with
      readmits := f.readmits.filter fun r => r.1 != c, fencedAt := Sparse.del f.fencedAt c.toNat
      selfFenced := if c = s1.chip then false else f.selfFenced
      fenced := if c = s1.chip then f.fenced else f.fenced.filter (· != c.toNat) } }) ∧
    (f.readmits.any (fun r => r.1 == c) = false ∨ s1.timeNs < a + 2000000 → exec (.readmitApply c at_) s = .next s1)) ∧
  (∀ s : State, ¬Ready s → ∀ i ∈ [Instr.fmInjectFence, .fmInjectEpochMark], exec i s = .next s) ∧
  (∀ s : State, Ready s → s.chip.toNat ∉ s.image.fabric.gateways →
    ∀ i ∈ [Instr.fmInjectFence, .fmInjectEpochMark], ∃ t, exec i s = .next t ∧
      Refused (s.owner 0x2360150) 0x2360150 .refusedState false s t) ∧
  (∀ s : State, Ready s → s.chip.toNat ∈ s.image.fabric.gateways →
    let e : W32 := BitVec.ofNat 32 (s.fabric.fmInj0.toNat / 2 ^ 32)
    let g : W32 := BitVec.ofNat 32 (s.fabric.fmInj1.toNat % 2 ^ 32)
    s.fabric.fmInj0.toNat % 256 = 1 → (s.genRecord 0x02).toNat ≤ g.toNat → s.fabric.fenceEpoch.toNat < e.toNat →
    ∃ t, exec .fmInjectFence s = .next t ∧ NotApplied s t ∧ t.fabric.fenceEpoch = e ∧
      t.ctl.fences = s.ctl.fences ++ [(s.timeNs / 1000, BitVec.ofNat 15 (s.fabric.fmInj0.toNat / 2 ^ 16 % 2 ^ 16))] ∧
      t.fabric.fmRx = leBytes (t.genRecord 0x02).toNat 4 ++ leBytes e.toNat 4 ++ leBytes 0 16 ∧
      t.link.msi = s.link.msi ++ [(.pf, 4), (.pf, 4)])

/-- An epoch mark switches the routing epoch and admits ready ports; the other table alone is written; CONTROL
packets carry control writes (12 R291, R299, R302, R311; 17 R404, R407, R408, R409; 04 R102). -/
def Obligations.EpochMarksTablesAndControlPackets : Prop :=
  (∀ (s : State) (n : PortId) (k : Packet) (tr : W64), s.ports[n].state = .admitted → k.kind = 0x0C →
    let e := ldNat k.payload 0 1
    let q : W32 := BitVec.ofNat 32 (ldNat k.payload 4 4)
    let g : W32 := BitVec.ofNat 32 (ldNat k.payload 8 4)
    let takes := tr = pktTrailer k ∧ k.src.toNat ∈ s.image.fabric.gateways ∧ (s.genRecord 0x02).toNat ≤ g.toNat ∧
      s.fabric.markSeq.toNat < q.toNat ∧ e < 2
    (¬takes → ∃ t, exec (.epochMark n k tr) s = .next t ∧ NotApplied s t ∧ t.fabric = s.fabric ∧ t.ctl = s.ctl) ∧
    (takes → ∃ t, exec (.epochMark n k tr) s = .next t ∧ NotApplied s t ∧
      t.fabric = { s.fabric with markSeq := q, repoch := e == 1, oldLocked := true, switchAt := some s.timeNs } ∧
      (∀ m : PortId, t.ports[m].state =
        if s.ports[m].state = .probation ∧ s.ports[m].ready = true ∧ s.ports[m].admits = true then .admitted
        else s.ports[m].state))) ∧
  (∀ (s : State) (n : PortId) (k : Packet) (tr : W64), s.ports[n].state ≠ .admitted ∨ k.kind ≠ 0x0C →
    exec (.epochMark n k tr) s = .next s) ∧
  (∀ s : State, Ready s → s.chip.toNat ∈ s.image.fabric.gateways →
    let q : W32 := BitVec.ofNat 32 (s.fabric.fmInj0.toNat / 2 ^ 32)
    let g : W32 := BitVec.ofNat 32 (s.fabric.fmInj1.toNat % 2 ^ 32)
    let e := s.fabric.fmInj0.toNat % 256
    (s.genRecord 0x02).toNat ≤ g.toNat → s.fabric.markSeq.toNat < q.toNat → e < 2 →
    ∃ t, exec .fmInjectEpochMark s = .next t ∧ NotApplied s t ∧ t.link.msi = s.link.msi ++ [(.pf, 4)] ∧
      t.fabric = { s.fabric with markSeq := q, repoch := e == 1, oldLocked := true, switchAt := some s.timeNs }) ∧
  (∀ (s : State) (epoch : Bool) (c : BitVec 15) (mask : Byte), let off := 0x2370000 + epoch.toNat * 0x8000 + c.toNat
    (¬Ready s ∨ epoch = s.fabric.repoch → exec (.routingTableWrite epoch c mask) s = .next s) ∧
    (Ready s → epoch ≠ s.fabric.repoch → s.routeLocked = true → ∃ t, exec (.routingTableWrite epoch c mask) s = .next t ∧
      Refused (s.owner off) off .refusedState false s t) ∧
    (Ready s → epoch ≠ s.fabric.repoch → s.routeLocked = false → exec (.routingTableWrite epoch c mask) s = .next { s with
      fabric := { s.fabric with
        tables := updAt s.fabric.tables (if epoch then (1 : Fin 2) else 0) fun t =>
          Sparse.set 0#8 t c.toNat (mask &&& 0x3F) } })) ∧
  (∀ (s : State) (at_ : Nat), let s1 := s.advanceTo at_
    (s1.routeLocked = true → exec (.oldLockedClear at_) s = .next s1) ∧
    (s1.routeLocked = false → exec (.oldLockedClear at_) s = .next { s1 with fabric := { s1.fabric with oldLocked := false } })) ∧
  (∀ (s : State) (n : PortId) (k : Packet), s.mine n k = true → k.kind = 0x09 →
    (s.isGateway k.src = false → ∃ t, exec (.controlPacket n k (pktTrailer k)) s = .next t ∧ NotApplied s t ∧
      t.fabric = s.fabric ∧ t.ctl = { s.ctl with refusalCount := s.ctl.refusalCount + 1 }) ∧
    (∀ j, s.isGateway k.src = true → NextOfStream k s →
      s.image.fabric.gateways.findIdx? (fun g => g == k.src.toNat) = some j →
      let w : CtlWrite := ⟨0x02, BitVec.ofNat 32 (ldNat k.payload 0 4), ldNat k.payload 8 8, BitVec.ofNat 64 (ldNat k.payload 16 8)⟩
      blockOf w.offset ≠ .none → s.served w.offset = true → s.owner w.offset = 0x02 → s.absentWindow w.offset = false →
      genTarget w.offset = none → (s.genRecord 0x02).toNat ≤ w.gen.toNat →
      ∃ t, exec (.controlPacket n k (pktTrailer k)) s = .next t ∧ Delivers k t ∧
        t.ctl.writes = s.ctl.writes ++ [⟨w, s.timeNs / 1000, some (.gateway j (BitVec.ofNat 32 (ldNat k.payload 4 4))), none⟩] ∧
        t.genRecord 0x02 = w.gen ∧ t.cores = s.cores ∧ t.host = s.host ∧ t.wells = s.wells)) ∧
  (∀ (s : State) (n : PortId) (k : Packet) (tr : W64),
    ∀ e ∈ [(Instr.controlPacket n k tr, (0x09 : Byte)), (.controlReply n k tr, 0x0A)],
      s.mine n k = false ∨ k.kind ≠ e.2 → exec e.1 s = .next s) ∧
  (∀ (s : State) (n : PortId) (k : Packet), s.mine n k = true → k.kind = 0x0A →
    ((∀ o ∈ (s.srcStream (streamKey k.src 0)).out, o.pkt.kind ≠ 0x09) →
      ∃ t, exec (.controlReply n k (pktTrailer k)) s = .next t ∧ NotApplied s t ∧
        t.fabric = { s.fabric with fmRx := k.payload } ∧ t.link = { s.link with msi := s.link.msi ++ [(.pf, 4)] }) ∧
    (∀ o, let y := s.srcStream (streamKey k.src 0)
      y.out = [o] → y.queue = [] → o.item = .none → o.pkt.kind = 0x09 → ldNat o.pkt.payload 4 4 = ldNat k.payload 4 4 →
      ∃ t, exec (.controlReply n k (pktTrailer k)) s = .next t ∧ NotApplied s t ∧
        t.fabric = { s.fabric with
          src := Sparse.set {} s.fabric.src (streamKey k.src 0) { y with out := [], floor := y.next }, fmRx := k.payload })) ∧
  (∀ s : State, ¬Ready s → exec .fmControlSend s = .next s) ∧
  (∀ s : State, Ready s → let dst : BitVec 15 := s.fabric.fmTxDst.setWidth 15
    let m := leBytes s.fabric.fmTx[0].toNat 8 ++ leBytes s.fabric.fmTx[1].toNat 8 ++ leBytes s.fabric.fmTx[2].toNat 8
    let y := s.srcStream (streamKey dst 0)
    (dst = s.chip → s.isGateway dst = false → ∃ t, exec .fmControlSend s = .next t ∧ NotApplied s t ∧
      t.fabric = s.fabric ∧ t.ctl = { s.ctl with refusalCount := s.ctl.refusalCount + 1 }) ∧
    (dst ≠ s.chip → s.fabric.selfFenced = true → exec .fmControlSend s = .next s) ∧
    (dst ≠ s.chip → s.fabric.selfFenced = false → y.queue = [] → (y.next - y.floor).toNat ≤ 127 →
      ∃ t, exec .fmControlSend s = .next t ∧ NotApplied s t ∧ (t.srcStream (streamKey dst 0)).next = y.next + 1 ∧
        (t.srcStream (streamKey dst 0)).floor = y.floor ∧
        (Reaches dst s → Sends { mkPacket dst 0x09 0 0 0 0 m with src := s.chip, psn := y.next, floor := y.floor } t)))

/-- COLLECTIVE capsules are checked in order and taken up by their engine; an ATOMIC adds to its word or waits for
its trigger (13 R315, R316, R317, R318, R328; 04 R87). An op outside the table ends as a REDUCE_SCATTER (the model's
choice, log entry 2). -/
def Obligations.CollectiveCapsulesAreTakenUp : Prop :=
  (∀ (s : State) (p : PartId) (c : Capsule), NextCapsule p kColl s c →
    ∀ e ∈ [(Instr.reduceScatter p, 1), (.allGather p, 2), (.allReduce p, 3), (.broadcast p, 4), (.allToAll p, 5),
        (.collectiveBarrier p, 6)],
      c.field 0 1 = e.2 →
      let s1 := without p c s
      let x := parseColl s.nextItem p c c.takenAt
      (s.collEngine c.target = none → CapsuleEnds e.1 p c s 0x07 .refusedState 4) ∧
      (∀ a : AxisId, s.collEngine c.target = some a → s.collBodyOk a p c x = false →
        CapsuleEnds e.1 p c s 0x07 .refusedState 4) ∧
      (∀ (a : AxisId) (o : OutcomeCode), s.collEngine c.target = some a → s.collBodyOk a p c x = true →
        s.collOwner a p x = some o → CollEnds e.1 a c x s o x.collId.toNat) ∧
      (∀ a : AxisId, s.collEngine c.target = some a → s.collBodyOk a p c x = true → s.collOwner a p x = none →
        (s.capState p ≠ .running → CollEnds e.1 a c x s .refusedState x.collId.toNat) ∧
        (s.capState p = .running → e.2 ≠ 6 → s.protected? p x.dst.toNat x.length = true →
          CollEnds e.1 a c x s .refusedState 4) ∧
        (s.capState p = .running → e.2 = 6 ∨ s.protected? p x.dst.toNat x.length = false →
          let fenced := s.fabric.selfFenced || (s.others a x).any fun m => s.isFenced (s.collChip a x m)
          (fenced = true → CollEnds e.1 a c x s .failedFenced x.collId.toNat) ∧
          (fenced = false → 16 ≤ s.axisHeld a p → exec e.1 s = .next { s1 with
            nextItem := s.nextItem + 1, axes := updAt s.axes a fun y => { y with waiting := y.waiting ++ [x] } }) ∧
          (fenced = false → s.axisHeld a p < 16 →
            (∀ k ∈ s.axes[a].early, k.dstPart ≠ p ∨ ldNat k.payload 0 4 ≠ x.collId.toNat) → exec e.1 s = .next { s1 with
            nextItem := s.nextItem + 1, axes := updAt s.axes a fun y => { y with colls := y.colls ++ [x] } })))) ∧
  (∀ (s : State) (p : PartId), (∀ c ∈ s.parts[p].caps.queue, c.kind ≠ kColl) →
    ∀ i ∈ [Instr.reduceScatter p, .allGather p, .allReduce p, .broadcast p, .allToAll p, .collectiveBarrier p],
      exec i s = .next s) ∧
  (∀ (s : State) (p : PartId) (c : Capsule), NextCapsule p kColl s c → c.field 0 1 = 0 ∨ 7 < c.field 0 1 →
    CapsuleEnds (.reduceScatter p) p c s 0x07 .refusedState 4) ∧
  (∀ (s : State) (p : PartId) (c : Capsule) (a : AxisId), (∀ b : AxisId, s.axes[b].atomics = []) → NextCapsule p kColl s c →
    c.field 0 1 = 7 → s.collEngine c.target = some a →
    let s1 := without p c s
    let x := parseAtomic s.nextItem p c
    c.body.length = 64 → c.noParams = true → collReserved c = true → s.atomicRest a c = true → x.aop ≤ 4 → c.field 2 1 < 8 → x.tc ≠ 2 →
    x.addr.toNat % 8 = 0 → gaOff x.addr + 8 ≤ wellsEnd → s.collCore p x.trigCore x.trigCtr = true →
    s.collCore p x.doneCore x.doneCtr = true → s.parts[p].im.img.axisWeight[a] ≠ 0 → s.addrCheck p x.addr 8 = none →
    s.capState p = .running →
    (∀ (w : WellId) (y : Nat), x.trigCore = 0xFF → s.isLocal x.addr = true →
      s.viewLoc p (gaOff x.addr) = some (.mem (.well w) y) → CleanSector w y s →
      let old := rdL s.wells[w].data (64 * (y / 64)) 64
      let o := gaOff x.addr % 64
      let v := atomicWord x.aop (BitVec.ofNat 64 (ldNat old o 8)) x.operand
      ∃ t, exec (.atomic p) s = .next t ∧
        t.wells[w].data = wrL s.wells[w].data (64 * (y / 64)) (old.take o ++ leBytes v.toNat 8 ++ old.drop (o + 8)) ∧
        (∀ b, b < 64 * (y / 64) ∨ 64 * (y / 64) + 64 ≤ b → rd t.wells[w].data b = rd s.wells[w].data b) ∧
        (∀ u : WellId, u ≠ w → t.wells[u] = s.wells[u]) ∧ t.axes[a].atomics = [] ∧
        EngineRecord a { capsuleRecord s p c 0x07 .done (8 * 2 ^ 32) with done := namedCtr x.doneCore x.doneCtr } c.v0 x.doneCore x.doneCtr s1 t) ∧
    (x.trigCore ≠ 0xFF → s.cores[coreOf x.trigCore].sync[ctrOf x.trigCtr].count.toNat < x.trigVal.toNat →
      exec (.atomic p) s = .next { s1 with
        nextItem := s.nextItem + 1, axes := updAt s.axes a fun y => { y with atomics := [x] } }) ∧
    (x.trigCore = 0xFF → s.isLocal x.addr = false → s.fabric.selfFenced = false → s.isFenced (gaChip x.addr) = false →
      let y := s.srcStream (streamKey (gaChip x.addr) x.tc)
      ∃ t, exec (.atomic p) s = .next t ∧ t.axes = updAt s.axes a (fun e => { e with atomics := [({ x with started := true } : AtomicItem)] }) ∧
        t.host = s.host ∧ t.wells = s.wells ∧ t.cores = s.cores ∧
        (y.queue = [] → (y.next - y.floor).toNat ≤ 127 → Reaches (gaChip x.addr) s →
          Sends { mkPacket (gaChip x.addr) 0x11 x.tc p s.image.fabric.pair[p] (gaOff x.addr)
              (leBytes x.aop 8 ++ leBytes x.operand.toNat 8) with
            src := s.chip, ord := x.ord, psn := y.next, floor := y.floor } t)))

/-- JOINs are heard, passed on and complete the join; data is applied where it belongs; ABANDON and the limit end a
collective (13 R318, R319, R320, R325, R326, R327, R328). -/
def Obligations.JoinRoundsDataAndAbandon : Prop :=
  (∀ (s : State) (a : AxisId) (p : PartId) (id : W32) (c : Coll), s.axes[a].colls = [c] → c.part = p →
    (c.phase ≠ .trigger ∨ c.collId ≠ id ∨ s.trigDue c.trigCore c.trigCtr c.trigVal = false → exec (.joinStart a p id) s = .next s) ∧
    (c.phase = .trigger → c.collId = id → s.trigDue c.trigCore c.trigCtr c.trigVal = true →
      c.joinsP.length + 1 ≠ s.collG a c → ∃ t, exec (.joinStart a p id) s = .next t ∧
        t.axes[a].colls = [{ c with phase := .joining, unsettled := c.unsettled + if s.collG a c = 2 then 1 else 2 }] ∧ t.host = s.host ∧
        t.wells = s.wells ∧ t.cores = s.cores ∧
        (let to_ := s.collChip a c ((s.myPos a c + 1) % s.collG a c)
          let y := s.srcStream (streamKey to_ 1)
          y.queue = [] → (y.next - y.floor).toNat ≤ 127 → s.fabric.selfFenced = false → Reaches to_ s →
            Sends { mkPacket to_ 0x10 1 p s.image.fabric.pair[p] 0
                (collPayload c 1 (s.myPos a c) c.digest (min 255 (s.linkWidth a c true)) (min 255 (s.linkWidth a c false)) []) with
              src := s.chip, psn := y.next, floor := y.floor, ieee := s.ieee p } t))) ∧
  (∀ (s : State) (a : AxisId) (p : PartId) (id : W32), (∀ c ∈ s.axes[a].colls, c.part ≠ p) → exec (.joinStart a p id) s = .next s) ∧
  (∀ (s : State) (n : PortId) (k : Packet) (tr : W64),
    ∀ e ∈ [(Instr.join n k tr, (0x10 : Byte), 1), (.collectiveData n k tr, 0x10, 2), (.collectiveAbandon n k tr, 0x10, 3),
        (.atomicPacket n k tr, 0x11, ldNat k.payload 4 1)],
      s.mine n k = false ∨ k.kind ≠ e.2.1 ∨ ldNat k.payload 4 1 ≠ e.2.2 → exec e.1 s = .next s) ∧
  (∀ (s : State) (n : PortId) (k : Packet), s.mine n k = true → k.kind = 0x10 → NextOfStream k s →
    let a := s.axisOfSrc k
    ldNat k.payload 4 1 = 1 → s.destRefusal k none = none →
    ((∀ c ∈ s.axes[a].colls, c.part ≠ k.dstPart ∨ c.collId ≠ BitVec.ofNat 32 (ldNat k.payload 0 4)) →
      ∃ t, exec (.join n k (pktTrailer k)) s = .next t ∧ Delivers k t ∧
        t.axes = updAt s.axes a (fun x => { x with early := x.early ++ [k] }) ∧ t.host = s.host ∧ t.cores = s.cores) ∧
    (∀ c : Coll, s.axes[a].colls = [c] → c.part = k.dstPart → c.collId = BitVec.ofNat 32 (ldNat k.payload 0 4) →
      let o := ldNat k.payload 5 1
      let dg : W32 := BitVec.ofNat 32 (ldNat k.payload 8 4)
      let up := s.joinPlus a c k
      let g := s.collG a c
      let away := if up then (s.myPos a c + g - o % g) % g else (o % g + g - s.myPos a c) % g
      (c.joinsP ++ c.joinsM).all (fun e => e.1 != o) = true →
      (c.phase = .trigger → ∃ t, exec (.join n k (pktTrailer k)) s = .next t ∧ Delivers k t ∧
        t.axes[a].colls = [{ c with
          joinsP := if up then c.joinsP ++ [(o, dg)] else c.joinsP, joinsM := if up then c.joinsM else c.joinsM ++ [(o, dg)]
          widthP := min c.widthP (ldNat k.payload 0x0C 1), widthM := min c.widthM (ldNat k.payload 0x0D 1)
          unsettled := if away < g - 1 then c.unsettled + 1 else c.unsettled }] ∧ t.host = s.host ∧ t.cores = s.cores) ∧
      (c.phase = .joining → (if up then c.joinsP else c.joinsM).length + 2 = g →
        g = 2 ∨ (if up then c.joinsM else c.joinsP).length + 1 = g → c.waitApply = [] → s.axes[a].waiting = [] → c.poisoned = false →
        c.received = 0 →
        ((∀ e ∈ c.joinsP ++ c.joinsM, e.2 = c.digest) → dg = c.digest → c.op = 6 →
          ∃ t, exec (.join n k (pktTrailer k)) s = .next t ∧ Delivers k t ∧ t.axes[a].colls = [] ∧
            EngineRecord a (collRec a c .done c.collId.toNat) c.raiseV0 c.doneCore c.doneCtr s t) ∧
        (dg ≠ c.digest → ∃ t, exec (.join n k (pktTrailer k)) s = .next t ∧ Delivers k t ∧ t.axes[a].colls = [] ∧
          EngineRecord a (collRec a c .refusedState (0xFFFFFFFF * 2 ^ 32 + c.collId.toNat)) c.raiseV0 c.doneCore c.doneCtr s t)))) ∧
  (∀ (s : State) (a : AxisId) (p : PartId) (id : W32) (at_ : Nat), let s1 := s.advanceTo at_
    ((∀ c ∈ s.axes[a].colls ++ s.axes[a].waiting, c.part ≠ p ∨ c.collId ≠ id) → exec (.joinTimeout a p id at_) s = .next s1) ∧
    (∀ c : Coll, s.axes[a].colls = [c] → s.axes[a].waiting = [] → c.part = p → c.collId = id →
      (c.phase = .data ∨ s1.timeNs < c.limitAt → exec (.joinTimeout a p id at_) s = .next s1) ∧
      (c.phase ≠ .data → c.limitAt ≤ s1.timeNs → c.waitApply = [] → c.poisoned = false → c.received = 0 →
        ∃ t, exec (.joinTimeout a p id at_) s = .next t ∧ t.axes[a].colls = [] ∧ t.wells = s.wells ∧
          EngineRecord a (collRec a c .failedTimeout c.collId.toNat) c.raiseV0 c.doneCore c.doneCtr s1 t))) ∧
  (∀ (s : State) (n : PortId) (k : Packet), s.mine n k = true → k.kind = 0x10 → NextOfStream k s →
    let a := s.axisOfSrc k
    let id : W32 := BitVec.ofNat 32 (ldNat k.payload 0 4)
    let d := k.payload.drop 16
    ldNat k.payload 4 1 = 2 → k.payload.length = 80 → k.ord = false → s.writeRefusal k 64 = none →
    ((∀ c ∈ s.axes[a].colls, c.part ≠ k.dstPart ∨ c.collId ≠ id) →
      ∃ t, exec (.collectiveData n k (pktTrailer k)) s = .next t ∧ Delivers k t ∧ t.axes = s.axes ∧ t.wells = s.wells ∧
        t.host = s.host ∧ t.cores = s.cores) ∧
    (∀ c : Coll, s.axes[a].colls = [c] → c.part = k.dstPart → c.collId = id → c.phase ≠ .data → c.waitApply = [] →
      ∃ t, exec (.collectiveData n k (pktTrailer k)) s = .next t ∧ t.wells = s.wells ∧ t.host = s.host ∧ t.cores = s.cores ∧
        t.axes[a].colls = [{ c with waitApply := [(n, k)] }] ∧ (t.dstStream (pktStream k)).cum = k.psn) ∧
    (∀ (c : Coll) (w : WellId) (y : Nat), s.axes[a].colls = [c] → c.part = k.dstPart → c.collId = id → c.phase = .data →
      c.waitApply = [] → s.axes[a].waiting = [] → s.regionBusy a c.id k.addr.toNat 64 = false →
      let step := ldNat k.payload 5 1
      let ends := c.received + 64 = c.expect ∧ c.unsettled = 0
      (if c.op = 3 then (if s.direct a c then step ≠ 1 else 2 * (s.collG a c - 1) ≤ step)
        else s.direct a c = true ∨ s.collG a c - 1 ≤ step) →
      s.viewLoc c.part k.addr.toNat = some (.mem (.well w) y) → CleanSector w y s → k.poison = false → c.poisoned = false →
      ∃ t, exec (.collectiveData n k (pktTrailer k)) s = .next t ∧ Delivers k t ∧
        (¬ends ∨ c.op ≠ 1 →
          (s.reducing a c step = false → t.wells[w].data = wrL s.wells[w].data (64 * (y / 64)) d) ∧
          (s.reducing a c step = true → c.red = 0 →
            t.wells[w].data = (s.addSector w y k.op.toNat d false k.ieee).2.wells[w].data) ∧
          (s.reducing a c step = true → c.red ≠ 0 →
            t.wells[w].data = (s.redBlock (.mem (.well w) y) c.red (redFmt c.fmt) (!k.ieee) d false).2.wells[w].data) ∧
          (∀ b, b < 64 * (y / 64) ∨ 64 * (y / 64) + 64 ≤ b → rd t.wells[w].data b = rd s.wells[w].data b) ∧
          (∀ u : WellId, u ≠ w → t.wells[u].data = s.wells[u].data)) ∧
        (¬ends → t.axes[a].colls = [{ c with
            received := c.received + 64, reduced := if step = 1 then c.reduced + 64 else c.reduced }] ∧
          t.host = s.host ∧ t.cores = s.cores) ∧
        (ends → t.axes[a].colls = [] ∧
          EngineRecord a (collRec a c .done ((c.received + 64) % 2 ^ 32 * 2 ^ 32 + c.collId.toNat)) c.raiseV0 c.doneCore
            c.doneCtr s t))) ∧
  (∀ (s : State) (n : PortId) (k : Packet), s.mine n k = true → k.kind = 0x10 → NextOfStream k s →
    let a := s.axisOfSrc k
    let id : W32 := BitVec.ofNat 32 (ldNat k.payload 0 4)
    ldNat k.payload 4 1 = 3 → s.destRefusal k none = none →
    ((∀ c ∈ s.axes[a].colls ++ s.axes[a].waiting, c.part ≠ k.dstPart ∨ c.collId ≠ id) → s.axes[a].early = [] →
      ∃ t, exec (.collectiveAbandon n k (pktTrailer k)) s = .next t ∧ Delivers k t ∧ t.axes = s.axes ∧ t.host = s.host ∧
        t.cores = s.cores) ∧
    (∀ (c : Coll) (o : OutcomeCode), s.axes[a].colls = [c] → s.axes[a].waiting = [] → c.part = k.dstPart → c.collId = id →
      OutcomeCode.ofCode (ldNat k.payload 5 1) = o → c.waitApply = [] → c.poisoned = false →
      ∃ t, exec (.collectiveAbandon n k (pktTrailer k)) s = .next t ∧ Delivers k t ∧ t.axes[a].colls = [] ∧
        EngineRecord a (collRec a c o (c.received % 2 ^ 32 * 2 ^ 32 + c.collId.toNat)) c.raiseV0 c.doneCore c.doneCtr s t ∧
        (let g := s.collG a c
          let i := s.myPos a c
          let from_ := s.collPos a c k.src
          let m := if from_ = (i + 1) % g then (i + g - 1) % g else (i + 1) % g
          let to_ := s.collChip a c m
          let y := s.srcStream (streamKey to_ 1)
          m ≠ from_ → o ≠ .abortedReset → y.queue = [] → (y.next - y.floor).toNat ≤ 127 → Reaches to_ s →
            Sends { mkPacket to_ 0x10 1 c.part s.image.fabric.pair[c.part] 0 (collPayload c 3 o.code 0 0 0 []) with
              src := s.chip, psn := y.next, floor := y.floor, ieee := s.ieee c.part } t))) ∧
  (∀ (s : State) (n : PortId) (k : Packet) (w : WellId) (y : Nat), s.mine n k = true → k.kind = 0x11 → NextOfStream k s →
    s.atomicRefusal k = none → s.viewLoc k.dstPart k.addr.toNat = some (.mem (.well w) y) → CleanSector w y s →
    let old := rdL s.wells[w].data (64 * (y / 64)) 64
    let o := k.addr.toNat % 64
    let v := atomicWord (ldNat k.payload 0 1) (BitVec.ofNat 64 (ldNat old o 8)) (BitVec.ofNat 64 (ldNat k.payload 8 8))
    ∃ t, exec (.atomicPacket n k (pktTrailer k)) s = .next t ∧ Delivers k t ∧
      t.wells[w].data = wrL s.wells[w].data (64 * (y / 64)) (old.take o ++ leBytes v.toNat 8 ++ old.drop (o + 8)) ∧
      (∀ b, b < 64 * (y / 64) ∨ 64 * (y / 64) + 64 ≤ b → rd t.wells[w].data b = rd s.wells[w].data b) ∧
      (∀ u : WellId, u ≠ w → t.wells[u].data = s.wells[u].data) ∧ t.host = s.host ∧ t.cores = s.cores)

/-- PLACE stores a checked table, LAYER opens a checked layer; triggers form and return routes, the limit fails the
layer (14 R334, R335, R336, R338, R345, R349; 04 R87). -/
def Obligations.SluiceCapsulesAndTriggers : Prop :=
  (∀ (s : State) (p : PartId), (∀ c ∈ s.parts[p].caps.queue, c.kind ≠ kSluice) →
    exec (.place p) s = .next s ∧ exec (.layer p) s = .next s) ∧
  (∀ (s : State) (p : PartId) (c : Capsule), NextCapsule p kSluice s c → c.field 0 1 = 1 →
    let s1 := without p c s
    let count := c.field 2 2
    let off := c.field 8 8
    let formed := c.body.length = 128 ∧ c.noParams = true ∧ c.field 1 1 = 0 ∧ zeroBytes c.body 4 4 = true ∧
      zeroBytes c.body 16 112 = true ∧ c.target < 4 ∧ count ≤ 4096
    let got := s1.slcRead p off (4 * count)
    let ws := tableWords got.1.1 count
    let n := sluiceOf c.target
    (¬formed → CapsuleEnds (.place p) p c s 0x06 .refusedState 4) ∧
    (∀ o : OutcomeCode, formed → s.sluiceTarget p c.target = some o → CapsuleEnds (.place p) p c s 0x06 o 0) ∧
    (formed → s.sluiceTarget p c.target = none →
      ((s.viewCheck p off (4 * count)).isSome = true → CapsuleEnds (.place p) p c s 0x06 .refusedOwner 0) ∧
      ((s.viewCheck p off (4 * count)).isSome = false →
        (∀ (o : OutcomeCode) (k : Nat), s.tableCheck p ws = some (o, k) → ∃ t, exec (.place p) s = .next t ∧
          Recorded p (capsuleRecord s p c 0x06 o k) c.v0 got.2 t) ∧
        (s.tableCheck p ws = none → s.capState p ≠ .running ∨ s.sluices[n].layers ≠ [] → ∃ t, exec (.place p) s = .next t ∧
          Recorded p (capsuleRecord s p c 0x06 .refusedState 0) c.v0 got.2 t) ∧
        (s.tableCheck p ws = none → s.capState p = .running → s.sluices[n].layers = [] →
          let s2 := got.2.updSluice n fun x => { x with
            placed := true, tableCount := count, table := ws.filter fun e => e.2 != 0 }
          ∃ t, exec (.place p) s = .next t ∧ Recorded p (capsuleRecord s p c 0x06 .done 0) c.v0 s2 t)))) ∧
  (∀ (s : State) (p : PartId) (c : Capsule), NextCapsule p kSluice s c → c.field 0 1 = 2 →
    let s1 := { without p c s with nextItem := s.nextItem + 1 }
    let l := parseLayer s.nextItem p c
    let ends (o : OutcomeCode) (d : Nat) := CapsuleEndsBy (.layer p) p c s 0x06 o d l.doneCore l.doneCtr
    let n := sluiceOf c.target
    let codes := s.layerCodes p c l
    let dup := (s.sluices[n].layers ++ s.sluices[n].waiting).any (fun d => d.part == p && d.layerId == l.layerId) ||
      !s.sluices[n].placed
    let out := l.ranges.any fun r => (s.viewCheck p r.1 r.2.1).isSome
    let got := s1.descriptors p l
    (codes = false → CapsuleEnds (.layer p) p c s 0x06 .refusedState 4) ∧
    (∀ o : OutcomeCode, codes = true → s.sluiceTarget p c.target = some o → ends o 0) ∧
    (codes = true → s.sluiceTarget p c.target = none → dup = true → CapsuleEnds (.layer p) p c s 0x06 .refusedState 4) ∧
    (codes = true → s.sluiceTarget p c.target = none → dup = false → out = true → ends .refusedOwner 0) ∧
    (codes = true → s.sluiceTarget p c.target = none → dup = false → out = false → got.1 = none →
      ∃ t, exec (.layer p) s = .next t ∧ Recorded p (capsuleRecord s p c 0x06 .refusedState 4) c.v0 got.2 t) ∧
    (∀ d : List (Nat × Nat × Nat × Nat), codes = true → s.sluiceTarget p c.target = none → dup = false → out = false → got.1 = some d →
      let l1 := { l with desc := d }
      let fails (o : OutcomeCode) (d : Nat) : Prop := ∃ t, exec (.layer p) s = .next t ∧
        RecordedBy p (recordBy s p c 0x06 o d l.doneCore l.doneCtr) c.v0 l.doneCore l.doneCtr got.2 t
      (s.capState p ≠ .running → fails .refusedState 0) ∧
      (s.capState p = .running → s.layerProtected p l1 = true → fails .refusedState 4) ∧
      (s.capState p = .running → s.layerProtected p l1 = false →
        let fenced := s.fabric.selfFenced || s.layerChips.any s.isFenced
        (fenced = true → fails .failedFenced 0) ∧
        (fenced = false → 2 ≤ s.expertSize → (∀ m : SluiceId, s.sluices[m].waiting = [] ∧ ∀ x ∈ s.sluices[m].layers, Still x s) →
          exec (.layer p) s = .next (got.2.updSluice n fun x =>
            if (s.sluices[n].layers.filter fun y => y.part == p).length +
              (s.parts[p].cq.waiting.filter fun e => e.1.sluice == some n).length < 4 then { x with layers := x.layers ++ [l1] }
            else { x with waiting := [l1] }))))) ∧
  (∀ (s : State) (n : SluiceId) (id : W32), (∀ l ∈ s.sluices[n].layers, l.layerId ≠ id) →
    exec (.sluiceSendTrigger n id) s = .next s ∧ exec (.sluiceReturnTrigger n id) s = .next s) ∧
  (∀ (s : State) (n : SluiceId) (l : Layer), LoneLayer n l s →
    (l.formed = true ∨ s.trigDue l.sendCore l.sendCtr l.sendVal = false → exec (.sluiceSendTrigger n l.layerId) s = .next s) ∧
    (l.arrived = false ∨ l.returned = true ∨ l.destDone = true ∨ s.trigDue l.retCore l.retCtr l.retVal = false →
      exec (.sluiceReturnTrigger n l.layerId) s = .next s) ∧
    (∀ (j x : Nat) (v : W32), Still l s → s.trigDue l.sendCore l.sendCtr l.sendVal = true → l.tokens = 1 → l.endsTo = [] →
      coreBase ≤ l.routeBase.toNat → coreBase ≤ l.inBase.toNat → l.rowBytes ≤ 4032 → 0 < l.rowBytes → l.hist = [] →
      (s.slcRead l.part l.routeBase.toNat 256).1.2 = false →
      slotsOf l.k (s.slcRead l.part l.routeBase.toNat 256).1.1 = [(j, x, v)] →
      let e := s.sluices[n].entry x
      let row := (s.slcRead l.part l.inBase.toNat l.rowBytes).1
      let g := gateOf l.gateMode [v] 0
      peValid e = true → peCoord e ≠ s.expertCoord s.chip → s.sluices[n].named = [(peCoord e, peSluice e)] → row.2 = false →
      l.cause = none →
      ∃ t, exec (.sluiceSendTrigger n l.layerId) s = .next t ∧
        t.sluices[n].layers = [{ l with
          formed := true, hist := Sparse.put [] x 1
          routes := [({ token := 0, slot := j, expert := x, coord := peCoord e, dest := peSluice e, gate := g, unsettled := 1 } :
            Route)] }] ∧
        t.sluices[n].routesOut = s.sluices[n].routesOut + 1 ∧ t.host = s.host ∧ t.cores = s.cores ∧ t.wells = s.wells ∧
        (let to_ := s.expertChip (peCoord e)
          let y := s.srcStream (streamKey to_ 2)
          y.queue = [] → (y.next - y.floor).toNat ≤ 127 → Reaches to_ s →
            Sends { mkPacket to_ 0x12 2 l.part s.image.fabric.pair[l.part] (peSluice e)
                (tokenHead l.layerId 1 0 1 j 0 x n.val 0 g l.step 0 ++ row.1) with
              src := s.chip, psn := y.next, floor := y.floor } t)) ∧
    (∀ (loc : Nat) (d : Nat × Nat × Nat × Nat), l.arrived = true → l.returned = false → l.destDone = false → l.formed = false →
      l.routes = [] → s.trigDue l.retCore l.retCtr l.retVal = true → l.admitted = [(loc, 1)] → l.desc[loc]? = some d →
      coreBase ≤ d.2.1 → coreBase ≤ d.2.2.1 → l.outBytes ≤ 4032 → 0 < l.outBytes →
      let m := (s.slcRead l.part d.2.2.1 16).1
      let row := (s.slcRead l.part d.2.1 l.outBytes).1
      let to_ : BitVec 15 := BitVec.ofNat 15 (ldNat m.1 0 2)
      to_ ≠ s.chip →
      ∃ t, exec (.sluiceReturnTrigger n l.layerId) s = .next t ∧
        t.sluices[n].layers = [{ l with returned := true, returnsLeft := l.returnsLeft + 1 }] ∧ t.host = s.host ∧
        t.cores = s.cores ∧ t.wells = s.wells ∧
        (let y := s.srcStream (streamKey to_ 2); y.queue = [] → (y.next - y.floor).toNat ≤ 127 → Reaches to_ s →
            Sends { mkPacket to_ 0x12 2 l.part s.image.fabric.pair[l.part] (ldNat m.1 2 1)
                (tokenHead l.layerId 2 0 1 (ldNat m.1 3 1) (ldNat m.1 4 4) (s.expertOf n loc) (ldNat m.1 2 1) 0
                  (BitVec.ofNat 32 (ldNat m.1 8 4)) l.step 0 ++ row.1) with
              src := s.chip, psn := y.next, floor := y.floor, poison := row.2 || m.2 } t))) ∧
  (∀ (s : State) (n : SluiceId) (id : W32) (at_ : Nat), let s1 := s.advanceTo at_
    ((∀ l ∈ s.sluices[n].layers ++ s.sluices[n].waiting, l.layerId ≠ id) → exec (.sluiceLimitExpiry n id at_) s = .next s1) ∧
    (∀ l : Layer, LoneLayer n l s → l.layerId = id →
      (s1.timeNs < l.limitAt → exec (.sluiceLimitExpiry n id at_) s = .next s1) ∧
      (l.limitAt ≤ s1.timeNs → l.cause = none → l.routes = [] → l.incident = 0 → ∃ t,
        exec (.sluiceLimitExpiry n id at_) s = .next t ∧ t.sluices[n].layers = [] ∧
        Formed l.part (layerRec n l .failedTimeout 0) l.raiseV0 s1 t)) ∧
    (∀ l : Layer, s.sluices[n].layers = [] → s.sluices[n].waiting = [l] → l.layerId = id → l.limitAt ≤ s1.timeNs →
      ∃ t, exec (.sluiceLimitExpiry n id at_) s = .next t ∧ t.sluices[n].waiting = [] ∧
        RecordedBy l.part { layerRec n l .failedTimeout 0 with sluice := none } l.raiseV0 l.doneCore l.doneCtr
          { s1 with sluices := t.sluices } t))

/-- DISPATCH is admitted at its position or refused, RETURN staged, REFUSE and END noted, ABANDON closes the layer
(14 R340, R341, R343, R344, R345, R346, R347, R348, R349). -/
def Obligations.TokenPacketsReachTheirLayer : Prop :=
  (∀ (s : State) (n : PortId) (k : Packet) (tr : W64),
    ∀ e ∈ [(Instr.dispatch n k tr, 1), (.tokenReturn n k tr, 2), (.refuse n k tr, 3), (.tokenEnd n k tr, 4),
        (.tokenAbandon n k tr, 5)],
      (s.mine n k = false ∨ k.kind ≠ 0x12 ∨ tkSub k ≠ e.2 → exec e.1 s = .next s) ∧
      (s.mine n k = true → k.kind = 0x12 → tkSub k = e.2 → NextOfStream k s → k.ord = false → tr = pktTrailer k →
        s.tokenRefusal k = none →
        (∀ l ∈ s.sluices[tkSluice k].layers, l.part ≠ k.dstPart ∨ l.layerId ≠ tkLayer k) → ∃ t, exec e.1 s = .next t ∧
          NotApplied s t ∧ (t.dstStream (pktStream k)).cum = k.psn ∧
          t.sluices = updAt s.sluices (tkSluice k) fun x => { x with earlyDrops := min (2 ^ 32 - 1) (x.earlyDrops + 1) })) ∧
  (∀ (s : State) (n : PortId) (k : Packet) (l : Layer), s.mine n k = true → k.kind = 0x12 → NextOfStream k s → k.ord = false →
    s.tokenRefusal k = none → LoneLayer (tkSluice k) l s → l.part = k.dstPart → l.layerId = tkLayer k →
    let m := tkSluice k
    let tr := pktTrailer k
    let d := k.payload.drop 32
    (∀ loc : Nat, tkSub k = 1 → Still l s → s.sluices[m].progress = [] → l.matches? k = true → tkNseg k = 1 →
      s.localExpert m (tkExpert k) = some loc →
      let pos := Sparse.getD l.admitted loc 0
      let dsc := l.desc.getD loc (0, 0, 0, 0)
      (pos < dsc.2.2.2 → ∃ t, exec (.dispatch n k tr) s = .next t ∧ Delivers k t ∧
        t.sluices[m].layers = [{ l with arrivals := l.arrivals + 1, admitted := Sparse.put l.admitted loc (pos + 1) }] ∧
        t.sluices[m].progress = [] ∧ t.sluices[m].admitted = s.sluices[m].admitted + 1 ∧ t.host = s.host ∧
        SameBytes t ((s.slcWrite l.part (dsc.2.2.1 + 16 * pos)
          (leBytes k.src.toNat 2 ++ leBytes (tkSrc k) 1 ++ leBytes (tkSlot k) 1 ++ leBytes (tkToken k) 4 ++
            leBytes (tkGate k).toNat 4 ++ leBytes 0 4) false).slcWrite l.part (dsc.1 + pos * l.rowBytes + 4032 * tkSeg k)
          d k.poison)) ∧
      (dsc.2.2.2 ≤ pos → ∃ t, exec (.dispatch n k tr) s = .next t ∧ Delivers k t ∧
        t.sluices[m].layers = [{ l with
          arrivals := l.arrivals + 1, refused := Sparse.put l.refused loc (Sparse.getD l.refused loc 0 + 1) }] ∧
        t.sluices[m].progress = [] ∧ t.sluices[m].refused = s.sluices[m].refused + 1 ∧ t.host = s.host ∧ SameBytes t s ∧
        (let y := s.srcStream (streamKey k.src 2); y.queue = [] → (y.next - y.floor).toNat ≤ 127 → Reaches k.src s →
            Sends { mkPacket k.src 0x12 2 l.part s.image.fabric.pair[l.part] (tkSrc k)
                (tokenHead l.layerId 3 0 0 (tkSlot k) (tkToken k) (tkExpert k) (tkSrc k) 0x14 (tkGate k) l.step 0) with
              src := s.chip, psn := y.next, floor := y.floor } t))) ∧
    (∀ r q : Route, Sent m l s → l.destDone = false → l.routes = [r, q] → r.outcome = none → q.outcome = none →
      r.waits = false → q.waits = false → r.token = 0 → q.token = 0 → l.index r ≠ l.index q →
      tkToken k * l.k + tkSlot k = l.index r → r.staged = [] →
      (tkSub k = 3 → ∃ t, exec (.refuse n k tr) s = .next t ∧ Delivers k t ∧ t.host = s.host ∧ SameBytes t s ∧
        t.sluices[m].layers = [{ l with
          routes := [{ r with outcome := some (OutcomeCode.ofCode (tkArg k)) }, q] }]) ∧
      (tkSub k = 2 → (segCuts l.outBytes).length = 1 → tkSeg k = 0 → ∃ t, exec (.tokenReturn n k tr) s = .next t ∧
        Delivers k t ∧ t.host = s.host ∧
        SameBytes t (s.slcWrite l.part (l.stageBase.toNat + l.index r * l.outBytes) d k.poison) ∧
        t.sluices[m].layers = [{ l with
          routes := [{ r with
            staged := [0], poison := r.poison || k.poison
            outcome := some (if r.poison || k.poison then .failedPoison else .done) }, q] }])) ∧
    (∀ r : Route, tkSub k = 3 → Sent m l s → l.destDone = true → l.routes = [r] → r.outcome = none → r.waits = false →
      r.token = 0 → tkToken k * l.k + tkSlot k = l.index r → tkArg k = 0x14 → l.incident = 0 →
      s.viewGone l.part ((l.recBase.toNat + 32 * l.index r) / 64 * 64) 1 = false →
      ∃ t, exec (.refuse n k tr) s = .next t ∧ Delivers k t ∧ t.sluices[m].layers = [] ∧
        Formed l.part (layerRec m l .done (2 ^ 16)) l.raiseV0 s t) ∧
    (tkSub k = 4 → Still l s → ∃ t, exec (.tokenEnd n k tr) s = .next t ∧ Delivers k t ∧ t.host = s.host ∧ SameBytes t s ∧
      t.sluices[m].layers = [{ l with ends := [(s.expertCoord k.src, tkSrc k, tkCount k, tkArg k)] }]) ∧
    (∀ e : Nat × Nat × Nat × Nat, tkSub k = 4 → l.formed = false → l.routes = [] → l.arrived = false → l.cause = none →
      l.returned = false → l.destDone = false → s.expertSize = 2 → l.ends = [e] → e.2.2.2 = 1 → tkArg k = 1 →
      (e.1, s.expertCoord k.src) ∈ [(0, 1), (1, 0)] → e.2.2.1 + tkCount k ≤ l.arrivals → ∃ t,
        exec (.tokenEnd n k tr) s = .next t ∧ Delivers k t ∧ t.host = s.host ∧
        t.sluices[m].layers = [{ l with
          ends := [e, (s.expertCoord k.src, tkSrc k, tkCount k, 1)], arrived := true }] ∧
        SameBytes t (s.writeCounts l) ∧
        t.cores = ((s.writeCounts l).raiseNamed l.arriveCore l.arriveCtr true).cores) ∧
    (∀ o : OutcomeCode, tkSub k = 5 → l.cause = none → l.routes = [] → l.incident = 0 → OutcomeCode.ofCode (tkArg k) = o →
      o ≠ .done → ∃ t, exec (.tokenAbandon n k tr) s = .next t ∧ Delivers k t ∧ t.sluices[m].layers = [] ∧
        Formed l.part (layerRec m l o 0) l.raiseV0 s t))

/-- A GROUP_TABLE op checks every group before it changes any, names the first that fails, and changes them all
otherwise (15 R352, R353, R357, R358; 04 R87). -/
def Obligations.GroupTableOpsAreAllOrNothing : Prop :=
  (∀ (s : State) (p : PartId), (∀ c ∈ s.parts[p].caps.queue, c.kind ≠ kGroup) →
    ∀ i ∈ [Instr.groupTableWrite p, .groupTableRead p, .freeze p, .thaw p, .clearTorn p], exec i s = .next s) ∧
  (∀ (s : State) (p : PartId) (c : Capsule), NextCapsule p kGroup s c →
    let runs := s.capState p ≠ .stopped
    ∀ e ∈ [(Instr.groupTableWrite p, 1), (.groupTableRead p, 2), (.freeze p, 3), (.thaw p, 4), (.clearTorn p, 5)],
      c.field 0 1 = e.2 →
      (groupBodyOk c = false → CapsuleEnds e.1 p c s 0x08 .refusedState 4) ∧
      (∀ o : OutcomeCode, groupBodyOk c = true → e.2 ≤ 2 → s.viewCheck p (c.field 8 8) (128 * c.field 4 2) = some o →
        CapsuleEnds e.1 p c s 0x08 o 0) ∧
      (groupBodyOk c = true → (e.2 ≤ 2 → s.viewCheck p (c.field 8 8) (128 * c.field 4 2) = none) → e.2 ≠ 2 → ¬runs →
        CapsuleEnds e.1 p c s 0x08 .refusedState 0)) ∧
  (∀ (s : State) (p : PartId) (c : Capsule), NextCapsule p kGroup s c → groupBodyOk c = true → s.capState p ≠ .stopped →
    let first := c.field 2 2
    let n := c.field 4 2
    let step : W32 := BitVec.ofNat 32 (c.field 0x10 4)
    ∀ e ∈ [(Instr.freeze p, 3), (.thaw p, 4), (.clearTorn p, 5)],
      c.field 0 1 = e.2 →
      let code (i : Nat) : Nat := let g := s.group p (first + i)
        if e.2 = 5 then (if g.torn = false then 3 else if g.busy then 1 else 0) else if g.busy then 1 else if g.torn then 2 else 0
      let new (g : Group) : Group :=
        if e.2 = 5 then { g with step := step, torn := false, mixed := false, sweepMark := 0, tornStep := 0 }
        else { g with frozen := e.2 == 3 }
      (∀ i : Nat, (List.range n).find? (fun i => code i != 0) = some i →
        CapsuleEnds e.1 p c s 0x08 .refusedState (code i * 2 ^ 16 + (first + i))) ∧
      ((List.range n).find? (fun i => code i != 0) = none →
        let s1 := (without p c s).over (List.range n) fun s i => s.updGroup p (first + i) new
        ∃ t, exec e.1 s = .next t ∧ Recorded p (capsuleRecord s p c 0x08 .done (n * 2 ^ 32)) c.v0 s1 t)) ∧
  (∀ (s : State) (p : PartId) (c : Capsule), NextCapsule p kGroup s c → groupBodyOk c = true → c.field 0 1 = 2 →
    s.viewCheck p (c.field 8 8) (128 * c.field 4 2) = none →
    let n := c.field 4 2
    let s1 := ((without p c s).writeView p (c.field 8 8) ((List.range n).flatMap fun i => (s.group p (c.field 2 2 + i)).bytes) false
      (2 * n)).meterMove p (c.field 8 8) (128 * n) true
    ∃ t, exec (.groupTableRead p) s = .next t ∧ Recorded p (capsuleRecord s p c 0x08 .done (n * 2 ^ 32)) c.v0 s1 t) ∧
  (∀ (s : State) (p : PartId) (c : Capsule), NextCapsule p kGroup s c → groupBodyOk c = true → c.field 0 1 = 1 →
    s.viewCheck p (c.field 8 8) (128 * c.field 4 2) = none → s.capState p ≠ .stopped →
    let first := c.field 2 2
    let n := c.field 4 2
    let got := (without p c s).groupSource p (c.field 8 8) n
    let s1 := got.2.meterMove p (c.field 8 8) (128 * n) false
    let src (i : Nat) : List Byte × Bool := got.1.getD i ([], false)
    let new := (List.range n).map fun i => Group.parse (src i).1
    let code (i : Nat) : Nat := let g := s.group p (first + i)
      let x := Group.parse (src i).1
      if g.busy then 1 else if g.torn then 2
      else if deviceZero (src i).1 = false ∨ x.valid = true ∧ s1.groupValid p (src i).1 = false then 4
      else if x.valid = true ∧ s.parts[p].im.img.groupCount[pumpOf x.pump] < s.groupsOn p first new x.pump then 5 else 0
    (∀ i : Nat, (List.range n).find? (fun i => (src i).2) = some i → ∃ t, exec (.groupTableWrite p) s = .next t ∧
      Recorded p (capsuleRecord s p c 0x08 .failedPoison (first + i)) c.v0 s1 t) ∧
    (∀ i : Nat, (List.range n).find? (fun i => (src i).2) = none → (List.range n).find? (fun i => code i != 0) = some i →
      ∃ t, exec (.groupTableWrite p) s = .next t ∧
        Recorded p (capsuleRecord s p c 0x08 .refusedState (code i * 2 ^ 16 + (first + i))) c.v0 s1 t) ∧
    ((List.range n).find? (fun i => (src i).2) = none → (List.range n).find? (fun i => code i != 0) = none →
      let s2 := s1.over (List.range n) fun s i => s.setGroup p (first + i)
        (if (Group.parse (src i).1).valid then Group.parse (src i).1 else {})
      ∃ t, exec (.groupTableWrite p) s = .next t ∧ Recorded p (capsuleRecord s p c 0x08 .done (n * 2 ^ 32)) c.v0 s2 t))

/-- PUMP commands are taken, checked at their trigger, swept block by block, claimed and settled, or ended by limit
or reset (15 R359, R360, R361, R363, R364, R365, R367, R368, R370, R371, R372). -/
def Obligations.PumpCommandsSweepTheirGroups : Prop :=
  (∀ (s : State) (p : PartId), (∀ c ∈ s.parts[p].caps.queue, c.kind ≠ kPump) →
    ∀ i ∈ [Instr.update p, .claim p, .settle p], exec i s = .next s) ∧
  (∀ (s : State) (p : PartId) (c : Capsule), NextCapsule p kPump s c →
    ∀ e ∈ [(Instr.update p, 1, PumpOp.update), (.claim p, 2, .claim), (.settle p, 3, .settle)],
      c.field 0 1 = e.2.1 →
      let owner := s.viewCheck p (c.field 0x10 8) (32 * c.field 4 2)
      let x := pumpCmdOf e.2.2 c s.nextItem
      let ends (o : OutcomeCode) := CapsuleEndsBy e.1 p c s 0x08 o 0 x.doneCore x.doneCtr
      (e.2.1 = 2 → s.pumpBodyOk p c = true → coreBase ≤ c.field 0x18 8 ∧ c.field 0x18 8 < coreEnd ∧
        c.field 0x18 8 % 256 = 0 ∧ s.viewCheck p (c.field 0x18 8) (512 * c.field 4 2) = none) ∧
      (s.pumpBodyOk p c = false → CapsuleEnds e.1 p c s 0x08 .refusedState 4) ∧
      (∀ o : OutcomeCode, s.pumpBodyOk p c = true → owner = some o → ends o) ∧
      (s.pumpBodyOk p c = true → owner = none → s.capState p ≠ .running → ends .refusedState) ∧
      (s.pumpBodyOk p c = true → owner = none → s.capState p = .running →
          s.parts[p].storm.latched = false ∨ e.2.1 = 3 ∨ s.triggered x.trigCore x.trigCtr x.trigVal = true →
        exec e.1 s = .next ({ without p c s with nextItem := s.nextItem + 1 }.updPart p fun y => { y with
          cmds := y.cmds ++ [x] })) ∧
      (s.pumpBodyOk p c = true → owner = none → s.parts[p].storm.latched = true → e.2.1 ≠ 3 →
        s.triggered x.trigCore x.trigCtr x.trigVal = false → s.parts[p].cmds = [] → s.parts[p].state = .running → x.count = 1 →
        (s.viewLoc p x.recOff.toNat).map s.locGone = some false →
        ∃ t, exec e.1 s = .next t ∧ CmdEnds p x .gated (without p c s) t)) ∧
  (∀ (s : State) (p : PartId) (c : PumpCmd), s.parts[p].cmds = [c] →
    (∀ id, id ≠ c.id → exec (.pumpTrigger p id) s = .next s) ∧
    (c.fired = true ∨ s.triggered c.trigCore c.trigCtr c.trigVal = false → exec (.pumpTrigger p c.id) s = .next s)) ∧
  (∀ (s : State) (p : PartId) (c : PumpCmd), LoneCmd p c s → c.fired = false → c.stages = [.untriggered] →
    s.triggered c.trigCore c.trigCtr c.trigVal = true →
    let e := s.group p c.first
    let u := pumpOf e.pump
    let fits := if c.resume then e.tornStep = c.t ∧ e.mixed = false else e.torn = false ∧ e.step = c.t - 1
    let ends (o : OutcomeCode) (code params : Nat) : Prop :=
      ∃ t, exec (.pumpTrigger p c.id) s = .next t ∧ CmdEnds p c o s t ∧ SameBytes t (withGroupRecord p c o code params s) ∧
        t.parts[p].groups = s.parts[p].groups ∧ t.pumps[u].order = s.pumps[u].order
    (c.op ≠ .claim → e.valid = false → ends .refusedState 4 0) ∧
    (c.op ≠ .claim → e.valid = true → s.parts[p].im.img.cisZ[u] = 0 → ends .refusedOwner 0 0) ∧
    (c.op = .update → e.valid = true → s.parts[p].im.img.cisZ[u] ≠ 0 →
      (e.busy = true → ends .refusedState 1 0) ∧
      (e.busy = false → e.privileged = true ∨ c.resume = true ∧ e.torn = false → ends .refusedState 2 0) ∧
      (e.busy = false → e.privileged = false → c.resume = false ∨ e.torn = true →
        (e.frozen = true → ends .skippedFrozen 0 0) ∧
        (e.frozen = false → ¬fits → ends .refusedStep 0 0) ∧
        (e.frozen = false → ¬fits → ∃ t, exec (.pumpTrigger p c.id) s = .next t ∧
          t.parts[p].storm.latched = true ∧ t.pumps[u].logHead = (s.pumps[u].logHead + 1) % 16 ∧
            t.pumps[u].log = s.pumps[u].log.set (s.pumps[u].logHead % 16)
              (some { torn := e.torn, partition := p, group := c.first, carried := c.t, stored := e.step })
              (Nat.mod_lt _ (by decide))) ∧
        (e.frozen = false → fits → s.parts[p].storm.latched = true → ends .gated 0 0) ∧
        (e.frozen = false → fits → s.parts[p].storm.latched = false → s.parts[p].storm.standing c.t ≠ some false →
          ∃ t, exec (.pumpTrigger p c.id) s = .next t ∧
            t.parts[p].cmds = [{ c with fired := true, stages := [.verdict],
                                        bound := (s.parts[p].storm.standing c.t).or c.bound }] ∧
            t.parts[p].groups = Sparse.set {} s.parts[p].groups c.first { e with busy := true } ∧
            t.pumps = updAt s.pumps u (fun x => { x with order := x.order ++ [(p, c.first, c.id)] }) ∧
            { t with parts := s.parts, pumps := s.pumps } = s ∧ OnlyPart p s t))) ∧
    (c.op = .settle → e.valid = true → s.parts[p].im.img.cisZ[u] ≠ 0 → e.privileged = false → ends .refusedState 2 0) ∧
    (c.op = .settle → e.valid = true → s.parts[p].im.img.cisZ[u] ≠ 0 → e.privileged = true →
      s.parts[p].storm.standing c.t = none →
      let note := s.parts[p].claims.find? fun n => n.group == c.first && n.t == c.t
      (note = none → ends .refusedState 2 0) ∧
      (∀ n : ClaimNote, note = some n → n.outcome ≠ .done → ends n.outcome 0 0) ∧
      (∀ n : ClaimNote, note = some n → n.outcome = .done → e.busy = true →
        ∃ t, exec (.pumpTrigger p c.id) s = .next t ∧ CmdEnds p c .done s t ∧
          SameBytes t (withGroupRecord p c .done 0 e.count s) ∧
          t.parts[p].groups = Sparse.set {} s.parts[p].groups c.first { e with step := c.t, busy := false })) ∧
    (c.op = .claim → e.valid = true → s.parts[p].im.img.cisZ[u] ≠ 0 → e.busy = false → e.privileged = true → c.resume = false →
      e.frozen = false → fits → s.parts[p].storm.latched = false → s.parts[p].storm.standing c.t = some true →
      e.curve = false → ∀ row fl, (s.evalRow p c.first c.t c.gScale).1 = .ok (row, fl) → s.parts[p].claims = [] →
      ∃ t, exec (.pumpTrigger p c.id) s = .next t ∧ CmdEnds p c .done s t ∧
        SameBytes t (withGroupRecord p c .done 0 0 (s.writeView p c.clearOff.toNat
          (leBytes c.t.toNat 4 ++ leBytes 0 4 ++ List.replicate 248 0 ++
            ((row.map fun x => leBytes x 4).flatten ++ List.replicate 192 0)) false 8)) ∧
        t.parts[p].claims = [⟨c.first, c.t, .done⟩] ∧
        t.parts[p].groups = Sparse.set {} s.parts[p].groups c.first { e with busy := true })) ∧
  (∀ (s : State) (u : PumpId), let x := s.pumps[u]
    (x.sweep ≠ none ∨ x.resetting = true ∨ x.mem.gone = true ∨ x.order.find? (fun e => s.sweepReady e) = none →
      exec (.sweepStart u) s = .next s) ∧
    (∀ (p : PartId) (g id : Nat) (c : PumpCmd) (row : List Nat) (fl : NFlags), x.sweep = none → x.resetting = false →
      x.mem.gone = false → x.order = [(p, g, id)] → s.sweepReady (p, g, id) = true → s.parts[p].cmds = [c] → c.id = id →
      (s.group p g).curve = false → (s.evalRow p g c.t c.gScale).1 = .ok (row, fl) →
      ∃ t, exec (.sweepStart u) s = .next t ∧
        t.pumps[u] = { x with
          order := []
          sweep := some { part := p, group := g, cmd := id, t := c.t, row := row, flags := fl,
                          block := if c.resume then (s.group p g).sweepMark.toNat else 0 } } ∧
        t.parts[p].cmds = [{ c with stages := c.stages.set (g - c.first) .sweep }] ∧
        t.parts[p].groups = s.parts[p].groups ∧ t.host = s.host ∧ t.cores = s.cores ∧ t.wells = s.wells)) ∧
  (∀ (s : State) (u : PumpId), s.pumps[u].sweep = none → exec (.sweepBlockDone u) s = .next s) ∧
  (∀ (s : State) (u : PumpId) (w : Sweep) (c : PumpCmd), s.pumps[u].sweep = some w → LoneCmd w.part c s → c.id = w.cmd →
    c.first = w.group → c.op = .update →
    let p := w.part
    let e := s.group p w.group
    let lo := w.block * 262144
    let n := min 262144 (e.count - lo)
    let got := s.sweepInputs p e lo n
    let rs := sweepElems (!s.ieee p) s.parts[p].fmt.cvtRound.toNat w.row e.workFmt 0
      (Vector.ofFn fun i => sweepSeed w.t w.group w.block i.val) got.1.1
    let torn : Group := { e with
      torn := true, tornStep := w.t, sweepMark := BitVec.ofNat 32 w.block, busy := false, mixed := e.mixed }
    (got.1.2 = true → ∃ t, exec (.sweepBlockDone u) s = .next t ∧ t.pumps[u].sweep = none ∧ CmdEnds p c .failedPoison s t ∧
      SameBytes t (withGroupRecord p c .failedPoison 0 (min lo e.count) got.2) ∧
      t.parts[p].groups = Sparse.set {} s.parts[p].groups w.group torn) ∧
    (got.1.2 = false → lo + 262144 < e.count → ∃ t, exec (.sweepBlockDone u) s = .next t ∧
      t.pumps[u].sweep = some { w with block := w.block + 1, flags := rs.foldl (fun a r => a.or r.2) w.flags } ∧
      t.parts[p].cmds = [c] ∧ t.host = s.host ∧ SameBytes t (blockWritten p e lo n rs got.2) ∧
      t.parts[p].groups = Sparse.set {} s.parts[p].groups w.group { e with sweepMark := BitVec.ofNat 32 (w.block + 1) }) ∧
    (got.1.2 = false → e.count ≤ lo + 262144 → ∃ t, exec (.sweepBlockDone u) s = .next t ∧ t.pumps[u].sweep = none ∧
      CmdEnds p c .done s t ∧ SameBytes t (withGroupRecord p c .done 0 e.count (blockWritten p e lo n rs got.2)) ∧
      t.parts[p].groups = Sparse.set {} s.parts[p].groups w.group
        { e with step := w.t, sweepMark := 0, busy := false, torn := false, tornStep := 0 })) ∧
  (∀ (s : State) (p : PartId) (id at_ : Nat), let s1 := s.advanceTo at_
    ((∀ c ∈ s.parts[p].cmds, c.id ≠ id) → exec (.pumpLimitExpiry p id at_) s = .next s1) ∧
    (∀ c : PumpCmd, LoneCmd p c s → c.id = id → c.op ≠ .claim →
      (s1.timeNs < c.limitAt → exec (.pumpLimitExpiry p id at_) s = .next s1) ∧
      (c.limitAt ≤ s1.timeNs → c.stages = [.untriggered] → ∃ t, exec (.pumpLimitExpiry p id at_) s = .next t ∧
        CmdEnds p c .failedTimeout s1 t ∧ SameBytes t (withGroupRecord p c .failedTimeout 0 0 s1) ∧
        t.parts[p].groups = s.parts[p].groups))) ∧
  (∀ (s : State) (u : PumpId), let rest (x : Pump) : Pump := { x with
      resetting := true, order := []
      mem := { x.mem with state := if x.mem.state = .active then .selfRefresh else x.mem.state } }
    (¬Ready s ∨ s.pumps[u].resetting = true → exec (.pumpReset u) s = .next s) ∧
    (Ready s → s.pumps[u].resetting = false → s.pumps[u].sweep = none → (∀ p : PartId, s.parts[p].cmds = [] ∧ s.parts[p].claims = []) →
      exec (.pumpReset u) s = .next (s.updPump u rest)) ∧
    (∀ (w : Sweep) (c : PumpCmd), Ready s → s.pumps[u].resetting = false → s.pumps[u].sweep = some w → LoneCmd w.part c s →
      c.id = w.cmd → c.first = w.group → c.op = .update →
      (∀ p : PartId, (p ≠ w.part → s.parts[p].cmds = []) ∧ s.parts[p].claims = []) →
      let e := s.group w.part w.group
      ∃ t, exec (.pumpReset u) s = .next t ∧ t.pumps[u].sweep = none ∧ t.pumps[u].resetting = true ∧ t.pumps[u].order = [] ∧
        CmdEnds w.part c .abortedReset s t ∧
        t.parts[w.part].groups = Sparse.set {} s.parts[w.part].groups w.group { e with
          torn := true, tornStep := w.t, sweepMark := BitVec.ofNat 32 w.block, busy := false }) ∧
    (s.pumps[u].resetting = false → exec (.pumpResetComplete u) s = .next s) ∧
    (s.pumps[u].resetting = true → exec (.pumpResetComplete u) s = .next (s.updPump u fun x => { x with
      resetting := false, idle := false
      mem := { x.mem with state := if x.mem.state = .selfRefresh then .active else x.mem.state } })))

/-- An evaluation scores every part over 60 buckets and moves it by at most one transition; thresholds, Almanac and
orphan records (18 R414, R415, R417, R418, R430; 17 R397; 03 R65). -/
def Obligations.BarometerEvaluatesAndRecordsPass : Prop :=
  (∀ (s : State) (at_ : Nat), let s1 := s.advanceTo at_
    let i := Instr.barometerEvaluation at_
    (s1.boot.state ≠ .ready ∨ s1.timeNs < s1.baro.evalAt + 10 ^ 10 → exec i s = .next s1) ∧
    (s1.boot.state = .ready → s1.baro.evalAt + 10 ^ 10 ≤ s1.timeNs → ∃ t, exec i s = .next t ∧
      (∀ k : Fin 26, let b := s1.baro.parts[k]
        let e := t.baro.parts[k]
        e.buckets = (b.cur :: b.buckets).take 60 ∧ e.cur = Vector.replicate 11 0 ∧ e.evals = b.evals + 1 ∧
          e.score = min 65535 ((allFin 11).foldl
            (fun a j => a + [1, 1, 64, 16, 1, 4, 4, 4, 1, 128, 32].getD j.val 0 * (e.buckets.foldl (fun n v => n + v[j]) 0)) 0) ∧
          e.out = b.out ∧ e.carry = b.carry ∧
          (let held := 600 ≤ s1.timeNs / 1000000000 - b.sinceS
            let c := s1.baro
            e.state =
              if b.evals < 60 ∨ b.out = true then b.state
              else if b.state = 0 ∧ c.warnOn.toNat ≤ e.score then 2
              else if b.state = 0 ∧ c.watchOn.toNat ≤ e.score then 1
              else if b.state = 1 ∧ c.warnOn.toNat ≤ e.score then 2
              else if b.state = 1 ∧ e.score < c.watchOff.toNat ∧ held then 0
              else if b.state = 2 ∧ e.score < c.warnOff.toNat ∧ held then 1
              else if b.state = 3 ∧ c.warnOn.toNat ≤ e.score then 2
              else if b.state = 3 ∧ c.watchOn.toNat ≤ e.score then 1
              else if b.state = 3 then 0
              else b.state) ∧
          e.sinceS = (if e.state = b.state then b.sinceS else s1.timeNs / 1000000000)) ∧
      t.baro.evalAt = s1.timeNs ∧
      t.baro.advSeq = s1.baro.advSeq + BitVec.ofNat 32 ((allFin 26).filter fun k =>
        t.baro.parts[k].state != s1.baro.parts[k].state).length ∧
      t.link.msi = s1.link.msi ++
        (if (allFin 26).any fun k => t.baro.parts[k].state != s1.baro.parts[k].state then [(.pf, 3)] else []) ∧
      { t with baro := s1.baro, almanac := s1.almanac, link := { t.link with msi := s1.link.msi } } = s1)) ∧
  (∀ (s : State) (v : W64), let won := v.toNat / 2 ^ 48
    let woff := v.toNat / 2 ^ 32 % 2 ^ 16
    let ton := v.toNat / 2 ^ 16 % 2 ^ 16
    let toff := v.toNat % 2 ^ 16
    (¬Ready s → exec (.brmCfgWrite v) s = .next s) ∧
    (Ready s → toff < ton ∧ woff < won ∧ ton ≤ won → exec (.brmCfgWrite v) s = .next { s with
      baro := { s.baro with
        warnOn := BitVec.ofNat 16 won, warnOff := BitVec.ofNat 16 woff
        watchOn := BitVec.ofNat 16 ton, watchOff := BitVec.ofNat 16 toff } }) ∧
    (Ready s → ¬(toff < ton ∧ woff < won ∧ ton ≤ won) → ∃ t, exec (.brmCfgWrite v) s = .next t ∧
      Refused (s.owner 0x2700000) 0x2700000 .refusedState false s t)) ∧
  (∀ s : State,
    (s.power.alwaysOn = false → exec .almanacWrite s = .next s) ∧
    (s.power.alwaysOn = true → ∃ t, exec .almanacWrite s = .next t ∧ t.almanac.toFlash = [] ∧
      { t with almanac := s.almanac } = s ∧
      { t.almanac with slots := s.almanac.slots, toFlash := s.almanac.toFlash } = s.almanac ∧
      t.almanac.slots = s.almanac.toFlash.foldl (fun m r => m.put (almSlot r.seq.toNat) r) s.almanac.slots)) ∧
  (∀ (s : State) (p : PartId), s.power.alwaysOn = false →
    exec (.nextRecord p) s = .next s ∧ exec (.nextWord p) s = .next s) ∧
  (∀ (s : State) (p : PartId), s.power.alwaysOn = true → ∃ t, exec (.nextRecord p) s = .next t ∧
    t.parts[p].orphan.records = s.parts[p].orphan.records.drop 1 ∧ OnlyPart p s t ∧
    { t.parts[p] with orphan := s.parts[p].orphan } = s.parts[p] ∧ { t with parts := s.parts } = s) ∧
  (∀ (s : State) (p : PartId), s.power.alwaysOn = true → ∃ t, exec (.nextWord p) s = .next t ∧
    (s.parts[p].orphan.records = [] → t.parts[p].orphan.records = []) ∧
    (∀ r w l, s.parts[p].orphan.records = (r, w) :: l → t.parts[p].orphan.records = (r, w.drop 1) :: l) ∧ OnlyPart p s t ∧
    { t.parts[p] with orphan := s.parts[p].orphan } = s.parts[p] ∧ { t with parts := s.parts } = s)

/-- A sounding is refused or begun and ends with its results; a PROBE is echoed, an ECHO times a round trip; low
margins count (18 R421, R422, R423, R425, R426; 12 R290; 03 R65). -/
def Obligations.SoundingsRunAndProbesEcho : Prop :=
  (∀ (s : State) (n : PortId) (f : FieldId) (w : WellId) (u : PumpId) (lane : BitVec 8) (seed : W32),
    let quiet (uses : PartImage → Bool) : Bool :=
      s.committedParts.all fun p => !uses s.parts[p].im.img || s.parts[p].state == .quiesced
    let scan := s.ports[n].state = .admitted ∧ laneCount s.ports[n].laneMask = 16 ∧ s.ports[n].parked = false ∧ lane.toNat < 16
    ∀ e ∈ [(Instr.rxPower n, (1 : Byte), n.val, true), (.canary f, 2, f.val, !s.fields[f].failed),
        (.droop f, 3, f.val, !s.fields[f].failed), (.linkProbe n seed, 4, n.val, true),
        (.eyeScan n lane, 5, n.val, decide scan),
        (.wellMargin w, 6, w.val, s.wells[w].state != .dead && (s.wells[w].state == .out || quiet (·.wellMask.testBit w))),
        (.cisMargin u, 7, u.val, s.pumps[u].mem.state != .dead &&
          (s.pumps[u].mem.state == .out || quiet (fun i => i.cisZ[u] != 0)))],
      (¬Ready s → exec e.1 s = .next s) ∧
      (Ready s → s.snd.running = true ∨ e.2.2.2 = false → exec e.1 s = .next { s with snd := { s.snd with
        outcome := BitVec.ofNat 8 OutcomeCode.refusedState.code, lastKind := e.2.1, lastTarget := BitVec.ofNat 8 e.2.2.1 } }) ∧
      (Ready s → s.snd.running = false → e.2.2.2 = true →
        let x : Soundings := { s.snd with
          running := true, kind := e.2.1, target := BitVec.ofNat 8 e.2.2.1, lane := if e.2.1 = 5 then lane else 0
          runKind := e.2.1, runTarget := BitVec.ofNat 8 e.2.2.1
          probes := if e.2.1 = 4 then 1024 else 0, echoes := 0, least := 0xFFFFFFFF, greatest := 0 }
        (e.2.1 ≠ 4 → e.2.1 ≠ 5 → exec e.1 s = .next { s with snd := x }) ∧
        (e.2.1 = 5 → exec e.1 s = .next { s with
          snd := x
          ports := updAt (s.refill n).ports n fun y => { y with
            scanLane := some (BitVec.ofNat 4 lane.toNat), laneMask := y.laneMask &&& ~~~ (1#16 <<< lane.toNat) } }) ∧
        (e.2.1 = 4 → ∃ t, exec e.1 s = .next t ∧ t.snd = x ∧ (∀ m, m ≠ n → t.ports[m] = s.ports[m]) ∧
          (s.ports[n].state = .down → t.ports = s.ports) ∧
          { t.ports[n] with
            wire := s.ports[n].wire, vcs := s.ports[n].vcs, held := s.ports[n].held, arb := s.ports[n].arb } = s.ports[n] ∧
          { t with ports := s.ports, snd := s.snd, acts := s.acts, tc12At := s.tc12At } = s))) ∧
  (∀ (s : State) (kind target : Byte) (r : Vector W64 4), let i := Instr.soundingComplete kind target r
    let ports := s.ports.map fun x => match x.scanLane with
      | some l => { x with scanLane := none, laneMask := x.laneMask ||| (1#16 <<< l.toNat) }
      | none => x
    let ended (v : Vector W64 4) : Soundings := { s.snd with
      running := false, outcome := 0, lastKind := kind, lastTarget := target, results := v }
    (s.snd.running = false ∨ s.snd.runKind ≠ kind ∨ s.snd.runTarget ≠ target → exec i s = .next s) ∧
    (s.snd.running = true → s.snd.runKind = kind → s.snd.runTarget = target →
      (kind = 1 → exec i s = .next { s with ports := ports, snd := ended r }) ∧
      (kind ≠ 1 → kind ≠ 4 → exec i s = .next { s with ports := ports, snd := ended #v[r[0], r[1] &&& 0xFFFFFFFF, 0, 0] }) ∧
      (kind = 4 → s.snd.echoes ≠ 0 → exec i s = .next { s with
        ports := ports
        snd := ended #v[BitVec.ofNat 64 (s.snd.least.toNat + s.snd.greatest.toNat * 2 ^ 32),
          BitVec.ofNat 64 ((s.snd.probes - s.snd.echoes) % 2 ^ 32), 0, 0] }) ∧
      (kind = 4 → s.snd.echoes = 0 → ∃ t, exec i s = .next t ∧
        t.snd = ended #v[t.snd.results[0], BitVec.ofNat 64 (s.snd.probes % 2 ^ 32), 0, 0] ∧ t.ports = ports ∧
        { t with snd := s.snd, ports := s.ports, freeCount := s.freeCount } = s))) ∧
  (∀ (s : State) (m : MarginReading), let low (b : Bool) (x : BaroPart) : BaroPart :=
      if b = true ∧ x.out = false then { x with cur := updAt x.cur (10 : Fin 11) (· + 1) } else x
    (s.boot.state ≠ .ready ∨ s.timeNs < s.baro.marginAt + 10 ^ 10 → exec (.marginSoundingRun m) s = .next s) ∧
    (s.boot.state = .ready → s.baro.marginAt + 10 ^ 10 ≤ s.timeNs → (∀ k : Fin 26, s.baro.parts[k].carry[(10 : Fin 11)] = 0) → ∃ t,
      exec (.marginSoundingRun m) s = .next t ∧
      (∀ n : PortId, t.baro.parts[20 + n.val]'(by omega) = low (decide (m.rx[n] < -80)) (s.baro.parts[20 + n.val]'(by omega))) ∧
      (∀ f : FieldId, t.baro.parts[f.val]'(by omega) =
        low (decide ((m.slack[f] < 20 ∨ 40 < m.droop[f]) ∧ s.fields[f].failed = false)) (s.baro.parts[f.val]'(by omega))) ∧
      (∀ k : Fin 26, 4 ≤ k.val → k.val < 20 → t.baro.parts[k] = s.baro.parts[k]) ∧
      { t with baro := s.baro } = s ∧ { t.baro with parts := s.baro.parts, marginAt := s.baro.marginAt } = s.baro ∧
      t.baro.marginAt = s.timeNs)) ∧
  (∀ (s : State) (n : PortId) (k : Packet) (tr : W64), ∀ e ∈ [(Instr.probe n k tr, 1), (.echo n k tr, 2)],
    let mine := s.soundingMine n k = true ∧ ldNat k.payload 0 1 = e.2
    (¬mine → exec e.1 s = .next s) ∧
    (mine → tr ≠ pktTrailer k → ∃ t, exec e.1 s = .next t ∧ NotApplied s t ∧ t.snd = s.snd ∧
      t.ports[n].e2e = min 65535 (s.ports[n].e2e + 1) ∧
      (s.ports[n].held = [] → ∀ e ∈ t.ports[n].wire, e ∈ s.ports[n].wire ∨ e.2.kind = 0x06) ∧
      (s.ports[n].state = .probation → t.ports[n].probationAt = s.timeNs ∧ t.ports[n].ready = false))) ∧
  (∀ (s : State) (n : PortId) (k : Packet), s.soundingMine n k = true →
    let good := (k.payload.drop 24 == probePattern (BitVec.ofNat 32 (ldNat k.payload 16 4)) (k.payload.length - 24)) = true
    (ldNat k.payload 0 1 = 1 → ∃ t, exec (.probe n k (pktTrailer k)) s = .next t ∧ NotApplied s t ∧ t.snd = s.snd ∧
      (good → t.ports[n].e2e = s.ports[n].e2e) ∧ (¬good → t.ports[n].e2e = min 65535 (s.ports[n].e2e + 1)) ∧
      (good → s.ports[n].held = [] → s.credit n 9 (pktFlits k) = true → t.ports[n].wire = s.ports[n].wire ++
        [(9, { mkPacket (s.neighbour n) 0x0D 3 0 0 0 (leBytes 2 1 ++ leBytes n.val 1 ++ k.payload.drop 2) with
          src := s.chip, repoch := s.fabric.repoch })])) ∧
    (ldNat k.payload 0 1 = 2 → ∃ t, exec (.echo n k (pktTrailer k)) s = .next t ∧ NotApplied s t ∧
      (¬(s.snd.running = true ∧ s.snd.runKind = 4 ∧ s.snd.runTarget.toNat = n.val) → t.snd = s.snd) ∧
      (s.snd.running = true → s.snd.runKind = 4 → s.snd.runTarget.toNat = n.val →
        let d := s.timeNs - ldNat k.payload 8 8
        t.snd = { s.snd with
          echoes := s.snd.echoes + 1, least := BitVec.ofNat 32 (min s.snd.least.toNat d)
          greatest := BitVec.ofNat 32 (max s.snd.greatest.toNat (min d 0xFFFFFFFF)) })))

end
end

