-- ==== Sys2Proof/Laws/Cells.lean ====
section
/-! SUPPORT. Sparse tables and byte memories: a read after a write, and the canonical form that every write keeps. -/

namespace Sys2Proof.Machine

/-! ### Keys -/

/-- Every key of a table is above `k`. -/
def Sparse.above {α : Type} (k : Nat) (m : Sparse α) : Prop := ∀ e ∈ m, k < e.1

theorem Sparse.rising_cons {α : Type} (a : Nat) (v : α) (r : Sparse α) :
    Sparse.rising ((a, v) :: r) = true ↔ Sparse.above a r ∧ r.rising = true := by
  induction r generalizing a v with
  | nil => simp [Sparse.rising, Sparse.above]
  | cons e r ih =>
    obtain ⟨b, w⟩ := e
    simp only [Sparse.rising, Bool.and_eq_true, decide_eq_true_eq]
    constructor
    · rintro ⟨hab, hr⟩
      refine ⟨fun e he => ?_, hr⟩
      rcases List.mem_cons.mp he with rfl | he
      · exact hab
      · exact lt_trans hab (((ih b w).mp hr).1 e he)
    · rintro ⟨hall, hr⟩
      exact ⟨hall (b, w) (by simp), hr⟩

theorem Sparse.above_put {α : Type} {k j : Nat} {m : Sparse α} {x : α} (h : Sparse.above j m) (hj : j < k) :
    Sparse.above j (m.put k x) := by
  induction m with
  | nil => simpa [Sparse.put, Sparse.above] using hj
  | cons e r ih =>
    obtain ⟨a, v⟩ := e
    have ha : j < a := h (a, v) (by simp)
    have hr : Sparse.above j r := fun e he => h e (by simp [he])
    unfold Sparse.put
    split
    · intro e he
      rcases List.mem_cons.mp he with rfl | he
      · exact hj
      · exact h e he
    · split
      · intro e he
        rcases List.mem_cons.mp he with rfl | he
        · exact hj
        · exact hr e he
      · intro e he
        rcases List.mem_cons.mp he with rfl | he
        · exact ha
        · exact ih hr e he

theorem Sparse.above_del {α : Type} {k j : Nat} {m : Sparse α} (h : Sparse.above j m) : Sparse.above j (m.del k) := by
  induction m with
  | nil => exact h
  | cons e r ih =>
    obtain ⟨a, v⟩ := e
    have hr : Sparse.above j r := fun e he => h e (by simp [he])
    unfold Sparse.del
    split
    · exact h
    · split
      · exact hr
      · intro e he
        rcases List.mem_cons.mp he with rfl | he
        · exact h _ (by simp)
        · exact ih hr e he

theorem Sparse.rising_put {α : Type} (k : Nat) (x : α) (m : Sparse α) (h : m.rising = true) : (m.put k x).rising = true := by
  induction m with
  | nil => rfl
  | cons e r ih =>
    obtain ⟨a, v⟩ := e
    have hc := (Sparse.rising_cons a v r).mp h
    unfold Sparse.put
    split
    next hk =>
      refine (Sparse.rising_cons _ _ _).mpr ⟨fun e he => ?_, h⟩
      rcases List.mem_cons.mp he with rfl | he
      · exact hk
      · exact lt_trans hk (hc.1 e he)
    next hk =>
      split
      next he => subst he; exact (Sparse.rising_cons _ _ _).mpr hc
      next he =>
        exact (Sparse.rising_cons _ _ _).mpr ⟨Sparse.above_put hc.1 (by omega), ih hc.2⟩

theorem Sparse.rising_del {α : Type} (k : Nat) (m : Sparse α) (h : m.rising = true) : (m.del k).rising = true := by
  induction m with
  | nil => rfl
  | cons e r ih =>
    obtain ⟨a, v⟩ := e
    have hc := (Sparse.rising_cons a v r).mp h
    unfold Sparse.del
    split
    · exact h
    · split
      · exact hc.2
      · exact (Sparse.rising_cons _ _ _).mpr ⟨Sparse.above_del hc.1, ih hc.2⟩

/-! ### Reads after writes -/

theorem Sparse.getD_above {α : Type} {k : Nat} {m : Sparse α} (d : α) (h : Sparse.above k m) : m.getD k d = d := by
  induction m with
  | nil => rfl
  | cons e r ih =>
    obtain ⟨a, v⟩ := e
    have ha : k < a := h (a, v) (by simp)
    unfold Sparse.getD
    rw [if_neg (by omega)]
    exact ih fun e he => h e (by simp [he])

theorem Sparse.getD_put_self {α : Type} (m : Sparse α) (k : Nat) (x d : α) : (m.put k x).getD k d = x := by
  induction m with
  | nil => simp [Sparse.put, Sparse.getD]
  | cons e r ih =>
    obtain ⟨a, v⟩ := e
    unfold Sparse.put
    split
    · simp [Sparse.getD]
    · split
      · simp [Sparse.getD]
      · next hk he => simp [Sparse.getD, he, ih]

theorem Sparse.getD_put_other {α : Type} (m : Sparse α) {k j : Nat} (x d : α) (h : k ≠ j) :
    (m.put k x).getD j d = m.getD j d := by
  induction m with
  | nil => simp [Sparse.put, Sparse.getD, h]
  | cons e r ih =>
    obtain ⟨a, v⟩ := e
    unfold Sparse.put
    split
    · simp [Sparse.getD, h]
    · split
      · next hk he => subst he; simp [Sparse.getD, h]
      · simp [Sparse.getD, ih]

theorem Sparse.getD_del_self {α : Type} (m : Sparse α) (k : Nat) (d : α) (h : m.rising = true) :
    (m.del k).getD k d = d := by
  induction m with
  | nil => rfl
  | cons e r ih =>
    obtain ⟨a, v⟩ := e
    have hc := (Sparse.rising_cons a v r).mp h
    unfold Sparse.del
    split
    next hk =>
      apply Sparse.getD_above
      intro e he
      rcases List.mem_cons.mp he with rfl | he
      · exact hk
      · exact lt_trans hk (hc.1 e he)
    next hk =>
      split
      next he => subst he; exact Sparse.getD_above d hc.1
      next he => simp [Sparse.getD, he, ih hc.2]

theorem Sparse.getD_del_other {α : Type} (m : Sparse α) {k j : Nat} (d : α) (h : k ≠ j) :
    (m.del k).getD j d = m.getD j d := by
  induction m with
  | nil => rfl
  | cons e r ih =>
    obtain ⟨a, v⟩ := e
    unfold Sparse.del
    split
    · rfl
    · split
      · next hk he => subst he; simp [Sparse.getD, h]
      · simp [Sparse.getD, ih]

theorem Sparse.getD_set_other {α : Type} [DecidableEq α] (d : α) (m : Sparse α) {k j : Nat} (x : α) (h : k ≠ j) :
    (Sparse.set d m k x).getD j d = m.getD j d := by
  unfold Sparse.set
  split
  · exact Sparse.getD_del_other m d h
  · exact Sparse.getD_put_other m x d h

theorem Sparse.getD_set_self {α : Type} [DecidableEq α] (d : α) (m : Sparse α) (k : Nat) (x : α) (h : m.wf d = true) :
    (Sparse.set d m k x).getD k d = x := by
  have hr : m.rising = true := by
    simp only [Sparse.wf, Bool.and_eq_true] at h
    exact h.1
  unfold Sparse.set
  split
  next hx => rw [hx]; exact Sparse.getD_del_self m k d hr
  next => exact Sparse.getD_put_self m k x d

/-! ### The canonical form -/

theorem Sparse.wf_iff {α : Type} [DecidableEq α] (d : α) (m : Sparse α) :
    m.wf d = true ↔ m.rising = true ∧ ∀ e ∈ m, e.2 ≠ d := by
  simp [Sparse.wf]

theorem Sparse.mem_put {α : Type} {m : Sparse α} {k : Nat} {x : α} {e : Nat × α} (h : e ∈ m.put k x) :
    e ∈ m ∨ e = (k, x) := by
  induction m with
  | nil => simpa [Sparse.put] using h
  | cons b r ih =>
    obtain ⟨a, v⟩ := b
    unfold Sparse.put at h
    split at h
    · rcases List.mem_cons.mp h with rfl | h
      · exact .inr rfl
      · exact .inl h
    · split at h
      · rcases List.mem_cons.mp h with rfl | h
        · exact .inr rfl
        · exact .inl (by simp [h])
      · rcases List.mem_cons.mp h with rfl | h
        · exact .inl (by simp)
        · rcases ih h with h | h
          · exact .inl (by simp [h])
          · exact .inr h

theorem Sparse.mem_del {α : Type} {m : Sparse α} {k : Nat} {e : Nat × α} (h : e ∈ m.del k) : e ∈ m := by
  induction m with
  | nil => exact h
  | cons b r ih =>
    obtain ⟨a, v⟩ := b
    unfold Sparse.del at h
    split at h
    · exact h
    · split at h
      · simp [h]
      · rcases List.mem_cons.mp h with rfl | h
        · simp
        · simp [ih h]

theorem Sparse.wf_set {α : Type} [DecidableEq α] (d : α) (m : Sparse α) (k : Nat) (x : α) (h : m.wf d = true) :
    (Sparse.set d m k x).wf d = true := by
  rw [Sparse.wf_iff] at h ⊢
  unfold Sparse.set
  split
  · exact ⟨Sparse.rising_del k m h.1, fun e he => h.2 e (Sparse.mem_del he)⟩
  next hx =>
    refine ⟨Sparse.rising_put k x m h.1, fun e he => ?_⟩
    rcases Sparse.mem_put he with he | rfl
    · exact h.2 e he
    · exact hx

/-- A table cut down by a test keeps the canonical form. -/
theorem Sparse.wf_filter {α : Type} [DecidableEq α] (d : α) (m : Sparse α) (f : Nat × α → Bool) (h : m.wf d = true) :
    Sparse.wf d (m.filter f) = true := by
  rw [Sparse.wf_iff] at h ⊢
  refine ⟨?_, fun e he => h.2 e (List.mem_filter.mp he).1⟩
  obtain ⟨hr, -⟩ := h
  induction m with
  | nil => rfl
  | cons e r ih =>
    obtain ⟨a, v⟩ := e
    have hc := (Sparse.rising_cons a v r).mp hr
    rw [List.filter_cons]
    split
    · exact (Sparse.rising_cons _ _ _).mpr ⟨fun e he => hc.1 e (List.mem_filter.mp he).1, ih hc.2⟩
    · exact ih hc.2

/-! ### Byte memories -/

theorem rd_wr_other (m : Memory) {a b : Nat} (v : Byte) (h : a ≠ b) : rd (wr m a v) b = rd m b :=
  Sparse.getD_set_other (α := Byte) 0 m v h

theorem rd_wr_self (m : Memory) (a : Nat) (v : Byte) (h : m.wf = true) : rd (wr m a v) a = v :=
  Sparse.getD_set_self (α := Byte) 0 m a v h

theorem wr_wf (m : Memory) (a : Nat) (v : Byte) (h : m.wf = true) : (wr m a v).wf = true :=
  Sparse.wf_set (α := Byte) 0 m a v h

theorem wrL_wf (l : List Byte) (m : Memory) (a : Nat) (h : m.wf = true) : (wrL m a l).wf = true := by
  induction l generalizing m a with
  | nil => exact h
  | cons b r ih => exact ih _ _ (wr_wf m a b h)

/-- A write of bytes leaves every byte outside its range alone. -/
theorem rd_wrL_outside (l : List Byte) (m : Memory) (a b : Nat) (h : b < a ∨ a + l.length ≤ b) :
    rd (wrL m a l) b = rd m b := by
  induction l generalizing m a with
  | nil => rfl
  | cons x r ih =>
    rw [List.length_cons] at h
    have h1 : rd (wrL (wr m a x) (a + 1) r) b = rd (wr m a x) b := ih _ _ (by omega)
    exact h1.trans (rd_wr_other m x (by omega))

/-- A write of bytes reads back. -/
theorem rd_wrL_inside (l : List Byte) (m : Memory) (a i : Nat) (hm : m.wf = true) (h : i < l.length) :
    rd (wrL m a l) (a + i) = l[i] := by
  induction l generalizing m a i with
  | nil => exact absurd h (by simp)
  | cons x r ih =>
    cases i with
    | zero =>
      have h1 : rd (wrL (wr m a x) (a + 1) r) a = rd (wr m a x) a := rd_wrL_outside r _ _ _ (by omega)
      exact h1.trans (rd_wr_self m a x hm)
    | succ i =>
      have h1 := ih (wr m a x) (a + 1) i (wr_wf m a x hm) (by simpa using h)
      rw [show a + 1 + i = a + (i + 1) by omega] at h1
      exact h1

theorem zeroRange_wf (m : Memory) (a n : Nat) (h : m.wf = true) : (zeroRange m a n).wf = true :=
  Sparse.wf_filter (α := Byte) 0 m _ h

theorem wrLine_wf (m : Memory) (a : Nat) (l : Line) (h : m.wf = true) : (wrLine m a l).wf = true := wrL_wf _ m a h

theorem wrSlot_wf (l : List Byte) (m : Memory) (a : Nat) (h : Sparse.wf (α := Byte) 0xFF m = true) :
    Sparse.wf (α := Byte) 0xFF (wrSlot m a l) = true := by
  induction l generalizing m a with
  | nil => exact h
  | cons b r ih => exact ih _ _ (Sparse.wf_set (α := Byte) 0xFF m a b h)

theorem eraseSlot_wf (m : Memory) (n : Nat) (h : Sparse.wf (α := Byte) 0xFF m = true) :
    Sparse.wf (α := Byte) 0xFF (eraseSlot m n) = true := Sparse.wf_filter (α := Byte) 0xFF m _ h

/-- The memories of the reset state list nothing. -/
theorem reset_host_wf : State.reset.host.wf = true := rfl

end Sys2Proof.Machine
end

