-- ==== Sys2Proof/Laws/State.lean ====
section
/-! SUPPORT. What each update of State leaves as it was: one lemma per field per update, so that no later proof unfolds
a record update. -/

namespace Sys2Proof.Machine

/-! ### One entry of a bank -/

@[simp] theorem updAt_self {α : Type} {n : Nat} (v : Vector α n) (i : Fin n) (f : α → α) :
    (updAt v i f)[i.val] = f v[i.val] := by
  simp [updAt]

theorem updAt_other {α : Type} {n : Nat} (v : Vector α n) (i : Fin n) (j : Nat) (hj : j < n) (f : α → α)
    (h : i.val ≠ j) : (updAt v i f)[j] = v[j] := by
  simp only [updAt]
  exact Vector.getElem_set_ne _ _ h

theorem updAt_get {α : Type} {n : Nat} (v : Vector α n) (i : Fin n) (j : Nat) (hj : j < n) (f : α → α) :
    (updAt v i f)[j] = if i.val = j then f v[j] else v[j] := by
  split
  next h => subst h; exact updAt_self v i f
  next h => exact updAt_other v i j hj f h

theorem updAt_twice {α : Type} {n : Nat} (v : Vector α n) (i : Fin n) (f g : α → α) :
    updAt (updAt v i f) i g = updAt v i fun x => g (f x) := by
  simp [updAt]

/-! ### Folds over units -/

/-- What every round of a fold keeps, the fold keeps. -/
theorem State.over_keeps {α β : Type} (g : State → β) (l : List α) (f : State → α → State)
    (h : ∀ s x, g (f s x) = g s) (s : State) : g (s.over l f) = g s := by
  induction l generalizing s with
  | nil => rfl
  | cons x r ih => exact (ih (f s x)).trans (h s x)

/-- What a change keeps, it keeps where a condition guards it. -/
theorem State.iff_keeps {β : Type} (g : State → β) (b : Bool) (f : State → State) (h : ∀ s, g (f s) = g s) (s : State) :
    g (s.iff b f) = g s := by
  cases b
  · rfl
  · exact h s

@[simp] theorem State.over_nil {α : Type} (s : State) (f : State → α → State) : s.over [] f = s := rfl

@[simp] theorem State.over_cons {α : Type} (s : State) (x : α) (l : List α) (f : State → α → State) :
    s.over (x :: l) f = (f s x).over l f := rfl

/-! ### updPart -/

@[simp] theorem State.updPart_parts (s : State) (p : PartId) (f : Partition → Partition) : (s.updPart p f).parts = updAt s.parts p f := rfl
@[simp] theorem State.updPart_pending (s : State) (p : PartId) (f : Partition → Partition) : (s.updPart p f).pending = s.pending := rfl
@[simp] theorem State.updPart_timeNs (s : State) (p : PartId) (f : Partition → Partition) : (s.updPart p f).timeNs = s.timeNs := rfl
@[simp] theorem State.updPart_freeCount (s : State) (p : PartId) (f : Partition → Partition) : (s.updPart p f).freeCount = s.freeCount := rfl
@[simp] theorem State.updPart_nextItem (s : State) (p : PartId) (f : Partition → Partition) : (s.updPart p f).nextItem = s.nextItem := rfl
@[simp] theorem State.updPart_power (s : State) (p : PartId) (f : Partition → Partition) : (s.updPart p f).power = s.power := rfl
@[simp] theorem State.updPart_fields (s : State) (p : PartId) (f : Partition → Partition) : (s.updPart p f).fields = s.fields := rfl
@[simp] theorem State.updPart_fuses (s : State) (p : PartId) (f : Partition → Partition) : (s.updPart p f).fuses = s.fuses := rfl
@[simp] theorem State.updPart_boot (s : State) (p : PartId) (f : Partition → Partition) : (s.updPart p f).boot = s.boot := rfl
@[simp] theorem State.updPart_loader (s : State) (p : PartId) (f : Partition → Partition) : (s.updPart p f).loader = s.loader := rfl
@[simp] theorem State.updPart_image (s : State) (p : PartId) (f : Partition → Partition) : (s.updPart p f).image = s.image := rfl
@[simp] theorem State.updPart_almanac (s : State) (p : PartId) (f : Partition → Partition) : (s.updPart p f).almanac = s.almanac := rfl
@[simp] theorem State.updPart_ctl (s : State) (p : PartId) (f : Partition → Partition) : (s.updPart p f).ctl = s.ctl := rfl
@[simp] theorem State.updPart_link (s : State) (p : PartId) (f : Partition → Partition) : (s.updPart p f).link = s.link := rfl
@[simp] theorem State.updPart_host (s : State) (p : PartId) (f : Partition → Partition) : (s.updPart p f).host = s.host := rfl
@[simp] theorem State.updPart_lull3Enable (s : State) (p : PartId) (f : Partition → Partition) : (s.updPart p f).lull3Enable = s.lull3Enable := rfl
@[simp] theorem State.updPart_inLull3 (s : State) (p : PartId) (f : Partition → Partition) : (s.updPart p f).inLull3 = s.inLull3 := rfl
@[simp] theorem State.updPart_tc12At (s : State) (p : PartId) (f : Partition → Partition) : (s.updPart p f).tc12At = s.tc12At := rfl
@[simp] theorem State.updPart_seqs (s : State) (p : PartId) (f : Partition → Partition) : (s.updPart p f).seqs = s.seqs := rfl
@[simp] theorem State.updPart_cores (s : State) (p : PartId) (f : Partition → Partition) : (s.updPart p f).cores = s.cores := rfl
@[simp] theorem State.updPart_wells (s : State) (p : PartId) (f : Partition → Partition) : (s.updPart p f).wells = s.wells := rfl
@[simp] theorem State.updPart_pumps (s : State) (p : PartId) (f : Partition → Partition) : (s.updPart p f).pumps = s.pumps := rfl
@[simp] theorem State.updPart_ports (s : State) (p : PartId) (f : Partition → Partition) : (s.updPart p f).ports = s.ports := rfl
@[simp] theorem State.updPart_fabric (s : State) (p : PartId) (f : Partition → Partition) : (s.updPart p f).fabric = s.fabric := rfl
@[simp] theorem State.updPart_axes (s : State) (p : PartId) (f : Partition → Partition) : (s.updPart p f).axes = s.axes := rfl
@[simp] theorem State.updPart_sluices (s : State) (p : PartId) (f : Partition → Partition) : (s.updPart p f).sluices = s.sluices := rfl
@[simp] theorem State.updPart_xfers (s : State) (p : PartId) (f : Partition → Partition) : (s.updPart p f).xfers = s.xfers := rfl
@[simp] theorem State.updPart_programs (s : State) (p : PartId) (f : Partition → Partition) : (s.updPart p f).programs = s.programs := rfl
@[simp] theorem State.updPart_baro (s : State) (p : PartId) (f : Partition → Partition) : (s.updPart p f).baro = s.baro := rfl
@[simp] theorem State.updPart_snd (s : State) (p : PartId) (f : Partition → Partition) : (s.updPart p f).snd = s.snd := rfl
@[simp] theorem State.updPart_cisTemp (s : State) (p : PartId) (f : Partition → Partition) : (s.updPart p f).cisTemp = s.cisTemp := rfl
@[simp] theorem State.updPart_cisRate (s : State) (p : PartId) (f : Partition → Partition) : (s.updPart p f).cisRate = s.cisRate := rfl
@[simp] theorem State.updPart_pkgOk (s : State) (p : PartId) (f : Partition → Partition) : (s.updPart p f).pkgOk = s.pkgOk := rfl
@[simp] theorem State.updPart_devEnergy (s : State) (p : PartId) (f : Partition → Partition) : (s.updPart p f).devEnergy = s.devEnergy := rfl
@[simp] theorem State.updPart_acts (s : State) (p : PartId) (f : Partition → Partition) : (s.updPart p f).acts = s.acts := rfl
@[simp] theorem State.updPart_readyAt (s : State) (p : PartId) (f : Partition → Partition) : (s.updPart p f).readyAt = s.readyAt := rfl

/-! ### updSeq -/

@[simp] theorem State.updSeq_seqs (s : State) (p : SeqId) (f : Sequencer → Sequencer) : (s.updSeq p f).seqs = updAt s.seqs p f := rfl
@[simp] theorem State.updSeq_pending (s : State) (p : SeqId) (f : Sequencer → Sequencer) : (s.updSeq p f).pending = s.pending := rfl
@[simp] theorem State.updSeq_timeNs (s : State) (p : SeqId) (f : Sequencer → Sequencer) : (s.updSeq p f).timeNs = s.timeNs := rfl
@[simp] theorem State.updSeq_freeCount (s : State) (p : SeqId) (f : Sequencer → Sequencer) : (s.updSeq p f).freeCount = s.freeCount := rfl
@[simp] theorem State.updSeq_nextItem (s : State) (p : SeqId) (f : Sequencer → Sequencer) : (s.updSeq p f).nextItem = s.nextItem := rfl
@[simp] theorem State.updSeq_power (s : State) (p : SeqId) (f : Sequencer → Sequencer) : (s.updSeq p f).power = s.power := rfl
@[simp] theorem State.updSeq_fields (s : State) (p : SeqId) (f : Sequencer → Sequencer) : (s.updSeq p f).fields = s.fields := rfl
@[simp] theorem State.updSeq_fuses (s : State) (p : SeqId) (f : Sequencer → Sequencer) : (s.updSeq p f).fuses = s.fuses := rfl
@[simp] theorem State.updSeq_boot (s : State) (p : SeqId) (f : Sequencer → Sequencer) : (s.updSeq p f).boot = s.boot := rfl
@[simp] theorem State.updSeq_loader (s : State) (p : SeqId) (f : Sequencer → Sequencer) : (s.updSeq p f).loader = s.loader := rfl
@[simp] theorem State.updSeq_image (s : State) (p : SeqId) (f : Sequencer → Sequencer) : (s.updSeq p f).image = s.image := rfl
@[simp] theorem State.updSeq_almanac (s : State) (p : SeqId) (f : Sequencer → Sequencer) : (s.updSeq p f).almanac = s.almanac := rfl
@[simp] theorem State.updSeq_ctl (s : State) (p : SeqId) (f : Sequencer → Sequencer) : (s.updSeq p f).ctl = s.ctl := rfl
@[simp] theorem State.updSeq_link (s : State) (p : SeqId) (f : Sequencer → Sequencer) : (s.updSeq p f).link = s.link := rfl
@[simp] theorem State.updSeq_host (s : State) (p : SeqId) (f : Sequencer → Sequencer) : (s.updSeq p f).host = s.host := rfl
@[simp] theorem State.updSeq_lull3Enable (s : State) (p : SeqId) (f : Sequencer → Sequencer) : (s.updSeq p f).lull3Enable = s.lull3Enable := rfl
@[simp] theorem State.updSeq_inLull3 (s : State) (p : SeqId) (f : Sequencer → Sequencer) : (s.updSeq p f).inLull3 = s.inLull3 := rfl
@[simp] theorem State.updSeq_tc12At (s : State) (p : SeqId) (f : Sequencer → Sequencer) : (s.updSeq p f).tc12At = s.tc12At := rfl
@[simp] theorem State.updSeq_parts (s : State) (p : SeqId) (f : Sequencer → Sequencer) : (s.updSeq p f).parts = s.parts := rfl
@[simp] theorem State.updSeq_cores (s : State) (p : SeqId) (f : Sequencer → Sequencer) : (s.updSeq p f).cores = s.cores := rfl
@[simp] theorem State.updSeq_wells (s : State) (p : SeqId) (f : Sequencer → Sequencer) : (s.updSeq p f).wells = s.wells := rfl
@[simp] theorem State.updSeq_pumps (s : State) (p : SeqId) (f : Sequencer → Sequencer) : (s.updSeq p f).pumps = s.pumps := rfl
@[simp] theorem State.updSeq_ports (s : State) (p : SeqId) (f : Sequencer → Sequencer) : (s.updSeq p f).ports = s.ports := rfl
@[simp] theorem State.updSeq_fabric (s : State) (p : SeqId) (f : Sequencer → Sequencer) : (s.updSeq p f).fabric = s.fabric := rfl
@[simp] theorem State.updSeq_axes (s : State) (p : SeqId) (f : Sequencer → Sequencer) : (s.updSeq p f).axes = s.axes := rfl
@[simp] theorem State.updSeq_sluices (s : State) (p : SeqId) (f : Sequencer → Sequencer) : (s.updSeq p f).sluices = s.sluices := rfl
@[simp] theorem State.updSeq_xfers (s : State) (p : SeqId) (f : Sequencer → Sequencer) : (s.updSeq p f).xfers = s.xfers := rfl
@[simp] theorem State.updSeq_programs (s : State) (p : SeqId) (f : Sequencer → Sequencer) : (s.updSeq p f).programs = s.programs := rfl
@[simp] theorem State.updSeq_baro (s : State) (p : SeqId) (f : Sequencer → Sequencer) : (s.updSeq p f).baro = s.baro := rfl
@[simp] theorem State.updSeq_snd (s : State) (p : SeqId) (f : Sequencer → Sequencer) : (s.updSeq p f).snd = s.snd := rfl
@[simp] theorem State.updSeq_cisTemp (s : State) (p : SeqId) (f : Sequencer → Sequencer) : (s.updSeq p f).cisTemp = s.cisTemp := rfl
@[simp] theorem State.updSeq_cisRate (s : State) (p : SeqId) (f : Sequencer → Sequencer) : (s.updSeq p f).cisRate = s.cisRate := rfl
@[simp] theorem State.updSeq_pkgOk (s : State) (p : SeqId) (f : Sequencer → Sequencer) : (s.updSeq p f).pkgOk = s.pkgOk := rfl
@[simp] theorem State.updSeq_devEnergy (s : State) (p : SeqId) (f : Sequencer → Sequencer) : (s.updSeq p f).devEnergy = s.devEnergy := rfl
@[simp] theorem State.updSeq_acts (s : State) (p : SeqId) (f : Sequencer → Sequencer) : (s.updSeq p f).acts = s.acts := rfl
@[simp] theorem State.updSeq_readyAt (s : State) (p : SeqId) (f : Sequencer → Sequencer) : (s.updSeq p f).readyAt = s.readyAt := rfl

/-! ### updCore -/

@[simp] theorem State.updCore_cores (s : State) (p : CoreId) (f : Core → Core) : (s.updCore p f).cores = updAt s.cores p f := rfl
@[simp] theorem State.updCore_pending (s : State) (p : CoreId) (f : Core → Core) : (s.updCore p f).pending = s.pending := rfl
@[simp] theorem State.updCore_timeNs (s : State) (p : CoreId) (f : Core → Core) : (s.updCore p f).timeNs = s.timeNs := rfl
@[simp] theorem State.updCore_freeCount (s : State) (p : CoreId) (f : Core → Core) : (s.updCore p f).freeCount = s.freeCount := rfl
@[simp] theorem State.updCore_nextItem (s : State) (p : CoreId) (f : Core → Core) : (s.updCore p f).nextItem = s.nextItem := rfl
@[simp] theorem State.updCore_power (s : State) (p : CoreId) (f : Core → Core) : (s.updCore p f).power = s.power := rfl
@[simp] theorem State.updCore_fields (s : State) (p : CoreId) (f : Core → Core) : (s.updCore p f).fields = s.fields := rfl
@[simp] theorem State.updCore_fuses (s : State) (p : CoreId) (f : Core → Core) : (s.updCore p f).fuses = s.fuses := rfl
@[simp] theorem State.updCore_boot (s : State) (p : CoreId) (f : Core → Core) : (s.updCore p f).boot = s.boot := rfl
@[simp] theorem State.updCore_loader (s : State) (p : CoreId) (f : Core → Core) : (s.updCore p f).loader = s.loader := rfl
@[simp] theorem State.updCore_image (s : State) (p : CoreId) (f : Core → Core) : (s.updCore p f).image = s.image := rfl
@[simp] theorem State.updCore_almanac (s : State) (p : CoreId) (f : Core → Core) : (s.updCore p f).almanac = s.almanac := rfl
@[simp] theorem State.updCore_ctl (s : State) (p : CoreId) (f : Core → Core) : (s.updCore p f).ctl = s.ctl := rfl
@[simp] theorem State.updCore_link (s : State) (p : CoreId) (f : Core → Core) : (s.updCore p f).link = s.link := rfl
@[simp] theorem State.updCore_host (s : State) (p : CoreId) (f : Core → Core) : (s.updCore p f).host = s.host := rfl
@[simp] theorem State.updCore_lull3Enable (s : State) (p : CoreId) (f : Core → Core) : (s.updCore p f).lull3Enable = s.lull3Enable := rfl
@[simp] theorem State.updCore_inLull3 (s : State) (p : CoreId) (f : Core → Core) : (s.updCore p f).inLull3 = s.inLull3 := rfl
@[simp] theorem State.updCore_tc12At (s : State) (p : CoreId) (f : Core → Core) : (s.updCore p f).tc12At = s.tc12At := rfl
@[simp] theorem State.updCore_parts (s : State) (p : CoreId) (f : Core → Core) : (s.updCore p f).parts = s.parts := rfl
@[simp] theorem State.updCore_seqs (s : State) (p : CoreId) (f : Core → Core) : (s.updCore p f).seqs = s.seqs := rfl
@[simp] theorem State.updCore_wells (s : State) (p : CoreId) (f : Core → Core) : (s.updCore p f).wells = s.wells := rfl
@[simp] theorem State.updCore_pumps (s : State) (p : CoreId) (f : Core → Core) : (s.updCore p f).pumps = s.pumps := rfl
@[simp] theorem State.updCore_ports (s : State) (p : CoreId) (f : Core → Core) : (s.updCore p f).ports = s.ports := rfl
@[simp] theorem State.updCore_fabric (s : State) (p : CoreId) (f : Core → Core) : (s.updCore p f).fabric = s.fabric := rfl
@[simp] theorem State.updCore_axes (s : State) (p : CoreId) (f : Core → Core) : (s.updCore p f).axes = s.axes := rfl
@[simp] theorem State.updCore_sluices (s : State) (p : CoreId) (f : Core → Core) : (s.updCore p f).sluices = s.sluices := rfl
@[simp] theorem State.updCore_xfers (s : State) (p : CoreId) (f : Core → Core) : (s.updCore p f).xfers = s.xfers := rfl
@[simp] theorem State.updCore_programs (s : State) (p : CoreId) (f : Core → Core) : (s.updCore p f).programs = s.programs := rfl
@[simp] theorem State.updCore_baro (s : State) (p : CoreId) (f : Core → Core) : (s.updCore p f).baro = s.baro := rfl
@[simp] theorem State.updCore_snd (s : State) (p : CoreId) (f : Core → Core) : (s.updCore p f).snd = s.snd := rfl
@[simp] theorem State.updCore_cisTemp (s : State) (p : CoreId) (f : Core → Core) : (s.updCore p f).cisTemp = s.cisTemp := rfl
@[simp] theorem State.updCore_cisRate (s : State) (p : CoreId) (f : Core → Core) : (s.updCore p f).cisRate = s.cisRate := rfl
@[simp] theorem State.updCore_pkgOk (s : State) (p : CoreId) (f : Core → Core) : (s.updCore p f).pkgOk = s.pkgOk := rfl
@[simp] theorem State.updCore_devEnergy (s : State) (p : CoreId) (f : Core → Core) : (s.updCore p f).devEnergy = s.devEnergy := rfl
@[simp] theorem State.updCore_acts (s : State) (p : CoreId) (f : Core → Core) : (s.updCore p f).acts = s.acts := rfl
@[simp] theorem State.updCore_readyAt (s : State) (p : CoreId) (f : Core → Core) : (s.updCore p f).readyAt = s.readyAt := rfl

/-! ### updWell -/

@[simp] theorem State.updWell_wells (s : State) (p : WellId) (f : MemCtl → MemCtl) : (s.updWell p f).wells = updAt s.wells p f := rfl
@[simp] theorem State.updWell_pending (s : State) (p : WellId) (f : MemCtl → MemCtl) : (s.updWell p f).pending = s.pending := rfl
@[simp] theorem State.updWell_timeNs (s : State) (p : WellId) (f : MemCtl → MemCtl) : (s.updWell p f).timeNs = s.timeNs := rfl
@[simp] theorem State.updWell_freeCount (s : State) (p : WellId) (f : MemCtl → MemCtl) : (s.updWell p f).freeCount = s.freeCount := rfl
@[simp] theorem State.updWell_nextItem (s : State) (p : WellId) (f : MemCtl → MemCtl) : (s.updWell p f).nextItem = s.nextItem := rfl
@[simp] theorem State.updWell_power (s : State) (p : WellId) (f : MemCtl → MemCtl) : (s.updWell p f).power = s.power := rfl
@[simp] theorem State.updWell_fields (s : State) (p : WellId) (f : MemCtl → MemCtl) : (s.updWell p f).fields = s.fields := rfl
@[simp] theorem State.updWell_fuses (s : State) (p : WellId) (f : MemCtl → MemCtl) : (s.updWell p f).fuses = s.fuses := rfl
@[simp] theorem State.updWell_boot (s : State) (p : WellId) (f : MemCtl → MemCtl) : (s.updWell p f).boot = s.boot := rfl
@[simp] theorem State.updWell_loader (s : State) (p : WellId) (f : MemCtl → MemCtl) : (s.updWell p f).loader = s.loader := rfl
@[simp] theorem State.updWell_image (s : State) (p : WellId) (f : MemCtl → MemCtl) : (s.updWell p f).image = s.image := rfl
@[simp] theorem State.updWell_almanac (s : State) (p : WellId) (f : MemCtl → MemCtl) : (s.updWell p f).almanac = s.almanac := rfl
@[simp] theorem State.updWell_ctl (s : State) (p : WellId) (f : MemCtl → MemCtl) : (s.updWell p f).ctl = s.ctl := rfl
@[simp] theorem State.updWell_link (s : State) (p : WellId) (f : MemCtl → MemCtl) : (s.updWell p f).link = s.link := rfl
@[simp] theorem State.updWell_host (s : State) (p : WellId) (f : MemCtl → MemCtl) : (s.updWell p f).host = s.host := rfl
@[simp] theorem State.updWell_lull3Enable (s : State) (p : WellId) (f : MemCtl → MemCtl) : (s.updWell p f).lull3Enable = s.lull3Enable := rfl
@[simp] theorem State.updWell_inLull3 (s : State) (p : WellId) (f : MemCtl → MemCtl) : (s.updWell p f).inLull3 = s.inLull3 := rfl
@[simp] theorem State.updWell_tc12At (s : State) (p : WellId) (f : MemCtl → MemCtl) : (s.updWell p f).tc12At = s.tc12At := rfl
@[simp] theorem State.updWell_parts (s : State) (p : WellId) (f : MemCtl → MemCtl) : (s.updWell p f).parts = s.parts := rfl
@[simp] theorem State.updWell_seqs (s : State) (p : WellId) (f : MemCtl → MemCtl) : (s.updWell p f).seqs = s.seqs := rfl
@[simp] theorem State.updWell_cores (s : State) (p : WellId) (f : MemCtl → MemCtl) : (s.updWell p f).cores = s.cores := rfl
@[simp] theorem State.updWell_pumps (s : State) (p : WellId) (f : MemCtl → MemCtl) : (s.updWell p f).pumps = s.pumps := rfl
@[simp] theorem State.updWell_ports (s : State) (p : WellId) (f : MemCtl → MemCtl) : (s.updWell p f).ports = s.ports := rfl
@[simp] theorem State.updWell_fabric (s : State) (p : WellId) (f : MemCtl → MemCtl) : (s.updWell p f).fabric = s.fabric := rfl
@[simp] theorem State.updWell_axes (s : State) (p : WellId) (f : MemCtl → MemCtl) : (s.updWell p f).axes = s.axes := rfl
@[simp] theorem State.updWell_sluices (s : State) (p : WellId) (f : MemCtl → MemCtl) : (s.updWell p f).sluices = s.sluices := rfl
@[simp] theorem State.updWell_xfers (s : State) (p : WellId) (f : MemCtl → MemCtl) : (s.updWell p f).xfers = s.xfers := rfl
@[simp] theorem State.updWell_programs (s : State) (p : WellId) (f : MemCtl → MemCtl) : (s.updWell p f).programs = s.programs := rfl
@[simp] theorem State.updWell_baro (s : State) (p : WellId) (f : MemCtl → MemCtl) : (s.updWell p f).baro = s.baro := rfl
@[simp] theorem State.updWell_snd (s : State) (p : WellId) (f : MemCtl → MemCtl) : (s.updWell p f).snd = s.snd := rfl
@[simp] theorem State.updWell_cisTemp (s : State) (p : WellId) (f : MemCtl → MemCtl) : (s.updWell p f).cisTemp = s.cisTemp := rfl
@[simp] theorem State.updWell_cisRate (s : State) (p : WellId) (f : MemCtl → MemCtl) : (s.updWell p f).cisRate = s.cisRate := rfl
@[simp] theorem State.updWell_pkgOk (s : State) (p : WellId) (f : MemCtl → MemCtl) : (s.updWell p f).pkgOk = s.pkgOk := rfl
@[simp] theorem State.updWell_devEnergy (s : State) (p : WellId) (f : MemCtl → MemCtl) : (s.updWell p f).devEnergy = s.devEnergy := rfl
@[simp] theorem State.updWell_acts (s : State) (p : WellId) (f : MemCtl → MemCtl) : (s.updWell p f).acts = s.acts := rfl
@[simp] theorem State.updWell_readyAt (s : State) (p : WellId) (f : MemCtl → MemCtl) : (s.updWell p f).readyAt = s.readyAt := rfl

/-! ### updPump -/

@[simp] theorem State.updPump_pumps (s : State) (p : PumpId) (f : Pump → Pump) : (s.updPump p f).pumps = updAt s.pumps p f := rfl
@[simp] theorem State.updPump_pending (s : State) (p : PumpId) (f : Pump → Pump) : (s.updPump p f).pending = s.pending := rfl
@[simp] theorem State.updPump_timeNs (s : State) (p : PumpId) (f : Pump → Pump) : (s.updPump p f).timeNs = s.timeNs := rfl
@[simp] theorem State.updPump_freeCount (s : State) (p : PumpId) (f : Pump → Pump) : (s.updPump p f).freeCount = s.freeCount := rfl
@[simp] theorem State.updPump_nextItem (s : State) (p : PumpId) (f : Pump → Pump) : (s.updPump p f).nextItem = s.nextItem := rfl
@[simp] theorem State.updPump_power (s : State) (p : PumpId) (f : Pump → Pump) : (s.updPump p f).power = s.power := rfl
@[simp] theorem State.updPump_fields (s : State) (p : PumpId) (f : Pump → Pump) : (s.updPump p f).fields = s.fields := rfl
@[simp] theorem State.updPump_fuses (s : State) (p : PumpId) (f : Pump → Pump) : (s.updPump p f).fuses = s.fuses := rfl
@[simp] theorem State.updPump_boot (s : State) (p : PumpId) (f : Pump → Pump) : (s.updPump p f).boot = s.boot := rfl
@[simp] theorem State.updPump_loader (s : State) (p : PumpId) (f : Pump → Pump) : (s.updPump p f).loader = s.loader := rfl
@[simp] theorem State.updPump_image (s : State) (p : PumpId) (f : Pump → Pump) : (s.updPump p f).image = s.image := rfl
@[simp] theorem State.updPump_almanac (s : State) (p : PumpId) (f : Pump → Pump) : (s.updPump p f).almanac = s.almanac := rfl
@[simp] theorem State.updPump_ctl (s : State) (p : PumpId) (f : Pump → Pump) : (s.updPump p f).ctl = s.ctl := rfl
@[simp] theorem State.updPump_link (s : State) (p : PumpId) (f : Pump → Pump) : (s.updPump p f).link = s.link := rfl
@[simp] theorem State.updPump_host (s : State) (p : PumpId) (f : Pump → Pump) : (s.updPump p f).host = s.host := rfl
@[simp] theorem State.updPump_lull3Enable (s : State) (p : PumpId) (f : Pump → Pump) : (s.updPump p f).lull3Enable = s.lull3Enable := rfl
@[simp] theorem State.updPump_inLull3 (s : State) (p : PumpId) (f : Pump → Pump) : (s.updPump p f).inLull3 = s.inLull3 := rfl
@[simp] theorem State.updPump_tc12At (s : State) (p : PumpId) (f : Pump → Pump) : (s.updPump p f).tc12At = s.tc12At := rfl
@[simp] theorem State.updPump_parts (s : State) (p : PumpId) (f : Pump → Pump) : (s.updPump p f).parts = s.parts := rfl
@[simp] theorem State.updPump_seqs (s : State) (p : PumpId) (f : Pump → Pump) : (s.updPump p f).seqs = s.seqs := rfl
@[simp] theorem State.updPump_cores (s : State) (p : PumpId) (f : Pump → Pump) : (s.updPump p f).cores = s.cores := rfl
@[simp] theorem State.updPump_wells (s : State) (p : PumpId) (f : Pump → Pump) : (s.updPump p f).wells = s.wells := rfl
@[simp] theorem State.updPump_ports (s : State) (p : PumpId) (f : Pump → Pump) : (s.updPump p f).ports = s.ports := rfl
@[simp] theorem State.updPump_fabric (s : State) (p : PumpId) (f : Pump → Pump) : (s.updPump p f).fabric = s.fabric := rfl
@[simp] theorem State.updPump_axes (s : State) (p : PumpId) (f : Pump → Pump) : (s.updPump p f).axes = s.axes := rfl
@[simp] theorem State.updPump_sluices (s : State) (p : PumpId) (f : Pump → Pump) : (s.updPump p f).sluices = s.sluices := rfl
@[simp] theorem State.updPump_xfers (s : State) (p : PumpId) (f : Pump → Pump) : (s.updPump p f).xfers = s.xfers := rfl
@[simp] theorem State.updPump_programs (s : State) (p : PumpId) (f : Pump → Pump) : (s.updPump p f).programs = s.programs := rfl
@[simp] theorem State.updPump_baro (s : State) (p : PumpId) (f : Pump → Pump) : (s.updPump p f).baro = s.baro := rfl
@[simp] theorem State.updPump_snd (s : State) (p : PumpId) (f : Pump → Pump) : (s.updPump p f).snd = s.snd := rfl
@[simp] theorem State.updPump_cisTemp (s : State) (p : PumpId) (f : Pump → Pump) : (s.updPump p f).cisTemp = s.cisTemp := rfl
@[simp] theorem State.updPump_cisRate (s : State) (p : PumpId) (f : Pump → Pump) : (s.updPump p f).cisRate = s.cisRate := rfl
@[simp] theorem State.updPump_pkgOk (s : State) (p : PumpId) (f : Pump → Pump) : (s.updPump p f).pkgOk = s.pkgOk := rfl
@[simp] theorem State.updPump_devEnergy (s : State) (p : PumpId) (f : Pump → Pump) : (s.updPump p f).devEnergy = s.devEnergy := rfl
@[simp] theorem State.updPump_acts (s : State) (p : PumpId) (f : Pump → Pump) : (s.updPump p f).acts = s.acts := rfl
@[simp] theorem State.updPump_readyAt (s : State) (p : PumpId) (f : Pump → Pump) : (s.updPump p f).readyAt = s.readyAt := rfl

/-! ### updPort -/

@[simp] theorem State.updPort_ports (s : State) (p : PortId) (f : Port → Port) : (s.updPort p f).ports = updAt s.ports p f := rfl
@[simp] theorem State.updPort_pending (s : State) (p : PortId) (f : Port → Port) : (s.updPort p f).pending = s.pending := rfl
@[simp] theorem State.updPort_timeNs (s : State) (p : PortId) (f : Port → Port) : (s.updPort p f).timeNs = s.timeNs := rfl
@[simp] theorem State.updPort_freeCount (s : State) (p : PortId) (f : Port → Port) : (s.updPort p f).freeCount = s.freeCount := rfl
@[simp] theorem State.updPort_nextItem (s : State) (p : PortId) (f : Port → Port) : (s.updPort p f).nextItem = s.nextItem := rfl
@[simp] theorem State.updPort_power (s : State) (p : PortId) (f : Port → Port) : (s.updPort p f).power = s.power := rfl
@[simp] theorem State.updPort_fields (s : State) (p : PortId) (f : Port → Port) : (s.updPort p f).fields = s.fields := rfl
@[simp] theorem State.updPort_fuses (s : State) (p : PortId) (f : Port → Port) : (s.updPort p f).fuses = s.fuses := rfl
@[simp] theorem State.updPort_boot (s : State) (p : PortId) (f : Port → Port) : (s.updPort p f).boot = s.boot := rfl
@[simp] theorem State.updPort_loader (s : State) (p : PortId) (f : Port → Port) : (s.updPort p f).loader = s.loader := rfl
@[simp] theorem State.updPort_image (s : State) (p : PortId) (f : Port → Port) : (s.updPort p f).image = s.image := rfl
@[simp] theorem State.updPort_almanac (s : State) (p : PortId) (f : Port → Port) : (s.updPort p f).almanac = s.almanac := rfl
@[simp] theorem State.updPort_ctl (s : State) (p : PortId) (f : Port → Port) : (s.updPort p f).ctl = s.ctl := rfl
@[simp] theorem State.updPort_link (s : State) (p : PortId) (f : Port → Port) : (s.updPort p f).link = s.link := rfl
@[simp] theorem State.updPort_host (s : State) (p : PortId) (f : Port → Port) : (s.updPort p f).host = s.host := rfl
@[simp] theorem State.updPort_lull3Enable (s : State) (p : PortId) (f : Port → Port) : (s.updPort p f).lull3Enable = s.lull3Enable := rfl
@[simp] theorem State.updPort_inLull3 (s : State) (p : PortId) (f : Port → Port) : (s.updPort p f).inLull3 = s.inLull3 := rfl
@[simp] theorem State.updPort_tc12At (s : State) (p : PortId) (f : Port → Port) : (s.updPort p f).tc12At = s.tc12At := rfl
@[simp] theorem State.updPort_parts (s : State) (p : PortId) (f : Port → Port) : (s.updPort p f).parts = s.parts := rfl
@[simp] theorem State.updPort_seqs (s : State) (p : PortId) (f : Port → Port) : (s.updPort p f).seqs = s.seqs := rfl
@[simp] theorem State.updPort_cores (s : State) (p : PortId) (f : Port → Port) : (s.updPort p f).cores = s.cores := rfl
@[simp] theorem State.updPort_wells (s : State) (p : PortId) (f : Port → Port) : (s.updPort p f).wells = s.wells := rfl
@[simp] theorem State.updPort_pumps (s : State) (p : PortId) (f : Port → Port) : (s.updPort p f).pumps = s.pumps := rfl
@[simp] theorem State.updPort_fabric (s : State) (p : PortId) (f : Port → Port) : (s.updPort p f).fabric = s.fabric := rfl
@[simp] theorem State.updPort_axes (s : State) (p : PortId) (f : Port → Port) : (s.updPort p f).axes = s.axes := rfl
@[simp] theorem State.updPort_sluices (s : State) (p : PortId) (f : Port → Port) : (s.updPort p f).sluices = s.sluices := rfl
@[simp] theorem State.updPort_xfers (s : State) (p : PortId) (f : Port → Port) : (s.updPort p f).xfers = s.xfers := rfl
@[simp] theorem State.updPort_programs (s : State) (p : PortId) (f : Port → Port) : (s.updPort p f).programs = s.programs := rfl
@[simp] theorem State.updPort_baro (s : State) (p : PortId) (f : Port → Port) : (s.updPort p f).baro = s.baro := rfl
@[simp] theorem State.updPort_snd (s : State) (p : PortId) (f : Port → Port) : (s.updPort p f).snd = s.snd := rfl
@[simp] theorem State.updPort_cisTemp (s : State) (p : PortId) (f : Port → Port) : (s.updPort p f).cisTemp = s.cisTemp := rfl
@[simp] theorem State.updPort_cisRate (s : State) (p : PortId) (f : Port → Port) : (s.updPort p f).cisRate = s.cisRate := rfl
@[simp] theorem State.updPort_pkgOk (s : State) (p : PortId) (f : Port → Port) : (s.updPort p f).pkgOk = s.pkgOk := rfl
@[simp] theorem State.updPort_devEnergy (s : State) (p : PortId) (f : Port → Port) : (s.updPort p f).devEnergy = s.devEnergy := rfl
@[simp] theorem State.updPort_acts (s : State) (p : PortId) (f : Port → Port) : (s.updPort p f).acts = s.acts := rfl
@[simp] theorem State.updPort_readyAt (s : State) (p : PortId) (f : Port → Port) : (s.updPort p f).readyAt = s.readyAt := rfl

/-! ### updAxis -/

@[simp] theorem State.updAxis_axes (s : State) (p : AxisId) (f : AxisEngine → AxisEngine) : (s.updAxis p f).axes = updAt s.axes p f := rfl
@[simp] theorem State.updAxis_pending (s : State) (p : AxisId) (f : AxisEngine → AxisEngine) : (s.updAxis p f).pending = s.pending := rfl
@[simp] theorem State.updAxis_timeNs (s : State) (p : AxisId) (f : AxisEngine → AxisEngine) : (s.updAxis p f).timeNs = s.timeNs := rfl
@[simp] theorem State.updAxis_freeCount (s : State) (p : AxisId) (f : AxisEngine → AxisEngine) : (s.updAxis p f).freeCount = s.freeCount := rfl
@[simp] theorem State.updAxis_nextItem (s : State) (p : AxisId) (f : AxisEngine → AxisEngine) : (s.updAxis p f).nextItem = s.nextItem := rfl
@[simp] theorem State.updAxis_power (s : State) (p : AxisId) (f : AxisEngine → AxisEngine) : (s.updAxis p f).power = s.power := rfl
@[simp] theorem State.updAxis_fields (s : State) (p : AxisId) (f : AxisEngine → AxisEngine) : (s.updAxis p f).fields = s.fields := rfl
@[simp] theorem State.updAxis_fuses (s : State) (p : AxisId) (f : AxisEngine → AxisEngine) : (s.updAxis p f).fuses = s.fuses := rfl
@[simp] theorem State.updAxis_boot (s : State) (p : AxisId) (f : AxisEngine → AxisEngine) : (s.updAxis p f).boot = s.boot := rfl
@[simp] theorem State.updAxis_loader (s : State) (p : AxisId) (f : AxisEngine → AxisEngine) : (s.updAxis p f).loader = s.loader := rfl
@[simp] theorem State.updAxis_image (s : State) (p : AxisId) (f : AxisEngine → AxisEngine) : (s.updAxis p f).image = s.image := rfl
@[simp] theorem State.updAxis_almanac (s : State) (p : AxisId) (f : AxisEngine → AxisEngine) : (s.updAxis p f).almanac = s.almanac := rfl
@[simp] theorem State.updAxis_ctl (s : State) (p : AxisId) (f : AxisEngine → AxisEngine) : (s.updAxis p f).ctl = s.ctl := rfl
@[simp] theorem State.updAxis_link (s : State) (p : AxisId) (f : AxisEngine → AxisEngine) : (s.updAxis p f).link = s.link := rfl
@[simp] theorem State.updAxis_host (s : State) (p : AxisId) (f : AxisEngine → AxisEngine) : (s.updAxis p f).host = s.host := rfl
@[simp] theorem State.updAxis_lull3Enable (s : State) (p : AxisId) (f : AxisEngine → AxisEngine) : (s.updAxis p f).lull3Enable = s.lull3Enable := rfl
@[simp] theorem State.updAxis_inLull3 (s : State) (p : AxisId) (f : AxisEngine → AxisEngine) : (s.updAxis p f).inLull3 = s.inLull3 := rfl
@[simp] theorem State.updAxis_tc12At (s : State) (p : AxisId) (f : AxisEngine → AxisEngine) : (s.updAxis p f).tc12At = s.tc12At := rfl
@[simp] theorem State.updAxis_parts (s : State) (p : AxisId) (f : AxisEngine → AxisEngine) : (s.updAxis p f).parts = s.parts := rfl
@[simp] theorem State.updAxis_seqs (s : State) (p : AxisId) (f : AxisEngine → AxisEngine) : (s.updAxis p f).seqs = s.seqs := rfl
@[simp] theorem State.updAxis_cores (s : State) (p : AxisId) (f : AxisEngine → AxisEngine) : (s.updAxis p f).cores = s.cores := rfl
@[simp] theorem State.updAxis_wells (s : State) (p : AxisId) (f : AxisEngine → AxisEngine) : (s.updAxis p f).wells = s.wells := rfl
@[simp] theorem State.updAxis_pumps (s : State) (p : AxisId) (f : AxisEngine → AxisEngine) : (s.updAxis p f).pumps = s.pumps := rfl
@[simp] theorem State.updAxis_ports (s : State) (p : AxisId) (f : AxisEngine → AxisEngine) : (s.updAxis p f).ports = s.ports := rfl
@[simp] theorem State.updAxis_fabric (s : State) (p : AxisId) (f : AxisEngine → AxisEngine) : (s.updAxis p f).fabric = s.fabric := rfl
@[simp] theorem State.updAxis_sluices (s : State) (p : AxisId) (f : AxisEngine → AxisEngine) : (s.updAxis p f).sluices = s.sluices := rfl
@[simp] theorem State.updAxis_xfers (s : State) (p : AxisId) (f : AxisEngine → AxisEngine) : (s.updAxis p f).xfers = s.xfers := rfl
@[simp] theorem State.updAxis_programs (s : State) (p : AxisId) (f : AxisEngine → AxisEngine) : (s.updAxis p f).programs = s.programs := rfl
@[simp] theorem State.updAxis_baro (s : State) (p : AxisId) (f : AxisEngine → AxisEngine) : (s.updAxis p f).baro = s.baro := rfl
@[simp] theorem State.updAxis_snd (s : State) (p : AxisId) (f : AxisEngine → AxisEngine) : (s.updAxis p f).snd = s.snd := rfl
@[simp] theorem State.updAxis_cisTemp (s : State) (p : AxisId) (f : AxisEngine → AxisEngine) : (s.updAxis p f).cisTemp = s.cisTemp := rfl
@[simp] theorem State.updAxis_cisRate (s : State) (p : AxisId) (f : AxisEngine → AxisEngine) : (s.updAxis p f).cisRate = s.cisRate := rfl
@[simp] theorem State.updAxis_pkgOk (s : State) (p : AxisId) (f : AxisEngine → AxisEngine) : (s.updAxis p f).pkgOk = s.pkgOk := rfl
@[simp] theorem State.updAxis_devEnergy (s : State) (p : AxisId) (f : AxisEngine → AxisEngine) : (s.updAxis p f).devEnergy = s.devEnergy := rfl
@[simp] theorem State.updAxis_acts (s : State) (p : AxisId) (f : AxisEngine → AxisEngine) : (s.updAxis p f).acts = s.acts := rfl
@[simp] theorem State.updAxis_readyAt (s : State) (p : AxisId) (f : AxisEngine → AxisEngine) : (s.updAxis p f).readyAt = s.readyAt := rfl

/-! ### updSluice -/

@[simp] theorem State.updSluice_sluices (s : State) (p : SluiceId) (f : Sluice → Sluice) : (s.updSluice p f).sluices = updAt s.sluices p f := rfl
@[simp] theorem State.updSluice_pending (s : State) (p : SluiceId) (f : Sluice → Sluice) : (s.updSluice p f).pending = s.pending := rfl
@[simp] theorem State.updSluice_timeNs (s : State) (p : SluiceId) (f : Sluice → Sluice) : (s.updSluice p f).timeNs = s.timeNs := rfl
@[simp] theorem State.updSluice_freeCount (s : State) (p : SluiceId) (f : Sluice → Sluice) : (s.updSluice p f).freeCount = s.freeCount := rfl
@[simp] theorem State.updSluice_nextItem (s : State) (p : SluiceId) (f : Sluice → Sluice) : (s.updSluice p f).nextItem = s.nextItem := rfl
@[simp] theorem State.updSluice_power (s : State) (p : SluiceId) (f : Sluice → Sluice) : (s.updSluice p f).power = s.power := rfl
@[simp] theorem State.updSluice_fields (s : State) (p : SluiceId) (f : Sluice → Sluice) : (s.updSluice p f).fields = s.fields := rfl
@[simp] theorem State.updSluice_fuses (s : State) (p : SluiceId) (f : Sluice → Sluice) : (s.updSluice p f).fuses = s.fuses := rfl
@[simp] theorem State.updSluice_boot (s : State) (p : SluiceId) (f : Sluice → Sluice) : (s.updSluice p f).boot = s.boot := rfl
@[simp] theorem State.updSluice_loader (s : State) (p : SluiceId) (f : Sluice → Sluice) : (s.updSluice p f).loader = s.loader := rfl
@[simp] theorem State.updSluice_image (s : State) (p : SluiceId) (f : Sluice → Sluice) : (s.updSluice p f).image = s.image := rfl
@[simp] theorem State.updSluice_almanac (s : State) (p : SluiceId) (f : Sluice → Sluice) : (s.updSluice p f).almanac = s.almanac := rfl
@[simp] theorem State.updSluice_ctl (s : State) (p : SluiceId) (f : Sluice → Sluice) : (s.updSluice p f).ctl = s.ctl := rfl
@[simp] theorem State.updSluice_link (s : State) (p : SluiceId) (f : Sluice → Sluice) : (s.updSluice p f).link = s.link := rfl
@[simp] theorem State.updSluice_host (s : State) (p : SluiceId) (f : Sluice → Sluice) : (s.updSluice p f).host = s.host := rfl
@[simp] theorem State.updSluice_lull3Enable (s : State) (p : SluiceId) (f : Sluice → Sluice) : (s.updSluice p f).lull3Enable = s.lull3Enable := rfl
@[simp] theorem State.updSluice_inLull3 (s : State) (p : SluiceId) (f : Sluice → Sluice) : (s.updSluice p f).inLull3 = s.inLull3 := rfl
@[simp] theorem State.updSluice_tc12At (s : State) (p : SluiceId) (f : Sluice → Sluice) : (s.updSluice p f).tc12At = s.tc12At := rfl
@[simp] theorem State.updSluice_parts (s : State) (p : SluiceId) (f : Sluice → Sluice) : (s.updSluice p f).parts = s.parts := rfl
@[simp] theorem State.updSluice_seqs (s : State) (p : SluiceId) (f : Sluice → Sluice) : (s.updSluice p f).seqs = s.seqs := rfl
@[simp] theorem State.updSluice_cores (s : State) (p : SluiceId) (f : Sluice → Sluice) : (s.updSluice p f).cores = s.cores := rfl
@[simp] theorem State.updSluice_wells (s : State) (p : SluiceId) (f : Sluice → Sluice) : (s.updSluice p f).wells = s.wells := rfl
@[simp] theorem State.updSluice_pumps (s : State) (p : SluiceId) (f : Sluice → Sluice) : (s.updSluice p f).pumps = s.pumps := rfl
@[simp] theorem State.updSluice_ports (s : State) (p : SluiceId) (f : Sluice → Sluice) : (s.updSluice p f).ports = s.ports := rfl
@[simp] theorem State.updSluice_fabric (s : State) (p : SluiceId) (f : Sluice → Sluice) : (s.updSluice p f).fabric = s.fabric := rfl
@[simp] theorem State.updSluice_axes (s : State) (p : SluiceId) (f : Sluice → Sluice) : (s.updSluice p f).axes = s.axes := rfl
@[simp] theorem State.updSluice_xfers (s : State) (p : SluiceId) (f : Sluice → Sluice) : (s.updSluice p f).xfers = s.xfers := rfl
@[simp] theorem State.updSluice_programs (s : State) (p : SluiceId) (f : Sluice → Sluice) : (s.updSluice p f).programs = s.programs := rfl
@[simp] theorem State.updSluice_baro (s : State) (p : SluiceId) (f : Sluice → Sluice) : (s.updSluice p f).baro = s.baro := rfl
@[simp] theorem State.updSluice_snd (s : State) (p : SluiceId) (f : Sluice → Sluice) : (s.updSluice p f).snd = s.snd := rfl
@[simp] theorem State.updSluice_cisTemp (s : State) (p : SluiceId) (f : Sluice → Sluice) : (s.updSluice p f).cisTemp = s.cisTemp := rfl
@[simp] theorem State.updSluice_cisRate (s : State) (p : SluiceId) (f : Sluice → Sluice) : (s.updSluice p f).cisRate = s.cisRate := rfl
@[simp] theorem State.updSluice_pkgOk (s : State) (p : SluiceId) (f : Sluice → Sluice) : (s.updSluice p f).pkgOk = s.pkgOk := rfl
@[simp] theorem State.updSluice_devEnergy (s : State) (p : SluiceId) (f : Sluice → Sluice) : (s.updSluice p f).devEnergy = s.devEnergy := rfl
@[simp] theorem State.updSluice_acts (s : State) (p : SluiceId) (f : Sluice → Sluice) : (s.updSluice p f).acts = s.acts := rfl
@[simp] theorem State.updSluice_readyAt (s : State) (p : SluiceId) (f : Sluice → Sluice) : (s.updSluice p f).readyAt = s.readyAt := rfl

/-! ### updField -/

@[simp] theorem State.updField_fields (s : State) (p : FieldId) (f : Field → Field) : (s.updField p f).fields = updAt s.fields p f := rfl
@[simp] theorem State.updField_pending (s : State) (p : FieldId) (f : Field → Field) : (s.updField p f).pending = s.pending := rfl
@[simp] theorem State.updField_timeNs (s : State) (p : FieldId) (f : Field → Field) : (s.updField p f).timeNs = s.timeNs := rfl
@[simp] theorem State.updField_freeCount (s : State) (p : FieldId) (f : Field → Field) : (s.updField p f).freeCount = s.freeCount := rfl
@[simp] theorem State.updField_nextItem (s : State) (p : FieldId) (f : Field → Field) : (s.updField p f).nextItem = s.nextItem := rfl
@[simp] theorem State.updField_power (s : State) (p : FieldId) (f : Field → Field) : (s.updField p f).power = s.power := rfl
@[simp] theorem State.updField_fuses (s : State) (p : FieldId) (f : Field → Field) : (s.updField p f).fuses = s.fuses := rfl
@[simp] theorem State.updField_boot (s : State) (p : FieldId) (f : Field → Field) : (s.updField p f).boot = s.boot := rfl
@[simp] theorem State.updField_loader (s : State) (p : FieldId) (f : Field → Field) : (s.updField p f).loader = s.loader := rfl
@[simp] theorem State.updField_image (s : State) (p : FieldId) (f : Field → Field) : (s.updField p f).image = s.image := rfl
@[simp] theorem State.updField_almanac (s : State) (p : FieldId) (f : Field → Field) : (s.updField p f).almanac = s.almanac := rfl
@[simp] theorem State.updField_ctl (s : State) (p : FieldId) (f : Field → Field) : (s.updField p f).ctl = s.ctl := rfl
@[simp] theorem State.updField_link (s : State) (p : FieldId) (f : Field → Field) : (s.updField p f).link = s.link := rfl
@[simp] theorem State.updField_host (s : State) (p : FieldId) (f : Field → Field) : (s.updField p f).host = s.host := rfl
@[simp] theorem State.updField_lull3Enable (s : State) (p : FieldId) (f : Field → Field) : (s.updField p f).lull3Enable = s.lull3Enable := rfl
@[simp] theorem State.updField_inLull3 (s : State) (p : FieldId) (f : Field → Field) : (s.updField p f).inLull3 = s.inLull3 := rfl
@[simp] theorem State.updField_tc12At (s : State) (p : FieldId) (f : Field → Field) : (s.updField p f).tc12At = s.tc12At := rfl
@[simp] theorem State.updField_parts (s : State) (p : FieldId) (f : Field → Field) : (s.updField p f).parts = s.parts := rfl
@[simp] theorem State.updField_seqs (s : State) (p : FieldId) (f : Field → Field) : (s.updField p f).seqs = s.seqs := rfl
@[simp] theorem State.updField_cores (s : State) (p : FieldId) (f : Field → Field) : (s.updField p f).cores = s.cores := rfl
@[simp] theorem State.updField_wells (s : State) (p : FieldId) (f : Field → Field) : (s.updField p f).wells = s.wells := rfl
@[simp] theorem State.updField_pumps (s : State) (p : FieldId) (f : Field → Field) : (s.updField p f).pumps = s.pumps := rfl
@[simp] theorem State.updField_ports (s : State) (p : FieldId) (f : Field → Field) : (s.updField p f).ports = s.ports := rfl
@[simp] theorem State.updField_fabric (s : State) (p : FieldId) (f : Field → Field) : (s.updField p f).fabric = s.fabric := rfl
@[simp] theorem State.updField_axes (s : State) (p : FieldId) (f : Field → Field) : (s.updField p f).axes = s.axes := rfl
@[simp] theorem State.updField_sluices (s : State) (p : FieldId) (f : Field → Field) : (s.updField p f).sluices = s.sluices := rfl
@[simp] theorem State.updField_xfers (s : State) (p : FieldId) (f : Field → Field) : (s.updField p f).xfers = s.xfers := rfl
@[simp] theorem State.updField_programs (s : State) (p : FieldId) (f : Field → Field) : (s.updField p f).programs = s.programs := rfl
@[simp] theorem State.updField_baro (s : State) (p : FieldId) (f : Field → Field) : (s.updField p f).baro = s.baro := rfl
@[simp] theorem State.updField_snd (s : State) (p : FieldId) (f : Field → Field) : (s.updField p f).snd = s.snd := rfl
@[simp] theorem State.updField_cisTemp (s : State) (p : FieldId) (f : Field → Field) : (s.updField p f).cisTemp = s.cisTemp := rfl
@[simp] theorem State.updField_cisRate (s : State) (p : FieldId) (f : Field → Field) : (s.updField p f).cisRate = s.cisRate := rfl
@[simp] theorem State.updField_pkgOk (s : State) (p : FieldId) (f : Field → Field) : (s.updField p f).pkgOk = s.pkgOk := rfl
@[simp] theorem State.updField_devEnergy (s : State) (p : FieldId) (f : Field → Field) : (s.updField p f).devEnergy = s.devEnergy := rfl
@[simp] theorem State.updField_acts (s : State) (p : FieldId) (f : Field → Field) : (s.updField p f).acts = s.acts := rfl
@[simp] theorem State.updField_readyAt (s : State) (p : FieldId) (f : Field → Field) : (s.updField p f).readyAt = s.readyAt := rfl

/-! ### msi -/

@[simp] theorem State.msi_pending (s : State) (fn : PciFn) (v : Nat) : (s.msi fn v).pending = s.pending := rfl
@[simp] theorem State.msi_timeNs (s : State) (fn : PciFn) (v : Nat) : (s.msi fn v).timeNs = s.timeNs := rfl
@[simp] theorem State.msi_freeCount (s : State) (fn : PciFn) (v : Nat) : (s.msi fn v).freeCount = s.freeCount := rfl
@[simp] theorem State.msi_nextItem (s : State) (fn : PciFn) (v : Nat) : (s.msi fn v).nextItem = s.nextItem := rfl
@[simp] theorem State.msi_power (s : State) (fn : PciFn) (v : Nat) : (s.msi fn v).power = s.power := rfl
@[simp] theorem State.msi_fields (s : State) (fn : PciFn) (v : Nat) : (s.msi fn v).fields = s.fields := rfl
@[simp] theorem State.msi_fuses (s : State) (fn : PciFn) (v : Nat) : (s.msi fn v).fuses = s.fuses := rfl
@[simp] theorem State.msi_boot (s : State) (fn : PciFn) (v : Nat) : (s.msi fn v).boot = s.boot := rfl
@[simp] theorem State.msi_loader (s : State) (fn : PciFn) (v : Nat) : (s.msi fn v).loader = s.loader := rfl
@[simp] theorem State.msi_image (s : State) (fn : PciFn) (v : Nat) : (s.msi fn v).image = s.image := rfl
@[simp] theorem State.msi_almanac (s : State) (fn : PciFn) (v : Nat) : (s.msi fn v).almanac = s.almanac := rfl
@[simp] theorem State.msi_ctl (s : State) (fn : PciFn) (v : Nat) : (s.msi fn v).ctl = s.ctl := rfl
@[simp] theorem State.msi_host (s : State) (fn : PciFn) (v : Nat) : (s.msi fn v).host = s.host := rfl
@[simp] theorem State.msi_lull3Enable (s : State) (fn : PciFn) (v : Nat) : (s.msi fn v).lull3Enable = s.lull3Enable := rfl
@[simp] theorem State.msi_inLull3 (s : State) (fn : PciFn) (v : Nat) : (s.msi fn v).inLull3 = s.inLull3 := rfl
@[simp] theorem State.msi_tc12At (s : State) (fn : PciFn) (v : Nat) : (s.msi fn v).tc12At = s.tc12At := rfl
@[simp] theorem State.msi_parts (s : State) (fn : PciFn) (v : Nat) : (s.msi fn v).parts = s.parts := rfl
@[simp] theorem State.msi_seqs (s : State) (fn : PciFn) (v : Nat) : (s.msi fn v).seqs = s.seqs := rfl
@[simp] theorem State.msi_cores (s : State) (fn : PciFn) (v : Nat) : (s.msi fn v).cores = s.cores := rfl
@[simp] theorem State.msi_wells (s : State) (fn : PciFn) (v : Nat) : (s.msi fn v).wells = s.wells := rfl
@[simp] theorem State.msi_pumps (s : State) (fn : PciFn) (v : Nat) : (s.msi fn v).pumps = s.pumps := rfl
@[simp] theorem State.msi_ports (s : State) (fn : PciFn) (v : Nat) : (s.msi fn v).ports = s.ports := rfl
@[simp] theorem State.msi_fabric (s : State) (fn : PciFn) (v : Nat) : (s.msi fn v).fabric = s.fabric := rfl
@[simp] theorem State.msi_axes (s : State) (fn : PciFn) (v : Nat) : (s.msi fn v).axes = s.axes := rfl
@[simp] theorem State.msi_sluices (s : State) (fn : PciFn) (v : Nat) : (s.msi fn v).sluices = s.sluices := rfl
@[simp] theorem State.msi_xfers (s : State) (fn : PciFn) (v : Nat) : (s.msi fn v).xfers = s.xfers := rfl
@[simp] theorem State.msi_programs (s : State) (fn : PciFn) (v : Nat) : (s.msi fn v).programs = s.programs := rfl
@[simp] theorem State.msi_baro (s : State) (fn : PciFn) (v : Nat) : (s.msi fn v).baro = s.baro := rfl
@[simp] theorem State.msi_snd (s : State) (fn : PciFn) (v : Nat) : (s.msi fn v).snd = s.snd := rfl
@[simp] theorem State.msi_cisTemp (s : State) (fn : PciFn) (v : Nat) : (s.msi fn v).cisTemp = s.cisTemp := rfl
@[simp] theorem State.msi_cisRate (s : State) (fn : PciFn) (v : Nat) : (s.msi fn v).cisRate = s.cisRate := rfl
@[simp] theorem State.msi_pkgOk (s : State) (fn : PciFn) (v : Nat) : (s.msi fn v).pkgOk = s.pkgOk := rfl
@[simp] theorem State.msi_devEnergy (s : State) (fn : PciFn) (v : Nat) : (s.msi fn v).devEnergy = s.devEnergy := rfl
@[simp] theorem State.msi_acts (s : State) (fn : PciFn) (v : Nat) : (s.msi fn v).acts = s.acts := rfl
@[simp] theorem State.msi_readyAt (s : State) (fn : PciFn) (v : Nat) : (s.msi fn v).readyAt = s.readyAt := rfl

@[simp] theorem State.msi_msi (s : State) (fn : PciFn) (v : Nat) : (s.msi fn v).link.msi = s.link.msi ++ [(fn, v)] := rfl

/-! ### event -/

@[simp] theorem State.event_pending (s : State) (code : W16) (u p sv : Byte) (inc : W32) (d : BitVec 224) : (s.event code u p sv inc d).pending = s.pending := rfl
@[simp] theorem State.event_timeNs (s : State) (code : W16) (u p sv : Byte) (inc : W32) (d : BitVec 224) : (s.event code u p sv inc d).timeNs = s.timeNs := rfl
@[simp] theorem State.event_freeCount (s : State) (code : W16) (u p sv : Byte) (inc : W32) (d : BitVec 224) : (s.event code u p sv inc d).freeCount = s.freeCount := rfl
@[simp] theorem State.event_nextItem (s : State) (code : W16) (u p sv : Byte) (inc : W32) (d : BitVec 224) : (s.event code u p sv inc d).nextItem = s.nextItem := rfl
@[simp] theorem State.event_power (s : State) (code : W16) (u p sv : Byte) (inc : W32) (d : BitVec 224) : (s.event code u p sv inc d).power = s.power := rfl
@[simp] theorem State.event_fields (s : State) (code : W16) (u p sv : Byte) (inc : W32) (d : BitVec 224) : (s.event code u p sv inc d).fields = s.fields := rfl
@[simp] theorem State.event_fuses (s : State) (code : W16) (u p sv : Byte) (inc : W32) (d : BitVec 224) : (s.event code u p sv inc d).fuses = s.fuses := rfl
@[simp] theorem State.event_boot (s : State) (code : W16) (u p sv : Byte) (inc : W32) (d : BitVec 224) : (s.event code u p sv inc d).boot = s.boot := rfl
@[simp] theorem State.event_loader (s : State) (code : W16) (u p sv : Byte) (inc : W32) (d : BitVec 224) : (s.event code u p sv inc d).loader = s.loader := rfl
@[simp] theorem State.event_image (s : State) (code : W16) (u p sv : Byte) (inc : W32) (d : BitVec 224) : (s.event code u p sv inc d).image = s.image := rfl
@[simp] theorem State.event_ctl (s : State) (code : W16) (u p sv : Byte) (inc : W32) (d : BitVec 224) : (s.event code u p sv inc d).ctl = s.ctl := rfl
@[simp] theorem State.event_link (s : State) (code : W16) (u p sv : Byte) (inc : W32) (d : BitVec 224) : (s.event code u p sv inc d).link = s.link := rfl
@[simp] theorem State.event_host (s : State) (code : W16) (u p sv : Byte) (inc : W32) (d : BitVec 224) : (s.event code u p sv inc d).host = s.host := rfl
@[simp] theorem State.event_lull3Enable (s : State) (code : W16) (u p sv : Byte) (inc : W32) (d : BitVec 224) : (s.event code u p sv inc d).lull3Enable = s.lull3Enable := rfl
@[simp] theorem State.event_inLull3 (s : State) (code : W16) (u p sv : Byte) (inc : W32) (d : BitVec 224) : (s.event code u p sv inc d).inLull3 = s.inLull3 := rfl
@[simp] theorem State.event_tc12At (s : State) (code : W16) (u p sv : Byte) (inc : W32) (d : BitVec 224) : (s.event code u p sv inc d).tc12At = s.tc12At := rfl
@[simp] theorem State.event_parts (s : State) (code : W16) (u p sv : Byte) (inc : W32) (d : BitVec 224) : (s.event code u p sv inc d).parts = s.parts := rfl
@[simp] theorem State.event_seqs (s : State) (code : W16) (u p sv : Byte) (inc : W32) (d : BitVec 224) : (s.event code u p sv inc d).seqs = s.seqs := rfl
@[simp] theorem State.event_cores (s : State) (code : W16) (u p sv : Byte) (inc : W32) (d : BitVec 224) : (s.event code u p sv inc d).cores = s.cores := rfl
@[simp] theorem State.event_wells (s : State) (code : W16) (u p sv : Byte) (inc : W32) (d : BitVec 224) : (s.event code u p sv inc d).wells = s.wells := rfl
@[simp] theorem State.event_pumps (s : State) (code : W16) (u p sv : Byte) (inc : W32) (d : BitVec 224) : (s.event code u p sv inc d).pumps = s.pumps := rfl
@[simp] theorem State.event_ports (s : State) (code : W16) (u p sv : Byte) (inc : W32) (d : BitVec 224) : (s.event code u p sv inc d).ports = s.ports := rfl
@[simp] theorem State.event_fabric (s : State) (code : W16) (u p sv : Byte) (inc : W32) (d : BitVec 224) : (s.event code u p sv inc d).fabric = s.fabric := rfl
@[simp] theorem State.event_axes (s : State) (code : W16) (u p sv : Byte) (inc : W32) (d : BitVec 224) : (s.event code u p sv inc d).axes = s.axes := rfl
@[simp] theorem State.event_sluices (s : State) (code : W16) (u p sv : Byte) (inc : W32) (d : BitVec 224) : (s.event code u p sv inc d).sluices = s.sluices := rfl
@[simp] theorem State.event_xfers (s : State) (code : W16) (u p sv : Byte) (inc : W32) (d : BitVec 224) : (s.event code u p sv inc d).xfers = s.xfers := rfl
@[simp] theorem State.event_programs (s : State) (code : W16) (u p sv : Byte) (inc : W32) (d : BitVec 224) : (s.event code u p sv inc d).programs = s.programs := rfl
@[simp] theorem State.event_baro (s : State) (code : W16) (u p sv : Byte) (inc : W32) (d : BitVec 224) : (s.event code u p sv inc d).baro = s.baro := rfl
@[simp] theorem State.event_snd (s : State) (code : W16) (u p sv : Byte) (inc : W32) (d : BitVec 224) : (s.event code u p sv inc d).snd = s.snd := rfl
@[simp] theorem State.event_cisTemp (s : State) (code : W16) (u p sv : Byte) (inc : W32) (d : BitVec 224) : (s.event code u p sv inc d).cisTemp = s.cisTemp := rfl
@[simp] theorem State.event_cisRate (s : State) (code : W16) (u p sv : Byte) (inc : W32) (d : BitVec 224) : (s.event code u p sv inc d).cisRate = s.cisRate := rfl
@[simp] theorem State.event_pkgOk (s : State) (code : W16) (u p sv : Byte) (inc : W32) (d : BitVec 224) : (s.event code u p sv inc d).pkgOk = s.pkgOk := rfl
@[simp] theorem State.event_devEnergy (s : State) (code : W16) (u p sv : Byte) (inc : W32) (d : BitVec 224) : (s.event code u p sv inc d).devEnergy = s.devEnergy := rfl
@[simp] theorem State.event_acts (s : State) (code : W16) (u p sv : Byte) (inc : W32) (d : BitVec 224) : (s.event code u p sv inc d).acts = s.acts := rfl
@[simp] theorem State.event_readyAt (s : State) (code : W16) (u p sv : Byte) (inc : W32) (d : BitVec 224) : (s.event code u p sv inc d).readyAt = s.readyAt := rfl

/-! ### incident -/

@[simp] theorem State.incident_pending (s : State) (src : Byte) (mask : Nat) (sv : Byte) : (s.incident src mask sv).pending = s.pending := rfl
@[simp] theorem State.incident_timeNs (s : State) (src : Byte) (mask : Nat) (sv : Byte) : (s.incident src mask sv).timeNs = s.timeNs := rfl
@[simp] theorem State.incident_freeCount (s : State) (src : Byte) (mask : Nat) (sv : Byte) : (s.incident src mask sv).freeCount = s.freeCount := rfl
@[simp] theorem State.incident_nextItem (s : State) (src : Byte) (mask : Nat) (sv : Byte) : (s.incident src mask sv).nextItem = s.nextItem := rfl
@[simp] theorem State.incident_power (s : State) (src : Byte) (mask : Nat) (sv : Byte) : (s.incident src mask sv).power = s.power := rfl
@[simp] theorem State.incident_fields (s : State) (src : Byte) (mask : Nat) (sv : Byte) : (s.incident src mask sv).fields = s.fields := rfl
@[simp] theorem State.incident_fuses (s : State) (src : Byte) (mask : Nat) (sv : Byte) : (s.incident src mask sv).fuses = s.fuses := rfl
@[simp] theorem State.incident_boot (s : State) (src : Byte) (mask : Nat) (sv : Byte) : (s.incident src mask sv).boot = s.boot := rfl
@[simp] theorem State.incident_loader (s : State) (src : Byte) (mask : Nat) (sv : Byte) : (s.incident src mask sv).loader = s.loader := rfl
@[simp] theorem State.incident_image (s : State) (src : Byte) (mask : Nat) (sv : Byte) : (s.incident src mask sv).image = s.image := rfl
@[simp] theorem State.incident_link (s : State) (src : Byte) (mask : Nat) (sv : Byte) : (s.incident src mask sv).link = s.link := rfl
@[simp] theorem State.incident_host (s : State) (src : Byte) (mask : Nat) (sv : Byte) : (s.incident src mask sv).host = s.host := rfl
@[simp] theorem State.incident_lull3Enable (s : State) (src : Byte) (mask : Nat) (sv : Byte) : (s.incident src mask sv).lull3Enable = s.lull3Enable := rfl
@[simp] theorem State.incident_inLull3 (s : State) (src : Byte) (mask : Nat) (sv : Byte) : (s.incident src mask sv).inLull3 = s.inLull3 := rfl
@[simp] theorem State.incident_tc12At (s : State) (src : Byte) (mask : Nat) (sv : Byte) : (s.incident src mask sv).tc12At = s.tc12At := rfl
@[simp] theorem State.incident_parts (s : State) (src : Byte) (mask : Nat) (sv : Byte) : (s.incident src mask sv).parts = s.parts := rfl
@[simp] theorem State.incident_seqs (s : State) (src : Byte) (mask : Nat) (sv : Byte) : (s.incident src mask sv).seqs = s.seqs := rfl
@[simp] theorem State.incident_cores (s : State) (src : Byte) (mask : Nat) (sv : Byte) : (s.incident src mask sv).cores = s.cores := rfl
@[simp] theorem State.incident_wells (s : State) (src : Byte) (mask : Nat) (sv : Byte) : (s.incident src mask sv).wells = s.wells := rfl
@[simp] theorem State.incident_pumps (s : State) (src : Byte) (mask : Nat) (sv : Byte) : (s.incident src mask sv).pumps = s.pumps := rfl
@[simp] theorem State.incident_ports (s : State) (src : Byte) (mask : Nat) (sv : Byte) : (s.incident src mask sv).ports = s.ports := rfl
@[simp] theorem State.incident_fabric (s : State) (src : Byte) (mask : Nat) (sv : Byte) : (s.incident src mask sv).fabric = s.fabric := rfl
@[simp] theorem State.incident_axes (s : State) (src : Byte) (mask : Nat) (sv : Byte) : (s.incident src mask sv).axes = s.axes := rfl
@[simp] theorem State.incident_sluices (s : State) (src : Byte) (mask : Nat) (sv : Byte) : (s.incident src mask sv).sluices = s.sluices := rfl
@[simp] theorem State.incident_xfers (s : State) (src : Byte) (mask : Nat) (sv : Byte) : (s.incident src mask sv).xfers = s.xfers := rfl
@[simp] theorem State.incident_programs (s : State) (src : Byte) (mask : Nat) (sv : Byte) : (s.incident src mask sv).programs = s.programs := rfl
@[simp] theorem State.incident_baro (s : State) (src : Byte) (mask : Nat) (sv : Byte) : (s.incident src mask sv).baro = s.baro := rfl
@[simp] theorem State.incident_snd (s : State) (src : Byte) (mask : Nat) (sv : Byte) : (s.incident src mask sv).snd = s.snd := rfl
@[simp] theorem State.incident_cisTemp (s : State) (src : Byte) (mask : Nat) (sv : Byte) : (s.incident src mask sv).cisTemp = s.cisTemp := rfl
@[simp] theorem State.incident_cisRate (s : State) (src : Byte) (mask : Nat) (sv : Byte) : (s.incident src mask sv).cisRate = s.cisRate := rfl
@[simp] theorem State.incident_pkgOk (s : State) (src : Byte) (mask : Nat) (sv : Byte) : (s.incident src mask sv).pkgOk = s.pkgOk := rfl
@[simp] theorem State.incident_devEnergy (s : State) (src : Byte) (mask : Nat) (sv : Byte) : (s.incident src mask sv).devEnergy = s.devEnergy := rfl
@[simp] theorem State.incident_acts (s : State) (src : Byte) (mask : Nat) (sv : Byte) : (s.incident src mask sv).acts = s.acts := rfl
@[simp] theorem State.incident_readyAt (s : State) (src : Byte) (mask : Nat) (sv : Byte) : (s.incident src mask sv).readyAt = s.readyAt := rfl

/-! ### flushAlmanac -/

@[simp] theorem State.flushAlmanac_pending (s : State)  : (s.flushAlmanac).pending = s.pending := rfl
@[simp] theorem State.flushAlmanac_timeNs (s : State)  : (s.flushAlmanac).timeNs = s.timeNs := rfl
@[simp] theorem State.flushAlmanac_freeCount (s : State)  : (s.flushAlmanac).freeCount = s.freeCount := rfl
@[simp] theorem State.flushAlmanac_nextItem (s : State)  : (s.flushAlmanac).nextItem = s.nextItem := rfl
@[simp] theorem State.flushAlmanac_power (s : State)  : (s.flushAlmanac).power = s.power := rfl
@[simp] theorem State.flushAlmanac_fields (s : State)  : (s.flushAlmanac).fields = s.fields := rfl
@[simp] theorem State.flushAlmanac_fuses (s : State)  : (s.flushAlmanac).fuses = s.fuses := rfl
@[simp] theorem State.flushAlmanac_boot (s : State)  : (s.flushAlmanac).boot = s.boot := rfl
@[simp] theorem State.flushAlmanac_loader (s : State)  : (s.flushAlmanac).loader = s.loader := rfl
@[simp] theorem State.flushAlmanac_image (s : State)  : (s.flushAlmanac).image = s.image := rfl
@[simp] theorem State.flushAlmanac_ctl (s : State)  : (s.flushAlmanac).ctl = s.ctl := rfl
@[simp] theorem State.flushAlmanac_link (s : State)  : (s.flushAlmanac).link = s.link := rfl
@[simp] theorem State.flushAlmanac_host (s : State)  : (s.flushAlmanac).host = s.host := rfl
@[simp] theorem State.flushAlmanac_lull3Enable (s : State)  : (s.flushAlmanac).lull3Enable = s.lull3Enable := rfl
@[simp] theorem State.flushAlmanac_inLull3 (s : State)  : (s.flushAlmanac).inLull3 = s.inLull3 := rfl
@[simp] theorem State.flushAlmanac_tc12At (s : State)  : (s.flushAlmanac).tc12At = s.tc12At := rfl
@[simp] theorem State.flushAlmanac_parts (s : State)  : (s.flushAlmanac).parts = s.parts := rfl
@[simp] theorem State.flushAlmanac_seqs (s : State)  : (s.flushAlmanac).seqs = s.seqs := rfl
@[simp] theorem State.flushAlmanac_cores (s : State)  : (s.flushAlmanac).cores = s.cores := rfl
@[simp] theorem State.flushAlmanac_wells (s : State)  : (s.flushAlmanac).wells = s.wells := rfl
@[simp] theorem State.flushAlmanac_pumps (s : State)  : (s.flushAlmanac).pumps = s.pumps := rfl
@[simp] theorem State.flushAlmanac_ports (s : State)  : (s.flushAlmanac).ports = s.ports := rfl
@[simp] theorem State.flushAlmanac_fabric (s : State)  : (s.flushAlmanac).fabric = s.fabric := rfl
@[simp] theorem State.flushAlmanac_axes (s : State)  : (s.flushAlmanac).axes = s.axes := rfl
@[simp] theorem State.flushAlmanac_sluices (s : State)  : (s.flushAlmanac).sluices = s.sluices := rfl
@[simp] theorem State.flushAlmanac_xfers (s : State)  : (s.flushAlmanac).xfers = s.xfers := rfl
@[simp] theorem State.flushAlmanac_programs (s : State)  : (s.flushAlmanac).programs = s.programs := rfl
@[simp] theorem State.flushAlmanac_baro (s : State)  : (s.flushAlmanac).baro = s.baro := rfl
@[simp] theorem State.flushAlmanac_snd (s : State)  : (s.flushAlmanac).snd = s.snd := rfl
@[simp] theorem State.flushAlmanac_cisTemp (s : State)  : (s.flushAlmanac).cisTemp = s.cisTemp := rfl
@[simp] theorem State.flushAlmanac_cisRate (s : State)  : (s.flushAlmanac).cisRate = s.cisRate := rfl
@[simp] theorem State.flushAlmanac_pkgOk (s : State)  : (s.flushAlmanac).pkgOk = s.pkgOk := rfl
@[simp] theorem State.flushAlmanac_devEnergy (s : State)  : (s.flushAlmanac).devEnergy = s.devEnergy := rfl
@[simp] theorem State.flushAlmanac_acts (s : State)  : (s.flushAlmanac).acts = s.acts := rfl
@[simp] theorem State.flushAlmanac_readyAt (s : State)  : (s.flushAlmanac).readyAt = s.readyAt := rfl

/-! ### act -/

@[simp] theorem State.act_pending (s : State) (u p n : Nat) : (s.act u p n).pending = s.pending := rfl
@[simp] theorem State.act_timeNs (s : State) (u p n : Nat) : (s.act u p n).timeNs = s.timeNs := rfl
@[simp] theorem State.act_freeCount (s : State) (u p n : Nat) : (s.act u p n).freeCount = s.freeCount := rfl
@[simp] theorem State.act_nextItem (s : State) (u p n : Nat) : (s.act u p n).nextItem = s.nextItem := rfl
@[simp] theorem State.act_power (s : State) (u p n : Nat) : (s.act u p n).power = s.power := rfl
@[simp] theorem State.act_fields (s : State) (u p n : Nat) : (s.act u p n).fields = s.fields := rfl
@[simp] theorem State.act_fuses (s : State) (u p n : Nat) : (s.act u p n).fuses = s.fuses := rfl
@[simp] theorem State.act_boot (s : State) (u p n : Nat) : (s.act u p n).boot = s.boot := rfl
@[simp] theorem State.act_loader (s : State) (u p n : Nat) : (s.act u p n).loader = s.loader := rfl
@[simp] theorem State.act_image (s : State) (u p n : Nat) : (s.act u p n).image = s.image := rfl
@[simp] theorem State.act_almanac (s : State) (u p n : Nat) : (s.act u p n).almanac = s.almanac := rfl
@[simp] theorem State.act_ctl (s : State) (u p n : Nat) : (s.act u p n).ctl = s.ctl := rfl
@[simp] theorem State.act_link (s : State) (u p n : Nat) : (s.act u p n).link = s.link := rfl
@[simp] theorem State.act_host (s : State) (u p n : Nat) : (s.act u p n).host = s.host := rfl
@[simp] theorem State.act_lull3Enable (s : State) (u p n : Nat) : (s.act u p n).lull3Enable = s.lull3Enable := rfl
@[simp] theorem State.act_inLull3 (s : State) (u p n : Nat) : (s.act u p n).inLull3 = s.inLull3 := rfl
@[simp] theorem State.act_tc12At (s : State) (u p n : Nat) : (s.act u p n).tc12At = s.tc12At := rfl
@[simp] theorem State.act_parts (s : State) (u p n : Nat) : (s.act u p n).parts = s.parts := rfl
@[simp] theorem State.act_seqs (s : State) (u p n : Nat) : (s.act u p n).seqs = s.seqs := rfl
@[simp] theorem State.act_cores (s : State) (u p n : Nat) : (s.act u p n).cores = s.cores := rfl
@[simp] theorem State.act_wells (s : State) (u p n : Nat) : (s.act u p n).wells = s.wells := rfl
@[simp] theorem State.act_pumps (s : State) (u p n : Nat) : (s.act u p n).pumps = s.pumps := rfl
@[simp] theorem State.act_ports (s : State) (u p n : Nat) : (s.act u p n).ports = s.ports := rfl
@[simp] theorem State.act_fabric (s : State) (u p n : Nat) : (s.act u p n).fabric = s.fabric := rfl
@[simp] theorem State.act_axes (s : State) (u p n : Nat) : (s.act u p n).axes = s.axes := rfl
@[simp] theorem State.act_sluices (s : State) (u p n : Nat) : (s.act u p n).sluices = s.sluices := rfl
@[simp] theorem State.act_xfers (s : State) (u p n : Nat) : (s.act u p n).xfers = s.xfers := rfl
@[simp] theorem State.act_programs (s : State) (u p n : Nat) : (s.act u p n).programs = s.programs := rfl
@[simp] theorem State.act_baro (s : State) (u p n : Nat) : (s.act u p n).baro = s.baro := rfl
@[simp] theorem State.act_snd (s : State) (u p n : Nat) : (s.act u p n).snd = s.snd := rfl
@[simp] theorem State.act_cisTemp (s : State) (u p n : Nat) : (s.act u p n).cisTemp = s.cisTemp := rfl
@[simp] theorem State.act_cisRate (s : State) (u p n : Nat) : (s.act u p n).cisRate = s.cisRate := rfl
@[simp] theorem State.act_pkgOk (s : State) (u p n : Nat) : (s.act u p n).pkgOk = s.pkgOk := rfl
@[simp] theorem State.act_devEnergy (s : State) (u p n : Nat) : (s.act u p n).devEnergy = s.devEnergy := rfl
@[simp] theorem State.act_readyAt (s : State) (u p n : Nat) : (s.act u p n).readyAt = s.readyAt := rfl

/-! ### fresh -/

@[simp] theorem State.fresh_pending (s : State)  : (s.fresh.2).pending = s.pending := rfl
@[simp] theorem State.fresh_timeNs (s : State)  : (s.fresh.2).timeNs = s.timeNs := rfl
@[simp] theorem State.fresh_nextItem (s : State)  : (s.fresh.2).nextItem = s.nextItem := rfl
@[simp] theorem State.fresh_power (s : State)  : (s.fresh.2).power = s.power := rfl
@[simp] theorem State.fresh_fields (s : State)  : (s.fresh.2).fields = s.fields := rfl
@[simp] theorem State.fresh_fuses (s : State)  : (s.fresh.2).fuses = s.fuses := rfl
@[simp] theorem State.fresh_boot (s : State)  : (s.fresh.2).boot = s.boot := rfl
@[simp] theorem State.fresh_loader (s : State)  : (s.fresh.2).loader = s.loader := rfl
@[simp] theorem State.fresh_image (s : State)  : (s.fresh.2).image = s.image := rfl
@[simp] theorem State.fresh_almanac (s : State)  : (s.fresh.2).almanac = s.almanac := rfl
@[simp] theorem State.fresh_ctl (s : State)  : (s.fresh.2).ctl = s.ctl := rfl
@[simp] theorem State.fresh_link (s : State)  : (s.fresh.2).link = s.link := rfl
@[simp] theorem State.fresh_host (s : State)  : (s.fresh.2).host = s.host := rfl
@[simp] theorem State.fresh_lull3Enable (s : State)  : (s.fresh.2).lull3Enable = s.lull3Enable := rfl
@[simp] theorem State.fresh_inLull3 (s : State)  : (s.fresh.2).inLull3 = s.inLull3 := rfl
@[simp] theorem State.fresh_tc12At (s : State)  : (s.fresh.2).tc12At = s.tc12At := rfl
@[simp] theorem State.fresh_parts (s : State)  : (s.fresh.2).parts = s.parts := rfl
@[simp] theorem State.fresh_seqs (s : State)  : (s.fresh.2).seqs = s.seqs := rfl
@[simp] theorem State.fresh_cores (s : State)  : (s.fresh.2).cores = s.cores := rfl
@[simp] theorem State.fresh_wells (s : State)  : (s.fresh.2).wells = s.wells := rfl
@[simp] theorem State.fresh_pumps (s : State)  : (s.fresh.2).pumps = s.pumps := rfl
@[simp] theorem State.fresh_ports (s : State)  : (s.fresh.2).ports = s.ports := rfl
@[simp] theorem State.fresh_fabric (s : State)  : (s.fresh.2).fabric = s.fabric := rfl
@[simp] theorem State.fresh_axes (s : State)  : (s.fresh.2).axes = s.axes := rfl
@[simp] theorem State.fresh_sluices (s : State)  : (s.fresh.2).sluices = s.sluices := rfl
@[simp] theorem State.fresh_xfers (s : State)  : (s.fresh.2).xfers = s.xfers := rfl
@[simp] theorem State.fresh_programs (s : State)  : (s.fresh.2).programs = s.programs := rfl
@[simp] theorem State.fresh_baro (s : State)  : (s.fresh.2).baro = s.baro := rfl
@[simp] theorem State.fresh_snd (s : State)  : (s.fresh.2).snd = s.snd := rfl
@[simp] theorem State.fresh_cisTemp (s : State)  : (s.fresh.2).cisTemp = s.cisTemp := rfl
@[simp] theorem State.fresh_cisRate (s : State)  : (s.fresh.2).cisRate = s.cisRate := rfl
@[simp] theorem State.fresh_pkgOk (s : State)  : (s.fresh.2).pkgOk = s.pkgOk := rfl
@[simp] theorem State.fresh_devEnergy (s : State)  : (s.fresh.2).devEnergy = s.devEnergy := rfl
@[simp] theorem State.fresh_acts (s : State)  : (s.fresh.2).acts = s.acts := rfl
@[simp] theorem State.fresh_readyAt (s : State)  : (s.fresh.2).readyAt = s.readyAt := rfl

/-! ### newItem -/

@[simp] theorem State.newItem_pending (s : State)  : (s.newItem.2).pending = s.pending := rfl
@[simp] theorem State.newItem_timeNs (s : State)  : (s.newItem.2).timeNs = s.timeNs := rfl
@[simp] theorem State.newItem_freeCount (s : State)  : (s.newItem.2).freeCount = s.freeCount := rfl
@[simp] theorem State.newItem_power (s : State)  : (s.newItem.2).power = s.power := rfl
@[simp] theorem State.newItem_fields (s : State)  : (s.newItem.2).fields = s.fields := rfl
@[simp] theorem State.newItem_fuses (s : State)  : (s.newItem.2).fuses = s.fuses := rfl
@[simp] theorem State.newItem_boot (s : State)  : (s.newItem.2).boot = s.boot := rfl
@[simp] theorem State.newItem_loader (s : State)  : (s.newItem.2).loader = s.loader := rfl
@[simp] theorem State.newItem_image (s : State)  : (s.newItem.2).image = s.image := rfl
@[simp] theorem State.newItem_almanac (s : State)  : (s.newItem.2).almanac = s.almanac := rfl
@[simp] theorem State.newItem_ctl (s : State)  : (s.newItem.2).ctl = s.ctl := rfl
@[simp] theorem State.newItem_link (s : State)  : (s.newItem.2).link = s.link := rfl
@[simp] theorem State.newItem_host (s : State)  : (s.newItem.2).host = s.host := rfl
@[simp] theorem State.newItem_lull3Enable (s : State)  : (s.newItem.2).lull3Enable = s.lull3Enable := rfl
@[simp] theorem State.newItem_inLull3 (s : State)  : (s.newItem.2).inLull3 = s.inLull3 := rfl
@[simp] theorem State.newItem_tc12At (s : State)  : (s.newItem.2).tc12At = s.tc12At := rfl
@[simp] theorem State.newItem_parts (s : State)  : (s.newItem.2).parts = s.parts := rfl
@[simp] theorem State.newItem_seqs (s : State)  : (s.newItem.2).seqs = s.seqs := rfl
@[simp] theorem State.newItem_cores (s : State)  : (s.newItem.2).cores = s.cores := rfl
@[simp] theorem State.newItem_wells (s : State)  : (s.newItem.2).wells = s.wells := rfl
@[simp] theorem State.newItem_pumps (s : State)  : (s.newItem.2).pumps = s.pumps := rfl
@[simp] theorem State.newItem_ports (s : State)  : (s.newItem.2).ports = s.ports := rfl
@[simp] theorem State.newItem_fabric (s : State)  : (s.newItem.2).fabric = s.fabric := rfl
@[simp] theorem State.newItem_axes (s : State)  : (s.newItem.2).axes = s.axes := rfl
@[simp] theorem State.newItem_sluices (s : State)  : (s.newItem.2).sluices = s.sluices := rfl
@[simp] theorem State.newItem_xfers (s : State)  : (s.newItem.2).xfers = s.xfers := rfl
@[simp] theorem State.newItem_programs (s : State)  : (s.newItem.2).programs = s.programs := rfl
@[simp] theorem State.newItem_baro (s : State)  : (s.newItem.2).baro = s.baro := rfl
@[simp] theorem State.newItem_snd (s : State)  : (s.newItem.2).snd = s.snd := rfl
@[simp] theorem State.newItem_cisTemp (s : State)  : (s.newItem.2).cisTemp = s.cisTemp := rfl
@[simp] theorem State.newItem_cisRate (s : State)  : (s.newItem.2).cisRate = s.cisRate := rfl
@[simp] theorem State.newItem_pkgOk (s : State)  : (s.newItem.2).pkgOk = s.pkgOk := rfl
@[simp] theorem State.newItem_devEnergy (s : State)  : (s.newItem.2).devEnergy = s.devEnergy := rfl
@[simp] theorem State.newItem_acts (s : State)  : (s.newItem.2).acts = s.acts := rfl
@[simp] theorem State.newItem_readyAt (s : State)  : (s.newItem.2).readyAt = s.readyAt := rfl

/-! ### countAxis -/

@[simp] theorem State.countAxis_pending (s : State) (r : Record) : (s.countAxis r).pending = s.pending := by
  unfold State.countAxis; split <;> rfl
@[simp] theorem State.countAxis_timeNs (s : State) (r : Record) : (s.countAxis r).timeNs = s.timeNs := by
  unfold State.countAxis; split <;> rfl
@[simp] theorem State.countAxis_freeCount (s : State) (r : Record) : (s.countAxis r).freeCount = s.freeCount := by
  unfold State.countAxis; split <;> rfl
@[simp] theorem State.countAxis_nextItem (s : State) (r : Record) : (s.countAxis r).nextItem = s.nextItem := by
  unfold State.countAxis; split <;> rfl
@[simp] theorem State.countAxis_power (s : State) (r : Record) : (s.countAxis r).power = s.power := by
  unfold State.countAxis; split <;> rfl
@[simp] theorem State.countAxis_fields (s : State) (r : Record) : (s.countAxis r).fields = s.fields := by
  unfold State.countAxis; split <;> rfl
@[simp] theorem State.countAxis_fuses (s : State) (r : Record) : (s.countAxis r).fuses = s.fuses := by
  unfold State.countAxis; split <;> rfl
@[simp] theorem State.countAxis_boot (s : State) (r : Record) : (s.countAxis r).boot = s.boot := by
  unfold State.countAxis; split <;> rfl
@[simp] theorem State.countAxis_loader (s : State) (r : Record) : (s.countAxis r).loader = s.loader := by
  unfold State.countAxis; split <;> rfl
@[simp] theorem State.countAxis_image (s : State) (r : Record) : (s.countAxis r).image = s.image := by
  unfold State.countAxis; split <;> rfl
@[simp] theorem State.countAxis_almanac (s : State) (r : Record) : (s.countAxis r).almanac = s.almanac := by
  unfold State.countAxis; split <;> rfl
@[simp] theorem State.countAxis_ctl (s : State) (r : Record) : (s.countAxis r).ctl = s.ctl := by
  unfold State.countAxis; split <;> rfl
@[simp] theorem State.countAxis_link (s : State) (r : Record) : (s.countAxis r).link = s.link := by
  unfold State.countAxis; split <;> rfl
@[simp] theorem State.countAxis_host (s : State) (r : Record) : (s.countAxis r).host = s.host := by
  unfold State.countAxis; split <;> rfl
@[simp] theorem State.countAxis_lull3Enable (s : State) (r : Record) : (s.countAxis r).lull3Enable = s.lull3Enable := by
  unfold State.countAxis; split <;> rfl
@[simp] theorem State.countAxis_inLull3 (s : State) (r : Record) : (s.countAxis r).inLull3 = s.inLull3 := by
  unfold State.countAxis; split <;> rfl
@[simp] theorem State.countAxis_tc12At (s : State) (r : Record) : (s.countAxis r).tc12At = s.tc12At := by
  unfold State.countAxis; split <;> rfl
@[simp] theorem State.countAxis_seqs (s : State) (r : Record) : (s.countAxis r).seqs = s.seqs := by
  unfold State.countAxis; split <;> rfl
@[simp] theorem State.countAxis_cores (s : State) (r : Record) : (s.countAxis r).cores = s.cores := by
  unfold State.countAxis; split <;> rfl
@[simp] theorem State.countAxis_wells (s : State) (r : Record) : (s.countAxis r).wells = s.wells := by
  unfold State.countAxis; split <;> rfl
@[simp] theorem State.countAxis_pumps (s : State) (r : Record) : (s.countAxis r).pumps = s.pumps := by
  unfold State.countAxis; split <;> rfl
@[simp] theorem State.countAxis_ports (s : State) (r : Record) : (s.countAxis r).ports = s.ports := by
  unfold State.countAxis; split <;> rfl
@[simp] theorem State.countAxis_fabric (s : State) (r : Record) : (s.countAxis r).fabric = s.fabric := by
  unfold State.countAxis; split <;> rfl
@[simp] theorem State.countAxis_sluices (s : State) (r : Record) : (s.countAxis r).sluices = s.sluices := by
  unfold State.countAxis; split <;> rfl
@[simp] theorem State.countAxis_xfers (s : State) (r : Record) : (s.countAxis r).xfers = s.xfers := by
  unfold State.countAxis; split <;> rfl
@[simp] theorem State.countAxis_programs (s : State) (r : Record) : (s.countAxis r).programs = s.programs := by
  unfold State.countAxis; split <;> rfl
@[simp] theorem State.countAxis_baro (s : State) (r : Record) : (s.countAxis r).baro = s.baro := by
  unfold State.countAxis; split <;> rfl
@[simp] theorem State.countAxis_snd (s : State) (r : Record) : (s.countAxis r).snd = s.snd := by
  unfold State.countAxis; split <;> rfl
@[simp] theorem State.countAxis_cisTemp (s : State) (r : Record) : (s.countAxis r).cisTemp = s.cisTemp := by
  unfold State.countAxis; split <;> rfl
@[simp] theorem State.countAxis_cisRate (s : State) (r : Record) : (s.countAxis r).cisRate = s.cisRate := by
  unfold State.countAxis; split <;> rfl
@[simp] theorem State.countAxis_pkgOk (s : State) (r : Record) : (s.countAxis r).pkgOk = s.pkgOk := by
  unfold State.countAxis; split <;> rfl
@[simp] theorem State.countAxis_devEnergy (s : State) (r : Record) : (s.countAxis r).devEnergy = s.devEnergy := by
  unfold State.countAxis; split <;> rfl
@[simp] theorem State.countAxis_acts (s : State) (r : Record) : (s.countAxis r).acts = s.acts := by
  unfold State.countAxis; split <;> rfl
@[simp] theorem State.countAxis_readyAt (s : State) (r : Record) : (s.countAxis r).readyAt = s.readyAt := by
  unfold State.countAxis; split <;> rfl
@[simp] theorem State.countAxis_parts (s : State) (r : Record) : (s.countAxis r).parts = s.parts := by
  unfold State.countAxis; split <;> rfl

/-! ### orphan -/

@[simp] theorem State.orphan_pending (s : State) (p : PartId) (r : Record) (w : List W64) : (s.orphan p r w).pending = s.pending :=
  State.countAxis_pending _ r
@[simp] theorem State.orphan_timeNs (s : State) (p : PartId) (r : Record) (w : List W64) : (s.orphan p r w).timeNs = s.timeNs :=
  State.countAxis_timeNs _ r
@[simp] theorem State.orphan_freeCount (s : State) (p : PartId) (r : Record) (w : List W64) : (s.orphan p r w).freeCount = s.freeCount :=
  State.countAxis_freeCount _ r
@[simp] theorem State.orphan_nextItem (s : State) (p : PartId) (r : Record) (w : List W64) : (s.orphan p r w).nextItem = s.nextItem :=
  State.countAxis_nextItem _ r
@[simp] theorem State.orphan_power (s : State) (p : PartId) (r : Record) (w : List W64) : (s.orphan p r w).power = s.power :=
  State.countAxis_power _ r
@[simp] theorem State.orphan_fields (s : State) (p : PartId) (r : Record) (w : List W64) : (s.orphan p r w).fields = s.fields :=
  State.countAxis_fields _ r
@[simp] theorem State.orphan_fuses (s : State) (p : PartId) (r : Record) (w : List W64) : (s.orphan p r w).fuses = s.fuses :=
  State.countAxis_fuses _ r
@[simp] theorem State.orphan_boot (s : State) (p : PartId) (r : Record) (w : List W64) : (s.orphan p r w).boot = s.boot :=
  State.countAxis_boot _ r
@[simp] theorem State.orphan_loader (s : State) (p : PartId) (r : Record) (w : List W64) : (s.orphan p r w).loader = s.loader :=
  State.countAxis_loader _ r
@[simp] theorem State.orphan_image (s : State) (p : PartId) (r : Record) (w : List W64) : (s.orphan p r w).image = s.image :=
  State.countAxis_image _ r
@[simp] theorem State.orphan_almanac (s : State) (p : PartId) (r : Record) (w : List W64) : (s.orphan p r w).almanac = s.almanac :=
  State.countAxis_almanac _ r
@[simp] theorem State.orphan_ctl (s : State) (p : PartId) (r : Record) (w : List W64) : (s.orphan p r w).ctl = s.ctl :=
  State.countAxis_ctl _ r
@[simp] theorem State.orphan_link (s : State) (p : PartId) (r : Record) (w : List W64) : (s.orphan p r w).link = s.link :=
  State.countAxis_link _ r
@[simp] theorem State.orphan_host (s : State) (p : PartId) (r : Record) (w : List W64) : (s.orphan p r w).host = s.host :=
  State.countAxis_host _ r
@[simp] theorem State.orphan_lull3Enable (s : State) (p : PartId) (r : Record) (w : List W64) : (s.orphan p r w).lull3Enable = s.lull3Enable :=
  State.countAxis_lull3Enable _ r
@[simp] theorem State.orphan_inLull3 (s : State) (p : PartId) (r : Record) (w : List W64) : (s.orphan p r w).inLull3 = s.inLull3 :=
  State.countAxis_inLull3 _ r
@[simp] theorem State.orphan_tc12At (s : State) (p : PartId) (r : Record) (w : List W64) : (s.orphan p r w).tc12At = s.tc12At :=
  State.countAxis_tc12At _ r
@[simp] theorem State.orphan_seqs (s : State) (p : PartId) (r : Record) (w : List W64) : (s.orphan p r w).seqs = s.seqs :=
  State.countAxis_seqs _ r
@[simp] theorem State.orphan_cores (s : State) (p : PartId) (r : Record) (w : List W64) : (s.orphan p r w).cores = s.cores :=
  State.countAxis_cores _ r
@[simp] theorem State.orphan_wells (s : State) (p : PartId) (r : Record) (w : List W64) : (s.orphan p r w).wells = s.wells :=
  State.countAxis_wells _ r
@[simp] theorem State.orphan_pumps (s : State) (p : PartId) (r : Record) (w : List W64) : (s.orphan p r w).pumps = s.pumps :=
  State.countAxis_pumps _ r
@[simp] theorem State.orphan_ports (s : State) (p : PartId) (r : Record) (w : List W64) : (s.orphan p r w).ports = s.ports :=
  State.countAxis_ports _ r
@[simp] theorem State.orphan_fabric (s : State) (p : PartId) (r : Record) (w : List W64) : (s.orphan p r w).fabric = s.fabric :=
  State.countAxis_fabric _ r
theorem State.orphan_axes (s : State) (p : PartId) (r : Record) (w : List W64) (h : r.axis = none) :
    (s.orphan p r w).axes = s.axes := by
  simp [State.orphan, State.countAxis, h]
@[simp] theorem State.orphan_sluices (s : State) (p : PartId) (r : Record) (w : List W64) : (s.orphan p r w).sluices = s.sluices :=
  State.countAxis_sluices _ r
@[simp] theorem State.orphan_xfers (s : State) (p : PartId) (r : Record) (w : List W64) : (s.orphan p r w).xfers = s.xfers :=
  State.countAxis_xfers _ r
@[simp] theorem State.orphan_programs (s : State) (p : PartId) (r : Record) (w : List W64) : (s.orphan p r w).programs = s.programs :=
  State.countAxis_programs _ r
@[simp] theorem State.orphan_baro (s : State) (p : PartId) (r : Record) (w : List W64) : (s.orphan p r w).baro = s.baro :=
  State.countAxis_baro _ r
@[simp] theorem State.orphan_snd (s : State) (p : PartId) (r : Record) (w : List W64) : (s.orphan p r w).snd = s.snd :=
  State.countAxis_snd _ r
@[simp] theorem State.orphan_cisTemp (s : State) (p : PartId) (r : Record) (w : List W64) : (s.orphan p r w).cisTemp = s.cisTemp :=
  State.countAxis_cisTemp _ r
@[simp] theorem State.orphan_cisRate (s : State) (p : PartId) (r : Record) (w : List W64) : (s.orphan p r w).cisRate = s.cisRate :=
  State.countAxis_cisRate _ r
@[simp] theorem State.orphan_pkgOk (s : State) (p : PartId) (r : Record) (w : List W64) : (s.orphan p r w).pkgOk = s.pkgOk :=
  State.countAxis_pkgOk _ r
@[simp] theorem State.orphan_devEnergy (s : State) (p : PartId) (r : Record) (w : List W64) : (s.orphan p r w).devEnergy = s.devEnergy :=
  State.countAxis_devEnergy _ r
@[simp] theorem State.orphan_acts (s : State) (p : PartId) (r : Record) (w : List W64) : (s.orphan p r w).acts = s.acts :=
  State.countAxis_acts _ r
@[simp] theorem State.orphan_readyAt (s : State) (p : PartId) (r : Record) (w : List W64) : (s.orphan p r w).readyAt = s.readyAt :=
  State.countAxis_readyAt _ r

/-! ### touch -/

@[simp] theorem State.touch_pending (s : State) (p : PartId) : (s.touch p).pending = s.pending := rfl
@[simp] theorem State.touch_timeNs (s : State) (p : PartId) : (s.touch p).timeNs = s.timeNs := rfl
@[simp] theorem State.touch_freeCount (s : State) (p : PartId) : (s.touch p).freeCount = s.freeCount := rfl
@[simp] theorem State.touch_nextItem (s : State) (p : PartId) : (s.touch p).nextItem = s.nextItem := rfl
@[simp] theorem State.touch_power (s : State) (p : PartId) : (s.touch p).power = s.power := rfl
@[simp] theorem State.touch_fields (s : State) (p : PartId) : (s.touch p).fields = s.fields := rfl
@[simp] theorem State.touch_fuses (s : State) (p : PartId) : (s.touch p).fuses = s.fuses := rfl
@[simp] theorem State.touch_boot (s : State) (p : PartId) : (s.touch p).boot = s.boot := rfl
@[simp] theorem State.touch_loader (s : State) (p : PartId) : (s.touch p).loader = s.loader := rfl
@[simp] theorem State.touch_image (s : State) (p : PartId) : (s.touch p).image = s.image := rfl
@[simp] theorem State.touch_almanac (s : State) (p : PartId) : (s.touch p).almanac = s.almanac := rfl
@[simp] theorem State.touch_ctl (s : State) (p : PartId) : (s.touch p).ctl = s.ctl := rfl
@[simp] theorem State.touch_link (s : State) (p : PartId) : (s.touch p).link = s.link := rfl
@[simp] theorem State.touch_host (s : State) (p : PartId) : (s.touch p).host = s.host := rfl
@[simp] theorem State.touch_lull3Enable (s : State) (p : PartId) : (s.touch p).lull3Enable = s.lull3Enable := rfl
@[simp] theorem State.touch_inLull3 (s : State) (p : PartId) : (s.touch p).inLull3 = s.inLull3 := rfl
@[simp] theorem State.touch_tc12At (s : State) (p : PartId) : (s.touch p).tc12At = s.tc12At := rfl
@[simp] theorem State.touch_seqs (s : State) (p : PartId) : (s.touch p).seqs = s.seqs := rfl
@[simp] theorem State.touch_cores (s : State) (p : PartId) : (s.touch p).cores = s.cores := rfl
@[simp] theorem State.touch_wells (s : State) (p : PartId) : (s.touch p).wells = s.wells := rfl
@[simp] theorem State.touch_pumps (s : State) (p : PartId) : (s.touch p).pumps = s.pumps := rfl
@[simp] theorem State.touch_ports (s : State) (p : PartId) : (s.touch p).ports = s.ports := rfl
@[simp] theorem State.touch_fabric (s : State) (p : PartId) : (s.touch p).fabric = s.fabric := rfl
@[simp] theorem State.touch_axes (s : State) (p : PartId) : (s.touch p).axes = s.axes := rfl
@[simp] theorem State.touch_sluices (s : State) (p : PartId) : (s.touch p).sluices = s.sluices := rfl
@[simp] theorem State.touch_xfers (s : State) (p : PartId) : (s.touch p).xfers = s.xfers := rfl
@[simp] theorem State.touch_programs (s : State) (p : PartId) : (s.touch p).programs = s.programs := rfl
@[simp] theorem State.touch_baro (s : State) (p : PartId) : (s.touch p).baro = s.baro := rfl
@[simp] theorem State.touch_snd (s : State) (p : PartId) : (s.touch p).snd = s.snd := rfl
@[simp] theorem State.touch_cisTemp (s : State) (p : PartId) : (s.touch p).cisTemp = s.cisTemp := rfl
@[simp] theorem State.touch_cisRate (s : State) (p : PartId) : (s.touch p).cisRate = s.cisRate := rfl
@[simp] theorem State.touch_pkgOk (s : State) (p : PartId) : (s.touch p).pkgOk = s.pkgOk := rfl
@[simp] theorem State.touch_devEnergy (s : State) (p : PartId) : (s.touch p).devEnergy = s.devEnergy := rfl
@[simp] theorem State.touch_acts (s : State) (p : PartId) : (s.touch p).acts = s.acts := rfl
@[simp] theorem State.touch_readyAt (s : State) (p : PartId) : (s.touch p).readyAt = s.readyAt := rfl

/-! ### raiseV0 -/

@[simp] theorem State.raiseV0_pending (s : State) (p : PartId) : (s.raiseV0 p).pending = s.pending := rfl
@[simp] theorem State.raiseV0_timeNs (s : State) (p : PartId) : (s.raiseV0 p).timeNs = s.timeNs := rfl
@[simp] theorem State.raiseV0_freeCount (s : State) (p : PartId) : (s.raiseV0 p).freeCount = s.freeCount := rfl
@[simp] theorem State.raiseV0_nextItem (s : State) (p : PartId) : (s.raiseV0 p).nextItem = s.nextItem := rfl
@[simp] theorem State.raiseV0_power (s : State) (p : PartId) : (s.raiseV0 p).power = s.power := rfl
@[simp] theorem State.raiseV0_fields (s : State) (p : PartId) : (s.raiseV0 p).fields = s.fields := rfl
@[simp] theorem State.raiseV0_fuses (s : State) (p : PartId) : (s.raiseV0 p).fuses = s.fuses := rfl
@[simp] theorem State.raiseV0_boot (s : State) (p : PartId) : (s.raiseV0 p).boot = s.boot := rfl
@[simp] theorem State.raiseV0_loader (s : State) (p : PartId) : (s.raiseV0 p).loader = s.loader := rfl
@[simp] theorem State.raiseV0_image (s : State) (p : PartId) : (s.raiseV0 p).image = s.image := rfl
@[simp] theorem State.raiseV0_almanac (s : State) (p : PartId) : (s.raiseV0 p).almanac = s.almanac := rfl
@[simp] theorem State.raiseV0_ctl (s : State) (p : PartId) : (s.raiseV0 p).ctl = s.ctl := rfl
@[simp] theorem State.raiseV0_host (s : State) (p : PartId) : (s.raiseV0 p).host = s.host := rfl
@[simp] theorem State.raiseV0_lull3Enable (s : State) (p : PartId) : (s.raiseV0 p).lull3Enable = s.lull3Enable := rfl
@[simp] theorem State.raiseV0_inLull3 (s : State) (p : PartId) : (s.raiseV0 p).inLull3 = s.inLull3 := rfl
@[simp] theorem State.raiseV0_tc12At (s : State) (p : PartId) : (s.raiseV0 p).tc12At = s.tc12At := rfl
@[simp] theorem State.raiseV0_seqs (s : State) (p : PartId) : (s.raiseV0 p).seqs = s.seqs := rfl
@[simp] theorem State.raiseV0_cores (s : State) (p : PartId) : (s.raiseV0 p).cores = s.cores := rfl
@[simp] theorem State.raiseV0_wells (s : State) (p : PartId) : (s.raiseV0 p).wells = s.wells := rfl
@[simp] theorem State.raiseV0_pumps (s : State) (p : PartId) : (s.raiseV0 p).pumps = s.pumps := rfl
@[simp] theorem State.raiseV0_ports (s : State) (p : PartId) : (s.raiseV0 p).ports = s.ports := rfl
@[simp] theorem State.raiseV0_fabric (s : State) (p : PartId) : (s.raiseV0 p).fabric = s.fabric := rfl
@[simp] theorem State.raiseV0_axes (s : State) (p : PartId) : (s.raiseV0 p).axes = s.axes := rfl
@[simp] theorem State.raiseV0_sluices (s : State) (p : PartId) : (s.raiseV0 p).sluices = s.sluices := rfl
@[simp] theorem State.raiseV0_xfers (s : State) (p : PartId) : (s.raiseV0 p).xfers = s.xfers := rfl
@[simp] theorem State.raiseV0_programs (s : State) (p : PartId) : (s.raiseV0 p).programs = s.programs := rfl
@[simp] theorem State.raiseV0_baro (s : State) (p : PartId) : (s.raiseV0 p).baro = s.baro := rfl
@[simp] theorem State.raiseV0_snd (s : State) (p : PartId) : (s.raiseV0 p).snd = s.snd := rfl
@[simp] theorem State.raiseV0_cisTemp (s : State) (p : PartId) : (s.raiseV0 p).cisTemp = s.cisTemp := rfl
@[simp] theorem State.raiseV0_cisRate (s : State) (p : PartId) : (s.raiseV0 p).cisRate = s.cisRate := rfl
@[simp] theorem State.raiseV0_pkgOk (s : State) (p : PartId) : (s.raiseV0 p).pkgOk = s.pkgOk := rfl
@[simp] theorem State.raiseV0_devEnergy (s : State) (p : PartId) : (s.raiseV0 p).devEnergy = s.devEnergy := rfl
@[simp] theorem State.raiseV0_acts (s : State) (p : PartId) : (s.raiseV0 p).acts = s.acts := rfl
@[simp] theorem State.raiseV0_readyAt (s : State) (p : PartId) : (s.raiseV0 p).readyAt = s.readyAt := rfl

end Sys2Proof.Machine
end

