-- ==== Sys2Proof/Laws/Fixed.lean ====
section
/-! SUPPORT. What no operation changes: the fuses, the queue of waiting commands, the time and the bytes of the image slot.
Commands that change one of them do it in their own meaning (03 R60 to R62, R69, R70; 02 R33). -/

namespace Sys2Proof.Machine

/-- The parts of State that shared operations leave alone. -/
def State.fixed (s : State) : Fuses × List Instr × Nat × Memory × Bool :=
  (s.fuses, s.pending, s.timeNs, s.loader.slot, s.loader.slotValid)

@[simp] theorem State.fixed_mk x0 x1 x2 x3 x4 x5 x6 x7 x8 x9 x10 x11 x12 x13 x14 x15 x16 x17 x18 x19 x20 x21 x22 x23 x24 x25 x26 x27 x28 x29 x30 x31 x32 x33 x34 x35 :
    (State.mk x0 x1 x2 x3 x4 x5 x6 x7 x8 x9 x10 x11 x12 x13 x14 x15 x16 x17 x18 x19 x20 x21 x22 x23 x24 x25 x26 x27 x28 x29 x30 x31 x32 x33 x34 x35).fixed = (x6, x0, x1, x8.slot, x8.slotValid) := rfl

@[simp] theorem State.fixed_fold (s : State) : (s.fuses, s.pending, s.timeNs, s.loader.slot, s.loader.slotValid) = s.fixed := rfl

@[simp] theorem State.fixed_ite (c : Prop) [Decidable c] (a b : State) :
    (if c then a else b).fixed = if c then a.fixed else b.fixed := by
  split <;> rfl

@[simp] theorem State.over_fixed {α : Type} (l : List α) (f : State → α → State) (h : ∀ s x, (f s x).fixed = s.fixed) (s : State) :
    (s.over l f).fixed = s.fixed := State.over_keeps State.fixed l f h s

@[simp] theorem State.iff_fixed (b : Bool) (f : State → State) (h : ∀ s, (f s).fixed = s.fixed) (s : State) :
    (s.iff b f).fixed = s.fixed := State.iff_keeps State.fixed b f h s

@[simp] theorem State.foldl_fixed {α : Type} (f : State → α → State) (h : ∀ s x, (f s x).fixed = s.fixed) (l : List α)
    (s : State) : (l.foldl f s).fixed = s.fixed := State.over_keeps State.fixed l f h s

theorem State.snd_ite {α : Type} (c : Prop) [Decidable c] (a b : α × State) :
    (if c then a else b).2 = if c then a.2 else b.2 := by
  split <;> rfl

@[simp] theorem State.updPart_fixed (s : State) (p : PartId) (f : Partition → Partition) :
    (s.updPart p f).fixed = s.fixed := by
  rfl

@[simp] theorem State.updSeq_fixed (s : State) (p : SeqId) (f : Sequencer → Sequencer) :
    (s.updSeq p f).fixed = s.fixed := by
  rfl

@[simp] theorem State.updCore_fixed (s : State) (p : CoreId) (f : Core → Core) : (s.updCore p f).fixed = s.fixed := by
  rfl

@[simp] theorem State.updWell_fixed (s : State) (p : WellId) (f : MemCtl → MemCtl) :
    (s.updWell p f).fixed = s.fixed := by
  rfl

@[simp] theorem State.updPump_fixed (s : State) (p : PumpId) (f : Pump → Pump) : (s.updPump p f).fixed = s.fixed := by
  rfl

@[simp] theorem State.updPort_fixed (s : State) (p : PortId) (f : Port → Port) : (s.updPort p f).fixed = s.fixed := by
  rfl

@[simp] theorem State.updAxis_fixed (s : State) (p : AxisId) (f : AxisEngine → AxisEngine) :
    (s.updAxis p f).fixed = s.fixed := by
  rfl

@[simp] theorem State.updSluice_fixed (s : State) (p : SluiceId) (f : Sluice → Sluice) :
    (s.updSluice p f).fixed = s.fixed := by
  rfl

@[simp] theorem State.updField_fixed (s : State) (p : FieldId) (f : Field → Field) :
    (s.updField p f).fixed = s.fixed := by
  rfl

@[simp] theorem State.updMem_fixed (s : State) (u : MemUnit) (f : MemCtl → MemCtl) :
    (s.updMem u f).fixed = s.fixed := by
  cases u <;> rfl

@[simp] theorem State.msi_fixed (s : State) (fn : PciFn) (v : Nat) : (State.msi s fn v).fixed = s.fixed := by
  simp [State.msi]

@[simp] theorem State.act_fixed (s : State) (unit p n : Nat) : (State.act s unit p n).fixed = s.fixed := by
  simp [State.act]

@[simp] theorem State.meter_fixed (s : State) (p : PartId) (k : Fin 14) (n : Nat) :
    (State.meter s p k n).fixed = s.fixed := by
  simp [State.meter]

@[simp] theorem State.fresh_fixed (s : State) : (State.fresh s).2.fixed = s.fixed := by
  simp [State.fresh]

@[simp] theorem State.newItem_fixed (s : State) : (State.newItem s).2.fixed = s.fixed := by
  simp [State.newItem]

@[simp] theorem State.event_fixed (s : State) (code : W16) (unit part severity : Byte) (incident : W32)
    (detail : BitVec 224) :
    (State.event s code unit part severity incident detail).fixed = s.fixed := by
  simp [State.event]

@[simp] theorem State.flushAlmanac_fixed (s : State) : (State.flushAlmanac s).fixed = s.fixed := by
  simp [State.flushAlmanac]

@[simp] theorem State.incident_fixed (s : State) (source : Byte) (mask : Nat) (severity : Byte) :
    (State.incident s source mask severity).fixed = s.fixed := by
  simp [State.incident]

@[simp] theorem State.evidence_fixed (s : State) (part : Nat) (k : Fin 11) (n : Nat) :
    (State.evidence s part k n).fixed = s.fixed := by
  unfold State.evidence; (repeat' split) <;> simp

@[simp] theorem State.baroOut_fixed (s : State) (part : Nat) (out : Bool) :
    (State.baroOut s part out).fixed = s.fixed := by
  unfold State.baroOut; (repeat' split) <;> simp

@[simp] theorem State.raiseV0_fixed (s : State) (p : PartId) : (State.raiseV0 s p).fixed = s.fixed := by
  simp [State.raiseV0]

@[simp] theorem State.raiseCtr_fixed (s : State) (c : CoreId) (n : CtrId) (ok : Bool) :
    (State.raiseCtr s c n ok).fixed = s.fixed := by
  simp [State.raiseCtr]

@[simp] theorem State.raiseNamed_fixed (s : State) (core ctr : Nat) (ok : Bool) :
    (State.raiseNamed s core ctr ok).fixed = s.fixed := by
  unfold State.raiseNamed; (repeat' split) <;> simp

@[simp] theorem State.countAxis_fixed (s : State) (r : Record) : (s.countAxis r).fixed = s.fixed := by
  unfold State.countAxis; split <;> rfl

@[simp] theorem State.written_fixed (s : State) (r : Record) : (s.written r).fixed = s.fixed := by
  unfold State.written; split <;> simp [State.raiseCtr]

@[simp] theorem State.writeRing_fixed (s : State) (p : PartId) (r : Record) (v0 : Bool) :
    (State.writeRing s p r v0).fixed = s.fixed := by
  simp [State.writeRing]

@[simp] theorem State.orphan_fixed (s : State) (p : PartId) (r : Record) (words : List W64) :
    (s.orphan p r words).fixed = s.fixed := (State.countAxis_fixed _ r).trans rfl

@[simp] theorem State.touch_fixed (s : State) (p : PartId) : (State.touch s p).fixed = s.fixed := by
  simp [State.touch]

@[simp] theorem State.post_fixed (s0 : State) (p : PartId) (r : Record) (v0 : Bool) :
    (State.post s0 p r v0).fixed = s0.fixed := by
  simp [State.post]

@[simp] theorem State.flushHeld_fixed (s : State) (p : PartId) (k : Nat) :
    (State.flushHeld s p k).fixed = s.fixed := by
  induction k generalizing s with
  | zero => rfl
  | succ k ih => unfold State.flushHeld; dsimp only; (repeat' split) <;> simp [ih]

@[simp] theorem State.setPart_fixed (s : State) (p : PartId) (st : PartState) :
    (State.setPart s p st).fixed = s.fixed := by
  simp [State.setPart]

@[simp] theorem State.writeUsage_fixed (s : State) (p : PartId) (u : UsageRecord) :
    (State.writeUsage s p u).fixed = s.fixed := by
  simp [State.writeUsage]

@[simp] theorem State.usage_fixed (s : State) (p : PartId) (reason : Nat) :
    (State.usage s p reason).fixed = s.fixed := by
  simp [State.usage]

@[simp] theorem State.flushUsage_fixed (s : State) (p : PartId) (k : Nat) :
    (State.flushUsage s p k).fixed = s.fixed := by
  induction k generalizing s with
  | zero => rfl
  | succ k ih => unfold State.flushUsage; dsimp only; (repeat' split) <;> simp [ih]

@[simp] theorem State.report_fixed (s : State) (master : Byte) (offset : Nat) (o : OutcomeCode) (stale : Bool)
    (window : Option PartId) :
    (State.report s master offset o stale window).fixed = s.fixed := by
  unfold State.report; (repeat' split) <;> simp

@[simp] theorem State.deviceStop_fixed (s : State) (p : PartId) (cause : Byte) :
    (State.deviceStop s p cause).fixed = s.fixed := by
  simp [State.deviceStop]

@[simp] theorem State.atReg_fixed (s : State) (off : Nat) (f : State → State) (h : ∀ s, (f s).fixed = s.fixed) :
    (s.atReg off f).fixed = s.fixed := State.iff_fixed _ f h s

@[simp] theorem State.updFlags_fixed (s : State) (r : FlagReg) (f : Flags → Flags) :
    (s.updFlags r f).fixed = s.fixed := by
  cases r <;> rfl

@[simp] theorem State.itemFlags_fixed (s old : State) (n : Nat) : (State.itemFlags s old n).fixed = s.fixed := by
  simp [State.itemFlags]

@[simp] theorem State.logUe_fixed (s : State) (u : MemUnit) (a : Nat) (src : ReadSource) :
    (State.logUe s u a src).fixed = s.fixed := by
  simp [State.logUe]

@[simp] theorem State.stewardRemap_fixed (s : State) (u : MemUnit) (k : Nat) :
    (State.stewardRemap s u k).fixed = s.fixed := by
  simp [State.stewardRemap]

@[simp] theorem State.corrected_fixed (s : State) (u : MemUnit) (a : Nat) (writeBack : Bool) :
    (State.corrected s u a writeBack).fixed = s.fixed := by
  simp [State.corrected]

@[simp] theorem State.readSector_fixed (s : State) (u : MemUnit) (a : Nat) (src : ReadSource) (extra : List Nat)
    (onDie : Nat) :
    (State.readSector s u a src extra onDie).2.fixed = s.fixed := by
  unfold State.readSector; dsimp only; (repeat' split) <;> simp

@[simp] theorem State.readBlock_fixed (s : State) (l : Loc) (src : ReadSource) :
    (State.readBlock s l src).2.fixed = s.fixed := by
  unfold State.readBlock; (repeat' split) <;> simp

@[simp] theorem State.writeBlock_fixed (s : State) (l : Loc) (data : List Byte) (poison : Bool) :
    (s.writeBlock l data poison).fixed = s.fixed := by
  cases l <;> simp [State.writeBlock]

@[simp] theorem State.addSector_fixed (s : State) (w : WellId) (a : Nat) (op : Nat) (data : List Byte)
    (poison ieee : Bool) :
    (State.addSector s w a op data poison ieee).2.fixed = s.fixed := by
  unfold State.addSector; dsimp only; (repeat' split) <;> simp

@[simp] theorem State.noteTc12_fixed (s : State) (k : Packet) : (State.noteTc12 s k).fixed = s.fixed := by
  simp [State.noteTc12]

@[simp] theorem State.sendFlits_fixed (s : State) (n : PortId) (e : HeldPkt) (f : Nat) :
    (State.sendFlits s n e f).fixed = s.fixed := by
  simp [State.sendFlits]

@[simp] theorem State.slots_fixed (s : State) (n : PortId) (k : Nat) : (s.slots n k).fixed = s.fixed := by
  induction k generalizing s with
  | zero => rfl
  | succ k ih => unfold State.slots; split <;> simp [ih]

@[simp] theorem State.flushPort_fixed (s : State) (n : PortId) : (State.flushPort s n).fixed = s.fixed := by
  simp [State.flushPort]

@[simp] theorem State.toPort_fixed (s : State) (n : PortId) (v : VcId) (k : Packet) (via : Option (PortId × VcId)) :
    (State.toPort s n v k via).fixed = s.fixed := by
  unfold State.toPort; dsimp only; split <;> simp

@[simp] theorem State.refill_fixed (s : State) (n : PortId) : (State.refill s n).fixed = s.fixed := by
  simp [State.refill]

@[simp] theorem State.tc0_fixed (s : State) (n : PortId) (v : VcId) (k : Packet) : (State.tc0 s n v k).fixed = s.fixed := by
  simp [State.tc0]

@[simp] theorem State.routeDrop_fixed (s : State) (n : Option PortId) : (State.routeDrop s n).fixed = s.fixed := by
  simp [State.routeDrop]

@[simp] theorem State.launchOn_fixed (s : State) (k : Packet) : (State.launchOn s k).2.fixed = s.fixed := by
  unfold State.launchOn; (repeat' split) <;> simp

@[simp] theorem State.launch_fixed (s : State) (k : Packet) : (State.launch s k).fixed = s.fixed := by
  simp [State.launch]

@[simp] theorem State.tc0Drain_fixed (s : State) (n : PortId) (k : Nat) : (State.tc0Drain s n k).fixed = s.fixed := by
  induction k generalizing s with
  | zero => rfl
  | succ k ih => unfold State.tc0Drain; dsimp only; (repeat' split) <;> simp [ih]

@[simp] theorem State.updXfer_fixed (s : State) (id : Nat) (f : Xfer → Xfer) : (s.updXfer id f).fixed = s.fixed := by
  rfl

@[simp] theorem State.readView_fixed (s : State) (p : PartId) (off : Nat) (k : Nat) :
    (State.readView s p off k).2.fixed = s.fixed := by
  induction k generalizing s off with
  | zero => rfl
  | succ k ih => unfold State.readView; dsimp only; (repeat' split) <;> simp [ih]

@[simp] theorem State.actWells_fixed (s : State) (p : PartId) (off n : Nat) (k : Nat) :
    (State.actWells s p off n k).fixed = s.fixed := by
  induction k generalizing s off n with
  | zero => rfl
  | succ k ih => unfold State.actWells; dsimp only; (repeat' split) <;> simp [ih]

@[simp] theorem State.meterPump_fixed (s : State) (u : PumpId) (p : PartId) (k : Fin 14) (n : Nat) :
    (State.meterPump s u p k n).fixed = s.fixed := by
  simp [State.meterPump]

@[simp] theorem State.meterMove_fixed (s : State) (p : PartId) (off n : Nat) (write : Bool) :
    (State.meterMove s p off n write).fixed = s.fixed := by
  simp [State.meterMove]

@[simp] theorem State.writeView_fixed (s : State) (p : PartId) (off : Nat) (data : List Byte) (poison : Bool)
    (k : Nat) :
    (State.writeView s p off data poison k).fixed = s.fixed := by
  induction k generalizing s off data with
  | zero => rfl
  | succ k ih => unfold State.writeView; dsimp only; (repeat' split) <;> simp [ih]

@[simp] theorem State.freeLoc_fixed (s : State) (l : Loc) : (State.freeLoc s l).fixed = s.fixed := by
  unfold State.freeLoc; dsimp only; (repeat' split) <;> simp

@[simp] theorem State.freeView_fixed (s : State) (p : PartId) (off k : Nat) : (s.freeView p off k).fixed = s.fixed := by
  induction k generalizing s off with
  | zero => rfl
  | succ k ih => unfold State.freeView; (repeat' split) <;> simp [ih]

@[simp] theorem State.patchBlock_fixed (s : State) (l : Loc) (at_ : Nat) (data : List Byte) (poison : Bool)
    (src : ReadSource) :
    (State.patchBlock s l at_ data poison src).fixed = s.fixed := by
  simp [State.patchBlock]

@[simp] theorem State.patchView_fixed (s : State) (p : PartId) (off : Nat) (data : List Byte) (poison : Bool)
    (src : ReadSource) (k : Nat) :
    (State.patchView s p off data poison src k).fixed = s.fixed := by
  induction k generalizing s off data with
  | zero => rfl
  | succ k ih => unfold State.patchView; dsimp only; (repeat' split) <;> simp [ih]

@[simp] theorem State.viewBytes_fixed (s : State) (p : PartId) (off len : Nat) :
    (State.viewBytes s p off len).2.fixed = s.fixed := by
  simp [State.viewBytes]

@[simp] theorem State.updFabric_fixed (s : State) (f : Fabric → Fabric) : (s.updFabric f).fixed = s.fixed := by
  rfl

@[simp] theorem State.putSrc_fixed (s : State) (k : Nat) (x : SrcStream) : (State.putSrc s k x).fixed = s.fixed := by
  simp [State.putSrc]

@[simp] theorem State.putDst_fixed (s : State) (k : Nat) (x : DstStream) : (State.putDst s k x).fixed = s.fixed := by
  simp [State.putDst]

@[simp] theorem State.sendCopy_fixed (s : State) (key : Nat) (o : OutPacket) :
    (State.sendCopy s key o).fixed = s.fixed := by
  unfold State.sendCopy; dsimp only; (repeat' split) <;> simp

@[simp] theorem State.unstall_fixed (s : State) (key : Nat) (k : Nat) : (State.unstall s key k).fixed = s.fixed := by
  induction k generalizing s with
  | zero => rfl
  | succ k ih => unfold State.unstall; dsimp only; (repeat' split) <;> simp [ih]

@[simp] theorem State.enqueue_fixed (s : State) (o : OutPacket) : (State.enqueue s o).fixed = s.fixed := by
  simp [State.enqueue]

@[simp] theorem State.inject_fixed (s : State) (k : Packet) (item : ItemRef) (from_ : Option W64) :
    (State.inject s k item from_).fixed = s.fixed := by
  simp [State.inject]

@[simp] theorem State.sendLoose_fixed (s : State) (k : Packet) : (State.sendLoose s k).fixed = s.fixed := by
  simp [State.sendLoose]

@[simp] theorem State.reread_fixed (s : State) (o : OutPacket) (host : Bool) :
    (State.reread s o host).2.fixed = s.fixed := by
  unfold State.reread; (repeat' split) <;> simp

@[simp] theorem State.countResend_fixed (s : State) (o : OutPacket) : (State.countResend s o).fixed = s.fixed := by
  unfold State.countResend; (repeat' split) <;> simp

@[simp] theorem State.poisonItem_fixed (s : State) (r : ItemRef) : (s.poisonItem r).fixed = s.fixed := by
  unfold State.poisonItem; split <;> simp

@[simp] theorem State.resend_fixed (s : State) (key : Nat) (o : OutPacket) : (State.resend s key o).fixed = s.fixed := by
  have h := State.reread_fixed s o (s.itemHost o.item)
  unfold State.resend; dsimp only
  split <;> split <;> simp_all

@[simp] theorem State.unlist_fixed (s : State) (key : Nat) (psn : W32) :
    (State.unlist s key psn).fixed = s.fixed := by
  simp [State.unlist]

@[simp] theorem State.resendOrdered_fixed (s : State) (key : Nat) (psn : W32) :
    (s.resendOrdered key psn).fixed = s.fixed := by
  refine State.over_keeps State.fixed _ _ (fun t o => ?_) s
  split <;> simp

@[simp] theorem State.nakTo_fixed (s : State) (k : Packet) (code : Nat) : (State.nakTo s k code).fixed = s.fixed := by
  simp [State.nakTo]

@[simp] theorem State.readSrc_fixed (s : State) (x : Xfer) (at_ n : Nat) :
    (State.readSrc s x at_ n).2.fixed = s.fixed := by
  unfold State.readSrc; dsimp only; (repeat' split) <;> simp

@[simp] theorem State.writePacketOf_fixed (s : State) (x : Xfer) (at_ n : Nat) :
    (State.writePacketOf s x at_ n).2.fixed = s.fixed := by
  simp [State.writePacketOf]

@[simp] theorem State.sendCut_fixed (s : State) (x : Xfer) (c : Nat × Nat) :
    (State.sendCut s x c).fixed = s.fixed := by
  simp [State.sendCut]

@[simp] theorem State.poisonLoc_fixed (s : State) (l : Loc) : (State.poisonLoc s l).fixed = s.fixed := by
  unfold State.poisonLoc; (repeat' split) <;> simp

@[simp] theorem State.poisonView_fixed (s : State) (p : PartId) (off k : Nat) :
    (State.poisonView s p off k).fixed = s.fixed := by
  induction k generalizing s off with
  | zero => rfl
  | succ k ih => unfold State.poisonView; (repeat' split) <;> simp [ih]

@[simp] theorem State.poisonUnread_fixed (s : State) (x : Xfer) : (State.poisonUnread s x).fixed = s.fixed := by
  unfold State.poisonUnread
  split
  · exact State.over_fixed _ _ (fun s o => by split <;> simp) s
  · rfl

@[simp] theorem State.startXfer_fixed (s : State) (x0 : Xfer) : (State.startXfer s x0).fixed = s.fixed := by
  unfold State.startXfer; dsimp only; split
  · rfl
  · (repeat' split) <;> simp

@[simp] theorem State.moveBlock_fixed (s : State) (x : Xfer) (i : Nat) : (State.moveBlock s x i).fixed = s.fixed := by
  unfold State.moveBlock; dsimp only; (repeat' split) <;> simp

@[simp] theorem State.moveLocal_fixed (s : State) (x : Xfer) : (State.moveLocal s x).fixed = s.fixed := by
  simp [State.moveLocal]

@[simp] theorem State.writeRingRecord_fixed (s : State) (x : Xfer) (r : Record) :
    (State.writeRingRecord s x r).fixed = s.fixed := by
  simp [State.writeRingRecord]

@[simp] theorem State.endXfer_fixed (s : State) (x : Xfer) (o : OutcomeCode) :
    (State.endXfer s x o).fixed = s.fixed := by
  unfold State.endXfer; (repeat' split) <;> simp

@[simp] theorem State.endXferFor_fixed (s : State) (x : Xfer) (o : OutcomeCode) :
    (State.endXferFor s x o).fixed = s.fixed := by
  simp [State.endXferFor]

@[simp] theorem State.completeXfer_fixed (s : State) (id : Nat) : (State.completeXfer s id).fixed = s.fixed := by
  unfold State.completeXfer; dsimp only; (repeat' split) <;> simp

@[simp] theorem State.settleXfer_fixed (s : State) (id : Nat) (o : OutcomeCode) (k : Packet) (from_ : Option W64) :
    (State.settleXfer s id o k from_).fixed = s.fixed := by
  unfold State.settleXfer; (repeat' split) <;> simp

@[simp] theorem State.retain_fixed (s : State) (f : FieldId) : (State.retain s f).fixed = s.fixed := by
  simp [State.retain]

@[simp] theorem State.unretain_fixed (s : State) (f : FieldId) : (State.unretain s f).fixed = s.fixed := by
  simp [State.unretain]

@[simp] theorem State.unrest_fixed (s : State) (u : MemUnit) : (State.unrest s u).fixed = s.fixed := by
  simp [State.unrest]

@[simp] theorem State.wakePump_fixed (s : State) (u : PumpId) : (State.wakePump s u).fixed = s.fixed := by
  simp [State.wakePump]

@[simp] theorem State.wakeTo_fixed (s : State) (p : PartId) (d : Nat) : (State.wakeTo s p d).fixed = s.fixed := by
  simp [State.wakeTo]

@[simp] theorem State.wake_fixed (s : State) (p : PartId) : (State.wake s p).fixed = s.fixed := by
  simp [State.wake]

@[simp] theorem State.wakeAccess_fixed (s : State) (off : Nat) : (State.wakeAccess s off).fixed = s.fixed := by
  unfold State.wakeAccess; dsimp only; (repeat' split) <;> simp

@[simp] theorem State.capDone_fixed (s : State) (p : PartId) (c : Capsule) (engine : Byte) (o : OutcomeCode)
    (detail : Nat) :
    (State.capDone s p c engine o detail).fixed = s.fixed := by
  simp [State.capDone]

@[simp] theorem State.capDoneBy_fixed (s : State) (p : PartId) (c : Capsule) (engine : Byte) (o : OutcomeCode)
    (detail core ctr : Nat) :
    (State.capDoneBy s p c engine o detail core ctr).fixed = s.fixed := by
  simp [State.capDoneBy]

@[simp] theorem State.capBad_fixed (s : State) (p : PartId) (c : Capsule) (d : Nat) :
    (State.capBad s p c d).fixed = s.fixed := by
  simp [State.capBad]

@[simp] theorem State.examine_fixed (s : State) (p : PartId) : (State.examine s p).2.fixed = s.fixed := by
  unfold State.examine; dsimp only; (repeat' split) <;> simp

@[simp] theorem State.takeCapsules_fixed (s : State) (p : PartId) (k : Nat) :
    (State.takeCapsules s p k).fixed = s.fixed := by
  induction k generalizing s with
  | zero => rfl
  | succ k ih => unfold State.takeCapsules; dsimp only; (repeat' split) <;> simp [ih]

@[simp] theorem State.capWrite_fixed (s : State) (p : PartId) (off : Nat) (data : List Byte) :
    (State.capWrite s p off data).fixed = s.fixed := by
  simp [State.capWrite]

@[simp] theorem State.flushAndTake_fixed (s : State) (p : PartId) : (State.flushAndTake s p).fixed = s.fixed := by
  simp [State.flushAndTake]

@[simp] theorem State.withCapsule_fixed (s : State) (p : PartId) (kind : Nat) (sel : Capsule → Bool) (f : State → Capsule → State)
    (h : ∀ s c, (f s c).fixed = s.fixed) : (s.withCapsule p kind sel f).fixed = s.fixed := by
  unfold State.withCapsule; split <;> simp [h]

@[simp] theorem State.refuseQueued_fixed (s : State) (p : PartId) : (State.refuseQueued s p).fixed = s.fixed := by
  simp [State.refuseQueued]

@[simp] theorem State.setGroup_fixed (s : State) (p : PartId) (g : Nat) (x : Group) :
    (State.setGroup s p g x).fixed = s.fixed := by
  simp [State.setGroup]

@[simp] theorem State.updGroup_fixed (s : State) (p : PartId) (g : Nat) (f : Group → Group) :
    (s.updGroup p g f).fixed = s.fixed := by
  rfl

@[simp] theorem State.updCmd_fixed (s : State) (p : PartId) (id : Nat) (f : PumpCmd → PumpCmd) :
    (s.updCmd p id f).fixed = s.fixed := by
  rfl

@[simp] theorem State.writeRecord_fixed (s : State) (p : PartId) (off : Nat) (r : Record) :
    (State.writeRecord s p off r).fixed = s.fixed := by
  simp [State.writeRecord]

@[simp] theorem State.endCmd_fixed (s : State) (p : PartId) (c : PumpCmd) (inc : W32) :
    (State.endCmd s p c inc).fixed = s.fixed := by
  simp [State.endCmd]

@[simp] theorem State.endGroup_fixed (s : State) (p : PartId) (id i : Nat) (o : OutcomeCode)
    (code params : Nat) (row : Option (List Nat)) (inc : W32) :
    (State.endGroup s p id i o code params row inc).fixed = s.fixed := by
  unfold State.endGroup; dsimp only; (repeat' split) <;> simp

@[simp] theorem State.unbusy_fixed (s : State) (p : PartId) (g : Nat) : (State.unbusy s p g).fixed = s.fixed := by
  simp [State.unbusy]

@[simp] theorem State.unorder_fixed (s : State) (p : PartId) (g : Nat) : (State.unorder s p g).fixed = s.fixed := by
  simp [State.unorder]

@[simp] theorem State.dropWaiting_fixed (s : State) (p : PartId) (id i : Nat) (o : OutcomeCode) (inc : W32) :
    (State.dropWaiting s p id i o inc).fixed = s.fixed := by
  unfold State.dropWaiting; (repeat' split) <;> simp

@[simp] theorem State.endWaiting_fixed (s : State) (p : PartId) (c : PumpCmd) (untriggered : Bool)
    (o : OutcomeCode) (inc : W32) :
    (State.endWaiting s p c untriggered o inc).fixed = s.fixed := by
  simp [State.endWaiting]

@[simp] theorem State.gateAll_fixed (s : State) (p : PartId) : (State.gateAll s p).fixed = s.fixed := by
  simp [State.gateAll]

@[simp] theorem State.latch_fixed (s : State) (p : PartId) (cause action : Nat) :
    (State.latch s p cause action).fixed = s.fixed := by
  simp [State.latch]

@[simp] theorem State.mismatch_fixed (s : State) (p : PartId) (g : Nat) (t : W32) :
    (State.mismatch s p g t).fixed = s.fixed := by
  simp [State.mismatch]

@[simp] theorem State.curveValue_fixed (s : State) (p : PartId) (off t : Nat) (sat : Bool) :
    (State.curveValue s p off t sat).2.fixed = s.fixed := by
  unfold State.curveValue; dsimp only; (repeat' split) <;> simp

@[simp] theorem State.evalRow_fixed (s : State) (p : PartId) (g : Nat) (t gScale : W32) :
    (s.evalRow p g t gScale).2.fixed = s.fixed := by
  unfold State.evalRow
  simp only [State.snd_ite]
  split
  · have h := State.curveValue_fixed s p (s.group p g).curveOff.toNat t.toNat (!s.ieee p)
    split <;> rename_i e <;> rw [e] at h <;> exact h
  · rfl

@[simp] theorem State.claimGroup_fixed (s : State) (p : PartId) (id i : Nat) :
    (s.claimGroup p id i).fixed = s.fixed := by
  unfold State.claimGroup
  split
  · rfl
  · rename_i c _
    have h := State.evalRow_fixed s p (c.first + i) c.t c.gScale
    dsimp only
    split <;> rename_i e <;> rw [e] at h <;> simpa using h

@[simp] theorem State.bindVerdict_fixed (s : State) (p : PartId) (id : Nat) (open_ : Bool) :
    (State.bindVerdict s p id open_).fixed = s.fixed := by
  unfold State.bindVerdict; (repeat' split) <;> simp

@[simp] theorem State.settleGroup_fixed (s : State) (p : PartId) (id i : Nat) (c : PumpCmd) :
    (State.settleGroup s p id i c).fixed = s.fixed := by
  unfold State.settleGroup; dsimp only; (repeat' split) <;> simp

@[simp] theorem State.checkGroup_fixed (s : State) (p : PartId) (id i : Nat) :
    (State.checkGroup s p id i).fixed = s.fixed := by
  unfold State.checkGroup; (repeat' split) <;> simp

@[simp] theorem State.fireCmd_fixed (s : State) (p : PartId) (id : Nat) : (State.fireCmd s p id).fixed = s.fixed := by
  unfold State.fireCmd; dsimp only; (repeat' split) <;> simp

@[simp] theorem State.tear_fixed (s : State) (u : PumpId) (w : Sweep) (o : OutcomeCode) (mixed : Bool) (inc : W32) :
    (State.tear s u w o mixed inc).fixed = s.fixed := by
  unfold State.tear; dsimp only; (repeat' split) <;> simp

@[simp] theorem State.sweepInputs_fixed (s : State) (p : PartId) (e : Group) (lo n : Nat) :
    (State.sweepInputs s p e lo n).2.fixed = s.fixed := by
  simp [State.sweepInputs]

@[simp] theorem State.sweepBlock_fixed (s : State) (u : PumpId) (w : Sweep) :
    (State.sweepBlock s u w).fixed = s.fixed := by
  unfold State.sweepBlock; dsimp only; (repeat' split) <;> simp

@[simp] theorem State.tearClaims_fixed (s : State) (p : PartId) (sel : Group → Bool) :
    (s.tearClaims p sel).fixed = s.fixed := by
  simp [State.tearClaims]

@[simp] theorem State.stopPumps_fixed (s : State) (p : PartId) (inc : W32) :
    (State.stopPumps s p inc).fixed = s.fixed := by
  simp [State.stopPumps]

@[simp] theorem State.tearSweep_fixed (s : State) (u : PumpId) (o : OutcomeCode) (mixed : Bool) (inc : W32) :
    (s.tearSweep u o mixed inc).fixed = s.fixed := by
  unfold State.tearSweep; split <;> simp

@[simp] theorem State.resetPumpItems_fixed (s : State) (u : PumpId) (o : OutcomeCode) (mixed : Bool) (inc : W32) :
    (s.resetPumpItems u o mixed inc).fixed = s.fixed := by
  refine Eq.trans ?_ (State.tearSweep_fixed s u o mixed inc)
  refine State.over_keeps State.fixed _ _ (fun t p => ?_) _
  simp only [State.tearClaims_fixed]
  refine State.over_keeps State.fixed _ _ (fun t2 c => ?_) t
  refine State.over_keeps State.fixed _ _ (fun t3 i => ?_) t2
  (repeat' split) <;> simp

@[simp] theorem State.updStorm_fixed (s : State) (p : PartId) (f : Storm → Storm) :
    (s.updStorm p f).fixed = s.fixed := by
  rfl

@[simp] theorem State.formVerdict_fixed (s : State) (p : PartId) : (State.formVerdict s p).fixed = s.fixed := by
  simp [State.formVerdict]

@[simp] theorem State.closeArrives_fixed (s : State) (p : PartId) (c : CoreId) (step : W32) (ctr : CtrId) :
    (State.closeArrives s p c step ctr).fixed = s.fixed := by
  simp [State.closeArrives]

@[simp] theorem State.departClosing_fixed (s : State) (p : PartId) (n : SeqId) :
    (State.departClosing s p n).fixed = s.fixed := by
  simp [State.departClosing]

@[simp] theorem State.deliverVerdict_fixed (s : State) (p : PartId) : (State.deliverVerdict s p).fixed = s.fixed := by
  unfold State.deliverVerdict; (repeat' split) <;> simp

@[simp] theorem State.dropReport_fixed (s : State) (c : CoreId) : (State.dropReport s c).fixed = s.fixed := by
  simp [State.dropReport]

@[simp] theorem State.stormRun_fixed (s : State) (p : PartId) (c : Capsule) :
    (State.stormRun s p c).fixed = s.fixed := by
  unfold State.stormRun; (repeat' split) <;> simp

@[simp] theorem State.stormCapsule_fixed (s : State) (p : PartId) (c : Capsule) :
    (State.stormCapsule s p c).fixed = s.fixed := by
  simp [State.stormCapsule]

@[simp] theorem State.countE2e_fixed (s : State) (n : PortId) : (State.countE2e s n).fixed = s.fixed := by
  simp [State.countE2e]

@[simp] theorem State.oweAck_fixed (s : State) (k : Packet) : (State.oweAck s k).fixed = s.fixed := by
  simp [State.oweAck]

@[simp] theorem State.markDelivered_fixed (s : State) (k : Packet) : (State.markDelivered s k).fixed = s.fixed := by
  simp [State.markDelivered]

@[simp] theorem State.holdOrdered_fixed (s : State) (n : PortId) (k : Packet) :
    (State.holdOrdered s n k).fixed = s.fixed := by
  simp [State.holdOrdered]

@[simp] theorem State.dropHeld_fixed (s : State) (key : Nat) : (State.dropHeld s key).fixed = s.fixed := by
  simp [State.dropHeld]

@[simp] theorem State.arrive_fixed (s : State) (n : PortId) (k : Packet) (trailer : W64)
    (refusal : State → Option Nat) :
    (s.arrive n k trailer refusal).2.fixed = s.fixed := by
  unfold State.arrive; dsimp only; (repeat' split) <;> simp

@[simp] theorem State.wakeBy_fixed (s : State) (k : Packet) : (State.wakeBy s k).fixed = s.fixed := by
  simp [State.wakeBy]

@[simp] theorem State.updLayer_fixed (s : State) (n : SluiceId) (id : Nat) (f : Layer → Layer) :
    (s.updLayer n id f).fixed = s.fixed := by
  rfl

@[simp] theorem State.slcWrite_fixed (s : State) (p : PartId) (off : Nat) (data : List Byte) (poison : Bool) :
    (State.slcWrite s p off data poison).fixed = s.fixed := by
  simp [State.slcWrite]

@[simp] theorem State.slcRead_fixed (s : State) (p : PartId) (off len : Nat) :
    (State.slcRead s p off len).2.fixed = s.fixed := by
  simp [State.slcRead]

@[simp] theorem State.sendSegment_fixed (s : State) (n : SluiceId) (l : Layer) (r : Route) (nseg i : Nat)
    (c : Nat × Nat) :
    (State.sendSegment s n l r nseg i c).fixed = s.fixed := by
  simp [State.sendSegment]

@[simp] theorem State.formRoute_fixed (s : State) (n : SluiceId) (id : Nat) (r0 : Route) :
    (State.formRoute s n id r0).fixed = s.fixed := by
  unfold State.formRoute; (repeat' split) <;> simp

@[simp] theorem State.formToken_fixed (s : State) (n : SluiceId) (l : Layer) (t : Nat) :
    (State.formToken s n l t).fixed = s.fixed := by
  simp [State.formToken]

@[simp] theorem State.sendLayer_fixed (s : State) (n : SluiceId) (l : Layer) :
    (State.sendLayer s n l).fixed = s.fixed := by
  simp [State.sendLayer]

@[simp] theorem State.admitRoute_fixed (s : State) (n : SluiceId) (l : Layer) (src : BitVec 15)
    (srcSluice token slot expert : Nat) (gate : W32) (fits : Bool) :
    (State.admitRoute s n l src srcSluice token slot expert gate fits).2.fixed = s.fixed := by
  unfold State.admitRoute; dsimp only; (repeat' split) <;> simp

@[simp] theorem State.passLocal_fixed (s : State) (n : SluiceId) (l : Layer) (r : Route) :
    (s.passLocal n l r).fixed = s.fixed := by
  unfold State.passLocal
  dsimp only
  split
  · rfl
  · rename_i d _
    have h := State.admitRoute_fixed (s.updLayer n l.id (·.updRoute (l.index r) fun r => { r with waits := false }))
      (sluiceOf r.dest) d s.chip n.val r.token r.slot r.expert r.gate (l.rowBytes == d.rowBytes && l.step == d.step)
    split
    · rename_i e
      rw [e] at h
      simpa using h
    · rename_i e
      rw [e] at h
      split <;> simpa using h

@[simp] theorem State.sendEnd_fixed (s : State) (n : SluiceId) (id : Nat) (d : Nat × Nat) :
    (State.sendEnd s n id d).fixed = s.fixed := by
  unfold State.sendEnd; (repeat' split) <;> simp

@[simp] theorem State.writeCounts_fixed (s : State) (l : Layer) : (State.writeCounts s l).fixed = s.fixed := by
  simp [State.writeCounts]

@[simp] theorem State.tryArrive_fixed (s : State) (n : SluiceId) (id : Nat) :
    (State.tryArrive s n id).fixed = s.fixed := by
  unfold State.tryArrive; (repeat' split) <;> simp

@[simp] theorem State.stageSegment_fixed (s : State) (n : SluiceId) (l : Layer) (token slot seg : Nat)
    (data : List Byte) (poison : Bool) :
    (State.stageSegment s n l token slot seg data poison).fixed = s.fixed := by
  unfold State.stageSegment; dsimp only; (repeat' split) <;> simp

@[simp] theorem State.returnRow_fixed (s : State) (n : SluiceId) (l : Layer) (loc pos : Nat) :
    (s.returnRow n l loc pos).fixed = s.fixed := by
  unfold State.returnRow
  dsimp only
  refine Eq.trans (State.over_keeps State.fixed _ _ (fun t c => ?_) _) (State.slcRead_fixed _ _ _ _)
  (repeat' split) <;> simp

@[simp] theorem State.returnLayer_fixed (s : State) (n : SluiceId) (l : Layer) :
    (State.returnLayer s n l).fixed = s.fixed := by
  simp [State.returnLayer]

@[simp] theorem State.readStaged_fixed (s : State) (n : SluiceId) (l : Layer) (r : List Route) :
    (s.readStaged n l r).2.fixed = s.fixed := by
  induction r generalizing s with
  | nil => rfl
  | cons x l ih => unfold State.readStaged; dsimp only; (repeat' split) <;> simp [ih]

@[simp] theorem State.writeRouteRecord_fixed (s : State) (n : SluiceId) (l : Layer) (r : Route) :
    (State.writeRouteRecord s n l r).fixed = s.fixed := by
  simp [State.writeRouteRecord]

@[simp] theorem State.combineToken_fixed (s : State) (n : SluiceId) (id t : Nat) :
    (State.combineToken s n id t).fixed = s.fixed := by
  unfold State.combineToken; dsimp only; (repeat' split) <;> simp

@[simp] theorem State.tryEndLayer_fixed (s : State) (n : SluiceId) (id : Nat) :
    (State.tryEndLayer s n id).fixed = s.fixed := by
  unfold State.tryEndLayer; (repeat' split) <;> simp

@[simp] theorem State.closeLayer_fixed (s : State) (n : SluiceId) (id : Nat) (o : OutcomeCode) (inc : W32) :
    (State.closeLayer s n id o inc).fixed = s.fixed := by
  unfold State.closeLayer; (repeat' split) <;> simp

@[simp] theorem State.sendAbandon_fixed (s : State) (n : SluiceId) (l : Layer) (o : OutcomeCode) (inc : W32) :
    (s.sendAbandon n l o inc).fixed = s.fixed := by
  refine State.over_keeps State.fixed _ _ (fun t d => ?_) s
  (repeat' split) <;> simp

@[simp] theorem State.failLayer_fixed (s : State) (n : SluiceId) (l : Layer) (o : OutcomeCode) (inc : W32) :
    (State.failLayer s n l o inc).fixed = s.fixed := by
  simp [State.failLayer]

@[simp] theorem State.openNext_fixed (s : State) (n : SluiceId) : (State.openNext s n).fixed = s.fixed := by
  unfold State.openNext; (repeat' split) <;> simp

@[simp] theorem State.advanceLayer_fixed (s : State) (n : SluiceId) (id : Nat) :
    (State.advanceLayer s n id).fixed = s.fixed := by
  unfold State.advanceLayer; (repeat' split) <;> simp

@[simp] theorem State.sluicePass_fixed (s : State) (k : Nat) : (State.sluicePass s k).fixed = s.fixed := by
  induction k generalizing s with
  | zero => rfl
  | succ k ih => unfold State.sluicePass; dsimp only; (repeat' split) <;> simp [ih]

@[simp] theorem State.settleRoute_fixed (s : State) (n : SluiceId) (id index : Nat) (o : OutcomeCode) :
    (State.settleRoute s n id index o).fixed = s.fixed := by
  unfold State.settleRoute; (repeat' split) <;> simp

@[simp] theorem State.settleLayerEnd_fixed (s : State) (n : SluiceId) (id : Nat) (o : OutcomeCode) :
    (State.settleLayerEnd s n id o).fixed = s.fixed := by
  unfold State.settleLayerEnd; (repeat' split) <;> simp

@[simp] theorem State.settleReturn_fixed (s : State) (n : SluiceId) (id : Nat) (o : OutcomeCode) :
    (State.settleReturn s n id o).fixed = s.fixed := by
  unfold State.settleReturn; (repeat' split) <;> simp

@[simp] theorem State.endWaitingLayer_fixed (s : State) (l : Layer) (o : OutcomeCode) (inc : W32) :
    (State.endWaitingLayer s l o inc).fixed = s.fixed := by
  simp [State.endWaitingLayer]

@[simp] theorem State.stopSluices_fixed (s : State) (p : PartId) (inc : W32) :
    (State.stopSluices s p inc).fixed = s.fixed := by
  simp [State.stopSluices]

@[simp] theorem State.updColl_fixed (s : State) (a : AxisId) (id : Nat) (f : Coll → Coll) :
    (s.updColl a id f).fixed = s.fixed := by
  rfl

@[simp] theorem State.abandonTo_fixed (s : State) (a : AxisId) (c : Coll) (o : OutcomeCode) (to_ : List Nat) :
    (State.abandonTo s a c o to_).fixed = s.fixed := by
  simp [State.abandonTo]

@[simp] theorem State.abandonAll_fixed (s : State) (a : AxisId) (c : Coll) (o : OutcomeCode) :
    (State.abandonAll s a c o).fixed = s.fixed := by
  simp [State.abandonAll]

@[simp] theorem State.collRecord_fixed (s : State) (a : AxisId) (c : Coll) (o : OutcomeCode) (detail : Nat)
    (inc : W32) (causes : BitVec 7) :
    (State.collRecord s a c o detail inc causes).fixed = s.fixed := by
  simp [State.collRecord]

@[simp] theorem State.releaseHeld_fixed (s : State) (l : List (PortId × Packet)) :
    (State.releaseHeld s l).fixed = s.fixed := by
  simp [State.releaseHeld]

@[simp] theorem State.redBlock_fixed (s : State) (l : Loc) (red : Nat) (f : Fmt) (sat : Bool)
    (data : List Byte) (poison : Bool) :
    (State.redBlock s l red f sat data poison).2.fixed = s.fixed := by
  unfold State.redBlock; dsimp only; (repeat' split) <;> simp

@[simp] theorem State.applyBlocks_fixed (s : State) (p : PartId) (off : Nat) (how : CollApply) (op red : Nat)
    (f : Fmt) (ieee : Bool) (data : List Byte) (poison : Bool) (k : Nat) :
    (State.applyBlocks s p off how op red f ieee data poison k).2.fixed = s.fixed := by
  induction k generalizing s off data with
  | zero => rfl
  | succ k ih => unfold State.applyBlocks; dsimp only; (repeat' split) <;> simp [ih]

@[simp] theorem State.sendData_fixed (s : State) (a : AxisId) (id : Nat) (dst k from_ to_ n : Nat) :
    (State.sendData s a id dst k from_ to_ n).fixed = s.fixed := by
  unfold State.sendData; dsimp only; (repeat' split) <;> simp

@[simp] theorem State.sendRange_fixed (s : State) (a : AxisId) (id dst k from_ to_ len : Nat) :
    (State.sendRange s a id dst k from_ to_ len).fixed = s.fixed := by
  simp [State.sendRange]

@[simp] theorem State.copyBlocks_fixed (s : State) (p : PartId) (from_ to_ k : Nat) :
    (s.copyBlocks p from_ to_ k).2.fixed = s.fixed := by
  induction k generalizing s from_ to_ with
  | zero => rfl
  | succ k ih => unfold State.copyBlocks; simp [ih]

@[simp] theorem State.copyColl_fixed (s : State) (a : AxisId) (c : Coll) (from_ to_ len : Nat) :
    (s.copyColl a c from_ to_ len).fixed = s.fixed := by
  unfold State.copyColl; split
  · rfl
  · simp

@[simp] theorem State.collFirst_fixed (s : State) (a : AxisId) (c : Coll) : (State.collFirst s a c).fixed = s.fixed := by
  simp [State.collFirst]

@[simp] theorem State.collNext_fixed (s : State) (a : AxisId) (c : Coll) (src : BitVec 15) (k off n : Nat) :
    (State.collNext s a c src k off n).fixed = s.fixed := by
  simp [State.collNext]

@[simp] theorem State.applyData_fixed (s : State) (a : AxisId) (id : Nat) (k : Packet) :
    (State.applyData s a id k).fixed = s.fixed := by
  unfold State.applyData; dsimp only; (repeat' split) <;> simp

@[simp] theorem State.applyWaiting_fixed (s : State) (a : AxisId) (id : Nat) :
    (State.applyWaiting s a id).fixed = s.fixed := by
  unfold State.applyWaiting; (repeat' split) <;> simp

@[simp] theorem State.sendJoin_fixed (s : State) (a : AxisId) (c : Coll) (plus : Bool) (origin : Nat)
    (digest : W32) (wp wm : Nat) :
    (State.sendJoin s a c plus origin digest wp wm).fixed = s.fixed := by
  simp [State.sendJoin]

@[simp] theorem State.hearJoin_fixed (s : State) (a : AxisId) (id : Nat) (up : Bool) (k : Packet) :
    (State.hearJoin s a id up k).fixed = s.fixed := by
  unfold State.hearJoin; (repeat' split) <;> simp

@[simp] theorem State.admitColl_fixed (s : State) (a : AxisId) (c : Coll) :
    (State.admitColl s a c).fixed = s.fixed := by
  simp [State.admitColl]

@[simp] theorem State.admitNext_fixed (s : State) (a : AxisId) (p : PartId) :
    (State.admitNext s a p).fixed = s.fixed := by
  unfold State.admitNext; (repeat' split) <;> simp

@[simp] theorem State.collUndefined_fixed (s : State) (a : AxisId) (c : Coll) (o : OutcomeCode) :
    (s.collUndefined a c o).fixed = s.fixed := by
  unfold State.collUndefined; dsimp only; (repeat' split) <;> simp

@[simp] theorem State.endColl_fixed (s : State) (a : AxisId) (c : Coll) (o : OutcomeCode) (inc : W32) :
    (State.endColl s a c o inc).fixed = s.fixed := by
  simp [State.endColl]

@[simp] theorem State.mismatchColl_fixed (s : State) (a : AxisId) (c : Coll) :
    (State.mismatchColl s a c).fixed = s.fixed := by
  simp [State.mismatchColl]

@[simp] theorem State.tryEndColl_fixed (s : State) (a : AxisId) (id : Nat) :
    (State.tryEndColl s a id).fixed = s.fixed := by
  unfold State.tryEndColl; (repeat' split) <;> simp

@[simp] theorem State.completeJoin_fixed (s : State) (a : AxisId) (id : Nat) :
    (State.completeJoin s a id).fixed = s.fixed := by
  unfold State.completeJoin; dsimp only; (repeat' split) <;> simp

@[simp] theorem State.failColl_fixed (s : State) (a : AxisId) (c : Coll) (o : OutcomeCode) (inc : W32) :
    (State.failColl s a c o inc).fixed = s.fixed := by
  simp [State.failColl]

@[simp] theorem State.settleColl_fixed (s : State) (a : AxisId) (id : Nat) (o : OutcomeCode) :
    (State.settleColl s a id o).fixed = s.fixed := by
  unfold State.settleColl; (repeat' split) <;> simp

@[simp] theorem State.stopColls_fixed (s : State) (p : PartId) (inc : W32) :
    (State.stopColls s p inc).fixed = s.fixed := by
  simp [State.stopColls]

@[simp] theorem State.applyAtomic_fixed (s : State) (p : PartId) (off aop : Nat) (v : W64) :
    (State.applyAtomic s p off aop v).2.fixed = s.fixed := by
  unfold State.applyAtomic; dsimp only; (repeat' split) <;> simp

@[simp] theorem State.endAtomic_fixed (s : State) (a : AxisId) (x : AtomicItem) (o : OutcomeCode) (inc : W32) :
    (State.endAtomic s a x o inc).fixed = s.fixed := by
  simp [State.endAtomic]

@[simp] theorem State.startAtomic_fixed (s : State) (a : AxisId) (x : AtomicItem) :
    (State.startAtomic s a x).fixed = s.fixed := by
  simp [State.startAtomic]

@[simp] theorem State.settleAtomic_fixed (s : State) (a : AxisId) (id : Nat) (o : OutcomeCode) :
    (State.settleAtomic s a id o).fixed = s.fixed := by
  unfold State.settleAtomic; (repeat' split) <;> simp

@[simp] theorem State.collCapsule_fixed (s : State) (p : PartId) (cap : Capsule) :
    (State.collCapsule s p cap).fixed = s.fixed := by
  unfold State.collCapsule; dsimp only; (repeat' split) <;> simp

@[simp] theorem State.atomicCapsule_fixed (s : State) (p : PartId) (cap : Capsule) :
    (State.atomicCapsule s p cap).fixed = s.fixed := by
  unfold State.atomicCapsule; dsimp only; (repeat' split) <;> simp

@[simp] theorem State.startAtomics_fixed (s : State) (p : PartId) : (State.startAtomics s p).fixed = s.fixed := by
  simp [State.startAtomics]

@[simp] theorem State.landAtomic_fixed (s : State) (k : Packet) : (State.landAtomic s k).fixed = s.fixed := by
  simp [State.landAtomic]

@[simp] theorem State.placeCapsule_fixed (s : State) (p : PartId) (c : Capsule) :
    (State.placeCapsule s p c).fixed = s.fixed := by
  unfold State.placeCapsule; dsimp only; (repeat' split) <;> simp

@[simp] theorem State.descriptors_fixed (s : State) (p : PartId) (l : Layer) :
    (State.descriptors s p l).2.fixed = s.fixed := by
  simp [State.descriptors]

@[simp] theorem State.layerCapsule_fixed (s : State) (p : PartId) (c : Capsule) :
    (State.layerCapsule s p c).fixed = s.fixed := by
  have h : s.newItem.2.fixed = s.fixed := State.newItem_fixed s
  have h2 := State.descriptors_fixed s.newItem.2 p (parseLayer s.newItem.1 p c)
  unfold State.layerCapsule; dsimp only
  (repeat' split) <;> simp_all

@[simp] theorem State.takeToken_fixed (s : State) (n : PortId) (k : Packet) (trailer : W64) (sub : Nat) (f : State → SluiceId → Layer → State)
    (h : ∀ s m l, (f s m l).fixed = s.fixed) : (s.takeToken n k trailer sub f).fixed = s.fixed := by
  unfold State.takeToken; dsimp only; (repeat' split) <;> simp [h]

@[simp] theorem State.landSegment_fixed (s : State) (n : SluiceId) (l : Layer) (k : Packet) (r : InRoute) :
    (State.landSegment s n l k r).fixed = s.fixed := by
  simp [State.landSegment]

@[simp] theorem State.refuseDispatch_fixed (s : State) (n : SluiceId) (l : Layer) (k : Packet) (r : InRoute) (c : Nat) :
    (s.refuseDispatch n l k r c).fixed = s.fixed := by
  simp [State.refuseDispatch]

@[simp] theorem State.landDispatch_fixed (s : State) (n : SluiceId) (l : Layer) (k : Packet) :
    (s.landDispatch n l k).fixed = s.fixed := by
  unfold State.landDispatch
  dsimp only
  split
  · split <;> simp
  · split
    · simp
    · have h := State.admitRoute_fixed s n l k.src (tkSrc k) (tkToken k) (tkSlot k) (tkExpert k) (tkGate k) (l.matches? k)
      split <;> rename_i e <;> rw [e] at h <;> simpa using h

@[simp] theorem State.settleItem_fixed (s : State) (o : OutPacket) (r : OutcomeCode) :
    (State.settleItem s o r).fixed = s.fixed := by
  unfold State.settleItem; (repeat' split) <;> simp

@[simp] theorem State.settleOk_fixed (s : State) (key : Nat) (o : OutPacket) :
    (State.settleOk s key o).fixed = s.fixed := by
  simp [State.settleOk]

@[simp] theorem State.settleFail_fixed (s : State) (key : Nat) (o : OutPacket) (r : OutcomeCode) :
    (State.settleFail s key o r).fixed = s.fixed := by
  simp [State.settleFail]

@[simp] theorem State.ackPackets_fixed (s : State) (key : Nat) (cum : W32) (bitmap : Nat) :
    (State.ackPackets s key cum bitmap).fixed = s.fixed := by
  simp [State.ackPackets]

@[simp] theorem State.nextAttempt_fixed (s : State) (key : Nat) (o : OutPacket) (at_ : Nat) :
    (State.nextAttempt s key o at_).fixed = s.fixed := by
  simp [State.nextAttempt]

@[simp] theorem State.waitEnded_fixed (s : State) (key : Nat) (o : OutPacket) :
    (State.waitEnded s key o).fixed = s.fixed := by
  simp [State.waitEnded]

@[simp] theorem State.nakPacket_fixed (s : State) (key : Nat) (o : OutPacket) (code : Nat) :
    (State.nakPacket s key o code).fixed = s.fixed := by
  unfold State.nakPacket; (repeat' split) <;> simp

@[simp] theorem State.landRead_fixed (s : State) (x : Xfer) (o : OutPacket) (k : Packet) :
    (State.landRead s x o k).fixed = s.fixed := by
  simp [State.landRead]

@[simp] theorem State.renew_fixed (s : State) (key : Nat) (psn : W32) (k : Packet) :
    (State.renew s key psn k).fixed = s.fixed := by
  unfold State.renew; split
  · split <;> simp
  · rfl

@[simp] theorem State.takeReadData_fixed (s : State) (k : Packet) : (State.takeReadData s k).fixed = s.fixed := by
  unfold State.takeReadData; dsimp only; (repeat' split) <;> simp_all

@[simp] theorem State.landWrite_fixed (s0 : State) (k : Packet) : (State.landWrite s0 k).fixed = s0.fixed := by
  simp [State.landWrite]

@[simp] theorem State.answerRead_fixed (s0 : State) (k : Packet) (first : Bool) :
    (State.answerRead s0 k first).fixed = s0.fixed := by
  simp [State.answerRead]

@[simp] theorem State.landReadReq_fixed (s : State) (k : Packet) : (State.landReadReq s k).fixed = s.fixed := by
  simp [State.landReadReq]

@[simp] theorem State.landSignal_fixed (s : State) (k : Packet) : (State.landSignal s k).fixed = s.fixed := by
  simp [State.landSignal]

@[simp] theorem State.landKind_fixed (s : State) (k : Packet) : (State.landKind s k).fixed = s.fixed := by
  simp [State.landKind]

@[simp] theorem State.releaseOrdered_fixed (s : State) (key : Nat) (k : Nat) :
    (State.releaseOrdered s key k).fixed = s.fixed := by
  induction k generalizing s with
  | zero => rfl
  | succ k ih => unfold State.releaseOrdered; dsimp only; (repeat' split) <;> simp [ih]

@[simp] theorem State.endProgram_fixed (s : State) (x : Program) (o : OutcomeCode) (detail : W64) (inc : W32) :
    (State.endProgram s x o detail inc).fixed = s.fixed := by
  simp [State.endProgram]

@[simp] theorem State.haltSeqs_fixed (s : State) (p : PartId) : (State.haltSeqs s p).fixed = s.fixed := by
  simp [State.haltSeqs]

@[simp] theorem State.haltCores_fixed (s : State) (p : PartId) : (State.haltCores s p).fixed = s.fixed := by
  simp [State.haltCores]

@[simp] theorem State.stopAtomics_fixed (s : State) (p : PartId) (inc : W32) :
    (State.stopAtomics s p inc).fixed = s.fixed := by
  simp [State.stopAtomics]

@[simp] theorem State.stopPart_fixed (s : State) (p : PartId) (cause : Byte) (byCmd : Bool) (inc : W32) :
    (State.stopPart s p cause byCmd inc).fixed = s.fixed := by
  simp [State.stopPart]

@[simp] theorem State.orphanMap_fixed (s : State) (p : PartId) (tag : W64) (step : W32) (engine : Byte)
    (l : List (Option OutcomeCode)) (inc : W32) :
    (State.orphanMap s p tag step engine l inc).fixed = s.fixed := by
  unfold State.orphanMap; (repeat' split) <;> simp

@[simp] theorem State.abortLayer_fixed (s : State) (n : SluiceId) (l : Layer) (o : OutcomeCode) (inc : W32) :
    (State.abortLayer s n l o inc).fixed = s.fixed := by
  simp [State.abortLayer]

@[simp] theorem State.abortCmd_fixed (s : State) (p : PartId) (c : PumpCmd) (o : OutcomeCode) (inc : W32) :
    (State.abortCmd s p c o inc).fixed = s.fixed := by
  simp [State.abortCmd]

@[simp] theorem State.orphanHeld_fixed (s : State) (p : PartId) : (State.orphanHeld s p).fixed = s.fixed := by
  simp [State.orphanHeld]

@[simp] theorem State.abortQueued_fixed (s : State) (p : PartId) (o : OutcomeCode) (inc : W32) :
    (State.abortQueued s p o inc).fixed = s.fixed := by
  simp [State.abortQueued]

@[simp] theorem State.abortItems_fixed (s : State) (p : PartId) (o : OutcomeCode) (inc : W32) :
    (State.abortItems s p o inc).fixed = s.fixed := by
  simp [State.abortItems]

@[simp] theorem State.attachSeqs_fixed (s : State) : (State.attachSeqs s).fixed = s.fixed := by
  simp [State.attachSeqs]

@[simp] theorem State.showTopo_fixed (s : State) (wards : Nat) : (State.showTopo s wards).fixed = s.fixed := by
  simp [State.showTopo]

@[simp] theorem State.leavePumps_fixed (s : State) (p : PartId) : (State.leavePumps s p).fixed = s.fixed := by
  simp [State.leavePumps]

@[simp] theorem State.leaveSluices_fixed (s : State) (p : PartId) : (State.leaveSluices s p).fixed = s.fixed := by
  simp [State.leaveSluices]

@[simp] theorem State.leaveUnits_fixed (s : State) (p : PartId) : (State.leaveUnits s p).fixed = s.fixed := by
  simp [State.leaveUnits]

@[simp] theorem State.freePart_fixed (s : State) (p : PartId) (held : Bool) :
    (State.freePart s p held).fixed = s.fixed := by
  simp [State.freePart]

@[simp] theorem State.endSounding_fixed (s : State) (o : OutcomeCode) : (State.endSounding s o).fixed = s.fixed := by
  simp [State.endSounding]

@[simp] theorem State.endPortSounding_fixed (s : State) (n : PortId) :
    (State.endPortSounding s n).fixed = s.fixed := by
  simp [State.endPortSounding]

@[simp] theorem State.endSoundingsOf_fixed (s : State) (p : PartId) : (State.endSoundingsOf s p).fixed = s.fixed := by
  simp [State.endSoundingsOf]

@[simp] theorem State.applySections_fixed (s : State) (p : PartId) : (State.applySections s p).fixed = s.fixed := by
  simp [State.applySections]

@[simp] theorem State.fillPart_fixed (s : State) (p : PartId) : (State.fillPart s p).fixed = s.fixed := by
  simp [State.fillPart]

@[simp] theorem State.publishTopology_fixed (s : State) (p : PartId) :
    (State.publishTopology s p).fixed = s.fixed := by
  simp [State.publishTopology]

@[simp] theorem State.evaluatePart_fixed (s : State) (i : Fin 26) : (State.evaluatePart s i).1.fixed = s.fixed := by
  unfold State.evaluatePart; dsimp only; (repeat' split) <;> simp

@[simp] theorem State.brmWrite_fixed (s : State) (v : W64) (master : Byte) :
    (State.brmWrite s v master).fixed = s.fixed := by
  simp [State.brmWrite]

@[simp] theorem State.passRecord_fixed (s : State) (p : PartId) : (State.passRecord s p).fixed = s.fixed := by
  simp [State.passRecord]

@[simp] theorem State.passWord_fixed (s : State) (p : PartId) : (State.passWord s p).fixed = s.fixed := by
  simp [State.passWord]

@[simp] theorem State.sendSounding_fixed (s : State) (n : PortId) (payload : List Byte) :
    (State.sendSounding s n payload).fixed = s.fixed := by
  simp [State.sendSounding]

@[simp] theorem State.sendProbes_fixed (s : State) (n : PortId) (seed : W32) :
    (State.sendProbes s n seed).fixed = s.fixed := by
  simp [State.sendProbes]

@[simp] theorem State.startSounding_fixed (s : State) (kind target lane : Nat) (seed : W32) :
    (State.startSounding s kind target lane seed).fixed = s.fixed := by
  simp [State.startSounding]

@[simp] theorem State.sndResults_fixed (s : State) (results : Vector W64 4) :
    (State.sndResults s results).2.fixed = s.fixed := by
  unfold State.sndResults; dsimp only; (repeat' split) <;> simp

@[simp] theorem State.probationEvent_fixed (s : State) (n : PortId) : (State.probationEvent s n).fixed = s.fixed := by
  simp [State.probationEvent]

@[simp] theorem State.checkSounding_fixed (s0 : State) (n : PortId) (k : Packet) (trailer : W64) :
    (State.checkSounding s0 n k trailer).2.fixed = s0.fixed := by
  unfold State.checkSounding; dsimp only; (repeat' split) <;> simp

@[simp] theorem State.setBoot_fixed (s : State) (b : BootState) : (State.setBoot s b).fixed = s.fixed := by
  simp [State.setBoot]

@[simp] theorem State.modFault_fixed (s : State) : (State.modFault s).fixed = s.fixed := by
  simp [State.modFault]

@[simp] theorem State.bare_fixed (s : State) (cause : BitVec 4) : (State.bare s cause).fixed = s.fixed := by
  simp [State.bare]

@[simp] theorem State.bootStart_fixed (s : State) : (State.bootStart s).fixed = s.fixed := by
  simp [State.bootStart]

@[simp] theorem State.reboot_fixed (s : State) : (State.reboot s).fixed = s.fixed := by
  simp [State.reboot]

@[simp] theorem State.noteImageReset_fixed (s : State) (p : PartId) : (State.noteImageReset s p).fixed = s.fixed := by
  unfold State.noteImageReset; (repeat' split) <;> simp

@[simp] theorem State.emptyPart_fixed (s : State) (p : PartId) (o : OutcomeCode) (inc : W32) :
    (State.emptyPart s p o inc).fixed = s.fixed := by
  simp [State.emptyPart]

@[simp] theorem State.afterReset_fixed (s : State) : s.afterReset.fixed = s.fixed := rfl

@[simp] theorem State.deviceReset_fixed (s : State) (o : OutcomeCode) (inc : W32) :
    (s.deviceReset o inc).fixed = s.fixed := by
  refine (State.afterReset_fixed _).trans ?_
  generalize hx : (State.over _ _ _).flushAlmanac = x
  rw [← hx]
  simp

theorem State.ctl_fixed (s : State) (c : Control) : ({ s with ctl := c } : State).fixed = s.fixed := rfl

@[simp] theorem State.railsOn_fixed (s : State) : (State.railsOn s).fixed = s.fixed := by
  simp [State.railsOn]

@[simp] theorem State.hostReset_fixed (s : State) : (s.hostReset).fixed = s.fixed := by
  have h := State.deviceReset_fixed s .abortedReset 0
  rw [State.hostReset]
  generalize s.deviceReset .abortedReset 0 = t at h ⊢
  dsimp only
  split
  · split
    · exact h
    · exact (State.railsOn_fixed _).trans ((State.ctl_fixed _ _).trans h)
  · split
    · exact (State.reboot_fixed t).trans h
    · exact h

@[simp] theorem State.vfReset_fixed (s : State) (p : PartId) : (State.vfReset s p).fixed = s.fixed := by
  unfold State.vfReset; dsimp only; (repeat' split) <;> simp

@[simp] theorem State.railsOff_fixed (s : State) : (State.railsOff s).fixed = s.fixed := by
  simp [State.railsOff]

@[simp] theorem State.halt_fixed (s : State) (source : Byte) : (s.halt source).fixed = s.fixed := by
  rw [State.halt]
  refine (State.modFault_fixed _).trans ((State.reboot_fixed _).trans ((State.ctl_fixed _ _).trans ?_))
  exact (State.railsOff_fixed _).trans ((State.deviceReset_fixed _ _ _).trans (State.incident_fixed _ _ _ _))

@[simp] theorem State.setTemp_fixed (s : State) (x : Sensor) (t : Byte) : (State.setTemp s x t).fixed = s.fixed := by
  unfold State.setTemp; (repeat' split) <;> simp

@[simp] theorem State.sense_fixed (s : State) (x : Sensor) (t : Byte) : (State.sense s x t).fixed = s.fixed := by
  simp [State.sense]

@[simp] theorem State.govern_fixed (s : State) (inputW : W16) : (State.govern s inputW).fixed = s.fixed := by
  simp [State.govern]

@[simp] theorem State.setPowerCap_fixed (s : State) (capW : W16) : (State.setPowerCap s capW).fixed = s.fixed := by
  simp [State.setPowerCap]

@[simp] theorem State.verifyFailed_fixed (s : State) (reason section_ : Byte) :
    (State.verifyFailed s reason section_).fixed = s.fixed := by
  simp [State.verifyFailed]

@[simp] theorem State.takeImage_fixed (s : State) (i : DeviceImage) : (State.takeImage s i).fixed = s.fixed := by
  simp [State.takeImage]

@[simp] theorem State.trainPort_fixed (s : State) (n : PortId) : (State.trainPort s n).fixed = s.fixed := by
  simp [State.trainPort]

@[simp] theorem State.trainMem_fixed (s : State) (u : MemUnit) : (State.trainMem s u).fixed = s.fixed := by
  simp [State.trainMem]

@[simp] theorem State.trainCistern_fixed (s : State) : (State.trainCistern s).fixed = s.fixed := by
  simp [State.trainCistern]

@[simp] theorem State.remapDone_fixed (s : State) (u : MemUnit) (o : OutcomeCode) :
    (State.remapDone s u o).fixed = s.fixed := by
  simp [State.remapDone]

@[simp] theorem State.remapAdd_fixed (s : State) (u : MemUnit) (k : Nat) :
    (State.remapAdd s u k).fixed = s.fixed := by
  simp [State.remapAdd]

@[simp] theorem State.unspare_fixed (s : State) (u : MemUnit) (k : Nat) : (State.unspare s u k).fixed = s.fixed := by
  simp [State.unspare]

@[simp] theorem State.remapClear_fixed (s : State) (u : MemUnit) : (State.remapClear s u).fixed = s.fixed := by
  simp [State.remapClear]

@[simp] theorem State.qtnDone_fixed (s : State) (u : MemUnit) (o : OutcomeCode) :
    (State.qtnDone s u o).fixed = s.fixed := by
  simp [State.qtnDone]

@[simp] theorem State.quarantineAdd_fixed (s : State) (u : MemUnit) (page : Nat) :
    (State.quarantineAdd s u page).fixed = s.fixed := by
  simp [State.quarantineAdd]

@[simp] theorem State.quarantineRemove_fixed (s : State) (u : MemUnit) (page : Nat) :
    (State.quarantineRemove s u page).fixed = s.fixed := by
  simp [State.quarantineRemove]

@[simp] theorem State.flipWrite_fixed (s : State) (u : MemUnit) (v : W64) (master : Byte) (n : Nat) :
    (State.flipWrite s u v master n).fixed = s.fixed := by
  simp [State.flipWrite]

@[simp] theorem State.svcDone_fixed (s : State) (u : MemUnit) (code : Byte) :
    (State.svcDone s u code).fixed = s.fixed := by
  simp [State.svcDone]

@[simp] theorem State.takeOut_fixed (s : State) (u : MemUnit) : (State.takeOut s u).fixed = s.fixed := by
  simp [State.takeOut]

@[simp] theorem State.unitReturn_fixed (s : State) (u : MemUnit) : (State.unitReturn s u).fixed = s.fixed := by
  simp [State.unitReturn]

@[simp] theorem State.jobFault_fixed (s : State) (source : Byte) (l : List PartId) (cause : Byte) :
    (State.jobFault s source l cause).fixed = s.fixed := by
  simp [State.jobFault]

@[simp] theorem State.markGone_fixed (s : State) : (State.markGone s).fixed = s.fixed := by
  simp [State.markGone]

@[simp] theorem State.killMem_fixed (s : State) (u : MemUnit) : (State.killMem s u).fixed = s.fixed := by
  simp [State.killMem]

@[simp] theorem State.wellDead_fixed (s : State) (w : WellId) : (State.wellDead s w).fixed = s.fixed := by
  simp [State.wellDead]

@[simp] theorem State.pumpItemsDead_fixed (s : State) (u : PumpId) (inc : W32) :
    (State.pumpItemsDead s u inc).fixed = s.fixed := by
  simp [State.pumpItemsDead]

@[simp] theorem State.pumpDead_fixed (s : State) (u : PumpId) : (State.pumpDead s u).fixed = s.fixed := by
  simp [State.pumpDead]

@[simp] theorem State.axisItemsDead_fixed (s : State) (a : AxisId) (inc : W32) :
    (State.axisItemsDead s a inc).fixed = s.fixed := by
  simp [State.axisItemsDead]

@[simp] theorem State.sluiceItemsDead_fixed (s : State) (n : SluiceId) (inc : W32) :
    (State.sluiceItemsDead s n inc).fixed = s.fixed := by
  simp [State.sluiceItemsDead]

@[simp] theorem State.raiseFault_fixed (s : State) (core : Option CoreId) (n : Option SeqId)
    (p : Option PartId) (word : W64) (issue : BitVec 48) (beats : Nat) :
    (State.raiseFault s core n p word issue beats).fixed = s.fixed := by
  unfold State.raiseFault; (repeat' split) <;> simp

@[simp] theorem State.beatFaults_fixed (s : State) (c : CoreId) (beats : Nat) (l : List (Nat × W64 × BitVec 48)) :
    (State.beatFaults s c beats l).fixed = s.fixed := by
  unfold State.beatFaults; (repeat' split) <;> simp

@[simp] theorem State.countBeats_fixed (s : State) (c : CoreId) (n : Nat) :
    (State.countBeats s c n).fixed = s.fixed := by
  unfold State.countBeats; (repeat' split) <;> simp

@[simp] theorem State.emptyBeat_fixed (s : State) (c : CoreId) : (State.emptyBeat s c).fixed = s.fixed := by
  simp [State.emptyBeat]

@[simp] theorem State.emptyBeats_fixed (s : State) (c : CoreId) (k : Nat) : (s.emptyBeats c k).fixed = s.fixed := by
  induction k generalizing s with
  | zero => rfl
  | succ k ih => unfold State.emptyBeats; split <;> simp [ih]

@[simp] theorem State.extXfer_fixed (s : State) (c : CoreId) (p : PartId) (kind : XferKind) (ga : W64)
    (len : Nat) (tag : W64) (addr : Nat) (n : CtrId) (tc : BitVec 2) (ord : Bool) (op : BitVec 3) (ringAt : Nat) (phase : Bool) (seq : BitVec 12) :
    (State.extXfer s c p kind ga len tag addr n tc ord op ringAt phase seq).fixed = s.fixed := by
  simp [State.extXfer]

@[simp] theorem State.extRaise_fixed (s : State) (c : CoreId) (p : PartId) (v : Nat) (issue : BitVec 48) :
    (State.extRaise s c p v issue).fixed = s.fixed := by
  unfold State.extRaise; dsimp only; (repeat' split) <;> simp

@[simp] theorem State.applyExt_fixed (s : State) (c : CoreId) (seq : BitVec 12) (issue : BitVec 48) (e : Ext) :
    (State.applyExt s c seq issue e).fixed = s.fixed := by
  unfold State.applyExt; (repeat' split) <;> simp

@[simp] theorem State.afterSlots_fixed (s : State) (c : CoreId) (skip : Nat) (seq : BitVec 12) (count : BitVec 48) (b : Beat) :
    (State.afterSlots s c skip seq count b).fixed = s.fixed := by
  simp [State.afterSlots]

@[simp] theorem State.issue_fixed (s : State) (c : CoreId) (d : Bundle) (count : BitVec 48) :
    (State.issue s c d count).fixed = s.fixed := by
  simp [State.issue]

@[simp] theorem State.haltCore_fixed (s : State) (c : CoreId) (d : Bundle) :
    (State.haltCore s c d).fixed = s.fixed := by
  simp [State.haltCore]

@[simp] theorem State.issueHead_fixed (s : State) (c : CoreId) : (State.issueHead s c).fixed = s.fixed := by
  unfold State.issueHead; (repeat' split) <;> simp

@[simp] theorem State.reachWait_fixed (s : State) (c : CoreId) (w : Wait) :
    (State.reachWait s c w).fixed = s.fixed := by
  simp [State.reachWait]

@[simp] theorem State.nextBundle_fixed (s : State) (c : CoreId) : (State.nextBundle s c).fixed = s.fixed := by
  unfold State.nextBundle; (repeat' split) <;> simp

@[simp] theorem State.single_fixed (s : State) (c : CoreId) (ok : Bool) (d : Bundle) :
    (State.single s c ok d).fixed = s.fixed := by
  simp [State.single]

@[simp] theorem State.singleWait_fixed (s : State) (c : CoreId) (o : SyncOp) :
    (State.singleWait s c o).fixed = s.fixed := by
  simp [State.singleWait]

@[simp] theorem State.startSeq_fixed (s : State) (p : PartId) (n : SeqId) (region : Bool) (entry : Nat)
    (args : Vector W64 3) (item : Nat) :
    (State.startSeq s p n region entry args item).fixed = s.fixed := by
  simp [State.startSeq]

@[simp] theorem State.startProgram_fixed (s0 : State) (p : PartId) (seqs : List SeqId) (region : Bool)
    (entry : Nat) (args : Vector W64 3) (tag : W64) (step : W32) (limitUs : Nat) (v0 : Bool) :
    (State.startProgram s0 p seqs region entry args tag step limitUs v0).fixed = s0.fixed := by
  simp [State.startProgram]

@[simp] theorem State.loadCapsule_fixed (s : State) (p : PartId) (c : Capsule) :
    (State.loadCapsule s p c).fixed = s.fixed := by
  simp [State.loadCapsule]

@[simp] theorem State.startCapsule_fixed (s : State) (p : PartId) (c : Capsule) :
    (State.startCapsule s p c).fixed = s.fixed := by
  unfold State.startCapsule; dsimp only; (repeat' split) <;> simp

@[simp] theorem State.flowFault_fixed (s : State) (n : SeqId) (i cause : Nat) :
    (State.flowFault s n i cause).fixed = s.fixed := by
  simp [State.flowFault]

@[simp] theorem State.broadcast_fixed (s : State) (n : SeqId) (w : Bundle512) :
    (State.broadcast s n w).fixed = s.fixed := by
  simp [State.broadcast]

@[simp] theorem State.fetchBundle_fixed (s : State) (n : SeqId) : (State.fetchBundle s n).fixed = s.fixed := by
  unfold State.fetchBundle; dsimp only; (repeat' split) <;> simp

@[simp] theorem State.tryEndProgram_fixed (s : State) (p : PartId) (id : Nat) :
    (State.tryEndProgram s p id).fixed = s.fixed := by
  unfold State.tryEndProgram; (repeat' split) <;> simp

@[simp] theorem State.refuseSeq_fixed (s : State) (n : SeqId) (x : Nat) (master : Byte) :
    (State.refuseSeq s n x master).fixed = s.fixed := by
  simp [State.refuseSeq]

@[simp] theorem State.setSplit_fixed (s : State) (n : SeqId) (split : Nat) (master : Byte) :
    (State.setSplit s n split master).fixed = s.fixed := by
  simp [State.setSplit]

@[simp] theorem State.armCadence_fixed (s : State) (n : SeqId) (periodNs : W32) (entry : BitVec 12)
    (epoch : Nat) (master : Byte) :
    (State.armCadence s n periodNs entry epoch master).fixed = s.fixed := by
  simp [State.armCadence]

@[simp] theorem State.tick_fixed (s : State) (n : SeqId) (k : Nat) : (State.tick s n k).fixed = s.fixed := by
  unfold State.tick; dsimp only; (repeat' split) <;> simp

@[simp] theorem State.transferCapsule_fixed (s : State) (p : PartId) (c : Capsule) :
    (State.transferCapsule s p c).fixed = s.fixed := by
  unfold State.transferCapsule; dsimp only; (repeat' split) <;> simp

@[simp] theorem State.restAt_fixed (s : State) (p : PartId) (d : Nat) : (State.restAt s p d).fixed = s.fixed := by
  simp [State.restAt]

@[simp] theorem State.park_fixed (s : State) (n : PortId) : (State.park s n).fixed = s.fixed := by
  simp [State.park]

@[simp] theorem State.setBudget_fixed (s : State) (p : PartId) (b : W32) :
    (State.setBudget s p b).fixed = s.fixed := by
  simp [State.setBudget]

@[simp] theorem State.wakeAll_fixed (s : State) : (State.wakeAll s).fixed = s.fixed := by
  simp [State.wakeAll]

@[simp] theorem State.abortOn_fixed (s : State) (via : PortId × VcId) (m : PortId) (v : VcId) :
    (State.abortOn s via m v).fixed = s.fixed := by
  unfold State.abortOn; (repeat' split) <;> simp

@[simp] theorem State.endProgress_fixed (s : State) (n : PortId) (v : VcId) :
    (State.endProgress s n v).fixed = s.fixed := by
  unfold State.endProgress; dsimp only; (repeat' split) <;> simp

@[simp] theorem State.portDown_fixed (s : State) (n : PortId) (cause : Byte) :
    (State.portDown s n cause).fixed = s.fixed := by
  simp [State.portDown]

@[simp] theorem State.beginTraining_fixed (s : State) (n : PortId) : (State.beginTraining s n).fixed = s.fixed := by
  simp [State.beginTraining]

@[simp] theorem State.trained_fixed (s : State) (n : PortId) (i : TrainInfo) :
    (State.trained s n i).fixed = s.fixed := by
  simp [State.trained]

@[simp] theorem State.setDisable_fixed (s : State) (n : PortId) (disable : Bool) :
    (State.setDisable s n disable).fixed = s.fixed := by
  simp [State.setDisable]

@[simp] theorem State.sendFacing_fixed (s : State) (n : PortId) (k : Packet) :
    (State.sendFacing s n k).fixed = s.fixed := by
  simp [State.sendFacing]

@[simp] theorem State.sendHeartbeat_fixed (s : State) (n : PortId) : (State.sendHeartbeat s n).fixed = s.fixed := by
  simp [State.sendHeartbeat]

@[simp] theorem State.missingFlits_fixed (s : State) (n : PortId) (v : VcId) (sent : BitVec 12) :
    (State.missingFlits s n v sent).fixed = s.fixed := by
  simp [State.missingFlits]

@[simp] theorem State.passOn_fixed (s : State) (n : PortId) (v : VcId) (k : Packet) :
    (State.passOn s n v k).fixed = s.fixed := by
  unfold State.passOn; (repeat' split) <;> simp

@[simp] theorem State.arriveLoose_fixed (s : State) (n : PortId) (k : Packet) (trailer : W64) (kind : Byte) :
    (State.arriveLoose s n k trailer kind).2.fixed = s.fixed := by
  unfold State.arriveLoose; dsimp only; (repeat' split) <;> simp

@[simp] theorem State.readAgain_fixed (s : State) (n : PortId) (k : Packet) (trailer : W64) :
    (State.readAgain s n k trailer).fixed = s.fixed := by
  unfold State.readAgain; (repeat' split) <;> simp

@[simp] theorem State.fmReceive_fixed (s : State) (payload : List Byte) :
    (State.fmReceive s payload).fixed = s.fixed := by
  simp [State.fmReceive]

@[simp] theorem State.sendReply_fixed (s : State) (g : BitVec 15) (payload : List Byte) :
    (State.sendReply s g payload).fixed = s.fixed := by
  simp [State.sendReply]

@[simp] theorem State.answer_fixed (s : State) (r : Option ReplyTo) (master : Byte) (o : OutcomeCode) (stale : Bool) :
    (State.answer s r master o stale).fixed = s.fixed := by
  unfold State.answer; (repeat' split) <;> simp

@[simp] theorem State.raiseGen_fixed (s : State) (m : Byte) (g : W32) : (State.raiseGen s m g).fixed = s.fixed := by
  simp [State.raiseGen]

@[simp] theorem State.stale_fixed (s : State) (w : CtlWrite) (reply : Option ReplyTo) :
    (State.stale s w reply).fixed = s.fixed := by
  simp [State.stale]

@[simp] theorem State.setGen_fixed (s : State) (fn : Byte) (w : CtlWrite) (reply : Option ReplyTo) :
    (State.setGen s fn w reply).fixed = s.fixed := by
  simp [State.setGen]

@[simp] theorem State.absentWrite_fixed (s : State) (off : Nat) : (State.absentWrite s off).fixed = s.fixed := by
  simp [State.absentWrite]

@[simp] theorem State.accepted_fixed (s : State) (w : CtlWrite) (reply : Option ReplyTo) :
    (State.accepted s w reply).fixed = s.fixed := by
  unfold State.accepted; (repeat' split) <;> simp

@[simp] theorem State.writeArrives_fixed (s : State) (w : CtlWrite) (reply : Option ReplyTo) :
    (State.writeArrives s w reply).fixed = s.fixed := by
  simp [State.writeArrives]

@[simp] theorem State.dropStreams_fixed (s : State) (c : BitVec 15) : (State.dropStreams s c).fixed = s.fixed := by
  simp [State.dropStreams]

@[simp] theorem State.fenceItem_fixed (s : State) (inc : W32) (r : ItemRef) :
    (State.fenceItem s inc r).fixed = s.fixed := by
  unfold State.fenceItem; (repeat' split) <;> simp

@[simp] theorem State.fenceMembers_fixed (s : State) (chip : BitVec 15) (inc : W32) :
    (State.fenceMembers s chip inc).fixed = s.fixed := by
  simp [State.fenceMembers]

@[simp] theorem State.fenceOther_fixed (s : State) (c : BitVec 15) : (State.fenceOther s c).fixed = s.fixed := by
  simp [State.fenceOther]

@[simp] theorem State.fencePart_fixed (s : State) (inc : W32) (p : PartId) :
    (State.fencePart s inc p).fixed = s.fixed := by
  simp [State.fencePart]

@[simp] theorem State.fenceEngines_fixed (s : State) (inc : W32) : (State.fenceEngines s inc).fixed = s.fixed := by
  simp [State.fenceEngines]

@[simp] theorem State.fenceSelf_fixed (s : State) : (State.fenceSelf s).fixed = s.fixed := by
  unfold State.fenceSelf; simp only []; (repeat' split) <;> simp_all

@[simp] theorem State.applyFence_fixed (s : State) (c : BitVec 15) : (State.applyFence s c).fixed = s.fixed := by
  simp [State.applyFence]

@[simp] theorem State.readmitNow_fixed (s : State) (c : BitVec 15) : (State.readmitNow s c).fixed = s.fixed := by
  simp [State.readmitNow]

@[simp] theorem State.takeReadmit_fixed (s : State) (c : BitVec 15) (e : W32) :
    (State.takeReadmit s c e).fixed = s.fixed := by
  simp [State.takeReadmit]

@[simp] theorem State.floodOn_fixed (s : State) (n : Option PortId) (k : Packet) (m : PortId) :
    (State.floodOn s n k m).fixed = s.fixed := by
  unfold State.floodOn; (repeat' split) <;> simp

@[simp] theorem State.takeFence_fixed (s : State) (n : Option PortId) (k : Packet) :
    (State.takeFence s n k).fixed = s.fixed := by
  simp [State.takeFence]

@[simp] theorem State.admitPort_fixed (s : State) (n : PortId) : (State.admitPort s n).fixed = s.fixed := by
  simp [State.admitPort]

@[simp] theorem State.takeMark_fixed (s : State) (n : Option PortId) (k : Packet) :
    (State.takeMark s n k).fixed = s.fixed := by
  simp [State.takeMark]

@[simp] theorem State.fmInject_fixed (s : State) (mark : Bool) (master : Byte) :
    (State.fmInject s mark master).fixed = s.fixed := by
  simp [State.fmInject]

@[simp] theorem State.takeControl_fixed (s : State) (src : BitVec 15) (payload : List Byte) :
    (State.takeControl s src payload).fixed = s.fixed := by
  unfold State.takeControl; (repeat' split) <;> simp

@[simp] theorem State.injectControl_fixed (s : State) (dst : BitVec 15) (payload : List Byte) :
    (State.injectControl s dst payload).fixed = s.fixed := by
  simp [State.injectControl]

@[simp] theorem State.fmSend_fixed (s : State) : (State.fmSend s).fixed = s.fixed := by
  simp [State.fmSend]

@[simp] theorem State.takeReply_fixed (s : State) (src : BitVec 15) (payload : List Byte) :
    (State.takeReply s src payload).fixed = s.fixed := by
  unfold State.takeReply; dsimp only; (repeat' split) <;> simp

@[simp] theorem State.routeWrite_fixed (s : State) (epoch : Bool) (l : List (Nat × Byte)) (master : Byte) :
    (State.routeWrite s epoch l master).fixed = s.fixed := by
  simp [State.routeWrite]

@[simp] theorem State.runDone_fixed (s : State) (p : PartId) (cmd : BitVec 3) (o : OutcomeCode) :
    (State.runDone s p cmd o).fixed = s.fixed := by
  simp [State.runDone]

@[simp] theorem State.imgDone_fixed (s : State) (p : PartId) (cmd : BitVec 2) (o : OutcomeCode) (reason : Byte) :
    (State.imgDone s p cmd o reason).fixed = s.fixed := by
  simp [State.imgDone]

@[simp] theorem State.imgBusyWrite_fixed (s : State) (p : PartId) : (State.imgBusyWrite s p).fixed = s.fixed := by
  simp [State.imgBusyWrite]

@[simp] theorem State.stage_fixed (s : State) (p : PartId) : (State.stage s p).fixed = s.fixed := by
  simp [State.stage]

@[simp] theorem State.commit_fixed (s : State) (p : PartId) : (State.commit s p).fixed = s.fixed := by
  unfold State.commit; (repeat' split) <;> simp

@[simp] theorem State.discard_fixed (s : State) (p : PartId) : (State.discard s p).fixed = s.fixed := by
  simp [State.discard]

@[simp] theorem State.start_fixed (s : State) (p : PartId) : (State.start s p).fixed = s.fixed := by
  simp [State.start]

@[simp] theorem State.quiesce_fixed (s : State) (p : PartId) : (State.quiesce s p).fixed = s.fixed := by
  simp [State.quiesce]

@[simp] theorem State.resume_fixed (s : State) (p : PartId) : (State.resume s p).fixed = s.fixed := by
  simp [State.resume]

@[simp] theorem State.stopEnd_fixed (s : State) (p : PartId) : (State.stopEnd s p).fixed = s.fixed := by
  unfold State.stopEnd; (repeat' split) <;> simp

@[simp] theorem State.stopFor_fixed (s : State) (p : PartId) (cause : Byte) :
    (State.stopFor s p cause).fixed = s.fixed := by
  simp [State.stopFor]

@[simp] theorem State.stop_fixed (s : State) (p : PartId) : (State.stop s p).fixed = s.fixed := by
  simp [State.stop]

@[simp] theorem State.releaseEnd_fixed (s : State) (p : PartId) : (State.releaseEnd s p).fixed = s.fixed := by
  simp [State.releaseEnd]

@[simp] theorem State.release_fixed (s : State) (p : PartId) : (State.release s p).fixed = s.fixed := by
  simp [State.release]

@[simp] theorem State.snap_fixed (s : State) (p : PartId) (master : Byte) : (State.snap s p master).fixed = s.fixed := by
  simp [State.snap]

@[simp] theorem State.loaderRun_fixed (s : State) (cmd : LoaderCmd) (o : OutcomeCode) (reason : Byte) :
    (State.loaderRun s cmd o reason).fixed = s.fixed := by
  simp [State.loaderRun]

@[simp] theorem State.loaderStart_fixed (s : State) (cmd : LoaderCmd) (master : Byte) (f : State → State) (h :
    (f s).fixed = s.fixed) :
    (s.loaderStart cmd master f).fixed = s.fixed := by
  unfold State.loaderStart; (repeat' split) <;> simp [h, State.loaderRun]

@[simp] theorem State.closeSession_fixed (s : State) : (State.closeSession s).fixed = s.fixed := by
  simp [State.closeSession]

@[simp] theorem State.freshNonce_fixed (s : State) : (State.freshNonce s).fixed = s.fixed := by
  simp [State.freshNonce]

@[simp] theorem State.groupSource_fixed (s : State) (p : PartId) (off : Nat) (k : Nat) :
    (State.groupSource s p off k).2.fixed = s.fixed := by
  induction k generalizing s off with
  | zero => rfl
  | succ k ih => unfold State.groupSource; dsimp only; (repeat' split) <;> simp [ih]

@[simp] theorem State.groupRun_fixed (s : State) (p : PartId) (c : Capsule) :
    (State.groupRun s p c).fixed = s.fixed := by
  unfold State.groupRun; dsimp only; (repeat' split) <;> simp

@[simp] theorem State.groupCapsule_fixed (s : State) (p : PartId) (c : Capsule) :
    (State.groupCapsule s p c).fixed = s.fixed := by
  unfold State.groupCapsule; dsimp only; (repeat' split) <;> simp

@[simp] theorem State.pumpCapsule_fixed (s : State) (p : PartId) (op : PumpOp) (c : Capsule) :
    (State.pumpCapsule s p op c).fixed = s.fixed := by
  unfold State.pumpCapsule; dsimp only; (repeat' split) <;> simp

@[simp] theorem State.pumpReset_fixed (s : State) (u : PumpId) : (State.pumpReset s u).fixed = s.fixed := by
  simp [State.pumpReset]

@[simp] theorem State.cqCtrl_fixed (s : State) (p : PartId) (v : W64) (master : Byte) :
    (State.cqCtrl s p v master).fixed = s.fixed := by
  simp [State.cqCtrl]

@[simp] theorem State.cqBase_fixed (s : State) (p : PartId) (v : W64) (master : Byte) :
    (State.cqBase s p v master).fixed = s.fixed := by
  simp [State.cqBase]

@[simp] theorem State.setBar2Base_fixed (s : State) (p : PartId) (v : W64) (master : Byte) :
    (State.setBar2Base s p v master).fixed = s.fixed := by
  simp [State.setBar2Base]

@[simp] theorem State.setPfBase_fixed (s : State) (v : W64) (master : Byte) :
    (State.setPfBase s v master).fixed = s.fixed := by
  simp [State.setPfBase]

@[simp] theorem State.runCtrl_fixed (s : State) (p : PartId) (v : W64) : (State.runCtrl s p v).fixed = s.fixed := by
  unfold State.runCtrl; dsimp only; (repeat' split) <;> simp

@[simp] theorem State.imgCtrl_fixed (s : State) (p : PartId) (v : W64) : (State.imgCtrl s p v).fixed = s.fixed := by
  unfold State.imgCtrl; dsimp only; (repeat' split) <;> simp

@[simp] theorem State.ringCtrl_fixed (s : State) (p : PartId) (v : W64) (master : Byte) :
    (State.ringCtrl s p v master).fixed = s.fixed := by
  simp [State.ringCtrl]

@[simp] theorem State.drainUsage_fixed (s : State) (p : PartId) : (State.drainUsage s p).fixed = s.fixed := by
  simp [State.drainUsage]

@[simp] theorem State.flagsWrite_fixed (s : State) (r : FlagReg) (v : W64) (n : Nat) :
    (State.flagsWrite s r v n).fixed = s.fixed := by
  simp [State.flagsWrite]

@[simp] theorem State.memWrite_fixed (s : State) (u : MemUnit) (x : Nat) (v : W64) (master : Byte) (n : Nat) :
    (State.memWrite s u x v master n).fixed = s.fixed := by
  unfold State.memWrite; (repeat' split) <;> simp

@[simp] theorem State.sndCtrl_fixed (s : State) (v : W64) : (State.sndCtrl s v).fixed = s.fixed := by
  simp [State.sndCtrl]

@[simp] theorem State.ilnWrite_fixed (s : State) (x : Nat) (v : W64) (master : Byte) :
    (State.ilnWrite s x v master).fixed = s.fixed := by
  unfold State.ilnWrite; (repeat' split) <;> simp

@[simp] theorem State.closeFlags_fixed (s : State) : (State.closeFlags s).fixed = s.fixed := by
  simp [State.closeFlags]

@[simp] theorem State.bar0Write_fixed (s : State) (fn : PciFn) (x : Nat) (v : W64) :
    (State.bar0Write s fn x v).fixed = s.fixed := by
  unfold State.bar0Write; (repeat' split) <;> simp

@[simp] theorem State.unsupported_fixed (s : State) : (State.unsupported s).fixed = s.fixed := by
  simp [State.unsupported]

@[simp] theorem State.rouse_fixed (s : State) (l : Loc) : (s.rouse l).fixed = s.fixed := by
  cases l <;> simp [State.rouse]

@[simp] theorem State.barMeter_fixed (s : State) (fn : PciFn) (a len : Nat) (write : Bool) :
    (State.barMeter s fn a len write).fixed = s.fixed := by
  unfold State.barMeter; (repeat' split) <;> simp

@[simp] theorem State.barBlocks_fixed (s : State) (fn : PciFn) (l : List Nat) :
    (s.barBlocks fn l).2.fixed = s.fixed := by
  induction l generalizing s with
  | nil => rfl
  | cons x l ih => unfold State.barBlocks; dsimp only; (repeat' split) <;> simp [ih]

@[simp] theorem State.barReply_fixed (s : State) (fn : PciFn) (off : Nat) (data : Option (List Byte))
    (poisoned : Bool) :
    (State.barReply s fn off data poisoned).fixed = s.fixed := by
  simp [State.barReply]

@[simp] theorem State.wakeRange_fixed (s : State) (fn : PciFn) (off len : Nat) :
    (State.wakeRange s fn off len).fixed = s.fixed := by
  simp [State.wakeRange]

@[simp] theorem State.pcieRegRead_fixed (s : State) (fn : PciFn) (off len : Nat) :
    (State.pcieRegRead s fn off len).2.fixed = s.fixed := by
  unfold State.pcieRegRead; (repeat' split) <;> simp

@[simp] theorem State.bar0Read_fixed (s : State) (fn : PciFn) (offset len : Nat) :
    (State.bar0Read s fn offset len).fixed = s.fixed := by
  unfold State.bar0Read; dsimp only; (repeat' split) <;> simp

@[simp] theorem State.barMerge_fixed (s : State) (l : Loc) (at_ : Nat) (data : List Byte) (poisoned : Bool) :
    (State.barMerge s l at_ data poisoned).fixed = s.fixed := by
  unfold State.barMerge; dsimp only; (repeat' split) <;> simp

@[simp] theorem State.barWrites_fixed (s : State) (fn : PciFn) (a : Nat) (data : List Byte) (poisoned : Bool)
    (k : Nat) :
    (State.barWrites s fn a data poisoned k).fixed = s.fixed := by
  induction k generalizing s a data with
  | zero => rfl
  | succ k ih => unfold State.barWrites; dsimp only; (repeat' split) <;> simp [ih]

@[simp] theorem State.ctlWrites_fixed (s : State) (off : Nat) (data : List Byte) :
    (State.ctlWrites s off data).fixed = s.fixed := by
  simp [State.ctlWrites]

@[simp] theorem State.resizeBar2_fixed (s : State) (fn : PciFn) (log2 : Nat) :
    (State.resizeBar2 s fn log2).fixed = s.fixed := by
  unfold State.resizeBar2; (repeat' split) <;> simp

@[simp] theorem State.hostReadFails_fixed (s : State) (r : HostReader) (o : OutcomeCode) :
    (State.hostReadFails s r o).fixed = s.fixed := by
  unfold State.hostReadFails; (repeat' split) <;> simp

@[simp] theorem State.replyAgain_fixed (s : State) (k : Packet) : (State.replyAgain s k).fixed = s.fixed := by
  unfold State.replyAgain; dsimp only; (repeat' split) <;> simp

@[simp] theorem State.markControl_fixed (s : State) (k : Packet) : (State.markControl s k).fixed = s.fixed := by
  simp [State.markControl]

@[simp] theorem State.arriveFlood_fixed (s : State) (n : PortId) (k : Packet) (trailer : W64) :
    (State.arriveFlood s n k trailer).2.fixed = s.fixed := by
  unfold State.arriveFlood; (repeat' split) <;> simp

@[simp] theorem State.toDetect_fixed (s : State) : (State.toDetect s).fixed = s.fixed := by
  simp [State.toDetect]

@[simp] theorem State.doeReply_fixed (s : State) (b : List Byte) : (State.doeReply s b).fixed = s.fixed := by
  simp [State.doeReply]

@[simp] theorem State.exchange_fixed (s : State) (pub : List Byte) : (State.exchange s pub).2.fixed = s.fixed := by
  simp [State.exchange]

@[simp] theorem State.setIdeKey_fixed (s : State) (i : IdeStream) (wrapped : List Byte) :
    (State.setIdeKey s i wrapped).2.fixed = s.fixed := by
  unfold State.setIdeKey; (repeat' split) <;> simp

@[simp] theorem State.doe_fixed (s : State) (type : Nat) (req : List Byte) : (State.doe s type req).2.fixed = s.fixed := by
  unfold State.doe; dsimp only; (repeat' split) <;> simp

@[simp] theorem State.mctpReply_fixed (s : State) (m : MctpMsg) (o : OutcomeCode) (data : List Byte) :
    (State.mctpReply s m o data).fixed = s.fixed := by
  simp [State.mctpReply]

@[simp] theorem State.mctp_fixed (s : State) (m : MctpMsg) (code : Byte) (ok : Bool) (f : State → State)
    (h : ∀ s, (f s).fixed = s.fixed) : (s.mctp m code ok f).fixed = s.fixed := by
  unfold State.mctp; (repeat' split) <;> simp [h]

end Sys2Proof.Machine
end

