-- ==== Sys2Proof/Laws/Kept.lean ====
section
/-! SUPPORT. What no operation below a reset changes: the recorded generations, the fence state and the device image. -/

namespace Sys2Proof.Machine

/-- The parts of State that shared operations leave alone. -/
def State.kept (s : State) : Sparse W32 × List Nat × Bool × W32 × DeviceImage × W32 × Byte × Bool × Power × LinkState × Nat :=
  (s.ctl.recordedGen, s.fabric.fenced, s.fabric.selfFenced, s.fabric.fenceEpoch, s.image, s.ctl.incident, s.ctl.faultSource,
    s.ctl.halted, s.power, s.link.link, s.link.width)

@[simp] theorem State.kept_mk x0 x1 x2 x3 x4 x5 x6 x7 x8 x9 x10 x11 x12 x13 x14 x15 x16 x17 x18 x19 x20 x21 x22 x23 x24 x25 x26 x27 x28 x29 x30 x31 x32 x33 x34 x35 :
    (State.mk x0 x1 x2 x3 x4 x5 x6 x7 x8 x9 x10 x11 x12 x13 x14 x15 x16 x17 x18 x19 x20 x21 x22 x23 x24 x25 x26 x27 x28 x29 x30 x31 x32 x33 x34 x35).kept = 
      (x11.recordedGen, x23.fenced, x23.selfFenced, x23.fenceEpoch, x9, x11.incident, x11.faultSource, x11.halted, x4, x12.link,
        x12.width) := rfl

@[simp] theorem State.kept_fold (s : State) : 
    (s.ctl.recordedGen, s.fabric.fenced, s.fabric.selfFenced, s.fabric.fenceEpoch, s.image, s.ctl.incident, s.ctl.faultSource,
      s.ctl.halted, s.power, s.link.link, s.link.width) = s.kept := rfl

@[simp] theorem State.kept_ite (c : Prop) [Decidable c] (a b : State) :
    (if c then a else b).kept = if c then a.kept else b.kept := by
  split <;> rfl

@[simp] theorem State.over_kept {α : Type} (l : List α) (f : State → α → State) (h : ∀ s x, (f s x).kept = s.kept) (s : State) :
    (s.over l f).kept = s.kept := State.over_keeps State.kept l f h s

@[simp] theorem State.iff_kept (b : Bool) (f : State → State) (h : ∀ s, (f s).kept = s.kept) (s : State) :
    (s.iff b f).kept = s.kept := State.iff_keeps State.kept b f h s

@[simp] theorem State.foldl_kept {α : Type} (f : State → α → State) (h : ∀ s x, (f s x).kept = s.kept) (l : List α)
    (s : State) : (l.foldl f s).kept = s.kept := State.over_keeps State.kept l f h s

theorem State.snd_of_ite {α : Type} (c : Prop) [Decidable c] (a b : α × State) :
    (if c then a else b).2 = if c then a.2 else b.2 := by
  split <;> rfl

@[simp] theorem State.updPart_kept (s : State) (p : PartId) (f : Partition → Partition) :
    (s.updPart p f).kept = s.kept := by
  rfl

@[simp] theorem State.updSeq_kept (s : State) (p : SeqId) (f : Sequencer → Sequencer) :
    (s.updSeq p f).kept = s.kept := by
  rfl

@[simp] theorem State.updCore_kept (s : State) (p : CoreId) (f : Core → Core) : (s.updCore p f).kept = s.kept := by
  rfl

@[simp] theorem State.updWell_kept (s : State) (p : WellId) (f : MemCtl → MemCtl) :
    (s.updWell p f).kept = s.kept := by
  rfl

@[simp] theorem State.updPump_kept (s : State) (p : PumpId) (f : Pump → Pump) : (s.updPump p f).kept = s.kept := by
  rfl

@[simp] theorem State.updPort_kept (s : State) (p : PortId) (f : Port → Port) : (s.updPort p f).kept = s.kept := by
  rfl

@[simp] theorem State.updAxis_kept (s : State) (p : AxisId) (f : AxisEngine → AxisEngine) :
    (s.updAxis p f).kept = s.kept := by
  rfl

@[simp] theorem State.updSluice_kept (s : State) (p : SluiceId) (f : Sluice → Sluice) :
    (s.updSluice p f).kept = s.kept := by
  rfl

@[simp] theorem State.updField_kept (s : State) (p : FieldId) (f : Field → Field) :
    (s.updField p f).kept = s.kept := by
  rfl

@[simp] theorem State.updMem_kept (s : State) (u : MemUnit) (f : MemCtl → MemCtl) :
    (s.updMem u f).kept = s.kept := by
  cases u <;> rfl

@[simp] theorem State.msi_kept (s : State) (fn : PciFn) (v : Nat) : (State.msi s fn v).kept = s.kept := by
  simp [State.msi]

@[simp] theorem State.act_kept (s : State) (unit p n : Nat) : (State.act s unit p n).kept = s.kept := by
  simp [State.act]

@[simp] theorem State.meter_kept (s : State) (p : PartId) (k : Fin 14) (n : Nat) :
    (State.meter s p k n).kept = s.kept := by
  simp [State.meter]

@[simp] theorem State.fresh_kept (s : State) : (State.fresh s).2.kept = s.kept := by
  simp [State.fresh]

@[simp] theorem State.newItem_kept (s : State) : (State.newItem s).2.kept = s.kept := by
  simp [State.newItem]

@[simp] theorem State.event_kept (s : State) (code : W16) (unit part severity : Byte) (incident : W32)
    (detail : BitVec 224) :
    (State.event s code unit part severity incident detail).kept = s.kept := by
  simp [State.event]

@[simp] theorem State.flushAlmanac_kept (s : State) : (State.flushAlmanac s).kept = s.kept := by
  simp [State.flushAlmanac]

@[simp] theorem State.evidence_kept (s : State) (part : Nat) (k : Fin 11) (n : Nat) :
    (State.evidence s part k n).kept = s.kept := by
  unfold State.evidence; (repeat' split) <;> simp

@[simp] theorem State.baroOut_kept (s : State) (part : Nat) (out : Bool) :
    (State.baroOut s part out).kept = s.kept := by
  unfold State.baroOut; (repeat' split) <;> simp

@[simp] theorem State.raiseV0_kept (s : State) (p : PartId) : (State.raiseV0 s p).kept = s.kept := by
  simp [State.raiseV0]

@[simp] theorem State.raiseCtr_kept (s : State) (c : CoreId) (n : CtrId) (ok : Bool) :
    (State.raiseCtr s c n ok).kept = s.kept := by
  simp [State.raiseCtr]

@[simp] theorem State.raiseNamed_kept (s : State) (core ctr : Nat) (ok : Bool) :
    (State.raiseNamed s core ctr ok).kept = s.kept := by
  unfold State.raiseNamed; (repeat' split) <;> simp

@[simp] theorem State.countAxis_kept (s : State) (r : Record) : (s.countAxis r).kept = s.kept := by
  unfold State.countAxis; split <;> rfl

@[simp] theorem State.written_kept (s : State) (r : Record) : (s.written r).kept = s.kept := by
  unfold State.written; split <;> simp [State.raiseCtr]

@[simp] theorem State.writeRing_kept (s : State) (p : PartId) (r : Record) (v0 : Bool) :
    (State.writeRing s p r v0).kept = s.kept := by
  simp [State.writeRing]

@[simp] theorem State.orphan_kept (s : State) (p : PartId) (r : Record) (words : List W64) :
    (s.orphan p r words).kept = s.kept := (State.countAxis_kept _ r).trans rfl

@[simp] theorem State.touch_kept (s : State) (p : PartId) : (State.touch s p).kept = s.kept := by
  simp [State.touch]

@[simp] theorem State.post_kept (s0 : State) (p : PartId) (r : Record) (v0 : Bool) :
    (State.post s0 p r v0).kept = s0.kept := by
  simp [State.post]

@[simp] theorem State.flushHeld_kept (s : State) (p : PartId) (k : Nat) :
    (State.flushHeld s p k).kept = s.kept := by
  induction k generalizing s with
  | zero => rfl
  | succ k ih => unfold State.flushHeld; dsimp only; (repeat' split) <;> simp [ih]

@[simp] theorem State.setPart_kept (s : State) (p : PartId) (st : PartState) :
    (State.setPart s p st).kept = s.kept := by
  simp [State.setPart]

@[simp] theorem State.writeUsage_kept (s : State) (p : PartId) (u : UsageRecord) :
    (State.writeUsage s p u).kept = s.kept := by
  simp [State.writeUsage]

@[simp] theorem State.usage_kept (s : State) (p : PartId) (reason : Nat) :
    (State.usage s p reason).kept = s.kept := by
  simp [State.usage]

@[simp] theorem State.flushUsage_kept (s : State) (p : PartId) (k : Nat) :
    (State.flushUsage s p k).kept = s.kept := by
  induction k generalizing s with
  | zero => rfl
  | succ k ih => unfold State.flushUsage; dsimp only; (repeat' split) <;> simp [ih]

@[simp] theorem State.report_kept (s : State) (master : Byte) (offset : Nat) (o : OutcomeCode) (stale : Bool)
    (window : Option PartId) :
    (State.report s master offset o stale window).kept = s.kept := by
  unfold State.report; (repeat' split) <;> simp

@[simp] theorem State.deviceStop_kept (s : State) (p : PartId) (cause : Byte) :
    (State.deviceStop s p cause).kept = s.kept := by
  simp [State.deviceStop]

@[simp] theorem State.atReg_kept (s : State) (off : Nat) (f : State → State) (h : ∀ s, (f s).kept = s.kept) :
    (s.atReg off f).kept = s.kept := State.iff_kept _ f h s

@[simp] theorem State.updFlags_kept (s : State) (r : FlagReg) (f : Flags → Flags) :
    (s.updFlags r f).kept = s.kept := by
  cases r <;> rfl

@[simp] theorem State.itemFlags_kept (s old : State) (n : Nat) : (State.itemFlags s old n).kept = s.kept := by
  simp [State.itemFlags]

@[simp] theorem State.logUe_kept (s : State) (u : MemUnit) (a : Nat) (src : ReadSource) :
    (State.logUe s u a src).kept = s.kept := by
  simp [State.logUe]

@[simp] theorem State.stewardRemap_kept (s : State) (u : MemUnit) (k : Nat) :
    (State.stewardRemap s u k).kept = s.kept := by
  simp [State.stewardRemap]

@[simp] theorem State.corrected_kept (s : State) (u : MemUnit) (a : Nat) (writeBack : Bool) :
    (State.corrected s u a writeBack).kept = s.kept := by
  simp [State.corrected]

@[simp] theorem State.readSector_kept (s : State) (u : MemUnit) (a : Nat) (src : ReadSource) (extra : List Nat)
    (onDie : Nat) :
    (State.readSector s u a src extra onDie).2.kept = s.kept := by
  unfold State.readSector; dsimp only; (repeat' split) <;> simp

@[simp] theorem State.readBlock_kept (s : State) (l : Loc) (src : ReadSource) :
    (State.readBlock s l src).2.kept = s.kept := by
  unfold State.readBlock; (repeat' split) <;> simp

@[simp] theorem State.writeBlock_kept (s : State) (l : Loc) (data : List Byte) (poison : Bool) :
    (s.writeBlock l data poison).kept = s.kept := by
  cases l <;> simp [State.writeBlock]

@[simp] theorem State.addSector_kept (s : State) (w : WellId) (a : Nat) (op : Nat) (data : List Byte)
    (poison ieee : Bool) :
    (State.addSector s w a op data poison ieee).2.kept = s.kept := by
  unfold State.addSector; dsimp only; (repeat' split) <;> simp

@[simp] theorem State.noteTc12_kept (s : State) (k : Packet) : (State.noteTc12 s k).kept = s.kept := by
  simp [State.noteTc12]

@[simp] theorem State.sendFlits_kept (s : State) (n : PortId) (e : HeldPkt) (f : Nat) :
    (State.sendFlits s n e f).kept = s.kept := by
  simp [State.sendFlits]

@[simp] theorem State.slots_kept (s : State) (n : PortId) (k : Nat) : (s.slots n k).kept = s.kept := by
  induction k generalizing s with
  | zero => rfl
  | succ k ih => unfold State.slots; split <;> simp [ih]

@[simp] theorem State.flushPort_kept (s : State) (n : PortId) : (State.flushPort s n).kept = s.kept := by
  simp [State.flushPort]

@[simp] theorem State.toPort_kept (s : State) (n : PortId) (v : VcId) (k : Packet) (via : Option (PortId × VcId)) :
    (State.toPort s n v k via).kept = s.kept := by
  unfold State.toPort; dsimp only; split <;> simp

@[simp] theorem State.refill_kept (s : State) (n : PortId) : (State.refill s n).kept = s.kept := by
  simp [State.refill]

@[simp] theorem State.tc0_kept (s : State) (n : PortId) (v : VcId) (k : Packet) :
    (State.tc0 s n v k).kept = s.kept := by
  simp [State.tc0]

@[simp] theorem State.routeDrop_kept (s : State) (n : Option PortId) : (State.routeDrop s n).kept = s.kept := by
  simp [State.routeDrop]

@[simp] theorem State.launchOn_kept (s : State) (k : Packet) : (State.launchOn s k).2.kept = s.kept := by
  unfold State.launchOn; (repeat' split) <;> simp

@[simp] theorem State.launch_kept (s : State) (k : Packet) : (State.launch s k).kept = s.kept := by
  simp [State.launch]

@[simp] theorem State.tc0Drain_kept (s : State) (n : PortId) (k : Nat) : (State.tc0Drain s n k).kept = s.kept := by
  induction k generalizing s with
  | zero => rfl
  | succ k ih => unfold State.tc0Drain; dsimp only; (repeat' split) <;> simp [ih]

@[simp] theorem State.updXfer_kept (s : State) (id : Nat) (f : Xfer → Xfer) : (s.updXfer id f).kept = s.kept := by
  rfl

@[simp] theorem State.readView_kept (s : State) (p : PartId) (off : Nat) (k : Nat) :
    (State.readView s p off k).2.kept = s.kept := by
  induction k generalizing s off with
  | zero => rfl
  | succ k ih => unfold State.readView; dsimp only; (repeat' split) <;> simp [ih]

@[simp] theorem State.actWells_kept (s : State) (p : PartId) (off n : Nat) (k : Nat) :
    (State.actWells s p off n k).kept = s.kept := by
  induction k generalizing s off n with
  | zero => rfl
  | succ k ih => unfold State.actWells; dsimp only; (repeat' split) <;> simp [ih]

@[simp] theorem State.meterPump_kept (s : State) (u : PumpId) (p : PartId) (k : Fin 14) (n : Nat) :
    (State.meterPump s u p k n).kept = s.kept := by
  simp [State.meterPump]

@[simp] theorem State.meterMove_kept (s : State) (p : PartId) (off n : Nat) (write : Bool) :
    (State.meterMove s p off n write).kept = s.kept := by
  simp [State.meterMove]

@[simp] theorem State.writeView_kept (s : State) (p : PartId) (off : Nat) (data : List Byte) (poison : Bool)
    (k : Nat) :
    (State.writeView s p off data poison k).kept = s.kept := by
  induction k generalizing s off data with
  | zero => rfl
  | succ k ih => unfold State.writeView; dsimp only; (repeat' split) <;> simp [ih]

@[simp] theorem State.freeLoc_kept (s : State) (l : Loc) : (State.freeLoc s l).kept = s.kept := by
  unfold State.freeLoc; dsimp only; (repeat' split) <;> simp

@[simp] theorem State.freeView_kept (s : State) (p : PartId) (off k : Nat) : (s.freeView p off k).kept = s.kept := by
  induction k generalizing s off with
  | zero => rfl
  | succ k ih => unfold State.freeView; (repeat' split) <;> simp [ih]

@[simp] theorem State.patchBlock_kept (s : State) (l : Loc) (at_ : Nat) (data : List Byte) (poison : Bool)
    (src : ReadSource) :
    (State.patchBlock s l at_ data poison src).kept = s.kept := by
  simp [State.patchBlock]

@[simp] theorem State.patchView_kept (s : State) (p : PartId) (off : Nat) (data : List Byte) (poison : Bool)
    (src : ReadSource) (k : Nat) :
    (State.patchView s p off data poison src k).kept = s.kept := by
  induction k generalizing s off data with
  | zero => rfl
  | succ k ih => unfold State.patchView; dsimp only; (repeat' split) <;> simp [ih]

@[simp] theorem State.viewBytes_kept (s : State) (p : PartId) (off len : Nat) :
    (State.viewBytes s p off len).2.kept = s.kept := by
  simp [State.viewBytes]

@[simp] theorem State.updFabric_kept (s : State) (f : Fabric → Fabric) (h : ∀ x, (f x).fenced = x.fenced)
    (h1 : ∀ x, (f x).selfFenced = x.selfFenced) (h2 : ∀ x, (f x).fenceEpoch = x.fenceEpoch) :
    (s.updFabric f).kept = s.kept := by
  simp only [State.updFabric, State.kept, h, h1, h2]

@[simp] theorem State.putSrc_kept (s : State) (k : Nat) (x : SrcStream) : (State.putSrc s k x).kept = s.kept := by
  simp [State.putSrc]

@[simp] theorem State.putDst_kept (s : State) (k : Nat) (x : DstStream) : (State.putDst s k x).kept = s.kept := by
  simp [State.putDst]

@[simp] theorem State.sendCopy_kept (s : State) (key : Nat) (o : OutPacket) :
    (State.sendCopy s key o).kept = s.kept := by
  unfold State.sendCopy; dsimp only; (repeat' split) <;> simp

@[simp] theorem State.unstall_kept (s : State) (key : Nat) (k : Nat) : (State.unstall s key k).kept = s.kept := by
  induction k generalizing s with
  | zero => rfl
  | succ k ih => unfold State.unstall; dsimp only; (repeat' split) <;> simp [ih]

@[simp] theorem State.enqueue_kept (s : State) (o : OutPacket) : (State.enqueue s o).kept = s.kept := by
  simp [State.enqueue]

@[simp] theorem State.inject_kept (s : State) (k : Packet) (item : ItemRef) (from_ : Option W64) :
    (State.inject s k item from_).kept = s.kept := by
  simp [State.inject]

@[simp] theorem State.sendLoose_kept (s : State) (k : Packet) : (State.sendLoose s k).kept = s.kept := by
  simp [State.sendLoose]

@[simp] theorem State.reread_kept (s : State) (o : OutPacket) (host : Bool) :
    (State.reread s o host).2.kept = s.kept := by
  unfold State.reread; (repeat' split) <;> simp

@[simp] theorem State.countResend_kept (s : State) (o : OutPacket) : (State.countResend s o).kept = s.kept := by
  unfold State.countResend; (repeat' split) <;> simp

@[simp] theorem State.poisonItem_kept (s : State) (r : ItemRef) : (s.poisonItem r).kept = s.kept := by
  unfold State.poisonItem; split <;> simp

@[simp] theorem State.resend_kept (s : State) (key : Nat) (o : OutPacket) : (State.resend s key o).kept = s.kept := by
  have h := State.reread_kept s o (s.itemHost o.item)
  unfold State.resend; dsimp only
  split <;> split <;> simp_all

@[simp] theorem State.unlist_kept (s : State) (key : Nat) (psn : W32) :
    (State.unlist s key psn).kept = s.kept := by
  simp [State.unlist]

@[simp] theorem State.resendOrdered_kept (s : State) (key : Nat) (psn : W32) :
    (s.resendOrdered key psn).kept = s.kept := by
  refine State.over_keeps State.kept _ _ (fun t o => ?_) s
  split <;> simp

@[simp] theorem State.nakTo_kept (s : State) (k : Packet) (code : Nat) : (State.nakTo s k code).kept = s.kept := by
  simp [State.nakTo]

@[simp] theorem State.readSrc_kept (s : State) (x : Xfer) (at_ n : Nat) :
    (State.readSrc s x at_ n).2.kept = s.kept := by
  unfold State.readSrc; dsimp only; (repeat' split) <;> simp

@[simp] theorem State.writePacketOf_kept (s : State) (x : Xfer) (at_ n : Nat) :
    (State.writePacketOf s x at_ n).2.kept = s.kept := by
  simp [State.writePacketOf]

@[simp] theorem State.sendCut_kept (s : State) (x : Xfer) (c : Nat × Nat) :
    (State.sendCut s x c).kept = s.kept := by
  simp [State.sendCut]

@[simp] theorem State.poisonLoc_kept (s : State) (l : Loc) : (State.poisonLoc s l).kept = s.kept := by
  unfold State.poisonLoc; (repeat' split) <;> simp

@[simp] theorem State.poisonView_kept (s : State) (p : PartId) (off k : Nat) :
    (State.poisonView s p off k).kept = s.kept := by
  induction k generalizing s off with
  | zero => rfl
  | succ k ih => unfold State.poisonView; (repeat' split) <;> simp [ih]

@[simp] theorem State.poisonUnread_kept (s : State) (x : Xfer) : (State.poisonUnread s x).kept = s.kept := by
  unfold State.poisonUnread
  split
  · exact State.over_kept _ _ (fun s o => by split <;> simp) s
  · rfl

@[simp] theorem State.startXfer_kept (s : State) (x0 : Xfer) : (State.startXfer s x0).kept = s.kept := by
  unfold State.startXfer; dsimp only; split
  · rfl
  · (repeat' split) <;> simp

@[simp] theorem State.moveBlock_kept (s : State) (x : Xfer) (i : Nat) : (State.moveBlock s x i).kept = s.kept := by
  unfold State.moveBlock; dsimp only; (repeat' split) <;> simp

@[simp] theorem State.moveLocal_kept (s : State) (x : Xfer) : (State.moveLocal s x).kept = s.kept := by
  simp [State.moveLocal]

@[simp] theorem State.writeRingRecord_kept (s : State) (x : Xfer) (r : Record) :
    (State.writeRingRecord s x r).kept = s.kept := by
  simp [State.writeRingRecord]

@[simp] theorem State.endXfer_kept (s : State) (x : Xfer) (o : OutcomeCode) :
    (State.endXfer s x o).kept = s.kept := by
  unfold State.endXfer; (repeat' split) <;> simp

@[simp] theorem State.endXferFor_kept (s : State) (x : Xfer) (o : OutcomeCode) :
    (State.endXferFor s x o).kept = s.kept := by
  simp [State.endXferFor]

@[simp] theorem State.completeXfer_kept (s : State) (id : Nat) : (State.completeXfer s id).kept = s.kept := by
  unfold State.completeXfer; dsimp only; (repeat' split) <;> simp

@[simp] theorem State.settleXfer_kept (s : State) (id : Nat) (o : OutcomeCode) (k : Packet) (from_ : Option W64) :
    (State.settleXfer s id o k from_).kept = s.kept := by
  unfold State.settleXfer; (repeat' split) <;> simp

@[simp] theorem State.retain_kept (s : State) (f : FieldId) : (State.retain s f).kept = s.kept := by
  simp [State.retain]

@[simp] theorem State.unretain_kept (s : State) (f : FieldId) : (State.unretain s f).kept = s.kept := by
  simp [State.unretain]

@[simp] theorem State.unrest_kept (s : State) (u : MemUnit) : (State.unrest s u).kept = s.kept := by
  simp [State.unrest]

@[simp] theorem State.wakePump_kept (s : State) (u : PumpId) : (State.wakePump s u).kept = s.kept := by
  simp [State.wakePump]

@[simp] theorem State.wakeTo_kept (s : State) (p : PartId) (d : Nat) : (State.wakeTo s p d).kept = s.kept := by
  simp [State.wakeTo]

@[simp] theorem State.wake_kept (s : State) (p : PartId) : (State.wake s p).kept = s.kept := by
  simp [State.wake]

@[simp] theorem State.wakeAccess_kept (s : State) (off : Nat) : (State.wakeAccess s off).kept = s.kept := by
  unfold State.wakeAccess; dsimp only; (repeat' split) <;> simp

@[simp] theorem State.capDone_kept (s : State) (p : PartId) (c : Capsule) (engine : Byte) (o : OutcomeCode)
    (detail : Nat) :
    (State.capDone s p c engine o detail).kept = s.kept := by
  simp [State.capDone]

@[simp] theorem State.capDoneBy_kept (s : State) (p : PartId) (c : Capsule) (engine : Byte) (o : OutcomeCode)
    (detail core ctr : Nat) :
    (State.capDoneBy s p c engine o detail core ctr).kept = s.kept := by
  simp [State.capDoneBy]

@[simp] theorem State.capBad_kept (s : State) (p : PartId) (c : Capsule) (d : Nat) :
    (State.capBad s p c d).kept = s.kept := by
  simp [State.capBad]

@[simp] theorem State.examine_kept (s : State) (p : PartId) : (State.examine s p).2.kept = s.kept := by
  unfold State.examine; dsimp only; (repeat' split) <;> simp

@[simp] theorem State.takeCapsules_kept (s : State) (p : PartId) (k : Nat) :
    (State.takeCapsules s p k).kept = s.kept := by
  induction k generalizing s with
  | zero => rfl
  | succ k ih => unfold State.takeCapsules; dsimp only; (repeat' split) <;> simp [ih]

@[simp] theorem State.capWrite_kept (s : State) (p : PartId) (off : Nat) (data : List Byte) :
    (State.capWrite s p off data).kept = s.kept := by
  simp [State.capWrite]

@[simp] theorem State.flushAndTake_kept (s : State) (p : PartId) : (State.flushAndTake s p).kept = s.kept := by
  simp [State.flushAndTake]

@[simp] theorem State.withCapsule_kept (s : State) (p : PartId) (kind : Nat) (sel : Capsule → Bool) (f : State → Capsule → State)
    (h : ∀ s c, (f s c).kept = s.kept) : (s.withCapsule p kind sel f).kept = s.kept := by
  unfold State.withCapsule; split <;> simp [h]

@[simp] theorem State.refuseQueued_kept (s : State) (p : PartId) : (State.refuseQueued s p).kept = s.kept := by
  simp [State.refuseQueued]

@[simp] theorem State.setGroup_kept (s : State) (p : PartId) (g : Nat) (x : Group) :
    (State.setGroup s p g x).kept = s.kept := by
  simp [State.setGroup]

@[simp] theorem State.updGroup_kept (s : State) (p : PartId) (g : Nat) (f : Group → Group) :
    (s.updGroup p g f).kept = s.kept := by
  rfl

@[simp] theorem State.updCmd_kept (s : State) (p : PartId) (id : Nat) (f : PumpCmd → PumpCmd) :
    (s.updCmd p id f).kept = s.kept := by
  rfl

@[simp] theorem State.writeRecord_kept (s : State) (p : PartId) (off : Nat) (r : Record) :
    (State.writeRecord s p off r).kept = s.kept := by
  simp [State.writeRecord]

@[simp] theorem State.endCmd_kept (s : State) (p : PartId) (c : PumpCmd) (inc : W32) :
    (State.endCmd s p c inc).kept = s.kept := by
  simp [State.endCmd]

@[simp] theorem State.endGroup_kept (s : State) (p : PartId) (id i : Nat) (o : OutcomeCode)
    (code params : Nat) (row : Option (List Nat)) (inc : W32) :
    (State.endGroup s p id i o code params row inc).kept = s.kept := by
  unfold State.endGroup; dsimp only; (repeat' split) <;> simp

@[simp] theorem State.unbusy_kept (s : State) (p : PartId) (g : Nat) : (State.unbusy s p g).kept = s.kept := by
  simp [State.unbusy]

@[simp] theorem State.unorder_kept (s : State) (p : PartId) (g : Nat) : (State.unorder s p g).kept = s.kept := by
  simp [State.unorder]

@[simp] theorem State.dropWaiting_kept (s : State) (p : PartId) (id i : Nat) (o : OutcomeCode) (inc : W32) :
    (State.dropWaiting s p id i o inc).kept = s.kept := by
  unfold State.dropWaiting; (repeat' split) <;> simp

@[simp] theorem State.endWaiting_kept (s : State) (p : PartId) (c : PumpCmd) (untriggered : Bool)
    (o : OutcomeCode) (inc : W32) :
    (State.endWaiting s p c untriggered o inc).kept = s.kept := by
  simp [State.endWaiting]

@[simp] theorem State.gateAll_kept (s : State) (p : PartId) : (State.gateAll s p).kept = s.kept := by
  simp [State.gateAll]

@[simp] theorem State.latch_kept (s : State) (p : PartId) (cause action : Nat) :
    (State.latch s p cause action).kept = s.kept := by
  simp [State.latch]

@[simp] theorem State.mismatch_kept (s : State) (p : PartId) (g : Nat) (t : W32) :
    (State.mismatch s p g t).kept = s.kept := by
  simp [State.mismatch]

@[simp] theorem State.curveValue_kept (s : State) (p : PartId) (off t : Nat) (sat : Bool) :
    (State.curveValue s p off t sat).2.kept = s.kept := by
  unfold State.curveValue; dsimp only; (repeat' split) <;> simp

@[simp] theorem State.evalRow_kept (s : State) (p : PartId) (g : Nat) (t gScale : W32) :
    (s.evalRow p g t gScale).2.kept = s.kept := by
  unfold State.evalRow
  simp only [State.snd_of_ite]
  split
  · have h := State.curveValue_kept s p (s.group p g).curveOff.toNat t.toNat (!s.ieee p)
    split <;> rename_i e <;> rw [e] at h <;> exact h
  · rfl

@[simp] theorem State.claimGroup_kept (s : State) (p : PartId) (id i : Nat) :
    (s.claimGroup p id i).kept = s.kept := by
  unfold State.claimGroup
  split
  · rfl
  · rename_i c _
    have h := State.evalRow_kept s p (c.first + i) c.t c.gScale
    dsimp only
    split <;> rename_i e <;> rw [e] at h <;> simpa using h

@[simp] theorem State.bindVerdict_kept (s : State) (p : PartId) (id : Nat) (open_ : Bool) :
    (State.bindVerdict s p id open_).kept = s.kept := by
  unfold State.bindVerdict; (repeat' split) <;> simp

@[simp] theorem State.settleGroup_kept (s : State) (p : PartId) (id i : Nat) (c : PumpCmd) :
    (State.settleGroup s p id i c).kept = s.kept := by
  unfold State.settleGroup; dsimp only; (repeat' split) <;> simp

@[simp] theorem State.checkGroup_kept (s : State) (p : PartId) (id i : Nat) :
    (State.checkGroup s p id i).kept = s.kept := by
  unfold State.checkGroup; (repeat' split) <;> simp

@[simp] theorem State.fireCmd_kept (s : State) (p : PartId) (id : Nat) : (State.fireCmd s p id).kept = s.kept := by
  unfold State.fireCmd; dsimp only; (repeat' split) <;> simp

@[simp] theorem State.tear_kept (s : State) (u : PumpId) (w : Sweep) (o : OutcomeCode) (mixed : Bool) (inc : W32) :
    (State.tear s u w o mixed inc).kept = s.kept := by
  unfold State.tear; dsimp only; (repeat' split) <;> simp

@[simp] theorem State.sweepInputs_kept (s : State) (p : PartId) (e : Group) (lo n : Nat) :
    (State.sweepInputs s p e lo n).2.kept = s.kept := by
  simp [State.sweepInputs]

@[simp] theorem State.sweepBlock_kept (s : State) (u : PumpId) (w : Sweep) :
    (State.sweepBlock s u w).kept = s.kept := by
  unfold State.sweepBlock; dsimp only; (repeat' split) <;> simp

@[simp] theorem State.tearClaims_kept (s : State) (p : PartId) (sel : Group → Bool) :
    (s.tearClaims p sel).kept = s.kept := by
  simp [State.tearClaims]

@[simp] theorem State.stopPumps_kept (s : State) (p : PartId) (inc : W32) :
    (State.stopPumps s p inc).kept = s.kept := by
  simp [State.stopPumps]

@[simp] theorem State.tearSweep_kept (s : State) (u : PumpId) (o : OutcomeCode) (mixed : Bool) (inc : W32) :
    (s.tearSweep u o mixed inc).kept = s.kept := by
  unfold State.tearSweep; split <;> simp

@[simp] theorem State.resetPumpItems_kept (s : State) (u : PumpId) (o : OutcomeCode) (mixed : Bool) (inc : W32) :
    (s.resetPumpItems u o mixed inc).kept = s.kept := by
  refine Eq.trans ?_ (State.tearSweep_kept s u o mixed inc)
  refine State.over_keeps State.kept _ _ (fun t p => ?_) _
  simp only [State.tearClaims_kept]
  refine State.over_keeps State.kept _ _ (fun t2 c => ?_) t
  refine State.over_keeps State.kept _ _ (fun t3 i => ?_) t2
  (repeat' split) <;> simp

@[simp] theorem State.updStorm_kept (s : State) (p : PartId) (f : Storm → Storm) :
    (s.updStorm p f).kept = s.kept := by
  rfl

@[simp] theorem State.formVerdict_kept (s : State) (p : PartId) : (State.formVerdict s p).kept = s.kept := by
  simp [State.formVerdict]

@[simp] theorem State.closeArrives_kept (s : State) (p : PartId) (c : CoreId) (step : W32) (ctr : CtrId) :
    (State.closeArrives s p c step ctr).kept = s.kept := by
  simp [State.closeArrives]

@[simp] theorem State.departClosing_kept (s : State) (p : PartId) (n : SeqId) :
    (State.departClosing s p n).kept = s.kept := by
  simp [State.departClosing]

@[simp] theorem State.deliverVerdict_kept (s : State) (p : PartId) : (State.deliverVerdict s p).kept = s.kept := by
  unfold State.deliverVerdict; (repeat' split) <;> simp

@[simp] theorem State.dropReport_kept (s : State) (c : CoreId) : (State.dropReport s c).kept = s.kept := by
  simp [State.dropReport]

@[simp] theorem State.stormRun_kept (s : State) (p : PartId) (c : Capsule) :
    (State.stormRun s p c).kept = s.kept := by
  unfold State.stormRun; (repeat' split) <;> simp

@[simp] theorem State.stormCapsule_kept (s : State) (p : PartId) (c : Capsule) :
    (State.stormCapsule s p c).kept = s.kept := by
  simp [State.stormCapsule]

@[simp] theorem State.countE2e_kept (s : State) (n : PortId) : (State.countE2e s n).kept = s.kept := by
  simp [State.countE2e]

@[simp] theorem State.oweAck_kept (s : State) (k : Packet) : (State.oweAck s k).kept = s.kept := by
  simp [State.oweAck]

@[simp] theorem State.markDelivered_kept (s : State) (k : Packet) : (State.markDelivered s k).kept = s.kept := by
  simp [State.markDelivered]

@[simp] theorem State.holdOrdered_kept (s : State) (n : PortId) (k : Packet) :
    (State.holdOrdered s n k).kept = s.kept := by
  simp [State.holdOrdered]

@[simp] theorem State.dropHeld_kept (s : State) (key : Nat) : (State.dropHeld s key).kept = s.kept := by
  simp [State.dropHeld]

@[simp] theorem State.arrive_kept (s : State) (n : PortId) (k : Packet) (trailer : W64)
    (refusal : State → Option Nat) :
    (s.arrive n k trailer refusal).2.kept = s.kept := by
  unfold State.arrive; dsimp only; (repeat' split) <;> simp

@[simp] theorem State.wakeBy_kept (s : State) (k : Packet) : (State.wakeBy s k).kept = s.kept := by
  simp [State.wakeBy]

@[simp] theorem State.updLayer_kept (s : State) (n : SluiceId) (id : Nat) (f : Layer → Layer) :
    (s.updLayer n id f).kept = s.kept := by
  rfl

@[simp] theorem State.slcWrite_kept (s : State) (p : PartId) (off : Nat) (data : List Byte) (poison : Bool) :
    (State.slcWrite s p off data poison).kept = s.kept := by
  simp [State.slcWrite]

@[simp] theorem State.slcRead_kept (s : State) (p : PartId) (off len : Nat) :
    (State.slcRead s p off len).2.kept = s.kept := by
  simp [State.slcRead]

@[simp] theorem State.sendSegment_kept (s : State) (n : SluiceId) (l : Layer) (r : Route) (nseg i : Nat)
    (c : Nat × Nat) :
    (State.sendSegment s n l r nseg i c).kept = s.kept := by
  simp [State.sendSegment]

@[simp] theorem State.formRoute_kept (s : State) (n : SluiceId) (id : Nat) (r0 : Route) :
    (State.formRoute s n id r0).kept = s.kept := by
  unfold State.formRoute; (repeat' split) <;> simp

@[simp] theorem State.formToken_kept (s : State) (n : SluiceId) (l : Layer) (t : Nat) :
    (State.formToken s n l t).kept = s.kept := by
  simp [State.formToken]

@[simp] theorem State.sendLayer_kept (s : State) (n : SluiceId) (l : Layer) :
    (State.sendLayer s n l).kept = s.kept := by
  simp [State.sendLayer]

@[simp] theorem State.admitRoute_kept (s : State) (n : SluiceId) (l : Layer) (src : BitVec 15)
    (srcSluice token slot expert : Nat) (gate : W32) (fits : Bool) :
    (State.admitRoute s n l src srcSluice token slot expert gate fits).2.kept = s.kept := by
  unfold State.admitRoute; dsimp only; (repeat' split) <;> simp

@[simp] theorem State.passLocal_kept (s : State) (n : SluiceId) (l : Layer) (r : Route) :
    (s.passLocal n l r).kept = s.kept := by
  unfold State.passLocal
  dsimp only
  split
  · rfl
  · rename_i d _
    have h := State.admitRoute_kept (s.updLayer n l.id (·.updRoute (l.index r) fun r => { r with waits := false }))
      (sluiceOf r.dest) d s.chip n.val r.token r.slot r.expert r.gate (l.rowBytes == d.rowBytes && l.step == d.step)
    split
    · rename_i e
      rw [e] at h
      simpa using h
    · rename_i e
      rw [e] at h
      split <;> simpa using h

@[simp] theorem State.sendEnd_kept (s : State) (n : SluiceId) (id : Nat) (d : Nat × Nat) :
    (State.sendEnd s n id d).kept = s.kept := by
  unfold State.sendEnd; (repeat' split) <;> simp

@[simp] theorem State.writeCounts_kept (s : State) (l : Layer) : (State.writeCounts s l).kept = s.kept := by
  simp [State.writeCounts]

@[simp] theorem State.tryArrive_kept (s : State) (n : SluiceId) (id : Nat) :
    (State.tryArrive s n id).kept = s.kept := by
  unfold State.tryArrive; (repeat' split) <;> simp

@[simp] theorem State.stageSegment_kept (s : State) (n : SluiceId) (l : Layer) (token slot seg : Nat)
    (data : List Byte) (poison : Bool) :
    (State.stageSegment s n l token slot seg data poison).kept = s.kept := by
  unfold State.stageSegment; dsimp only; (repeat' split) <;> simp

@[simp] theorem State.returnRow_kept (s : State) (n : SluiceId) (l : Layer) (loc pos : Nat) :
    (s.returnRow n l loc pos).kept = s.kept := by
  unfold State.returnRow
  dsimp only
  refine Eq.trans (State.over_keeps State.kept _ _ (fun t c => ?_) _) (State.slcRead_kept _ _ _ _)
  (repeat' split) <;> simp

@[simp] theorem State.returnLayer_kept (s : State) (n : SluiceId) (l : Layer) :
    (State.returnLayer s n l).kept = s.kept := by
  simp [State.returnLayer]

@[simp] theorem State.readStaged_kept (s : State) (n : SluiceId) (l : Layer) (r : List Route) :
    (s.readStaged n l r).2.kept = s.kept := by
  induction r generalizing s with
  | nil => rfl
  | cons x l ih => unfold State.readStaged; dsimp only; (repeat' split) <;> simp [ih]

@[simp] theorem State.writeRouteRecord_kept (s : State) (n : SluiceId) (l : Layer) (r : Route) :
    (State.writeRouteRecord s n l r).kept = s.kept := by
  simp [State.writeRouteRecord]

@[simp] theorem State.combineToken_kept (s : State) (n : SluiceId) (id t : Nat) :
    (State.combineToken s n id t).kept = s.kept := by
  unfold State.combineToken; dsimp only; (repeat' split) <;> simp

@[simp] theorem State.tryEndLayer_kept (s : State) (n : SluiceId) (id : Nat) :
    (State.tryEndLayer s n id).kept = s.kept := by
  unfold State.tryEndLayer; (repeat' split) <;> simp

@[simp] theorem State.closeLayer_kept (s : State) (n : SluiceId) (id : Nat) (o : OutcomeCode) (inc : W32) :
    (State.closeLayer s n id o inc).kept = s.kept := by
  unfold State.closeLayer; (repeat' split) <;> simp

@[simp] theorem State.sendAbandon_kept (s : State) (n : SluiceId) (l : Layer) (o : OutcomeCode) (inc : W32) :
    (s.sendAbandon n l o inc).kept = s.kept := by
  refine State.over_keeps State.kept _ _ (fun t d => ?_) s
  (repeat' split) <;> simp

@[simp] theorem State.failLayer_kept (s : State) (n : SluiceId) (l : Layer) (o : OutcomeCode) (inc : W32) :
    (State.failLayer s n l o inc).kept = s.kept := by
  simp [State.failLayer]

@[simp] theorem State.openNext_kept (s : State) (n : SluiceId) : (State.openNext s n).kept = s.kept := by
  unfold State.openNext; (repeat' split) <;> simp

@[simp] theorem State.advanceLayer_kept (s : State) (n : SluiceId) (id : Nat) :
    (State.advanceLayer s n id).kept = s.kept := by
  unfold State.advanceLayer; (repeat' split) <;> simp

@[simp] theorem State.sluicePass_kept (s : State) (k : Nat) : (State.sluicePass s k).kept = s.kept := by
  induction k generalizing s with
  | zero => rfl
  | succ k ih => unfold State.sluicePass; dsimp only; (repeat' split) <;> simp [ih]

@[simp] theorem State.settleRoute_kept (s : State) (n : SluiceId) (id index : Nat) (o : OutcomeCode) :
    (State.settleRoute s n id index o).kept = s.kept := by
  unfold State.settleRoute; (repeat' split) <;> simp

@[simp] theorem State.settleLayerEnd_kept (s : State) (n : SluiceId) (id : Nat) (o : OutcomeCode) :
    (State.settleLayerEnd s n id o).kept = s.kept := by
  unfold State.settleLayerEnd; (repeat' split) <;> simp

@[simp] theorem State.settleReturn_kept (s : State) (n : SluiceId) (id : Nat) (o : OutcomeCode) :
    (State.settleReturn s n id o).kept = s.kept := by
  unfold State.settleReturn; (repeat' split) <;> simp

@[simp] theorem State.endWaitingLayer_kept (s : State) (l : Layer) (o : OutcomeCode) (inc : W32) :
    (State.endWaitingLayer s l o inc).kept = s.kept := by
  simp [State.endWaitingLayer]

@[simp] theorem State.stopSluices_kept (s : State) (p : PartId) (inc : W32) :
    (State.stopSluices s p inc).kept = s.kept := by
  simp [State.stopSluices]

@[simp] theorem State.updColl_kept (s : State) (a : AxisId) (id : Nat) (f : Coll → Coll) :
    (s.updColl a id f).kept = s.kept := by
  rfl

@[simp] theorem State.abandonTo_kept (s : State) (a : AxisId) (c : Coll) (o : OutcomeCode) (to_ : List Nat) :
    (State.abandonTo s a c o to_).kept = s.kept := by
  simp [State.abandonTo]

@[simp] theorem State.abandonAll_kept (s : State) (a : AxisId) (c : Coll) (o : OutcomeCode) :
    (State.abandonAll s a c o).kept = s.kept := by
  simp [State.abandonAll]

@[simp] theorem State.collRecord_kept (s : State) (a : AxisId) (c : Coll) (o : OutcomeCode) (detail : Nat)
    (inc : W32) (causes : BitVec 7) :
    (State.collRecord s a c o detail inc causes).kept = s.kept := by
  simp [State.collRecord]

@[simp] theorem State.releaseHeld_kept (s : State) (l : List (PortId × Packet)) :
    (State.releaseHeld s l).kept = s.kept := by
  simp [State.releaseHeld]

@[simp] theorem State.redBlock_kept (s : State) (l : Loc) (red : Nat) (f : Fmt) (sat : Bool)
    (data : List Byte) (poison : Bool) :
    (State.redBlock s l red f sat data poison).2.kept = s.kept := by
  unfold State.redBlock; dsimp only; (repeat' split) <;> simp

@[simp] theorem State.applyBlocks_kept (s : State) (p : PartId) (off : Nat) (how : CollApply) (op red : Nat)
    (f : Fmt) (ieee : Bool) (data : List Byte) (poison : Bool) (k : Nat) :
    (State.applyBlocks s p off how op red f ieee data poison k).2.kept = s.kept := by
  induction k generalizing s off data with
  | zero => rfl
  | succ k ih => unfold State.applyBlocks; dsimp only; (repeat' split) <;> simp [ih]

@[simp] theorem State.sendData_kept (s : State) (a : AxisId) (id : Nat) (dst k from_ to_ n : Nat) :
    (State.sendData s a id dst k from_ to_ n).kept = s.kept := by
  unfold State.sendData; dsimp only; (repeat' split) <;> simp

@[simp] theorem State.sendRange_kept (s : State) (a : AxisId) (id dst k from_ to_ len : Nat) :
    (State.sendRange s a id dst k from_ to_ len).kept = s.kept := by
  simp [State.sendRange]

@[simp] theorem State.copyBlocks_kept (s : State) (p : PartId) (from_ to_ k : Nat) :
    (s.copyBlocks p from_ to_ k).2.kept = s.kept := by
  induction k generalizing s from_ to_ with
  | zero => rfl
  | succ k ih => unfold State.copyBlocks; simp [ih]

@[simp] theorem State.copyColl_kept (s : State) (a : AxisId) (c : Coll) (from_ to_ len : Nat) :
    (s.copyColl a c from_ to_ len).kept = s.kept := by
  unfold State.copyColl; split
  · rfl
  · simp

@[simp] theorem State.collFirst_kept (s : State) (a : AxisId) (c : Coll) :
    (State.collFirst s a c).kept = s.kept := by
  simp [State.collFirst]

@[simp] theorem State.collNext_kept (s : State) (a : AxisId) (c : Coll) (src : BitVec 15) (k off n : Nat) :
    (State.collNext s a c src k off n).kept = s.kept := by
  simp [State.collNext]

@[simp] theorem State.applyData_kept (s : State) (a : AxisId) (id : Nat) (k : Packet) :
    (State.applyData s a id k).kept = s.kept := by
  unfold State.applyData; dsimp only; (repeat' split) <;> simp

@[simp] theorem State.applyWaiting_kept (s : State) (a : AxisId) (id : Nat) :
    (State.applyWaiting s a id).kept = s.kept := by
  unfold State.applyWaiting; (repeat' split) <;> simp

@[simp] theorem State.sendJoin_kept (s : State) (a : AxisId) (c : Coll) (plus : Bool) (origin : Nat)
    (digest : W32) (wp wm : Nat) :
    (State.sendJoin s a c plus origin digest wp wm).kept = s.kept := by
  simp [State.sendJoin]

@[simp] theorem State.hearJoin_kept (s : State) (a : AxisId) (id : Nat) (up : Bool) (k : Packet) :
    (State.hearJoin s a id up k).kept = s.kept := by
  unfold State.hearJoin; (repeat' split) <;> simp

@[simp] theorem State.admitColl_kept (s : State) (a : AxisId) (c : Coll) :
    (State.admitColl s a c).kept = s.kept := by
  simp [State.admitColl]

@[simp] theorem State.admitNext_kept (s : State) (a : AxisId) (p : PartId) :
    (State.admitNext s a p).kept = s.kept := by
  unfold State.admitNext; (repeat' split) <;> simp

@[simp] theorem State.collUndefined_kept (s : State) (a : AxisId) (c : Coll) (o : OutcomeCode) :
    (s.collUndefined a c o).kept = s.kept := by
  unfold State.collUndefined; dsimp only; (repeat' split) <;> simp

@[simp] theorem State.endColl_kept (s : State) (a : AxisId) (c : Coll) (o : OutcomeCode) (inc : W32) :
    (State.endColl s a c o inc).kept = s.kept := by
  simp [State.endColl]

@[simp] theorem State.mismatchColl_kept (s : State) (a : AxisId) (c : Coll) :
    (State.mismatchColl s a c).kept = s.kept := by
  simp [State.mismatchColl]

@[simp] theorem State.tryEndColl_kept (s : State) (a : AxisId) (id : Nat) :
    (State.tryEndColl s a id).kept = s.kept := by
  unfold State.tryEndColl; (repeat' split) <;> simp

@[simp] theorem State.completeJoin_kept (s : State) (a : AxisId) (id : Nat) :
    (State.completeJoin s a id).kept = s.kept := by
  unfold State.completeJoin; dsimp only; (repeat' split) <;> simp

@[simp] theorem State.failColl_kept (s : State) (a : AxisId) (c : Coll) (o : OutcomeCode) (inc : W32) :
    (State.failColl s a c o inc).kept = s.kept := by
  simp [State.failColl]

@[simp] theorem State.settleColl_kept (s : State) (a : AxisId) (id : Nat) (o : OutcomeCode) :
    (State.settleColl s a id o).kept = s.kept := by
  unfold State.settleColl; (repeat' split) <;> simp

@[simp] theorem State.stopColls_kept (s : State) (p : PartId) (inc : W32) :
    (State.stopColls s p inc).kept = s.kept := by
  simp [State.stopColls]

@[simp] theorem State.applyAtomic_kept (s : State) (p : PartId) (off aop : Nat) (v : W64) :
    (State.applyAtomic s p off aop v).2.kept = s.kept := by
  unfold State.applyAtomic; dsimp only; (repeat' split) <;> simp

@[simp] theorem State.endAtomic_kept (s : State) (a : AxisId) (x : AtomicItem) (o : OutcomeCode) (inc : W32) :
    (State.endAtomic s a x o inc).kept = s.kept := by
  simp [State.endAtomic]

@[simp] theorem State.startAtomic_kept (s : State) (a : AxisId) (x : AtomicItem) :
    (State.startAtomic s a x).kept = s.kept := by
  simp [State.startAtomic]

@[simp] theorem State.settleAtomic_kept (s : State) (a : AxisId) (id : Nat) (o : OutcomeCode) :
    (State.settleAtomic s a id o).kept = s.kept := by
  unfold State.settleAtomic; (repeat' split) <;> simp

@[simp] theorem State.collCapsule_kept (s : State) (p : PartId) (cap : Capsule) :
    (State.collCapsule s p cap).kept = s.kept := by
  unfold State.collCapsule; dsimp only; (repeat' split) <;> simp

@[simp] theorem State.atomicCapsule_kept (s : State) (p : PartId) (cap : Capsule) :
    (State.atomicCapsule s p cap).kept = s.kept := by
  unfold State.atomicCapsule; dsimp only; (repeat' split) <;> simp

@[simp] theorem State.startAtomics_kept (s : State) (p : PartId) : (State.startAtomics s p).kept = s.kept := by
  simp [State.startAtomics]

@[simp] theorem State.landAtomic_kept (s : State) (k : Packet) : (State.landAtomic s k).kept = s.kept := by
  simp [State.landAtomic]

@[simp] theorem State.placeCapsule_kept (s : State) (p : PartId) (c : Capsule) :
    (State.placeCapsule s p c).kept = s.kept := by
  unfold State.placeCapsule; dsimp only; (repeat' split) <;> simp

@[simp] theorem State.descriptors_kept (s : State) (p : PartId) (l : Layer) :
    (State.descriptors s p l).2.kept = s.kept := by
  simp [State.descriptors]

@[simp] theorem State.layerCapsule_kept (s : State) (p : PartId) (c : Capsule) :
    (State.layerCapsule s p c).kept = s.kept := by
  have h : s.newItem.2.kept = s.kept := State.newItem_kept s
  have h2 := State.descriptors_kept s.newItem.2 p (parseLayer s.newItem.1 p c)
  unfold State.layerCapsule; dsimp only
  (repeat' split) <;> simp_all

@[simp] theorem State.takeToken_kept (s : State) (n : PortId) (k : Packet) (trailer : W64) (sub : Nat) (f : State → SluiceId → Layer → State)
    (h : ∀ s m l, (f s m l).kept = s.kept) : (s.takeToken n k trailer sub f).kept = s.kept := by
  unfold State.takeToken; dsimp only; (repeat' split) <;> simp [h]

@[simp] theorem State.landSegment_kept (s : State) (n : SluiceId) (l : Layer) (k : Packet) (r : InRoute) :
    (State.landSegment s n l k r).kept = s.kept := by
  simp [State.landSegment]

@[simp] theorem State.refuseDispatch_kept (s : State) (n : SluiceId) (l : Layer) (k : Packet) (r : InRoute) (c : Nat) :
    (s.refuseDispatch n l k r c).kept = s.kept := by
  simp [State.refuseDispatch]

@[simp] theorem State.landDispatch_kept (s : State) (n : SluiceId) (l : Layer) (k : Packet) :
    (s.landDispatch n l k).kept = s.kept := by
  unfold State.landDispatch
  dsimp only
  split
  · split <;> simp
  · split
    · simp
    · have h := State.admitRoute_kept s n l k.src (tkSrc k) (tkToken k) (tkSlot k) (tkExpert k) (tkGate k) (l.matches? k)
      split <;> rename_i e <;> rw [e] at h <;> simpa using h

@[simp] theorem State.settleItem_kept (s : State) (o : OutPacket) (r : OutcomeCode) :
    (State.settleItem s o r).kept = s.kept := by
  unfold State.settleItem; (repeat' split) <;> simp

@[simp] theorem State.settleOk_kept (s : State) (key : Nat) (o : OutPacket) :
    (State.settleOk s key o).kept = s.kept := by
  simp [State.settleOk]

@[simp] theorem State.settleFail_kept (s : State) (key : Nat) (o : OutPacket) (r : OutcomeCode) :
    (State.settleFail s key o r).kept = s.kept := by
  simp [State.settleFail]

@[simp] theorem State.ackPackets_kept (s : State) (key : Nat) (cum : W32) (bitmap : Nat) :
    (State.ackPackets s key cum bitmap).kept = s.kept := by
  simp [State.ackPackets]

@[simp] theorem State.nextAttempt_kept (s : State) (key : Nat) (o : OutPacket) (at_ : Nat) :
    (State.nextAttempt s key o at_).kept = s.kept := by
  simp [State.nextAttempt]

@[simp] theorem State.waitEnded_kept (s : State) (key : Nat) (o : OutPacket) :
    (State.waitEnded s key o).kept = s.kept := by
  simp [State.waitEnded]

@[simp] theorem State.nakPacket_kept (s : State) (key : Nat) (o : OutPacket) (code : Nat) :
    (State.nakPacket s key o code).kept = s.kept := by
  unfold State.nakPacket; (repeat' split) <;> simp

@[simp] theorem State.landRead_kept (s : State) (x : Xfer) (o : OutPacket) (k : Packet) :
    (State.landRead s x o k).kept = s.kept := by
  simp [State.landRead]

@[simp] theorem State.renew_kept (s : State) (key : Nat) (psn : W32) (k : Packet) :
    (State.renew s key psn k).kept = s.kept := by
  unfold State.renew; split
  · split <;> simp
  · rfl

@[simp] theorem State.takeReadData_kept (s : State) (k : Packet) : (State.takeReadData s k).kept = s.kept := by
  unfold State.takeReadData; dsimp only; (repeat' split) <;> simp

@[simp] theorem State.landWrite_kept (s0 : State) (k : Packet) : (State.landWrite s0 k).kept = s0.kept := by
  simp [State.landWrite]

@[simp] theorem State.answerRead_kept (s0 : State) (k : Packet) (first : Bool) :
    (State.answerRead s0 k first).kept = s0.kept := by
  simp [State.answerRead]

@[simp] theorem State.landReadReq_kept (s : State) (k : Packet) : (State.landReadReq s k).kept = s.kept := by
  simp [State.landReadReq]

@[simp] theorem State.landSignal_kept (s : State) (k : Packet) : (State.landSignal s k).kept = s.kept := by
  simp [State.landSignal]

@[simp] theorem State.landKind_kept (s : State) (k : Packet) : (State.landKind s k).kept = s.kept := by
  simp [State.landKind]

@[simp] theorem State.releaseOrdered_kept (s : State) (key : Nat) (k : Nat) :
    (State.releaseOrdered s key k).kept = s.kept := by
  induction k generalizing s with
  | zero => rfl
  | succ k ih => unfold State.releaseOrdered; dsimp only; (repeat' split) <;> simp [ih]

@[simp] theorem State.endProgram_kept (s : State) (x : Program) (o : OutcomeCode) (detail : W64) (inc : W32) :
    (State.endProgram s x o detail inc).kept = s.kept := by
  simp [State.endProgram]

@[simp] theorem State.haltSeqs_kept (s : State) (p : PartId) : (State.haltSeqs s p).kept = s.kept := by
  simp [State.haltSeqs]

@[simp] theorem State.haltCores_kept (s : State) (p : PartId) : (State.haltCores s p).kept = s.kept := by
  simp [State.haltCores]

@[simp] theorem State.stopAtomics_kept (s : State) (p : PartId) (inc : W32) :
    (State.stopAtomics s p inc).kept = s.kept := by
  simp [State.stopAtomics]

@[simp] theorem State.stopPart_kept (s : State) (p : PartId) (cause : Byte) (byCmd : Bool) (inc : W32) :
    (State.stopPart s p cause byCmd inc).kept = s.kept := by
  simp [State.stopPart]

@[simp] theorem State.orphanMap_kept (s : State) (p : PartId) (tag : W64) (step : W32) (engine : Byte)
    (l : List (Option OutcomeCode)) (inc : W32) :
    (State.orphanMap s p tag step engine l inc).kept = s.kept := by
  unfold State.orphanMap; (repeat' split) <;> simp

@[simp] theorem State.abortLayer_kept (s : State) (n : SluiceId) (l : Layer) (o : OutcomeCode) (inc : W32) :
    (State.abortLayer s n l o inc).kept = s.kept := by
  simp [State.abortLayer]

@[simp] theorem State.abortCmd_kept (s : State) (p : PartId) (c : PumpCmd) (o : OutcomeCode) (inc : W32) :
    (State.abortCmd s p c o inc).kept = s.kept := by
  simp [State.abortCmd]

@[simp] theorem State.orphanHeld_kept (s : State) (p : PartId) : (State.orphanHeld s p).kept = s.kept := by
  simp [State.orphanHeld]

@[simp] theorem State.abortQueued_kept (s : State) (p : PartId) (o : OutcomeCode) (inc : W32) :
    (State.abortQueued s p o inc).kept = s.kept := by
  simp [State.abortQueued]

@[simp] theorem State.abortItems_kept (s : State) (p : PartId) (o : OutcomeCode) (inc : W32) :
    (State.abortItems s p o inc).kept = s.kept := by
  simp [State.abortItems]

@[simp] theorem State.attachSeqs_kept (s : State) : (State.attachSeqs s).kept = s.kept := by
  simp [State.attachSeqs]

@[simp] theorem State.showTopo_kept (s : State) (wards : Nat) : (State.showTopo s wards).kept = s.kept := by
  simp [State.showTopo]

@[simp] theorem State.leavePumps_kept (s : State) (p : PartId) : (State.leavePumps s p).kept = s.kept := by
  simp [State.leavePumps]

@[simp] theorem State.leaveSluices_kept (s : State) (p : PartId) : (State.leaveSluices s p).kept = s.kept := by
  simp [State.leaveSluices]

@[simp] theorem State.leaveUnits_kept (s : State) (p : PartId) : (State.leaveUnits s p).kept = s.kept := by
  simp [State.leaveUnits]

@[simp] theorem State.freePart_kept (s : State) (p : PartId) (held : Bool) : (State.freePart s p held).kept = s.kept := by
  simp [State.freePart]

@[simp] theorem State.endSounding_kept (s : State) (o : OutcomeCode) : (State.endSounding s o).kept = s.kept := by
  simp [State.endSounding]

@[simp] theorem State.endPortSounding_kept (s : State) (n : PortId) :
    (State.endPortSounding s n).kept = s.kept := by
  simp [State.endPortSounding]

@[simp] theorem State.endSoundingsOf_kept (s : State) (p : PartId) : (State.endSoundingsOf s p).kept = s.kept := by
  simp [State.endSoundingsOf]

@[simp] theorem State.applySections_kept (s : State) (p : PartId) : (State.applySections s p).kept = s.kept := by
  simp [State.applySections]

@[simp] theorem State.fillPart_kept (s : State) (p : PartId) : (State.fillPart s p).kept = s.kept := by
  simp [State.fillPart]

@[simp] theorem State.publishTopology_kept (s : State) (p : PartId) :
    (State.publishTopology s p).kept = s.kept := by
  simp [State.publishTopology]

@[simp] theorem State.evaluatePart_kept (s : State) (i : Fin 26) : (State.evaluatePart s i).1.kept = s.kept := by
  unfold State.evaluatePart; dsimp only; (repeat' split) <;> simp

@[simp] theorem State.brmWrite_kept (s : State) (v : W64) (master : Byte) :
    (State.brmWrite s v master).kept = s.kept := by
  simp [State.brmWrite]

@[simp] theorem State.passRecord_kept (s : State) (p : PartId) : (State.passRecord s p).kept = s.kept := by
  simp [State.passRecord]

@[simp] theorem State.passWord_kept (s : State) (p : PartId) : (State.passWord s p).kept = s.kept := by
  simp [State.passWord]

@[simp] theorem State.sendSounding_kept (s : State) (n : PortId) (payload : List Byte) :
    (State.sendSounding s n payload).kept = s.kept := by
  simp [State.sendSounding]

@[simp] theorem State.sendProbes_kept (s : State) (n : PortId) (seed : W32) :
    (State.sendProbes s n seed).kept = s.kept := by
  simp [State.sendProbes]

@[simp] theorem State.startSounding_kept (s : State) (kind target lane : Nat) (seed : W32) :
    (State.startSounding s kind target lane seed).kept = s.kept := by
  simp [State.startSounding]

@[simp] theorem State.sndResults_kept (s : State) (results : Vector W64 4) :
    (State.sndResults s results).2.kept = s.kept := by
  unfold State.sndResults; dsimp only; (repeat' split) <;> simp

@[simp] theorem State.probationEvent_kept (s : State) (n : PortId) : (State.probationEvent s n).kept = s.kept := by
  simp [State.probationEvent]

@[simp] theorem State.checkSounding_kept (s0 : State) (n : PortId) (k : Packet) (trailer : W64) :
    (State.checkSounding s0 n k trailer).2.kept = s0.kept := by
  unfold State.checkSounding; dsimp only; (repeat' split) <;> simp

@[simp] theorem State.setBoot_kept (s : State) (b : BootState) : (State.setBoot s b).kept = s.kept := by
  simp [State.setBoot]

@[simp] theorem State.bare_kept (s : State) (cause : BitVec 4) : (State.bare s cause).kept = s.kept := by
  simp [State.bare]

@[simp] theorem State.noteImageReset_kept (s : State) (p : PartId) : (State.noteImageReset s p).kept = s.kept := by
  unfold State.noteImageReset; (repeat' split) <;> simp

@[simp] theorem State.emptyPart_kept (s : State) (p : PartId) (o : OutcomeCode) (inc : W32) :
    (State.emptyPart s p o inc).kept = s.kept := by
  simp [State.emptyPart]

@[simp] theorem State.vfReset_kept (s : State) (p : PartId) : (State.vfReset s p).kept = s.kept := by
  unfold State.vfReset; dsimp only; (repeat' split) <;> simp

@[simp] theorem State.trainPort_kept (s : State) (n : PortId) : (State.trainPort s n).kept = s.kept := by
  simp [State.trainPort]

@[simp] theorem State.trainMem_kept (s : State) (u : MemUnit) : (State.trainMem s u).kept = s.kept := by
  simp [State.trainMem]

@[simp] theorem State.trainCistern_kept (s : State) : (State.trainCistern s).kept = s.kept := by
  simp [State.trainCistern]

@[simp] theorem State.remapDone_kept (s : State) (u : MemUnit) (o : OutcomeCode) :
    (State.remapDone s u o).kept = s.kept := by
  simp [State.remapDone]

@[simp] theorem State.remapAdd_kept (s : State) (u : MemUnit) (k : Nat) : (State.remapAdd s u k).kept = s.kept := by
  simp [State.remapAdd]

@[simp] theorem State.unspare_kept (s : State) (u : MemUnit) (k : Nat) : (State.unspare s u k).kept = s.kept := by
  simp [State.unspare]

@[simp] theorem State.remapClear_kept (s : State) (u : MemUnit) : (State.remapClear s u).kept = s.kept := by
  simp [State.remapClear]

@[simp] theorem State.qtnDone_kept (s : State) (u : MemUnit) (o : OutcomeCode) : (State.qtnDone s u o).kept = s.kept := by
  simp [State.qtnDone]

@[simp] theorem State.quarantineAdd_kept (s : State) (u : MemUnit) (page : Nat) :
    (State.quarantineAdd s u page).kept = s.kept := by
  simp [State.quarantineAdd]

@[simp] theorem State.quarantineRemove_kept (s : State) (u : MemUnit) (page : Nat) :
    (State.quarantineRemove s u page).kept = s.kept := by
  simp [State.quarantineRemove]

@[simp] theorem State.flipWrite_kept (s : State) (u : MemUnit) (v : W64) (master : Byte) (n : Nat) :
    (State.flipWrite s u v master n).kept = s.kept := by
  simp [State.flipWrite]

@[simp] theorem State.svcDone_kept (s : State) (u : MemUnit) (code : Byte) : (State.svcDone s u code).kept = s.kept := by
  simp [State.svcDone]

@[simp] theorem State.takeOut_kept (s : State) (u : MemUnit) : (State.takeOut s u).kept = s.kept := by
  simp [State.takeOut]

@[simp] theorem State.unitReturn_kept (s : State) (u : MemUnit) : (State.unitReturn s u).kept = s.kept := by
  simp [State.unitReturn]

@[simp] theorem State.markGone_kept (s : State) : (State.markGone s).kept = s.kept := by
  simp [State.markGone]

@[simp] theorem State.killMem_kept (s : State) (u : MemUnit) : (State.killMem s u).kept = s.kept := by
  simp [State.killMem]

@[simp] theorem State.pumpItemsDead_kept (s : State) (u : PumpId) (inc : W32) :
    (State.pumpItemsDead s u inc).kept = s.kept := by
  simp [State.pumpItemsDead]

@[simp] theorem State.axisItemsDead_kept (s : State) (a : AxisId) (inc : W32) :
    (State.axisItemsDead s a inc).kept = s.kept := by
  simp [State.axisItemsDead]

@[simp] theorem State.sluiceItemsDead_kept (s : State) (n : SluiceId) (inc : W32) :
    (State.sluiceItemsDead s n inc).kept = s.kept := by
  simp [State.sluiceItemsDead]

@[simp] theorem State.raiseFault_kept (s : State) (core : Option CoreId) (n : Option SeqId) (p : Option PartId)
    (word : W64) (issue : BitVec 48) (beats : Nat) :
    (State.raiseFault s core n p word issue beats).kept = s.kept := by
  unfold State.raiseFault; (repeat' split) <;> simp

@[simp] theorem State.beatFaults_kept (s : State) (c : CoreId) (beats : Nat) (l : List (Nat × W64 × BitVec 48)) :
    (State.beatFaults s c beats l).kept = s.kept := by
  unfold State.beatFaults; (repeat' split) <;> simp

@[simp] theorem State.countBeats_kept (s : State) (c : CoreId) (n : Nat) : (State.countBeats s c n).kept = s.kept := by
  unfold State.countBeats; (repeat' split) <;> simp

@[simp] theorem State.emptyBeat_kept (s : State) (c : CoreId) : (State.emptyBeat s c).kept = s.kept := by
  simp [State.emptyBeat]

@[simp] theorem State.emptyBeats_kept (s : State) (c : CoreId) (k : Nat) : (s.emptyBeats c k).kept = s.kept := by
  induction k generalizing s with
  | zero => rfl
  | succ k ih => unfold State.emptyBeats; split <;> simp [ih]

@[simp] theorem State.extXfer_kept (s : State) (c : CoreId) (p : PartId) (kind : XferKind) (ga : W64) (len : Nat)
    (tag : W64) (addr : Nat) (n : CtrId) (tc : BitVec 2) (ord : Bool) (op : BitVec 3) (ringAt : Nat) (phase : Bool)
    (seq : BitVec 12) :
    (State.extXfer s c p kind ga len tag addr n tc ord op ringAt phase seq).kept = s.kept := by
  simp [State.extXfer]

@[simp] theorem State.extRaise_kept (s : State) (c : CoreId) (p : PartId) (v : Nat) (issue : BitVec 48) :
    (State.extRaise s c p v issue).kept = s.kept := by
  unfold State.extRaise; dsimp only; (repeat' split) <;> simp

@[simp] theorem State.applyExt_kept (s : State) (c : CoreId) (seq : BitVec 12) (issue : BitVec 48) (e : Ext) :
    (State.applyExt s c seq issue e).kept = s.kept := by
  unfold State.applyExt; (repeat' split) <;> simp

@[simp] theorem State.afterSlots_kept (s : State) (c : CoreId) (skip : Nat) (seq : BitVec 12) (count : BitVec 48) (b
    : Beat) :
    (State.afterSlots s c skip seq count b).kept = s.kept := by
  simp [State.afterSlots]

@[simp] theorem State.issue_kept (s : State) (c : CoreId) (d : Bundle) (count : BitVec 48) :
    (State.issue s c d count).kept = s.kept := by
  simp [State.issue]

@[simp] theorem State.haltCore_kept (s : State) (c : CoreId) (d : Bundle) : (State.haltCore s c d).kept = s.kept := by
  simp [State.haltCore]

@[simp] theorem State.issueHead_kept (s : State) (c : CoreId) : (State.issueHead s c).kept = s.kept := by
  unfold State.issueHead; (repeat' split) <;> simp

@[simp] theorem State.reachWait_kept (s : State) (c : CoreId) (w : Wait) : (State.reachWait s c w).kept = s.kept := by
  simp [State.reachWait]

@[simp] theorem State.nextBundle_kept (s : State) (c : CoreId) : (State.nextBundle s c).kept = s.kept := by
  unfold State.nextBundle; (repeat' split) <;> simp

@[simp] theorem State.single_kept (s : State) (c : CoreId) (ok : Bool) (d : Bundle) :
    (State.single s c ok d).kept = s.kept := by
  simp [State.single]

@[simp] theorem State.singleWait_kept (s : State) (c : CoreId) (o : SyncOp) : (State.singleWait s c o).kept = s.kept := by
  simp [State.singleWait]

@[simp] theorem State.startSeq_kept (s : State) (p : PartId) (n : SeqId) (region : Bool) (entry : Nat) (args :
    Vector W64 3) (item : Nat) :
    (State.startSeq s p n region entry args item).kept = s.kept := by
  simp [State.startSeq]

@[simp] theorem State.startProgram_kept (s0 : State) (p : PartId) (seqs : List SeqId) (region : Bool) (entry : Nat)
    (args : Vector W64 3) (tag : W64) (step : W32) (limitUs : Nat) (v0 : Bool) :
    (State.startProgram s0 p seqs region entry args tag step limitUs v0).kept = s0.kept := by
  simp [State.startProgram]

@[simp] theorem State.loadCapsule_kept (s : State) (p : PartId) (c : Capsule) :
    (State.loadCapsule s p c).kept = s.kept := by
  simp [State.loadCapsule]

@[simp] theorem State.startCapsule_kept (s : State) (p : PartId) (c : Capsule) :
    (State.startCapsule s p c).kept = s.kept := by
  unfold State.startCapsule; dsimp only; (repeat' split) <;> simp

@[simp] theorem State.flowFault_kept (s : State) (n : SeqId) (i cause : Nat) :
    (State.flowFault s n i cause).kept = s.kept := by
  simp [State.flowFault]

@[simp] theorem State.broadcast_kept (s : State) (n : SeqId) (w : Bundle512) : (State.broadcast s n w).kept = s.kept := by
  simp [State.broadcast]

@[simp] theorem State.fetchBundle_kept (s : State) (n : SeqId) : (State.fetchBundle s n).kept = s.kept := by
  unfold State.fetchBundle; dsimp only; (repeat' split) <;> simp

@[simp] theorem State.tryEndProgram_kept (s : State) (p : PartId) (id : Nat) :
    (State.tryEndProgram s p id).kept = s.kept := by
  unfold State.tryEndProgram; (repeat' split) <;> simp

@[simp] theorem State.refuseSeq_kept (s : State) (n : SeqId) (x : Nat) (master : Byte) :
    (State.refuseSeq s n x master).kept = s.kept := by
  simp [State.refuseSeq]

@[simp] theorem State.setSplit_kept (s : State) (n : SeqId) (split : Nat) (master : Byte) :
    (State.setSplit s n split master).kept = s.kept := by
  simp [State.setSplit]

@[simp] theorem State.armCadence_kept (s : State) (n : SeqId) (periodNs : W32) (entry : BitVec 12) (epoch : Nat)
    (master : Byte) :
    (State.armCadence s n periodNs entry epoch master).kept = s.kept := by
  simp [State.armCadence]

@[simp] theorem State.tick_kept (s : State) (n : SeqId) (k : Nat) : (State.tick s n k).kept = s.kept := by
  unfold State.tick; dsimp only; (repeat' split) <;> simp

@[simp] theorem State.transferCapsule_kept (s : State) (p : PartId) (c : Capsule) :
    (State.transferCapsule s p c).kept = s.kept := by
  unfold State.transferCapsule; dsimp only; (repeat' split) <;> simp

@[simp] theorem State.restAt_kept (s : State) (p : PartId) (d : Nat) : (State.restAt s p d).kept = s.kept := by
  simp [State.restAt]

@[simp] theorem State.park_kept (s : State) (n : PortId) : (State.park s n).kept = s.kept := by
  simp [State.park]

@[simp] theorem State.setBudget_kept (s : State) (p : PartId) (b : W32) : (State.setBudget s p b).kept = s.kept := by
  simp [State.setBudget]

@[simp] theorem State.wakeAll_kept (s : State) : (State.wakeAll s).kept = s.kept := by
  simp [State.wakeAll]

@[simp] theorem State.abortOn_kept (s : State) (via : PortId × VcId) (m : PortId) (v : VcId) :
    (State.abortOn s via m v).kept = s.kept := by
  unfold State.abortOn; (repeat' split) <;> simp

@[simp] theorem State.endProgress_kept (s : State) (n : PortId) (v : VcId) : (State.endProgress s n v).kept = s.kept := by
  unfold State.endProgress; dsimp only; (repeat' split) <;> simp

@[simp] theorem State.beginTraining_kept (s : State) (n : PortId) : (State.beginTraining s n).kept = s.kept := by
  simp [State.beginTraining]

@[simp] theorem State.sendFacing_kept (s : State) (n : PortId) (k : Packet) : (State.sendFacing s n k).kept = s.kept := by
  simp [State.sendFacing]

@[simp] theorem State.sendHeartbeat_kept (s : State) (n : PortId) : (State.sendHeartbeat s n).kept = s.kept := by
  simp [State.sendHeartbeat]

@[simp] theorem State.missingFlits_kept (s : State) (n : PortId) (v : VcId) (sent : BitVec 12) :
    (State.missingFlits s n v sent).kept = s.kept := by
  simp [State.missingFlits]

@[simp] theorem State.passOn_kept (s : State) (n : PortId) (v : VcId) (k : Packet) :
    (State.passOn s n v k).kept = s.kept := by
  unfold State.passOn; (repeat' split) <;> simp

@[simp] theorem State.arriveLoose_kept (s : State) (n : PortId) (k : Packet) (trailer : W64) (kind : Byte) :
    (State.arriveLoose s n k trailer kind).2.kept = s.kept := by
  unfold State.arriveLoose; dsimp only; (repeat' split) <;> simp

@[simp] theorem State.readAgain_kept (s : State) (n : PortId) (k : Packet) (trailer : W64) :
    (State.readAgain s n k trailer).kept = s.kept := by
  unfold State.readAgain; (repeat' split) <;> simp

@[simp] theorem State.fmReceive_kept (s : State) (payload : List Byte) : (State.fmReceive s payload).kept = s.kept := by
  simp [State.fmReceive]

@[simp] theorem State.sendReply_kept (s : State) (g : BitVec 15) (payload : List Byte) :
    (State.sendReply s g payload).kept = s.kept := by
  simp [State.sendReply]

@[simp] theorem State.answer_kept (s : State) (r : Option ReplyTo) (master : Byte) (o : OutcomeCode) (stale : Bool) :
    (State.answer s r master o stale).kept = s.kept := by
  unfold State.answer; (repeat' split) <;> simp

@[simp] theorem State.stale_kept (s : State) (w : CtlWrite) (reply : Option ReplyTo) :
    (State.stale s w reply).kept = s.kept := by
  simp [State.stale]

@[simp] theorem State.absentWrite_kept (s : State) (off : Nat) : (State.absentWrite s off).kept = s.kept := by
  simp [State.absentWrite]

@[simp] theorem State.dropStreams_kept (s : State) (c : BitVec 15) : (State.dropStreams s c).kept = s.kept := by
  simp [State.dropStreams]

@[simp] theorem State.fenceItem_kept (s : State) (inc : W32) (r : ItemRef) : (State.fenceItem s inc r).kept = s.kept := by
  unfold State.fenceItem; (repeat' split) <;> simp

@[simp] theorem State.fenceMembers_kept (s : State) (chip : BitVec 15) (inc : W32) :
    (State.fenceMembers s chip inc).kept = s.kept := by
  simp [State.fenceMembers]

@[simp] theorem State.fencePart_kept (s : State) (inc : W32) (p : PartId) : (State.fencePart s inc p).kept = s.kept := by
  simp [State.fencePart]

@[simp] theorem State.fenceEngines_kept (s : State) (inc : W32) : (State.fenceEngines s inc).kept = s.kept := by
  simp [State.fenceEngines]

@[simp] theorem State.floodOn_kept (s : State) (n : Option PortId) (k : Packet) (m : PortId) :
    (State.floodOn s n k m).kept = s.kept := by
  unfold State.floodOn; (repeat' split) <;> simp

@[simp] theorem State.admitPort_kept (s : State) (n : PortId) : (State.admitPort s n).kept = s.kept := by
  simp [State.admitPort]

@[simp] theorem State.injectControl_kept (s : State) (dst : BitVec 15) (payload : List Byte) :
    (State.injectControl s dst payload).kept = s.kept := by
  simp [State.injectControl]

@[simp] theorem State.takeReply_kept (s : State) (src : BitVec 15) (payload : List Byte) :
    (State.takeReply s src payload).kept = s.kept := by
  unfold State.takeReply; dsimp only; (repeat' split) <;> simp

@[simp] theorem State.routeWrite_kept (s : State) (epoch : Bool) (l : List (Nat × Byte)) (master : Byte) :
    (State.routeWrite s epoch l master).kept = s.kept := by
  simp [State.routeWrite]

@[simp] theorem State.runDone_kept (s : State) (p : PartId) (cmd : BitVec 3) (o : OutcomeCode) :
    (State.runDone s p cmd o).kept = s.kept := by
  simp [State.runDone]

@[simp] theorem State.imgDone_kept (s : State) (p : PartId) (cmd : BitVec 2) (o : OutcomeCode) (reason : Byte) :
    (State.imgDone s p cmd o reason).kept = s.kept := by
  simp [State.imgDone]

@[simp] theorem State.imgBusyWrite_kept (s : State) (p : PartId) : (State.imgBusyWrite s p).kept = s.kept := by
  simp [State.imgBusyWrite]

@[simp] theorem State.stage_kept (s : State) (p : PartId) : (State.stage s p).kept = s.kept := by
  unfold State.stage; (repeat' split) <;> simp

@[simp] theorem State.commit_kept (s : State) (p : PartId) : (State.commit s p).kept = s.kept := by
  unfold State.commit; (repeat' split) <;> simp

@[simp] theorem State.discard_kept (s : State) (p : PartId) : (State.discard s p).kept = s.kept := by
  simp [State.discard]

@[simp] theorem State.start_kept (s : State) (p : PartId) : (State.start s p).kept = s.kept := by
  simp [State.start]

@[simp] theorem State.quiesce_kept (s : State) (p : PartId) : (State.quiesce s p).kept = s.kept := by
  simp [State.quiesce]

@[simp] theorem State.resume_kept (s : State) (p : PartId) : (State.resume s p).kept = s.kept := by
  simp [State.resume]

@[simp] theorem State.stopEnd_kept (s : State) (p : PartId) : (State.stopEnd s p).kept = s.kept := by
  unfold State.stopEnd; (repeat' split) <;> simp

@[simp] theorem State.stopFor_kept (s : State) (p : PartId) (cause : Byte) : (State.stopFor s p cause).kept = s.kept := by
  simp [State.stopFor]

@[simp] theorem State.stop_kept (s : State) (p : PartId) : (State.stop s p).kept = s.kept := by
  simp [State.stop]

@[simp] theorem State.releaseEnd_kept (s : State) (p : PartId) : (State.releaseEnd s p).kept = s.kept := by
  unfold State.releaseEnd; (repeat' split) <;> simp

@[simp] theorem State.release_kept (s : State) (p : PartId) : (State.release s p).kept = s.kept := by
  simp [State.release]

@[simp] theorem State.snap_kept (s : State) (p : PartId) (master : Byte) : (State.snap s p master).kept = s.kept := by
  simp [State.snap]

@[simp] theorem State.loaderRun_kept (s : State) (cmd : LoaderCmd) (o : OutcomeCode) (reason : Byte) :
    (State.loaderRun s cmd o reason).kept = s.kept := by
  simp [State.loaderRun]

@[simp] theorem State.closeSession_kept (s : State) : (State.closeSession s).kept = s.kept := by
  simp [State.closeSession]

@[simp] theorem State.freshNonce_kept (s : State) : (State.freshNonce s).kept = s.kept := by
  simp [State.freshNonce]

@[simp] theorem State.pumpCapsule_kept (s : State) (p : PartId) (op : PumpOp) (c : Capsule) :
    (State.pumpCapsule s p op c).kept = s.kept := by
  unfold State.pumpCapsule; dsimp only; (repeat' split) <;> simp

@[simp] theorem State.pumpReset_kept (s : State) (u : PumpId) : (State.pumpReset s u).kept = s.kept := by
  simp [State.pumpReset]

@[simp] theorem State.cqCtrl_kept (s : State) (p : PartId) (v : W64) (master : Byte) :
    (State.cqCtrl s p v master).kept = s.kept := by
  simp [State.cqCtrl]

@[simp] theorem State.cqBase_kept (s : State) (p : PartId) (v : W64) (master : Byte) :
    (State.cqBase s p v master).kept = s.kept := by
  simp [State.cqBase]

@[simp] theorem State.setBar2Base_kept (s : State) (p : PartId) (v : W64) (master : Byte) :
    (State.setBar2Base s p v master).kept = s.kept := by
  simp [State.setBar2Base]

@[simp] theorem State.setPfBase_kept (s : State) (v : W64) (master : Byte) :
    (State.setPfBase s v master).kept = s.kept := by
  simp [State.setPfBase]

@[simp] theorem State.runCtrl_kept (s : State) (p : PartId) (v : W64) : (State.runCtrl s p v).kept = s.kept := by
  unfold State.runCtrl; dsimp only; (repeat' split) <;> simp

@[simp] theorem State.imgCtrl_kept (s : State) (p : PartId) (v : W64) : (State.imgCtrl s p v).kept = s.kept := by
  unfold State.imgCtrl; dsimp only; (repeat' split) <;> simp

@[simp] theorem State.ringCtrl_kept (s : State) (p : PartId) (v : W64) (master : Byte) :
    (State.ringCtrl s p v master).kept = s.kept := by
  simp [State.ringCtrl]

@[simp] theorem State.drainUsage_kept (s : State) (p : PartId) : (State.drainUsage s p).kept = s.kept := by
  simp [State.drainUsage]

@[simp] theorem State.flagsWrite_kept (s : State) (r : FlagReg) (v : W64) (n : Nat) :
    (State.flagsWrite s r v n).kept = s.kept := by
  simp [State.flagsWrite]

@[simp] theorem State.memWrite_kept (s : State) (u : MemUnit) (x : Nat) (v : W64) (master : Byte) (n : Nat) :
    (State.memWrite s u x v master n).kept = s.kept := by
  unfold State.memWrite; (repeat' split) <;> simp

@[simp] theorem State.sndCtrl_kept (s : State) (v : W64) : (State.sndCtrl s v).kept = s.kept := by
  simp [State.sndCtrl]

@[simp] theorem State.closeFlags_kept (s : State) : (State.closeFlags s).kept = s.kept := by
  simp [State.closeFlags]

@[simp] theorem State.unsupported_kept (s : State) : (State.unsupported s).kept = s.kept := by
  simp [State.unsupported]

@[simp] theorem State.barMeter_kept (s : State) (fn : PciFn) (a len : Nat) (write : Bool) :
    (State.barMeter s fn a len write).kept = s.kept := by
  unfold State.barMeter; (repeat' split) <;> simp

@[simp] theorem State.barReply_kept (s : State) (fn : PciFn) (off : Nat) (data : Option (List Byte)) (poisoned :
    Bool) :
    (State.barReply s fn off data poisoned).kept = s.kept := by
  simp [State.barReply]

@[simp] theorem State.wakeRange_kept (s : State) (fn : PciFn) (off len : Nat) :
    (State.wakeRange s fn off len).kept = s.kept := by
  simp [State.wakeRange]

@[simp] theorem State.pcieRegRead_kept (s : State) (fn : PciFn) (off len : Nat) :
    (State.pcieRegRead s fn off len).2.kept = s.kept := by
  unfold State.pcieRegRead; (repeat' split) <;> simp

@[simp] theorem State.bar0Read_kept (s : State) (fn : PciFn) (offset len : Nat) :
    (State.bar0Read s fn offset len).kept = s.kept := by
  unfold State.bar0Read; dsimp only; (repeat' split) <;> simp

@[simp] theorem State.barMerge_kept (s : State) (l : Loc) (at_ : Nat) (data : List Byte) (poisoned : Bool) :
    (State.barMerge s l at_ data poisoned).kept = s.kept := by
  unfold State.barMerge; dsimp only; (repeat' split) <;> simp

@[simp] theorem State.resizeBar2_kept (s : State) (fn : PciFn) (log2 : Nat) :
    (State.resizeBar2 s fn log2).kept = s.kept := by
  unfold State.resizeBar2; (repeat' split) <;> simp

@[simp] theorem State.hostReadFails_kept (s : State) (r : HostReader) (o : OutcomeCode) :
    (State.hostReadFails s r o).kept = s.kept := by
  unfold State.hostReadFails; (repeat' split) <;> simp

@[simp] theorem State.replyAgain_kept (s : State) (k : Packet) : (State.replyAgain s k).kept = s.kept := by
  unfold State.replyAgain; dsimp only; (repeat' split) <;> simp

@[simp] theorem State.markControl_kept (s : State) (k : Packet) : (State.markControl s k).kept = s.kept := by
  simp [State.markControl]

@[simp] theorem State.arriveFlood_kept (s : State) (n : PortId) (k : Packet) (trailer : W64) :
    (State.arriveFlood s n k trailer).2.kept = s.kept := by
  unfold State.arriveFlood; (repeat' split) <;> simp

@[simp] theorem State.doeReply_kept (s : State) (b : List Byte) : (State.doeReply s b).kept = s.kept := by
  simp [State.doeReply]

@[simp] theorem State.exchange_kept (s : State) (pub : List Byte) : (State.exchange s pub).2.kept = s.kept := by
  simp [State.exchange]

@[simp] theorem State.setIdeKey_kept (s : State) (i : IdeStream) (wrapped : List Byte) :
    (State.setIdeKey s i wrapped).2.kept = s.kept := by
  unfold State.setIdeKey; (repeat' split) <;> simp

@[simp] theorem State.doe_kept (s : State) (type : Nat) (req : List Byte) : (State.doe s type req).2.kept = s.kept := by
  unfold State.doe; dsimp only; (repeat' split) <;> simp

@[simp] theorem State.mctpReply_kept (s : State) (m : MctpMsg) (o : OutcomeCode) (data : List Byte) :
    (State.mctpReply s m o data).kept = s.kept := by
  simp [State.mctpReply]

@[simp] theorem State.mctp_kept (s : State) (m : MctpMsg) (code : Byte) (ok : Bool) (f : State → State)
    (h : ∀ s, (f s).kept = s.kept) : (s.mctp m code ok f).kept = s.kept := by
  unfold State.mctp; (repeat' split) <;> simp [h]

@[simp] theorem State.emptied_kept (s : State) (o : OutcomeCode) (inc : W32) :
    ((((s.over (allFin 16) fun s p => s.noteImageReset p).over (allFin 16) fun s p => s.emptyPart p o inc).over (allFin 4)
      fun s f => s.unretain f).flushAlmanac).kept = s.kept := by
  simp

end Sys2Proof.Machine
end

