-- ==== Sys2Proof/Laws/Slots.lean ====
section
/-! SUPPORT. What a beat in which no earlier result falls due does, and with it what a lone operation of a slot does. -/

namespace Sys2Proof.Machine

/-! ### A beat in which nothing falls due -/

theorem Core.applyRank_quiet (c : Core) (epoch rank : Nat) (h : ∀ f ∈ c.inflight, ¬(f.due = c.beats ∧ f.rank = rank)) :
    c.applyRank epoch rank = (c, []) := by
  have e1 : (c.inflight.filter fun f => f.due == c.beats && f.rank == rank) = [] := by
    simpa [List.filter_eq_nil_iff] using h
  have e2 : (c.inflight.filter fun f => !(f.due == c.beats && f.rank == rank)) = c.inflight := by
    simpa [List.filter_eq_self, ← imp_iff_not_or] using h
  simp only [Core.applyRank, e1, e2, List.splitBy_nil, List.foldl_nil]

/-- A core with the operations forgotten that are no longer in flight: what of them counted an event (R244). -/
def Core.pruned (c : Core) : Core :=
  { c with mx := { c.mx with counted := c.mx.counted.filter fun e => c.inflight.any fun f => f.beat == e.1 } }

/-- An empty beat end: only the beat is counted. -/
theorem Core.endBeat_quiet (c : Core) (epoch : Nat) (h : ∀ f ∈ c.inflight, c.beats < f.due) :
    c.endBeat epoch = ({ c.pruned with beats := c.beats + 1 }, []) := by
  have q : ∀ k, c.applyRank epoch k = (c, []) := fun k =>
    c.applyRank_quiet epoch k fun f hf e => absurd (h f hf) (by omega)
  have g : ∀ l : List Nat, l.foldl (fun (acc : Core × List (Flight × FaultInfo)) k =>
      let (c1, l) := acc.1.applyRank epoch k
      (c1, acc.2 ++ l)) (c, []) = (c, []) := by
    intro l
    induction l with
    | nil => rfl
    | cons a l ih => simpa [q a] using ih
  simp only [Core.endBeat, g]; rfl

theorem State.beatFaults_nil (s : State) (c : CoreId) (n : Nat) : s.beatFaults c n [] = s := rfl

theorem State.updCore_updCore (s : State) (c : CoreId) (f g : Core → Core) :
    (s.updCore c f).updCore c g = s.updCore c fun x => g (f x) := by
  simp [State.updCore, updAt_twice]

theorem State.updCore_id (s : State) (c : CoreId) : (s.updCore c fun x => x) = s := by
  simp [State.updCore, updAt]

/-! ### Metering -/

theorem State.meter_cores (s : State) (p : PartId) (k : Fin 14) (n : Nat) : (s.meter p k n).cores = s.cores := by
  simp only [State.meter, State.iff]
  split <;> rfl

theorem State.meter_part (s : State) (p q : PartId) (k : Fin 14) (n : Nat) :
    { (s.meter p k n).parts[q] with meter := s.parts[q].meter } = s.parts[q] := by
  have e : (s.meter p k n).parts[q] = (s.updPart p fun x =>
      if x.meter.metered && (x.state != .stopped || k == mEnergy) then
        { x with meter := { x.meter with counters := updAt x.meter.counters k (· + n) } }
      else x).parts[q] := by
    simp only [State.meter, State.iff]
    split <;> rfl
  rw [e]
  simp only [State.updPart_parts, Fin.getElem_fin, updAt_get]
  split <;> [split; skip] <;> rfl

theorem State.meter_frame (s : State) (p : PartId) (k : Fin 14) (n : Nat) :
    { s.meter p k n with parts := s.parts, acts := s.acts } = s := by
  simp only [State.meter, State.iff]
  split <;> rfl

/-- Counting beats changes metering alone. -/
theorem State.countBeats_only (s : State) (c : CoreId) (n : Nat) :
    (s.countBeats c n).cores = s.cores ∧
      (∀ q : PartId, { (s.countBeats c n).parts[q] with meter := s.parts[q].meter } = s.parts[q]) ∧
      { s.countBeats c n with parts := s.parts, acts := s.acts } = s := by
  unfold State.countBeats
  split
  · exact ⟨State.meter_cores .., fun q => State.meter_part .., State.meter_frame ..⟩
  · exact ⟨rfl, fun _ => rfl, rfl⟩

/-! ### A lone operation -/

/-- A core that has no new storm report keeps what it has, in an interlude too. -/
theorem State.keepReports_same (s : State) (c : CoreId) (x : Core) (h : x.vx.storms = s.cores[c].vx.storms) :
    s.keepReports c x = x := by
  unfold State.keepReports
  split
  · rw [← h]
  · rfl

/-- The spec lemma of `State.single` for an operation that passes its checks, acts on its core alone, and puts results
in flight that fall due later: the core as the operation's beat leaves it, one beat on, and nothing else. -/
theorem State.single_quiet (s : State) (c : CoreId) (ok : Bool) (d : Bundle) (hc : CoreOpen s c) (ho : ok = true)
    (hs : d.skip = 0) (hq : d.seqIdx = 0)
    (hf : ((loneBeat s c).bundle { d with version := 1 }).faults = [])
    (he : ((loneBeat s c).bundle { d with version := 1 }).exts = [])
    (hb : ((loneBeat s c).bundle { d with version := 1 }).new.beats = s.cores[c].beats)
    (hg : ((loneBeat s c).bundle { d with version := 1 }).new.grace = none)
    (hv : ((loneBeat s c).bundle { d with version := 1 }).new.vx.storms = s.cores[c].vx.storms)
    (hi : ∀ f ∈ ((loneBeat s c).bundle { d with version := 1 }).new.inflight, s.cores[c].beats < f.due) :
    OnlyCore c s (s.single c ok d) ∧
      (s.single c ok d).cores[c] =
        { ((loneBeat s c).bundle { d with version := 1 }).new.pruned with beats := s.cores[c].beats + 1 } := by
  obtain ⟨h1, h0, -, -⟩ := hc
  generalize hd : ({ d with version := 1 } : Bundle) = e at *
  have e1 : e.skip = 0 := by rw [← hd]; exact hs
  have e2 : e.seqIdx = 0 := by rw [← hd]; exact hq
  generalize hB : (loneBeat s c).bundle e = B at *
  have eq1 := B.new.endBeat_quiet s.epoch (by rw [hb]; exact hi)
  have key : s.single c ok d = (({ s with freeCount := s.freeCount + 1 }.updCore c
      fun _ => { B.new.pruned with beats := s.cores[c].beats + 1 }).countBeats c 1) := by
    have hw : s.keepReports c { B.new.pruned with beats := B.new.beats + 1 } = { B.new.pruned with beats := s.cores[c].beats + 1 } := by
      rw [hb]
      exact State.keepReports_same s c _ hv
    have hs1 : s.single c ok d = s.issue c e 0 := by
      simp only [State.single, h1, h0, ho, List.isEmpty_nil, Bool.and_true, if_true, hd]
    rw [hs1, State.issue, e2, hB, e1]
    simp only [State.afterSlots, eq1]
    simp only [hw, hf, he, pushFaults, List.map_nil, List.append_nil, State.beatFaults_nil, State.over_nil]
    simp only [State.emptyBeats]
    generalize hS : ({ s with freeCount := s.freeCount + 1 }.updCore c
      fun _ => { B.new.pruned with beats := s.cores[c].beats + 1 }) = S
    have hcr := (State.countBeats_only S c 1).1
    have hx : (S.countBeats c 1).cores[c] = { B.new.pruned with beats := s.cores[c].beats + 1 } := by
      have sc : S.cores = updAt s.cores c fun _ => { B.new.pruned with beats := s.cores[c].beats + 1 } := by rw [← hS]; rfl
      simp only [hcr, sc, Fin.getElem_fin, updAt_self]
    have hg' : B.new.pruned.grace = none := hg
    have : (S.countBeats c 1).updCore c Core.stopAtGrace = (S.countBeats c 1).updCore c fun x => x := by
      simp only [State.updCore, updAt, hx, Core.stopAtGrace, hg']
    rw [this, State.updCore_id]
  rw [key]
  generalize hS : ({ s with freeCount := s.freeCount + 1 }.updCore c
      fun _ => { B.new.pruned with beats := s.cores[c].beats + 1 }) = S
  obtain ⟨k1, k2, k3⟩ := State.countBeats_only S c 1
  have sp : S.parts = s.parts := by rw [← hS]; rfl
  have sa : S.acts = s.acts := by rw [← hS]; rfl
  have sc : S.cores = updAt s.cores c fun _ => { B.new.pruned with beats := s.cores[c].beats + 1 } := by rw [← hS]; rfl
  refine ⟨⟨?_, ?_, ?_⟩, ?_⟩
  · intro x hx
    simp only [k1, sc, Fin.getElem_fin, updAt_get]
    rw [if_neg]
    intro h; exact hx (Fin.ext h.symm)
  · intro p; have := k2 p; rw [sp] at this; exact this
  · rw [sp, sa] at k3
    have := congrArg (fun x : State => ({ x with cores := s.cores, freeCount := s.freeCount } : State)) k3
    exact this.trans (by rw [← hS]; rfl)
  · simp only [k1, sc, Fin.getElem_fin, updAt_self]

/-- A lone operation whose slots leave the core as `y` completes, one beat on. -/
theorem State.single_becomes (s : State) (c : CoreId) (ok : Bool) (d : Bundle) (i : Instr) (y : Core)
    (hi : exec i s = .next (s.single c ok d)) (hc : CoreOpen s c) (ho : ok = true) (hs : d.skip = 0) (hq : d.seqIdx = 0)
    (hf : ((loneBeat s c).bundle { d with version := 1 }).faults = [])
    (he : ((loneBeat s c).bundle { d with version := 1 }).exts = [])
    (hy : ((loneBeat s c).bundle { d with version := 1 }).new = y)
    (hb : y.beats = s.cores[c].beats) (hg : y.grace = none) (hv : y.vx.storms = s.cores[c].vx.storms)
    (hd : ∀ f ∈ y.inflight, s.cores[c].beats < f.due) :
    CoreBecomes i c s { y with beats := s.cores[c].beats + 1 } := by
  have h := State.single_quiet s c ok d hc ho hs hq hf he (by rw [hy]; exact hb) (by rw [hy]; exact hg)
    (by rw [hy]; exact hv) (by rw [hy]; exact hd)
  refine ⟨_, hi, h.1, ?_⟩
  rw [h.2, hy]; rfl

/-! ### A wait read back from its bundle -/

theorem waitBundle_low (o : SyncOp) : (waitBundle o).extractLsb' 0 96 = encodeWait o := by
  apply BitVec.eq_of_getLsbD_eq
  intro i hi
  have h2 : i < 480 := by omega
  simp only [waitBundle, BitVec.getLsbD_extractLsb', BitVec.getLsbD_or, BitVec.getLsbD_shiftLeft, BitVec.getLsbD_setWidth,
    Nat.zero_add, hi, h2, show i < 512 by omega]
  simp
theorem waitBundle_high (o : SyncOp) (i : Nat) (h : 480 ≤ i) (h2 : i < 512) :
   bit (waitBundle o) i = Nat.testBit 0x10000020 (i - 480) := by
  have e : (encodeWait o).getLsbD i = false := BitVec.getLsbD_of_ge _ _ (by omega)
  have hh : ¬ i < 480 := by omega
  simp only [bit, waitBundle, BitVec.getLsbD_or, BitVec.getLsbD_shiftLeft, BitVec.getLsbD_setWidth, e, BitVec.getLsbD_ofNat,
   hh, h2, show i - 480 < 512 by omega, decide_false, decide_true, Bool.not_false, Bool.true_and, Bool.and_false, Bool.or_false]
theorem waitBundle_ext (o : SyncOp) (i n : Nat) (h : 480 ≤ i) (h2 : i + n ≤ 512):
   (waitBundle o).extractLsb' i n = BitVec.ofNat n (0x10000020 >>> (i - 480)) := by
  apply BitVec.eq_of_getLsbD_eq
  intro j hj
  simp only [BitVec.getLsbD_extractLsb', hj, decide_true, Bool.true_and, BitVec.getLsbD_ofNat, Nat.testBit_shiftRight]
  have := waitBundle_high o (i + j) (by omega) (by omega)
  rw [bit] at this; rw [this, show i + j - 480 = i - 480 + j by omega]
theorem bundleOf_waitBundle (o : SyncOp) (f : SyncOp) (hs : decodeSync (encodeWait o) = some f) (hf : decodeFlow (encodeWait o) = some .none) :
   bundleOf (waitBundle o) = { emptyBundle with version := 1, sync := f } := by
  have v0 := waitBundle_high o (480 + 0) (by decide) (by decide)
  have v1 := waitBundle_high o (480 + 1) (by decide) (by decide)
  have v2 := waitBundle_high o (480 + 2) (by decide) (by decide)
  have v3 := waitBundle_high o (480 + 3) (by decide) (by decide)
  have v4 := waitBundle_high o (480 + 4) (by decide) (by decide)
  have v5 := waitBundle_high o (480 + 5) (by decide) (by decide)
  have b1 : bits (waitBundle o) 508 4 = 1 := by rw [bits, waitBundle_ext _ _ _ (by decide) (by decide)]; decide
  have b2 : bits (waitBundle o) 488 8 = 0 := by rw [bits, waitBundle_ext _ _ _ (by decide) (by decide)]; decide
  have b3 : (waitBundle o).extractLsb' 496 12 = 0 := by rw [waitBundle_ext _ _ _ (by decide) (by decide)]; decide
  have t0 : Nat.testBit 0x10000020 (480 + 0 - 480) = false := by decide
  have t1 : Nat.testBit 0x10000020 (480 + 1 - 480) = false := by decide
  have t2 : Nat.testBit 0x10000020 (480 + 2 - 480) = false := by decide
  have t3 : Nat.testBit 0x10000020 (480 + 3 - 480) = false := by decide
  have t4 : Nat.testBit 0x10000020 (480 + 4 - 480) = false := by decide
  have t5 : Nat.testBit 0x10000020 (480 + 5 - 480) = true := by decide
  rw [t0] at v0; rw [t1] at v1; rw [t2] at v2; rw [t3] at v3; rw [t4] at v4; rw [t5] at v5
  simp only [bundleOf, decodeBundle, v0, v1, v2, v3, v4, v5, b1, b2, b3, slotIf, waitBundle_low, hs, hf, emptyBundle]
  rfl

theorem bits_toNat (w : BitVec 96) (x lo len : Nat) (e : w.toNat = x) : bits w lo len = x / 2 ^ lo % 2 ^ len := by
  rw [bits, BitVec.extractLsb'_toNat, e, Nat.shiftRight_eq_div_pow]

theorem field_toNat (w : BitVec 96) (x lo len : Nat) (v : BitVec len) (e : w.toNat = x) (h : x / 2 ^ lo % 2 ^ len = v.toNat) :
    w.extractLsb' lo len = v := by
  apply BitVec.eq_of_toNat_eq
  rw [BitVec.extractLsb'_toNat, e, Nat.shiftRight_eq_div_pow, h]

theorem decodeFlow_none (w : BitVec 96) (h : bits w 92 4 = 0) : decodeFlow w = some .none := by
  simp only [decodeFlow, h]

theorem encodeWait_waitc (n : CtrId) (imm : W32) :
    (encodeWait (.waitc n imm)).toNat = 3 * 0x100000000000000 + n.val * 0x8000000000000 + imm.toNat := by
  have hn := n.isLt
  have hi := imm.isLt
  simp only [encodeWait, BitVec.toNat_ofNat]; omega

theorem decodeSync_waitc (n : CtrId) (imm : W32) : decodeSync (encodeWait (.waitc n imm)) = some (.waitc n imm) := by
  have hn := n.isLt
  have hi := imm.isLt
  have e := encodeWait_waitc n imm
  have h1 : bits (encodeWait (.waitc n imm)) 56 8 = 3 := by rw [bits_toNat _ _ _ _ e]; omega
  have h2 : bits (encodeWait (.waitc n imm)) 51 5 = n.val := by rw [bits_toNat _ _ _ _ e]; omega
  have h4 : (encodeWait (.waitc n imm)).extractLsb' 0 32 = imm := by apply field_toNat _ _ _ _ _ e; omega
  have h5 : ctrOf n.val = n := by simp [ctrOf, finMod, Nat.mod_eq_of_lt hn]
  clear e
  generalize encodeWait (.waitc n imm) = w at *
  simp only [decodeSync, h1, h2, h4, h5]; rfl

theorem decodeFlow_waitc (n : CtrId) (imm : W32) : decodeFlow (encodeWait (.waitc n imm)) = some .none := by
  have hn := n.isLt
  have hi := imm.isLt
  have e := encodeWait_waitc n imm
  apply decodeFlow_none
  rw [bits_toNat _ _ _ _ e]; omega

theorem encodeWait_waitqp (q : QId) (k : BitVec 4) : (encodeWait (.waitqp q k)).toNat = 4 * 0x100000000000000 + q.val * 0x8000000000000 + k.toNat * 0x800000000000 := by
  have hn := q.isLt
  have hi := k.isLt
  simp only [encodeWait, BitVec.toNat_ofNat]; omega

theorem decodeSync_waitqp (q : QId) (k : BitVec 4) (h : syncOk (.waitqp q k) = true) :
    decodeSync (encodeWait (.waitqp q k)) = some (.waitqp q k) := by
  have hn := q.isLt
  have hi := k.isLt
  have e := encodeWait_waitqp q k
  have h1 : bits (encodeWait (.waitqp q k)) 56 8 = 4 := by rw [bits_toNat _ _ _ _ e]; omega
  have h2 : bits (encodeWait (.waitqp q k)) 51 5 = q.val := by rw [bits_toNat _ _ _ _ e]; omega
  have h4 : (encodeWait (.waitqp q k)).extractLsb' 47 4 = k := by apply field_toNat _ _ _ _ _ e; omega
  have h5 : qOf q.val = q := by simp [qOf, finMod, Nat.mod_eq_of_lt hn]
  clear e
  generalize encodeWait (.waitqp q k) = w at *
  simp only [decodeSync, h1, h2, h4, h5, Option.filter_some, h, if_true]

theorem decodeFlow_waitqp (q : QId) (k : BitVec 4) : decodeFlow (encodeWait (.waitqp q k)) = some .none := by
  have hn := q.isLt
  have hi := k.isLt
  have e := encodeWait_waitqp q k
  apply decodeFlow_none
  rw [bits_toNat _ _ _ _ e]; omega

theorem encodeWait_waitqr (q : QId) (k : BitVec 4) : (encodeWait (.waitqr q k)).toNat = 5 * 0x100000000000000 + q.val * 0x8000000000000 + k.toNat * 0x800000000000 := by
  have hn := q.isLt
  have hi := k.isLt
  simp only [encodeWait, BitVec.toNat_ofNat]; omega

theorem decodeSync_waitqr (q : QId) (k : BitVec 4) (h : syncOk (.waitqr q k) = true) :
    decodeSync (encodeWait (.waitqr q k)) = some (.waitqr q k) := by
  have hn := q.isLt
  have hi := k.isLt
  have e := encodeWait_waitqr q k
  have h1 : bits (encodeWait (.waitqr q k)) 56 8 = 5 := by rw [bits_toNat _ _ _ _ e]; omega
  have h2 : bits (encodeWait (.waitqr q k)) 51 5 = q.val := by rw [bits_toNat _ _ _ _ e]; omega
  have h4 : (encodeWait (.waitqr q k)).extractLsb' 47 4 = k := by apply field_toNat _ _ _ _ _ e; omega
  have h5 : qOf q.val = q := by simp [qOf, finMod, Nat.mod_eq_of_lt hn]
  clear e
  generalize encodeWait (.waitqr q k) = w at *
  simp only [decodeSync, h1, h2, h4, h5, Option.filter_some, h, if_true]

theorem decodeFlow_waitqr (q : QId) (k : BitVec 4) : decodeFlow (encodeWait (.waitqr q k)) = some .none := by
  have hn := q.isLt
  have hi := k.isLt
  have e := encodeWait_waitqr q k
  apply decodeFlow_none
  rw [bits_toNat _ _ _ _ e]; omega

theorem encodeWait_barrier (d : BitVec 4) (m : W16) :
    (encodeWait (.barrier d m)).toNat = 6 * 0x100000000000000 + d.toNat * 0x10000000000000 + m.toNat * 0x100000000 := by
  have hn := d.isLt
  have hi := m.isLt
  simp only [encodeWait, BitVec.toNat_ofNat]; omega

theorem decodeSync_barrier (d : BitVec 4) (m : W16) : decodeSync (encodeWait (.barrier d m)) = some (.barrier d m) := by
  have hn := d.isLt
  have hi := m.isLt
  have e := encodeWait_barrier d m
  have h1 : bits (encodeWait (.barrier d m)) 56 8 = 6 := by rw [bits_toNat _ _ _ _ e]; omega
  have h2 : (encodeWait (.barrier d m)).extractLsb' 52 4 = d := by apply field_toNat _ _ _ _ _ e; omega
  have h4 : (encodeWait (.barrier d m)).extractLsb' 32 16 = m := by apply field_toNat _ _ _ _ _ e; omega
  clear e
  generalize encodeWait (.barrier d m) = w at *
  simp only [decodeSync, h1, h2, h4]; rfl

theorem decodeFlow_barrier (d : BitVec 4) (m : W16) : decodeFlow (encodeWait (.barrier d m)) = some .none := by
  have hn := d.isLt
  have hi := m.isLt
  have e := encodeWait_barrier d m
  apply decodeFlow_none
  rw [bits_toNat _ _ _ _ e]; omega

/-- The bundle of a wait is read back as that wait alone (07 R173). -/
theorem bundleOf_waitc (n : CtrId) (imm : W32) :
    bundleOf (waitBundle (.waitc n imm)) = { emptyBundle with version := 1, sync := .waitc n imm } :=
  bundleOf_waitBundle _ _ (decodeSync_waitc n imm) (decodeFlow_waitc n imm)

theorem bundleOf_waitqp (q : QId) (k : BitVec 4) (h : syncOk (.waitqp q k) = true) :
    bundleOf (waitBundle (.waitqp q k)) = { emptyBundle with version := 1, sync := .waitqp q k } :=
  bundleOf_waitBundle _ _ (decodeSync_waitqp q k h) (decodeFlow_waitqp q k)

theorem bundleOf_waitqr (q : QId) (k : BitVec 4) (h : syncOk (.waitqr q k) = true) :
    bundleOf (waitBundle (.waitqr q k)) = { emptyBundle with version := 1, sync := .waitqr q k } :=
  bundleOf_waitBundle _ _ (decodeSync_waitqr q k h) (decodeFlow_waitqr q k)

theorem bundleOf_barrier (d : BitVec 4) (m : W16) :
    bundleOf (waitBundle (.barrier d m)) = { emptyBundle with version := 1, sync := .barrier d m } :=
  bundleOf_waitBundle _ _ (decodeSync_barrier d m) (decodeFlow_barrier d m)

end Sys2Proof.Machine
end

