-- ==== Sys2Proof/Tests/Slice0.lean ====
section
/-! SUPPORT. Tests: ill-formed commands each check refuses, encodings and check values from outside the model, and, for
every statement with hypotheses, states and operands that meet them, clause by clause, in the statement's own words. -/

namespace Sys2Proof.Tests

set_option Elab.async false

open Sys2Proof Sys2Proof.Machine Host

/-! ### A small running machine, and what follows a command -/

def nextOf (o : Out) (s : State) : State := match o with | .next t => t | _ => s

def mkQ (l : List Entry) (topo : W64) : QueueEnd := { entries := l, topo := topo }
def cbase : State :=
  let s := State.reset
  let i : PartImage := { wardMask := 0xFFFF, driver := Vector.replicate 16 0, wellMask := 0xFFF, share2g := 1, cisZ := Vector.replicate 4 1, base2g := Vector.replicate 12 0, sluiceMask := 0xF, groupCount := Vector.replicate 4 16, axisWeight := Vector.replicate 3 1, portShare := Vector.replicate 18 1 }
  { s with
    timeNs := 5000000
    power := { s.power with supply := .inRange, alwaysOn := true, pwrEn := true, perst := false, railWells := true, railCistern := true, railOptics := true, railFields := Vector.replicate 4 true }
    boot := { s.boot with state := .ready, railsUp := true }
    image := { s.image with fabric := { s.image.fabric with chip := 1, dims := #v[2,2,1], classWeight := #v[1,1,1] } }
    link := { s.link with link := .l0, width := 16 }
    parts := s.parts.set 0 { state := .running, im := { img := i }, meter := { metered := true }, lull := { budget := 20 } }
    seqs := s.seqs.map (fun q => { q with state := .idle }) |>.set 0 { state := .running, wardMask := 0xFFFF }
    wells := Vector.replicate 12 { state := .active }
    pumps := Vector.replicate 4 { mem := { state := .active } }
    cores := s.cores.set 3 { s.cores[(3 : CoreId)] with
       k := Vector.ofFn fun i => BitVec.ofNat 64 (0x123456789ABCDE * (i.val + 1))
       ag := Vector.ofFn fun i => { base := BitVec.ofNat 22 (256 * i.val), cur := BitVec.ofNat 22 (0x1100 * i.val), stride1 := 256, count1 := 3 }
       ring := { head := 7, tail := 5, sizeLog2 := 4, baseLine := 9 }
       mem := [(0x1100, 5), (0x1101, 7), (0x2200, 9)]
       queues := s.cores[(3 : CoreId)].queues |>.set 1 (mkQ [] 0x0117000000000000) |>.set 2 (mkQ [⟨0x42, 3, 9, false, false⟩, ⟨0x43, 3, 9, false, false⟩] 0x0217000000000000)
          |>.set 4 (mkQ [⟨0x44, 5, 9, false, false⟩] 0x0018000000000000)
          |>.set 3 (mkQ [⟨0x44, 5, 9, false, false⟩] 0x0211000000000000)
          |>.set 5 (mkQ [] 0x0200000000000000)
       beats := 100
       inflight := [{ due := 103, beat := 99, free := 0, rank := 1, res := .kreg 2 9, seqIdx := 1, issue := 2, slot := 0 }] } }

namespace Hand

/-! ### Ill-formed commands, one for each check of `Instr.wf` -/

def lq : LqArgs := ⟨0, false, false, noQ, .bf16⟩
def lq2 : Lq2Args := ⟨0, false, noQ, .bf16, 0, false, noQ, .bf16⟩
def xf : XferArgs := ⟨0, 0, 0, 0, false, 0, 1, false, 0⟩
def vfp : VArgs := { noVArgs with fmt := .fp32 }
def vint : VArgs := { noVArgs with fmt := .int32 }
def bigPkt : Packet := mkPacket 1 1 1 0 0 0 (List.replicate 4129 0)
def badHead (code : Byte) : MctpHead := ⟨code, 0, 0, 0, 0⟩
def badMsg (code : Byte) : MctpMsg := ⟨.pcie, badHead code, true, []⟩

/-- Refused scalar, load, store and sync operands (R155, R157, R159, R166, R176). -/
theorem test_wf_control_slots :
    (Instr.agset 0 { noSArgs with f := 5 }).wf = false ∧ (Instr.agset 0 { noSArgs with f := 4 }).wf = true ∧
    (Instr.xfree 0 noSArgs).wf = false ∧ (Instr.xfree 0 { noSArgs with imm := 4097 }).wf = false ∧
    (Instr.xfree 0 { noSArgs with imm := 4096 }).wf = true ∧
    (Instr.ldq 0 { lq with fmt := .a20 }).wf = false ∧ (Instr.stq 0 { lq with fmt := .a20 }).wf = false ∧
    (Instr.ldq2 0 { lq2 with fmtB := .a20 }).wf = false ∧ (Instr.stq2 0 { lq2 with fmtA := .a20 }).wf = false ∧
    (Instr.get 0 { xf with tc := 2 }).wf = false ∧ (Instr.get 0 { xf with op := 1 }).wf = false ∧
    (Instr.put 0 { xf with op := 4 }).wf = false ∧ (Instr.put 0 { xf with op := 3 }).wf = true ∧
    (Instr.waitqp 0 0 0).wf = false ∧ (Instr.waitqp 0 0 9).wf = false ∧ (Instr.waitqr 0 0 9).wf = false ∧
    (Instr.waitqr 0 0 8).wf = true ∧ (Instr.raise 0 3).wf = false ∧ (Instr.raise 0 4).wf = true := by decide +kernel

/-- Refused matrix operands (R185, R188, R191, R192). -/
theorem test_wf_matrix_slot :
    (Instr.mcfg 0 0x3000).wf = false ∧ (Instr.mcfg 0 2).wf = false ∧ (Instr.mcfg 0 0x1001).wf = true ∧
    (Instr.mloadw 0 { noMArgs with fmt := .ue8 }).wf = false ∧ (Instr.mloadw 0 { noMArgs with scaled := true }).wf = false ∧
    (Instr.mloads 0 { noMArgs with index := 10 }).wf = false ∧ (Instr.mloads 0 { noMArgs with index := 9 }).wf = true ∧
    (Instr.mmul 0 { noMArgs with fmt := .bf16, scaled := true }).wf = false ∧ (Instr.mmul 0 { noMArgs with dmode := 3 }).wf = false ∧
    (Instr.mmult 0 { noMArgs with fmt := .int8, scaled := true }).wf = false ∧
    (Instr.mew 0 { noMArgs with fmt := .fp32 }).wf = false ∧ (Instr.mew 0 { noMArgs with fmt := .bf16, index := 128 }).wf = false ∧
    (Instr.mew 0 { noMArgs with fmt := .bf16, index := 127 }).wf = true := by decide +kernel

/-- Refused vector operands (R155, R195, R197, R198, R201, R203, R233). -/
theorem test_wf_vector_slot :
    (Instr.vmov 0 { noVArgs with fmt := .a20 }).wf = false ∧ (Instr.vadd 0 { noVArgs with fmt := .int8 }).wf = false ∧
    (Instr.vcmp 0 { vfp with imm := 5 }).wf = false ∧ (Instr.vcmp 0 { vfp with imm := 4 }).wf = true ∧
    (Instr.vfma 0 vint).wf = false ∧ (Instr.vexp2 0 vint).wf = false ∧ (Instr.amax 0 vint).wf = false ∧
    (Instr.vand 0 vfp).wf = false ∧ (Instr.vgate 0 vfp).wf = false ∧ (Instr.vgate 0 vint).wf = true ∧
    (Instr.cvt 0 { vfp with imm := 0xD }).wf = false ∧ (Instr.quant 0 vint).wf = false ∧
    (Instr.rsum 0 noVArgs).wf = false ∧ (Instr.rmax 0 vint).wf = true ∧ (Instr.vupdm 0 vint).wf = false ∧
    (Instr.vcoef 0 vint).wf = false ∧ (Instr.topk 0 { vfp with b := .vreg 0, imm := 0x109 }).wf = false ∧
    (Instr.topk 0 { vfp with b := .vreg 0, imm := 0x108 }).wf = true ∧ (Instr.topk 0 { vfp with imm := 0x108 }).wf = false ∧
    (Instr.vstormCount 0 { vfp with b := .kreg 0, imm := 3 }).wf = false ∧ (Instr.vstormLoss 0 vfp).wf = false ∧
    (Instr.vstormClose 0 { vfp with b := .kreg 0, imm := 2 }).wf = true := by decide +kernel

/-- Refused commands of the host, the memories and the fabric (R111, R114, R127, R251, R265, R288, R423). -/
theorem test_wf_other_commands :
    (Instr.wellRead 0 0x40000000 .engine [] 0).wf = false ∧ (Instr.wellRead 0 0 .engine [576] 0).wf = false ∧
    (Instr.wellRead 0 0 .engine [575] 0).wf = true ∧ (Instr.patrolRead (.well 0) [576]).wf = false ∧
    (Instr.remapAdd (.quarter 0) 0x100000000).wf = false ∧ (Instr.remapAdd (.quarter 0) 0xFFFFFFFF).wf = true ∧
    (Instr.quarantineAdd (.well 0) 0x100000).wf = false ∧ (Instr.quarantineRemove (.well 0) 0xFFFFF).wf = true ∧
    (Instr.capsuleHeaderWrite 0 0x200000 [0]).wf = false ∧ (Instr.bar2BaseWrite .pf (.resize 29)).wf = false ∧
    (Instr.bar2BaseWrite .pf (.resize 40)).wf = true ∧ (Instr.mctpRegRead (badMsg 2)).wf = false ∧
    (Instr.mctpRegRead (badMsg 9)).wf = true ∧ (Instr.ack 0 bigPkt 0).wf = false ∧
    (Instr.eyeScan 0 16).wf = false ∧ (Instr.measure []).wf = false ∧ (Instr.keyExchange []).wf = false := by decide +kernel

/-! ### Encodings written out from the tables of 06, 07 and 08 -/

/-- Scalar ADD K2 := K1 + K3 − 1: opcode [63:56], d [55:52], a [51:48], b [47:44], imm [31:0] (R159). -/
theorem test_decode_add : decodeScalar 0x03213000FFFFFFFF = some (.add, ⟨2, 1, 3, 0, 0xFFFFFFFF⟩) := by decide +kernel

/-- Opcode 0x0C is not listed, and AGSET with f = 5 is refused (R157, R159). -/
theorem test_decode_scalar_refuses : decodeScalar 0x0C00000000000000 = none ∧ decodeScalar 0x1000050000000000 = none := by
  decide +kernel

/-- WAITC of counter 5 for 9: opcode [63:56], counter [55:51], imm [31:0] (R174); with HALT in the flow half. -/
theorem test_decode_waitc :
    decodeSync 0x400000000328000000000009 = some (.waitc 5 9) ∧ decodeFlow 0x400000000328000000000009 = some .halt := by
  decide +kernel

/-! ### Checks and draws against values from outside the model -/

def digits : List Byte := [0x31, 0x32, 0x33, 0x34, 0x35, 0x36, 0x37, 0x38, 0x39]

/-- CRC-32C of "123456789" is 0xE3069283, the check value of the polynomial (05, body_crc). -/
theorem test_crc32c : crc32c digits = 0xE3069283 := by decide +kernel

/-- The CRC-16 of R289 and the CRC-64 of R290 of "123456789": their published check values. -/
theorem test_crc_msb_first :
    digits.foldl (crcMsbByte (n := 16) 0x1021) 0xFFFF = 0x29B1 ∧
    digits.foldl (crcMsbByte (n := 64) 0x42F0E1EBA9EA3693) 0 = 0x6C40DF5F0B497347 := by decide +kernel

/-- From seed 1 the first step shifts out a 1 and the next ones zeros, by hand from R217: the state is 0x80200003, then
0xC0300002 after a 1 is shifted out again. -/
theorem test_lfsr : lfsrStep 1 = (true, 0x80200003) ∧ lfsrStep 0x80200003 = (true, 0xC0300002) ∧
    lfsrSeed 0x10000 1 = 1 := by decide +kernel

/-! ### One step each -/

/-- What core 3 has in flight last after a command. -/
def last3 (i : Instr) : Option Result := ((nextOf (exec i cbase) cbase).cores[(3 : CoreId)].inflight.getLast?).map (·.res)

/-- MOVI extends its sign, MOVHI keeps the low half of K0, SUB goes below zero modulo 2^64 (R159). -/
theorem test_scalar_results :
    last3 (.movi 3 ⟨1, 0, 0, 0, 0xFFFFFFFF⟩) = some (.kreg 1 0xFFFFFFFFFFFFFFFF) ∧
    last3 (.movhi 3 ⟨1, 0, 0, 0, 0x11111111⟩) = some (.kreg 1 0x11111111789ABCDE) ∧
    last3 (.sub 3 ⟨1, 0, 1, 0, 0⟩) = some (.kreg 1 0xFFEDCBA987654322) := by decide +kernel

/-- A step takes the front command and leaves the rest; an empty queue idles one tick (log 1). -/
theorem test_step :
    (nextOf (step { cbase with pending := [.scalarNop 3, .nextRecord 0] }) cbase).pending = [.nextRecord 0] ∧
    (nextOf (step cbase) cbase).timeNs = 5000010 := by decide +kernel

/-- The table gives no row bits: no word spells a command (log 4). -/
theorem test_decode_table_word : decodeTableWord 16 0x1234 = none ∧ State.reset.withFetchWord 16 0x1234 = State.reset :=
  ⟨rfl, rfl⟩

/-! ### States that meet the hypotheses of statements over every step -/

theorem test_every_step_only_burns_fuses : ∃ s t : State, step s = .next t ∧ t ≠ s :=
  ⟨cbase, nextOf (step cbase) cbase, rfl, by decide +kernel⟩

theorem test_every_step_keeps_the_invariant : ∃ s t : State, Sound s ∧ step s = .next t :=
  ⟨cbase, nextOf (step cbase) cbase, by unfold Sound KeysServe; decide +kernel, rfl⟩

/-- A draining core with one result in flight (ResultsAreWrittenInTheirBeat). -/
theorem test_results_are_written_in_their_beat :
    ∃ (s : State) (c : CoreId) (f : Flight), s.coreDrains c = true ∧ s.cores[c].grace = none ∧ s.cores[c].inflight = [f] ∧
      s.cores[c].beats ≤ f.due ∧ f.rank ≤ 8 ∧ f.res = .kreg 2 9 :=
  ⟨{ cbase with cores := updAt cbase.cores 3 fun x => { x with halted := true, drains := true } }, 3,
    { due := 103, beat := 99, free := 0, rank := 1, res := .kreg 2 9, seqIdx := 1, issue := 2, slot := 0 }, by decide +kernel⟩

/-- A bundle whose wait does not hold (SequencersIssueInProgramOrder): WAITC of counter 0 for 1. -/
theorem test_a_bundle_waits :
    ∃ (s : State) (c : CoreId) (w : Bundle512) (k : BitVec 48) (l : List (Bundle512 × BitVec 48)) (v : Wait),
      s.coreReady c = true ∧ s.cores[c].grace = none ∧ s.cores[c].fifo = (w, k) :: l ∧
        (bundleOf w).sync.wait s.cores[c] = some v ∧ v.holds s.cores[c] = false ∧
        (∀ (id : BitVec 4) (m : W16), (bundleOf w).sync ≠ SyncOp.barrier id m) :=
  ⟨{ cbase with cores := updAt cbase.cores 3 fun x => { x with fifo := [(waitBundle (.waitc 0 1), 9)] } }, 3,
    waitBundle (.waitc 0 1), 9, [], .counter 0 1, by decide +kernel, by decide +kernel, by decide +kernel, by decide +kernel,
    by decide +kernel, fun id m h => by
      have e : (bundleOf (waitBundle (.waitc 0 1))).sync = SyncOp.waitc 0 1 := by decide +kernel
      rw [e] at h; cases h⟩

/-- The first fault of a running partition collected (FaultsLimitsAndCadences). -/
theorem test_first_fault_is_collected :
    ∃ (s : State) (p : PartId) (x : Program) (cr : Nat) (n : SeqId) (w b : W64) (k : BitVec 48),
      s.parts[p].fault.transit = [(cr, n, w, k, b)] ∧ s.parts[p].fault.first = none ∧ s.parts[p].state = .running ∧
        s.parts[p].run.stopping = none ∧ s.programs.filter (fun y => y.part == p) = [x] ∧ x.part = p ∧ NoItems p s :=
  ⟨{ cbase with
      programs := [{ id := 4, part := 0, tag := 7, step := 5, seqs := [0], region := false, limitAt := none, raiseV0 := true }]
      parts := cbase.parts.set 0 { cbase.parts[0] with fault := { transit := [(5, 0, 0x0501000000000000, 7, 8)] } } }, 0,
    { id := 4, part := 0, tag := 7, step := 5, seqs := [0], region := false, limitAt := none, raiseV0 := true },
    5, 0, 0x0501000000000000, 8, 7, by unfold NoItems SluicesIdle; decide +kernel⟩

end Hand

/-! ### Witnesses of the statements about power -/

namespace Power

def off : State := { State.reset with power := { State.reset.power with alwaysOn := true } }
def ru : State := { cbase with boot := { state := .bare, bareCause := 5 } }
def gv : State := { cbase with power := { cbase.power with govAt := 4000000, commonMv := 700 }, fields := #v[{ railMv := 700 }, { retained := true, railMv := 450 }, {railMv := 800, junctionC := 107}, {}] }

/-- States and operands that meet the hypotheses of SupplyAndPowerEnableSwitchTheDomains, clause by clause. -/
theorem test_supply_and_power_enable_switch_the_domains :
    (∃ (s : State), s.power.alwaysOn = false) ∧
    (∃ (s : State), s.power.alwaysOn = true) ∧
    (∃ (s : State), s.power.alwaysOn = true ∧ s.power.strapsSampled = false) ∧
    (∃ (s : State), s.power.alwaysOn = true ∧ s.power.pwrEn = false ∧ s.ctl.halted = false) ∧
    (∃ (s : State), s.power.pwrEn = true ∧ s.power.railWells = true ∧ s.boot.railsUp = false ∧ s.heldBare = false ∧ fuseMapOk s.fuses.map = true ∧ (s.power.straps.bootBare = false ∨ s.loader.endedSinceStraps = true) ∧ s.loader.slotValid = false) ∧
    (∃ (s : State), s.power.pwrEn = true ∧ s.power.railWells = true ∧ s.boot.railsUp = false ∧ s.heldBare = false ∧ fuseMapOk s.fuses.map = true ∧ (s.power.straps.bootBare = false ∨ s.loader.endedSinceStraps = true) ∧ s.loader.slotValid = true) ∧
    (∃ (s : State), s.power.pwrEn = true ∧ s.power.railWells = true ∧ s.boot.railsUp = false ∧ s.heldBare = false ∧ fuseMapOk s.fuses.map = true ∧ s.power.straps.bootBare = true ∧ s.loader.endedSinceStraps = false) ∧
    (∃ (s : State), s.power.pwrEn = true ∧ s.power.railWells = true ∧ s.boot.railsUp = false ∧ s.heldBare = false ∧ fuseMapOk s.fuses.map = false) :=
  ⟨⟨State.reset, by decide +kernel⟩,
    ⟨cbase, by decide +kernel⟩,
    ⟨off, by decide +kernel⟩,
    ⟨off, by decide +kernel⟩,
    ⟨ru, by decide +kernel⟩,
    ⟨{ ru with loader := { slotValid := true } }, by decide +kernel⟩,
    ⟨{ ru with power := { ru.power with straps := ⟨0, true, false⟩ } }, by decide +kernel⟩,
    ⟨{ ru with fuses := { map := 3 } }, by decide +kernel⟩⟩

/-- States and operands that meet the hypotheses of RemovedPowerEmptiesTheDevice, clause by clause. -/
theorem test_removed_power_empties_the_device :
    (∃ (s : State), s.power.pwrEn = true) ∧
    (∃ (s : State) (mv : W16), s.power.alwaysOn = true ∧ 38000 ≤ BitVec.toNat mv ∧ BitVec.toNat mv < 42000 ∧ s.power.supply ≠ Supply.collapsed) ∧
    (∃ (s : State) (x : Sensor) (c : Byte), s.power.alwaysOn = true ∧ s.power.thermTrip = false ∧ tripC x ≤ BitVec.toInt c) :=
  ⟨⟨cbase, by decide +kernel⟩,
    ⟨cbase, 38000, by decide +kernel⟩,
    ⟨cbase, .optic 3, 85, by decide +kernel⟩⟩

/-- States and operands that meet the hypotheses of CapsBrakesAndWarnings, clause by clause. -/
theorem test_caps_brakes_and_warnings :
    (∃ (s : State), s.power.undervoltage = false) ∧
    (∃ (s : State) (mv : W16), s.power.alwaysOn = true ∧ s.power.undervoltage = false ∧ BitVec.toNat mv < 45000) ∧
    (∃ (s : State), s.power.undervoltage = true) ∧
    (∃ (s : State), Ready s) ∧
    (∃ (s : State), s.power.alwaysOn = true) :=
  ⟨⟨cbase, by decide +kernel⟩,
    ⟨cbase, 44999, by decide +kernel⟩,
    ⟨{ cbase with power := { cbase.power with undervoltage := true } }, by decide +kernel⟩,
    ⟨cbase, by unfold Ready; decide +kernel⟩,
    ⟨cbase, by decide +kernel⟩⟩

/-- States and operands that meet the hypotheses of GovernorAndMeasuredStatus, clause by clause. -/
theorem test_governor_and_measured_status :
    (∃ (s : State) (at_ : ℕ), (s.advanceTo at_).power.pwrEn = true ∧ (s.advanceTo at_).ctl.halted = false ∧ (s.advanceTo at_).power.govAt + 10000 ≤ (s.advanceTo at_).timeNs ∧ 650 ≤ (s.advanceTo at_).power.commonMv ∧ (s.advanceTo at_).power.commonMv ≤ 800 ∧ (s.advanceTo at_).power.commonMv % 5 = 0) ∧
    (∃ (s : State) (w : W16) (at_ : ℕ), (s.advanceTo at_).power.pwrEn = true ∧ (s.advanceTo at_).ctl.halted = false ∧ (s.advanceTo at_).power.govAt + 10000 ≤ (s.advanceTo at_).timeNs ∧ 650 ≤ (s.advanceTo at_).power.commonMv ∧ (s.advanceTo at_).power.commonMv ≤ 800 ∧ (s.advanceTo at_).capInForce < BitVec.toNat w) ∧
    (∃ (s : State) (w : W16) (at_ : ℕ), (s.advanceTo at_).power.pwrEn = true ∧ (s.advanceTo at_).ctl.halted = false ∧ (s.advanceTo at_).power.govAt + 10000 ≤ (s.advanceTo at_).timeNs ∧ 650 ≤ (s.advanceTo at_).power.commonMv ∧ (s.advanceTo at_).power.commonMv ≤ 800 ∧ (s.advanceTo at_).capInForce = BitVec.toNat w) ∧
    (∃ (s : State) (at_ : ℕ), (s.advanceTo at_).timeNs < (s.advanceTo at_).power.govAt + 10000) ∧
    (∃ (s : State), s.power.pwrEn = true) ∧
    (∃ (s : State), s.power.railWells = true) :=
  ⟨⟨gv, 5000000, by decide +kernel⟩,
    ⟨gv, 2001, 5000000, by decide +kernel⟩,
    ⟨gv, 2000, 5000000, by decide +kernel⟩,
    ⟨{ gv with power := { gv.power with govAt := 4999999 } }, 5000000, by decide +kernel⟩,
    ⟨cbase, by decide +kernel⟩,
    ⟨cbase, by decide +kernel⟩⟩

end Power

/-! ### Witnesses of the statements about rest and wake -/

namespace Lulls

def lb : State := { cbase with
  power := { cbase.power with commonMv := 700 }
  fields := Vector.replicate 4 { railMv := 700, rateMbeat := 900 }
  seqs := cbase.seqs.set 0 { cbase.seqs[(0:SeqId)] with state := .idle }
  parts := cbase.parts.set 0 { cbase.parts[(0:PartId)] with lull := { budget := 1000000 } } }
def lb1 : State := nextOf (exec (.lullEntry 0 1 6000000) lb) lb
def lb2 : State := nextOf (exec (.lullEntry 0 2 7000000) lb1) lb1
def lbc : State := { lb2 with seqs := lb2.seqs.set 0 { lb2.seqs[(0:SeqId)] with arm := true, periodNs := 1000000, tArm := 6000500, tickK := 0 } }
def lpx : State := { lb2 with lull3Enable := true, parts := lb2.parts.map (fun x => { x with lull := { x.lull with budget := 1000000, reached := 2 } }), ports := lb2.ports.set 0 { state := .admitted, laneMask := 0xFFFF, nbrAdmitted := true } |>.set 1 {lb2.ports[(1:PortId)] with state := .training, laneMask := 5} , snd := { running := true, kind := 5, target := 0 } }
def lp3 : State := nextOf (exec (.lull3Entry 11000000) lpx) lpx
def pk (d : Nat) (tc : Nat) : Packet := ⟨BitVec.ofNat 15 d, 1, 1, BitVec.ofNat 2 tc, false, false, false, 0, 0, 0, 0, false, 0, 0, 0, false, List.replicate 64 0⟩

/-- States and operands that meet the hypotheses of PartitionsRestInOrderAndWake, clause by clause. -/
theorem test_partitions_rest_in_order_and_wake :
    (∃ (s : State) (p : PartId) (d : Fin 4) (at_ : ℕ), 1 ≤ ↑d ∧ ↑d ≤ 2 ∧ (s.advanceTo at_).mayRest p ↑d = true ∧ (s.advanceTo at_).parts[p].lull.reached + 1 = ↑d) ∧
    (∃ (s : State) (p : PartId) (d : Fin 4) (at_ : ℕ), (↑d = 0 ∨ ↑d = 3 ∨ (s.advanceTo at_).mayRest p ↑d = false ∨ (s.advanceTo at_).parts[p].lull.reached + 1 ≠ ↑d)) ∧
    (∃ (s : State) (p : PartId), s.parts[p].claims? = true) ∧
    (∃ (s : State) (p : PartId), s.parts[p].claims? = false) ∧
    (∃ (s : State) (n : SeqId) (at_ : ℕ) (p : PartId), (s.advanceTo at_).seqHolder n = some p ∧ (s.advanceTo at_).seqs[n].arm = true ∧ (s.advanceTo at_).seqs[n].nextTick (s.advanceTo at_).timeNs ≤ (s.advanceTo at_).timeNs + wakeLatency ((s.advanceTo at_).effectiveDepth p)) ∧
    (∃ (s : State) (p : PartId) (b : W32), Ready s ∧ allowedDepth b < max (s.effectiveDepth p) s.parts[p].lull.reached ∧ s.parts[p].claims? = true) ∧
    (∃ (s : State) (p : PartId) (b : W32), Ready s ∧ allowedDepth b < max (s.effectiveDepth p) s.parts[p].lull.reached ∧ s.parts[p].claims? = false) ∧
    (∃ (s : State) (p : PartId) (b : W32), Ready s ∧ ¬allowedDepth b < max (s.effectiveDepth p) s.parts[p].lull.reached) :=
  ⟨⟨lb, 0, 1, 6000000, by decide +kernel⟩,
    ⟨lb, 0, 2, 7000000, by decide +kernel⟩,
    ⟨lb2, 0, by decide +kernel⟩,
    ⟨lb2, 1, by decide +kernel⟩,
    ⟨lbc, 0, 7000490, 0, by decide +kernel⟩,
    ⟨lb2, 0, 50, by unfold Ready; decide +kernel⟩,
    ⟨{ lb2 with parts := lb2.parts.set 3 { lull := { reached := 2 } } }, 3, 5, by unfold Ready; decide +kernel⟩,
    ⟨lb2, 0, 5000000, by unfold Ready; decide +kernel⟩⟩

/-- States and operands that meet the hypotheses of WholeDeviceRestsAndPortsUnpark, clause by clause. -/
theorem test_whole_device_rests_and_ports_unpark :
    (∃ (s : State) (at_ : ℕ), (s.advanceTo at_).lull3Enable = true ∧ (s.advanceTo at_).inLull3 = false ∧ (s.advanceTo at_).boot.state = BootState.ready ∧ (s.advanceTo at_).tc12At + 3600000 ≤ (s.advanceTo at_).timeNs ∧ (∀ (p : PartId), (s.advanceTo at_).mayRest p 3 = true ∧ 2 ≤ (s.advanceTo at_).parts[p].lull.reached)) ∧
    (∃ (s : State) (at_ : ℕ), ((s.advanceTo at_).lull3Enable = false ∨ ∃ p, (s.advanceTo at_).mayRest p 3 = false ∨ (s.advanceTo at_).parts[p].lull.reached < 2)) ∧
    (∃ (s : State) (n : PortId), s.ports[n].parked = true ∧ s.ports[n].wants = false ∧ s.inLull3 = false ∧ s.ports[n].nbrParked = false) ∧
    (∃ (s : State) (n : PortId), s.ports[n].parked = true ∧ s.ports[n].wants = true ∧ s.ports[n].nbrParked = false) ∧
    (∃ (s : State) (n : PortId), s.ports[n].parked = false) :=
  ⟨⟨lpx, 11000000, by decide +kernel⟩,
    ⟨lb2, 11000000, by decide +kernel⟩,
    ⟨{ lp3 with inLull3 := false }, 0, by decide +kernel⟩,
    ⟨{ lp3 with ports := lp3.ports.set 0 { lp3.ports[(0:PortId)] with held := [⟨3, pk 0 1, none, 2⟩] } }, 0, by decide +kernel⟩,
    ⟨lpx, 0, by decide +kernel⟩⟩

end Lulls

/-! ### Witnesses of the statements about boot -/

namespace Boot

def bv : State := { cbase with boot := { state := .verify, railsUp := true }, loader := { slotValid := true } , image := {}}
def bs : State := { bv with boot := { state := .structure_, railsUp := true }, image := cbase.image, parts := Vector.replicate 16 {} }
def bf : State := { cbase with boot := { state := .fill, railsUp := true }, pumps := Vector.replicate 4 { mem := { data := [(5,1)] } }, wells := Vector.replicate 12 { state := .filling, data := [(5, 1), (0x20005, 7)], qtn := [2] } }
def bf4 : State := { bf with wells := Vector.replicate 12 {state := .active}, pumps := Vector.replicate 4 { mem := { state := .active } } }
def bf1 := nextOf (exec .bootFill bf4) bf
def bfp : State := { bf with wells := Vector.replicate 12 {state := .active}, pumps := (Vector.replicate 4 { mem := { state := .filling, data := [(5,1)] } }).set 0 { mem := { state := .active } } }
def hdrB : List Byte := (leBytes 0x4C5A485A 4 ++ [1,1,0,0] ++ leBytes 4160 4 ++ List.replicate 52 0)
def lo : State := { cbase with boot := { state := .bare }, loader := { session := some .pcie, header := hdrB, bytesWritten := 4160, chunkLen := 4, window := [(0, 1), (1, 2)] } }
def ok : State := { cbase with loader := { chunkLen := 0x140, nonce := 5 }, image := { cbase.image with svn := 4, owner := Vector.replicate 128 1 }, fuses := { minSvn := 3 } }
def okw (w : Memory) : State := { ok with loader := { ok.loader with window := w } }
def wen : Memory := [(0,1),(2,0xFF),(8,5),(0x10,7)]

/-- States and operands that meet the hypotheses of BootRunsVerifyStructureFillReady, clause by clause. -/
theorem test_boot_runs_verify_structure_fill_ready :
    (∃ (s : State) (r : Byte) (x : Byte), s.boot.state = BootState.verify ∧ s.boot.railsUp = true ∧ s.verifyImage = Except.error (r, x)) ∧
    (∃ (s : State), s.boot.state = BootState.structure_) ∧
    (∃ (s : State), s.boot.state = BootState.fill ∧ (∀ (w : WellId), s.wells[w].state ≠ UnitState.filling) ∧ (∀ (u : PumpId), s.pumps[u].mem.state ≠ UnitState.filling)) ∧
    (∃ (s : State) (w : WellId), s.boot.state = BootState.fill ∧ s.wells[w].state = UnitState.filling ∧ (∀ v < w, s.wells[v].state ≠ UnitState.filling)) ∧
    (∃ (s : State) (u : PumpId), s.boot.state = BootState.fill ∧ s.pumps[u].mem.state = UnitState.filling ∧ (∀ (w : WellId), s.wells[w].state ≠ UnitState.filling) ∧ (∀ v < u, s.pumps[v].mem.state ≠ UnitState.filling)) ∧
    (∃ (s : State), s.boot.state = BootState.fill ∧ s.boot.coresFilled = true ∧ (∀ (w : WellId), s.wells[w].state ≠ UnitState.filling) ∧ (∀ (u : PumpId), s.pumps[u].mem.state ≠ UnitState.filling)) :=
  ⟨⟨bv, 1, 0, by decide +kernel⟩,
    ⟨bs, by decide +kernel⟩,
    ⟨bf4, by decide +kernel⟩,
    ⟨bf, 0, by decide +kernel⟩,
    ⟨bfp, 1, by decide +kernel⟩,
    ⟨bf1, by decide +kernel⟩⟩

/-- States and operands that meet the hypotheses of LoaderSessionsWriteTheImageSlot, clause by clause. -/
theorem test_loader_sessions_write_the_image_slot :
    (∃ (s : State) (m : Byte), s.loader.run = none ∧ s.power.alwaysOn = true ∧ s.loaderOwner m = false) ∧
    (∃ (s : State) (src : LoaderPort) (m : Byte), s.loader.run = none ∧ s.power.alwaysOn = true ∧ s.loaderOwner m = true ∧ (s.loader.session = none ∨ s.loader.session = some src)) ∧
    (∃ (s : State) (src : LoaderPort) (m : Byte) (data : List Byte), s.loader.run = none ∧ s.power.alwaysOn = true ∧ s.loaderOwner m = true ∧ s.loader.session = some src ∧ s.loader.bytesWritten + (s.loaderData' src data).length ≤ s.sessionHeader.length ∧ Sparse.wf 255 s.loader.slot = true) ∧
    (∃ (s : State) (src : LoaderPort) (m : Byte) (data : List Byte), s.loader.run = none ∧ s.power.alwaysOn = true ∧ s.loaderOwner m = true ∧ s.loader.session = some src ∧ s.sessionHeader.length < s.loader.bytesWritten + (s.loaderData' src data).length) ∧
    (∃ (s : State) (src : LoaderPort) (m : Byte), s.loader.run = none ∧ s.power.alwaysOn = true ∧ s.loaderOwner m = true ∧ s.loader.session = some src ∧ s.loader.bytesWritten = s.sessionHeader.length ∧ s.sessionHeader.dir.all (digestOk s.slotReader) = true) ∧
    (∃ (s : State) (src : LoaderPort) (m : Byte), s.loader.run = none ∧ s.power.alwaysOn = true ∧ s.loaderOwner m = true ∧ s.loader.session = some src ∧ s.loader.bytesWritten ≠ s.sessionHeader.length) ∧
    (∃ (s : State) (at_ : ℕ), (s.advanceTo at_).loader.session ≠ none ∧ (s.advanceTo at_).loader.run = none ∧ (s.advanceTo at_).loader.lastCmdNs + 10000000000 ≤ (s.advanceTo at_).timeNs) ∧
    (∃ (s : State) (at_ : ℕ), (s.advanceTo at_).timeNs < (s.advanceTo at_).loader.lastCmdNs + 10000000000) ∧
    (∃ (s : State) (r : LoaderRun), s.loader.run = some r ∧ r.outcome ≠ OutcomeCode.done) :=
  ⟨⟨lo, 2, by decide +kernel⟩,
    ⟨lo, .pcie, 3, by decide +kernel⟩,
    ⟨{ lo with loader := { lo.loader with bytesWritten := 4100, slot := [(4, 3)] } }, .pcie, 3, [], by decide +kernel⟩,
    ⟨lo, .pcie, 3, [], by decide +kernel⟩,
    ⟨lo, .pcie, 3, by decide +kernel⟩,
    ⟨{ lo with loader := { lo.loader with bytesWritten := 4100, slot := [(4, 3)] } }, .pcie, 3, by decide +kernel⟩,
    ⟨lo, 10000000000, by decide +kernel⟩,
    ⟨lo, 100, by decide +kernel⟩,
    ⟨{lo with loader := {lo.loader with run := some ⟨.data, .refusedState, 3⟩}}, ⟨.data, .refusedState, 3⟩, by decide +kernel⟩⟩

/-- States and operands that meet the hypotheses of OwnerKeysAndMinimumSvn, clause by clause. -/
theorem test_owner_keys_and_minimum_svn :
    (∃ (s : State) (m : Byte), s.loader.run = none ∧ s.power.alwaysOn = true ∧ s.boot.state = BootState.ready ∧ s.loaderOwner m = true) ∧
    (∃ (s : State) (src : LoaderPort) (m : Byte) (d : List Byte), s.loader.run = none ∧ s.power.alwaysOn = true ∧ s.boot.state = BootState.ready ∧ s.loaderOwner m = true ∧ s.keyReason 1 (s.loaderData' src d) = none) ∧
    (∃ (s : State) (m : Byte), s.loader.run = none ∧ s.power.alwaysOn = true ∧ s.boot.state = BootState.ready ∧ s.loaderOwner m = true) :=
  ⟨⟨ok, 1, by decide +kernel⟩,
    ⟨okw wen, .pcie, 1, [], by decide +kernel⟩,
    ⟨okw wen, 1, by decide +kernel⟩⟩

end Boot

/-! ### Witnesses of the statements about partitions -/

namespace Partitions

def upd0 (s : State) (f : Partition → Partition) : State := s.updPart 0 f
def st0 : State := upd0 cbase fun x => { x with state := .staged, meter := {} , run := {}}
def rz : State := { State.reset with power := cbase.power, boot := cbase.boot }
def ip : State := upd0 rz fun x => { x with im := { x.im with length := 100 } }
def co1 := nextOf (exec (.commit 0) st0) st0
def qc := { nextOf (exec (.quiesce 0) cbase) cbase with seqs := Vector.replicate 16 {state := .idle} }
def sto := upd0 cbase fun x => { x with state := .stopped }

/-- States and operands that meet the hypotheses of DiscardReturnsAStagedPartitionToEmpty, clause by clause. -/
theorem test_discard_returns_a_staged_partition_to_empty :
    (∃ (s : State) (p : PartId), Ready s ∧ s.parts[p].state = PartState.staged ∧ s.parts[p].im.busy = none) :=
  ⟨st0, 0, by unfold Ready; decide +kernel⟩

/-- States and operands that meet the hypotheses of ImagesAreStagedCheckedAndCommitted, clause by clause. -/
theorem test_images_are_staged_checked_and_committed :
    (∃ (s : State) (p : PartId), Ready s ∧ (s.parts[p].state = PartState.empty ∨ s.parts[p].state = PartState.stopped) ∧ RunFree s.parts[p] ∧ s.parts[p].im.busy = none ∧ (s.parts[p].state = PartState.stopped → s.usageFull p = false) ∧ s.parts[p].state = PartState.empty) ∧
    (∃ (s : State) (p : PartId), Ready s ∧ s.parts[p].im.busy = none ∧ s.parts[p].state ∉ [PartState.empty, PartState.stopped]) ∧
    (∃ (s : State) (p : PartId), Ready s ∧ s.parts[p].im.busy = none ∧ s.parts[p].state ∉ [PartState.staged]) ∧
    (∃ (s : State) (p : PartId), s.parts[p].im.busy = some 1 ∧ s.parts[p].state = PartState.empty) ∧
    (∃ (s : State) (p : PartId), Ready s ∧ s.parts[p].state = PartState.staged ∧ s.parts[p].im.busy = none ∧ s.commitReason p = none) ∧
    (∃ (s : State) (p : PartId), s.parts[p].im.busy = some 2 ∧ s.parts[p].state = PartState.staged) :=
  ⟨⟨ip, 0, by unfold Ready RunFree; decide +kernel⟩,
    ⟨cbase, 0, by unfold Ready; decide +kernel⟩,
    ⟨cbase, 0, by unfold Ready; decide +kernel⟩,
    ⟨upd0 ip fun x => { x with im := { x.im with busy := some 1 } }, 0, by decide +kernel⟩,
    ⟨st0, 0, by unfold Ready; decide +kernel⟩,
    ⟨co1, 0, by decide +kernel⟩⟩

/-- States and operands that meet the hypotheses of RunControlMovesAPartition, clause by clause. -/
theorem test_run_control_moves_a_partition :
    (∃ (s : State) (p : PartId), Ready s ∧ RunFree s.parts[p] ∧ s.fabric.selfFenced = false ∧ s.parts[p].state = PartState.committed) ∧
    (∃ (s : State) (p : PartId), Ready s ∧ RunFree s.parts[p] ∧ s.fabric.selfFenced = false ∧ s.parts[p].state = PartState.quiesced) ∧
    (∃ (s : State) (p : PartId), Ready s ∧ RunFree s.parts[p] ∧ s.usageFull p = false ∧ s.parts[p].state = PartState.running) ∧
    (∃ (s : State) (p : PartId), Ready s ∧ s.parts[p].state ∉ [PartState.committed]) ∧
    (∃ (s : State) (p : PartId), Ready s ∧ s.parts[p].state ∉ [PartState.quiesced]) ∧
    (∃ (s : State) (p : PartId), Ready s ∧ s.parts[p].state ∉ [PartState.stopped]) ∧
    (∃ (s : State) (p : PartId), Ready s ∧ s.parts[p].state ∉ [PartState.running]) ∧
    (∃ (s : State) (p : PartId), Ready s ∧ s.parts[p].state ∉ [PartState.committed, PartState.running, PartState.quiesced]) ∧
    (∃ (s : State) (p : PartId) (d : ℕ), s.parts[p].run.quiescing = some d ∧ s.parts[p].state = PartState.running ∧ s.partIdle p = true) ∧
    (∃ (s : State) (p : PartId) (at_ : ℕ) (d : ℕ), (s.advanceTo at_).parts[p].run.quiescing = some d ∧ d ≤ (s.advanceTo at_).timeNs) ∧
    (∃ (s : State) (p : PartId) (at_ : ℕ) (d : ℕ), (s.advanceTo at_).parts[p].run.quiescing = some d ∧ (s.advanceTo at_).timeNs < d) ∧
    (∃ (s : State) (p : PartId), Ready s ∧ RunFree s.parts[p] ∧ s.usageFull p = false ∧ s.parts[p].state ∈ [PartState.committed, PartState.running, PartState.quiesced] ∧ s.parts[p].run.quiescing = none ∧ s.partDrained p = true ∧ s.parts[p].caps.queue = [] ∧ SluicesIdle s) ∧
    (∃ (s : State) (p : PartId) (cause : Byte) (b : Bool), s.parts[p].run.stopping = some (cause, b) ∧ s.partDrained p = true ∧ s.parts[p].state ≠ PartState.stopped ∧ b = true) ∧
    (∃ (s : State) (p : PartId) (cause : Byte) (b : Bool), s.parts[p].run.stopping = some (cause, b) ∧ s.partDrained p = false) ∧
    (∃ (s : State) (p : PartId), Ready s ∧ RunFree s.parts[p] ∧ s.parts[p].im.busy = none ∧ s.usageFull p = false ∧ s.parts[p].state = PartState.stopped ∧ s.parts[p].meter.metered = true ∧ ¬(s.parts[p].meter.room = true ∧ s.parts[p].meter.held = [])) ∧
    (∃ (s : State) (p : PartId), Ready s ∧ RunFree s.parts[p] ∧ s.parts[p].im.busy = none ∧ s.usageFull p = false ∧ s.parts[p].state = PartState.stopped ∧ ((s.parts[p].meter.metered = false ∨ s.parts[p].meter.room = true) ∧ s.parts[p].meter.held = [])) :=
  ⟨⟨upd0 cbase fun x => { x with state := .committed }, 0, by unfold Ready RunFree; decide +kernel⟩,
    ⟨upd0 cbase fun x => { x with state := .quiesced }, 0, by unfold Ready RunFree; decide +kernel⟩,
    ⟨cbase, 0, by unfold Ready RunFree; decide +kernel⟩,
    ⟨cbase, 0, by unfold Ready; decide +kernel⟩,
    ⟨cbase, 0, by unfold Ready; decide +kernel⟩,
    ⟨cbase, 0, by unfold Ready; decide +kernel⟩,
    ⟨rz, 0, by unfold Ready; decide +kernel⟩,
    ⟨rz, 0, by unfold Ready; decide +kernel⟩,
    ⟨qc, 0, 105000000, by decide +kernel⟩,
    ⟨qc, 0, 105000000, 105000000, by decide +kernel⟩,
    ⟨qc, 0, 104000000, 105000000, by decide +kernel⟩,
    ⟨cbase, 0, by unfold Ready SluicesIdle RunFree; decide +kernel⟩,
    ⟨upd0 cbase fun x => { x with run := { x.run with stopping := some (7, true) } }, 0, 7, true, by decide +kernel⟩,
    ⟨upd0 cbase fun x => { x with run := { x.run with stopping := some (7, true) }, cq := { x.cq with held := [({ tag := 0, outcome := .done, engine := 0, partition := 0 }, true)] } }, 0, 7, true, by decide +kernel⟩,
    ⟨sto, 0, by unfold Ready RunFree; decide +kernel⟩,
    ⟨upd0 sto fun x => { x with meter := { x.meter with enable := true } }, 0, by unfold Ready RunFree; decide +kernel⟩⟩

end Partitions

/-! ### Witnesses of the statements about control writes -/

namespace ControlWrites

def cw : CtlWrite := ⟨4, 0, 0x280, 1234⟩
def cw1 := nextOf (exec (.registerWrite (.control cw)) { cbase with power := { cbase.power with capW := 9 }, ctl := { recordedGen := [(4, 6)], pfGen := 7 } }) cbase
def fl : State := cbase.updFlags (.axis 2) fun f => { cur := ⟨true,true,true,true⟩, nvEvents := 5, recent := [⟨4, ⟨true,false,false,false⟩,{}⟩, ⟨7, ⟨false,true,true,false⟩, ⟨true,true,true,true⟩⟩] }
def ms : State := { cbase with acts := [(0, 50), (33, 50)] }

/-- States and operands that meet the hypotheses of ControlWritesWaitForTheEndOfTheirEpoch, clause by clause. -/
theorem test_control_writes_wait_for_the_end_of_their_epoch :
    (∃ (s : State) (w : CtlWrite), s.power.alwaysOn = true ∧ reaches w.master w.offset = true ∧ genTarget w.offset = none ∧ BitVec.toNat (s.genRecord w.master) ≤ BitVec.toNat (s.writeGen w) ∧ blockOf w.offset ≠ Block.none ∧ s.served w.offset = true ∧ s.mayWrite w = true ∧ s.absentWindow w.offset = false) ∧
    (∃ (s : State) (w : CtlWrite), s.power.alwaysOn = true ∧ reaches w.master w.offset = true ∧ genTarget w.offset = none ∧ BitVec.toNat (s.genRecord w.master) ≤ BitVec.toNat (s.writeGen w) ∧ blockOf w.offset ≠ Block.none ∧ s.served w.offset = true ∧ s.mayWrite w = false) ∧
    (∃ (s : State) (w : CtlWrite), s.power.alwaysOn = true ∧ reaches w.master w.offset = true ∧ genTarget w.offset = none ∧ BitVec.toNat (s.writeGen w) < BitVec.toNat (s.genRecord w.master)) ∧
    (∃ (s : State) (n : ℕ), (s.advanceTo ((n + 1) * 1000)).ctl.epochs n = []) ∧
    (∃ (s : State) (n : ℕ) (w : CtlWrite), (s.advanceTo ((n + 1) * 1000)).ctl.fences = [] ∧ (s.advanceTo ((n + 1) * 1000)).ctl.writes = [{ w := w, epoch := n, reply := none, stop := none : PendingWrite }] ∧ (∀ (p : PartId), (s.advanceTo ((n + 1) * 1000)).parts[p].run.stopping = none) ∧ w.offset = 640) ∧
    (∃ (s : State) (g : W32), Ready s ∧ s.owner 1152 = 4 ∧ BitVec.toNat g < BitVec.toNat (s.genRecord 4)) ∧
    (∃ (s : State) (g : W32), Ready s ∧ s.owner 1152 = 4 ∧ BitVec.toNat (s.genRecord 4) ≤ BitVec.toNat g) ∧
    (∃ (s : State) (p : PartId) (g : W32), Ready s ∧ s.owner (prtOffset p 16) = BitVec.ofNat 8 (16 + ↑p) ∧ BitVec.toNat (s.genRecord (BitVec.ofNat 8 (16 + ↑p))) ≤ BitVec.toNat g) ∧
    (∃ (s : State) (p : PartId) (g : W32), Ready s ∧ s.owner (prtOffset p 16) = BitVec.ofNat 8 (16 + ↑p) ∧ BitVec.toNat g < BitVec.toNat (s.genRecord (BitVec.ofNat 8 (16 + ↑p)))) ∧
    (∃ (s : State) (off : ℕ), s.served off = true ∧ s.absentWindow off = true) :=
  ⟨⟨cbase, cw, by decide +kernel⟩,
    ⟨cbase, { cw with master := 2 }, by decide +kernel⟩,
    ⟨{ cbase with ctl := { recordedGen := [(4, 6)] } }, cw, by decide +kernel⟩,
    ⟨cbase, 5000, by decide +kernel⟩,
    ⟨cw1, 5000, { cw with gen := 7 }, by decide +kernel⟩,
    ⟨cw1, 4, by unfold Ready; decide +kernel⟩,
    ⟨cw1, 9, by unfold Ready; decide +kernel⟩,
    ⟨cw1, 3, 9, by unfold Ready; decide +kernel⟩,
    ⟨{ cw1 with ctl := { cw1.ctl with recordedGen := [(0x13, 10)] } }, 3, 9, by unfold Ready; decide +kernel⟩,
    ⟨{ cbase with fuses := { map := 0 } }, 0x1000000, by decide +kernel⟩⟩

/-- States and operands that meet the hypotheses of SequencerRegionWritesOnlyAtRest, clause by clause. -/
theorem test_sequencer_region_writes_only_at_rest :
    (∃ (s : State) (n : SeqId), Ready s ∧ s.seqs[n].state ≠ SeqState.running ∧ s.seqs[n].state ≠ SeqState.halting) ∧
    (∃ (s : State) (n : SeqId), Ready s ∧ (s.seqs[n].state = SeqState.running ∨ s.seqs[n].state = SeqState.halting)) :=
  ⟨⟨cbase, 1, by unfold Ready; decide +kernel⟩,
    ⟨cbase, 0, by unfold Ready; decide +kernel⟩⟩

/-- States and operands that meet the hypotheses of StickyFlagsClearByOnes, clause by clause. -/
theorem test_sticky_flags_clear_by_ones :
    (∃ (s : State) (r : FlagReg), s.flagsOpen r = true) ∧
    (∃ (s : State) (r : FlagReg), s.flagsOpen r = true) ∧
    (∃ (s : State) (r : FlagReg), s.flagsOpen r = false) :=
  ⟨⟨fl, .axis 2, by decide +kernel⟩,
    ⟨fl, .axis 2, by decide +kernel⟩,
    ⟨{ fl with fuses := { map := 0 } }, .coreM 3, by decide +kernel⟩⟩

/-- States and operands that meet the hypotheses of MeteringAddsUpAndIsRecorded, clause by clause. -/
theorem test_metering_adds_up_and_is_recorded :
    (∃ (s : State) (p : PartId) (at_ : ℕ), (s.advanceTo at_).parts[p].meter.metered = true ∧ (s.advanceTo at_).parts[p].meter.periodMs ≠ 0 ∧ (s.advanceTo at_).parts[p].meter.lastPeriodic + 1000000 * BitVec.toNat (s.advanceTo at_).parts[p].meter.periodMs ≤ (s.advanceTo at_).timeNs ∧ (if (s.advanceTo at_).parts[p].meter.enable = true then (s.advanceTo at_).parts[p].meter.room = true ∧ (s.advanceTo at_).parts[p].meter.held = [] else (s.advanceTo at_).parts[p].meter.held.length < 64)) ∧
    (∃ (s : State) (p : PartId) (at_ : ℕ), (s.advanceTo at_).parts[p].meter.metered = true ∧ (s.advanceTo at_).parts[p].meter.periodMs ≠ 0 ∧ (s.advanceTo at_).parts[p].meter.lastPeriodic + 1000000 * BitVec.toNat (s.advanceTo at_).parts[p].meter.periodMs ≤ (s.advanceTo at_).timeNs ∧ (¬if (s.advanceTo at_).parts[p].meter.enable = true then (s.advanceTo at_).parts[p].meter.room = true ∧ (s.advanceTo at_).parts[p].meter.held = [] else (s.advanceTo at_).parts[p].meter.held.length < 64)) ∧
    (∃ (s : State) (p : PartId) (at_ : ℕ), ¬((s.advanceTo at_).parts[p].meter.metered = true ∧ (s.advanceTo at_).parts[p].meter.periodMs ≠ 0 ∧ (s.advanceTo at_).parts[p].meter.lastPeriodic + 1000000 * BitVec.toNat (s.advanceTo at_).parts[p].meter.periodMs ≤ (s.advanceTo at_).timeNs)) ∧
    (∃ (s : State) (p : PartId), Ready s ∧ s.parts[p].meter.metered = true ∧ s.usageFull p = false) ∧
    (∃ (s : State) (p : PartId), Ready s ∧ s.parts[p].meter.metered = true ∧ s.usageFull p = true) ∧
    (∃ (s : State) (p : PartId), s.parts[p].meter.metered = false) :=
  ⟨⟨ms, 0, 2000000000, by decide +kernel⟩,
    ⟨ms.updPart 0 (fun x => { x with meter := { x.meter with enable := true, tail := 1 } }), 0, 2000000000, by decide +kernel⟩,
    ⟨ms, 0, 900000000, by decide +kernel⟩,
    ⟨ms, 0, by unfold Ready; decide +kernel⟩,
    ⟨ms.updPart 0 (fun x => { x with meter := { x.meter with held := List.replicate 64 (ms.takeUsage 0 1) } }), 0, by unfold Ready; decide +kernel⟩,
    ⟨ms, 4, by decide +kernel⟩⟩

end ControlWrites

/-! ### Witnesses of the statements about the host link -/

namespace HostLink

def hl : State := { cbase with link := { link := .detect }, parts := cbase.parts.set 2 { cbase.parts[(0:PartId)] with im := { bytes := [(3,4)], busy := some 1 } } }
def bb : State := { cbase with image := { cbase.image with owner := Vector.replicate 128 1 }, parts := cbase.parts.set 0 { cbase.parts[(0:PartId)] with caps := { bar2Base := 0x3000 }, state := .running }, link := { cbase.link with pfWinBase := 0x0 } }
def dd : List Byte := List.replicate 63 7 ++ [0]

/-- States and operands that meet the hypotheses of HostLinkTrainsAndResetsTheDevice, clause by clause. -/
theorem test_host_link_trains_and_resets_the_device :
    (∃ (s : State) (w : ℕ) (at_ : ℕ), (s.advanceTo at_).power.pwrEn = true ∧ (s.advanceTo at_).power.perst = false ∧ (s.advanceTo at_).link.link = LinkState.detect ∧ (s.advanceTo at_).link.detectUntil ≤ (s.advanceTo at_).timeNs ∧ 4 ≤ w) ∧
    (∃ (s : State) (w : ℕ) (at_ : ℕ), (s.advanceTo at_).power.pwrEn = true ∧ (s.advanceTo at_).power.perst = false ∧ (s.advanceTo at_).link.link = LinkState.detect ∧ (s.advanceTo at_).link.detectUntil ≤ (s.advanceTo at_).timeNs ∧ w < 4) ∧
    (∃ (s : State), s.power.alwaysOn = true ∧ s.power.perst = false) ∧
    (∃ (s : State), s.power.perst = true) ∧
    (∃ (s : State) (at_ : ℕ), (s.advanceTo at_).power.perst = true) ∧
    (∃ (s : State), s.power.alwaysOn = true ∧ s.ctl.halted = false ∧ s.power.pwrEn = true ∧ s.boot.railsUp = true ∧ s.boot.state ≠ BootState.bare ∧ fuseMapOk s.fuses.map = true ∧ (s.power.straps.bootBare = false ∨ s.loader.endedSinceStraps = true) ∧ s.loader.slotValid = true) ∧
    (∃ (s : State), s.power.alwaysOn = true) ∧
    (∃ (s : State), s.power.alwaysOn = true) ∧
    (∃ (s : State), s.power.alwaysOn = false) :=
  ⟨⟨hl, 9, 7000000, by decide +kernel⟩,
    ⟨hl, 3, 7000000, by decide +kernel⟩,
    ⟨cbase, by decide +kernel⟩,
    ⟨State.reset, by decide +kernel⟩,
    ⟨{ cbase with power := { cbase.power with perst := true } }, 9000000, by decide +kernel⟩,
    ⟨{ cbase with loader := { slotValid := true } }, by decide +kernel⟩,
    ⟨hl, by decide +kernel⟩,
    ⟨cbase, by decide +kernel⟩,
    ⟨State.reset, by decide +kernel⟩⟩

/-- States and operands that meet the hypotheses of HostReadsAndWritesThroughBar2, clause by clause. -/
theorem test_host_reads_and_writes_through_bar2 :
    (∃ (s : State) (off : ℕ) (len : ℕ), ctlBase ≤ s.barBase PciFn.pf + off ∧ off + len ≤ s.barSize PciFn.pf ∧ s.barBase PciFn.pf + off + len ≤ 1 <<< 49 ∧ s.power.alwaysOn = true) ∧
    (∃ (s : State) (fn : PciFn) (off : ℕ), s.power.alwaysOn = true ∧ bar0Offset fn off = none) ∧
    (∃ (s : State) (fn : PciFn) (off : ℕ) (l : Loc), s.power.alwaysOn = true ∧ inCtl fn (s.barBase fn + off) = false ∧ s.barIn fn off 64 = true ∧ (s.barBase fn + off) % 64 = 0 ∧ s.barLoc fn (s.barBase fn + off) = some l ∧ s.locGone l = false) ∧
    (∃ (s : State) (fn : PciFn) (off : ℕ) (len : ℕ), s.power.alwaysOn = true ∧ inCtl fn (s.barBase fn + off) = false ∧ s.barIn fn off len = false) ∧
    (∃ (s : State) (fn : PciFn) (off : ℕ) (d : List Byte) (w : WellId) (a : ℕ), s.power.alwaysOn = true ∧ d.length = 64 ∧ inCtl fn (s.barBase fn + off) = false ∧ s.barDrops fn off 64 = false ∧ (s.barBase fn + off) % 64 = 0 ∧ s.barLoc fn (s.barBase fn + off) = some (Loc.mem (MemUnit.well w) a) ∧ s.wells[w].gone = false ∧ s.wells[w].quarantined a = false) ∧
    (∃ (s : State) (fn : PciFn) (off : ℕ) (d : List Byte), s.power.alwaysOn = true ∧ inCtl fn (s.barBase fn + off) = false ∧ s.barDrops fn off d.length = true) ∧
    (∃ (s : State) (v : W64), Ready s ∧ BitVec.toNat v % 562949953421312 % 1 <<< s.link.pfBar2Log2 ≠ 0) ∧
    (∃ (s : State) (v : W64), Ready s ∧ BitVec.toNat v % 562949953421312 % 1 <<< s.link.pfBar2Log2 = 0) ∧
    (∃ (n : ℕ), 30 ≤ n ∧ n ≤ 40) ∧
    (∃ (s : State) (p : PartId) (v : W64), Ready s ∧ BitVec.toNat v % 562949953421312 % 1 <<< s.parts[p].caps.bar2Log2 ≠ 0) ∧
    (∃ (s : State) (p : PartId) (v : W64), Ready s ∧ BitVec.toNat v % 562949953421312 % 1 <<< s.parts[p].caps.bar2Log2 = 0) ∧
    (∃ (s : State) (p : PartId) (at_ : ℕ), s.parts[p].im.busy = some 1 ∧ (19 = 19 → (s.advanceTo at_).parts[p].im.readAt + 10000000 ≤ (s.advanceTo at_).timeNs)) ∧
    (∃ (s : State) (p : PartId), s.parts[p].im.busy = some 1 ∧ (16 = 19 → s.parts[p].im.readAt + 10000000 ≤ s.timeNs)) :=
  ⟨⟨{ bb with link := { bb.link with pfWinBase := 0x080000000000} }, 0x200, 16, by decide +kernel⟩,
    ⟨bb, .vf 0, 0x200008, by decide +kernel⟩,
    ⟨bb, .vf 0, 0x1000, .mem (.well 2) 0, by decide +kernel⟩,
    ⟨bb, .vf 3, 0x1000, 10, by decide +kernel⟩,
    ⟨bb, .vf 0, 0x1000, dd, 2, 0, by decide +kernel⟩,
    ⟨bb, .vf 3, 0x1000, dd, by decide +kernel⟩,
    ⟨bb, 0x1000, by unfold Ready; decide +kernel⟩,
    ⟨bb, 0x1000000000, by unfold Ready; decide +kernel⟩,
    ⟨33, by decide +kernel⟩,
    ⟨bb, 3, 0x1000, by unfold Ready; decide +kernel⟩,
    ⟨bb, 3, 0x1000000000, by unfold Ready; decide +kernel⟩,
    ⟨hl, 2, 30000000, by decide +kernel⟩,
    ⟨hl, 2, by decide +kernel⟩⟩

end HostLink

/-! ### Witnesses of the statements about capsules -/

namespace Capsules

def capB (seq kind : Nat) (body : List Byte) (f : Nat): List Byte :=
  let h := leBytes seq 4 ++ leBytes body.length 4 ++ leBytes (crc32c body).toNat 4 ++ leBytes kind 2 ++ leBytes 0 1 ++ leBytes f 1 ++ leBytes 0x77 8 ++ leBytes 5 4 ++ leBytes 0 32
  h ++ leBytes (crc32c h).toNat 4 ++ body
def ce (f : PCq → PCq): State := cbase.updPart 0 fun x => { x with cq := f { x.cq with enable := true } }
def rr : Record := { tag := 3, outcome := .done, engine := 0, partition := 0, axis := some 1, done := some (3, 5) }
def cn := nextOf (exec (.capsuleHeaderWrite 0 0x10000 (capB 1 0 [] 0)) (ce id)) cbase
def cn1 : Capsule := cn.parts[(0:PartId)].caps.queue.headD { seq := 0, kind := 0, target := 0, flags := 0, tag := 0, step := 0, params := [], body := [] } 
def mm (c : Byte) (d : List Byte) (a : Nat) : MctpMsg := ⟨.smbus 0x60, ⟨c, 7, BitVec.ofNat 16 d.length, 5, BitVec.ofNat 64 a⟩, true, d⟩
def cs : State := { cbase with power := { cbase.power with strapsSampled := true } }
def ml : State := { cs with boot := {state := .bare}, loader := { session := some .mctp } }

set_option maxRecDepth 20000 in
/-- States and operands that meet the hypotheses of CapsulesAreTakenInOrder, clause by clause. -/
theorem test_capsules_are_taken_in_order :
    (∃ (s : State) (p : PartId) (off : ℕ) (data : List Byte), touchesHeader s.parts[p].caps.expected off (List.take (capWindow - off) data).length = true ∧ s.watched p = true ∧ s.parts[p].cq.held = [] ∧ BitVec.toNat (crc32c (List.take 60 (rdL (wrL s.parts[p].caps.window off (List.take (capWindow - off) data)) ((slotOf s.parts[p].caps.expected).val * capSlot) 64))) = ldNat (rdL (wrL s.parts[p].caps.window off (List.take (capWindow - off) data)) ((slotOf s.parts[p].caps.expected).val * capSlot) 64) 60 4 ∧ ldNat (rdL (wrL s.parts[p].caps.window off (List.take (capWindow - off) data)) ((slotOf s.parts[p].caps.expected).val * capSlot) 64) 0 4 = BitVec.toNat s.parts[p].caps.expected ∧ NoneWaits { expected := nextSeq s.parts[p].caps.expected, takenSeq := s.parts[p].caps.takenSeq, ignored := s.parts[p].caps.ignored, lastTaken := s.parts[p].caps.lastTaken, window := wrL s.parts[p].caps.window off (List.take (capWindow - off) data), queue := s.parts[p].caps.queue, bar2Base := s.parts[p].caps.bar2Base, bar2Log2 := s.parts[p].caps.bar2Log2 : PCaps } ∧ ({ (parseCapsule (wrL s.parts[p].caps.window off (List.take (capWindow - off) data)) ((slotOf s.parts[p].caps.expected).val * capSlot) : Capsule) with takenAt := s.timeNs }).bad = none) ∧
    (∃ (s : State) (p : PartId) (off : ℕ) (data : List Byte), ¬(touchesHeader s.parts[p].caps.expected off (List.take (capWindow - off) data).length = true ∧ s.watched p = true ∧ s.parts[p].cq.held = [] ∧ BitVec.toNat (crc32c (List.take 60 (rdL (wrL s.parts[p].caps.window off (List.take (capWindow - off) data)) ((slotOf s.parts[p].caps.expected).val * capSlot) 64))) = ldNat (rdL (wrL s.parts[p].caps.window off (List.take (capWindow - off) data)) ((slotOf s.parts[p].caps.expected).val * capSlot) 64) 60 4 ∧ ldNat (rdL (wrL s.parts[p].caps.window off (List.take (capWindow - off) data)) ((slotOf s.parts[p].caps.expected).val * capSlot) 64) 0 4 = BitVec.toNat s.parts[p].caps.expected)) ∧
    (∃ (s : State) (p : PartId) (r : Record) (v0 : Bool), s.parts[p].cq.held = [(r, v0)] ∧ s.parts[p].cq.waiting = [] ∧ s.parts[p].cq.room = true ∧ NoneWaits s.parts[p].caps ∧ r.partition = p) ∧
    (∃ (s : State) (p : PartId) (r : Record) (v0 : Bool), s.parts[p].cq.held = [(r, v0)] ∧ s.parts[p].cq.waiting = [] ∧ s.parts[p].cq.room = false) ∧
    (∃ (s : State) (p : PartId), s.parts[p].cq.held = [] ∧ s.parts[p].cq.waiting = []) ∧
    (∃ (s : State) (p : PartId) (v : W64), Ready s ∧ s.parts[p].cq.enable = true ∧ BitVec.ofNat 4 (BitVec.toNat v / 2 % 16) ≠ s.parts[p].cq.ringLog2) ∧
    (∃ (s : State) (p : PartId) (v : W64), Ready s ∧ (s.parts[p].cq.enable = false ∨ BitVec.ofNat 4 (BitVec.toNat v / 2 % 16) = s.parts[p].cq.ringLog2)) ∧
    (∃ (s : State) (p : PartId) (at_ : ℕ) (b : ℕ), (s.advanceTo at_).parts[p].cq.firstAt = some b ∧ (s.advanceTo at_).parts[p].cq.coalesceNs ≠ 0 ∧ b + BitVec.toNat (s.advanceTo at_).parts[p].cq.coalesceNs ≤ (s.advanceTo at_).timeNs) ∧
    (∃ (s : State) (p : PartId) (at_ : ℕ) (b : ℕ), (s.advanceTo at_).parts[p].cq.firstAt = some b ∧ ((s.advanceTo at_).parts[p].cq.coalesceNs = 0 ∨ (s.advanceTo at_).timeNs < b + BitVec.toNat (s.advanceTo at_).parts[p].cq.coalesceNs)) ∧
    (∃ (s : State) (p : PartId) (c : Capsule), NextCapsule p kNop s c) :=
  ⟨⟨ce id, 0, 0x10000, capB 1 0 [] 0, by unfold NoneWaits; decide +kernel⟩,
    ⟨ce id, 0, 0x10000, capB 2 0 [] 0, by decide +kernel⟩,
    ⟨ce (fun q => { q with held := [(rr, true)] }), 0, rr, true, by unfold NoneWaits; decide +kernel⟩,
    ⟨ce (fun q => { q with held := [(rr, true)], enable := false }), 0, rr, true, by decide +kernel⟩,
    ⟨ce id, 0, by decide +kernel⟩,
    ⟨ce id, 0, 0x11, by unfold Ready; decide +kernel⟩,
    ⟨ce (fun q => {q with head := 5, phase := false}), 0, 0x100100000001, by unfold Ready; decide +kernel⟩,
    ⟨ce (fun q => {q with firstAt := some 5000000, coalesceNs := 100}), 0, 5000100, 5000000, by decide +kernel⟩,
    ⟨ce (fun q => {q with firstAt := some 5000000, coalesceNs := 100}), 0, 5000010, 5000000, by decide +kernel⟩,
    ⟨cn, 0, cn1, by unfold NextCapsule; decide +kernel⟩⟩

set_option maxRecDepth 20000 in
/-- States and operands that meet the hypotheses of AttestationAndMessagesAreAnswered, clause by clause. -/
theorem test_attestation_and_messages_are_answered :
    (∃ (s : State), s.power.alwaysOn = true) ∧
    (∃ (s : State), s.power.alwaysOn = true ∧ s.power.pwrEn = true ∧ s.boot.state ≠ BootState.bare) ∧
    (∃ (s : State), s.power.alwaysOn = true ∧ s.power.pwrEn = true ∧ s.boot.state ≠ BootState.bare) ∧
    (∃ (s : State) (x : W64), s.power.alwaysOn = true ∧ s.power.pwrEn = true ∧ s.boot.state ≠ BootState.bare ∧ s.link.exchanged = some x) ∧
    (∃ (s : State), s.power.alwaysOn = true ∧ s.boot.state = BootState.bare) ∧
    (∃ (s : State) (m : MctpMsg), s.mctpHeard m = true ∧ m.head.command = 1 ∧ mctpOk m = true ∧ m.data = []) ∧
    (∃ (s : State) (m : MctpMsg), s.mctpHeard m = true ∧ m.head.command = 2 ∧ mctpOk m = true ∧ m.data.length = 8 ∧ genTarget { master := 3, gen := m.head.gen, offset := BitVec.toNat m.head.address, value := BitVec.ofNat 64 (leNat m.data) : CtlWrite }.offset = none ∧ BitVec.toNat (s.genRecord 3) ≤ BitVec.toNat m.head.gen ∧ blockOf { master := 3, gen := m.head.gen, offset := BitVec.toNat m.head.address, value := BitVec.ofNat 64 (leNat m.data) : CtlWrite }.offset ≠ Block.none ∧ s.served { master := 3, gen := m.head.gen, offset := BitVec.toNat m.head.address, value := BitVec.ofNat 64 (leNat m.data) : CtlWrite }.offset = true ∧ s.mayWrite { master := 3, gen := m.head.gen, offset := BitVec.toNat m.head.address, value := BitVec.ofNat 64 (leNat m.data) : CtlWrite } = true ∧ s.absentWindow { master := 3, gen := m.head.gen, offset := BitVec.toNat m.head.address, value := BitVec.ofNat 64 (leNat m.data) : CtlWrite }.offset = false) ∧
    (∃ (s : State) (m : MctpMsg), s.mctpHeard m = true ∧ m.head.command = 2 ∧ mctpOk m = true ∧ m.data.length = 8 ∧ genTarget { master := 3, gen := m.head.gen, offset := BitVec.toNat m.head.address, value := BitVec.ofNat 64 (leNat m.data) : CtlWrite }.offset = none ∧ BitVec.toNat (s.genRecord 3) ≤ BitVec.toNat m.head.gen ∧ blockOf { master := 3, gen := m.head.gen, offset := BitVec.toNat m.head.address, value := BitVec.ofNat 64 (leNat m.data) : CtlWrite }.offset ≠ Block.none ∧ s.served { master := 3, gen := m.head.gen, offset := BitVec.toNat m.head.address, value := BitVec.ofNat 64 (leNat m.data) : CtlWrite }.offset = true ∧ s.mayWrite { master := 3, gen := m.head.gen, offset := BitVec.toNat m.head.address, value := BitVec.ofNat 64 (leNat m.data) : CtlWrite } = false) ∧
    (∃ (s : State) (m : MctpMsg), s.mctpHeard m = true ∧ m.head.command = 2 ∧ mctpOk m = true ∧ m.data.length = 8 ∧ genTarget { master := 3, gen := m.head.gen, offset := BitVec.toNat m.head.address, value := BitVec.ofNat 64 (leNat m.data) : CtlWrite }.offset = none ∧ BitVec.toNat m.head.gen < BitVec.toNat (s.genRecord 3)) ∧
    (∃ (s : State) (m : MctpMsg), s.mctpHeard m = true ∧ m.head.command = 3 ∧ mctpOk m = true ∧ BitVec.toNat (s.genRecord 3) ≤ BitVec.toNat m.head.gen ∧ s.loader.run = none ∧ s.loaderOwner 3 = true ∧ s.loader.session = some LoaderPort.mctp ∧ BitVec.toNat m.head.address / 2 % 8 = 4) ∧
    (∃ (s : State) (m : MctpMsg), s.mctpHeard m = true ∧ m.head.command = 3 ∧ mctpOk m = true ∧ BitVec.toNat (s.genRecord 3) ≤ BitVec.toNat m.head.gen ∧ s.loader.run ≠ none) ∧
    (∃ (s : State) (m : MctpMsg), s.mctpHeard m = true ∧ m.head.command = 3 ∧ mctpOk m = true ∧ BitVec.toNat m.head.gen < BitVec.toNat (s.genRecord 3)) ∧
    (∃ (s : State) (m : MctpMsg) (i : ℕ) (n : ℕ), s.mctpHeard m = true ∧ m.head.command = 4 ∧ mctpOk m = true ∧ m.data = [] ∧ BitVec.toNat m.head.address = n * 65536 + i ∧ i ≤ 4095 ∧ 1 ≤ n ∧ n ≤ 64) ∧
    (∃ (s : State) (m : MctpMsg), s.mctpHeard m = true ∧ m.head.command = 5 ∧ mctpOk m = true ∧ m.data.head? ≠ some 1 ∧ s.boot.state = BootState.bare) ∧
    (∃ (s : State) (m : MctpMsg), s.mctpHeard m = true ∧ m.head.command = 5 ∧ mctpOk m = true ∧ m.data.head? = some 1) ∧
    (∃ (s : State) (m : MctpMsg), s.mctpHeard m = true ∧ (mctpOk m = false ∨ m.head.command ≠ 1)) ∧
    (∃ (s : State) (m : MctpMsg), s.mctpHeard m = true ∧ (mctpOk m = false ∨ m.head.command ≠ 2)) ∧
    (∃ (s : State) (m : MctpMsg), s.mctpHeard m = true ∧ (mctpOk m = false ∨ m.head.command ≠ 3)) ∧
    (∃ (s : State) (m : MctpMsg), s.mctpHeard m = true ∧ (mctpOk m = false ∨ m.head.command ≠ 4)) ∧
    (∃ (s : State) (m : MctpMsg), s.mctpHeard m = true ∧ (mctpOk m = false ∨ m.head.command ≠ 5)) ∧
    (∃ (s : State) (m : MctpMsg), s.mctpHeard m = false) :=
  ⟨⟨cbase, by decide +kernel⟩,
    ⟨cbase, by decide +kernel⟩,
    ⟨cbase, by decide +kernel⟩,
    ⟨{ cbase with link := { exchanged := some 1 } }, 1, by decide +kernel⟩,
    ⟨{ cbase with boot := {} }, by decide +kernel⟩,
    ⟨cs, mm 1 [] 0x200, by decide +kernel⟩,
    ⟨{ cs with image := { cbase.image with owner := Vector.replicate 128 3 } }, mm 2 [1,2,3,4,5,6,7,8] 0x280, by decide +kernel⟩,
    ⟨cs, mm 2 [1,2,3,4,5,6,7,8] 0x280, by decide +kernel⟩,
    ⟨{ cs with ctl := { recordedGen := [(3, 9)] } }, mm 2 [1,2,3,4,5,6,7,8] 0x280, by decide +kernel⟩,
    ⟨ml, mm 3 [] 8, by decide +kernel⟩,
    ⟨{ ml with loader := { run := some ⟨.abort, .done, 0⟩ } }, mm 3 [] 8, by decide +kernel⟩,
    ⟨{ ml with ctl := { recordedGen := [(3, 9)] } }, mm 3 [] 8, by decide +kernel⟩,
    ⟨cs, mm 4 [] (3 * 65536 + 4094), 4094, 3, by decide +kernel⟩,
    ⟨ml, mm 5 [2] 0, by decide +kernel⟩,
    ⟨ml, mm 5 [1] 0, by decide +kernel⟩,
    ⟨ml, mm 5 [2] 0, by decide +kernel⟩,
    ⟨ml, mm 5 [2] 0, by decide +kernel⟩,
    ⟨ml, mm 5 [2] 0, by decide +kernel⟩,
    ⟨ml, mm 5 [2] 0, by decide +kernel⟩,
    ⟨ml, { mm 5 [2] 0 with reservedZero := false }, by decide +kernel⟩,
    ⟨cbase, mm 5 [2] 0, by decide +kernel⟩⟩

end Capsules

/-! ### Witnesses of the statements about programs -/

namespace Programs

def bw (seq : Nat) (flow : Nat) (skip : Nat := 0) : Nat := (1 <<< 508) + (seq <<< 496) + (skip <<< 488) + (if flow = 0 then 0 else (1 <<< 485)) + flow
def nb (n : Nat) : List Byte := leBytes n 64
def mc (kind target : Nat) (params : List Byte) (body : List Byte) : Capsule := { seq := 1, kind := kind, target := target, flags := 0, tag := 77, step := 5, params := params ++ List.replicate (32 - params.length) 0, body := body }
def wc (s : State) (c : Capsule) : State := s.updPart 0 fun x => { x with caps := { x.caps with queue := [c] }, cq := { x.cq with enable := true } }
def lc := mc 1 0 (leBytes 3 2 ++ leBytes 2 2) (nb (bw 3 0) ++ nb (bw 4 0))
def lcb := mc 1 0 (leBytes 3 2 ++ leBytes 2 2) (nb (bw 3 0) ++ nb (bw 5 0))
def lco := mc 1 7 (leBytes 3 2 ++ leBytes 2 2) (nb (bw 3 0) ++ nb (bw 4 0))
def cidle : State := { cbase with seqs := cbase.seqs.map fun q => { q with state := .idle } }
def st (reg entry : Nat) (tgt := 0): Capsule := mc 2 tgt (leBytes reg 2 ++ leBytes entry 2 ++ leBytes 7 4 ++ leBytes 1 8 ++ leBytes 2 8 ++ leBytes 3 8) []
def csp (s : State) : State := { s with seqs := s.seqs.map fun q => { q with split := 4 } }
def tcap (src dst len fl : Nat) : Capsule := mc 3 0 (leBytes src 8 ++ leBytes dst 8 ++ leBytes len 8 ++ leBytes fl 1) []
def loc (a : Nat) : Nat := (1 <<< 49) + a
def fl (s : State) (flow : Nat) (pc : Nat) (loops : List Loop := []) : State := { s with seqs := s.seqs.map fun q => { q with wardMask := 1, pc := pc, loops := loops, imem := [(pc, BitVec.ofNat 512 (bw pc flow))], args := #v[5,0,1] } }
def L1 : Loop := ⟨6,7,3⟩
def L2 : Loop := ⟨6,7,0⟩
def L3 : Loop := ⟨6,200,2⟩
def bi (w : Nat): State := cbase.updCore 3 fun x => { x with fifo := [(BitVec.ofNat 512 w, 9), (0,10)] }
def px : Program := { id := 4, part := 0, tag := 9, seqs := [0], region := false }
def ph (s : State) : State := { s with programs := [px], parts := s.parts.set 0 { s.parts[0] with cq := { enable := true } }, seqs := s.seqs.set 0 { s.seqs[0] with state := .halting, item := some 4, wardMask := 1 }, cores := s.cores.map fun x => { x with halted := true, inflight := [] } }
def phc : State := { ph cbase with cores := (ph cbase).cores.map fun x => { x with queues := Vector.replicate 32 {} } }
def cxo (n : Nat): State := { cbase with cores := cbase.cores.set 5 { cbase.cores[5] with queues := cbase.cores[5].queues.set 2 (mkQ [⟨0x42, 3, 9, false, false⟩, ⟨0x43, 3, 9, false, false⟩] (BitVec.ofNat 64 ((0x19<<<48)+ (7 <<< 40) + (4 <<< 35)))) } |>.set 7 { cbase.cores[7] with queues := cbase.cores[7].queues.set 4 (mkQ (List.replicate n ⟨0x42, 3, 9, false, false⟩) 0) } }
def rz : State := { State.reset with power := cbase.power, boot := cbase.boot }
def fc (f : Option (SeqId × W64)) : State := { ph cbase with parts := (ph cbase).parts.set 0 { (ph cbase).parts[0] with fault := { transit := [(5, 0, 0x0501000000000000, 7, 8)], first := f } } }
def cad (s : State): State := { s with seqs := s.seqs.map fun q => { q with arm := true, tArm := 4990000, entry := 3, cadArg := 8, cadTag := 100 } }

/-- States and operands that meet the hypotheses of ProgramAndTransferCapsules, clause by clause. -/
theorem test_program_and_transfer_capsules_a :
    (∃ (s : State) (p : PartId) (c : Capsule), NextCapsule p kLoad s c ∧ (1 ≤ ldNat c.params 2 2 ∧ ldNat c.params 2 2 ≤ 1023 ∧ zeroBytes c.params 4 28 = true ∧ c.body.length = 64 * ldNat c.params 2 2 ∧ ldNat c.params 0 2 + ldNat c.params 2 2 ≤ 4096 ∧ ∀ i < ldNat c.params 2 2, loadOk ((fun i => BitVec.ofNat 512 (ldNat c.body (64 * i) 64)) i) (ldNat c.params 0 2 + i) c.target (List.map (fun x => ↑x) s.parts[p].im.img.seqs) = true) ∧ c.target < 16 ∧ seqOf c.target ∈ s.parts[p].im.img.seqs ∧ ¬(s.capState p ≠ PartState.stopped ∧ ¬(s.seqs[seqOf c.target].active = true ∧ ldNat c.params 0 2 < (s.seqs[seqOf c.target].bounds s.seqs[seqOf c.target].region).2 ∧ (s.seqs[seqOf c.target].bounds s.seqs[seqOf c.target].region).1 < ldNat c.params 0 2 + ldNat c.params 2 2))) ∧
    (∃ (s : State) (p : PartId) (c : Capsule), NextCapsule p kLoad s c ∧ (1 ≤ ldNat c.params 2 2 ∧ ldNat c.params 2 2 ≤ 1023 ∧ zeroBytes c.params 4 28 = true ∧ c.body.length = 64 * ldNat c.params 2 2 ∧ ldNat c.params 0 2 + ldNat c.params 2 2 ≤ 4096 ∧ ∀ i < ldNat c.params 2 2, loadOk ((fun i => BitVec.ofNat 512 (ldNat c.body (64 * i) 64)) i) (ldNat c.params 0 2 + i) c.target (List.map (fun x => ↑x) s.parts[p].im.img.seqs) = true) ∧ c.target < 16 ∧ seqOf c.target ∈ s.parts[p].im.img.seqs ∧ s.capState p ≠ PartState.stopped ∧ ¬(s.seqs[seqOf c.target].active = true ∧ ldNat c.params 0 2 < (s.seqs[seqOf c.target].bounds s.seqs[seqOf c.target].region).2 ∧ (s.seqs[seqOf c.target].bounds s.seqs[seqOf c.target].region).1 < ldNat c.params 0 2 + ldNat c.params 2 2)) ∧
    (∃ (s : State) (p : PartId) (c : Capsule), NextCapsule p kLoad s c ∧ (1 ≤ ldNat c.params 2 2 ∧ ldNat c.params 2 2 ≤ 1023 ∧ zeroBytes c.params 4 28 = true ∧ c.body.length = 64 * ldNat c.params 2 2 ∧ ldNat c.params 0 2 + ldNat c.params 2 2 ≤ 4096 ∧ ∀ i < ldNat c.params 2 2, loadOk ((fun i => BitVec.ofNat 512 (ldNat c.body (64 * i) 64)) i) (ldNat c.params 0 2 + i) c.target (List.map (fun x => ↑x) s.parts[p].im.img.seqs) = true) ∧ ¬(c.target < 16 ∧ seqOf c.target ∈ s.parts[p].im.img.seqs)) ∧
    (∃ (s : State) (p : PartId) (c : Capsule), NextCapsule p kLoad s c ∧ (¬(1 ≤ ldNat c.params 2 2 ∧ ldNat c.params 2 2 ≤ 1023 ∧ zeroBytes c.params 4 28 = true ∧ c.body.length = 64 * ldNat c.params 2 2 ∧ ldNat c.params 0 2 + ldNat c.params 2 2 ≤ 4096 ∧ ∀ i < ldNat c.params 2 2, loadOk ((fun i => BitVec.ofNat 512 (ldNat c.body (64 * i) 64)) i) (ldNat c.params 0 2 + i) c.target (List.map (fun x => ↑x) s.parts[p].im.img.seqs) = true))) ∧
    (∃ (s : State) (p : PartId) (c : Capsule), NextCapsule p kStart s c ∧ ldNat c.params 0 1 ≤ 1 ∧ (c.target = 255 ∨ c.target < 16 ∧ (seqOf c.target ∈ s.parts[p].im.img.seqs ∨ s.seqs[seqOf c.target].state = SeqState.unattached)) ∧ (¬∃ n ∈ if c.target = 255 then s.parts[p].im.img.seqs else [seqOf c.target], s.seqs[n].state = SeqState.unattached) ∧ (¬∃ n ∈ if c.target = 255 then s.parts[p].im.img.seqs else [seqOf c.target], ¬((s.seqs[n].bounds (ldNat c.params 0 1 == 1)).1 ≤ ldNat c.params 2 2 ∧ ldNat c.params 2 2 < (s.seqs[n].bounds (ldNat c.params 0 1 == 1)).2)) ∧ (¬((if c.target = 255 then s.parts[p].im.img.seqs else [seqOf c.target]) = [] ∨ s.capState p ≠ PartState.running ∨ ∃ n ∈ if c.target = 255 then s.parts[p].im.img.seqs else [seqOf c.target], s.seqs[n].state ≠ SeqState.idle ∨ s.tickInEpoch n = true)) ∧ (¬ldNat c.params 0 1 = 1 → s.parts[p].run.interlude = false) ∧ (ldNat c.params 0 1 = 1 → (¬∃ n ∈ s.parts[p].im.img.seqs, s.seqs[n].active = true ∧ s.seqs[n].region = false) ∧ ¬∃ g ∈ s.parts[p].groups, g.2.busy = true)) ∧
    (∃ (s : State) (p : PartId) (c : Capsule), NextCapsule p kStart s c ∧ (c.target = 255 ∨ c.target < 16 ∧ (seqOf c.target ∈ s.parts[p].im.img.seqs ∨ s.seqs[seqOf c.target].state = SeqState.unattached)) ∧ (¬∃ n ∈ if c.target = 255 then s.parts[p].im.img.seqs else [seqOf c.target], s.seqs[n].state = SeqState.unattached) ∧ (¬∃ n ∈ if c.target = 255 then s.parts[p].im.img.seqs else [seqOf c.target], ¬((s.seqs[n].bounds (ldNat c.params 0 1 == 1)).1 ≤ ldNat c.params 2 2 ∧ ldNat c.params 2 2 < (s.seqs[n].bounds (ldNat c.params 0 1 == 1)).2)) ∧ (¬((if c.target = 255 then s.parts[p].im.img.seqs else [seqOf c.target]) = [] ∨ s.capState p ≠ PartState.running ∨ ∃ n ∈ if c.target = 255 then s.parts[p].im.img.seqs else [seqOf c.target], s.seqs[n].state ≠ SeqState.idle ∨ s.tickInEpoch n = true)) ∧ ldNat c.params 0 1 = 1 ∧ (¬∃ n ∈ s.parts[p].im.img.seqs, s.seqs[n].active = true ∧ s.seqs[n].region = false)) ∧
    (∃ (s : State) (p : PartId) (c : Capsule), NextCapsule p kStart s c ∧ ldNat c.params 0 1 ≤ 1 ∧ (c.target = 255 ∨ c.target < 16 ∧ (seqOf c.target ∈ s.parts[p].im.img.seqs ∨ s.seqs[seqOf c.target].state = SeqState.unattached)) ∧ (¬∃ n ∈ if c.target = 255 then s.parts[p].im.img.seqs else [seqOf c.target], s.seqs[n].state = SeqState.unattached) ∧ (¬∃ n ∈ if c.target = 255 then s.parts[p].im.img.seqs else [seqOf c.target], ¬((s.seqs[n].bounds (ldNat c.params 0 1 == 1)).1 ≤ ldNat c.params 2 2 ∧ ldNat c.params 2 2 < (s.seqs[n].bounds (ldNat c.params 0 1 == 1)).2)) ∧ (((if c.target = 255 then s.parts[p].im.img.seqs else [seqOf c.target]) = [] ∨ s.capState p ≠ PartState.running ∨ ∃ n ∈ if c.target = 255 then s.parts[p].im.img.seqs else [seqOf c.target], s.seqs[n].state ≠ SeqState.idle ∨ s.tickInEpoch n = true) ∨ ¬ldNat c.params 0 1 = 1 ∧ s.parts[p].run.interlude = true)) ∧
    (∃ (s : State) (p : PartId) (c : Capsule), NextCapsule p kStart s c ∧ ldNat c.params 0 1 ≤ 1 ∧ (c.target = 255 ∨ c.target < 16 ∧ (seqOf c.target ∈ s.parts[p].im.img.seqs ∨ s.seqs[seqOf c.target].state = SeqState.unattached)) ∧ (¬∃ n ∈ if c.target = 255 then s.parts[p].im.img.seqs else [seqOf c.target], s.seqs[n].state = SeqState.unattached) ∧ (∃ n ∈ if c.target = 255 then s.parts[p].im.img.seqs else [seqOf c.target], ¬((s.seqs[n].bounds (ldNat c.params 0 1 == 1)).1 ≤ ldNat c.params 2 2 ∧ ldNat c.params 2 2 < (s.seqs[n].bounds (ldNat c.params 0 1 == 1)).2))) ∧
    (∃ (s : State) (p : PartId) (c : Capsule), NextCapsule p kStart s c ∧ ldNat c.params 0 1 ≤ 1 ∧ (¬(c.target = 255 ∨ c.target < 16 ∧ (seqOf c.target ∈ s.parts[p].im.img.seqs ∨ s.seqs[seqOf c.target].state = SeqState.unattached)))) :=
  ⟨⟨wc cbase lc, 0, lc, by unfold NextCapsule; decide +kernel⟩,
    ⟨wc cidle lc, 0, lc, by unfold NextCapsule; decide +kernel⟩,
    ⟨wc cbase lco, 0, lco, by unfold NextCapsule; decide +kernel⟩,
    ⟨wc cbase lcb, 0, lcb, by unfold NextCapsule; decide +kernel⟩,
    ⟨wc cidle (st 0 5), 0, (st 0 5), by unfold NextCapsule; decide +kernel⟩,
    ⟨wc (csp cidle) (st 1 5), 0, (st 1 5), by unfold NextCapsule; decide +kernel⟩,
    ⟨wc cbase (st 0 5), 0, (st 0 5), by unfold NextCapsule; decide +kernel⟩,
    ⟨wc cidle (st 1 5), 0, (st 1 5), by unfold NextCapsule; decide +kernel⟩,
    ⟨wc cidle (st 0 5 7), 0, (st 0 5 7), by unfold NextCapsule; decide +kernel⟩⟩

/-- States and operands that meet the hypotheses of ProgramAndTransferCapsules, clause by clause. -/
theorem test_program_and_transfer_capsules_b :
    (∃ (s : State) (p : PartId) (c : Capsule), NextCapsule p kStart s c ∧ 1 < ldNat c.params 0 1) ∧
    (∃ (s : State) (p : PartId) (c : Capsule), NextCapsule p kTransfer s c ∧ c.body = [] ∧ zeroBytes c.params 25 7 = true ∧ 64 ≤ ldNat c.params 16 8 ∧ ldNat c.params 16 8 ≤ 4294967296 ∧ ldNat c.params 16 8 % 64 = 0 ∧ ldNat c.params 24 1 / 4 % 4 ≠ 2 ∧ ldNat c.params 24 1 / 32 ≤ 3 ∧ ¬({ id := s.nextItem, kind := XferKind.capsule, part := p, tag := c.tag, core := 0, ringAt := 0, ringPhase := true, ctr := 0, seqIdx := 0, src := BitVec.ofNat 64 (ldNat c.params 0 8), dst := BitVec.ofNat 64 (ldNat c.params 8 8), srcHost := (ldNat c.params 24 1).testBit 0, dstHost := (ldNat c.params 24 1).testBit 1, length := ldNat c.params 16 8, op := BitVec.ofNat 2 (ldNat c.params 24 1 / 32), tc := BitVec.ofNat 2 (ldNat c.params 24 1 / 4 % 4), ord := (ldNat c.params 24 1).testBit 4, ieee := s.ieee p, remote := false, sent := 0, settled := 0, delivered := 0, outcome := none, causes := 0, incident := 0, step := c.step, raiseV0 := c.v0, hostAt := 0 : Xfer }.srcHost = true ∧ { id := s.nextItem, kind := XferKind.capsule, part := p, tag := c.tag, core := 0, ringAt := 0, ringPhase := true, ctr := 0, seqIdx := 0, src := BitVec.ofNat 64 (ldNat c.params 0 8), dst := BitVec.ofNat 64 (ldNat c.params 8 8), srcHost := (ldNat c.params 24 1).testBit 0, dstHost := (ldNat c.params 24 1).testBit 1, length := ldNat c.params 16 8, op := BitVec.ofNat 2 (ldNat c.params 24 1 / 32), tc := BitVec.ofNat 2 (ldNat c.params 24 1 / 4 % 4), ord := (ldNat c.params 24 1).testBit 4, ieee := s.ieee p, remote := false, sent := 0, settled := 0, delivered := 0, outcome := none, causes := 0, incident := 0, step := c.step, raiseV0 := c.v0, hostAt := 0 : Xfer }.dstHost = true) ∧ s.xferCheck { id := s.nextItem, kind := XferKind.capsule, part := p, tag := c.tag, core := 0, ringAt := 0, ringPhase := true, ctr := 0, seqIdx := 0, src := BitVec.ofNat 64 (ldNat c.params 0 8), dst := BitVec.ofNat 64 (ldNat c.params 8 8), srcHost := (ldNat c.params 24 1).testBit 0, dstHost := (ldNat c.params 24 1).testBit 1, length := ldNat c.params 16 8, op := BitVec.ofNat 2 (ldNat c.params 24 1 / 32), tc := BitVec.ofNat 2 (ldNat c.params 24 1 / 4 % 4), ord := (ldNat c.params 24 1).testBit 4, ieee := s.ieee p, remote := false, sent := 0, settled := 0, delivered := 0, outcome := none, causes := 0, incident := 0, step := c.step, raiseV0 := c.v0, hostAt := 0 : Xfer } = none ∧ s.capState p ≠ PartState.running) ∧
    (∃ (s : State) (p : PartId) (c : Capsule) (o : OutcomeCode), NextCapsule p kTransfer s c ∧ c.body = [] ∧ zeroBytes c.params 25 7 = true ∧ 64 ≤ ldNat c.params 16 8 ∧ ldNat c.params 16 8 ≤ 4294967296 ∧ ldNat c.params 16 8 % 64 = 0 ∧ ldNat c.params 24 1 / 4 % 4 ≠ 2 ∧ ldNat c.params 24 1 / 32 ≤ 3 ∧ ¬({ id := s.nextItem, kind := XferKind.capsule, part := p, tag := c.tag, core := 0, ringAt := 0, ringPhase := true, ctr := 0, seqIdx := 0, src := BitVec.ofNat 64 (ldNat c.params 0 8), dst := BitVec.ofNat 64 (ldNat c.params 8 8), srcHost := (ldNat c.params 24 1).testBit 0, dstHost := (ldNat c.params 24 1).testBit 1, length := ldNat c.params 16 8, op := BitVec.ofNat 2 (ldNat c.params 24 1 / 32), tc := BitVec.ofNat 2 (ldNat c.params 24 1 / 4 % 4), ord := (ldNat c.params 24 1).testBit 4, ieee := s.ieee p, remote := false, sent := 0, settled := 0, delivered := 0, outcome := none, causes := 0, incident := 0, step := c.step, raiseV0 := c.v0, hostAt := 0 : Xfer }.srcHost = true ∧ { id := s.nextItem, kind := XferKind.capsule, part := p, tag := c.tag, core := 0, ringAt := 0, ringPhase := true, ctr := 0, seqIdx := 0, src := BitVec.ofNat 64 (ldNat c.params 0 8), dst := BitVec.ofNat 64 (ldNat c.params 8 8), srcHost := (ldNat c.params 24 1).testBit 0, dstHost := (ldNat c.params 24 1).testBit 1, length := ldNat c.params 16 8, op := BitVec.ofNat 2 (ldNat c.params 24 1 / 32), tc := BitVec.ofNat 2 (ldNat c.params 24 1 / 4 % 4), ord := (ldNat c.params 24 1).testBit 4, ieee := s.ieee p, remote := false, sent := 0, settled := 0, delivered := 0, outcome := none, causes := 0, incident := 0, step := c.step, raiseV0 := c.v0, hostAt := 0 : Xfer }.dstHost = true) ∧ s.xferCheck { id := s.nextItem, kind := XferKind.capsule, part := p, tag := c.tag, core := 0, ringAt := 0, ringPhase := true, ctr := 0, seqIdx := 0, src := BitVec.ofNat 64 (ldNat c.params 0 8), dst := BitVec.ofNat 64 (ldNat c.params 8 8), srcHost := (ldNat c.params 24 1).testBit 0, dstHost := (ldNat c.params 24 1).testBit 1, length := ldNat c.params 16 8, op := BitVec.ofNat 2 (ldNat c.params 24 1 / 32), tc := BitVec.ofNat 2 (ldNat c.params 24 1 / 4 % 4), ord := (ldNat c.params 24 1).testBit 4, ieee := s.ieee p, remote := false, sent := 0, settled := 0, delivered := 0, outcome := none, causes := 0, incident := 0, step := c.step, raiseV0 := c.v0, hostAt := 0 : Xfer } = some o) ∧
    (∃ (s : State) (p : PartId) (c : Capsule), NextCapsule p kTransfer s c ∧ ¬(c.body = [] ∧ zeroBytes c.params 25 7 = true ∧ 64 ≤ ldNat c.params 16 8 ∧ ldNat c.params 16 8 ≤ 4294967296 ∧ ldNat c.params 16 8 % 64 = 0 ∧ ldNat c.params 24 1 / 4 % 4 ≠ 2 ∧ ldNat c.params 24 1 / 32 ≤ 3 ∧ ¬({ id := s.nextItem, kind := XferKind.capsule, part := p, tag := c.tag, core := 0, ringAt := 0, ringPhase := true, ctr := 0, seqIdx := 0, src := BitVec.ofNat 64 (ldNat c.params 0 8), dst := BitVec.ofNat 64 (ldNat c.params 8 8), srcHost := (ldNat c.params 24 1).testBit 0, dstHost := (ldNat c.params 24 1).testBit 1, length := ldNat c.params 16 8, op := BitVec.ofNat 2 (ldNat c.params 24 1 / 32), tc := BitVec.ofNat 2 (ldNat c.params 24 1 / 4 % 4), ord := (ldNat c.params 24 1).testBit 4, ieee := s.ieee p, remote := false, sent := 0, settled := 0, delivered := 0, outcome := none, causes := 0, incident := 0, step := c.step, raiseV0 := c.v0, hostAt := 0 : Xfer }.srcHost = true ∧ { id := s.nextItem, kind := XferKind.capsule, part := p, tag := c.tag, core := 0, ringAt := 0, ringPhase := true, ctr := 0, seqIdx := 0, src := BitVec.ofNat 64 (ldNat c.params 0 8), dst := BitVec.ofNat 64 (ldNat c.params 8 8), srcHost := (ldNat c.params 24 1).testBit 0, dstHost := (ldNat c.params 24 1).testBit 1, length := ldNat c.params 16 8, op := BitVec.ofNat 2 (ldNat c.params 24 1 / 32), tc := BitVec.ofNat 2 (ldNat c.params 24 1 / 4 % 4), ord := (ldNat c.params 24 1).testBit 4, ieee := s.ieee p, remote := false, sent := 0, settled := 0, delivered := 0, outcome := none, causes := 0, incident := 0, step := c.step, raiseV0 := c.v0, hostAt := 0 : Xfer }.dstHost = true))) :=
  ⟨⟨wc cidle (st 2 5), 0, (st 2 5), by unfold NextCapsule; decide +kernel⟩,
    ⟨wc (cbase.updPart 0 fun x => { x with state := .quiesced }) (tcap 0x1000 (loc 0) 64 1), 0, (tcap 0x1000 (loc 0) 64 1), by unfold NextCapsule; decide +kernel⟩,
    ⟨wc cbase (tcap 0x1000 (loc 0x7FFFFFFFFF) 64 1), 0, (tcap 0x1000 (loc 0x7FFFFFFFFF) 64 1), OutcomeCode.refusedOwner, by unfold NextCapsule; decide +kernel⟩,
    ⟨wc cbase (tcap 0x1000 (loc 0) 64 3), 0, (tcap 0x1000 (loc 0) 64 3), by unfold NextCapsule; decide +kernel⟩⟩

/-- States and operands that meet the hypotheses of SequencersIssueInProgramOrder, clause by clause. -/
theorem test_sequencers_issue_in_program_order_a :
    (∃ (s : State) (n : SeqId) (l : Loop) (t : List Loop), MayFetch n s ∧ (bundleOf (s.seqs[n].imem.getD s.seqs[n].pc 0)).flow = FlowOp.none ∧ s.seqs[n].loops = l :: t ∧ l.last = s.seqs[n].pc ∧ l.left = 0 ∧ (∀ m ∈ t.head?, m.last ≠ s.seqs[n].pc)) ∧
    (∃ (s : State) (n : SeqId) (a : ℕ), MayFetch n s ∧ (bundleOf (s.seqs[n].imem.getD s.seqs[n].pc 0)).flow = FlowOp.jump a ∧ (s.seqs[n].bounds s.seqs[n].region).1 ≤ a ∧ a < (s.seqs[n].bounds s.seqs[n].region).2 ∧ (∀ l ∈ s.seqs[n].loops, l.last ≠ s.seqs[n].pc ∧ l.first ≤ a ∧ a ≤ l.last)) ∧
    (∃ (s : State) (n : SeqId) (l : Loop) (t : List Loop), MayFetch n s ∧ (bundleOf (s.seqs[n].imem.getD s.seqs[n].pc 0)).flow = FlowOp.none ∧ s.seqs[n].loops = l :: t ∧ l.last = s.seqs[n].pc ∧ 0 < l.left) ∧
    (∃ (s : State) (n : SeqId) (e : ℕ) (k : ℕ), MayFetch n s ∧ ((bundleOf (s.seqs[n].imem.getD s.seqs[n].pc 0)).flow = FlowOp.loop e k ∨ ∃ a, (bundleOf (s.seqs[n].imem.getD s.seqs[n].pc 0)).flow = FlowOp.loopa a e ∧ k = BitVec.toNat s.seqs[n].args[a] % 4294967296) ∧ ((fun e => s.seqs[n].pc < e ∧ (∀ l ∈ s.seqs[n].loops, l.last ≠ s.seqs[n].pc) ∧ ∀ l ∈ s.seqs[n].loops.head?, e ≤ l.last) e) ∧ 0 < k ∧ s.seqs[n].loops.length < 4) ∧
    (∃ (s : State) (n : SeqId) (e : ℕ) (k : ℕ), MayFetch n s ∧ ((bundleOf (s.seqs[n].imem.getD s.seqs[n].pc 0)).flow = FlowOp.loop e k ∨ ∃ a, (bundleOf (s.seqs[n].imem.getD s.seqs[n].pc 0)).flow = FlowOp.loopa a e ∧ k = BitVec.toNat s.seqs[n].args[a] % 4294967296) ∧ ((fun e => s.seqs[n].pc < e ∧ (∀ l ∈ s.seqs[n].loops, l.last ≠ s.seqs[n].pc) ∧ ∀ l ∈ s.seqs[n].loops.head?, e ≤ l.last) e) ∧ k = 0) ∧
    (∃ (s : State) (n : SeqId), MayFetch n s ∧ (bundleOf (s.seqs[n].imem.getD s.seqs[n].pc 0)).flow = FlowOp.none ∧ (∀ l ∈ s.seqs[n].loops.head?, l.last ≠ s.seqs[n].pc)) ∧
    (∃ (s : State) (n : SeqId), MayFetch n s ∧ (bundleOf (s.seqs[n].imem.getD s.seqs[n].pc 0)).flow = FlowOp.halt) ∧
    (∃ (s : State) (n : SeqId), (s.seqs[n].state ≠ SeqState.running ∨ ∃ c ∈ s.seqCores n, 16 ≤ s.cores[c].fifo.length)) ∧
    (∃ (s : State) (n : SeqId), MayFetch n s) ∧
    (∃ (s : State) (c : CoreId) (w : Bundle512) (k : BitVec 48) (l : List (Bundle512 × BitVec 48)), s.coreReady c = true ∧ s.cores[c].grace = none ∧ s.cores[c].fifo = (w, k) :: l ∧ ((bundleOf w).sync.wait s.cores[c] = none ∨ ∃ v, (bundleOf w).sync.wait s.cores[c] = some v ∧ v.holds s.cores[c] = true ∧ ∀ (id : BitVec 4) (m : W16), (bundleOf w).sync ≠ SyncOp.barrier id m) ∧ (((s.updCore c fun x => { fifo := l, grace := x.grace, drains := x.drains, beats := x.beats, curSeq := x.curSeq, curIssue := x.curIssue, faultWord := x.faultWord, halted := x.halted, waiting := none, k := x.k, ag := x.ag, queues := x.queues, mem := x.mem, memPoison := x.memPoison, acc := x.acc, accPoison := x.accPoison, inflight := x.inflight, ring := x.ring, sync := x.sync, barriers := x.barriers, raised := x.raised, mx := x.mx, vx := x.vx, ovmode := x.ovmode, cvtRound := x.cvtRound : Machine.Core }).issueBeat c (bundleOf w).seqIdx k).bundle (bundleOf w)).faults = [] ∧ (((s.updCore c fun x => { fifo := l, grace := x.grace, drains := x.drains, beats := x.beats, curSeq := x.curSeq, curIssue := x.curIssue, faultWord := x.faultWord, halted := x.halted, waiting := none, k := x.k, ag := x.ag, queues := x.queues, mem := x.mem, memPoison := x.memPoison, acc := x.acc, accPoison := x.accPoison, inflight := x.inflight, ring := x.ring, sync := x.sync, barriers := x.barriers, raised := x.raised, mx := x.mx, vx := x.vx, ovmode := x.ovmode, cvtRound := x.cvtRound : Machine.Core }).issueBeat c (bundleOf w).seqIdx k).bundle (bundleOf w)).exts = [] ∧ (((s.updCore c fun x => { fifo := l, grace := x.grace, drains := x.drains, beats := x.beats, curSeq := x.curSeq, curIssue := x.curIssue, faultWord := x.faultWord, halted := x.halted, waiting := none, k := x.k, ag := x.ag, queues := x.queues, mem := x.mem, memPoison := x.memPoison, acc := x.acc, accPoison := x.accPoison, inflight := x.inflight, ring := x.ring, sync := x.sync, barriers := x.barriers, raised := x.raised, mx := x.mx, vx := x.vx, ovmode := x.ovmode, cvtRound := x.cvtRound : Machine.Core }).issueBeat c (bundleOf w).seqIdx k).bundle (bundleOf w)).new.grace = none ∧ (((s.updCore c fun x => { fifo := l, grace := x.grace, drains := x.drains, beats := x.beats, curSeq := x.curSeq, curIssue := x.curIssue, faultWord := x.faultWord, halted := x.halted, waiting := none, k := x.k, ag := x.ag, queues := x.queues, mem := x.mem, memPoison := x.memPoison, acc := x.acc, accPoison := x.accPoison, inflight := x.inflight, ring := x.ring, sync := x.sync, barriers := x.barriers, raised := x.raised, mx := x.mx, vx := x.vx, ovmode := x.ovmode, cvtRound := x.cvtRound : Machine.Core }).issueBeat c (bundleOf w).seqIdx k).bundle (bundleOf w)).new.vx.storms = s.cores[c].vx.storms ∧ (((s.updCore c fun x => { fifo := l, grace := x.grace, drains := x.drains, beats := x.beats, curSeq := x.curSeq, curIssue := x.curIssue, faultWord := x.faultWord, halted := x.halted, waiting := none, k := x.k, ag := x.ag, queues := x.queues, mem := x.mem, memPoison := x.memPoison, acc := x.acc, accPoison := x.accPoison, inflight := x.inflight, ring := x.ring, sync := x.sync, barriers := x.barriers, raised := x.raised, mx := x.mx, vx := x.vx, ovmode := x.ovmode, cvtRound := x.cvtRound : Machine.Core }).issueBeat c (bundleOf w).seqIdx k).bundle (bundleOf w)).new.beats = s.cores[c].beats ∧ (∀ f ∈ (((s.updCore c fun x => { fifo := l, grace := x.grace, drains := x.drains, beats := x.beats, curSeq := x.curSeq, curIssue := x.curIssue, faultWord := x.faultWord, halted := x.halted, waiting := none, k := x.k, ag := x.ag, queues := x.queues, mem := x.mem, memPoison := x.memPoison, acc := x.acc, accPoison := x.accPoison, inflight := x.inflight, ring := x.ring, sync := x.sync, barriers := x.barriers, raised := x.raised, mx := x.mx, vx := x.vx, ovmode := x.ovmode, cvtRound := x.cvtRound : Machine.Core }).issueBeat c (bundleOf w).seqIdx k).bundle (bundleOf w)).new.inflight, s.cores[c].beats + (bundleOf w).skip < f.due)) ∧
    (∃ (s : State) (c : CoreId), (s.coreReady c = false ∨ s.cores[c].fifo = [])) ∧
    (∃ (s : State) (n : SeqId) (p : PartId) (x : Program), s.seqs[n].state = SeqState.halting ∧ s.haltDrained n = true ∧ s.seqHolder n = some p ∧ x.seqs = [n] ∧ x.part = p ∧ s.seqs[n].item = some x.id ∧ List.find? (fun y => y.id == x.id) s.programs = some x ∧ s.parts[p].storm.closing = none ∧ (∃ c ∈ s.seqCores n, ∃ q : QId, s.cores[c].queues[q].entries ≠ []) ∧ n ∈ s.parts[p].im.img.seqs ∧ s.seqs[n].fault0 = 0) :=
  ⟨⟨fl cbase 0 7 [L2,L3], 0, L2, [L3], by unfold MayFetch; decide +kernel⟩,
    ⟨fl cbase ((3 <<< 92)+(100 <<< 76)) 7, 0, (100:Nat), by unfold MayFetch; decide +kernel⟩,
    ⟨fl cbase 0 7 [L1,L3], 0, L1, [L3], by unfold MayFetch; decide +kernel⟩,
    ⟨fl cbase ((1<<<92)+(100 <<< 76)+(9<<<64)) 7 [L3], 0, (100:Nat), (9:Nat), by unfold MayFetch; decide +kernel⟩,
    ⟨fl cbase ((2<<<92)+(100 <<< 76)+(1<<<90)) 7 [L3], 0, (100:Nat), (0:Nat), by unfold MayFetch; decide +kernel⟩,
    ⟨fl cbase 0 7, 0, by unfold MayFetch; decide +kernel⟩,
    ⟨fl cbase (4 <<< 92) 7, 0, by unfold MayFetch; decide +kernel⟩,
    ⟨cidle, 0, by decide +kernel⟩,
    ⟨cbase, 0, by unfold MayFetch; decide +kernel⟩,
    ⟨bi (bw 4 0 0), 3, BitVec.ofNat 512 (bw 4 0 0), 9, [(0,10)], by decide +kernel⟩,
    ⟨bi 0, 2, by decide +kernel⟩,
    ⟨ph cbase, 0, 0, px, by decide +kernel⟩⟩

/-- States and operands that meet the hypotheses of SequencersIssueInProgramOrder, clause by clause. -/
theorem test_sequencers_issue_in_program_order_b :
    (∃ (s : State) (n : SeqId) (p : PartId) (x : Program), s.seqs[n].state = SeqState.halting ∧ s.haltDrained n = true ∧ s.seqHolder n = some p ∧ x.seqs = [n] ∧ x.part = p ∧ s.seqs[n].item = some x.id ∧ List.find? (fun y => y.id == x.id) s.programs = some x ∧ s.parts[p].storm.closing = none ∧ (∀ c ∈ s.seqCores n, ∀ (q : QId), s.cores[c].queues[q].entries = [])) ∧
    (∃ (s : State) (n : SeqId), (s.seqs[n].state ≠ SeqState.halting ∨ s.haltDrained n = false)) ∧
    (∃ (s : State) (c : CoreId) (q : QId) (x : Entry) (r : List Entry), s.cores[c].queues[q].entries = x :: r ∧ s.coreLive c = true ∧ BitVec.toNat s.cores[c].queues[q].topo / 2 ^ 48 % 256 = 25 ∧ BitVec.toNat s.cores[c].queues[q].topo / 2 ^ 40 % 256 < 192 ∧ coreOf (BitVec.toNat s.cores[c].queues[q].topo / 2 ^ 40 % 256) ≠ c ∧ s.cores[coreOf (BitVec.toNat s.cores[c].queues[q].topo / 2 ^ 40 % 256)].queues[qOf (BitVec.toNat s.cores[c].queues[q].topo / 2 ^ 35 % 32)].entries.length < 8) ∧
    (∃ (s : State) (c : CoreId) (q : QId) (x : Entry) (r : List Entry), s.cores[c].queues[q].entries = x :: r ∧ s.coreLive c = true ∧ BitVec.toNat s.cores[c].queues[q].topo / 2 ^ 48 % 256 = 25 ∧ BitVec.toNat s.cores[c].queues[q].topo / 2 ^ 40 % 256 < 192 ∧ coreOf (BitVec.toNat s.cores[c].queues[q].topo / 2 ^ 40 % 256) ≠ c ∧ 8 ≤ s.cores[coreOf (BitVec.toNat s.cores[c].queues[q].topo / 2 ^ 40 % 256)].queues[qOf (BitVec.toNat s.cores[c].queues[q].topo / 2 ^ 35 % 32)].entries.length) :=
  ⟨⟨phc, 0, 0, px, by decide +kernel⟩,
    ⟨cbase, 0, by decide +kernel⟩,
    ⟨cxo 0, 5, 2, ⟨0x42, 3, 9, false, false⟩, [⟨0x43, 3, 9, false, false⟩], by decide +kernel⟩,
    ⟨cxo 8, 5, 2, ⟨0x42, 3, 9, false, false⟩, [⟨0x43, 3, 9, false, false⟩], by decide +kernel⟩⟩

/-- States and operands that meet the hypotheses of FaultsLimitsAndCadences, clause by clause. -/
theorem test_faults_limits_and_cadences :
    (∃ (s : State) (c : CoreId) (p : PartId) (n : SeqId) (x : LqArgs), CoreOpen s c ∧ s.coreHolder c = some p ∧ s.driverOf c = some n ∧ (Instr.ldq c x).wf = true ∧ (topoPush s.cores[c].queues[x.q.q].topo ≠ if x.portB = true then 2 else 1) ∧ s.cores[c].faultWord = 0) ∧
    (∃ (s : State) (c : CoreId) (p : PartId) (n : SeqId) (x : LqArgs), CoreOpen s c ∧ s.coreHolder c = some p ∧ s.driverOf c = some n ∧ (Instr.ldq c x).wf = true ∧ (topoPush s.cores[c].queues[x.q.q].topo ≠ if x.portB = true then 2 else 1) ∧ s.seqs[n].fault0 = 0) ∧
    (∃ (s : State) (n : SeqId) (p : PartId), s.seqs[n].state = SeqState.running ∧ (∀ c ∈ s.seqCores n, s.cores[c].fifo.length < 16) ∧ s.seqs[n].region = false ∧ s.seqs[n].split ≤ s.seqs[n].pc ∧ s.seqHolder n = some p ∧ n ∈ s.parts[p].im.img.seqs) ∧
    (∃ (s : State) (n : SeqId) (p : PartId), MayFetch n s ∧ s.seqHolder n = some p ∧ n ∈ s.parts[p].im.img.seqs ∧ s.seqs[n].fault0 = 0) ∧
    (∃ (s : State) (p : PartId) (cr : ℕ) (n : SeqId) (w : W64) (b : W64) (k : BitVec 48) (r : List (ℕ × SeqId × W64 × BitVec 48 × W64)) (f : SeqId × W64), s.parts[p].fault.transit = (cr, n, w, k, b) :: r ∧ s.parts[p].fault.first = some f) ∧
    (∃ (s : State) (p : PartId), s.parts[p].fault.transit = []) ∧
    (∃ (s : State) (p : PartId) (at_ : ℕ), (∃ x ∈ (s.advanceTo at_).programs, x.part = p ∧ ∃ l ∈ x.limitAt, l ≤ (s.advanceTo at_).timeNs)) ∧
    (∃ (s : State) (p : PartId) (at_ : ℕ), (∀ x ∈ (s.advanceTo at_).programs, x.part = p → ∀ l ∈ x.limitAt, (s.advanceTo at_).timeNs < l)) ∧
    (∃ (s : State) (n : SeqId) (e : BitVec 12), Ready s ∧ s.seqs[n].state ≠ SeqState.unattached ∧ e.toNat < s.seqs[n].split) ∧
    (∃ (s : State) (n : SeqId) (e : BitVec 12), Ready s ∧ ¬(s.seqs[n].state ≠ SeqState.unattached ∧ e.toNat < s.seqs[n].split)) ∧
    (∃ (s : State), Ready s) ∧
    (∃ (s : State) (n : SeqId) (p : PartId) (at_ : ℕ) (k : ℕ), (s.advanceTo at_).seqHolder n = some p ∧ at_ ≤ (s.advanceTo at_).timeNs ∧ (s.advanceTo at_).seqs[n].arm = true ∧ at_ = (s.advanceTo at_).seqs[n].tArm + k * max 10000 (BitVec.toNat (s.advanceTo at_).seqs[n].periodNs) ∧ (s.advanceTo at_).seqs[n].tickK < k ∧ (s.advanceTo at_).capState p = PartState.running ∧ (s.advanceTo at_).seqs[n].state = SeqState.idle ∧ (s.advanceTo at_).parts[p].run.interlude = false) ∧
    (∃ (s : State) (n : SeqId) (p : PartId) (at_ : ℕ) (k : ℕ), (s.advanceTo at_).seqHolder n = some p ∧ at_ ≤ (s.advanceTo at_).timeNs ∧ (s.advanceTo at_).seqs[n].arm = true ∧ at_ = (s.advanceTo at_).seqs[n].tArm + k * max 10000 (BitVec.toNat (s.advanceTo at_).seqs[n].periodNs) ∧ (s.advanceTo at_).seqs[n].tickK < k ∧ (s.advanceTo at_).capState p = PartState.running ∧ ((s.advanceTo at_).seqs[n].state ≠ SeqState.idle ∨ (s.advanceTo at_).parts[p].run.interlude = true)) ∧
    (∃ (s : State) (n : SeqId) (p : PartId) (at_ : ℕ) (k : ℕ), (s.advanceTo at_).seqHolder n = some p ∧ at_ ≤ (s.advanceTo at_).timeNs ∧ (s.advanceTo at_).seqs[n].arm = true ∧ at_ = (s.advanceTo at_).seqs[n].tArm + k * max 10000 (BitVec.toNat (s.advanceTo at_).seqs[n].periodNs) ∧ (s.advanceTo at_).seqs[n].tickK < k ∧ (s.advanceTo at_).capState p ≠ PartState.running) ∧
    (∃ (s : State) (n : SeqId) (at_ : ℕ), (s.advanceTo at_).seqs[n].arm = false) :=
  ⟨⟨cbase, 3, 0, 0, ⟨2, true, true, ⟨4,0⟩, .int8⟩, by unfold CoreOpen; decide +kernel⟩,
    ⟨cbase, 3, 0, 0, ⟨2, true, true, ⟨4,0⟩, .int8⟩, by unfold CoreOpen; decide +kernel⟩,
    ⟨{ cbase with seqs := cbase.seqs.map fun q => { q with pc := 4096 } }, 0, 0, by decide +kernel⟩,
    ⟨cbase, 0, 0, by unfold MayFetch; decide +kernel⟩,
    ⟨fc (some (0,3)), 0, 5, 0, 0x0501000000000000, 8, 7, [], ((0,3) : SeqId × W64), by decide +kernel⟩,
    ⟨cbase, 0, by decide +kernel⟩,
    ⟨{ cbase with programs := [{ px with limitAt := some 5000010 }] }, 0, 5000020, by decide +kernel⟩,
    ⟨{ cbase with programs := [{ px with limitAt := some 5000010 }] }, 0, 5000009, by decide +kernel⟩,
    ⟨cbase, 0, 3, by unfold Ready; decide +kernel⟩,
    ⟨rz, 0, 3, by unfold Ready; decide +kernel⟩,
    ⟨cbase, by unfold Ready; decide +kernel⟩,
    ⟨cad cidle, 0, 0, 5010000, 2, by decide +kernel⟩,
    ⟨cad cbase, 0, 0, 5010000, 2, by decide +kernel⟩,
    ⟨(cad cbase).updPart 0 fun x => { x with state := .quiesced }, 0, 0, 5010000, 2, by decide +kernel⟩,
    ⟨cbase, 0, 5010000, by decide +kernel⟩⟩

end Programs

/-! ### Witnesses of the statements about coreslots -/

namespace CoreSlots

def cx := { cbase with cores := updAt cbase.cores 3 fun x => { x with k := x.k.set 4 (0x0002000000000000#64 ||| BitVec.ofNat 64 (0)) |>.set 5 128 |>.set 6 (0x0002000000000307#64) } }
def xf : Xfer := { id := 4, kind := .get, part := 0, tag := 5, core := 3, ringAt := 0x900, ctr := 7, src := 0, dst := 0, length := 64, outcome := some .failedLink }

/-- States and operands that meet the hypotheses of ScalarArithmeticWritesItsRegister, clause by clause. -/
theorem test_scalar_arithmetic_writes_its_register :
    (∃ (s : State) (c : CoreId), CoreOpen s c) ∧
    (∃ (s : State) (c : CoreId), CoreOpen s c) ∧
    (∃ (s : State) (c : CoreId), CoreOpen s c) ∧
    (∃ (s : State) (c : CoreId), CoreOpen s c) ∧
    (∃ (s : State) (c : CoreId), CoreOpen s c) ∧
    (∃ (s : State) (c : CoreId), CoreOpen s c) :=
  ⟨⟨cbase, 3, by unfold CoreOpen; decide +kernel⟩,
    ⟨cbase, 3, by unfold CoreOpen; decide +kernel⟩,
    ⟨cbase, 3, by unfold CoreOpen; decide +kernel⟩,
    ⟨cbase, 3, by unfold CoreOpen; decide +kernel⟩,
    ⟨cbase, 3, by unfold CoreOpen; decide +kernel⟩,
    ⟨cbase, 3, by unfold CoreOpen; decide +kernel⟩⟩

/-- States and operands that meet the hypotheses of GeneratorTimeAndRingCommands, clause by clause. -/
theorem test_generator_time_and_ring_commands :
    (∃ (s : State) (c : CoreId) (x : SArgs), CoreOpen s c ∧ x.f.toNat ≤ 4) ∧
    (∃ (s : State) (c : CoreId) (x : SArgs), CoreOpen s c ∧ 4 ≤ BitVec.toNat x.imm % 16 ∧ BitVec.toNat x.imm % 16 ≤ 12 ∧ bits s.cores[c].k[x.a] 8 14 * 256 + 32 * 2 ^ (BitVec.toNat x.imm % 16) ≤ 3145728 ∧ s.cores[c].ring.head ≤ s.cores[c].ring.tail) ∧
    (∃ (s : State) (c : CoreId) (x : SArgs), CoreOpen s c ∧ 1 ≤ BitVec.toNat x.imm ∧ BitVec.toNat x.imm ≤ 4096 ∧ s.cores[c].ring.tail + BitVec.toNat x.imm ≤ s.cores[c].ring.head) :=
  ⟨⟨cbase, 3, ⟨1,2,3,2,0xFFFFFFFF⟩, by unfold CoreOpen; decide +kernel⟩,
    ⟨{ cbase with cores := updAt cbase.cores 3 fun x => { x with ring := {} } }, 3, ⟨1,2,3,2,6⟩, by unfold CoreOpen; decide +kernel⟩,
    ⟨cbase, 3, ⟨1,2,3,2,2⟩, by unfold CoreOpen; decide +kernel⟩⟩

/-- States and operands that meet the hypotheses of LoadAndStoreSlotsMoveLines, clause by clause. -/
theorem test_load_and_store_slots_move_lines :
    (∃ (s : State) (c : CoreId), CoreOpen s c) ∧
    (∃ (s : State) (c : CoreId), CoreOpen s c) ∧
    (∃ (s : State) (c : CoreId) (x : LqArgs), CoreOpen s c ∧ (Instr.ldq c x).wf = true ∧ (topoPush s.cores[c].queues[x.q.q].topo = if x.portB = true then 2 else 1) ∧ agLine s.cores[c] x.ag < 3145728) ∧
    (∃ (s : State) (c : CoreId) (x : Lq2Args), CoreOpen s c ∧ (Instr.ldq2 c x).wf = true ∧ topoPush s.cores[c].queues[x.qA.q].topo = 1 ∧ topoPush s.cores[c].queues[x.qB.q].topo = 2 ∧ agLine s.cores[c] x.agA < 3145728 ∧ agLine s.cores[c] x.agB < 3145728 ∧ bankOf (agLine s.cores[c] x.agA) ≠ bankOf (agLine s.cores[c] x.agB) ∧ ¬(x.advA = true ∧ x.advB = true ∧ x.agA = x.agB)) ∧
    (∃ (s : State) (c : CoreId) (x : LqArgs) (e : Entry), CoreOpen s c ∧ (Instr.stq c x).wf = true ∧ (topoPop s.cores[c].queues[x.q.q].topo = if x.portB = true then 24 else 23) ∧ agLine s.cores[c] x.ag < 3145728 ∧ HeadIs s.cores[c] x.q x.fmt e) ∧
    (∃ (s : State) (c : CoreId) (x : Lq2Args) (e : Entry) (f : Entry), CoreOpen s c ∧ (Instr.stq2 c x).wf = true ∧ topoPop s.cores[c].queues[x.qA.q].topo = 23 ∧ topoPop s.cores[c].queues[x.qB.q].topo = 24 ∧ agLine s.cores[c] x.agA < 3145728 ∧ agLine s.cores[c] x.agB < 3145728 ∧ bankOf (agLine s.cores[c] x.agA) ≠ bankOf (agLine s.cores[c] x.agB) ∧ ¬(x.advA = true ∧ x.advB = true ∧ x.agA = x.agB) ∧ HeadIs s.cores[c] x.qA x.fmtA e ∧ HeadIs s.cores[c] x.qB x.fmtB f) :=
  ⟨⟨cbase, 3, by unfold CoreOpen; decide +kernel⟩,
    ⟨cbase, 3, by unfold CoreOpen; decide +kernel⟩,
    ⟨cbase, 3, ⟨1, true, false, ⟨1, 4⟩, .fp32⟩, by unfold CoreOpen; decide +kernel⟩,
    ⟨cbase, 3, ⟨1, true, ⟨1, 4⟩, .fp32, 2, false, ⟨2, 6⟩, .int8⟩, by unfold CoreOpen; decide +kernel⟩,
    ⟨cbase, 3, ⟨1, true, false, ⟨2, 3⟩, .fp32⟩, ⟨0x42, 3, 9, false, false⟩, by unfold HeadIs CoreOpen; decide +kernel⟩,
    ⟨cbase, 3, ⟨1, true, ⟨2, 3⟩, .fp32, 2, true, ⟨4, 5⟩, .fp32⟩, ⟨0x42, 3, 9, false, false⟩, ⟨0x44, 5, 9, false, false⟩, by unfold HeadIs CoreOpen; decide +kernel⟩⟩

/-- States and operands that meet the hypotheses of TransfersAreIssuedWithARingSlot, clause by clause. -/
theorem test_transfers_are_issued_with_a_ring_slot :
    (∃ (s : State) (c : CoreId) (p : PartId) (x : XferArgs) (store : Bool), CoreOpen s c ∧ s.coreHolder c = some p ∧ ((if store = true then Instr.put c x else Instr.get c x).wf = true) ∧ BitVec.toNat s.cores[c].k[x.kl] % 64 = 0 ∧ 64 ≤ BitVec.toNat s.cores[c].k[x.kl] ∧ s.cores[c].ag[x.ag].cur.toNat / 64 * 64 + BitVec.toNat s.cores[c].k[x.kl] ≤ 3145728 ∧ s.cores[c].ring.sizeLog2 ≠ 0 ∧ s.cores[c].ring.head - s.cores[c].ring.tail < 2 ^ s.cores[c].ring.sizeLog2 ∧ s.isLocal s.cores[c].k[x.ka] = true) ∧
    (∃ (s : State) (c : CoreId) (p : PartId) (kd : Reg4), CoreOpen s c ∧ s.coreHolder c = some p ∧ s.cores[c].ring.sizeLog2 ≠ 0 ∧ s.cores[c].ring.head - s.cores[c].ring.tail < 2 ^ s.cores[c].ring.sizeLog2 ∧ s.isLocal s.cores[c].k[kd] = true) :=
  ⟨⟨cx, 3, 0, ⟨4, 5, 2, 1, true, 3, 1, false, 0⟩, false, by unfold CoreOpen; decide +kernel⟩,
    ⟨cx, 3, 0, 6, by unfold CoreOpen; decide +kernel⟩⟩

/-- States and operands that meet the hypotheses of TransferCompleteWritesItsRecord, clause by clause. -/
theorem test_transfer_complete_writes_its_record :
    (∃ (s : State) (id : ℕ) (x : Xfer) (o : OutcomeCode), List.find? (fun y => y.id == id) s.xfers = some x ∧ x.outcome = some o ∧ x.sent ≤ x.settled ∧ x.kind ≠ XferKind.capsule ∧ s.parts[x.part].claims? = true ∧ s.fields[fieldOf (↑x.core / 48)].failed = false) :=
  ⟨{ cbase with xfers := [xf] }, 4, xf, .failedLink, by decide +kernel⟩

end CoreSlots

/-! ### Witnesses of the statements about syncs -/

namespace Syncs

def cy := { cbase with cores := updAt cbase.cores 3 fun x => { x with sync := x.sync.set 4 { count := 9, fail := 1} } }
def cw := { cy with cores := updAt cy.cores 3 fun x => { x with waiting := some (.counter 4 5), fifo := [(waitBundle (.waitc 4 5), 17), (0, 3)] } }
def cb2 : State := { cy with cores := cy.cores.map fun (x : Machine.Core) => { x with barriers := x.barriers.set 2 1, waiting := some (.barrier 2 1 1 false) } }

/-- States and operands that meet the hypotheses of CountersWaitsAndBarriers, clause by clause. -/
theorem test_counters_waits_and_barriers :
    (∃ (s : State) (c : CoreId), CoreOpen s c) ∧
    (∃ (s : State) (c : CoreId), CoreOpen s c) ∧
    (∃ (s : State) (c : CoreId), CoreOpen s c) ∧
    (∃ (s : State) (c : CoreId) (n : CtrId) (v : W32), CoreOpen s c ∧ BitVec.toNat v ≤ BitVec.toNat s.cores[c].sync[n].count) ∧
    (∃ (s : State) (c : CoreId) (n : CtrId) (v : W32), CoreOpen s c ∧ ¬BitVec.toNat v ≤ BitVec.toNat s.cores[c].sync[n].count) ∧
    (∃ (s : State) (c : CoreId) (q : QId) (k : BitVec 4), CoreOpen s c ∧ 1 ≤ k.toNat ∧ k.toNat ≤ 8 ∧ k.toNat ≤ s.cores[c].queues[q].entries.length) ∧
    (∃ (s : State) (c : CoreId) (q : QId) (k : BitVec 4), CoreOpen s c ∧ 1 ≤ k.toNat ∧ k.toNat ≤ 8 ∧ ¬k.toNat ≤ s.cores[c].queues[q].entries.length) ∧
    (∃ (s : State) (c : CoreId) (q : QId) (k : BitVec 4), CoreOpen s c ∧ 1 ≤ k.toNat ∧ k.toNat ≤ 8 ∧ s.cores[c].queues[q].entries.length + k.toNat ≤ 8) ∧
    (∃ (s : State) (c : CoreId) (q : QId) (k : BitVec 4), CoreOpen s c ∧ 1 ≤ k.toNat ∧ k.toNat ≤ 8 ∧ ¬s.cores[c].queues[q].entries.length + k.toNat ≤ 8) ∧
    (∃ (s : State) (c : CoreId) (m : W16), CoreOpen s c ∧ s.barrierOk c m = true ∧ s.cores[c].vx.storms = []) ∧
    (∃ (s : State) (c : CoreId) (o : SyncOp) (v : Wait) (w : Bundle512) (n : BitVec 48) (r : List (Bundle512 × BitVec 48)), s.cores[c].waiting = some v ∧ v.holds s.cores[c] = true ∧ s.coreLive c = true ∧ s.cores[c].halted = false ∧ s.cores[c].grace = none ∧ (∀ f ∈ s.cores[c].inflight, s.cores[c].beats < f.due) ∧ s.cores[c].fifo = (w, n) :: r ∧ bundleOf w = { emptyBundle with version := 1, sync := o } ∧ (o.wait s.cores[c]).isSome = true) ∧
    (∃ (s : State) (c : CoreId) (b : BitVec 4) (m : W16) (n : ℕ), s.cores[c].waiting = some (Wait.barrier b m n false) ∧ s.barrierMet b m n = true) ∧
    (∃ (s : State) (c : CoreId) (p : PartId) (n : SeqId) (v : BitVec 6), CoreOpen s c ∧ 4 ≤ v.toNat ∧ s.coreHolder c = some p ∧ s.driverOf c = some n ∧ (∃ d ∈ s.seqCores n, d ≠ c ∧ 0 ∉ s.cores[d].raised)) ∧
    (∃ (s : State) (c : CoreId) (p : PartId) (n : SeqId) (v : BitVec 6), CoreOpen s c ∧ 4 ≤ v.toNat ∧ s.coreHolder c = some p ∧ s.driverOf c = some n ∧ (∀ d ∈ s.seqCores n, d ≠ c → 0 ∈ s.cores[d].raised)) :=
  ⟨⟨cy, 3, by unfold CoreOpen; decide +kernel⟩,
    ⟨cy, 3, by unfold CoreOpen; decide +kernel⟩,
    ⟨cy, 3, by unfold CoreOpen; decide +kernel⟩,
    ⟨cy, 3, 4, 5, by unfold CoreOpen; decide +kernel⟩,
    ⟨cy, 3, 4, 50, by unfold CoreOpen; decide +kernel⟩,
    ⟨cy, 3, 2, 2, by unfold CoreOpen; decide +kernel⟩,
    ⟨cy, 3, 2, 5, by unfold CoreOpen; decide +kernel⟩,
    ⟨cy, 3, 2, 6, by unfold CoreOpen; decide +kernel⟩,
    ⟨cy, 3, 2, 7, by unfold CoreOpen; decide +kernel⟩,
    ⟨cy, 3, 1, by unfold CoreOpen; decide +kernel⟩,
    ⟨cw, 3, .waitc 4 5, .counter 4 5, waitBundle (.waitc 4 5), 17, [(0,3)], by decide +kernel⟩,
    ⟨cb2, 3, 2, 1, 1, by decide +kernel⟩,
    ⟨cy, 3, 0, 0, 5, by unfold CoreOpen; decide +kernel⟩,
    ⟨{ cy with cores := cy.cores.map fun x => { x with raised := x.raised ++ [0] } }, 3, 0, 0, 5, by unfold CoreOpen; decide +kernel⟩⟩

end Syncs

/-! ### Witnesses of the statements about matrix -/

namespace Matrix

def cm : State := { cbase with cores := updAt cbase.cores 3 fun x => { x with
  mx := { x.mx with shadow := { entries := [(0, 0x77)], fmt := none }, active := { entries := [(0, 0x1234567), (5, 0x3F803F80)], fmt := some .bf16 } }
  queues := x.queues |>.set 2 (mkQ [⟨0x42, 3, 7, false, false⟩] 0x0212000000000000) |>.set 4 (mkQ [⟨0x44, 5, 9, true, false⟩] 0x0013000000000000)
    |>.set 6 (mkQ [⟨0x3F803F803F80, 5, 7, true, false⟩] 0x0011000000000000) |>.set 7 (mkQ [] 0x0300000000000000)
  ag := x.ag.set 8 { base := 0x300400, cur := 0x300400, stride1 := 512, count1 := 3 } } }
def mx (f : Fmt) (q : QId) (e : BitVec 4) (i : BitVec 10) : MArgs := ⟨f, ⟨q, e⟩, ⟨7, 4⟩, 8, true, 0, false, false, false, i, 0⟩
def fd : Drain := { row := 512, dmode := 0, q := ⟨0,0⟩, cfg := {}, isInt := true, pieces := [], ints := [], chscale := none, rowscale := none, poison := false, outs := 128 }
def cd (d : Drain) : State := { cm with cores := updAt cm.cores 3 fun x => { x with halted := true, drains := true, acc := wrLine [] 512 0xFFFFFFFF00000009, inflight := [{ due := 103, beat := 99, free := 0, rank := 4, res := .drain2 d (List.replicate 128 7), seqIdx := 1, issue := 2, slot := 0 }] } }

/-- States and operands that meet the hypotheses of ArrayConfigurationAndTiles, clause by clause. -/
theorem test_array_configuration_and_tiles :
    (∃ (s : State) (c : CoreId), CoreOpen s c) ∧
    (∃ (s : State) (c : CoreId) (imm : W32), CoreOpen s c ∧ ArrayFree s.cores[c] ∧ (Instr.mcfg c imm).wf = true ∧ s.cores[c].mx.pend = []) ∧
    (∃ (s : State) (c : CoreId), CoreOpen s c) ∧
    (∃ (s : State) (c : CoreId), CoreOpen s c ∧ ArrayFree s.cores[c]) ∧
    (∃ (s : State) (c : CoreId), CoreOpen s c ∧ ArrayFree s.cores[c]) ∧
    (∃ (s : State) (c : CoreId) (x : MArgs) (e : Entry), CoreOpen s c ∧ (Instr.mloadw c x).wf = true ∧ topoPop s.cores[c].queues[x.qa.q].topo = 18 ∧ HeadIs s.cores[c] x.qa x.fmt e ∧ (s.cores[c].mx.cfg.accMode = 1 ∨ x.index.toNat < tileEntries x.fmt) ∧ (s.cores[c].mx.shadow.fmt = none ∨ s.cores[c].mx.shadow.fmt = some x.fmt)) ∧
    (∃ (s : State) (c : CoreId) (x : MArgs) (e : Entry), CoreOpen s c ∧ (Instr.mloads c x).wf = true ∧ topoPop s.cores[c].queues[x.qa.q].topo = 19 ∧ (HeadIs s.cores[c] x.qa (if x.index.toNat < 4 ∨ x.index.toNat = 9 then Fmt.ue8 else Fmt.fp32) e)) :=
  ⟨⟨cm, 3, by unfold CoreOpen; decide +kernel⟩,
    ⟨cm, 3, 0x150, by unfold CoreOpen ArrayFree; decide +kernel⟩,
    ⟨cm, 3, by unfold CoreOpen; decide +kernel⟩,
    ⟨cm, 3, by unfold CoreOpen ArrayFree; decide +kernel⟩,
    ⟨cm, 3, by unfold CoreOpen ArrayFree; decide +kernel⟩,
    ⟨cm, 3, mx .bf16 2 3 5, ⟨0x42, 3, 7, false, false⟩, by unfold HeadIs CoreOpen; decide +kernel⟩,
    ⟨cm, 3, mx .bf16 4 5 5, ⟨0x44, 5, 9, true, false⟩, by unfold HeadIs CoreOpen; decide +kernel⟩⟩

/-- States and operands that meet the hypotheses of MatrixOperationsLatchTheirVectors, clause by clause. -/
theorem test_matrix_operations_latch_their_vectors :
    (∃ (s : State) (c : CoreId) (x : MArgs) (trans : Bool), CoreOpen s c ∧ ((if trans = true then Instr.mmult c x else Instr.mmul c x).wf = true) ∧ Passes ((loneBeat s c).mmulChecks x trans)) ∧
    (∃ (s : State) (c : CoreId) (x : MArgs), CoreOpen s c ∧ (Instr.mew c x).wf = true ∧ Passes ((loneBeat s c).mewChecks x)) ∧
    (∃ (s : State) (c : CoreId) (f : Flight) (d : Drain) (cs : List W32), s.coreDrains c = true ∧ s.cores[c].grace = none ∧ s.cores[c].inflight = [f] ∧ f.res = Result.drain2 d cs ∧ f.rank ≤ 8 ∧ s.cores[c].beats ≤ f.due ∧ d.isInt = true ∧ d.dmode ≠ 1) ∧
    (∃ (s : State) (c : CoreId) (f : Flight) (d : Drain) (cs : List W32), s.coreDrains c = true ∧ s.cores[c].grace = none ∧ s.cores[c].inflight = [f] ∧ f.res = Result.drain2 d cs ∧ f.rank ≤ 8 ∧ s.cores[c].beats ≤ f.due ∧ d.isInt = true ∧ d.dmode = 1) :=
  ⟨⟨cm, 3, mx .bf16 6 5 5, false, by unfold CoreOpen Passes; decide +kernel⟩,
    ⟨cm, 3, mx .bf16 6 5 5, by unfold CoreOpen Passes; decide +kernel⟩,
    ⟨cd fd, 3, { due := 103, beat := 99, free := 0, rank := 4, res := .drain2 fd (List.replicate 128 7), seqIdx := 1, issue := 2, slot := 0 }, fd, List.replicate 128 7, by decide +kernel⟩,
    ⟨cd {fd with dmode := 1}, 3, { due := 103, beat := 99, free := 0, rank := 4, res := .drain2 {fd with dmode := 1} (List.replicate 128 7), seqIdx := 1, issue := 2, slot := 0 }, {fd with dmode := 1}, List.replicate 128 7, by decide +kernel⟩⟩

end Matrix

/-! ### Witnesses of the statements about vectors -/

namespace Vectors

def cv : State := { cbase with cores := updAt cbase.cores 3 fun x => { x with
  vx := { x.vx with regs := Vector.ofFn fun i => ⟨ofLanes 32 ((List.range 64).map fun j => 0x3F800000 + i.val * 0x123456 + j * 0x71234), i.val == 9⟩, updFlag := true, verdict := some ⟨0x3F800000+0x123456, true⟩ , statPoison := true}
  queues := x.queues |>.set 6 (mkQ [⟨0x3F803F803F80, 5, 9, true, false⟩] 0x0014000000000000) |>.set 7 (mkQ [] 0x0400000000000000)
  ag := x.ag.set 8 { base := 0x300400, cur := 0x300400, stride1 := 512, count1 := 3 } } }
def vA (f : Fmt) (imm : W32 := 0) (rnd : BitVec 2 := 0) : VArgs := ⟨f, rnd, .vreg 1, .vreg 2, .vreg 3, .vreg 4, imm⟩
def vB (f : Fmt) (imm : W32 := 0) (rnd : BitVec 2 := 0) : VArgs := ⟨f, rnd, .queue false ⟨6,5⟩, .kreg 2, .acc true 8, .queue false ⟨7,2⟩, imm⟩
def vC (f : Fmt) (imm : W32 := 0) (rnd : BitVec 2 := 0) : VArgs := ⟨f, rnd, .vreg 9, .kreg 2, .kreg 4, .acc true 8, imm⟩

/-- States and operands that meet the hypotheses of ElementWiseVectorOperations, clause by clause. -/
theorem test_element_wise_vector_operations :
    (∃ (s : State) (c : CoreId), CoreOpen s c) ∧
    (∃ (s : State) (c : CoreId) (x : VArgs), CoreOpen s c ∧ (Instr.vmov c x).wf = true ∧ Passes ((loneBeat s c).vecChecks VecOp.mov x)) ∧
    (∃ (s : State) (c : CoreId) (x : VArgs), CoreOpen s c ∧ (Instr.vadd c x).wf = true ∧ Passes ((loneBeat s c).vecChecks VecOp.add x)) ∧
    (∃ (s : State) (c : CoreId) (x : VArgs), CoreOpen s c ∧ (Instr.vsub c x).wf = true ∧ Passes ((loneBeat s c).vecChecks VecOp.sub x)) ∧
    (∃ (s : State) (c : CoreId) (x : VArgs), CoreOpen s c ∧ (Instr.vmul c x).wf = true ∧ Passes ((loneBeat s c).vecChecks VecOp.mul x)) ∧
    (∃ (s : State) (c : CoreId) (x : VArgs), CoreOpen s c ∧ (Instr.vfma c x).wf = true ∧ Passes ((loneBeat s c).vecChecks VecOp.fma x)) ∧
    (∃ (s : State) (c : CoreId) (x : VArgs), CoreOpen s c ∧ (Instr.vmin c x).wf = true ∧ Passes ((loneBeat s c).vecChecks VecOp.min x)) ∧
    (∃ (s : State) (c : CoreId) (x : VArgs), CoreOpen s c ∧ (Instr.vmax c x).wf = true ∧ Passes ((loneBeat s c).vecChecks VecOp.max x)) ∧
    (∃ (s : State) (c : CoreId) (x : VArgs), CoreOpen s c ∧ (Instr.vabs c x).wf = true ∧ Passes ((loneBeat s c).vecChecks VecOp.abs x)) ∧
    (∃ (s : State) (c : CoreId) (x : VArgs), CoreOpen s c ∧ (Instr.vneg c x).wf = true ∧ Passes ((loneBeat s c).vecChecks VecOp.neg x)) ∧
    (∃ (s : State) (c : CoreId) (x : VArgs), CoreOpen s c ∧ (Instr.vcmp c x).wf = true ∧ Passes ((loneBeat s c).vecChecks VecOp.cmp x)) ∧
    (∃ (s : State) (c : CoreId) (x : VArgs), CoreOpen s c ∧ (Instr.vsel c x).wf = true ∧ Passes ((loneBeat s c).vecChecks VecOp.sel x)) ∧
    (∃ (s : State) (c : CoreId) (x : VArgs), CoreOpen s c ∧ (Instr.vand c x).wf = true ∧ Passes ((loneBeat s c).vecChecks VecOp.and x)) ∧
    (∃ (s : State) (c : CoreId) (x : VArgs), CoreOpen s c ∧ (Instr.vor c x).wf = true ∧ Passes ((loneBeat s c).vecChecks VecOp.or x)) ∧
    (∃ (s : State) (c : CoreId) (x : VArgs), CoreOpen s c ∧ (Instr.vxor c x).wf = true ∧ Passes ((loneBeat s c).vecChecks VecOp.xor x)) ∧
    (∃ (s : State) (c : CoreId) (x : VArgs), CoreOpen s c ∧ (Instr.vshl c x).wf = true ∧ Passes ((loneBeat s c).vecChecks VecOp.shl x)) ∧
    (∃ (s : State) (c : CoreId) (x : VArgs), CoreOpen s c ∧ (Instr.vshr c x).wf = true ∧ Passes ((loneBeat s c).vecChecks VecOp.shr x)) :=
  ⟨⟨cv, 3, by unfold CoreOpen; decide +kernel⟩,
    ⟨cv, 3, vC .fp32, by unfold CoreOpen Passes; decide +kernel⟩,
    ⟨cv, 3, vB .fp32, by unfold CoreOpen Passes; decide +kernel⟩,
    ⟨cv, 3, vA .int32, by unfold CoreOpen Passes; decide +kernel⟩,
    ⟨cv, 3, vA .bf16, by unfold CoreOpen Passes; decide +kernel⟩,
    ⟨cv, 3, vB .fp32, by unfold CoreOpen Passes; decide +kernel⟩,
    ⟨cv, 3, vA .int32, by unfold CoreOpen Passes; decide +kernel⟩,
    ⟨cv, 3, vC .fp32, by unfold CoreOpen Passes; decide +kernel⟩,
    ⟨cv, 3, vC .fp32, by unfold CoreOpen Passes; decide +kernel⟩,
    ⟨cv, 3, vC .fp32, by unfold CoreOpen Passes; decide +kernel⟩,
    ⟨cv, 3, vC .fp32 1, by unfold CoreOpen Passes; decide +kernel⟩,
    ⟨cv, 3, vB .fp32 1, by unfold CoreOpen Passes; decide +kernel⟩,
    ⟨cv, 3, vA .int32, by unfold CoreOpen Passes; decide +kernel⟩,
    ⟨cv, 3, vA .int32, by unfold CoreOpen Passes; decide +kernel⟩,
    ⟨cv, 3, vA .int32, by unfold CoreOpen Passes; decide +kernel⟩,
    ⟨cv, 3, vA .int32 5, by unfold CoreOpen Passes; decide +kernel⟩,
    ⟨cv, 3, vC .int32 5, by unfold CoreOpen Passes; decide +kernel⟩⟩

/-- States and operands that meet the hypotheses of ReductionsTopkAndUpdateSteps, clause by clause. -/
theorem test_reductions_topk_and_update_steps :
    (∃ (s : State) (c : CoreId) (x : VArgs), CoreOpen s c ∧ (Instr.rsum c x).wf = true ∧ Passes ((loneBeat s c).vecChecks VecOp.rsum x)) ∧
    (∃ (s : State) (c : CoreId) (x : VArgs), CoreOpen s c ∧ (Instr.rmax c x).wf = true ∧ Passes ((loneBeat s c).vecChecks VecOp.rmax x)) ∧
    (∃ (s : State) (c : CoreId) (x : VArgs), CoreOpen s c ∧ (Instr.vupdm c x).wf = true ∧ Passes ((loneBeat s c).vecChecks VecOp.updm x)) ∧
    (∃ (s : State) (c : CoreId) (x : VArgs), CoreOpen s c ∧ (Instr.vupdv c x).wf = true ∧ Passes ((loneBeat s c).vecChecks VecOp.updv x)) ∧
    (∃ (s : State) (c : CoreId) (x : VArgs), CoreOpen s c ∧ (Instr.vupdw c x).wf = true ∧ Passes ((loneBeat s c).vecChecks VecOp.updw x)) ∧
    (∃ (s : State) (c : CoreId) (x : VArgs), CoreOpen s c ∧ (Instr.topk c x).wf = true ∧ Passes ((loneBeat s c).vecChecks VecOp.topk x)) :=
  ⟨⟨cv, 3, vA .fp32, by unfold CoreOpen Passes; decide +kernel⟩,
    ⟨cv, 3, vB .fp32, by unfold CoreOpen Passes; decide +kernel⟩,
    ⟨cv, 3, vA .fp32 2, by unfold CoreOpen Passes; decide +kernel⟩,
    ⟨cv, 3, vA .fp32 2, by unfold CoreOpen Passes; decide +kernel⟩,
    ⟨cv, 3, vA .fp32 2, by unfold CoreOpen Passes; decide +kernel⟩,
    ⟨cv, 3, vA .fp32 0x4005, by unfold CoreOpen Passes; decide +kernel⟩⟩

/-- States and operands that meet the hypotheses of StatisticsGatesAndStormReports, clause by clause. -/
theorem test_statistics_gates_and_storm_reports :
    (∃ (s : State) (c : CoreId) (x : VArgs), CoreOpen s c ∧ (Instr.amax c x).wf = true ∧ Passes ((loneBeat s c).vecChecks VecOp.amax x)) ∧
    (∃ (s : State) (c : CoreId) (x : VArgs), CoreOpen s c ∧ Passes ((loneBeat s c).vecChecks VecOp.amaxrd x)) ∧
    (∃ (s : State) (c : CoreId) (x : VArgs), CoreOpen s c ∧ (Instr.vcoef c x).wf = true ∧ Passes ((loneBeat s c).vecChecks VecOp.coef x)) ∧
    (∃ (s : State) (c : CoreId) (x : VArgs), CoreOpen s c ∧ (Instr.vgate c x).wf = true ∧ Passes ((loneBeat s c).vecChecks VecOp.gate x)) ∧
    (∃ (s : State) (c : CoreId) (x : VArgs) (i : Instr), CoreOpen s c ∧ (i = Instr.vstormCount c x ∧ bits x.imm 0 2 = 0 ∨ i = Instr.vstormLoss c x ∧ bits x.imm 0 2 = 1 ∨ i = Instr.vstormClose c x ∧ bits x.imm 0 2 = 2) ∧ i.wf = true ∧ Passes ((loneBeat s c).vecChecks VecOp.storm x)) ∧
    (∃ (s : State) (c : CoreId), CoreOpen s c) :=
  ⟨⟨cv, 3, vA .fp32, by unfold CoreOpen Passes; decide +kernel⟩,
    ⟨cv, 3, vA .fp32 2, by unfold CoreOpen Passes; decide +kernel⟩,
    ⟨cv, 3, vA .fp32 3, by unfold CoreOpen Passes; decide +kernel⟩,
    ⟨cv, 3, vA .int32 3, by unfold CoreOpen Passes; decide +kernel⟩,
    ⟨cv, 3, vC .fp32 0, .vstormCount 3 (vC .fp32 0), by unfold CoreOpen Passes; decide +kernel⟩,
    ⟨cv, 3, by unfold CoreOpen; decide +kernel⟩⟩

/-- States and operands that meet the hypotheses of ConversionAndQuantisation, clause by clause. -/
theorem test_conversion_and_quantisation :
    (∃ (s : State) (c : CoreId) (x : VArgs), CoreOpen s c ∧ (Instr.cvt c x).wf = true ∧ Passes ((loneBeat s c).vecChecks VecOp.cvt x) ∧ elemCount x.fmt < elemCount (cvtTarget x) ∧ bit x.imm 14 = true) ∧
    (∃ (s : State) (c : CoreId) (x : VArgs), CoreOpen s c ∧ (Instr.cvt c x).wf = true ∧ Passes ((loneBeat s c).vecChecks VecOp.cvt x) ∧ elemCount x.fmt < elemCount (cvtTarget x) ∧ bit x.imm 14 = false) ∧
    (∃ (s : State) (c : CoreId) (x : VArgs), CoreOpen s c ∧ (Instr.cvt c x).wf = true ∧ Passes ((loneBeat s c).vecChecks VecOp.cvt x) ∧ elemCount (cvtTarget x) ≤ elemCount x.fmt) ∧
    (∃ (s : State) (c : CoreId) (x : VArgs), CoreOpen s c ∧ (Instr.quant c x).wf = true ∧ Passes ((loneBeat s c).vecChecks VecOp.quant x)) :=
  ⟨⟨cv, 3, vA .fp32 0x4107, by unfold CoreOpen Passes; decide +kernel⟩,
    ⟨cv, 3, vA .fp32 0x0105 3, by unfold CoreOpen Passes; decide +kernel⟩,
    ⟨cv, 3, vA .fp32 9, by unfold CoreOpen Passes; decide +kernel⟩,
    ⟨cv, 3, vA .fp32 0x0105, by unfold CoreOpen Passes; decide +kernel⟩⟩

end Vectors

/-! ### Witnesses of the statements about storms -/

namespace Storms

def rs (l : List StormReport) (f : Storm → Storm) (g : Partition → Partition := id): State := (cbase.updCore 3 fun x => { x with vx := { x.vx with storms := l } }).updPart 0 fun x => g { x with storm := f x.storm }
def o5 (x : Storm): Storm := {x with isOpen := true, curStep := 5, closing := some [3,4], firstCtr := 9, lossReports := 1, lossSum := 0x40000000, finiteLoss := true }
def sc (b : List Byte) : Capsule := { seq := 1, kind := 8, target := 255, flags := 0, tag := 77, step := 5, params := List.replicate 32 0, body := b ++ List.replicate (64 - b.length) 0 }
def wcs (f : Storm → Storm) (c : Capsule) : State := (rs [] f).updPart 0 fun x => { x with caps := { x.caps with queue := [c] }, cq := { x.cq with enable := true } }
def sc1 := sc [1,1]
def sc2 := sc ([2,0,3,0,0,0,0,0] ++ leBytes 64 8 ++ leBytes 128 8)
def sc2n := sc ([2,0,3,0,0,0,0,0] ++ leBytes 64 8 ++ leBytes 0x100000000000 8)
def sc3 := sc ([3,0,0,0] ++ leBytes 7 4 ++ leBytes 0 16 ++ leBytes 0x3F800000 4 ++ leBytes 0x40000000 4)

set_option maxRecDepth 20000 in
/-- States and operands that meet the hypotheses of StormWatchCountsAndGates, clause by clause. -/
theorem test_storm_watch_counts_and_gates :
    (∃ (s : State) (c : CoreId) (p : PartId) (r : StormReport) (l : List StormReport) (t : W32) (n : ℕ) (v : W32), s.cores[c].vx.storms = r :: l ∧ s.coreHolder c = some p ∧ (r = StormReport.count t n ∨ r = StormReport.loss t v) ∧ s.parts[p].storm.isOpen = true ∧ s.parts[p].storm.curStep ≠ t) ∧
    (∃ (s : State) (c : CoreId) (p : PartId) (r : StormReport) (l : List StormReport) (t : W32) (v : W32), s.cores[c].vx.storms = r :: l ∧ s.coreHolder c = some p ∧ r = StormReport.loss t v ∧ (s.parts[p].storm.isOpen = false ∨ s.parts[p].storm.curStep = t) ∧ BitVec.toNat v / 2 ^ 23 % 256 ≠ 255) ∧
    (∃ (s : State) (c : CoreId) (p : PartId) (r : StormReport) (l : List StormReport) (t : W32) (v : W32), s.cores[c].vx.storms = r :: l ∧ s.coreHolder c = some p ∧ r = StormReport.loss t v ∧ (s.parts[p].storm.isOpen = false ∨ s.parts[p].storm.curStep = t) ∧ BitVec.toNat v / 2 ^ 23 % 256 = 255) ∧
    (∃ (s : State) (c : CoreId) (p : PartId) (r : StormReport) (l : List StormReport) (t : W32) (n : ℕ), s.cores[c].vx.storms = r :: l ∧ s.coreHolder c = some p ∧ r = StormReport.count t n ∧ (s.parts[p].storm.isOpen = false ∨ s.parts[p].storm.curStep = t)) ∧
    (∃ (s : State) (c : CoreId) (p : PartId) (t : W32) (n : CtrId) (l : List StormReport) (set : List CoreId), s.cores[c].vx.storms = StormReport.close t n :: l ∧ s.coreHolder c = some p ∧ s.parts[p].state = PartState.running ∧ s.parts[p].storm.isOpen = true ∧ s.parts[p].storm.curStep = t ∧ s.parts[p].storm.closing = some set ∧ c ∈ set ∧ (∀ e ∈ s.parts[p].storm.closes, e.1 ≠ c) ∧ (∀ d ∈ set, d ≠ c → ∃ e ∈ s.parts[p].storm.closes, e.1 = d) ∧ (!s.parts[p].storm.mixed && (s.parts[p].storm.policy.enable && s.parts[p].storm.nonfinite != 0 && decide (2 ≤ s.parts[p].storm.policy.nfAction) || s.parts[p].storm.policy.enable && s.parts[p].storm.spike !s.ieee p && s.parts[p].storm.policy.spikeAction != 0 && decide (2 ≤ s.parts[p].storm.policy.spikeAction))) = true ∧ s.parts[p].cmds = [] ∧ s.parts[p].storm.latched = false) ∧
    (∃ (s : State) (c : CoreId) (p : PartId) (t : W32) (n : CtrId) (l : List StormReport) (set : List CoreId), s.cores[c].vx.storms = StormReport.close t n :: l ∧ s.coreHolder c = some p ∧ s.parts[p].state = PartState.running ∧ s.parts[p].storm.isOpen = true ∧ s.parts[p].storm.curStep = t ∧ s.parts[p].storm.closing = some set ∧ c ∈ set ∧ (∀ e ∈ s.parts[p].storm.closes, e.1 ≠ c) ∧ (∀ d ∈ set, d ≠ c → ∃ e ∈ s.parts[p].storm.closes, e.1 = d) ∧ (!s.parts[p].storm.mixed && (s.parts[p].storm.policy.enable && s.parts[p].storm.nonfinite != 0 && decide (2 ≤ s.parts[p].storm.policy.nfAction) || s.parts[p].storm.policy.enable && s.parts[p].storm.spike !s.ieee p && s.parts[p].storm.policy.spikeAction != 0 && decide (2 ≤ s.parts[p].storm.policy.spikeAction))) = false) ∧
    (∃ (s : State) (c : CoreId) (p : PartId) (t : W32) (n : CtrId) (l : List StormReport) (set : List CoreId), s.cores[c].vx.storms = StormReport.close t n :: l ∧ s.coreHolder c = some p ∧ s.parts[p].state = PartState.running ∧ s.parts[p].storm.isOpen = true ∧ s.parts[p].storm.curStep = t ∧ s.parts[p].storm.closing = some set ∧ c ∈ set ∧ (∀ e ∈ s.parts[p].storm.closes, e.1 ≠ c) ∧ (∃ d ∈ set, d ≠ c ∧ ∀ e ∈ s.parts[p].storm.closes, e.1 ≠ d)) ∧
    (∃ (s : State) (c : CoreId) (p : PartId) (t : W32) (n : CtrId) (l : List StormReport), s.cores[c].vx.storms = StormReport.close t n :: l ∧ s.coreHolder c = some p ∧ (s.parts[p].state = PartState.quiesced ∨ s.parts[p].state = PartState.stopped)) ∧
    (∃ (s : State) (p : PartId) (v : Verdict) (cs : List (CoreId × CtrId)) (n : CtrId) (l : List (Verdict × List (CoreId × CtrId) × CtrId)), s.parts[p].storm.deliver = (v, cs, n) :: l ∧ s.parts[p].cmds = []) ∧
    (∃ (s : State) (p : PartId), s.parts[p].storm.deliver = []) ∧
    (∃ (s : State) (p : PartId) (c : Capsule), s.parts[p].caps.queue = [c] ∧ c.kind = kStorm ∧ stormBodyOk c = true ∧ ldNat c.body 0 1 = 2 ∧ (ldNat c.body 16 8 = 0 ∨ s.inWells p (ldNat c.body 8 8) (ldNat c.body 16 8) = true) ∧ (¬(s.parts[p].run.interlude = true ∨ s.parts[p].storm.isOpen = true))) ∧
    (∃ (s : State) (p : PartId) (c : Capsule), s.parts[p].caps.queue = [c] ∧ c.kind = kStorm ∧ stormBodyOk c = true ∧ ldNat c.body 0 1 = 2 ∧ ldNat c.body 16 8 ≠ 0 ∧ s.inWells p (ldNat c.body 8 8) (ldNat c.body 16 8) = false) ∧
    (∃ (s : State) (p : PartId) (c : Capsule), s.parts[p].caps.queue = [c] ∧ c.kind = kStorm ∧ stormBodyOk c = true ∧ ldNat c.body 0 1 = 2 ∧ (ldNat c.body 16 8 = 0 ∨ s.inWells p (ldNat c.body 8 8) (ldNat c.body 16 8) = true) ∧ (s.parts[p].run.interlude = true ∨ s.parts[p].storm.isOpen = true)) ∧
    (∃ (s : State) (p : PartId) (c : Capsule), s.parts[p].caps.queue = [c] ∧ c.kind = kStorm ∧ stormBodyOk c = true ∧ ldNat c.body 0 1 = 3 ∧ (s.parts[p].run.interlude = true ∨ s.parts[p].storm.isOpen = true)) ∧
    (∃ (s : State) (p : PartId) (c : Capsule), s.parts[p].caps.queue = [c] ∧ c.kind = kStorm ∧ stormBodyOk c = true ∧ ldNat c.body 0 1 = 1) ∧
    (∃ (s : State) (p : PartId) (c : Capsule), s.parts[p].caps.queue = [c] ∧ c.kind = kStorm ∧ stormBodyOk c = false) :=
  ⟨⟨rs [.count 5 7] (fun x => {x with isOpen := true, curStep := 4 }), 3, 0, .count 5 7, [], (5:W32), (7:Nat), (5:W32), by decide +kernel⟩,
    ⟨rs [.loss 5 0x3F800000] (fun x => {x with isOpen := true, curStep := 5, lossSum := 0x3F800000 }), 3, 0, .loss 5 0x3F800000, [], (5:W32), (0x3F800000:W32), by decide +kernel⟩,
    ⟨rs [.loss 5 0x7F800000] (fun x => {x with isOpen := true, curStep := 5, lossSum := 0x3F800000 }), 3, 0, .loss 5 0x7F800000, [], (5:W32), (0x7F800000:W32), by decide +kernel⟩,
    ⟨rs [.count 5 7] id, 3, 0, .count 5 7, [], (5:W32), (7:Nat), by decide +kernel⟩,
    ⟨rs [.close 5 7] (fun x => {o5 x with closes := [(4,9)], nonfinite := 1, policy := { enable := true, nfAction := 2 }}), 3, 0, 5, 7, [], [3,4], by decide +kernel⟩,
    ⟨rs [.close 5 7] (fun x => {o5 x with closes := [(4,9)]}), 3, 0, 5, 7, [], [3,4], by decide +kernel⟩,
    ⟨rs [.close 5 7] o5, 3, 0, 5, 7, [], [3,4], by decide +kernel⟩,
    ⟨rs [.close 5 7] o5 (fun x => { x with state := .quiesced}), 3, 0, 5, 7, [], by decide +kernel⟩,
    ⟨rs [] (fun x => { x with deliver := [(⟨5, true⟩, [(3, 7)], 9)] }), 0, ⟨5, true⟩, [(3,7)], 9, [], by decide +kernel⟩,
    ⟨cbase, 0, by decide +kernel⟩,
    ⟨wcs id sc2, 0, sc2, by decide +kernel⟩,
    ⟨wcs id sc2n, 0, sc2n, by decide +kernel⟩,
    ⟨wcs o5 sc2, 0, sc2, by decide +kernel⟩,
    ⟨wcs o5 sc3, 0, sc3, by decide +kernel⟩,
    ⟨wcs (fun x => { x with latched := true, folded := 7 }) sc1, 0, sc1, by decide +kernel⟩,
    ⟨wcs id (sc [1,2]), 0, (sc [1,2]), by decide +kernel⟩⟩

end Storms

/-! ### Witnesses of the statements about memories -/

namespace Memories

def mw (f : MemCtl → MemCtl): State := cbase.updWell 2 fun m => f { m with data := [(640, 9), (700, 8)], logHead := 3 }
def W2 : MemUnit := .well 2
def dd : State := { cbase with wells := Vector.replicate 12 {state := .dead, retrains := 2}, pumps := Vector.replicate 4 {mem := {state := .dead}}, axes := Vector.replicate 3 {dead := true}, sluices := Vector.replicate 4 {dead := true}, fields := Vector.replicate 4 {failed := true} }

/-- States and operands that meet the hypotheses of SectorsAreReadWrittenAndAdded, clause by clause. -/
theorem test_sectors_are_read_written_and_added :
    (∃ (s : State) (w : WellId) (k : ℕ) (n : ℕ) (errs : List ℕ), s.wells[w].state = UnitState.active ∧ k < memSectors (MemUnit.well w) ∧ has s.wells[w].qtn (k / 1024) = false ∧ n = 0 ∧ has s.wells[w].marker k = false ∧ s.wells[w].flipArm = false ∧ (errorBytes (errorBits (s.wells[w].errs.getD k []) errs)).length = 1 ∧ has s.wells[w].corrected k = true ∧ s.wells[w].remap.length < 16 ∧ (∀ r ∈ s.wells[w].remap, r.1 ≠ k)) ∧
    (∃ (s : State) (w : WellId) (k : ℕ) (n : ℕ) (errs : List ℕ), s.wells[w].state = UnitState.active ∧ k < memSectors (MemUnit.well w) ∧ has s.wells[w].qtn (k / 1024) = false ∧ n = 0 ∧ has s.wells[w].marker k = false ∧ s.wells[w].flipArm = false ∧ (errorBytes (errorBits (s.wells[w].errs.getD k []) errs)).length = 1 ∧ has s.wells[w].corrected k = false) ∧
    (∃ (s : State) (w : WellId) (k : ℕ) (n : ℕ) (errs : List ℕ), s.wells[w].state = UnitState.active ∧ k < memSectors (MemUnit.well w) ∧ has s.wells[w].qtn (k / 1024) = false ∧ n = 0 ∧ has s.wells[w].marker k = false ∧ s.wells[w].flipArm = false ∧ (errorBytes (errorBits (s.wells[w].errs.getD k []) errs)).length = 2) ∧
    (∃ (s : State) (w : WellId) (k : ℕ) (n : ℕ) (errs : List ℕ), s.wells[w].state = UnitState.active ∧ k < memSectors (MemUnit.well w) ∧ has s.wells[w].qtn (k / 1024) = false ∧ n = 0 ∧ (has s.wells[w].marker k = true ∨ errorBits (s.wells[w].errs.getD k []) errs = [])) ∧
    (∃ (s : State) (w : WellId) (k : ℕ), s.wells[w].state = UnitState.active ∧ k < memSectors (MemUnit.well w) ∧ has s.wells[w].qtn (k / 1024) = true) ∧
    (∃ (s : State) (w : WellId) (k : ℕ) (poison : Bool), s.wells[w].state = UnitState.active ∧ k < memSectors (MemUnit.well w) ∧ has s.wells[w].qtn (k / 1024) = false ∧ ¬(s.wells[w].flipArm = true ∧ s.wells[w].flipSector.toNat = k ∧ poison = false)) ∧
    (∃ (s : State) (w : WellId) (k : ℕ) (poison : Bool), s.wells[w].state = UnitState.active ∧ k < memSectors (MemUnit.well w) ∧ has s.wells[w].qtn (k / 1024) = false ∧ s.wells[w].flipArm = true ∧ s.wells[w].flipSector.toNat = k ∧ poison = false) ∧
    (∃ (s : State) (w : WellId) (k : ℕ), s.wells[w].state = UnitState.active ∧ k < memSectors (MemUnit.well w) ∧ has s.wells[w].qtn (k / 1024) = true) ∧
    (∃ (s : State) (w : WellId) (k : ℕ) (op : BitVec 2) (poison : Bool), s.wells[w].state = UnitState.active ∧ k < memSectors (MemUnit.well w) ∧ op ≠ 0 ∧ has s.wells[w].qtn (k / 1024) = false ∧ s.wells[w].flipArm = false ∧ (has s.wells[w].marker k = true ∨ s.wells[w].errs.getD k [] = []) ∧ has s.wells[w].marker k = false ∧ poison = false) ∧
    (∃ (s : State) (w : WellId) (k : ℕ) (op : BitVec 2) (poison : Bool), s.wells[w].state = UnitState.active ∧ k < memSectors (MemUnit.well w) ∧ op ≠ 0 ∧ has s.wells[w].qtn (k / 1024) = false ∧ s.wells[w].flipArm = false ∧ (has s.wells[w].marker k = true ∨ s.wells[w].errs.getD k [] = []) ∧ (has s.wells[w].marker k = true ∨ poison = true)) ∧
    (∃ (s : State) (w : WellId) (k : ℕ) (op : BitVec 2), s.wells[w].state = UnitState.active ∧ k < memSectors (MemUnit.well w) ∧ op = 0) ∧
    (∃ (s : State) (u : MemUnit), (s.mem u).state = UnitState.active ∧ has (s.mem u).qtn ((s.mem u).patrolPos % memSectors u / 1024) = false ∧ (has (s.mem u).marker ((s.mem u).patrolPos % memSectors u) = true ∨ (s.mem u).errs.getD ((s.mem u).patrolPos % memSectors u) [] = [])) ∧
    (∃ (s : State) (w : WellId) (k : ℕ), s.wells[w].state = UnitState.selfRefresh ∧ k < memSectors (MemUnit.well w)) ∧
    (∃ (s : State) (w : WellId), (s.wells[w].state = UnitState.out ∨ s.wells[w].state = UnitState.dead)) :=
  ⟨⟨mw (fun m => { m with corrected := [10] }), 2, 10, 0, [5, 6], by decide +kernel⟩,
    ⟨mw id, 2, 10, 0, [5, 6], by decide +kernel⟩,
    ⟨mw id, 2, 10, 0, [5, 16], by decide +kernel⟩,
    ⟨mw id, 2, 10, 0, [], by decide +kernel⟩,
    ⟨mw (fun m => { m with qtn := [0] }), 2, 10, by decide +kernel⟩,
    ⟨mw id, 2, 10, true, by decide +kernel⟩,
    ⟨mw (fun m => { m with flipArm := true, flipSector := 10, flipA := 3}), 2, 10, false, by decide +kernel⟩,
    ⟨mw (fun m => { m with qtn := [0] }), 2, 10, by decide +kernel⟩,
    ⟨mw id, 2, 10, 3, false, by decide +kernel⟩,
    ⟨mw id, 2, 10, 1, true, by decide +kernel⟩,
    ⟨mw id, 2, 10, 0, by decide +kernel⟩,
    ⟨mw id, .well 2, by decide +kernel⟩,
    ⟨mw (fun m => {m with state := .selfRefresh}), 2, 10, by decide +kernel⟩,
    ⟨mw (fun m => {m with state := .out}), 2, by decide +kernel⟩⟩

/-- States and operands that meet the hypotheses of RepairQuarantineFlipAndService, clause by clause. -/
theorem test_repair_quarantine_flip_and_service :
    (∃ (s : State) (u : MemUnit) (k : ℕ), Ready s ∧ (∀ r ∈ (s.mem u).remap, r.1 ≠ k) ∧ (s.mem u).state ≠ UnitState.out ∧ (s.mem u).state ≠ UnitState.dead ∧ (s.mem u).remap.length < 16 ∧ k < memSectors u ∧ (s.mem u).flipArm = false ∧ has (s.mem u).qtn (k / 1024) = false ∧ (has (s.mem u).marker k = true ∨ (s.mem u).errs.getD k [] = [])) ∧
    (∃ (s : State) (u : MemUnit) (k : ℕ), Ready s ∧ (∀ r ∈ (s.mem u).remap, r.1 ≠ k) ∧ ((s.mem u).state = UnitState.out ∨ (s.mem u).state = UnitState.dead ∨ 16 ≤ (s.mem u).remap.length ∨ memSectors u ≤ k)) ∧
    (∃ (s : State) (u : MemUnit) (k : ℕ), Ready s ∧ (∃ r ∈ (s.mem u).remap, r.1 = k)) ∧
    (∃ (s : State) (u : MemUnit), Ready s ∧ s.memHeld u = true) ∧
    (∃ (s : State) (u : MemUnit), Ready s ∧ s.memHeld u = false) ∧
    (∃ (s : State) (u : MemUnit) (g : ℕ), Ready s ∧ has (s.mem u).qtn g = false ∧ (s.mem u).qtn.length < 256 ∧ g < memPages u) ∧
    (∃ (s : State) (u : MemUnit) (g : ℕ), Ready s ∧ has (s.mem u).qtn g = false ∧ (256 ≤ (s.mem u).qtn.length ∨ memPages u ≤ g)) ∧
    (∃ (s : State) (u : MemUnit) (g : ℕ), Ready s ∧ s.pageHeld u g = true) ∧
    (∃ (s : State) (u : MemUnit) (g : ℕ), Ready s ∧ has (s.mem u).qtn g = true) ∧
    (∃ (s : State) (u : MemUnit) (g : ℕ), Ready s ∧ s.pageHeld u g = false) ∧
    (∃ (s : State) (u : MemUnit) (v : W64) (at_ : ℕ), Ready s ∧ BitVec.getLsbD v 0 = true ∧ (∃ p ∈ (s.advanceTo at_).sectorHolder u (64 * (BitVec.toNat v / 64 % 4294967296)), (s.advanceTo at_).parts[p].state ≠ PartState.quiesced)) ∧
    (∃ (s : State) (u : MemUnit) (v : W64) (at_ : ℕ), Ready s ∧ BitVec.getLsbD v 0 = true ∧ (∀ p ∈ (s.advanceTo at_).sectorHolder u (64 * (BitVec.toNat v / 64 % 4294967296)), (s.advanceTo at_).parts[p].state = PartState.quiesced)) ∧
    (∃ (s : State) (v : W64), Ready s ∧ BitVec.getLsbD v 0 = false) ∧
    (∃ (s : State) (u : MemUnit) (at_ : ℕ), ((s.advanceTo at_).mem u).flipArm = true ∧ ((s.advanceTo at_).mem u).flipAt + 1000000000 ≤ (s.advanceTo at_).timeNs) ∧
    (∃ (s : State) (u : MemUnit) (at_ : ℕ), ¬(((s.advanceTo at_).mem u).flipArm = true ∧ ((s.advanceTo at_).mem u).flipAt + 1000000000 ≤ (s.advanceTo at_).timeNs)) ∧
    (∃ (s : State) (u : MemUnit), Ready s ∧ (s.mem u).svcRunning = true) ∧
    (∃ (s : State) (u : MemUnit), Ready s ∧ (s.mem u).svcRunning = false ∧ ((s.mem u).state = UnitState.active ∨ (s.mem u).state = UnitState.selfRefresh) ∧ s.memHeld u = false) ∧
    (∃ (s : State) (u : MemUnit), Ready s ∧ (s.mem u).svcRunning = false ∧ ((s.mem u).state = UnitState.out ∨ (s.mem u).state = UnitState.dead) ∧ s.memHeld u = false) ∧
    (∃ (s : State) (u : MemUnit), Ready s ∧ (s.mem u).svcRunning = false ∧ (¬((s.mem u).state = UnitState.active ∨ (s.mem u).state = UnitState.selfRefresh) ∨ s.memHeld u = true)) ∧
    (∃ (s : State) (u : MemUnit), Ready s ∧ (s.mem u).svcRunning = false ∧ (¬((s.mem u).state = UnitState.out ∨ (s.mem u).state = UnitState.dead) ∨ s.memHeld u = true)) ∧
    (∃ (s : State) (u : MemUnit), (s.mem u).svcRunning = true ∧ s.fields[memField u].failed = false) :=
  ⟨⟨mw id, W2, 10, by unfold Ready; decide +kernel⟩,
    ⟨mw (fun m => {m with remap := (List.range 16).map fun i => (i,false)}), W2, 20, by unfold Ready; decide +kernel⟩,
    ⟨mw (fun m => {m with remap := [(10,false)]}), W2, 10, by unfold Ready; decide +kernel⟩,
    ⟨mw id, W2, by unfold Ready; decide +kernel⟩,
    ⟨{ cbase with parts := State.reset.parts, pumps := State.reset.pumps.map fun x => {x with mem := {x.mem with remap := [(4,true)]}}}, .quarter 1, by unfold Ready; decide +kernel⟩,
    ⟨mw id, W2, 7, by unfold Ready; decide +kernel⟩,
    ⟨mw (fun m => {m with qtn := [7,900000,8]}), W2, 90000000, by unfold Ready; decide +kernel⟩,
    ⟨mw id, W2, 7, by unfold Ready; decide +kernel⟩,
    ⟨mw (fun m => {m with qtn := [7,9000000,8]}), W2, 7, by unfold Ready; decide +kernel⟩,
    ⟨mw (fun m => {m with qtn := [7,900000,8]}), W2, 900000, by unfold Ready; decide +kernel⟩,
    ⟨mw id, W2, 0xFFF0000000001001, 6000000, by unfold Ready; decide +kernel⟩,
    ⟨(mw id).updPart 0 fun x => {x with state := .quiesced}, W2, 0xFFF0000000001003, 6000000, by unfold Ready; decide +kernel⟩,
    ⟨mw id, 0xFFF0000000001000, by unfold Ready; decide +kernel⟩,
    ⟨mw (fun m => {m with flipArm := true}), W2, 1000000000, by decide +kernel⟩,
    ⟨mw (fun m => {m with flipArm := true}), W2, 999999999, by decide +kernel⟩,
    ⟨mw (fun m => {m with svcRunning := true}), W2, by unfold Ready; decide +kernel⟩,
    ⟨{ cbase with parts := State.reset.parts, wells := Vector.replicate 12 {state := .active} }, W2, by unfold Ready; decide +kernel⟩,
    ⟨{ cbase with parts := State.reset.parts, pumps := Vector.replicate 4 {mem := {state := .dead}} }, .quarter 1, by unfold Ready; decide +kernel⟩,
    ⟨mw id, W2, by unfold Ready; decide +kernel⟩,
    ⟨mw id, W2, by unfold Ready; decide +kernel⟩,
    ⟨mw (fun m => {m with svcRunning := true}), W2, by decide +kernel⟩⟩

/-- States and operands that meet the hypotheses of FailedUnitsStopTheirUsers, clause by clause. -/
theorem test_failed_units_stop_their_users :
    (∃ (s : State) (w : WellId), s.wells[w].state ≠ UnitState.dead ∧ Quiet s) ∧
    (∃ (s : State) (u : PumpId), s.pumps[u].mem.state ≠ UnitState.dead) ∧
    (∃ (s : State) (a : AxisId), s.axes[a].dead = false) ∧
    (∃ (s : State) (n : SluiceId), s.sluices[n].dead = false ∧ s.sluicePresent ↑n = true) ∧
    (∃ (s : State) (f : FieldId), s.fields[f].failed = false ∧ Quiet s) ∧
    (∃ (s : State) (w : WellId), s.wells[w].state = UnitState.dead) ∧
    (∃ (s : State) (u : PumpId), s.pumps[u].mem.state = UnitState.dead) ∧
    (∃ (s : State) (a : AxisId), s.axes[a].dead = true) ∧
    (∃ (s : State) (n : SluiceId), s.sluices[n].dead = true) ∧
    (∃ (s : State) (f : FieldId), s.fields[f].failed = true) ∧
    (∃ (s : State) (w : WellId) (ok : Bool), s.wells[w].state ≠ UnitState.dead ∧ s.wells[w].state ≠ UnitState.out ∧ ok = false ∧ 2 ≤ s.wells[w].retrains) ∧
    (∃ (s : State) (w : WellId) (ok : Bool), s.wells[w].state ≠ UnitState.dead ∧ s.wells[w].state ≠ UnitState.out ∧ (ok = true ∨ s.wells[w].retrains < 2)) ∧
    (∃ (s : State) (u : PumpId) (ok : Bool), s.pumps[u].mem.state ≠ UnitState.dead ∧ s.pumps[u].mem.state ≠ UnitState.out ∧ ok = false) ∧
    (∃ (s : State) (u : PumpId) (ok : Bool), s.pumps[u].mem.state ≠ UnitState.dead ∧ s.pumps[u].mem.state ≠ UnitState.out ∧ ok = true) :=
  ⟨⟨cbase, 3, by unfold Quiet SluicesIdle; decide +kernel⟩,
    ⟨cbase, 3, by decide +kernel⟩,
    ⟨cbase, 2, by decide +kernel⟩,
    ⟨cbase, 1, by decide +kernel⟩,
    ⟨cbase, 1, by unfold Quiet SluicesIdle; decide +kernel⟩,
    ⟨dd, 3, by decide +kernel⟩,
    ⟨dd, 3, by decide +kernel⟩,
    ⟨dd, 2, by decide +kernel⟩,
    ⟨dd, 3, by decide +kernel⟩,
    ⟨dd, 3, by decide +kernel⟩,
    ⟨mw (fun m => {m with retrains := 2}), 2, false, by decide +kernel⟩,
    ⟨cbase, 3, true, by decide +kernel⟩,
    ⟨cbase, 2, false, by decide +kernel⟩,
    ⟨cbase, 2, true, by decide +kernel⟩⟩

end Memories

/-! ### Witnesses of the statements about ports -/

namespace Ports

def pb (f : Port → Port) (g : Port → Port := id): State := { cbase with ports := (cbase.ports.map fun x => { x with state := .admitted, nbrAdmitted := true, laneMask := 0xFFFF, hbSeenAt := 4990000, hbSentAt := 4990000 }).set 1 (f { cbase.ports[1] with state := .admitted, nbrAdmitted := true, laneMask := 0xFFFF, hbSeenAt := 4990000, hbSentAt := 4990000, probationAt := 7 }) |>.map g, image := { cbase.image with fabric := { cbase.image.fabric with hbPeriodUs := 10, missLimit := 3, probationMs := 1, reserve := Vector.replicate 12 64, tc0Permille := 10 } } }
def ti (l : BitVec 16) (c : BitVec 15) (d : BitVec 384 := 0): TrainInfo := ⟨l, c, 0, d⟩
def nbc : BitVec 15 := (pb id).neighbour 1
def hb (p : Nat) : Packet := { mkPacket 1 0x08 0 0 0 0 (leBytes 0 3 ++ leBytes p 1 ++ leBytes 0 20) with src := nbc }
def fk (d : BitVec 15) (kind : Byte): Packet := { mkPacket d kind 1 0 0 0 [] with src := nbc }
def tk : Packet := { mkPacket 0x0401 6 0 0 0 0 [] with src := 1 }
def snd4 : State := let s := pb (fun x => {x with scanLane := some 3, laneMask := 0xFFF7}); { s with snd := { s.snd with running := true, runKind := 4, runTarget := 1 } }
def hq : HeldPkt := ⟨4, fk 0x0401 1, some (1,3), 1⟩
def pc (f : Port → Port) : State := let s := pb f (fun x => { x with nbrParked := false }); { s with image := { s.image with fabric := { s.image.fabric with reserve := Vector.replicate 12 9 } } }
def pcp : State := let s := pc id; { s with ports := s.ports.map fun x => { x with parked := true } }

/-- States and operands that meet the hypotheses of PortsTrainHearAndGoDown, clause by clause. -/
theorem test_ports_train_hear_and_go_down :
    (∃ (s : State) (n : PortId) (i : TrainInfo) (at_ : ℕ), (((s.advanceTo at_).boot.state = BootState.fill ∨ (s.advanceTo at_).boot.state = BootState.ready) ∧ 1 < (s.advanceTo at_).image.fabric.dims[portDim n] ∧ (s.advanceTo at_).ports[n].disable = false) ∧ (s.advanceTo at_).ports[n].state = PortState.training ∧ 8 ≤ laneCount i.lanes ∧ i.chip = (s.advanceTo at_).neighbour n ∧ i.port.toNat = ↑n ^^^ 1 ∧ i.digest = (s.advanceTo at_).image.fabric.digest) ∧
    (∃ (s : State) (n : PortId) (i : TrainInfo) (at_ : ℕ), (((s.advanceTo at_).boot.state = BootState.fill ∨ (s.advanceTo at_).boot.state = BootState.ready) ∧ 1 < (s.advanceTo at_).image.fabric.dims[portDim n] ∧ (s.advanceTo at_).ports[n].disable = false) ∧ (s.advanceTo at_).ports[n].state = PortState.training ∧ 8 ≤ laneCount i.lanes ∧ (¬(i.chip = (s.advanceTo at_).neighbour n ∧ i.port.toNat = ↑n ^^^ 1) ∨ i.digest ≠ (s.advanceTo at_).image.fabric.digest)) ∧
    (∃ (s : State) (n : PortId) (i : TrainInfo) (at_ : ℕ), (((s.advanceTo at_).boot.state = BootState.fill ∨ (s.advanceTo at_).boot.state = BootState.ready) ∧ 1 < (s.advanceTo at_).image.fabric.dims[portDim n] ∧ (s.advanceTo at_).ports[n].disable = false) ∧ (s.advanceTo at_).ports[n].state = PortState.training ∧ laneCount i.lanes < 8) ∧
    (∃ (s : State) (n : PortId) (i : TrainInfo) (at_ : ℕ), (((s.advanceTo at_).boot.state = BootState.fill ∨ (s.advanceTo at_).boot.state = BootState.ready) ∧ 1 < (s.advanceTo at_).image.fabric.dims[portDim n] ∧ (s.advanceTo at_).ports[n].disable = false) ∧ (s.advanceTo at_).ports[n].state = PortState.down ∧ 8 ≤ laneCount i.lanes) ∧
    (∃ (s : State) (n : PortId) (at_ : ℕ), (¬(((s.advanceTo at_).boot.state = BootState.fill ∨ (s.advanceTo at_).boot.state = BootState.ready) ∧ 1 < (s.advanceTo at_).image.fabric.dims[portDim n] ∧ (s.advanceTo at_).ports[n].disable = false) ∨ (s.advanceTo at_).ports[n].state = PortState.probation ∨ (s.advanceTo at_).ports[n].state = PortState.admitted)) ∧
    (∃ (s : State) (n : PortId) (bad : BitVec 16) (l : BitVec 4), s.ports[n].state ≠ PortState.down ∧ s.ports[n].scanLane = some l ∧ s.snd.running = true ∧ s.snd.runKind = 4 ∧ BitVec.toNat s.snd.runTarget = ↑n ∧ s.ports[n].laneMask &&& bad ≠ 0) ∧
    (∃ (s : State) (n : PortId) (bad : BitVec 16), s.ports[n].state ≠ PortState.down ∧ s.ports[n].laneMask &&& bad ≠ 0 ∧ s.ports[n].scanLane = none ∧ 8 ≤ laneCount (s.ports[n].laneMask &&& ~~~bad)) ∧
    (∃ (s : State) (n : PortId) (bad : BitVec 16), s.ports[n].state ≠ PortState.down ∧ s.ports[n].laneMask &&& bad ≠ 0 ∧ s.ports[n].scanLane = none ∧ laneCount (s.ports[n].laneMask &&& ~~~bad) < 8) ∧
    (∃ (s : State) (n : PortId) (bad : BitVec 16), (s.ports[n].state = PortState.down ∨ s.ports[n].scanLane = none ∧ s.ports[n].laneMask &&& bad = 0)) ∧
    (∃ (s : State) (n : PortId), s.ports[n].state ≠ PortState.down) ∧
    (∃ (s : State), ¬Ready s) ∧
    (∃ (s : State) (n : PortId), Ready s ∧ s.ports[n].state ≠ PortState.down) ∧
    (∃ (s : State) (n : PortId), Ready s ∧ s.ports[n].state = PortState.down) ∧
    (∃ (s : State) (n : PortId) (k : Packet) (trailer : W64), s.ports[n].state ≠ PortState.down ∧ k.kind = 8 ∧ k.dst = s.chip ∧ trailer = pktTrailer k ∧ s.ports[n].held = []) ∧
    (∃ (s : State) (n : PortId) (k : Packet) (trailer : W64), s.ports[n].state ≠ PortState.down ∧ k.kind = 8 ∧ k.dst = s.chip ∧ trailer ≠ pktTrailer k ∧ s.ports[n].state = PortState.probation) ∧
    (∃ (s : State) (n : PortId) (k : Packet), (s.ports[n].state = PortState.down ∨ k.kind ≠ 8 ∨ k.dst ≠ s.chip)) ∧
    (∃ (s : State) (n : PortId) (at_ : ℕ), (s.advanceTo at_).ports[n].state ≠ PortState.down ∧ (s.advanceTo at_).ports[n].hbSentAt + (s.advanceTo at_).image.fabric.hbPeriodUs * 1000 ≤ (s.advanceTo at_).timeNs ∧ (s.advanceTo at_).ports[n].tc0Queue = [] ∧ 2560 * pktFlits ({ (mkPacket ((s.advanceTo at_).neighbour n) 8 0 0 0 0 (leBytes (s.advanceTo at_).chip.toNat 2 ++ leBytes (↑n) 1 ++ leBytes (s.advanceTo at_).ports[n].state.code 1 ++ leBytes (BitVec.toNat (s.advanceTo at_).ports[n].hbSeq) 4 ++ leBytes (s.advanceTo at_).fabric.repoch.toNat 1 ++ leBytes 0 7 ++ leBytes (s.advanceTo at_).timeNs 8) : Packet) with src := (s.advanceTo at_).chip, repoch := (s.advanceTo at_).fabric.repoch }) ≤ ((s.advanceTo at_).refill n).ports[n].tokens ∧ (s.advanceTo at_).ports[n].held = [] ∧ (s.advanceTo at_).credit n 0 (pktFlits ({ (mkPacket ((s.advanceTo at_).neighbour n) 8 0 0 0 0 (leBytes (s.advanceTo at_).chip.toNat 2 ++ leBytes (↑n) 1 ++ leBytes (s.advanceTo at_).ports[n].state.code 1 ++ leBytes (BitVec.toNat (s.advanceTo at_).ports[n].hbSeq) 4 ++ leBytes (s.advanceTo at_).fabric.repoch.toNat 1 ++ leBytes 0 7 ++ leBytes (s.advanceTo at_).timeNs 8) : Packet) with src := (s.advanceTo at_).chip, repoch := (s.advanceTo at_).fabric.repoch })) = true) ∧
    (∃ (s : State) (n : PortId) (at_ : ℕ), (s.advanceTo at_).ports[n].state ≠ PortState.down ∧ (s.advanceTo at_).ports[n].hbSentAt + (s.advanceTo at_).image.fabric.hbPeriodUs * 1000 ≤ (s.advanceTo at_).timeNs ∧ (s.advanceTo at_).ports[n].state = PortState.probation ∧ (s.advanceTo at_).ports[n].hbSeenAt + (s.advanceTo at_).image.fabric.hbPeriodUs * 1000 < (s.advanceTo at_).timeNs) ∧
    (∃ (s : State) (n : PortId) (at_ : ℕ), (s.advanceTo at_).ports[n].state ≠ PortState.down ∧ (s.advanceTo at_).ports[n].hbSentAt + (s.advanceTo at_).image.fabric.hbPeriodUs * 1000 ≤ (s.advanceTo at_).timeNs ∧ ¬((s.advanceTo at_).ports[n].tc0Queue = [] ∧ 2560 * pktFlits ({ (mkPacket ((s.advanceTo at_).neighbour n) 8 0 0 0 0 (leBytes (s.advanceTo at_).chip.toNat 2 ++ leBytes (↑n) 1 ++ leBytes (s.advanceTo at_).ports[n].state.code 1 ++ leBytes (BitVec.toNat (s.advanceTo at_).ports[n].hbSeq) 4 ++ leBytes (s.advanceTo at_).fabric.repoch.toNat 1 ++ leBytes 0 7 ++ leBytes (s.advanceTo at_).timeNs 8) : Packet) with src := (s.advanceTo at_).chip, repoch := (s.advanceTo at_).fabric.repoch }) ≤ ((s.advanceTo at_).refill n).ports[n].tokens)) ∧
    (∃ (s : State) (n : PortId) (at_ : ℕ), ((s.advanceTo at_).ports[n].state = PortState.down ∨ (s.advanceTo at_).timeNs < (s.advanceTo at_).ports[n].hbSentAt + (s.advanceTo at_).image.fabric.hbPeriodUs * 1000)) ∧
    (∃ (s : State) (n : PortId) (at_ : ℕ), (s.advanceTo at_).ports[n].hbSeenAt + (s.advanceTo at_).image.fabric.missLimit * ((s.advanceTo at_).image.fabric.hbPeriodUs * 1000) ≤ (s.advanceTo at_).timeNs ∧ (s.advanceTo at_).ports[n].state ≠ PortState.down) ∧
    (∃ (s : State) (n : PortId) (at_ : ℕ), ((s.advanceTo at_).timeNs < (s.advanceTo at_).ports[n].hbSeenAt + (s.advanceTo at_).image.fabric.missLimit * ((s.advanceTo at_).image.fabric.hbPeriodUs * 1000) ∨ (s.advanceTo at_).ports[n].state = PortState.down)) :=
  ⟨⟨pb (fun x => { x with state := .training }), 1, ti 0xFFFF nbc, 5000010, by decide +kernel⟩,
    ⟨pb (fun x => { x with state := .training }), 1, ti 0xFFFF nbc 7, 5000010, by decide +kernel⟩,
    ⟨pb (fun x => { x with state := .training }), 1, ti 0xF000 (nbc+1) 7, 5000010, by decide +kernel⟩,
    ⟨pb (fun x => { x with state := .down }), 1, ti 0xFFFF nbc, 5000010, by decide +kernel⟩,
    ⟨pb id, 1, 5000010, by decide +kernel⟩,
    ⟨snd4, 1, 0xFF00, (3 : BitVec 4), by decide +kernel⟩,
    ⟨pb id, 1, 0xF0, by decide +kernel⟩,
    ⟨pb id, 1, 0xFFF0, by decide +kernel⟩,
    ⟨pb (fun x => {x with state := .down}), 1, 0xFFF0, by decide +kernel⟩,
    ⟨pb id, 1, by decide +kernel⟩,
    ⟨{ pb id with boot := {state := .bare} }, by unfold Ready; decide +kernel⟩,
    ⟨pb id, 1, by unfold Ready; decide +kernel⟩,
    ⟨pb (fun x => {x with state := .down}), 1, by unfold Ready; decide +kernel⟩,
    ⟨pb (fun x => {x with nbrAdmitted := false}), 1, hb 3, pktTrailer (hb 3), by decide +kernel⟩,
    ⟨pb (fun x => {x with state := .probation}), 1, hb 3, 0, by decide +kernel⟩,
    ⟨pb (fun x => {x with state := .down}), 1, hb 3, by decide +kernel⟩,
    ⟨pb (fun x => {x with state := .probation}), 1, 5000010, by decide +kernel⟩,
    ⟨pb (fun x => {x with state := .probation}), 1, 5000010, by decide +kernel⟩,
    ⟨pb (fun x => {x with tokens := 3, tokenAt := 5010000}), 1, 5010010, by decide +kernel⟩,
    ⟨pb (fun x => {x with state := .down}), 1, 5010010, by decide +kernel⟩,
    ⟨pb id, 1, 5020010, by decide +kernel⟩,
    ⟨pb id, 1, 5010010, by decide +kernel⟩⟩

/-- States and operands that meet the hypotheses of BlocksFlitsAndHopsOfAPort, clause by clause. -/
theorem test_blocks_flits_and_hops_of_a_port :
    (∃ (s : State) (n : PortId) (burst : ℕ), s.ports[n].state ≠ PortState.down ∧ burst ≤ 8) ∧
    (∃ (s : State) (n : PortId) (burst : ℕ), s.ports[n].state ≠ PortState.down ∧ 8 < burst) ∧
    (∃ (s : State) (n : PortId) (sent : Vector (BitVec 12) 12) (v : VcId), s.ports[n].state ≠ PortState.down ∧ s.ports[n].held = [] ∧ (∀ (w : VcId), w ≠ v → sent[w] = s.ports[n].vcs[w].recv) ∧ sent[v] ≠ s.ports[n].vcs[v].recv ∧ (sent[v] - s.ports[n].vcs[v].recv).toNat < 2048 ∧ s.ports[n].vcs[v].onward = none) ∧
    (∃ (s : State) (n : PortId) (sent : Vector (BitVec 12) 12), s.ports[n].state ≠ PortState.down ∧ s.ports[n].held = [] ∧ (∀ (v : VcId), sent[v] = s.ports[n].vcs[v].recv)) ∧
    (∃ (s : State) (n : PortId) (v : VcId) (m : PortId) (w : VcId) (e : HeldPkt), s.ports[n].vcs[v].inProgress = true ∧ s.ports[n].vcs[v].onward = some (m, w) ∧ s.ports[m].held = [e] ∧ e.via = some (n, v) ∧ e.vc = w) ∧
    (∃ (s : State) (n : PortId) (v : VcId) (m : PortId) (w : VcId), s.ports[n].vcs[v].inProgress = true ∧ s.ports[n].vcs[v].onward = some (m, w) ∧ (∀ e ∈ s.ports[m].held, e.via ≠ some (n, v) ∨ e.vc ≠ w)) ∧
    (∃ (s : State) (n : PortId) (v : VcId), s.ports[n].vcs[v].inProgress = true ∧ s.ports[n].vcs[v].onward = none) ∧
    (∃ (s : State) (n : PortId) (v : VcId), s.ports[n].vcs[v].inProgress = false) ∧
    (∃ (s : State) (n : PortId) (k : Packet) (hcrc : W16) (m : PortId) (w : VcId) (d : Bool) (q : PortId), s.ports[n].state = PortState.admitted ∧ hcrc = pktHcrc k ∧ k.dst ≠ s.chip ∧ s.hop k = Hop.to m w d ∧ s.ports[m].held = [] ∧ q ≠ m ∧ q ≠ n) ∧
    (∃ (s : State) (n : PortId) (k : Packet) (hcrc : W16) (m : PortId) (w : VcId) (d : Bool), s.ports[n].state = PortState.admitted ∧ hcrc = pktHcrc k ∧ k.dst ≠ s.chip ∧ s.hop k = Hop.to m w d ∧ s.ports[m].held = [] ∧ s.maySend m k = true ∧ s.credit m w (pktFlits k) = true) ∧
    (∃ (s : State) (n : PortId) (v : VcId) (k : Packet) (hcrc : W16) (m : PortId) (w : VcId) (d : Bool), s.ports[n].state = PortState.admitted ∧ hcrc = pktHcrc k ∧ k.dst ≠ s.chip ∧ s.hop k = Hop.to m w d ∧ s.ports[m].held = [] ∧ s.ports[n].vcs[v].inProgress = true) ∧
    (∃ (s : State) (n : PortId) (k : Packet) (hcrc : W16) (m : PortId) (w : VcId) (d : Bool), s.ports[n].state = PortState.admitted ∧ hcrc = pktHcrc k ∧ k.dst ≠ s.chip ∧ s.hop k = Hop.to m w d ∧ s.ports[m].held = [] ∧ s.maySend m k = false) ∧
    (∃ (s : State) (n : PortId) (k : Packet) (hcrc : W16), s.ports[n].state = PortState.admitted ∧ hcrc = pktHcrc k ∧ k.dst = s.chip ∧ knownKind k.kind = true) ∧
    (∃ (s : State) (n : PortId) (k : Packet) (hcrc : W16), s.ports[n].state = PortState.admitted ∧ hcrc = pktHcrc k ∧ k.dst = s.chip ∧ knownKind k.kind = false) ∧
    (∃ (s : State) (n : PortId) (k : Packet) (hcrc : W16), s.ports[n].state = PortState.admitted ∧ hcrc ≠ pktHcrc k) ∧
    (∃ (s : State) (n : PortId) (k : Packet) (hcrc : W16), s.ports[n].state ≠ PortState.admitted ∧ s.ports[n].state ≠ PortState.down ∧ hcrc ≠ pktHcrc k ∧ s.ports[n].state = PortState.probation) ∧
    (∃ (s : State) (n : PortId) (k : Packet) (hcrc : W16), s.ports[n].state ≠ PortState.admitted ∧ (s.ports[n].state = PortState.down ∨ hcrc = pktHcrc k)) ∧
    (∃ (s : State) (n : PortId) (at_ : ℕ) (k : Packet), ((s.advanceTo at_).refill n).ports[n].state ≠ PortState.down ∧ ((s.advanceTo at_).refill n).ports[n].tc0Queue = [k] ∧ 2560 * pktFlits k ≤ ((s.advanceTo at_).refill n).ports[n].tokens ∧ ((s.advanceTo at_).refill n).maySend n k = true ∧ ((s.advanceTo at_).refill n).ports[n].held = [] ∧ ((s.advanceTo at_).refill n).credit n (((s.advanceTo at_).refill n).leaveVc n k) (pktFlits k) = true) ∧
    (∃ (s : State) (n : PortId) (at_ : ℕ) (k : Packet), ((s.advanceTo at_).refill n).ports[n].state ≠ PortState.down ∧ ((s.advanceTo at_).refill n).ports[n].tc0Queue = [k] ∧ ((s.advanceTo at_).refill n).ports[n].tokens < 2560 * pktFlits k) ∧
    (∃ (s : State) (n : PortId) (at_ : ℕ), (((s.advanceTo at_).refill n).ports[n].state = PortState.down ∨ ((s.advanceTo at_).refill n).ports[n].tc0Queue = [])) :=
  ⟨⟨pb id, 1, 0, by decide +kernel⟩,
    ⟨pb (fun x => {x with state := .probation}), 1, 9, by decide +kernel⟩,
    ⟨pb (fun x => { x with parked := true, vcs := x.vcs.set 3 { x.vcs[3] with inProgress := true} }), 1, (Vector.replicate 12 0 |>.set 3 7), (3:VcId), by decide +kernel⟩,
    ⟨pb id, 1, Vector.replicate 12 0, by decide +kernel⟩,
    ⟨pb (fun x => { x with parked := true, held := [hq], vcs := x.vcs.set 3 { x.vcs[3] with inProgress := true, onward := some (1, 4)} }), 1, 3, (1:PortId), (4:VcId), hq, by decide +kernel⟩,
    ⟨pb (fun x => { x with parked := true, vcs := x.vcs.set 3 { x.vcs[3] with inProgress := true, onward := some (2, 4)} }), 1, 3, (2:PortId), (4:VcId), by decide +kernel⟩,
    ⟨pb (fun x => { x with parked := true, vcs := x.vcs.set 3 { x.vcs[3] with inProgress := true} }), 1, 3, by decide +kernel⟩,
    ⟨pb id, 1, 3, by decide +kernel⟩,
    ⟨pb id, 1, fk 0x0401 1, pktHcrc (fk 0x0401 1), (0:PortId), (3:VcId), false, (2:PortId), by decide +kernel⟩,
    ⟨pb id, 1, fk 0x0401 1, pktHcrc (fk 0x0401 1), (0:PortId), (3:VcId), false, by decide +kernel⟩,
    ⟨pc (fun x => {x with vcs := x.vcs.set 3 { x.vcs[3] with inProgress := true }}), 1, 3, fk 0x0401 1, pktHcrc (fk 0x0401 1), (0:PortId), (3:VcId), false, by decide +kernel⟩,
    ⟨pcp, 1, fk 0x0401 1, pktHcrc (fk 0x0401 1), (0:PortId), (3:VcId), false, by decide +kernel⟩,
    ⟨pb id, 1, fk 1 1, pktHcrc (fk 1 1), by decide +kernel⟩,
    ⟨pb id, 1, fk 1 0x30, pktHcrc (fk 1 0x30), by decide +kernel⟩,
    ⟨pb id, 1, fk 0x0401 1, 0, by decide +kernel⟩,
    ⟨pc (fun x => {x with state := .probation}), 1, fk 1 0x30, 5, by decide +kernel⟩,
    ⟨pb (fun x => {x with state := .down}), 1, fk 1 0x30, pktHcrc (fk 1 0x30), by decide +kernel⟩,
    ⟨pb (fun x => {x with tc0Queue := [tk], tokens := 40960 }), 1, 5000010, tk, by decide +kernel⟩,
    ⟨pc (fun x => {x with tc0Queue := [tk], tokens := 4, tokenAt := 5000010 }), 1, 5000010, tk, by decide +kernel⟩,
    ⟨pb id, 1, 5000010, by decide +kernel⟩⟩

end Ports

/-! ### Witnesses of the statements about streams -/

namespace Streams

def pk (f : Fabric → Fabric := id) : State := { cbase with ports := cbase.ports.map fun x => { x with state := .admitted, nbrAdmitted := true, laneMask := 0xFFFF }, image := { cbase.image with fabric := { cbase.image.fabric with dims := #v[1,1,4], reserve := Vector.replicate 12 64, tc0Permille := 10, pair := Vector.ofFn id } }, fabric := f cbase.fabric }
def wp (off : Nat) (pl : List Byte) (kind : Byte := 1) (tc : BitVec 2 := 1): Packet := { mkPacket 1 kind tc 0 0 off pl with src := 2, psn := 5, floor := 5 }
def b64 : List Byte := (List.range 64).map fun i => BitVec.ofNat 8 (i+1)
def k1 := wp (coreBase + 0x400000*5 + 128) b64
def xs (s : State) (x : DstStream): State := { s with fabric := { s.fabric with dst := [(9, x)] } }
def L : List Byte := []
def rq := wp (coreBase + 0x400000*3 + 0x1100) (leBytes 0x999 8 ++ leBytes 64 4 ++ leBytes 0 4) 2
def xo : Xfer := { id := 4, kind := .put, part := 0, tag := 1, src := 0, dst := 0, length := 64, sent := 1, remote := true }
def oo (at_ : BitVec 3): OutPacket := { pkt := { mkPacket 2 1 1 0 0 0 b64 with src := 1, psn := 5, attempt := at_ }, item := .xfer 4, firstAt := 4000000, nextAt := 5000000 }
def so (o : OutPacket) (x : Xfer): State := { pk with fabric := { (pk).fabric with src := [(9, { next := 6, floor := 5, out := [o] })] }, xfers := [x] }
def ak (cum : Nat) := wp 0 (ackPayload 1 { cum := BitVec.ofNat 32 cum }) 5 0
def nk (c : Nat) (p : W32) := wp 0 (nakPayload 1 c p) 6 0
def ro : OutPacket := { pkt := { mkPacket 2 2 1 0 0 0 (leBytes 0x999 8 ++ leBytes 64 4 ++ leBytes 0 4) with src := 1, psn := 5 }, item := .xfer 4, from_ := some (BitVec.ofNat 64 (coreBase + 0x400000*5 + 128)), firstAt := 4000000, nextAt := 5000000 }
def rx : Xfer := { xo with kind := .get, dst := BitVec.ofNat 64 ((1 <<< 49) + coreBase + 0x400000*5 + 128) }
def rdk : Packet := { wp 0x999 b64 3 with psn := 5 }
def oa : OutPacket := { oo 2 with from_ := some (BitVec.ofNat 64 (coreBase + 0x400000*3 + 0x1100)) }

/-- States and operands that meet the hypotheses of PacketsOfAStreamAreAppliedOnce, clause by clause. -/
theorem test_packets_of_a_stream_are_applied_once :
    (∃ (s : State) (n : PortId) (k : Packet), s.mine n k = true ∧ k.kind = 1 ∧ 1 ≠ 2 ∧ s.isFenced k.src = false ∧ (s.dstStream (pktStream k)).started = true ∧ (s.dstStream (pktStream k)).has k.psn = true ∧ (s.dstStream (pktStream k)).floor = k.floor ∧ (s.dstStream (pktStream k)).delivered = [] ∧ (s.dstStream (pktStream k)).held = [] ∧ seqLt (s.dstStream (pktStream k)).cum (s.dstStream (pktStream k)).floor = false) ∧
    (∃ (s : State) (n : PortId) (k : Packet) (tr : W64) (c : ℕ), s.mine n k = true ∧ k.kind = 4 ∧ NextOfStream k s ∧ tr = pktTrailer k ∧ ((if 4 = 1 then s.wholeWriteRefusal k else if 4 = 2 then s.readRefusal k else s.signalRefusal k) = some c) ∧ Reaches k.src s) ∧
    (∃ (s : State) (n : PortId) (k : Packet) (tr : W64) (c : ℕ), s.mine n k = true ∧ k.kind = 2 ∧ NextOfStream k s ∧ tr = pktTrailer k ∧ ((if 2 = 1 then s.wholeWriteRefusal k else if 2 = 2 then s.readRefusal k else s.signalRefusal k) = some c) ∧ Reaches k.src s) ∧
    (∃ (s : State) (n : PortId) (k : Packet), s.mine n k = true ∧ k.kind = 1 ∧ s.isFenced k.src = true ∧ Reaches k.src s) ∧
    (∃ (s : State) (n : PortId) (k : Packet), s.mine n k = true ∧ k.kind = 4 ∧ 4 ≠ 2 ∧ s.isFenced k.src = false) ∧
    (∃ (s : State) (n : PortId) (k : Packet), (s.mine n k = false ∨ k.kind ≠ 1)) ∧
    (∃ (s : State) (n : PortId) (k : Packet), (s.mine n k = false ∨ k.kind ≠ 2)) ∧
    (∃ (s : State) (n : PortId) (k : Packet), (s.mine n k = false ∨ k.kind ≠ 4)) ∧
    (∃ (s : State) (n : PortId) (k : Packet) (c : CoreId) (a : ℕ), s.mine n k = true ∧ k.kind = 1 ∧ NextOfStream k s ∧ k.op = 0 ∧ s.wholeWriteRefusal k = none ∧ k.payload.length = 64 ∧ s.viewLoc k.dstPart k.addr.toNat = some (Loc.core c a) ∧ s.locGone (Loc.core c a) = false ∧ a < 3145728) ∧
    (∃ (s : State) (n : PortId) (k : Packet) (w : WellId) (a : ℕ), s.mine n k = true ∧ k.kind = 1 ∧ NextOfStream k s ∧ k.op = 0 ∧ s.wholeWriteRefusal k = none ∧ k.payload.length = 64 ∧ s.viewLoc k.dstPart k.addr.toNat = some (Loc.mem (MemUnit.well w) a) ∧ s.locGone (Loc.mem (MemUnit.well w) a) = false ∧ has s.wells[w].qtn (a / 65536) = false) ∧
    (∃ (s : State) (n : PortId) (k : Packet), s.mine n k = true ∧ k.kind = 4 ∧ NextOfStream k s ∧ s.signalRefusal k = none) ∧
    (∃ (s : State) (n : PortId) (k : Packet) (c : CoreId) (a : ℕ), s.mine n k = true ∧ k.kind = 2 ∧ NextOfStream k s ∧ s.readRefusal k = none ∧ ldNat k.payload 8 4 = 64 ∧ s.viewLoc k.dstPart k.addr.toNat = some (Loc.core c a) ∧ s.locGone (Loc.core c a) = false ∧ a < 3145728 ∧ (k.ord = false ∨ (s.dstStream (pktStream k)).cum = k.psn) ∧ Reaches k.src s) ∧
    (∃ (s : State) (src : BitVec 15) (tc : BitVec 2) (n : PortId) (k : Packet), (s.dstStream (streamKey src tc)).held = [(n, k)] ∧ k.psn = (s.dstStream (streamKey src tc)).cum ∧ k.src = src ∧ k.tc = tc ∧ k.kind = 4 ∧ (s.dstStream (streamKey src tc)).started = true ∧ (s.dstStream (streamKey src tc)).delivered = []) ∧
    (∃ (s : State) (src : BitVec 15) (tc : BitVec 2), (∀ e ∈ (s.dstStream (streamKey src tc)).held, e.2.psn ≠ (s.dstStream (streamKey src tc)).cum)) ∧
    (∃ (s : State) (src : BitVec 15) (tc : BitVec 2), (s.dstStream (streamKey src tc)).ackDue = true ∧ Reaches src s) ∧
    (∃ (s : State) (src : BitVec 15) (tc : BitVec 2), (s.dstStream (streamKey src tc)).ackDue = false) :=
  ⟨⟨xs pk {started := true, cum := 6, floor := 5}, 5, k1, by decide +kernel⟩,
    ⟨pk, 5, wp 0xFFFF L 4, pktTrailer (wp 0xFFFF L 4), (0x15 : Nat), by unfold Reaches NextOfStream; decide +kernel⟩,
    ⟨pk, 5, wp 0xFFFF L 2, pktTrailer (wp 0xFFFF L 2), (0x15 : Nat), by unfold Reaches NextOfStream; decide +kernel⟩,
    ⟨pk (fun f => {f with fenced := [2]}), 5, k1, by unfold Reaches; decide +kernel⟩,
    ⟨pk, 5, wp 0xFFFF L 4, by decide +kernel⟩,
    ⟨pk, 5, { k1 with dst := 3 }, by decide +kernel⟩,
    ⟨pk, 5, { k1 with dst := 3 }, by decide +kernel⟩,
    ⟨pk, 5, { k1 with dst := 3 }, by decide +kernel⟩,
    ⟨pk, 5, k1, (5:CoreId), (128:Nat), by unfold NextOfStream; decide +kernel⟩,
    ⟨pk, 5, {wp 0x1240 b64 with poison := true}, (2:WellId), (576:Nat), by unfold NextOfStream; decide +kernel⟩,
    ⟨pk, 5, wp 0x0507 L 4, by unfold NextOfStream; decide +kernel⟩,
    ⟨pk, 5, rq, 3, 0x1100, by unfold Reaches NextOfStream; decide +kernel⟩,
    ⟨xs pk {started := true, cum := 5, floor := 5, held := [(5, wp 0x0507 L 4)]}, 2, 1, 5, wp 0x0507 L 4, by decide +kernel⟩,
    ⟨xs pk {started := true, cum := 4, floor := 4, held := [(5, wp 0x0507 L 4)]}, 2, 1, by decide +kernel⟩,
    ⟨xs pk {started := true, cum := 4, floor := 4, delivered := [6], ackDue := true}, 2, 1, by unfold Reaches; decide +kernel⟩,
    ⟨xs pk {started := true, cum := 4, floor := 4, delivered := [6]}, 2, 1, by decide +kernel⟩⟩

/-- States and operands that meet the hypotheses of SettledPacketsMoveTheirItems, clause by clause. -/
theorem test_settled_packets_move_their_items :
    (∃ (s : State) (n : PortId) (k : Packet) (tr : W64) (o : OutPacket) (x : Xfer) (code : ℕ) (r : OutcomeCode), s.mine n k = true ∧ s.isFenced k.src = false ∧ (s.srcStream (streamKey k.src (BitVec.ofNat 2 (ldNat k.payload 0 1)))).out = [o] ∧ (s.srcStream (streamKey k.src (BitVec.ofNat 2 (ldNat k.payload 0 1)))).queue = [] ∧ o.item = ItemRef.xfer x.id ∧ s.xfers = [x] ∧ o.pkt.kind = 1 ∧ k.kind = 6 ∧ tr = pktTrailer k ∧ ldNat k.payload 1 1 = code ∧ BitVec.ofNat 32 (ldNat k.payload 4 4) = o.pkt.psn ∧ (code, r) ∈ [(21, OutcomeCode.refusedOwner), (22, OutcomeCode.refusedState), (17, OutcomeCode.failedFenced)]) ∧
    (∃ (s : State) (n : PortId) (k : Packet) (tr : W64) (o : OutPacket) (x : Xfer), s.mine n k = true ∧ s.isFenced k.src = false ∧ (s.srcStream (streamKey k.src (BitVec.ofNat 2 (ldNat k.payload 0 1)))).out = [o] ∧ (s.srcStream (streamKey k.src (BitVec.ofNat 2 (ldNat k.payload 0 1)))).queue = [] ∧ o.item = ItemRef.xfer x.id ∧ s.xfers = [x] ∧ o.pkt.kind = 1 ∧ k.kind = 5 ∧ tr = pktTrailer k ∧ ackCovers (BitVec.ofNat 32 (ldNat k.payload 4 4)) (ldNat k.payload 8 16) o.pkt.psn = true) ∧
    (∃ (s : State) (n : PortId) (k : Packet) (tr : W64) (o : OutPacket) (x : Xfer), s.mine n k = true ∧ s.isFenced k.src = false ∧ (s.srcStream (streamKey k.src (BitVec.ofNat 2 (ldNat k.payload 0 1)))).out = [o] ∧ (s.srcStream (streamKey k.src (BitVec.ofNat 2 (ldNat k.payload 0 1)))).queue = [] ∧ o.item = ItemRef.xfer x.id ∧ s.xfers = [x] ∧ o.pkt.kind = 1 ∧ k.kind = 5 ∧ (tr ≠ pktTrailer k ∨ ackCovers (BitVec.ofNat 32 (ldNat k.payload 4 4)) (ldNat k.payload 8 16) o.pkt.psn = false)) ∧
    (∃ (s : State) (n : PortId) (k : Packet) (tr : W64) (o : OutPacket) (x : Xfer), s.mine n k = true ∧ s.isFenced k.src = false ∧ (s.srcStream (streamKey k.src (BitVec.ofNat 2 (ldNat k.payload 0 1)))).out = [o] ∧ (s.srcStream (streamKey k.src (BitVec.ofNat 2 (ldNat k.payload 0 1)))).queue = [] ∧ o.item = ItemRef.xfer x.id ∧ s.xfers = [x] ∧ o.pkt.kind = 1 ∧ k.kind = 6 ∧ (tr ≠ pktTrailer k ∨ BitVec.ofNat 32 (ldNat k.payload 4 4) ≠ o.pkt.psn)) ∧
    (∃ (s : State) (n : PortId) (k : Packet), (s.mine n k = false ∨ k.kind ≠ 5)) ∧
    (∃ (s : State) (n : PortId) (k : Packet), (s.mine n k = false ∨ k.kind ≠ 6)) ∧
    (∃ (s : State) (n : PortId) (k : Packet), (s.mine n k = false ∨ k.kind ≠ 3)) ∧
    (∃ (s : State) (dst : BitVec 15) (tc : BitVec 2) (psn : W32) (at_ : ℕ) (o : OutPacket) (a : W64) (c : CoreId) (b : ℕ), ((s.advanceTo at_).srcStream (streamKey dst tc)).out = [o] ∧ ((s.advanceTo at_).srcStream (streamKey dst tc)).queue = [] ∧ o.pkt.psn = psn ∧ o.nextAt ≤ (s.advanceTo at_).timeNs ∧ o.pkt.attempt ≠ 7 ∧ o.from_ = some a ∧ o.pkt.kind = 1 ∧ o.pkt.payload.length = 64 ∧ (s.advanceTo at_).itemHost o.item = false ∧ (s.advanceTo at_).parts[o.pkt.srcPart].claims? = true ∧ (s.advanceTo at_).viewLoc o.pkt.srcPart (BitVec.toNat a) = some (Loc.core c b) ∧ (s.advanceTo at_).locGone (Loc.core c b) = false ∧ b < 3145728) ∧
    (∃ (s : State) (dst : BitVec 15) (tc : BitVec 2) (psn : W32) (at_ : ℕ) (o : OutPacket) (x : Xfer), ((s.advanceTo at_).srcStream (streamKey dst tc)).out = [o] ∧ ((s.advanceTo at_).srcStream (streamKey dst tc)).queue = [] ∧ o.pkt.psn = psn ∧ o.nextAt ≤ (s.advanceTo at_).timeNs ∧ o.pkt.attempt = 7 ∧ o.item = ItemRef.xfer x.id ∧ (s.advanceTo at_).xfers = [x] ∧ o.pkt.kind = 1) ∧
    (∃ (s : State) (dst : BitVec 15) (tc : BitVec 2) (psn : W32) (at_ : ℕ) (o : OutPacket), ((s.advanceTo at_).srcStream (streamKey dst tc)).out = [o] ∧ ((s.advanceTo at_).srcStream (streamKey dst tc)).queue = [] ∧ o.pkt.psn = psn ∧ o.nextAt ≤ (s.advanceTo at_).timeNs ∧ o.pkt.attempt ≠ 7 ∧ (o.from_ = none ∨ o.pkt.kind = 2) ∧ (s.advanceTo at_).renewOf (streamKey dst tc) o = none) ∧
    (∃ (s : State) (dst : BitVec 15) (tc : BitVec 2) (psn : W32) (at_ : ℕ) (o : OutPacket), ((s.advanceTo at_).srcStream (streamKey dst tc)).out = [o] ∧ ((s.advanceTo at_).srcStream (streamKey dst tc)).queue = [] ∧ o.pkt.psn = psn ∧ (s.advanceTo at_).timeNs < o.nextAt) ∧
    (∃ (s : State) (n : PortId) (k : Packet) (o : OutPacket) (x : Xfer) (c : CoreId) (a : ℕ) (b0 : W64), s.mine n k = true ∧ s.isFenced k.src = false ∧ k.kind = 3 ∧ k.payload.length = 64 ∧ k.poison = false ∧ (s.srcStream (streamKey k.src k.tc)).out = [o] ∧ (s.srcStream (streamKey k.src k.tc)).queue = [] ∧ o.pkt.psn = k.psn ∧ o.pkt.kind = 2 ∧ ldNat o.pkt.payload 8 4 = 64 ∧ o.item = ItemRef.xfer x.id ∧ s.xfers = [x] ∧ x.dstHost = false ∧ s.isLocal x.dst = true ∧ x.op = 0 ∧ o.renews = none ∧ o.from_ = some b0 ∧ s.viewLoc x.part (BitVec.toNat b0) = some (Loc.core c a) ∧ s.locGone (Loc.core c a) = false ∧ a < 3145728) ∧
    (∃ (s : State) (n : PortId) (k : Packet), s.mine n k = true ∧ s.isFenced k.src = false ∧ k.kind = 3 ∧ (∀ o ∈ (s.srcStream (streamKey k.src k.tc)).out, o.pkt.psn ≠ k.psn)) :=
  ⟨⟨so (oo 0) xo, 5, nk 0x15 5, pktTrailer (nk 0x15 5), oo 0, xo, (0x15:Nat), OutcomeCode.refusedOwner, by decide +kernel⟩,
    ⟨so (oo 0) xo, 5, ak 6, pktTrailer (ak 6), oo 0, xo, by decide +kernel⟩,
    ⟨so (oo 0) xo, 5, ak 5, pktTrailer (ak 5), oo 0, xo, by decide +kernel⟩,
    ⟨so (oo 0) xo, 5, nk 0x15 6, pktTrailer (nk 0x15 6), oo 0, xo, by decide +kernel⟩,
    ⟨so (oo 0) xo, 5, rq, by decide +kernel⟩,
    ⟨so (oo 0) xo, 5, rq, by decide +kernel⟩,
    ⟨so (oo 0) xo, 5, rq, by decide +kernel⟩,
    ⟨so oa xo, 2, 1, 5, 5000007, oa, (BitVec.ofNat 64 (coreBase + 0x400000*3 + 0x1100)), (3:CoreId), (0x1100:Nat), by decide +kernel⟩,
    ⟨so (oo 7) xo, 2, 1, 5, 5000007, oo 7, xo, by decide +kernel⟩,
    ⟨so (oo 0) xo, 2, 1, 5, 5000007, oo 0, by decide +kernel⟩,
    ⟨so {oo 7 with nextAt := 6000000} xo, 2, 1, 5, 5000007, {oo 7 with nextAt := 6000000}, by decide +kernel⟩,
    ⟨so ro rx, 5, rdk, ro, rx, 5, 128, BitVec.ofNat 64 (coreBase + 0x400000*5 + 128), by decide +kernel⟩,
    ⟨so ro rx, 5, {rdk with psn := 6}, by decide +kernel⟩⟩

end Streams

/-! ### Witnesses of the statements about fences -/

namespace Fences

def gk (f : Fabric → Fabric := id) : State := { cbase with ports := cbase.ports.map fun x => { x with state := .admitted, nbrAdmitted := true, laneMask := 0xFFFF }, image := { cbase.image with fabric := { cbase.image.fabric with dims := #v[1,1,4], gateways := [2,3], reserve := Vector.replicate 12 64, tc0Permille := 10, pair := Vector.ofFn id }, owner := Vector.replicate 128 2 }, fabric := f { cbase.fabric with fmTx := #v[1,2,3] } }
def fkt (kind : Byte) (pl : List Byte) (src : BitVec 15 := 2): Packet := { mkPacket 1 kind 0 0 0 0 pl with src := src, psn := 5, floor := 5 }
def fe (a c e g : Nat) : List Byte := leBytes a 2 ++ leBytes c 2 ++ leBytes e 4 ++ leBytes g 4 ++ leBytes 0 4
def fka (a c e g : Nat) (src : BitVec 15 := 2) := fkt 0x0B (fe a c e g) src
def g1 (f : Fabric → Fabric := id) : State := { gk f with image := { (gk f).image with fabric := { (gk f).image.fabric with gateways := [1,2] } } }
def emk (e q g : Nat) := fkt 0x0C (leBytes e 4 ++ leBytes q 4 ++ leBytes g 4 ++ leBytes 0 4)
def cpk (src : BitVec 15 := 2) := fkt 0x09 (leBytes 5 4 ++ leBytes 77 4 ++ leBytes 0x280 8 ++ leBytes 9 8) src
def cr := fkt 0x0A (leBytes 5 4 ++ leBytes 77 4 ++ leBytes 0 16)
def co : OutPacket := { pkt := { mkPacket 2 9 0 0 0 0 (leBytes 5 4 ++ leBytes 77 4 ++ leBytes 0 16) with src := 1, psn := 5 }, item := .none, firstAt := 4000000, nextAt := 5000000 }

/-- States and operands that meet the hypotheses of FencesAndReadmissionsAreTakenOnce, clause by clause. -/
theorem test_fences_and_readmissions_are_taken_once :
    (∃ (s : State) (n : PortId) (k : Packet) (tr : W64), s.ports[n].state ≠ PortState.down ∧ k.kind = 11 ∧ tr = pktTrailer k ∧ k.src.toNat ∈ s.image.fabric.gateways ∧ BitVec.toNat (s.genRecord 2) ≤ (BitVec.ofNat 32 (ldNat k.payload 8 4)).toNat ∧ BitVec.toNat s.fabric.fenceEpoch < (BitVec.ofNat 32 (ldNat k.payload 4 4)).toNat ∧ ldNat k.payload 0 1 = 1 ∧ s.genRecord 2 = BitVec.ofNat 32 (ldNat k.payload 8 4) ∧ k.src ≠ s.chip ∧ Reaches k.src s) ∧
    (∃ (s : State) (n : PortId) (k : Packet) (tr : W64) (at_ : ℕ), s.ports[n].state ≠ PortState.down ∧ k.kind = 11 ∧ tr = pktTrailer k ∧ k.src.toNat ∈ s.image.fabric.gateways ∧ BitVec.toNat (s.genRecord 2) ≤ (BitVec.ofNat 32 (ldNat k.payload 8 4)).toNat ∧ BitVec.toNat s.fabric.fenceEpoch < (BitVec.ofNat 32 (ldNat k.payload 4 4)).toNat ∧ ldNat k.payload 0 1 = 2 ∧ BitVec.ofNat 15 (ldNat k.payload 2 2) ≠ s.chip ∧ s.fabric.fencedAt.find (BitVec.ofNat 15 (ldNat k.payload 2 2)).toNat = some at_ ∧ at_ + 2000000 ≤ s.timeNs) ∧
    (∃ (s : State) (n : PortId) (k : Packet) (tr : W64) (at_ : ℕ), s.ports[n].state ≠ PortState.down ∧ k.kind = 11 ∧ tr = pktTrailer k ∧ k.src.toNat ∈ s.image.fabric.gateways ∧ BitVec.toNat (s.genRecord 2) ≤ (BitVec.ofNat 32 (ldNat k.payload 8 4)).toNat ∧ BitVec.toNat s.fabric.fenceEpoch < (BitVec.ofNat 32 (ldNat k.payload 4 4)).toNat ∧ ldNat k.payload 0 1 = 2 ∧ BitVec.ofNat 15 (ldNat k.payload 2 2) ≠ s.chip ∧ s.fabric.fencedAt.find (BitVec.ofNat 15 (ldNat k.payload 2 2)).toNat = some at_ ∧ s.timeNs < at_ + 2000000) ∧
    (∃ (s : State) (n : PortId) (k : Packet) (tr : W64), s.ports[n].state ≠ PortState.down ∧ k.kind = 11 ∧ tr = pktTrailer k ∧ k.src.toNat ∈ s.image.fabric.gateways ∧ BitVec.toNat (s.genRecord 2) ≤ (BitVec.ofNat 32 (ldNat k.payload 8 4)).toNat ∧ BitVec.toNat s.fabric.fenceEpoch < (BitVec.ofNat 32 (ldNat k.payload 4 4)).toNat ∧ ldNat k.payload 0 1 = 1 ∧ BitVec.toNat (s.genRecord 2) < (BitVec.ofNat 32 (ldNat k.payload 8 4)).toNat) ∧
    (∃ (s : State) (n : PortId) (k : Packet) (tr : W64), s.ports[n].state ≠ PortState.down ∧ k.kind = 11 ∧ (¬(tr = pktTrailer k ∧ k.src.toNat ∈ s.image.fabric.gateways ∧ BitVec.toNat (s.genRecord 2) ≤ (BitVec.ofNat 32 (ldNat k.payload 8 4)).toNat ∧ BitVec.toNat s.fabric.fenceEpoch < (BitVec.ofNat 32 (ldNat k.payload 4 4)).toNat) ∨ ldNat k.payload 0 1 ≠ 1 ∧ ldNat k.payload 0 1 ≠ 2)) ∧
    (∃ (s : State) (n : PortId) (k : Packet), (s.ports[n].state = PortState.down ∨ k.kind ≠ 11)) ∧
    (∃ (s : State) (c : BitVec 15) (at_ : ℕ) (a : ℕ), (s.advanceTo at_).fabric.fencedAt.find c.toNat = some a ∧ ((s.advanceTo at_).fabric.readmits.any fun r => r.1 == c) = true ∧ a + 2000000 ≤ (s.advanceTo at_).timeNs) ∧
    (∃ (s : State), ¬Ready s) ∧
    (∃ (s : State), Ready s ∧ s.chip.toNat ∉ s.image.fabric.gateways) ∧
    (∃ (s : State), Ready s ∧ s.chip.toNat ∈ s.image.fabric.gateways ∧ BitVec.toNat s.fabric.fmInj0 % 256 = 1 ∧ BitVec.toNat (s.genRecord 2) ≤ (BitVec.ofNat 32 (BitVec.toNat s.fabric.fmInj1 % 2 ^ 32)).toNat ∧ BitVec.toNat s.fabric.fenceEpoch < (BitVec.ofNat 32 (BitVec.toNat s.fabric.fmInj0 / 2 ^ 32)).toNat) :=
  ⟨⟨gk, 5, fka 1 3 7 0, pktTrailer (fka 1 3 7 0), by unfold Reaches; decide +kernel⟩,
    ⟨gk (fun f => { f with fenced := [2,3], fencedAt := [(2,5), (3,6)]}), 5, fka 2 3 7 9, pktTrailer (fka 2 3 7 9), (6:Nat), by decide +kernel⟩,
    ⟨gk (fun f => { f with fenced := [2,3], fencedAt := [(2,5), (3,4900000)]}), 5, fka 2 3 7 9, pktTrailer (fka 2 3 7 9), (4900000:Nat), by decide +kernel⟩,
    ⟨gk, 5, fka 1 3 7 9, pktTrailer (fka 1 3 7 9), by decide +kernel⟩,
    ⟨gk, 5, fka 1 3 7 9 1, pktTrailer (fka 1 3 7 9 1), by decide +kernel⟩,
    ⟨cbase, 5, fka 1 3 7 0, by decide +kernel⟩,
    ⟨gk (fun f => { f with readmits := [(3,7),(2,8)], fenced := [2,3], fencedAt := [(2,5), (3,4900000)]}), 3, 7000000, 4900000, by decide +kernel⟩,
    ⟨{ gk with boot := {state := .bare} }, by unfold Ready; decide +kernel⟩,
    ⟨gk, by unfold Ready; decide +kernel⟩,
    ⟨g1 (fun f => { f with fmInj0 := 0x0000000700030001, fmInj1 := 5 }), by unfold Ready; decide +kernel⟩⟩

/-- States and operands that meet the hypotheses of EpochMarksTablesAndControlPackets, clause by clause. -/
theorem test_epoch_marks_tables_and_control_packets :
    (∃ (s : State) (n : PortId) (k : Packet) (tr : W64), s.ports[n].state = PortState.admitted ∧ k.kind = 12 ∧ tr = pktTrailer k ∧ k.src.toNat ∈ s.image.fabric.gateways ∧ BitVec.toNat (s.genRecord 2) ≤ (BitVec.ofNat 32 (ldNat k.payload 8 4)).toNat ∧ BitVec.toNat s.fabric.markSeq < (BitVec.ofNat 32 (ldNat k.payload 4 4)).toNat ∧ ldNat k.payload 0 1 < 2) ∧
    (∃ (s : State) (n : PortId) (k : Packet) (tr : W64), s.ports[n].state = PortState.admitted ∧ k.kind = 12 ∧ ¬(tr = pktTrailer k ∧ k.src.toNat ∈ s.image.fabric.gateways ∧ BitVec.toNat (s.genRecord 2) ≤ (BitVec.ofNat 32 (ldNat k.payload 8 4)).toNat ∧ BitVec.toNat s.fabric.markSeq < (BitVec.ofNat 32 (ldNat k.payload 4 4)).toNat ∧ ldNat k.payload 0 1 < 2)) ∧
    (∃ (s : State) (n : PortId) (k : Packet), (s.ports[n].state ≠ PortState.admitted ∨ k.kind ≠ 12)) ∧
    (∃ (s : State), Ready s ∧ s.chip.toNat ∈ s.image.fabric.gateways ∧ BitVec.toNat (s.genRecord 2) ≤ (BitVec.ofNat 32 (BitVec.toNat s.fabric.fmInj1 % 2 ^ 32)).toNat ∧ BitVec.toNat s.fabric.markSeq < (BitVec.ofNat 32 (BitVec.toNat s.fabric.fmInj0 / 2 ^ 32)).toNat ∧ BitVec.toNat s.fabric.fmInj0 % 256 < 2) ∧
    (∃ (s : State) (epoch : Bool), Ready s ∧ epoch ≠ s.fabric.repoch ∧ s.routeLocked = false) ∧
    (∃ (s : State) (epoch : Bool), Ready s ∧ epoch ≠ s.fabric.repoch ∧ s.routeLocked = true) ∧
    (∃ (s : State) (epoch : Bool), (¬Ready s ∨ epoch = s.fabric.repoch)) ∧
    (∃ (s : State) (at_ : ℕ), (s.advanceTo at_).routeLocked = true) ∧
    (∃ (s : State) (at_ : ℕ), (s.advanceTo at_).routeLocked = false) ∧
    (∃ (s : State) (n : PortId) (k : Packet) (j : ℕ), s.mine n k = true ∧ k.kind = 9 ∧ s.isGateway k.src = true ∧ NextOfStream k s ∧ List.findIdx? (fun g => g == k.src.toNat) s.image.fabric.gateways = some j ∧ blockOf { master := 2, gen := BitVec.ofNat 32 (ldNat k.payload 0 4), offset := ldNat k.payload 8 8, value := BitVec.ofNat 64 (ldNat k.payload 16 8) : CtlWrite }.offset ≠ Block.none ∧ s.served { master := 2, gen := BitVec.ofNat 32 (ldNat k.payload 0 4), offset := ldNat k.payload 8 8, value := BitVec.ofNat 64 (ldNat k.payload 16 8) : CtlWrite }.offset = true ∧ s.owner { master := 2, gen := BitVec.ofNat 32 (ldNat k.payload 0 4), offset := ldNat k.payload 8 8, value := BitVec.ofNat 64 (ldNat k.payload 16 8) : CtlWrite }.offset = 2 ∧ s.absentWindow { master := 2, gen := BitVec.ofNat 32 (ldNat k.payload 0 4), offset := ldNat k.payload 8 8, value := BitVec.ofNat 64 (ldNat k.payload 16 8) : CtlWrite }.offset = false ∧ genTarget { master := 2, gen := BitVec.ofNat 32 (ldNat k.payload 0 4), offset := ldNat k.payload 8 8, value := BitVec.ofNat 64 (ldNat k.payload 16 8) : CtlWrite }.offset = none ∧ BitVec.toNat (s.genRecord 2) ≤ BitVec.toNat { master := 2, gen := BitVec.ofNat 32 (ldNat k.payload 0 4), offset := ldNat k.payload 8 8, value := BitVec.ofNat 64 (ldNat k.payload 16 8) : CtlWrite }.gen) ∧
    (∃ (s : State) (n : PortId) (k : Packet), s.mine n k = true ∧ k.kind = 9 ∧ s.isGateway k.src = false) ∧
    (∃ (s : State) (n : PortId) (k : Packet), (s.mine n k = false ∨ k.kind ≠ 9)) ∧
    (∃ (s : State) (n : PortId) (k : Packet), (s.mine n k = false ∨ k.kind ≠ 10)) ∧
    (∃ (s : State) (n : PortId) (k : Packet) (o : OutPacket), s.mine n k = true ∧ k.kind = 10 ∧ (s.srcStream (streamKey k.src 0)).out = [o] ∧ (s.srcStream (streamKey k.src 0)).queue = [] ∧ o.item = ItemRef.none ∧ o.pkt.kind = 9 ∧ ldNat o.pkt.payload 4 4 = ldNat k.payload 4 4) ∧
    (∃ (s : State) (n : PortId) (k : Packet), s.mine n k = true ∧ k.kind = 10 ∧ (∀ o ∈ (s.srcStream (streamKey k.src 0)).out, o.pkt.kind ≠ 9)) ∧
    (∃ (s : State), ¬Ready s) ∧
    (∃ (s : State), Ready s ∧ BitVec.setWidth 15 s.fabric.fmTxDst ≠ s.chip ∧ s.fabric.selfFenced = false ∧ (s.srcStream (streamKey (BitVec.setWidth 15 s.fabric.fmTxDst) 0)).queue = [] ∧ BitVec.toNat ((s.srcStream (streamKey (BitVec.setWidth 15 s.fabric.fmTxDst) 0)).next - (s.srcStream (streamKey (BitVec.setWidth 15 s.fabric.fmTxDst) 0)).floor) ≤ 127 ∧ Reaches (BitVec.setWidth 15 s.fabric.fmTxDst) s) ∧
    (∃ (s : State), Ready s ∧ BitVec.setWidth 15 s.fabric.fmTxDst = s.chip ∧ s.isGateway (BitVec.setWidth 15 s.fabric.fmTxDst) = false) ∧
    (∃ (s : State), Ready s ∧ BitVec.setWidth 15 s.fabric.fmTxDst ≠ s.chip ∧ s.fabric.selfFenced = true) :=
  ⟨⟨gk, 5, emk 1 7 0, pktTrailer (emk 1 7 0), by decide +kernel⟩,
    ⟨gk, 5, emk 2 7 0, pktTrailer (emk 2 7 0), by decide +kernel⟩,
    ⟨cbase, 5, emk 2 7 0, by decide +kernel⟩,
    ⟨g1 (fun f => { f with fmInj0 := 0x0000000700030001, fmInj1 := 5 }), by unfold Ready; decide +kernel⟩,
    ⟨gk, true, by unfold Ready; decide +kernel⟩,
    ⟨gk (fun f => { f with switchAt := some 4999999}), true, by unfold Ready; decide +kernel⟩,
    ⟨gk, false, by unfold Ready; decide +kernel⟩,
    ⟨gk (fun f => { f with oldLocked := true, switchAt := some 4999999}), 5000000, by decide +kernel⟩,
    ⟨gk (fun f => { f with oldLocked := true, switchAt := some 4999999}), 5999999, by decide +kernel⟩,
    ⟨gk, 5, cpk, (0:Nat), by unfold NextOfStream; decide +kernel⟩,
    ⟨gk, 5, cpk 0, by decide +kernel⟩,
    ⟨gk, 5, emk 2 7 0, by decide +kernel⟩,
    ⟨gk, 5, emk 2 7 0, by decide +kernel⟩,
    ⟨gk (fun f => { f with src := [(8, { next := 6, floor := 5, out := [co] })]}), 5, cr, co, by decide +kernel⟩,
    ⟨gk, 5, cr, by decide +kernel⟩,
    ⟨{ gk with boot := {state := .bare} }, by unfold Ready; decide +kernel⟩,
    ⟨gk (fun f => { f with fmTxDst := 2}), by unfold Ready Reaches; decide +kernel⟩,
    ⟨gk (fun f => { f with fmTxDst := 1}), by unfold Ready; decide +kernel⟩,
    ⟨gk (fun f => { f with fmTxDst := 2, selfFenced := true}), by unfold Ready; decide +kernel⟩⟩

end Fences

/-! ### Witnesses of the statements about collectives -/

namespace Collectives

def pk (f : Fabric → Fabric := id) : State := { cbase with ports := cbase.ports.map fun x => { x with state := .admitted, nbrAdmitted := true, laneMask := 0xFFFF }, image := { cbase.image with fabric := { cbase.image.fabric with dims := #v[1,1,4], reserve := Vector.replicate 12 64, tc0Permille := 10, pair := Vector.ofFn id } }, fabric := f cbase.fabric }
def mc (kind target : Nat) (params : List Byte) (body : List Byte) : Capsule := { seq := 1, kind := kind, target := target, flags := 0, tag := 77, step := 5, params := params ++ List.replicate (32 - params.length) 0, body := body }
def wc (s : State) (c : Capsule) : State := s.updPart 0 fun x => { x with caps := { x.caps with queue := [c] }, cq := { x.cq with enable := true } }
def cb (op : Nat) (red := 0) (fmt := 0) (alg := 0) (grp := 0) (base := 0) (root := 0) (src := 0x1000) (dst := 0x1000) (len := 512) (tc := 255) (tv := 0) (dc := 3) : Capsule :=
  mc 4 2 [] (leBytes op 1 ++ leBytes red 1 ++ leBytes fmt 1 ++ leBytes alg 1 ++ leBytes grp 1 ++ leBytes base 1 ++ leBytes root 1 ++ leBytes 0 1 ++ leBytes src 8 ++ leBytes dst 8 ++ leBytes len 8 ++ leBytes 99 4 ++ leBytes tc 1 ++ leBytes 4 1 ++ leBytes 0 2 ++ leBytes tv 4 ++ leBytes dc 1 ++ leBytes 6 1 ++ leBytes 0 2 ++ leBytes 0 4 ++ leBytes 0 12)
def cw16 : State := { wc pk (cb 2) with axes := (pk).axes.map fun x => { x with colls := (List.range 16).map fun i => parseColl i 0 ({cb 2 with body := (cb 2).body.set 0x20 5 }) 0 } }
def ab (aop fl : Nat) (addr : Nat) (v : Nat) (tc := 255) (tv := 0): Capsule := mc 4 2 [] (leBytes 7 1 ++ leBytes aop 1 ++ leBytes fl 1 ++ leBytes 0 5 ++ leBytes addr 8 ++ leBytes v 8 ++ leBytes 0 8 ++ leBytes 99 4 ++ leBytes tc 1 ++ leBytes 4 1 ++ leBytes 0 2 ++ leBytes tv 4 ++ leBytes 3 1 ++ leBytes 6 1 ++ leBytes 0 2 ++ leBytes 0 4 ++ leBytes 0 12)
def la (c a : Nat) := (c <<< 49) + a
def co (op : Nat) (f : Coll → Coll := id) : Coll := f (parseColl 7 0 (cb op (len := if op = 6 then 0 else 512)) 5000000)
def cs (c : Coll) : State := { (pk).updPart 0 fun x => { x with cq := { x.cq with enable := true } } with axes := (pk).axes.set 2 { (pk).axes[2] with colls := [c] } }
def cp (sub arg : Nat) (dg : W32) (d : List Byte := []) (src : BitVec 15 := 2) (addr := 0) (c : Coll := co 6) : Packet := { mkPacket 1 0x10 1 0 0 addr (collPayload c sub arg dg 9 7 d) with src := src, psn := 5, floor := 5 }
def dg := (co 6).digest
def cl : Coll := co 6 fun c => { c with phase := .joining, joinsP := [(0,dg),(2,dg),(3,dg)], joinsM := [(3,dg),(2,dg)] }
def b64 : List Byte := (List.range 64).map fun i => BitVec.ofNat 8 (i+1)
def cd (op red fmt exp : Nat) := co op fun c => { c with phase := .data, expect := exp, red := red, fmt := fmt, alg := 2 }
def ap : Packet := { mkPacket 1 0x11 1 0 0 0x1248 (leBytes 0 8 ++ leBytes 7 8) with src := 2, psn := 5, floor := 5 }
def rg (op step : Nat) := co op fun c => { c with phase := .data, expect := 128, red := 0, fmt := 9, alg := 1 }

/-- States and operands that meet the hypotheses of CollectiveCapsulesAreTakenUp, clause by clause. -/
theorem test_collective_capsules_are_taken_up_a :
    (∃ (s : State) (p : PartId) (c : Capsule) (a : AxisId), NextCapsule p kColl s c ∧ c.field 0 1 = 1 ∧ s.collEngine c.target = some a ∧ s.collBodyOk a p c (parseColl s.nextItem p c c.takenAt) = true ∧ s.collOwner a p (parseColl s.nextItem p c c.takenAt) = none ∧ s.capState p = PartState.running ∧ (1 = 6 ∨ s.protected? p (BitVec.toNat (parseColl s.nextItem p c c.takenAt).dst) (parseColl s.nextItem p c c.takenAt).length = false) ∧ (s.fabric.selfFenced || (s.others a (parseColl s.nextItem p c c.takenAt)).any fun m => s.isFenced (s.collChip a (parseColl s.nextItem p c c.takenAt) m)) = false ∧ s.axisHeld a p < 16 ∧ (∀ k ∈ s.axes[a].early, k.dstPart ≠ p ∨ ldNat k.payload 0 4 ≠ BitVec.toNat (parseColl s.nextItem p c c.takenAt).collId)) ∧
    (∃ (s : State) (p : PartId) (c : Capsule) (a : AxisId), NextCapsule p kColl s c ∧ c.field 0 1 = 2 ∧ s.collEngine c.target = some a ∧ s.collBodyOk a p c (parseColl s.nextItem p c c.takenAt) = true ∧ s.collOwner a p (parseColl s.nextItem p c c.takenAt) = none ∧ s.capState p = PartState.running ∧ (2 = 6 ∨ s.protected? p (BitVec.toNat (parseColl s.nextItem p c c.takenAt).dst) (parseColl s.nextItem p c c.takenAt).length = false) ∧ (s.fabric.selfFenced || (s.others a (parseColl s.nextItem p c c.takenAt)).any fun m => s.isFenced (s.collChip a (parseColl s.nextItem p c c.takenAt) m)) = false ∧ s.axisHeld a p < 16 ∧ (∀ k ∈ s.axes[a].early, k.dstPart ≠ p ∨ ldNat k.payload 0 4 ≠ BitVec.toNat (parseColl s.nextItem p c c.takenAt).collId)) ∧
    (∃ (s : State) (p : PartId) (c : Capsule) (a : AxisId), NextCapsule p kColl s c ∧ c.field 0 1 = 3 ∧ s.collEngine c.target = some a ∧ s.collBodyOk a p c (parseColl s.nextItem p c c.takenAt) = true ∧ s.collOwner a p (parseColl s.nextItem p c c.takenAt) = none ∧ s.capState p = PartState.running ∧ (3 = 6 ∨ s.protected? p (BitVec.toNat (parseColl s.nextItem p c c.takenAt).dst) (parseColl s.nextItem p c c.takenAt).length = false) ∧ (s.fabric.selfFenced || (s.others a (parseColl s.nextItem p c c.takenAt)).any fun m => s.isFenced (s.collChip a (parseColl s.nextItem p c c.takenAt) m)) = false ∧ s.axisHeld a p < 16 ∧ (∀ k ∈ s.axes[a].early, k.dstPart ≠ p ∨ ldNat k.payload 0 4 ≠ BitVec.toNat (parseColl s.nextItem p c c.takenAt).collId)) ∧
    (∃ (s : State) (p : PartId) (c : Capsule) (a : AxisId), NextCapsule p kColl s c ∧ c.field 0 1 = 4 ∧ s.collEngine c.target = some a ∧ s.collBodyOk a p c (parseColl s.nextItem p c c.takenAt) = true ∧ s.collOwner a p (parseColl s.nextItem p c c.takenAt) = none ∧ s.capState p = PartState.running ∧ (4 = 6 ∨ s.protected? p (BitVec.toNat (parseColl s.nextItem p c c.takenAt).dst) (parseColl s.nextItem p c c.takenAt).length = false) ∧ (s.fabric.selfFenced || (s.others a (parseColl s.nextItem p c c.takenAt)).any fun m => s.isFenced (s.collChip a (parseColl s.nextItem p c c.takenAt) m)) = false ∧ s.axisHeld a p < 16 ∧ (∀ k ∈ s.axes[a].early, k.dstPart ≠ p ∨ ldNat k.payload 0 4 ≠ BitVec.toNat (parseColl s.nextItem p c c.takenAt).collId)) ∧
    (∃ (s : State) (p : PartId) (c : Capsule) (a : AxisId), NextCapsule p kColl s c ∧ c.field 0 1 = 5 ∧ s.collEngine c.target = some a ∧ s.collBodyOk a p c (parseColl s.nextItem p c c.takenAt) = true ∧ s.collOwner a p (parseColl s.nextItem p c c.takenAt) = none ∧ s.capState p = PartState.running ∧ (5 = 6 ∨ s.protected? p (BitVec.toNat (parseColl s.nextItem p c c.takenAt).dst) (parseColl s.nextItem p c c.takenAt).length = false) ∧ (s.fabric.selfFenced || (s.others a (parseColl s.nextItem p c c.takenAt)).any fun m => s.isFenced (s.collChip a (parseColl s.nextItem p c c.takenAt) m)) = false ∧ s.axisHeld a p < 16 ∧ (∀ k ∈ s.axes[a].early, k.dstPart ≠ p ∨ ldNat k.payload 0 4 ≠ BitVec.toNat (parseColl s.nextItem p c c.takenAt).collId)) ∧
    (∃ (s : State) (p : PartId) (c : Capsule) (a : AxisId), NextCapsule p kColl s c ∧ c.field 0 1 = 6 ∧ s.collEngine c.target = some a ∧ s.collBodyOk a p c (parseColl s.nextItem p c c.takenAt) = true ∧ s.collOwner a p (parseColl s.nextItem p c c.takenAt) = none ∧ s.capState p = PartState.running ∧ (6 = 6 ∨ s.protected? p (BitVec.toNat (parseColl s.nextItem p c c.takenAt).dst) (parseColl s.nextItem p c c.takenAt).length = false) ∧ (s.fabric.selfFenced || (s.others a (parseColl s.nextItem p c c.takenAt)).any fun m => s.isFenced (s.collChip a (parseColl s.nextItem p c c.takenAt) m)) = false ∧ s.axisHeld a p < 16 ∧ (∀ k ∈ s.axes[a].early, k.dstPart ≠ p ∨ ldNat k.payload 0 4 ≠ BitVec.toNat (parseColl s.nextItem p c c.takenAt).collId)) ∧
    (∃ (s : State) (p : PartId) (c : Capsule) (a : AxisId), NextCapsule p kColl s c ∧ c.field 0 1 = 2 ∧ s.collEngine c.target = some a ∧ s.collBodyOk a p c (parseColl s.nextItem p c c.takenAt) = true ∧ s.collOwner a p (parseColl s.nextItem p c c.takenAt) = none ∧ s.capState p = PartState.running ∧ (2 = 6 ∨ s.protected? p (BitVec.toNat (parseColl s.nextItem p c c.takenAt).dst) (parseColl s.nextItem p c c.takenAt).length = false) ∧ (s.fabric.selfFenced || (s.others a (parseColl s.nextItem p c c.takenAt)).any fun m => s.isFenced (s.collChip a (parseColl s.nextItem p c c.takenAt) m)) = false ∧ 16 ≤ s.axisHeld a p) ∧
    (∃ (s : State) (p : PartId) (c : Capsule) (a : AxisId), NextCapsule p kColl s c ∧ c.field 0 1 = 2 ∧ s.collEngine c.target = some a ∧ s.collBodyOk a p c (parseColl s.nextItem p c c.takenAt) = true ∧ s.collOwner a p (parseColl s.nextItem p c c.takenAt) = none ∧ s.capState p = PartState.running ∧ (2 = 6 ∨ s.protected? p (BitVec.toNat (parseColl s.nextItem p c c.takenAt).dst) (parseColl s.nextItem p c c.takenAt).length = false) ∧ (s.fabric.selfFenced || (s.others a (parseColl s.nextItem p c c.takenAt)).any fun m => s.isFenced (s.collChip a (parseColl s.nextItem p c c.takenAt) m)) = true) ∧
    (∃ (s : State) (p : PartId) (c : Capsule) (a : AxisId), NextCapsule p kColl s c ∧ c.field 0 1 = 1 ∧ s.collEngine c.target = some a ∧ s.collBodyOk a p c (parseColl s.nextItem p c c.takenAt) = true ∧ s.collOwner a p (parseColl s.nextItem p c c.takenAt) = none ∧ s.capState p = PartState.running ∧ 1 ≠ 6) ∧
    (∃ (s : State) (p : PartId) (c : Capsule) (a : AxisId), NextCapsule p kColl s c ∧ c.field 0 1 = 2 ∧ s.collEngine c.target = some a ∧ s.collBodyOk a p c (parseColl s.nextItem p c c.takenAt) = true ∧ s.collOwner a p (parseColl s.nextItem p c c.takenAt) = none ∧ s.capState p = PartState.running ∧ 2 ≠ 6) :=
  ⟨⟨wc pk (cb 1 0 9), 0, cb 1 0 9, (2:AxisId), by unfold NextCapsule; decide +kernel⟩,
    ⟨wc pk (cb 2), 0, cb 2, (2:AxisId), by unfold NextCapsule; decide +kernel⟩,
    ⟨wc pk (cb 3 1 7), 0, cb 3 1 7, (2:AxisId), by unfold NextCapsule; decide +kernel⟩,
    ⟨wc pk (cb 4), 0, cb 4, (2:AxisId), by unfold NextCapsule; decide +kernel⟩,
    ⟨wc pk (cb 5), 0, cb 5, (2:AxisId), by unfold NextCapsule; decide +kernel⟩,
    ⟨wc pk (cb 6 (len := 0)), 0, cb 6 (len := 0), (2:AxisId), by unfold NextCapsule; decide +kernel⟩,
    ⟨cw16, 0, cb 2, (2:AxisId), by unfold NextCapsule; decide +kernel⟩,
    ⟨wc (pk (fun f => {f with fenced := [3]})) (cb 2), 0, cb 2, (2:AxisId), by unfold NextCapsule; decide +kernel⟩,
    ⟨wc pk (cb 1 0 9), 0, cb 1 0 9, (2:AxisId), by unfold NextCapsule; decide +kernel⟩,
    ⟨wc pk (cb 2), 0, cb 2, (2:AxisId), by unfold NextCapsule; decide +kernel⟩⟩

/-- States and operands that meet the hypotheses of CollectiveCapsulesAreTakenUp, clause by clause. -/
theorem test_collective_capsules_are_taken_up_b :
    (∃ (s : State) (p : PartId) (c : Capsule) (a : AxisId), NextCapsule p kColl s c ∧ c.field 0 1 = 3 ∧ s.collEngine c.target = some a ∧ s.collBodyOk a p c (parseColl s.nextItem p c c.takenAt) = true ∧ s.collOwner a p (parseColl s.nextItem p c c.takenAt) = none ∧ s.capState p = PartState.running ∧ 3 ≠ 6) ∧
    (∃ (s : State) (p : PartId) (c : Capsule) (a : AxisId), NextCapsule p kColl s c ∧ c.field 0 1 = 4 ∧ s.collEngine c.target = some a ∧ s.collBodyOk a p c (parseColl s.nextItem p c c.takenAt) = true ∧ s.collOwner a p (parseColl s.nextItem p c c.takenAt) = none ∧ s.capState p = PartState.running ∧ 4 ≠ 6) ∧
    (∃ (s : State) (p : PartId) (c : Capsule) (a : AxisId), NextCapsule p kColl s c ∧ c.field 0 1 = 5 ∧ s.collEngine c.target = some a ∧ s.collBodyOk a p c (parseColl s.nextItem p c c.takenAt) = true ∧ s.collOwner a p (parseColl s.nextItem p c c.takenAt) = none ∧ s.capState p = PartState.running ∧ 5 ≠ 6) ∧
    (∃ (s : State) (p : PartId) (c : Capsule) (a : AxisId), NextCapsule p kColl s c ∧ c.field 0 1 = 2 ∧ s.collEngine c.target = some a ∧ s.collBodyOk a p c (parseColl s.nextItem p c c.takenAt) = true ∧ s.collOwner a p (parseColl s.nextItem p c c.takenAt) = none ∧ s.capState p ≠ PartState.running) ∧
    (∃ (s : State) (p : PartId) (c : Capsule) (a : AxisId) (o : OutcomeCode), NextCapsule p kColl s c ∧ c.field 0 1 = 2 ∧ s.collEngine c.target = some a ∧ s.collBodyOk a p c (parseColl s.nextItem p c c.takenAt) = true ∧ s.collOwner a p (parseColl s.nextItem p c c.takenAt) = some o) ∧
    (∃ (s : State) (p : PartId) (c : Capsule) (a : AxisId), NextCapsule p kColl s c ∧ c.field 0 1 = 6 ∧ s.collEngine c.target = some a ∧ s.collBodyOk a p c (parseColl s.nextItem p c c.takenAt) = false) ∧
    (∃ (s : State) (p : PartId) (c : Capsule), NextCapsule p kColl s c ∧ c.field 0 1 = 2 ∧ s.collEngine c.target = none) ∧
    (∃ (s : State) (p : PartId), (∀ c ∈ s.parts[p].caps.queue, c.kind ≠ kColl)) ∧
    (∃ (s : State) (p : PartId) (c : Capsule), NextCapsule p kColl s c ∧ (c.field 0 1 = 0 ∨ 7 < c.field 0 1)) ∧
    (∃ (s : State) (p : PartId) (c : Capsule) (a : AxisId), (∀ (b : AxisId), s.axes[b].atomics = []) ∧ NextCapsule p kColl s c ∧ c.field 0 1 = 7 ∧ s.collEngine c.target = some a ∧ c.body.length = 64 ∧ c.noParams = true ∧ collReserved c = true ∧ s.atomicRest a c = true ∧ (parseAtomic s.nextItem p c).aop ≤ 4 ∧ c.field 2 1 < 8 ∧ (parseAtomic s.nextItem p c).tc ≠ 2 ∧ BitVec.toNat (parseAtomic s.nextItem p c).addr % 8 = 0 ∧ gaOff (parseAtomic s.nextItem p c).addr + 8 ≤ wellsEnd ∧ s.collCore p (parseAtomic s.nextItem p c).trigCore (parseAtomic s.nextItem p c).trigCtr = true ∧ s.collCore p (parseAtomic s.nextItem p c).doneCore (parseAtomic s.nextItem p c).doneCtr = true ∧ s.parts[p].im.img.axisWeight[a] ≠ 0 ∧ s.addrCheck p (parseAtomic s.nextItem p c).addr 8 = none ∧ s.capState p = PartState.running ∧ (parseAtomic s.nextItem p c).trigCore = 255 ∧ s.isLocal (parseAtomic s.nextItem p c).addr = false ∧ s.fabric.selfFenced = false ∧ s.isFenced (gaChip (parseAtomic s.nextItem p c).addr) = false ∧ (s.srcStream (streamKey (gaChip (parseAtomic s.nextItem p c).addr) (parseAtomic s.nextItem p c).tc)).queue = [] ∧ BitVec.toNat ((s.srcStream (streamKey (gaChip (parseAtomic s.nextItem p c).addr) (parseAtomic s.nextItem p c).tc)).next - (s.srcStream (streamKey (gaChip (parseAtomic s.nextItem p c).addr) (parseAtomic s.nextItem p c).tc)).floor) ≤ 127 ∧ Reaches (gaChip (parseAtomic s.nextItem p c).addr) s) ∧
    (∃ (s : State) (p : PartId) (c : Capsule) (a : AxisId) (w : WellId) (y : ℕ), (∀ (b : AxisId), s.axes[b].atomics = []) ∧ NextCapsule p kColl s c ∧ c.field 0 1 = 7 ∧ s.collEngine c.target = some a ∧ c.body.length = 64 ∧ c.noParams = true ∧ collReserved c = true ∧ s.atomicRest a c = true ∧ (parseAtomic s.nextItem p c).aop ≤ 4 ∧ c.field 2 1 < 8 ∧ (parseAtomic s.nextItem p c).tc ≠ 2 ∧ BitVec.toNat (parseAtomic s.nextItem p c).addr % 8 = 0 ∧ gaOff (parseAtomic s.nextItem p c).addr + 8 ≤ wellsEnd ∧ s.collCore p (parseAtomic s.nextItem p c).trigCore (parseAtomic s.nextItem p c).trigCtr = true ∧ s.collCore p (parseAtomic s.nextItem p c).doneCore (parseAtomic s.nextItem p c).doneCtr = true ∧ s.parts[p].im.img.axisWeight[a] ≠ 0 ∧ s.addrCheck p (parseAtomic s.nextItem p c).addr 8 = none ∧ s.capState p = PartState.running ∧ (parseAtomic s.nextItem p c).trigCore = 255 ∧ s.isLocal (parseAtomic s.nextItem p c).addr = true ∧ s.viewLoc p (gaOff (parseAtomic s.nextItem p c).addr) = some (Loc.mem (MemUnit.well w) y) ∧ CleanSector w y s) ∧
    (∃ (s : State) (p : PartId) (c : Capsule) (a : AxisId), (∀ (b : AxisId), s.axes[b].atomics = []) ∧ NextCapsule p kColl s c ∧ c.field 0 1 = 7 ∧ s.collEngine c.target = some a ∧ c.body.length = 64 ∧ c.noParams = true ∧ collReserved c = true ∧ s.atomicRest a c = true ∧ (parseAtomic s.nextItem p c).aop ≤ 4 ∧ c.field 2 1 < 8 ∧ (parseAtomic s.nextItem p c).tc ≠ 2 ∧ BitVec.toNat (parseAtomic s.nextItem p c).addr % 8 = 0 ∧ gaOff (parseAtomic s.nextItem p c).addr + 8 ≤ wellsEnd ∧ s.collCore p (parseAtomic s.nextItem p c).trigCore (parseAtomic s.nextItem p c).trigCtr = true ∧ s.collCore p (parseAtomic s.nextItem p c).doneCore (parseAtomic s.nextItem p c).doneCtr = true ∧ s.parts[p].im.img.axisWeight[a] ≠ 0 ∧ s.addrCheck p (parseAtomic s.nextItem p c).addr 8 = none ∧ s.capState p = PartState.running ∧ (parseAtomic s.nextItem p c).trigCore ≠ 255 ∧ BitVec.toNat s.cores[coreOf (parseAtomic s.nextItem p c).trigCore].sync[ctrOf (parseAtomic s.nextItem p c).trigCtr].count < BitVec.toNat (parseAtomic s.nextItem p c).trigVal) :=
  ⟨⟨wc pk (cb 3 1 7), 0, cb 3 1 7, (2:AxisId), by unfold NextCapsule; decide +kernel⟩,
    ⟨wc pk (cb 4), 0, cb 4, (2:AxisId), by unfold NextCapsule; decide +kernel⟩,
    ⟨wc pk (cb 5), 0, cb 5, (2:AxisId), by unfold NextCapsule; decide +kernel⟩,
    ⟨wc ((pk).updPart 0 fun x => {x with state := .quiesced}) (cb 2), 0, cb 2, (2:AxisId), by unfold NextCapsule; decide +kernel⟩,
    ⟨wc ((pk).updPart 0 fun x => {x with im := {x.im with img := {x.im.img with axisWeight := Vector.replicate 3 0}}}) (cb 2), 0, cb 2, (2:AxisId), OutcomeCode.refusedOwner, by unfold NextCapsule; decide +kernel⟩,
    ⟨wc pk (cb 6 (len := 5)), 0, cb 6 (len := 5), (2:AxisId), by unfold NextCapsule; decide +kernel⟩,
    ⟨wc pk {cb 2 with target := 0x17}, 0, {cb 2 with target := 0x17}, by unfold NextCapsule; decide +kernel⟩,
    ⟨cbase, 0, by decide +kernel⟩,
    ⟨wc pk (cb 9), 0, cb 9, by unfold NextCapsule; decide +kernel⟩,
    ⟨wc pk (ab 0 5 (la 2 0x1248) 5), 0, ab 0 5 (la 2 0x1248) 5, 2, by unfold NextCapsule Reaches; decide +kernel⟩,
    ⟨wc pk (ab 0 1 (la 1 0x1248) 5), 0, ab 0 1 (la 1 0x1248) 5, 2, (2:WellId), (584:Nat), by unfold NextCapsule CleanSector; decide +kernel⟩,
    ⟨wc pk (ab 0 1 (la 1 0x1248) 5 3 9), 0, ab 0 1 (la 1 0x1248) 5 3 9, 2, by unfold NextCapsule; decide +kernel⟩⟩

/-- States and operands that meet the hypotheses of JoinRoundsDataAndAbandon, clause by clause. -/
theorem test_join_rounds_data_and_abandon_a :
    (∃ (s : State) (a : AxisId) (p : PartId) (id : W32) (c : Coll), s.axes[a].colls = [c] ∧ c.part = p ∧ c.phase = CollPhase.trigger ∧ c.collId = id ∧ s.trigDue c.trigCore c.trigCtr c.trigVal = true ∧ c.joinsP.length + 1 ≠ s.collG a c ∧ (s.srcStream (streamKey (s.collChip a c ((s.myPos a c + 1) % s.collG a c)) 1)).queue = [] ∧ BitVec.toNat ((s.srcStream (streamKey (s.collChip a c ((s.myPos a c + 1) % s.collG a c)) 1)).next - (s.srcStream (streamKey (s.collChip a c ((s.myPos a c + 1) % s.collG a c)) 1)).floor) ≤ 127 ∧ s.fabric.selfFenced = false ∧ Reaches (s.collChip a c ((s.myPos a c + 1) % s.collG a c)) s) ∧
    (∃ (s : State) (a : AxisId) (p : PartId) (id : W32) (c : Coll), s.axes[a].colls = [c] ∧ c.part = p ∧ (c.phase ≠ CollPhase.trigger ∨ c.collId ≠ id ∨ s.trigDue c.trigCore c.trigCtr c.trigVal = false)) ∧
    (∃ (s : State) (a : AxisId) (p : PartId), (∀ c ∈ s.axes[a].colls, c.part ≠ p)) ∧
    (∃ (s : State) (n : PortId) (k : Packet), (s.mine n k = false ∨ k.kind ≠ 16 ∨ ldNat k.payload 4 1 ≠ 1)) ∧
    (∃ (s : State) (n : PortId) (k : Packet), (s.mine n k = false ∨ k.kind ≠ 16 ∨ ldNat k.payload 4 1 ≠ 2)) ∧
    (∃ (s : State) (n : PortId) (k : Packet), (s.mine n k = false ∨ k.kind ≠ 16 ∨ ldNat k.payload 4 1 ≠ 3)) ∧
    (∃ (s : State) (n : PortId) (k : Packet), (s.mine n k = false ∨ k.kind ≠ 17 ∨ ldNat k.payload 4 1 ≠ ldNat k.payload 4 1)) ∧
    (∃ (s : State) (n : PortId) (k : Packet) (c : Coll), s.mine n k = true ∧ k.kind = 16 ∧ NextOfStream k s ∧ ldNat k.payload 4 1 = 1 ∧ s.destRefusal k none = none ∧ s.axes[s.axisOfSrc k].colls = [c] ∧ c.part = k.dstPart ∧ c.collId = BitVec.ofNat 32 (ldNat k.payload 0 4) ∧ ((c.joinsP ++ c.joinsM).all fun e => e.1 != ldNat k.payload 5 1) = true ∧ c.phase = CollPhase.joining ∧ ((if s.joinPlus (s.axisOfSrc k) c k = true then c.joinsP else c.joinsM).length + 2 = s.collG (s.axisOfSrc k) c) ∧ (s.collG (s.axisOfSrc k) c = 2 ∨ (if s.joinPlus (s.axisOfSrc k) c k = true then c.joinsM else c.joinsP).length + 1 = s.collG (s.axisOfSrc k) c) ∧ c.waitApply = [] ∧ s.axes[s.axisOfSrc k].waiting = [] ∧ c.poisoned = false ∧ c.received = 0 ∧ (∀ e ∈ c.joinsP ++ c.joinsM, e.2 = c.digest) ∧ BitVec.ofNat 32 (ldNat k.payload 8 4) = c.digest ∧ c.op = 6) ∧
    (∃ (s : State) (n : PortId) (k : Packet) (c : Coll), s.mine n k = true ∧ k.kind = 16 ∧ NextOfStream k s ∧ ldNat k.payload 4 1 = 1 ∧ s.destRefusal k none = none ∧ s.axes[s.axisOfSrc k].colls = [c] ∧ c.part = k.dstPart ∧ c.collId = BitVec.ofNat 32 (ldNat k.payload 0 4) ∧ ((c.joinsP ++ c.joinsM).all fun e => e.1 != ldNat k.payload 5 1) = true ∧ c.phase = CollPhase.joining ∧ ((if s.joinPlus (s.axisOfSrc k) c k = true then c.joinsP else c.joinsM).length + 2 = s.collG (s.axisOfSrc k) c) ∧ (s.collG (s.axisOfSrc k) c = 2 ∨ (if s.joinPlus (s.axisOfSrc k) c k = true then c.joinsM else c.joinsP).length + 1 = s.collG (s.axisOfSrc k) c) ∧ c.waitApply = [] ∧ s.axes[s.axisOfSrc k].waiting = [] ∧ c.poisoned = false ∧ c.received = 0 ∧ BitVec.ofNat 32 (ldNat k.payload 8 4) ≠ c.digest) ∧
    (∃ (s : State) (n : PortId) (k : Packet) (c : Coll), s.mine n k = true ∧ k.kind = 16 ∧ NextOfStream k s ∧ ldNat k.payload 4 1 = 1 ∧ s.destRefusal k none = none ∧ s.axes[s.axisOfSrc k].colls = [c] ∧ c.part = k.dstPart ∧ c.collId = BitVec.ofNat 32 (ldNat k.payload 0 4) ∧ ((c.joinsP ++ c.joinsM).all fun e => e.1 != ldNat k.payload 5 1) = true ∧ c.phase = CollPhase.trigger) ∧
    (∃ (s : State) (n : PortId) (k : Packet), s.mine n k = true ∧ k.kind = 16 ∧ NextOfStream k s ∧ ldNat k.payload 4 1 = 1 ∧ s.destRefusal k none = none ∧ (∀ c ∈ s.axes[s.axisOfSrc k].colls, c.part ≠ k.dstPart ∨ c.collId ≠ BitVec.ofNat 32 (ldNat k.payload 0 4))) ∧
    (∃ (s : State) (a : AxisId) (p : PartId) (id : W32) (at_ : ℕ) (c : Coll), s.axes[a].colls = [c] ∧ s.axes[a].waiting = [] ∧ c.part = p ∧ c.collId = id ∧ c.phase ≠ CollPhase.data ∧ c.limitAt ≤ (s.advanceTo at_).timeNs ∧ c.waitApply = [] ∧ c.poisoned = false ∧ c.received = 0) ∧
    (∃ (s : State) (a : AxisId) (p : PartId) (id : W32) (at_ : ℕ) (c : Coll), s.axes[a].colls = [c] ∧ s.axes[a].waiting = [] ∧ c.part = p ∧ c.collId = id ∧ (c.phase = CollPhase.data ∨ (s.advanceTo at_).timeNs < c.limitAt)) ∧
    (∃ (s : State) (a : AxisId) (p : PartId) (id : W32), (∀ c ∈ s.axes[a].colls ++ s.axes[a].waiting, c.part ≠ p ∨ c.collId ≠ id)) ∧
    (∃ (s : State) (n : PortId) (k : Packet) (c : Coll) (w : WellId) (y : ℕ), s.mine n k = true ∧ k.kind = 16 ∧ NextOfStream k s ∧ ldNat k.payload 4 1 = 2 ∧ k.payload.length = 80 ∧ k.ord = false ∧ s.writeRefusal k 64 = none ∧ s.axes[s.axisOfSrc k].colls = [c] ∧ c.part = k.dstPart ∧ c.collId = BitVec.ofNat 32 (ldNat k.payload 0 4) ∧ c.phase = CollPhase.data ∧ c.waitApply = [] ∧ s.axes[s.axisOfSrc k].waiting = [] ∧ s.regionBusy (s.axisOfSrc k) c.id k.addr.toNat 64 = false ∧ (if c.op = 3 then if s.direct (s.axisOfSrc k) c = true then ldNat k.payload 5 1 ≠ 1 else 2 * (s.collG (s.axisOfSrc k) c - 1) ≤ ldNat k.payload 5 1 else s.direct (s.axisOfSrc k) c = true ∨ s.collG (s.axisOfSrc k) c - 1 ≤ ldNat k.payload 5 1) ∧ s.viewLoc c.part k.addr.toNat = some (Loc.mem (MemUnit.well w) y) ∧ CleanSector w y s ∧ k.poison = false ∧ c.poisoned = false ∧ (¬(c.received + 64 = c.expect ∧ c.unsettled = 0) ∨ c.op ≠ 1) ∧ s.reducing (s.axisOfSrc k) c (ldNat k.payload 5 1) = true ∧ c.red = 0) ∧
    (∃ (s : State) (n : PortId) (k : Packet) (c : Coll) (w : WellId) (y : ℕ), s.mine n k = true ∧ k.kind = 16 ∧ NextOfStream k s ∧ ldNat k.payload 4 1 = 2 ∧ k.payload.length = 80 ∧ k.ord = false ∧ s.writeRefusal k 64 = none ∧ s.axes[s.axisOfSrc k].colls = [c] ∧ c.part = k.dstPart ∧ c.collId = BitVec.ofNat 32 (ldNat k.payload 0 4) ∧ c.phase = CollPhase.data ∧ c.waitApply = [] ∧ s.axes[s.axisOfSrc k].waiting = [] ∧ s.regionBusy (s.axisOfSrc k) c.id k.addr.toNat 64 = false ∧ (if c.op = 3 then if s.direct (s.axisOfSrc k) c = true then ldNat k.payload 5 1 ≠ 1 else 2 * (s.collG (s.axisOfSrc k) c - 1) ≤ ldNat k.payload 5 1 else s.direct (s.axisOfSrc k) c = true ∨ s.collG (s.axisOfSrc k) c - 1 ≤ ldNat k.payload 5 1) ∧ s.viewLoc c.part k.addr.toNat = some (Loc.mem (MemUnit.well w) y) ∧ CleanSector w y s ∧ k.poison = false ∧ c.poisoned = false ∧ (¬(c.received + 64 = c.expect ∧ c.unsettled = 0) ∨ c.op ≠ 1) ∧ s.reducing (s.axisOfSrc k) c (ldNat k.payload 5 1) = false) :=
  ⟨⟨cs (co 6), 2, 0, 99, co 6, by unfold Reaches; decide +kernel⟩,
    ⟨cs (co 6), 2, 0, 98, co 6, by decide +kernel⟩,
    ⟨cbase, 2, 0, by decide +kernel⟩,
    ⟨cbase, 5, cp 1 2 5, by decide +kernel⟩,
    ⟨cbase, 5, cp 1 2 5, by decide +kernel⟩,
    ⟨cbase, 5, cp 1 2 5, by decide +kernel⟩,
    ⟨cbase, 5, cp 1 2 5, by decide +kernel⟩,
    ⟨cs {cl with joinsM := [(3,dg),(0,dg)], joinsP := [(0,dg),(1,dg),(3,dg)]}, 5, cp 1 2 dg, {cl with joinsM := [(3,dg),(0,dg)], joinsP := [(0,dg),(1,dg),(3,dg)]}, by unfold NextOfStream; decide +kernel⟩,
    ⟨cs {cl with joinsM := [(3,dg),(0,dg)], joinsP := [(0,dg),(1,dg),(3,dg)]}, 5, cp 1 2 5, {cl with joinsM := [(3,dg),(0,dg)], joinsP := [(0,dg),(1,dg),(3,dg)]}, by unfold NextOfStream; decide +kernel⟩,
    ⟨cs (co 6), 5, cp 1 2 5, co 6, by unfold NextOfStream; decide +kernel⟩,
    ⟨pk, 5, cp 1 2 5, by unfold NextOfStream; decide +kernel⟩,
    ⟨cs cl, 2, 0, 99, 105000000, cl, by decide +kernel⟩,
    ⟨cs cl, 2, 0, 99, 104999999, cl, by decide +kernel⟩,
    ⟨cs cl, 2, 0, 98, by decide +kernel⟩,
    ⟨cs (rg 1 3), 5, {cp 2 3 0 b64 2 0x1240 (co 2) with op := 1}, rg 1 3, (2:WellId), (576:Nat), by unfold CleanSector NextOfStream; decide +kernel⟩,
    ⟨cs (cd 2 0 0 128), 5, cp 2 1 0 b64 2 0x1240 (co 2), cd 2 0 0 128, (2:WellId), (576:Nat), by unfold CleanSector NextOfStream; decide +kernel⟩⟩

/-- States and operands that meet the hypotheses of JoinRoundsDataAndAbandon, clause by clause. -/
theorem test_join_rounds_data_and_abandon_b :
    (∃ (s : State) (n : PortId) (k : Packet) (c : Coll) (w : WellId) (y : ℕ), s.mine n k = true ∧ k.kind = 16 ∧ NextOfStream k s ∧ ldNat k.payload 4 1 = 2 ∧ k.payload.length = 80 ∧ k.ord = false ∧ s.writeRefusal k 64 = none ∧ s.axes[s.axisOfSrc k].colls = [c] ∧ c.part = k.dstPart ∧ c.collId = BitVec.ofNat 32 (ldNat k.payload 0 4) ∧ c.phase = CollPhase.data ∧ c.waitApply = [] ∧ s.axes[s.axisOfSrc k].waiting = [] ∧ s.regionBusy (s.axisOfSrc k) c.id k.addr.toNat 64 = false ∧ (if c.op = 3 then if s.direct (s.axisOfSrc k) c = true then ldNat k.payload 5 1 ≠ 1 else 2 * (s.collG (s.axisOfSrc k) c - 1) ≤ ldNat k.payload 5 1 else s.direct (s.axisOfSrc k) c = true ∨ s.collG (s.axisOfSrc k) c - 1 ≤ ldNat k.payload 5 1) ∧ s.viewLoc c.part k.addr.toNat = some (Loc.mem (MemUnit.well w) y) ∧ CleanSector w y s ∧ k.poison = false ∧ c.poisoned = false ∧ ¬(c.received + 64 = c.expect ∧ c.unsettled = 0)) ∧
    (∃ (s : State) (n : PortId) (k : Packet) (c : Coll) (w : WellId) (y : ℕ), s.mine n k = true ∧ k.kind = 16 ∧ NextOfStream k s ∧ ldNat k.payload 4 1 = 2 ∧ k.payload.length = 80 ∧ k.ord = false ∧ s.writeRefusal k 64 = none ∧ s.axes[s.axisOfSrc k].colls = [c] ∧ c.part = k.dstPart ∧ c.collId = BitVec.ofNat 32 (ldNat k.payload 0 4) ∧ c.phase = CollPhase.data ∧ c.waitApply = [] ∧ s.axes[s.axisOfSrc k].waiting = [] ∧ s.regionBusy (s.axisOfSrc k) c.id k.addr.toNat 64 = false ∧ (if c.op = 3 then if s.direct (s.axisOfSrc k) c = true then ldNat k.payload 5 1 ≠ 1 else 2 * (s.collG (s.axisOfSrc k) c - 1) ≤ ldNat k.payload 5 1 else s.direct (s.axisOfSrc k) c = true ∨ s.collG (s.axisOfSrc k) c - 1 ≤ ldNat k.payload 5 1) ∧ s.viewLoc c.part k.addr.toNat = some (Loc.mem (MemUnit.well w) y) ∧ CleanSector w y s ∧ k.poison = false ∧ c.poisoned = false ∧ c.received + 64 = c.expect ∧ c.unsettled = 0) ∧
    (∃ (s : State) (n : PortId) (k : Packet) (c : Coll), s.mine n k = true ∧ k.kind = 16 ∧ NextOfStream k s ∧ ldNat k.payload 4 1 = 2 ∧ k.payload.length = 80 ∧ k.ord = false ∧ s.writeRefusal k 64 = none ∧ s.axes[s.axisOfSrc k].colls = [c] ∧ c.part = k.dstPart ∧ c.collId = BitVec.ofNat 32 (ldNat k.payload 0 4) ∧ c.phase ≠ CollPhase.data ∧ c.waitApply = []) ∧
    (∃ (s : State) (n : PortId) (k : Packet), s.mine n k = true ∧ k.kind = 16 ∧ NextOfStream k s ∧ ldNat k.payload 4 1 = 2 ∧ k.payload.length = 80 ∧ k.ord = false ∧ s.writeRefusal k 64 = none ∧ (∀ c ∈ s.axes[s.axisOfSrc k].colls, c.part ≠ k.dstPart ∨ c.collId ≠ BitVec.ofNat 32 (ldNat k.payload 0 4))) ∧
    (∃ (s : State) (n : PortId) (k : Packet) (c : Coll) (o : OutcomeCode), s.mine n k = true ∧ k.kind = 16 ∧ NextOfStream k s ∧ ldNat k.payload 4 1 = 3 ∧ s.destRefusal k none = none ∧ s.axes[s.axisOfSrc k].colls = [c] ∧ s.axes[s.axisOfSrc k].waiting = [] ∧ c.part = k.dstPart ∧ c.collId = BitVec.ofNat 32 (ldNat k.payload 0 4) ∧ OutcomeCode.ofCode (ldNat k.payload 5 1) = o ∧ c.waitApply = [] ∧ c.poisoned = false ∧ ((if s.collPos (s.axisOfSrc k) c k.src = (s.myPos (s.axisOfSrc k) c + 1) % s.collG (s.axisOfSrc k) c then (s.myPos (s.axisOfSrc k) c + s.collG (s.axisOfSrc k) c - 1) % s.collG (s.axisOfSrc k) c else (s.myPos (s.axisOfSrc k) c + 1) % s.collG (s.axisOfSrc k) c) ≠ s.collPos (s.axisOfSrc k) c k.src) ∧ o ≠ OutcomeCode.abortedReset ∧ ((s.srcStream (streamKey (s.collChip (s.axisOfSrc k) c (if s.collPos (s.axisOfSrc k) c k.src = (s.myPos (s.axisOfSrc k) c + 1) % s.collG (s.axisOfSrc k) c then (s.myPos (s.axisOfSrc k) c + s.collG (s.axisOfSrc k) c - 1) % s.collG (s.axisOfSrc k) c else (s.myPos (s.axisOfSrc k) c + 1) % s.collG (s.axisOfSrc k) c)) 1)).queue = []) ∧ (BitVec.toNat ((s.srcStream (streamKey (s.collChip (s.axisOfSrc k) c (if s.collPos (s.axisOfSrc k) c k.src = (s.myPos (s.axisOfSrc k) c + 1) % s.collG (s.axisOfSrc k) c then (s.myPos (s.axisOfSrc k) c + s.collG (s.axisOfSrc k) c - 1) % s.collG (s.axisOfSrc k) c else (s.myPos (s.axisOfSrc k) c + 1) % s.collG (s.axisOfSrc k) c)) 1)).next - (s.srcStream (streamKey (s.collChip (s.axisOfSrc k) c (if s.collPos (s.axisOfSrc k) c k.src = (s.myPos (s.axisOfSrc k) c + 1) % s.collG (s.axisOfSrc k) c then (s.myPos (s.axisOfSrc k) c + s.collG (s.axisOfSrc k) c - 1) % s.collG (s.axisOfSrc k) c else (s.myPos (s.axisOfSrc k) c + 1) % s.collG (s.axisOfSrc k) c)) 1)).floor) ≤ 127) ∧ (Reaches (s.collChip (s.axisOfSrc k) c (if s.collPos (s.axisOfSrc k) c k.src = (s.myPos (s.axisOfSrc k) c + 1) % s.collG (s.axisOfSrc k) c then (s.myPos (s.axisOfSrc k) c + s.collG (s.axisOfSrc k) c - 1) % s.collG (s.axisOfSrc k) c else (s.myPos (s.axisOfSrc k) c + 1) % s.collG (s.axisOfSrc k) c)) s)) ∧
    (∃ (s : State) (n : PortId) (k : Packet), s.mine n k = true ∧ k.kind = 16 ∧ NextOfStream k s ∧ ldNat k.payload 4 1 = 3 ∧ s.destRefusal k none = none ∧ (∀ c ∈ s.axes[s.axisOfSrc k].colls ++ s.axes[s.axisOfSrc k].waiting, c.part ≠ k.dstPart ∨ c.collId ≠ BitVec.ofNat 32 (ldNat k.payload 0 4)) ∧ s.axes[s.axisOfSrc k].early = []) ∧
    (∃ (s : State) (n : PortId) (k : Packet) (w : WellId) (y : ℕ), s.mine n k = true ∧ k.kind = 17 ∧ NextOfStream k s ∧ s.atomicRefusal k = none ∧ s.viewLoc k.dstPart k.addr.toNat = some (Loc.mem (MemUnit.well w) y) ∧ CleanSector w y s) :=
  ⟨⟨cs (cd 2 0 0 128), 5, cp 2 1 0 b64 2 0x1240 (co 2), cd 2 0 0 128, (2:WellId), (576:Nat), by unfold CleanSector NextOfStream; decide +kernel⟩,
    ⟨cs (cd 5 0 0 64), 5, cp 2 1 0 b64 2 0x1240 (co 2), cd 5 0 0 64, (2:WellId), (576:Nat), by unfold CleanSector NextOfStream; decide +kernel⟩,
    ⟨cs (co 2), 5, cp 2 1 0 b64 2 0x1240 (co 2), co 2, by unfold NextOfStream; decide +kernel⟩,
    ⟨pk, 5, cp 2 1 0 b64 2 0x1240 (co 2), by unfold NextOfStream; decide +kernel⟩,
    ⟨cs (cd 1 1 9 64), 5, cp 3 0x10 0, (cd 1 1 9 64), OutcomeCode.failedLink, by unfold Reaches NextOfStream; decide +kernel⟩,
    ⟨pk, 5, cp 3 0x12 0, by unfold NextOfStream; decide +kernel⟩,
    ⟨pk, 5, ap, 2, 584, by unfold CleanSector NextOfStream; decide +kernel⟩⟩

end Collectives

/-! ### Witnesses of the statements about sluices -/

namespace Sluices

def pk (f : Fabric → Fabric := id) : State := { cbase with ports := cbase.ports.map fun x => { x with state := .admitted, nbrAdmitted := true, laneMask := 0xFFFF }, image := { cbase.image with fabric := { cbase.image.fabric with dims := #v[1,1,4], reserve := Vector.replicate 12 64, tc0Permille := 10, pair := Vector.ofFn id } }, fabric := f cbase.fabric }
def mc (kind target : Nat) (params : List Byte) (body : List Byte) : Capsule := { seq := 1, kind := kind, target := target, flags := 0, tag := 77, step := 5, params := params ++ List.replicate (32 - params.length) 0, body := body }
def wc (s : State) (c : Capsule) : State := s.updPart 0 fun x => { x with caps := { x.caps with queue := [c] }, cq := { x.cq with enable := true } }
def sk (D := 4) : State := { pk with image := { (pk).image with fabric := { (pk).image.fabric with dims := #v[1,1,D], roles := #v[0,0,3] } } }
def cq (s : State) : State := s.updPart 0 fun x => { x with cq := { x.cq with enable := true } }
def cbs : Nat := coreBase + 0x400000 * 5
def wmem (s : State) (a : Nat) (l : List Byte) : State := s.updCore 5 fun x => { x with mem := wrL x.mem a l }
def pw (v coord sl loc : Nat) : Nat := (v <<< 31) + (coord <<< 24) + (sl <<< 16) + loc
def plc (off count : Nat) (tgt := 2) (r := 0): Capsule := mc 5 tgt [] (leBytes 1 1 ++ leBytes r 1 ++ leBytes count 2 ++ leBytes 0 4 ++ leBytes off 8 ++ List.replicate 112 0)
def ts (l : List Nat) (c : Capsule) : State := wc (wmem sk 0 (l.flatMap fun w => leBytes w 4)) c
def lb (k := 2) (tokens := 1) (row := 64) (out := 64) (exp := cbs + 0x10000) (id := 9) : Capsule := mc 5 2 [] (leBytes 2 1 ++ leBytes k 1 ++ leBytes 1 1 ++ leBytes 0 1 ++ leBytes id 4 ++ leBytes tokens 4 ++ leBytes row 2 ++ leBytes out 2 ++ leBytes (cbs+0x1000) 8 ++ leBytes (cbs + 0x2000) 8 ++ leBytes (cbs + 0x3000) 8 ++ leBytes (cbs + 0x4000) 8 ++ leBytes (cbs + 0x5000) 8 ++ leBytes (cbs + 0x6000) 8 ++ leBytes exp 8 ++ leBytes 1000 8 ++ leBytes 7 1 ++ leBytes 1 1 ++ leBytes 0 2 ++ leBytes 0 4 ++ leBytes 3 1 ++ leBytes 4 1 ++ leBytes 0 2 ++ leBytes 0 4 ++ leBytes 3 1 ++ leBytes 5 1 ++ leBytes 0 2 ++ leBytes 0 4 ++ leBytes 3 1 ++ leBytes 6 1 ++ leBytes 3 1 ++ leBytes 7 1 ++ leBytes 0 20)
def ds (l : List (Nat × Nat × Nat × Nat)) : List Byte := l.flatMap fun d => leBytes d.1 8 ++ leBytes d.2.1 8 ++ leBytes d.2.2.1 8 ++ leBytes d.2.2.2 4 ++ leBytes 0 4
def D1 := (cbs + 0x20000, cbs + 0x21000, cbs + 0x22000, 3)
def ls (c : Capsule) (f : Sluice → Sluice := fun x => { x with placed := true }): State := (wc (wmem sk 0x10000 (ds [D1])) c).updSluice 2 f
def DD : List (Nat × Nat × Nat × Nat) := D1 :: List.replicate 255 (0, 0, 0, 0)
def lay (f : Layer → Layer := id) : Layer := f { parseLayer 50 0 lb with limitAt := 105000000, desc := DD }
def lo (l : Layer) (f : Sluice → Sluice := id) (D := 4): State := ((cq (wmem (wmem (sk D) 0x1000 (leBytes 0x3F000000 4 ++ leBytes 0x7FC00000 4 ++ leBytes 0 24 ++ leBytes 1 4 ++ leBytes 2 4)) 0x2000 [1,2,3,4])).updSluice 2 fun x => f { x with placed := true, layers := [l], tableCount := 2, table := [(1, BitVec.ofNat 32 (pw 1 3 1 5))] })
def ra : Layer := lay fun l => { l with arrived := true, admitted := [(0,1)] }
def rst (l : Layer) : State := wmem (wmem (lo l) 0x22000 (leBytes 3 2 ++ leBytes 1 1 ++ leBytes 1 1 ++ leBytes 6 4 ++ leBytes 0x3F000000 4 ++ leBytes 0 4)) 0x21000 [5,6,7]
def tp (sub slot token expert arg count : Nat) (d : List Byte := []) (src : BitVec 15 := 2) : Packet := { mkPacket 1 0x12 2 0 0 2 (tokenHead 9 sub 0 1 slot token expert 1 arg 0x3F000000 5 count ++ d) with src := src, psn := 5, floor := 5 }
def b64 : List Byte := (List.range 64).map fun i => BitVec.ofNat 8 (i+1)
def tb (x : Sluice) : Sluice := { x with table := [(1, BitVec.ofNat 32 (pw 1 1 2 0))] }
def lf : Layer := lay fun l => { l with admitted := [(0,3)] }
def R0 : Route := { token := 0, slot := 0, expert := 1, coord := 3, dest := 1, gate := 0x3F000000 }
def R1 : Route := { R0 with slot := 1 }
def lr : Layer := lay fun l => { l with formed := true, routes := [R0, R1], endsTo := [(3,1)] }
def l1 : Layer := { lr with routes := [R0], destDone := true }
def le : Layer := lay fun l => { l with arrivals := 9, ends := [(1, 1, 2, 1)] }

set_option maxRecDepth 20000 in
/-- States and operands that meet the hypotheses of SluiceCapsulesAndTriggers, clause by clause. -/
theorem test_sluice_capsules_and_triggers_a :
    (∃ (s : State) (p : PartId), (∀ c ∈ s.parts[p].caps.queue, c.kind ≠ kSluice)) ∧
    (∃ (s : State) (p : PartId) (c : Capsule), NextCapsule p kSluice s c ∧ c.field 0 1 = 1 ∧ c.body.length = 128 ∧ c.noParams = true ∧ c.field 1 1 = 0 ∧ zeroBytes c.body 4 4 = true ∧ zeroBytes c.body 16 112 = true ∧ c.target < 4 ∧ c.field 2 2 ≤ 4096 ∧ s.sluiceTarget p c.target = none ∧ (s.viewCheck p (c.field 8 8) (4 * c.field 2 2)).isSome = false ∧ s.tableCheck p (tableWords ((without p c s).slcRead p (c.field 8 8) (4 * c.field 2 2)).1.1 (c.field 2 2)) = none ∧ s.capState p = PartState.running ∧ s.sluices[sluiceOf c.target].layers = []) ∧
    (∃ (s : State) (p : PartId) (c : Capsule), NextCapsule p kSluice s c ∧ c.field 0 1 = 1 ∧ c.body.length = 128 ∧ c.noParams = true ∧ c.field 1 1 = 0 ∧ zeroBytes c.body 4 4 = true ∧ zeroBytes c.body 16 112 = true ∧ c.target < 4 ∧ c.field 2 2 ≤ 4096 ∧ s.sluiceTarget p c.target = none ∧ (s.viewCheck p (c.field 8 8) (4 * c.field 2 2)).isSome = false ∧ s.tableCheck p (tableWords ((without p c s).slcRead p (c.field 8 8) (4 * c.field 2 2)).1.1 (c.field 2 2)) = none ∧ (s.capState p ≠ PartState.running ∨ s.sluices[sluiceOf c.target].layers ≠ [])) ∧
    (∃ (s : State) (p : PartId) (c : Capsule) (o : OutcomeCode) (k : ℕ), NextCapsule p kSluice s c ∧ c.field 0 1 = 1 ∧ c.body.length = 128 ∧ c.noParams = true ∧ c.field 1 1 = 0 ∧ zeroBytes c.body 4 4 = true ∧ zeroBytes c.body 16 112 = true ∧ c.target < 4 ∧ c.field 2 2 ≤ 4096 ∧ s.sluiceTarget p c.target = none ∧ (s.viewCheck p (c.field 8 8) (4 * c.field 2 2)).isSome = false ∧ s.tableCheck p (tableWords ((without p c s).slcRead p (c.field 8 8) (4 * c.field 2 2)).1.1 (c.field 2 2)) = some (o, k)) ∧
    (∃ (s : State) (p : PartId) (c : Capsule) (o : OutcomeCode), NextCapsule p kSluice s c ∧ c.field 0 1 = 1 ∧ c.body.length = 128 ∧ c.noParams = true ∧ c.field 1 1 = 0 ∧ zeroBytes c.body 4 4 = true ∧ zeroBytes c.body 16 112 = true ∧ c.target < 4 ∧ c.field 2 2 ≤ 4096 ∧ s.sluiceTarget p c.target = some o) ∧
    (∃ (s : State) (p : PartId) (c : Capsule), NextCapsule p kSluice s c ∧ c.field 0 1 = 1 ∧ ¬(c.body.length = 128 ∧ c.noParams = true ∧ c.field 1 1 = 0 ∧ zeroBytes c.body 4 4 = true ∧ zeroBytes c.body 16 112 = true ∧ c.target < 4 ∧ c.field 2 2 ≤ 4096)) ∧
    (∃ (s : State) (p : PartId) (c : Capsule) (d : List (ℕ × ℕ × ℕ × ℕ)), NextCapsule p kSluice s c ∧ c.field 0 1 = 2 ∧ s.layerCodes p c (parseLayer s.nextItem p c) = true ∧ s.sluiceTarget p c.target = none ∧ (((s.sluices[sluiceOf c.target].layers ++ s.sluices[sluiceOf c.target].waiting).any fun d => d.part == p && d.layerId == (parseLayer s.nextItem p c).layerId) || !s.sluices[sluiceOf c.target].placed) = false ∧ ((parseLayer s.nextItem p c).ranges.any fun r => (s.viewCheck p r.1 r.2.1).isSome) = false ∧ (({ (without p c s : State) with nextItem := s.nextItem + 1 }).descriptors p (parseLayer s.nextItem p c)).1 = some d ∧ s.capState p = PartState.running ∧ s.layerProtected p { id := (parseLayer s.nextItem p c).id, layerId := (parseLayer s.nextItem p c).layerId, part := (parseLayer s.nextItem p c).part, tag := (parseLayer s.nextItem p c).tag, step := (parseLayer s.nextItem p c).step, raiseV0 := (parseLayer s.nextItem p c).raiseV0, k := (parseLayer s.nextItem p c).k, gateMode := (parseLayer s.nextItem p c).gateMode, renorm := (parseLayer s.nextItem p c).renorm, tokens := (parseLayer s.nextItem p c).tokens, rowBytes := (parseLayer s.nextItem p c).rowBytes, outBytes := (parseLayer s.nextItem p c).outBytes, routeBase := (parseLayer s.nextItem p c).routeBase, inBase := (parseLayer s.nextItem p c).inBase, combBase := (parseLayer s.nextItem p c).combBase, stageBase := (parseLayer s.nextItem p c).stageBase, recBase := (parseLayer s.nextItem p c).recBase, countBase := (parseLayer s.nextItem p c).countBase, expBase := (parseLayer s.nextItem p c).expBase, tagBase := (parseLayer s.nextItem p c).tagBase, outFmt := (parseLayer s.nextItem p c).outFmt, localSenders := (parseLayer s.nextItem p c).localSenders, limitAt := (parseLayer s.nextItem p c).limitAt, sendCore := (parseLayer s.nextItem p c).sendCore, sendCtr := (parseLayer s.nextItem p c).sendCtr, sendVal := (parseLayer s.nextItem p c).sendVal, retCore := (parseLayer s.nextItem p c).retCore, retCtr := (parseLayer s.nextItem p c).retCtr, retVal := (parseLayer s.nextItem p c).retVal, arriveCore := (parseLayer s.nextItem p c).arriveCore, arriveCtr := (parseLayer s.nextItem p c).arriveCtr, doneCore := (parseLayer s.nextItem p c).doneCore, doneCtr := (parseLayer s.nextItem p c).doneCtr, desc := d, formed := (parseLayer s.nextItem p c).formed, routes := (parseLayer s.nextItem p c).routes, hist := (parseLayer s.nextItem p c).hist, admitted := (parseLayer s.nextItem p c).admitted, refused := (parseLayer s.nextItem p c).refused, ends := (parseLayer s.nextItem p c).ends, endsTo := (parseLayer s.nextItem p c).endsTo, arrivals := (parseLayer s.nextItem p c).arrivals, arrived := (parseLayer s.nextItem p c).arrived, returned := (parseLayer s.nextItem p c).returned, returnsLeft := (parseLayer s.nextItem p c).returnsLeft, destDone := (parseLayer s.nextItem p c).destDone, combined := (parseLayer s.nextItem p c).combined, cause := (parseLayer s.nextItem p c).cause, incident := (parseLayer s.nextItem p c).incident : Layer } = false ∧ (s.fabric.selfFenced || s.layerChips.any s.isFenced) = false ∧ 2 ≤ s.expertSize ∧ (∀ (m : SluiceId), s.sluices[m].waiting = [] ∧ ∀ x ∈ s.sluices[m].layers, Still x s)) ∧
    (∃ (s : State) (p : PartId) (c : Capsule) (d : List (ℕ × ℕ × ℕ × ℕ)), NextCapsule p kSluice s c ∧ c.field 0 1 = 2 ∧ s.layerCodes p c (parseLayer s.nextItem p c) = true ∧ s.sluiceTarget p c.target = none ∧ (((s.sluices[sluiceOf c.target].layers ++ s.sluices[sluiceOf c.target].waiting).any fun d => d.part == p && d.layerId == (parseLayer s.nextItem p c).layerId) || !s.sluices[sluiceOf c.target].placed) = false ∧ ((parseLayer s.nextItem p c).ranges.any fun r => (s.viewCheck p r.1 r.2.1).isSome) = false ∧ (({ (without p c s : State) with nextItem := s.nextItem + 1 }).descriptors p (parseLayer s.nextItem p c)).1 = some d ∧ s.capState p ≠ PartState.running) :=
  ⟨⟨sk, 0, by decide +kernel⟩,
    ⟨ts [pw 1 1 2 7, 0, pw 1 3 1 5] (plc cbs 3), 0, plc cbs 3, by unfold NextCapsule; decide +kernel⟩,
    ⟨(ts [] (plc 0 3 2)).updPart 0 (fun x => {x with state := .quiesced}), 0, plc 0 3 2, by unfold NextCapsule; decide +kernel⟩,
    ⟨ts [pw 1 1 2 7, 0, pw 1 4 1 5] (plc cbs 3), 0, plc cbs 3, OutcomeCode.refusedState, (4:Nat), by unfold NextCapsule; decide +kernel⟩,
    ⟨(ts [] (plc cbs 3 2)).updPart 0 (fun x => {x with im := {x.im with img := {x.im.img with sluiceMask := 3}}}), 0, plc cbs 3 2, OutcomeCode.refusedOwner, by unfold NextCapsule; decide +kernel⟩,
    ⟨ts [] (plc cbs 3 2 1), 0, plc cbs 3 2 1, by unfold NextCapsule; decide +kernel⟩,
    ⟨ls lb, 0, lb, DD, by unfold NextCapsule Still; decide +kernel⟩,
    ⟨(ls lb).updPart 0 (fun x => {x with state := .quiesced}), 0, lb, DD, by unfold NextCapsule; decide +kernel⟩⟩

set_option maxRecDepth 20000 in
/-- States and operands that meet the hypotheses of SluiceCapsulesAndTriggers, clause by clause. -/
theorem test_sluice_capsules_and_triggers_b :
    (∃ (s : State) (p : PartId) (c : Capsule), NextCapsule p kSluice s c ∧ c.field 0 1 = 2 ∧ s.layerCodes p c (parseLayer s.nextItem p c) = true ∧ s.sluiceTarget p c.target = none ∧ (((s.sluices[sluiceOf c.target].layers ++ s.sluices[sluiceOf c.target].waiting).any fun d => d.part == p && d.layerId == (parseLayer s.nextItem p c).layerId) || !s.sluices[sluiceOf c.target].placed) = false ∧ ((parseLayer s.nextItem p c).ranges.any fun r => (s.viewCheck p r.1 r.2.1).isSome) = false ∧ (({ (without p c s : State) with nextItem := s.nextItem + 1 }).descriptors p (parseLayer s.nextItem p c)).1 = none) ∧
    (∃ (s : State) (p : PartId) (c : Capsule), NextCapsule p kSluice s c ∧ c.field 0 1 = 2 ∧ s.layerCodes p c (parseLayer s.nextItem p c) = true ∧ s.sluiceTarget p c.target = none ∧ (((s.sluices[sluiceOf c.target].layers ++ s.sluices[sluiceOf c.target].waiting).any fun d => d.part == p && d.layerId == (parseLayer s.nextItem p c).layerId) || !s.sluices[sluiceOf c.target].placed) = true) ∧
    (∃ (s : State) (p : PartId) (c : Capsule), NextCapsule p kSluice s c ∧ c.field 0 1 = 2 ∧ s.layerCodes p c (parseLayer s.nextItem p c) = false) ∧
    (∃ (s : State) (n : SluiceId) (id : W32), (∀ l ∈ s.sluices[n].layers, l.layerId ≠ id)) ∧
    (∃ (s : State) (n : SluiceId) (l : Layer) (j : ℕ) (x : ℕ) (v : W32), LoneLayer n l s ∧ Still l s ∧ s.trigDue l.sendCore l.sendCtr l.sendVal = true ∧ l.tokens = 1 ∧ l.endsTo = [] ∧ coreBase ≤ BitVec.toNat l.routeBase ∧ coreBase ≤ BitVec.toNat l.inBase ∧ l.rowBytes ≤ 4032 ∧ 0 < l.rowBytes ∧ l.hist = [] ∧ (s.slcRead l.part (BitVec.toNat l.routeBase) 256).1.2 = false ∧ slotsOf l.k (s.slcRead l.part (BitVec.toNat l.routeBase) 256).1.1 = [(j, x, v)] ∧ peValid (s.sluices[n].entry x) = true ∧ peCoord (s.sluices[n].entry x) ≠ s.expertCoord s.chip ∧ s.sluices[n].named = [(peCoord (s.sluices[n].entry x), peSluice (s.sluices[n].entry x))] ∧ (s.slcRead l.part (BitVec.toNat l.inBase) l.rowBytes).1.2 = false ∧ l.cause = none ∧ (s.srcStream (streamKey (s.expertChip (peCoord (s.sluices[n].entry x))) 2)).queue = [] ∧ BitVec.toNat ((s.srcStream (streamKey (s.expertChip (peCoord (s.sluices[n].entry x))) 2)).next - (s.srcStream (streamKey (s.expertChip (peCoord (s.sluices[n].entry x))) 2)).floor) ≤ 127 ∧ Reaches (s.expertChip (peCoord (s.sluices[n].entry x))) s) ∧
    (∃ (s : State) (n : SluiceId) (l : Layer) (loc : ℕ) (d : ℕ × ℕ × ℕ × ℕ), LoneLayer n l s ∧ l.arrived = true ∧ l.returned = false ∧ l.destDone = false ∧ l.formed = false ∧ l.routes = [] ∧ s.trigDue l.retCore l.retCtr l.retVal = true ∧ l.admitted = [(loc, 1)] ∧ l.desc[loc]? = some d ∧ coreBase ≤ d.2.1 ∧ coreBase ≤ d.2.2.1 ∧ l.outBytes ≤ 4032 ∧ 0 < l.outBytes ∧ BitVec.ofNat 15 (ldNat (s.slcRead l.part d.2.2.1 16).1.1 0 2) ≠ s.chip ∧ (s.srcStream (streamKey (BitVec.ofNat 15 (ldNat (s.slcRead l.part d.2.2.1 16).1.1 0 2)) 2)).queue = [] ∧ BitVec.toNat ((s.srcStream (streamKey (BitVec.ofNat 15 (ldNat (s.slcRead l.part d.2.2.1 16).1.1 0 2)) 2)).next - (s.srcStream (streamKey (BitVec.ofNat 15 (ldNat (s.slcRead l.part d.2.2.1 16).1.1 0 2)) 2)).floor) ≤ 127 ∧ Reaches (BitVec.ofNat 15 (ldNat (s.slcRead l.part d.2.2.1 16).1.1 0 2)) s) ∧
    (∃ (s : State) (n : SluiceId) (l : Layer), LoneLayer n l s ∧ (l.arrived = false ∨ l.returned = true ∨ l.destDone = true ∨ s.trigDue l.retCore l.retCtr l.retVal = false)) ∧
    (∃ (s : State) (n : SluiceId) (l : Layer), LoneLayer n l s ∧ (l.formed = true ∨ s.trigDue l.sendCore l.sendCtr l.sendVal = false)) ∧
    (∃ (s : State) (n : SluiceId) (id : W32) (at_ : ℕ) (l : Layer), LoneLayer n l s ∧ l.layerId = id ∧ l.limitAt ≤ (s.advanceTo at_).timeNs ∧ l.cause = none ∧ l.routes = [] ∧ l.incident = 0) ∧
    (∃ (s : State) (n : SluiceId) (id : W32) (at_ : ℕ) (l : Layer), s.sluices[n].layers = [] ∧ s.sluices[n].waiting = [l] ∧ l.layerId = id ∧ l.limitAt ≤ (s.advanceTo at_).timeNs) ∧
    (∃ (s : State) (n : SluiceId) (id : W32) (at_ : ℕ) (l : Layer), LoneLayer n l s ∧ l.layerId = id ∧ (s.advanceTo at_).timeNs < l.limitAt) ∧
    (∃ (s : State) (n : SluiceId) (id : W32), (∀ l ∈ s.sluices[n].layers ++ s.sluices[n].waiting, l.layerId ≠ id)) :=
  ⟨⟨wmem (ls lb) 0x10018 [255,255,255], 0, lb, by unfold NextCapsule; decide +kernel⟩,
    ⟨ls lb id, 0, lb, by unfold NextCapsule; decide +kernel⟩,
    ⟨ls (lb 9), 0, (lb 9), by unfold NextCapsule; decide +kernel⟩,
    ⟨sk, 0, 5, by decide +kernel⟩,
    ⟨lo lay, 2, lay, (0:Nat), (1:Nat), (0x3F000000:W32), by unfold LoneLayer Still Reaches; decide +kernel⟩,
    ⟨rst ra, 2, ra, (0:Nat), D1, by unfold LoneLayer Reaches; decide +kernel⟩,
    ⟨lo lay, 2, lay, by unfold LoneLayer; decide +kernel⟩,
    ⟨rst {ra with arrived := false, formed := true}, 2, {ra with arrived := false, formed := true}, by unfold LoneLayer; decide +kernel⟩,
    ⟨lo lay, 2, 9, 105000000, lay, by unfold LoneLayer; decide +kernel⟩,
    ⟨lo lay (fun x => {x with layers := [], waiting := [lay]}), 2, 9, 105000000, lay, by decide +kernel⟩,
    ⟨lo lay, 2, 9, 104999999, lay, by unfold LoneLayer; decide +kernel⟩,
    ⟨lo lay, 2, 8, by decide +kernel⟩⟩

set_option maxRecDepth 20000 in
/-- States and operands that meet the hypotheses of TokenPacketsReachTheirLayer, clause by clause. -/
theorem test_token_packets_reach_their_layer :
    (∃ (s : State) (n : PortId) (k : Packet) (tr : W64), s.mine n k = true ∧ k.kind = 18 ∧ tkSub k = 1 ∧ NextOfStream k s ∧ k.ord = false ∧ tr = pktTrailer k ∧ s.tokenRefusal k = none ∧ (∀ l ∈ s.sluices[tkSluice k].layers, l.part ≠ k.dstPart ∨ l.layerId ≠ tkLayer k)) ∧
    (∃ (s : State) (n : PortId) (k : Packet) (tr : W64), s.mine n k = true ∧ k.kind = 18 ∧ tkSub k = 4 ∧ NextOfStream k s ∧ k.ord = false ∧ tr = pktTrailer k ∧ s.tokenRefusal k = none ∧ (∀ l ∈ s.sluices[tkSluice k].layers, l.part ≠ k.dstPart ∨ l.layerId ≠ tkLayer k)) ∧
    (∃ (s : State) (n : PortId) (k : Packet), (s.mine n k = false ∨ k.kind ≠ 18 ∨ tkSub k ≠ 2)) ∧
    (∃ (s : State) (n : PortId) (k : Packet), (s.mine n k = false ∨ k.kind ≠ 18 ∨ tkSub k ≠ 3)) ∧
    (∃ (s : State) (n : PortId) (k : Packet), (s.mine n k = false ∨ k.kind ≠ 18 ∨ tkSub k ≠ 4)) ∧
    (∃ (s : State) (n : PortId) (k : Packet), (s.mine n k = false ∨ k.kind ≠ 18 ∨ tkSub k ≠ 5)) ∧
    (∃ (s : State) (n : PortId) (k : Packet), (s.mine n k = false ∨ k.kind ≠ 18 ∨ tkSub k ≠ 1)) ∧
    (∃ (s : State) (n : PortId) (k : Packet) (l : Layer) (r : Route) (q : Route), s.mine n k = true ∧ k.kind = 18 ∧ NextOfStream k s ∧ k.ord = false ∧ s.tokenRefusal k = none ∧ LoneLayer (tkSluice k) l s ∧ l.part = k.dstPart ∧ l.layerId = tkLayer k ∧ Sent (tkSluice k) l s ∧ l.destDone = false ∧ l.routes = [r, q] ∧ r.outcome = none ∧ q.outcome = none ∧ r.waits = false ∧ q.waits = false ∧ r.token = 0 ∧ q.token = 0 ∧ l.index r ≠ l.index q ∧ tkToken k * l.k + tkSlot k = l.index r ∧ r.staged = [] ∧ tkSub k = 2 ∧ (segCuts l.outBytes).length = 1 ∧ tkSeg k = 0) ∧
    (∃ (s : State) (n : PortId) (k : Packet) (l : Layer) (r : Route) (q : Route), s.mine n k = true ∧ k.kind = 18 ∧ NextOfStream k s ∧ k.ord = false ∧ s.tokenRefusal k = none ∧ LoneLayer (tkSluice k) l s ∧ l.part = k.dstPart ∧ l.layerId = tkLayer k ∧ Sent (tkSluice k) l s ∧ l.destDone = false ∧ l.routes = [r, q] ∧ r.outcome = none ∧ q.outcome = none ∧ r.waits = false ∧ q.waits = false ∧ r.token = 0 ∧ q.token = 0 ∧ l.index r ≠ l.index q ∧ tkToken k * l.k + tkSlot k = l.index r ∧ r.staged = [] ∧ tkSub k = 3) ∧
    (∃ (s : State) (n : PortId) (k : Packet) (l : Layer) (e : ℕ × ℕ × ℕ × ℕ), s.mine n k = true ∧ k.kind = 18 ∧ NextOfStream k s ∧ k.ord = false ∧ s.tokenRefusal k = none ∧ LoneLayer (tkSluice k) l s ∧ l.part = k.dstPart ∧ l.layerId = tkLayer k ∧ tkSub k = 4 ∧ l.formed = false ∧ l.routes = [] ∧ l.arrived = false ∧ l.cause = none ∧ l.returned = false ∧ l.destDone = false ∧ s.expertSize = 2 ∧ l.ends = [e] ∧ e.2.2.2 = 1 ∧ tkArg k = 1 ∧ (e.1, s.expertCoord k.src) ∈ [(0, 1), (1, 0)] ∧ e.2.2.1 + tkCount k ≤ l.arrivals) ∧
    (∃ (s : State) (n : PortId) (k : Packet) (l : Layer) (r : Route), s.mine n k = true ∧ k.kind = 18 ∧ NextOfStream k s ∧ k.ord = false ∧ s.tokenRefusal k = none ∧ LoneLayer (tkSluice k) l s ∧ l.part = k.dstPart ∧ l.layerId = tkLayer k ∧ tkSub k = 3 ∧ Sent (tkSluice k) l s ∧ l.destDone = true ∧ l.routes = [r] ∧ r.outcome = none ∧ r.waits = false ∧ r.token = 0 ∧ tkToken k * l.k + tkSlot k = l.index r ∧ tkArg k = 20 ∧ l.incident = 0 ∧ s.viewGone l.part ((BitVec.toNat l.recBase + 32 * l.index r) / 64 * 64) 1 = false) ∧
    (∃ (s : State) (n : PortId) (k : Packet) (l : Layer) (loc : ℕ), s.mine n k = true ∧ k.kind = 18 ∧ NextOfStream k s ∧ k.ord = false ∧ s.tokenRefusal k = none ∧ LoneLayer (tkSluice k) l s ∧ l.part = k.dstPart ∧ l.layerId = tkLayer k ∧ tkSub k = 1 ∧ Still l s ∧ s.sluices[tkSluice k].progress = [] ∧ l.matches? k = true ∧ tkNseg k = 1 ∧ s.localExpert (tkSluice k) (tkExpert k) = some loc ∧ (l.desc.getD loc (0, 0, 0, 0)).2.2.2 ≤ l.admitted.getD loc 0 ∧ (s.srcStream (streamKey k.src 2)).queue = [] ∧ BitVec.toNat ((s.srcStream (streamKey k.src 2)).next - (s.srcStream (streamKey k.src 2)).floor) ≤ 127 ∧ Reaches k.src s) ∧
    (∃ (s : State) (n : PortId) (k : Packet) (l : Layer) (loc : ℕ), s.mine n k = true ∧ k.kind = 18 ∧ NextOfStream k s ∧ k.ord = false ∧ s.tokenRefusal k = none ∧ LoneLayer (tkSluice k) l s ∧ l.part = k.dstPart ∧ l.layerId = tkLayer k ∧ tkSub k = 1 ∧ Still l s ∧ s.sluices[tkSluice k].progress = [] ∧ l.matches? k = true ∧ tkNseg k = 1 ∧ s.localExpert (tkSluice k) (tkExpert k) = some loc ∧ l.admitted.getD loc 0 < (l.desc.getD loc (0, 0, 0, 0)).2.2.2) ∧
    (∃ (s : State) (n : PortId) (k : Packet) (l : Layer) (o : OutcomeCode), s.mine n k = true ∧ k.kind = 18 ∧ NextOfStream k s ∧ k.ord = false ∧ s.tokenRefusal k = none ∧ LoneLayer (tkSluice k) l s ∧ l.part = k.dstPart ∧ l.layerId = tkLayer k ∧ tkSub k = 5 ∧ l.cause = none ∧ l.routes = [] ∧ l.incident = 0 ∧ OutcomeCode.ofCode (tkArg k) = o ∧ o ≠ OutcomeCode.done) :=
  ⟨⟨sk, 5, tp 1 0 0 0 0 0 b64, pktTrailer (tp 1 0 0 0 0 0 b64), by unfold NextOfStream; decide +kernel⟩,
    ⟨sk, 5, tp 4 0 0 0 0 0, pktTrailer (tp 4 0 0 0 0 0), by unfold NextOfStream; decide +kernel⟩,
    ⟨sk, 5, tp 1 0 0 0 0 0 b64, by decide +kernel⟩,
    ⟨sk, 5, tp 1 0 0 0 0 0 b64, by decide +kernel⟩,
    ⟨sk, 5, tp 1 0 0 0 0 0 b64, by decide +kernel⟩,
    ⟨sk, 5, tp 1 0 0 0 0 0 b64, by decide +kernel⟩,
    ⟨sk, 5, tp 4 0 0 0 0 0, by decide +kernel⟩,
    ⟨lo lr, 5, tp 2 0 0 1 0 0 b64, lr, R0, R1, by unfold LoneLayer Sent NextOfStream; decide +kernel⟩,
    ⟨lo lr, 5, tp 3 0 0 1 0x14 0, lr, R0, R1, by unfold LoneLayer Sent NextOfStream; decide +kernel⟩,
    ⟨lo le id 2, 5, tp 4 0 0 0 1 7 [] 0, le, (1, 1, 2, 1), by unfold LoneLayer NextOfStream; decide +kernel⟩,
    ⟨lo l1, 5, tp 3 0 0 1 0x14 0, l1, R0, by unfold LoneLayer Sent NextOfStream; decide +kernel⟩,
    ⟨lo lf tb, 5, tp 1 0 0 1 0 0 b64, lf, (0:Nat), by unfold LoneLayer Still Reaches NextOfStream; decide +kernel⟩,
    ⟨lo lay tb, 5, tp 1 0 0 1 0 0 b64, lay, (0:Nat), by unfold LoneLayer Still NextOfStream; decide +kernel⟩,
    ⟨lo lay, 5, tp 5 0 0 0 0x10 7, lay, OutcomeCode.failedLink, by unfold LoneLayer NextOfStream; decide +kernel⟩⟩

end Sluices

/-! ### Witnesses of the statements about pumps -/

namespace Pumps

def pk (f : Fabric → Fabric := id) : State := { cbase with ports := cbase.ports.map fun x => { x with state := .admitted, nbrAdmitted := true, laneMask := 0xFFFF }, image := { cbase.image with fabric := { cbase.image.fabric with dims := #v[1,1,4], reserve := Vector.replicate 12 64, tc0Permille := 10, pair := Vector.ofFn id } }, fabric := f cbase.fabric }
def mc (kind target : Nat) (params : List Byte) (body : List Byte) : Capsule := { seq := 1, kind := kind, target := target, flags := 0, tag := 77, step := 5, params := params ++ List.replicate (32 - params.length) 0, body := body }
def wc (s : State) (c : Capsule) : State := s.updPart 0 fun x => { x with caps := { x.caps with queue := [c] }, cq := { x.cq with enable := true } }
def cbs : Nat := coreBase + 0x400000 * 5
def wmem (s : State) (a : Nat) (l : List Byte) : State := s.updCore 5 fun x => { x with mem := wrL x.mem a l }
def gb (op first count buf : Nat) (step := 0): Capsule := mc 7 0xFF [] (leBytes op 2 ++ leBytes first 2 ++ leBytes count 2 ++ leBytes 0 2 ++ leBytes buf 8 ++ leBytes step 4 ++ leBytes 0 44)
def G1 : Group := { valid := true, pump := 1, gradFmt := 9, workFmt := 7, step := 6, count := 64, stateOff := 0x1000, workOff := 0x2000, gradOff := BitVec.ofNat 64 (cbs + 0x8000), coef := Vector.replicate 16 0x3F000000 }
def gs (c : Capsule) (l : List (Nat × Group)) (f : Partition → Partition := id) : State := (wc pk c).updPart 0 fun x => f { x with groups := l }
def pb (op first count rec clear : Nat) (fl := 0) (tc := 255) (tv := 0) : Capsule := { mc 6 0xFF [] (leBytes op 1 ++ leBytes fl 1 ++ leBytes first 2 ++ leBytes count 2 ++ leBytes 0 2 ++ leBytes (if op = 3 then 0 else 0x3F800000) 4 ++ leBytes 0 4 ++ leBytes rec 8 ++ leBytes clear 8 ++ leBytes tc 1 ++ leBytes 0 3 ++ leBytes tv 4 ++ leBytes 3 1 ++ leBytes 4 1 ++ leBytes 0 2 ++ leBytes 0 4 ++ leBytes 0 16) with step := 7 }
def P (op : PumpOp) (fl := 0) (tc := 255) (tv := 0) : PumpCmd := pumpCmdOf op (pb 1 3 1 cbs (cbs + 256) fl tc tv) 9
def ps (c : PumpCmd) (l : List (Nat × Group)) (f : Partition → Partition := id) : State := (pk).updPart 0 fun x => f { x with groups := l, cmds := [c], cq := { x.cq with enable := true } }
def ov (b : Bool) (x : Partition) : Partition := {x with storm := {x.storm with histHead := 1, hist := x.storm.hist.set 0 { step := 7, valid := true, isOpen := b } }}
def G2 : Group := { G1 with privileged := true }
def n1 (o : OutcomeCode) : ClaimNote := ⟨3,7,o⟩
def rw_ (c : PumpCmd) (g : Group) : List Nat × NFlags := match (((ps c [(3,g)]).evalRow 0 3 7 0x3F800000).1) with | .ok x => x | _ => ([], {})
def rl : List Nat := (rw_ (P .update) G1).1
def rf : NFlags := (rw_ (P .update) G1).2
def px (c : PumpCmd) (l : List (Nat × Group)) (f : Pump → Pump) (g : Partition → Partition := id) : State := { ps c l g with pumps := updAt (ps c l).pumps 1 f }
def sw (b : Nat) : Sweep := { part := 0, group := 3, cmd := 9, t := 7, block := b, row := rl }
def Ps : PumpCmd := { P .update with bound := some true, stages := [.sweep] }
def gst (s : State) : State := wmem s 0x8000 ((List.range 256).map fun i => BitVec.ofNat 8 (if i % 4 = 3 then 0x3F else i))

/-- States and operands that meet the hypotheses of GroupTableOpsAreAllOrNothing, clause by clause. -/
theorem test_group_table_ops_are_all_or_nothing :
    (∃ (s : State) (p : PartId), (∀ c ∈ s.parts[p].caps.queue, c.kind ≠ kGroup)) ∧
    (∃ (s : State) (p : PartId) (c : Capsule), NextCapsule p kGroup s c ∧ c.field 0 1 = 5 ∧ groupBodyOk c = true ∧ (5 ≤ 2 → s.viewCheck p (c.field 8 8) (128 * c.field 4 2) = none) ∧ 5 ≠ 2 ∧ ¬s.capState p ≠ PartState.stopped) ∧
    (∃ (s : State) (p : PartId) (c : Capsule), NextCapsule p kGroup s c ∧ c.field 0 1 = 1 ∧ groupBodyOk c = true ∧ (1 ≤ 2 → s.viewCheck p (c.field 8 8) (128 * c.field 4 2) = none) ∧ 1 ≠ 2) ∧
    (∃ (s : State) (p : PartId) (c : Capsule), NextCapsule p kGroup s c ∧ c.field 0 1 = 1 ∧ groupBodyOk c = true ∧ 1 ≤ 2) ∧
    (∃ (s : State) (p : PartId) (c : Capsule), NextCapsule p kGroup s c ∧ c.field 0 1 = 3 ∧ groupBodyOk c = false) ∧
    (∃ (s : State) (p : PartId) (c : Capsule) (i : ℕ), NextCapsule p kGroup s c ∧ groupBodyOk c = true ∧ s.capState p ≠ PartState.stopped ∧ c.field 0 1 = 5 ∧ (List.find? (fun i => (fun i => have g := s.group p (c.field 2 2 + i); if 5 = 5 then if g.torn = false then 3 else if g.busy = true then 1 else 0 else if g.busy = true then 1 else if g.torn = true then 2 else 0) i != 0) (List.range (c.field 4 2)) = some i)) ∧
    (∃ (s : State) (p : PartId) (c : Capsule), NextCapsule p kGroup s c ∧ groupBodyOk c = true ∧ s.capState p ≠ PartState.stopped ∧ c.field 0 1 = 5 ∧ (List.find? (fun i => (fun i => have g := s.group p (c.field 2 2 + i); if 5 = 5 then if g.torn = false then 3 else if g.busy = true then 1 else 0 else if g.busy = true then 1 else if g.torn = true then 2 else 0) i != 0) (List.range (c.field 4 2)) = none)) ∧
    (∃ (s : State) (p : PartId) (c : Capsule), NextCapsule p kGroup s c ∧ groupBodyOk c = true ∧ s.capState p ≠ PartState.stopped ∧ c.field 0 1 = 3 ∧ (List.find? (fun i => (fun i => have g := s.group p (c.field 2 2 + i); if 3 = 5 then if g.torn = false then 3 else if g.busy = true then 1 else 0 else if g.busy = true then 1 else if g.torn = true then 2 else 0) i != 0) (List.range (c.field 4 2)) = none)) ∧
    (∃ (s : State) (p : PartId) (c : Capsule) (i : ℕ), NextCapsule p kGroup s c ∧ groupBodyOk c = true ∧ s.capState p ≠ PartState.stopped ∧ c.field 0 1 = 4 ∧ (List.find? (fun i => (fun i => have g := s.group p (c.field 2 2 + i); if 4 = 5 then if g.torn = false then 3 else if g.busy = true then 1 else 0 else if g.busy = true then 1 else if g.torn = true then 2 else 0) i != 0) (List.range (c.field 4 2)) = some i)) ∧
    (∃ (s : State) (p : PartId) (c : Capsule), NextCapsule p kGroup s c ∧ groupBodyOk c = true ∧ c.field 0 1 = 2 ∧ s.viewCheck p (c.field 8 8) (128 * c.field 4 2) = none) ∧
    (∃ (s : State) (p : PartId) (c : Capsule), NextCapsule p kGroup s c ∧ groupBodyOk c = true ∧ c.field 0 1 = 1 ∧ s.viewCheck p (c.field 8 8) (128 * c.field 4 2) = none ∧ s.capState p ≠ PartState.stopped ∧ List.find? (fun i => ((fun i => ((without p c s).groupSource p (c.field 8 8) (c.field 4 2)).1.getD i ([], false)) i).2) (List.range (c.field 4 2)) = none ∧ (List.find? (fun i => (fun i => have g := s.group p (c.field 2 2 + i); let x := Group.parse ((fun i => ((without p c s).groupSource p (c.field 8 8) (c.field 4 2)).1.getD i ([], false)) i).1; if g.busy = true then 1 else if g.torn = true then 2 else if deviceZero ((fun i => ((without p c s).groupSource p (c.field 8 8) (c.field 4 2)).1.getD i ([], false)) i).1 = false ∨ x.valid = true ∧ (((without p c s).groupSource p (c.field 8 8) (c.field 4 2)).2.meterMove p (c.field 8 8) (128 * c.field 4 2) false).groupValid p ((fun i => ((without p c s).groupSource p (c.field 8 8) (c.field 4 2)).1.getD i ([], false)) i).1 = false then 4 else if x.valid = true ∧ s.parts[p].im.img.groupCount[pumpOf x.pump] < s.groupsOn p (c.field 2 2) (List.map (fun i => Group.parse ((fun i => ((without p c s).groupSource p (c.field 8 8) (c.field 4 2)).1.getD i ([], false)) i).1) (List.range (c.field 4 2))) x.pump then 5 else 0) i != 0) (List.range (c.field 4 2)) = none)) ∧
    (∃ (s : State) (p : PartId) (c : Capsule) (i : ℕ), NextCapsule p kGroup s c ∧ groupBodyOk c = true ∧ c.field 0 1 = 1 ∧ s.viewCheck p (c.field 8 8) (128 * c.field 4 2) = none ∧ s.capState p ≠ PartState.stopped ∧ List.find? (fun i => ((fun i => ((without p c s).groupSource p (c.field 8 8) (c.field 4 2)).1.getD i ([], false)) i).2) (List.range (c.field 4 2)) = none ∧ (List.find? (fun i => (fun i => have g := s.group p (c.field 2 2 + i); let x := Group.parse ((fun i => ((without p c s).groupSource p (c.field 8 8) (c.field 4 2)).1.getD i ([], false)) i).1; if g.busy = true then 1 else if g.torn = true then 2 else if deviceZero ((fun i => ((without p c s).groupSource p (c.field 8 8) (c.field 4 2)).1.getD i ([], false)) i).1 = false ∨ x.valid = true ∧ (((without p c s).groupSource p (c.field 8 8) (c.field 4 2)).2.meterMove p (c.field 8 8) (128 * c.field 4 2) false).groupValid p ((fun i => ((without p c s).groupSource p (c.field 8 8) (c.field 4 2)).1.getD i ([], false)) i).1 = false then 4 else if x.valid = true ∧ s.parts[p].im.img.groupCount[pumpOf x.pump] < s.groupsOn p (c.field 2 2) (List.map (fun i => Group.parse ((fun i => ((without p c s).groupSource p (c.field 8 8) (c.field 4 2)).1.getD i ([], false)) i).1) (List.range (c.field 4 2))) x.pump then 5 else 0) i != 0) (List.range (c.field 4 2)) = some i)) ∧
    (∃ (s : State) (p : PartId) (c : Capsule) (i : ℕ), NextCapsule p kGroup s c ∧ groupBodyOk c = true ∧ c.field 0 1 = 1 ∧ s.viewCheck p (c.field 8 8) (128 * c.field 4 2) = none ∧ s.capState p ≠ PartState.stopped ∧ List.find? (fun i => ((fun i => ((without p c s).groupSource p (c.field 8 8) (c.field 4 2)).1.getD i ([], false)) i).2) (List.range (c.field 4 2)) = some i) :=
  ⟨⟨pk, 0, by decide +kernel⟩,
    ⟨gs (gb 5 3 2 0) [] (fun x => {x with state := .stopped}), 0, gb 5 3 2 0, by unfold NextCapsule; decide +kernel⟩,
    ⟨gs (gb 1 3 2 0x10000000000) [], 0, gb 1 3 2 0x10000000000, by unfold NextCapsule; decide +kernel⟩,
    ⟨gs (gb 1 3 2 0x10000000000) [], 0, gb 1 3 2 0x10000000000, by unfold NextCapsule; decide +kernel⟩,
    ⟨gs (gb 3 3 0 0) [], 0, gb 3 3 0 0, by unfold NextCapsule; decide +kernel⟩,
    ⟨gs (gb 5 3 2 0 9) [(3,{G1 with torn := true}), (4,{G1 with torn := true, busy := true})], 0, gb 5 3 2 0 9, (1:Nat), by unfold NextCapsule; decide +kernel⟩,
    ⟨gs (gb 5 3 2 0 9) [(3,{G1 with torn := true}), (4,{G1 with torn := true, mixed := true})], 0, gb 5 3 2 0 9, by unfold NextCapsule; decide +kernel⟩,
    ⟨gs (gb 3 3 2 0) [(3,G1)], 0, gb 3 3 2 0, by unfold NextCapsule; decide +kernel⟩,
    ⟨gs (gb 4 3 2 0) [(3,{G1 with busy := true})], 0, gb 4 3 2 0, (0:Nat), by unfold NextCapsule; decide +kernel⟩,
    ⟨gs (gb 2 3 2 (cbs + 64)) [(3,{G1 with busy := true})], 0, gb 2 3 2 (cbs + 64), by unfold NextCapsule; decide +kernel⟩,
    ⟨wmem (gs (gb 1 3 2 (cbs + 64)) [(5,G1)]) 64 (G1.bytes), 0, gb 1 3 2 (cbs + 64), by unfold NextCapsule; decide +kernel⟩,
    ⟨wmem (gs (gb 1 3 2 (cbs + 64)) [(5,G1)]) 64 ({G1 with torn := true}.bytes), 0, gb 1 3 2 (cbs + 64), (0:Nat), by unfold NextCapsule; decide +kernel⟩,
    ⟨(wmem (gs (gb 1 3 2 (cbs + 64)) [(5,G1)]) 64 ({G1 with torn := true}.bytes)).updCore 5 (fun x => {x with memPoison := [3]}), 0, gb 1 3 2 (cbs + 64), (1:Nat), by unfold NextCapsule; decide +kernel⟩⟩

/-- States and operands that meet the hypotheses of PumpCommandsSweepTheirGroups, clause by clause. -/
theorem test_pump_commands_sweep_their_groups_a :
    (∃ (s : State) (p : PartId), (∀ c ∈ s.parts[p].caps.queue, c.kind ≠ kPump)) ∧
    (∃ (s : State) (p : PartId) (c : Capsule), NextCapsule p kPump s c ∧ c.field 0 1 = 1 ∧ s.pumpBodyOk p c = true ∧ s.viewCheck p (c.field 16 8) (32 * c.field 4 2) = none ∧ s.parts[p].storm.latched = true ∧ 1 ≠ 3 ∧ s.triggered (pumpCmdOf PumpOp.update c s.nextItem).trigCore (pumpCmdOf PumpOp.update c s.nextItem).trigCtr (pumpCmdOf PumpOp.update c s.nextItem).trigVal = false ∧ s.parts[p].cmds = [] ∧ s.parts[p].state = PartState.running ∧ (pumpCmdOf PumpOp.update c s.nextItem).count = 1 ∧ Option.map s.locGone (s.viewLoc p (BitVec.toNat (pumpCmdOf PumpOp.update c s.nextItem).recOff)) = some false) ∧
    (∃ (s : State) (p : PartId) (c : Capsule), NextCapsule p kPump s c ∧ c.field 0 1 = 2 ∧ s.pumpBodyOk p c = true ∧ s.viewCheck p (c.field 16 8) (32 * c.field 4 2) = none ∧ s.parts[p].storm.latched = true ∧ 2 ≠ 3 ∧ s.triggered (pumpCmdOf PumpOp.claim c s.nextItem).trigCore (pumpCmdOf PumpOp.claim c s.nextItem).trigCtr (pumpCmdOf PumpOp.claim c s.nextItem).trigVal = false ∧ s.parts[p].cmds = [] ∧ s.parts[p].state = PartState.running ∧ (pumpCmdOf PumpOp.claim c s.nextItem).count = 1 ∧ Option.map s.locGone (s.viewLoc p (BitVec.toNat (pumpCmdOf PumpOp.claim c s.nextItem).recOff)) = some false) ∧
    (∃ (s : State) (p : PartId) (c : Capsule), NextCapsule p kPump s c ∧ c.field 0 1 = 1 ∧ s.pumpBodyOk p c = true ∧ s.viewCheck p (c.field 16 8) (32 * c.field 4 2) = none ∧ s.capState p = PartState.running ∧ (s.parts[p].storm.latched = false ∨ 1 = 3 ∨ s.triggered (pumpCmdOf PumpOp.update c s.nextItem).trigCore (pumpCmdOf PumpOp.update c s.nextItem).trigCtr (pumpCmdOf PumpOp.update c s.nextItem).trigVal = true)) ∧
    (∃ (s : State) (p : PartId) (c : Capsule), NextCapsule p kPump s c ∧ c.field 0 1 = 2 ∧ s.pumpBodyOk p c = true ∧ s.viewCheck p (c.field 16 8) (32 * c.field 4 2) = none ∧ s.capState p = PartState.running ∧ (s.parts[p].storm.latched = false ∨ 2 = 3 ∨ s.triggered (pumpCmdOf PumpOp.claim c s.nextItem).trigCore (pumpCmdOf PumpOp.claim c s.nextItem).trigCtr (pumpCmdOf PumpOp.claim c s.nextItem).trigVal = true)) ∧
    (∃ (s : State) (p : PartId) (c : Capsule), NextCapsule p kPump s c ∧ c.field 0 1 = 3 ∧ s.pumpBodyOk p c = true ∧ s.viewCheck p (c.field 16 8) (32 * c.field 4 2) = none ∧ s.capState p = PartState.running ∧ (s.parts[p].storm.latched = false ∨ 3 = 3 ∨ s.triggered (pumpCmdOf PumpOp.settle c s.nextItem).trigCore (pumpCmdOf PumpOp.settle c s.nextItem).trigCtr (pumpCmdOf PumpOp.settle c s.nextItem).trigVal = true)) ∧
    (∃ (s : State) (p : PartId) (c : Capsule), NextCapsule p kPump s c ∧ c.field 0 1 = 3 ∧ s.pumpBodyOk p c = true ∧ s.viewCheck p (c.field 16 8) (32 * c.field 4 2) = none ∧ s.capState p ≠ PartState.running) ∧
    (∃ (s : State) (p : PartId) (c : Capsule), NextCapsule p kPump s c ∧ c.field 0 1 = 2 ∧ 2 = 2 ∧ s.pumpBodyOk p c = true) ∧
    (∃ (s : State) (p : PartId) (c : Capsule), NextCapsule p kPump s c ∧ c.field 0 1 = 2 ∧ s.pumpBodyOk p c = false) ∧
    (∃ (s : State) (p : PartId) (c : PumpCmd), s.parts[p].cmds = [c] ∧ (c.fired = true ∨ s.triggered c.trigCore c.trigCtr c.trigVal = false)) ∧
    (∃ (s : State) (p : PartId) (c : PumpCmd) (row : List ℕ) (fl : NFlags), LoneCmd p c s ∧ c.fired = false ∧ c.stages = [GroupStage.untriggered] ∧ s.triggered c.trigCore c.trigCtr c.trigVal = true ∧ c.op = PumpOp.claim ∧ (s.group p c.first).valid = true ∧ s.parts[p].im.img.cisZ[pumpOf (s.group p c.first).pump] ≠ 0 ∧ (s.group p c.first).busy = false ∧ (s.group p c.first).privileged = true ∧ c.resume = false ∧ (s.group p c.first).frozen = false ∧ (if c.resume = true then (s.group p c.first).tornStep = c.t ∧ (s.group p c.first).mixed = false else (s.group p c.first).torn = false ∧ (s.group p c.first).step = c.t - 1) ∧ s.parts[p].storm.latched = false ∧ s.parts[p].storm.standing c.t = some true ∧ (s.group p c.first).curve = false ∧ (s.evalRow p c.first c.t c.gScale).1 = Except.ok (row, fl) ∧ s.parts[p].claims = []) ∧
    (∃ (s : State) (p : PartId) (c : PumpCmd), LoneCmd p c s ∧ c.fired = false ∧ c.stages = [GroupStage.untriggered] ∧ s.triggered c.trigCore c.trigCtr c.trigVal = true ∧ c.op = PumpOp.update ∧ (s.group p c.first).valid = true ∧ s.parts[p].im.img.cisZ[pumpOf (s.group p c.first).pump] ≠ 0 ∧ (s.group p c.first).busy = false ∧ (s.group p c.first).privileged = false ∧ (c.resume = false ∨ (s.group p c.first).torn = true) ∧ (s.group p c.first).frozen = false ∧ (if c.resume = true then (s.group p c.first).tornStep = c.t ∧ (s.group p c.first).mixed = false else (s.group p c.first).torn = false ∧ (s.group p c.first).step = c.t - 1) ∧ s.parts[p].storm.latched = false ∧ s.parts[p].storm.standing c.t ≠ some false) ∧
    (∃ (s : State) (p : PartId) (c : PumpCmd), LoneCmd p c s ∧ c.fired = false ∧ c.stages = [GroupStage.untriggered] ∧ s.triggered c.trigCore c.trigCtr c.trigVal = true ∧ c.op = PumpOp.update ∧ (s.group p c.first).valid = true ∧ s.parts[p].im.img.cisZ[pumpOf (s.group p c.first).pump] ≠ 0 ∧ (s.group p c.first).busy = false ∧ (s.group p c.first).privileged = false ∧ (c.resume = false ∨ (s.group p c.first).torn = true) ∧ (s.group p c.first).frozen = false ∧ (if c.resume = true then (s.group p c.first).tornStep = c.t ∧ (s.group p c.first).mixed = false else (s.group p c.first).torn = false ∧ (s.group p c.first).step = c.t - 1) ∧ s.parts[p].storm.latched = true) ∧
    (∃ (s : State) (p : PartId) (c : PumpCmd), LoneCmd p c s ∧ c.fired = false ∧ c.stages = [GroupStage.untriggered] ∧ s.triggered c.trigCore c.trigCtr c.trigVal = true ∧ c.op = PumpOp.update ∧ (s.group p c.first).valid = true ∧ s.parts[p].im.img.cisZ[pumpOf (s.group p c.first).pump] ≠ 0 ∧ (s.group p c.first).busy = false ∧ (s.group p c.first).privileged = false ∧ (c.resume = false ∨ (s.group p c.first).torn = true) ∧ (s.group p c.first).frozen = false ∧ (¬if c.resume = true then (s.group p c.first).tornStep = c.t ∧ (s.group p c.first).mixed = false else (s.group p c.first).torn = false ∧ (s.group p c.first).step = c.t - 1)) ∧
    (∃ (s : State) (p : PartId) (c : PumpCmd) (n : ClaimNote), LoneCmd p c s ∧ c.fired = false ∧ c.stages = [GroupStage.untriggered] ∧ s.triggered c.trigCore c.trigCtr c.trigVal = true ∧ c.op = PumpOp.settle ∧ (s.group p c.first).valid = true ∧ s.parts[p].im.img.cisZ[pumpOf (s.group p c.first).pump] ≠ 0 ∧ (s.group p c.first).privileged = true ∧ s.parts[p].storm.standing c.t = none ∧ List.find? (fun n => n.group == c.first && n.t == c.t) s.parts[p].claims = some n ∧ n.outcome = OutcomeCode.done ∧ (s.group p c.first).busy = true) :=
  ⟨⟨pk, 0, by decide +kernel⟩,
    ⟨gs (pb 1 3 1 cbs 0 0 3 9) [] (fun x => {x with storm := {x.storm with latched := true}}), 0, pb 1 3 1 cbs 0 0 3 9, by unfold NextCapsule; decide +kernel⟩,
    ⟨gs (pb 2 3 1 cbs (cbs + 256) 0 3 9) [] (fun x => {x with storm := {x.storm with latched := true}}), 0, pb 2 3 1 cbs (cbs + 256) 0 3 9, by unfold NextCapsule; decide +kernel⟩,
    ⟨gs (pb 1 3 2 cbs 0) [], 0, pb 1 3 2 cbs 0, by unfold NextCapsule; decide +kernel⟩,
    ⟨gs (pb 2 3 2 cbs (cbs + 256)) [], 0, pb 2 3 2 cbs (cbs + 256), by unfold NextCapsule; decide +kernel⟩,
    ⟨gs (pb 3 3 2 cbs 0) [], 0, pb 3 3 2 cbs 0, by unfold NextCapsule; decide +kernel⟩,
    ⟨gs (pb 3 3 2 cbs 0) [] (fun x => {x with state := .quiesced}), 0, pb 3 3 2 cbs 0, by unfold NextCapsule; decide +kernel⟩,
    ⟨gs (pb 2 3 2 cbs (cbs + 256)) [], 0, pb 2 3 2 cbs (cbs + 256), by unfold NextCapsule; decide +kernel⟩,
    ⟨gs (pb 2 3 2 cbs 256) [], 0, pb 2 3 2 cbs 256, by unfold NextCapsule; decide +kernel⟩,
    ⟨ps (P .update 0 3 5) [], 0, P .update 0 3 5, by decide +kernel⟩,
    ⟨ps (P .claim) [(3,G2)] (ov true), 0, P .claim, rl, rf, by unfold LoneCmd; decide +kernel⟩,
    ⟨ps (P .update) [(3,G1)], 0, P .update, by unfold LoneCmd; decide +kernel⟩,
    ⟨ps (P .update) [(3,G1)] (fun x => {x with storm := {x.storm with latched := true}}), 0, P .update, by unfold LoneCmd; decide +kernel⟩,
    ⟨ps (P .update) [(3,{G1 with step := 5})], 0, P .update, by unfold LoneCmd; decide +kernel⟩,
    ⟨ps (P .settle) [(3,{G2 with busy := true})] (fun x => {x with claims := [n1 .done]}), 0, P .settle, n1 .done, by unfold LoneCmd; decide +kernel⟩⟩

/-- States and operands that meet the hypotheses of PumpCommandsSweepTheirGroups, clause by clause. -/
theorem test_pump_commands_sweep_their_groups_b :
    (∃ (s : State) (p : PartId) (c : PumpCmd), LoneCmd p c s ∧ c.fired = false ∧ c.stages = [GroupStage.untriggered] ∧ s.triggered c.trigCore c.trigCtr c.trigVal = true ∧ c.op = PumpOp.update ∧ (s.group p c.first).valid = true ∧ s.parts[p].im.img.cisZ[pumpOf (s.group p c.first).pump] ≠ 0 ∧ (s.group p c.first).busy = false ∧ (s.group p c.first).privileged = false ∧ (c.resume = false ∨ (s.group p c.first).torn = true) ∧ (s.group p c.first).frozen = true) ∧
    (∃ (s : State) (p : PartId) (c : PumpCmd) (n : ClaimNote), LoneCmd p c s ∧ c.fired = false ∧ c.stages = [GroupStage.untriggered] ∧ s.triggered c.trigCore c.trigCtr c.trigVal = true ∧ c.op = PumpOp.settle ∧ (s.group p c.first).valid = true ∧ s.parts[p].im.img.cisZ[pumpOf (s.group p c.first).pump] ≠ 0 ∧ (s.group p c.first).privileged = true ∧ s.parts[p].storm.standing c.t = none ∧ List.find? (fun n => n.group == c.first && n.t == c.t) s.parts[p].claims = some n ∧ n.outcome ≠ OutcomeCode.done) ∧
    (∃ (s : State) (p : PartId) (c : PumpCmd), LoneCmd p c s ∧ c.fired = false ∧ c.stages = [GroupStage.untriggered] ∧ s.triggered c.trigCore c.trigCtr c.trigVal = true ∧ c.op = PumpOp.settle ∧ (s.group p c.first).valid = true ∧ s.parts[p].im.img.cisZ[pumpOf (s.group p c.first).pump] ≠ 0 ∧ (s.group p c.first).privileged = true ∧ s.parts[p].storm.standing c.t = none ∧ List.find? (fun n => n.group == c.first && n.t == c.t) s.parts[p].claims = none) ∧
    (∃ (s : State) (p : PartId) (c : PumpCmd), LoneCmd p c s ∧ c.fired = false ∧ c.stages = [GroupStage.untriggered] ∧ s.triggered c.trigCore c.trigCtr c.trigVal = true ∧ c.op = PumpOp.update ∧ (s.group p c.first).valid = true ∧ s.parts[p].im.img.cisZ[pumpOf (s.group p c.first).pump] ≠ 0 ∧ (s.group p c.first).busy = false ∧ ((s.group p c.first).privileged = true ∨ c.resume = true ∧ (s.group p c.first).torn = false)) ∧
    (∃ (s : State) (p : PartId) (c : PumpCmd), LoneCmd p c s ∧ c.fired = false ∧ c.stages = [GroupStage.untriggered] ∧ s.triggered c.trigCore c.trigCtr c.trigVal = true ∧ c.op ≠ PumpOp.claim ∧ (s.group p c.first).valid = true ∧ s.parts[p].im.img.cisZ[pumpOf (s.group p c.first).pump] = 0) ∧
    (∃ (s : State) (p : PartId) (c : PumpCmd), LoneCmd p c s ∧ c.fired = false ∧ c.stages = [GroupStage.untriggered] ∧ s.triggered c.trigCore c.trigCtr c.trigVal = true ∧ c.op ≠ PumpOp.claim ∧ (s.group p c.first).valid = false) ∧
    (∃ (s : State) (u : PumpId) (p : PartId) (g : ℕ) (id : ℕ) (c : PumpCmd) (row : List ℕ) (fl : NFlags), s.pumps[u].sweep = none ∧ s.pumps[u].resetting = false ∧ s.pumps[u].mem.gone = false ∧ s.pumps[u].order = [(p, g, id)] ∧ s.sweepReady (p, g, id) = true ∧ s.parts[p].cmds = [c] ∧ c.id = id ∧ (s.group p g).curve = false ∧ (s.evalRow p g c.t c.gScale).1 = Except.ok (row, fl)) ∧
    (∃ (s : State) (u : PumpId), (s.pumps[u].sweep ≠ none ∨ s.pumps[u].resetting = true ∨ s.pumps[u].mem.gone = true ∨ List.find? (fun e => s.sweepReady e) s.pumps[u].order = none)) ∧
    (∃ (s : State) (u : PumpId), s.pumps[u].sweep = none) ∧
    (∃ (s : State) (u : PumpId) (w : Sweep) (c : PumpCmd), s.pumps[u].sweep = some w ∧ LoneCmd w.part c s ∧ c.id = w.cmd ∧ c.first = w.group ∧ c.op = PumpOp.update ∧ (s.sweepInputs w.part (s.group w.part w.group) (w.block * 262144) (min 262144 ((s.group w.part w.group).count - w.block * 262144))).1.2 = false ∧ (s.group w.part w.group).count ≤ w.block * 262144 + 262144) ∧
    (∃ (s : State) (u : PumpId) (w : Sweep) (c : PumpCmd), s.pumps[u].sweep = some w ∧ LoneCmd w.part c s ∧ c.id = w.cmd ∧ c.first = w.group ∧ c.op = PumpOp.update ∧ (s.sweepInputs w.part (s.group w.part w.group) (w.block * 262144) (min 262144 ((s.group w.part w.group).count - w.block * 262144))).1.2 = true) ∧
    (∃ (s : State) (p : PartId) (id : ℕ) (at_ : ℕ) (c : PumpCmd), LoneCmd p c s ∧ c.id = id ∧ c.op ≠ PumpOp.claim ∧ c.limitAt ≤ (s.advanceTo at_).timeNs ∧ c.stages = [GroupStage.untriggered]) ∧
    (∃ (s : State) (p : PartId) (id : ℕ), (∀ c ∈ s.parts[p].cmds, c.id ≠ id)) ∧
    (∃ (s : State) (u : PumpId) (w : Sweep) (c : PumpCmd), Ready s ∧ s.pumps[u].resetting = false ∧ s.pumps[u].sweep = some w ∧ LoneCmd w.part c s ∧ c.id = w.cmd ∧ c.first = w.group ∧ c.op = PumpOp.update ∧ (∀ (p : PartId), (p ≠ w.part → s.parts[p].cmds = []) ∧ s.parts[p].claims = [])) ∧
    (∃ (s : State) (u : PumpId), Ready s ∧ s.pumps[u].resetting = false ∧ s.pumps[u].sweep = none ∧ (∀ (p : PartId), s.parts[p].cmds = [] ∧ s.parts[p].claims = [])) ∧
    (∃ (s : State) (u : PumpId), (¬Ready s ∨ s.pumps[u].resetting = true)) ∧
    (∃ (s : State) (u : PumpId), s.pumps[u].resetting = true) :=
  ⟨⟨ps (P .update) [(3,{G1 with frozen := true})], 0, P .update, by unfold LoneCmd; decide +kernel⟩,
    ⟨ps (P .settle) [(3,G2)] (fun x => {x with claims := [n1 .gated]}), 0, P .settle, n1 .gated, by unfold LoneCmd; decide +kernel⟩,
    ⟨ps (P .settle) [(3,G2)], 0, P .settle, by unfold LoneCmd; decide +kernel⟩,
    ⟨ps (P .update) [(3,{G1 with privileged := true})], 0, P .update, by unfold LoneCmd; decide +kernel⟩,
    ⟨ps (P .update) [(3,G1)] (fun x => {x with im := {x.im with img := {x.im.img with cisZ := Vector.replicate 4 0}}}), 0, P .update, by unfold LoneCmd; decide +kernel⟩,
    ⟨ps (P .update) [], 0, P .update, by unfold LoneCmd; decide +kernel⟩,
    ⟨px {P .update with bound := some true} [(3,G1)] (fun x => {x with order := [(0,3,9)] }), 1, (0:PartId), (3:Nat), (9:Nat), {P .update with bound := some true}, rl, rf, by decide +kernel⟩,
    ⟨px {P .update with bound := none} [(3,G1)] (fun x => {x with order := [(0,3,9)] }), 1, by decide +kernel⟩,
    ⟨pk, 1, by decide +kernel⟩,
    ⟨gst (px Ps [(3,{G1 with busy := true})] (fun x => {x with sweep := some (sw 0) })), 1, sw 0, Ps, by unfold LoneCmd; decide +kernel⟩,
    ⟨(gst (px Ps [(3,{G1 with busy := true})] (fun x => {x with sweep := some (sw 0) }))).updCore 5 (fun x => {x with memPoison := [0x202]}), 1, sw 0, Ps, by unfold LoneCmd; decide +kernel⟩,
    ⟨ps (P .update) [], 0, 9, 105000000, P .update, by unfold LoneCmd; decide +kernel⟩,
    ⟨ps (P .update) [], 0, 8, by decide +kernel⟩,
    ⟨px Ps [(3,{G1 with busy := true})] (fun x => {x with sweep := some (sw 0) }), 1, sw 0, Ps, by unfold Ready LoneCmd; decide +kernel⟩,
    ⟨pk, 1, by unfold Ready; decide +kernel⟩,
    ⟨{ pk with boot := {state := .bare} }, 1, by unfold Ready; decide +kernel⟩,
    ⟨px Ps [(3,{G1 with busy := true})] (fun x => {x with resetting := true, mem := {x.mem with state := .selfRefresh} }), 1, by decide +kernel⟩⟩

end Pumps

/-! ### Witnesses of the statements about health -/

namespace Health

def pk (f : Fabric → Fabric := id) : State := { cbase with ports := cbase.ports.map fun x => { x with state := .admitted, nbrAdmitted := true, laneMask := 0xFFFF }, image := { cbase.image with fabric := { cbase.image.fabric with dims := #v[1,1,4], reserve := Vector.replicate 12 64, tc0Permille := 10, pair := Vector.ofFn id } }, fabric := f cbase.fabric }
def bs (f : BaroPart → BaroPart) : State := { pk with timeNs := 9000000000000, baro := { (pk).baro with parts := (pk).baro.parts.map f } }
def v11 (n : Nat) : Vector Nat 11 := Vector.replicate 11 n
def evv (s : State) : State := (s.event 0x0301 1 2 0 0 5).event 0x0302 1 2 0 0 5
def orp : State := (pk).updPart 0 fun x => { x with orphan := { records := [({ tag := 3, step := 0, outcome := .done, engine := 0, partition := 0 }, [1,2]),({ tag := 4, step := 0, outcome := .done, engine := 0, partition := 0 }, [])] } }
def pw : State := { pk with image := { (pk).image with fabric := { (pk).image.fabric with reserve := Vector.replicate 12 64 } } }
def rn (k : Byte) : State := { pw with snd := {(pw).snd with running := true, kind := k, target := 3, runKind := k, runTarget := 3, probes := 1024, least := 0xFFFFFFFF}, ports := (pw).ports.set 3 { (pw).ports[3] with scanLane := some 4, laneMask := 0xFFEF } }
def sp (sub : Nat) (bad := 0) : Packet := { mkPacket 1 0x0D 3 0 0 0 (leBytes sub 1 ++ leBytes 2 1 ++ leBytes 0 2 ++ leBytes 8 4 ++ leBytes 4999000 8 ++ leBytes 77 4 ++ leBytes bad 4 ++ (if bad = 0 then probePattern 77 8 else leBytes 0 8)) with src := 2 }

/-- States and operands that meet the hypotheses of BarometerEvaluatesAndRecordsPass, clause by clause. -/
theorem test_barometer_evaluates_and_records_pass :
    (∃ (s : State) (at_ : ℕ), (s.advanceTo at_).boot.state = BootState.ready ∧ (s.advanceTo at_).baro.evalAt + 10 ^ 10 ≤ (s.advanceTo at_).timeNs) ∧
    (∃ (s : State) (at_ : ℕ), ((s.advanceTo at_).boot.state ≠ BootState.ready ∨ (s.advanceTo at_).timeNs < (s.advanceTo at_).baro.evalAt + 10 ^ 10)) ∧
    (∃ (s : State) (v : W64), Ready s ∧ BitVec.toNat v % 2 ^ 16 < BitVec.toNat v / 2 ^ 16 % 2 ^ 16 ∧ BitVec.toNat v / 2 ^ 32 % 2 ^ 16 < BitVec.toNat v / 2 ^ 48 ∧ BitVec.toNat v / 2 ^ 16 % 2 ^ 16 ≤ BitVec.toNat v / 2 ^ 48) ∧
    (∃ (s : State) (v : W64), Ready s ∧ ¬(BitVec.toNat v % 2 ^ 16 < BitVec.toNat v / 2 ^ 16 % 2 ^ 16 ∧ BitVec.toNat v / 2 ^ 32 % 2 ^ 16 < BitVec.toNat v / 2 ^ 48 ∧ BitVec.toNat v / 2 ^ 16 % 2 ^ 16 ≤ BitVec.toNat v / 2 ^ 48)) ∧
    (∃ (s : State), ¬Ready s) ∧
    (∃ (s : State), s.power.alwaysOn = true) ∧
    (∃ (s : State), s.power.alwaysOn = false) ∧
    (∃ (s : State), s.power.alwaysOn = true) ∧
    (∃ (s : State) (p : PartId) (r : Record) (w : List W64) (l : List (Record × List W64)), s.power.alwaysOn = true ∧ s.parts[p].orphan.records = (r, w) :: l) :=
  ⟨⟨bs (fun b => { b with evals := 60, cur := v11 1, buckets := List.replicate 60 (v11 1) }), 9000000000001, by decide +kernel⟩,
    ⟨{ pk with boot := {state := .bare} }, 7000000, by decide +kernel⟩,
    ⟨pk, 0x0200008000400010, by unfold Ready; decide +kernel⟩,
    ⟨pk, 0x0200008000400040, by unfold Ready; decide +kernel⟩,
    ⟨{ pk with boot := {state := .bare} }, by unfold Ready; decide +kernel⟩,
    ⟨evv pk, by decide +kernel⟩,
    ⟨{ orp with power := { (orp).power with alwaysOn := false } }, by decide +kernel⟩,
    ⟨orp, by decide +kernel⟩,
    ⟨orp, 0, ({ tag := 3, step := 0, outcome := .done, engine := 0, partition := 0 } : Record), ([1,2] : List W64), ([({ tag := 4, step := 0, outcome := .done, engine := 0, partition := 0 }, [])] : List (Record × List W64)), by decide +kernel⟩⟩

/-- States and operands that meet the hypotheses of SoundingsRunAndProbesEcho, clause by clause. -/
theorem test_soundings_run_and_probes_echo :
    (∃ (s : State), Ready s ∧ s.snd.running = false ∧ true = true ∧ 1 ≠ 4 ∧ 1 ≠ 5) ∧
    (∃ (s : State) (f : FieldId), Ready s ∧ s.snd.running = false ∧ (!s.fields[f].failed) = true ∧ 2 ≠ 4 ∧ 2 ≠ 5) ∧
    (∃ (s : State) (f : FieldId), Ready s ∧ s.snd.running = false ∧ (!s.fields[f].failed) = true ∧ 3 ≠ 4 ∧ 3 ≠ 5) ∧
    (∃ (s : State) (w : WellId), Ready s ∧ s.snd.running = false ∧ (s.wells[w].state != UnitState.dead && (s.wells[w].state == UnitState.out || (fun uses => s.committedParts.all fun p => !uses s.parts[p].im.img || s.parts[p].state == PartState.quiesced) fun x => x.wellMask.testBit ↑w)) = true ∧ 6 ≠ 4 ∧ 6 ≠ 5) ∧
    (∃ (s : State) (u : PumpId), Ready s ∧ s.snd.running = false ∧ (s.pumps[u].mem.state != UnitState.dead && (s.pumps[u].mem.state == UnitState.out || (fun uses => s.committedParts.all fun p => !uses s.parts[p].im.img || s.parts[p].state == PartState.quiesced) fun i => i.cisZ[u] != 0)) = true ∧ 7 ≠ 4 ∧ 7 ≠ 5) ∧
    (∃ (s : State), Ready s ∧ s.snd.running = false ∧ true = true ∧ 4 = 4) ∧
    (∃ (s : State) (n : PortId) (lane : BitVec 8), Ready s ∧ s.snd.running = false ∧ decide (s.ports[n].state = PortState.admitted ∧ laneCount s.ports[n].laneMask = 16 ∧ s.ports[n].parked = false ∧ lane.toNat < 16) = true ∧ 5 ≠ 4) ∧
    (∃ (s : State) (n : PortId) (lane : BitVec 8), Ready s ∧ s.snd.running = false ∧ decide (s.ports[n].state = PortState.admitted ∧ laneCount s.ports[n].laneMask = 16 ∧ s.ports[n].parked = false ∧ lane.toNat < 16) = true ∧ 5 = 5) ∧
    (∃ (s : State) (w : WellId), Ready s ∧ (s.snd.running = true ∨ (s.wells[w].state != UnitState.dead && (s.wells[w].state == UnitState.out || (fun uses => s.committedParts.all fun p => !uses s.parts[p].im.img || s.parts[p].state == PartState.quiesced) fun x => x.wellMask.testBit ↑w)) = false)) ∧
    (∃ (s : State) (u : PumpId), Ready s ∧ (s.snd.running = true ∨ (s.pumps[u].mem.state != UnitState.dead && (s.pumps[u].mem.state == UnitState.out || (fun uses => s.committedParts.all fun p => !uses s.parts[p].im.img || s.parts[p].state == PartState.quiesced) fun i => i.cisZ[u] != 0)) = false)) ∧
    (∃ (s : State), Ready s ∧ (s.snd.running = true ∨ true = false)) ∧
    (∃ (s : State) (f : FieldId), Ready s ∧ (s.snd.running = true ∨ (!s.fields[f].failed) = false)) ∧
    (∃ (s : State) (n : PortId) (lane : BitVec 8), Ready s ∧ (s.snd.running = true ∨ decide (s.ports[n].state = PortState.admitted ∧ laneCount s.ports[n].laneMask = 16 ∧ s.ports[n].parked = false ∧ lane.toNat < 16) = false)) ∧
    (∃ (s : State), ¬Ready s) ∧
    (∃ (s : State) (kind : Byte) (target : Byte), s.snd.running = true ∧ s.snd.runKind = kind ∧ s.snd.runTarget = target ∧ kind ≠ 1 ∧ kind ≠ 4) ∧
    (∃ (s : State) (kind : Byte) (target : Byte), s.snd.running = true ∧ s.snd.runKind = kind ∧ s.snd.runTarget = target ∧ kind = 4 ∧ s.snd.echoes = 0) ∧
    (∃ (s : State) (kind : Byte) (target : Byte), s.snd.running = true ∧ s.snd.runKind = kind ∧ s.snd.runTarget = target ∧ kind = 4 ∧ s.snd.echoes ≠ 0) ∧
    (∃ (s : State) (kind : Byte) (target : Byte), s.snd.running = true ∧ s.snd.runKind = kind ∧ s.snd.runTarget = target ∧ kind = 1) ∧
    (∃ (s : State) (kind : Byte) (target : Byte), (s.snd.running = false ∨ s.snd.runKind ≠ kind ∨ s.snd.runTarget ≠ target)) ∧
    (∃ (s : State), s.boot.state = BootState.ready ∧ s.baro.marginAt + 10 ^ 10 ≤ s.timeNs ∧ (∀ (k : Fin 26), s.baro.parts[k].carry[10] = 0)) ∧
    (∃ (s : State), (s.boot.state ≠ BootState.ready ∨ s.timeNs < s.baro.marginAt + 10 ^ 10)) ∧
    (∃ (s : State) (n : PortId) (k : Packet) (tr : W64), s.soundingMine n k = true ∧ ldNat k.payload 0 1 = 1 ∧ tr ≠ pktTrailer k ∧ s.ports[n].state = PortState.probation) ∧
    (∃ (s : State) (n : PortId) (k : Packet) (tr : W64), s.soundingMine n k = true ∧ ldNat k.payload 0 1 = 2 ∧ tr ≠ pktTrailer k) ∧
    (∃ (s : State) (n : PortId) (k : Packet), ¬(s.soundingMine n k = true ∧ ldNat k.payload 0 1 = 2)) ∧
    (∃ (s : State) (n : PortId) (k : Packet), ¬(s.soundingMine n k = true ∧ ldNat k.payload 0 1 = 1)) ∧
    (∃ (s : State) (n : PortId) (k : Packet), s.soundingMine n k = true ∧ ldNat k.payload 0 1 = 1 ∧ (List.drop 24 k.payload == probePattern (BitVec.ofNat 32 (ldNat k.payload 16 4)) (k.payload.length - 24)) = true ∧ s.ports[n].held = [] ∧ s.credit n 9 (pktFlits k) = true) ∧
    (∃ (s : State) (n : PortId) (k : Packet), s.soundingMine n k = true ∧ ldNat k.payload 0 1 = 2 ∧ s.snd.running = true ∧ s.snd.runKind = 4 ∧ BitVec.toNat s.snd.runTarget = ↑n) ∧
    (∃ (s : State) (n : PortId) (k : Packet), s.soundingMine n k = true ∧ ldNat k.payload 0 1 = 1 ∧ ¬(List.drop 24 k.payload == probePattern (BitVec.ofNat 32 (ldNat k.payload 16 4)) (k.payload.length - 24)) = true) ∧
    (∃ (s : State) (n : PortId) (k : Packet), s.soundingMine n k = true ∧ ldNat k.payload 0 1 = 2 ∧ ¬(s.snd.running = true ∧ s.snd.runKind = 4 ∧ BitVec.toNat s.snd.runTarget = ↑n)) :=
  ⟨⟨pw, by unfold Ready; decide +kernel⟩,
    ⟨pw, 2, by unfold Ready; decide +kernel⟩,
    ⟨pw, 2, by unfold Ready; decide +kernel⟩,
    ⟨(pw).updPart 0 (fun x => {x with state := .quiesced}), 1, by unfold Ready; decide +kernel⟩,
    ⟨(pw).updPart 0 (fun x => {x with state := .quiesced}), 1, by unfold Ready; decide +kernel⟩,
    ⟨pw, by unfold Ready; decide +kernel⟩,
    ⟨pw, 3, 4, by unfold Ready; decide +kernel⟩,
    ⟨pw, 3, 4, by unfold Ready; decide +kernel⟩,
    ⟨pw, 1, by unfold Ready; decide +kernel⟩,
    ⟨pw, 1, by unfold Ready; decide +kernel⟩,
    ⟨{ pw with snd := {(pw).snd with running := true}}, by unfold Ready; decide +kernel⟩,
    ⟨{ pw with snd := {(pw).snd with running := true}}, 2, by unfold Ready; decide +kernel⟩,
    ⟨{ pw with snd := {(pw).snd with running := true}}, 3, 4, by unfold Ready; decide +kernel⟩,
    ⟨{ pw with boot := {state := .bare} }, by unfold Ready; decide +kernel⟩,
    ⟨rn 5, 5, 3, by decide +kernel⟩,
    ⟨rn 4, 4, 3, by decide +kernel⟩,
    ⟨{ rn 4 with snd := {(rn 4).snd with echoes := 5, least := 9, greatest := 10}}, 4, 3, by decide +kernel⟩,
    ⟨rn 1, 1, 3, by decide +kernel⟩,
    ⟨rn 4, 5, 3, by decide +kernel⟩,
    ⟨{ pw with timeNs := 12000000000 }, by decide +kernel⟩,
    ⟨pw, by decide +kernel⟩,
    ⟨{ pw with ports := (pw).ports.map fun x => {x with state := .probation, ready := true}}, 3, sp 1, 0, by decide +kernel⟩,
    ⟨pw, 3, sp 2, 0, by decide +kernel⟩,
    ⟨pw, 3, sp 1, by decide +kernel⟩,
    ⟨pw, 3, sp 2, by decide +kernel⟩,
    ⟨pw, 3, sp 1, by decide +kernel⟩,
    ⟨rn 4, 3, sp 2, by decide +kernel⟩,
    ⟨pw, 3, sp 1 1, by decide +kernel⟩,
    ⟨pw, 3, sp 2, by decide +kernel⟩⟩

end Health

end Sys2Proof.Tests
end

/-! SUPPORT. The flags registers under one update, and the two writes that clear them (00 R6; 10 R244, R245). -/

namespace Sys2Proof.Machine

/-! ### One flags register updated -/

@[simp] theorem State.updFlags_flags_self (s : State) (r : FlagReg) (f : Flags → Flags) :
    (s.updFlags r f).flags r = f (s.flags r) := by
  cases r <;> simp [State.updFlags, State.flags]

/-- What an update of one entry keeps of every entry, the bank keeps of each. -/
theorem updAt_keeps {α β : Type} {n : Nat} (g : α → β) (v : Vector α n) (i j : Fin n) {f : α → α}
    (h : ∀ x, g (f x) = g x) : g (updAt v i f)[j] = g v[j] := by
  rw [Fin.getElem_fin, updAt_get]
  split
  · exact h _
  · rfl

/-- An update of one entry keeps the others. -/
theorem updAt_elsewhere {α β : Type} {n : Nat} (g : α → β) (v : Vector α n) {i j : Fin n} {f : α → α} (h : i ≠ j) :
    g (updAt v i f)[j] = g v[j] :=
  congrArg g (updAt_other v i j j.isLt f fun e => h (Fin.ext e))

/-- The two registers of one core share a unit, all others stand in different units. -/
theorem State.updFlags_flags_other (s : State) {r q : FlagReg} (h : q ≠ r) (f : Flags → Flags) :
    (s.updFlags r f).flags q = s.flags q := by
  cases r with
  | coreM c =>
    cases q with
    | coreM d => exact updAt_elsewhere (fun x : Core => x.mx.flags) s.cores fun e => h (e ▸ rfl)
    | coreV d => exact updAt_keeps (fun x : Core => x.vx.flags) s.cores c d (by intro _; rfl)
    | axis | well | pump => rfl
  | coreV c =>
    cases q with
    | coreM d => exact updAt_keeps (fun x : Core => x.mx.flags) s.cores c d (by intro _; rfl)
    | coreV d => exact updAt_elsewhere (fun x : Core => x.vx.flags) s.cores fun e => h (e ▸ rfl)
    | axis | well | pump => rfl
  | axis a =>
    cases q with
    | axis b => exact updAt_elsewhere (fun x : AxisEngine => x.flags) s.axes fun e => h (e ▸ rfl)
    | coreM | coreV | well | pump => rfl
  | well w =>
    cases q with
    | well v => exact updAt_elsewhere (fun x : MemCtl => x.flags) s.wells fun e => h (e ▸ rfl)
    | coreM | coreV | axis | pump => rfl
  | pump p =>
    cases q with
    | pump u => exact updAt_elsewhere (fun x : Pump => x.mem.flags) s.pumps fun e => h (e ▸ rfl)
    | coreM | coreV | axis | well => rfl

/-- Of a core, flags stand only with its matrix and its vector slot. -/
theorem State.updFlags_core (s : State) (r : FlagReg) (f : Flags → Flags) (c : CoreId) :
    (s.updFlags r f).cores[c].k = s.cores[c].k ∧ (s.updFlags r f).cores[c].mem = s.cores[c].mem ∧
      (s.updFlags r f).cores[c].queues = s.cores[c].queues := by
  cases r with
  | coreM d | coreV d =>
    exact ⟨updAt_keeps Core.k s.cores d c (by intro _; rfl), updAt_keeps Core.mem s.cores d c (by intro _; rfl),
      updAt_keeps Core.queues s.cores d c (by intro _; rfl)⟩
  | axis | well | pump => exact ⟨rfl, rfl, rfl⟩

theorem State.updFlags_frame (s : State) (r : FlagReg) (f : Flags → Flags) :
    { s.updFlags r f with cores := s.cores, axes := s.axes, wells := s.wells, pumps := s.pumps } = s := by
  cases r <;> rfl

/-! ### The two writes of a flags register -/

theorem exec_w1cFlagClear_open {s : State} {r : FlagReg} (h : s.flagsOpen r = true) (m : BitVec 4) (n : Nat) :
    exec (.w1cFlagClear r m n) s = .next (s.updFlags r (·.clear m n)) := by
  simp [exec, execW1cFlagClear, State.iff, h]

theorem exec_flagsClrCounts_open {s : State} {r : FlagReg} (h : s.flagsOpen r = true) (n : Nat) :
    exec (.flagsClrCounts r n) s = .next (s.updFlags r (·.clearCounts n)) := by
  simp [exec, execFlagsClrCounts, State.iff, h]

theorem exec_flagWrites_shut {s : State} {r : FlagReg} (h : s.flagsOpen r = false) (m : BitVec 4) (n : Nat) :
    exec (.w1cFlagClear r m n) s = .next s ∧ exec (.flagsClrCounts r n) s = .next s := by
  simp [exec, execW1cFlagClear, execFlagsClrCounts, State.iff, h]

/-- Settles O20: both writes are one `updFlags`, whose frame says what stays; what they make of the register is
`Flags.clear` and `Flags.clearCounts` (R6, R244, R245). -/
theorem stickyFlagsClearByOnes : Obligations.StickyFlagsClearByOnes := by
  refine ⟨fun s r m n h => ?_, fun s r n h => ?_, fun s r m n h => exec_flagWrites_shut h m n⟩
  · refine ⟨_, exec_w1cFlagClear_open h m n, ?_, ?_, ?_, ?_, ?_, fun q hq => State.updFlags_flags_other s hq _,
      State.updFlags_core s r _, State.updFlags_frame s r _⟩
    all_goals rw [State.updFlags_flags_self]; rfl
  · exact ⟨_, exec_flagsClrCounts_open h n, State.updFlags_flags_self s r _,
      fun q hq => State.updFlags_flags_other s hq _, State.updFlags_frame s r _⟩

end Sys2Proof.Machine

/-! SUPPORT. What a step does to the fuses, the queue, the time and the image slot (`State.fixed`): nearly every command
leaves them, but for time that passes (02 R33). -/

namespace Sys2Proof

/-- The commands whose own meaning sets the fuses, the image slot, or the time back to 0. -/
def Instr.setsFixed : Instr → Bool
  | .p54vWithinRange | .loaderBegin .. | .loaderData .. | .loaderEnd .. | .svnCommit .. | .enroll .. | .revoke ..
  | .mctpLoader .. | .controlEpochEnd .. => true
  | _ => false

end Sys2Proof

namespace Sys2Proof.Machine

/-- The answer is a state, and of `State.fixed` it changes only the time, and that as `State.advanceTo` does. -/
def OnlyTime (s : State) (o : Out) : Prop := ∃ (t : State) (n : Nat), o = .next t ∧ t.fixed = (s.advanceTo n).fixed

@[simp] theorem State.advanceTo_zero (s : State) : s.advanceTo 0 = s := by
  simp [State.advanceTo]

theorem OnlyTime.of_fixed {s t : State} (h : t.fixed = s.fixed) : OnlyTime s (.next t) :=
  ⟨t, 0, rfl, by rwa [s.advanceTo_zero]⟩

theorem OnlyTime.of_advanceTo {s t : State} (n : Nat) (h : t.fixed = (s.advanceTo n).fixed) : OnlyTime s (.next t) :=
  ⟨t, n, rfl, h⟩

/-! ### Operations whose law `Laws/Fixed` leaves out -/

@[simp] theorem State.request_fixed (s : State) (kind target lane : Nat) (seed : W32) :
    (s.request kind target lane seed).fixed = s.fixed := by
  simp [State.request]

@[simp] theorem State.wakeShared_fixed (s : State) (u : MemUnit) : (s.wakeShared u).fixed = s.fixed := by
  cases u <;> simp [State.wakeShared]

@[simp] theorem State.powerLoss_fixed (s : State) : s.powerLoss.fixed = s.fixed := rfl

theorem State.power_link_fixed (s : State) (p : Power) (l : HostLink) :
    ({ s with power := p, link := l } : State).fixed = s.fixed := rfl

/-- Parts evaluated one after the other, with what else the round answers. -/
theorem State.evaluateParts_fixed (l : List (Fin 26)) (a : State × Bool) :
    (l.foldl (fun (a : State × Bool) i => ((a.1.evaluatePart i).1, a.2 || (a.1.evaluatePart i).2)) a).1.fixed =
      a.1.fixed := by
  induction l generalizing a with
  | nil => rfl
  | cons i l ih => exact (ih _).trans (State.evaluatePart_fixed a.1 i)

/-! ### Commands that need more than the laws of the operations they call -/

theorem execWakeEvent_onlyTime (p : PartId) (cause : WakeCause) (s : State) : OnlyTime s (execWakeEvent p cause s) := by
  refine .of_fixed ?_
  cases cause <;> simp

theorem execBarometerEvaluation_onlyTime (atNs : Nat) (s : State) : OnlyTime s (execBarometerEvaluation atNs s) := by
  refine .of_advanceTo atNs ?_
  dsimp only
  (repeat' split) <;> simp [State.evaluateParts_fixed]

/-- Where PWR_EN does not rise, no time passes. -/
theorem execPwrEnRise_onlyTime (atNs : Nat) (s : State) : OnlyTime s (execPwrEnRise atNs s) := by
  unfold execPwrEnRise
  split
  · exact .of_advanceTo atNs (by simp)
  · exact .of_fixed rfl

theorem execPwrEnFall_onlyTime (s : State) : OnlyTime s (execPwrEnFall s) := by
  refine .of_fixed ?_
  split
  · exact (State.bare_fixed _ _).trans <| (State.power_link_fixed _ _ _).trans <|
      (State.railsOff_fixed _).trans (State.deviceReset_fixed _ _ _)
  · rfl

theorem execSweepStart_onlyTime (u : PumpId) (s : State) : OnlyTime s (execSweepStart u s) := by
  refine .of_fixed ?_
  dsimp only
  split
  · rfl
  split
  · rfl
  next p g id _ =>
    split
    · rfl
    next c _ =>
      have e := State.evalRow_fixed s p g c.t c.gScale
      split <;> (rename_i h; rw [h] at e; simpa using e)

theorem execMeterInterval_onlyTime (e : EnergyReading) (s : State) : OnlyTime s (execMeterInterval e s) := by
  refine .of_fixed ?_
  split
  simp

/-! ### Every command -/

/-- Every command but those of `Instr.setsFixed` leaves the fuses, the queue of waiting commands and the image slot, and
of the time it changes no more than that some may pass. -/
theorem exec_onlyTime {c : Instr} (h : c.setsFixed = false) (s : State) : OnlyTime s (exec c s) := by
  cases c with
  -- One operation of one slot, issued alone.
  | loadNop | storeNop | ldq | ldq2 | get | stq | stq2 | put | syncNone | cset | cadd | signal | raise | matrixNop
  | mcfg | mseed | mswap | mflush | mloadw | mloads | mmul | mmult | mew | scalarNop | movi | movhi | add | sub
  | and | or | xor | shl | shr | sar | mul | agset | agrst | agget | rdbeats | rdtime | xring | xfree | vectorNop
  | vmov | vadd | vsub | vmul | vfma | vmin | vmax | vabs | vneg | vcmp | vsel | vand | vor | vxor | vshl | vshr
  | vexp2 | vlog2 | vrcp | vrsqrt | vsqrt | vtanh | vsigm | cvt | quant | amax | amaxrd | rsum | rmax | topk
  | vupdm | vupdv | vupdw | vcoef | vgate | vstormCount | vstormLoss | vstormClose | vseed =>
    exact .of_fixed (State.single_fixed ..)
  | waitc | waitqp | waitqr => exact .of_fixed (State.singleWait_fixed ..)
  -- A capsule of one kind taken from a partition's window.
  | reduceScatter | allGather | allReduce | broadcast | allToAll | collectiveBarrier | atomic | place | layer
  | reopen | protect | setAverages | programLoad | programStart | transfer | capsuleNop | groupTableWrite
  | groupTableRead | freeze | thaw | clearTorn | update | claim | settle =>
    exact .of_fixed (by simp)
  -- A register written where it is served (R65).
  | remapAdd | remapClear | quarantineAdd | quarantineRemove | takeOut | unitReturn | seqRegionWrite | cadenceArm
  | cadenceDisarm | lulWakeBudgetWrite | brmCfgWrite | nextRecord | nextWord | portDisable | stwPowerCapWrite
  | pumpReset | stage | commit | discard | start | quiesce | resume | stop | release | snap | absentWindowWrite
  | fmControlSend | fmInjectFence | fmInjectEpochMark | routingTableWrite | prtCqCtrlWrite | rxPower | canary
  | droop | linkProbe | eyeScan | wellMargin | cisMargin | w1cFlagClear | flagsClrCounts =>
    exact .of_fixed (by simp)
  -- One shared operation, or shared operations under conditions.
  | barrier | lossOfP54v | dispatch | tokenEnd | tokenReturn | tokenAbandon | verdictDelivery | wellDead | pumpDead
  | bundleIssue | almanacWrite | lossOfLight | abortFlit | vcIdleTimeout | pwrBrakeAssert | pwrBrakeRelease
  | undervoltageClear | thermalWarning | wellTempReadout | loaderAbort | stopComplete | stwPfGenWrite
  | prtDrvGenWrite | hostErrorCompletion | hotReset | pfFlr | vfFlr | capsuleHeaderWrite | heldRecordFlush
  | identity | mctpRegWrite | transferComplete | atomicPacket | refuse | writePacket | readReq | readData
  | signalPacket | orderedPacketRelease | ackSend | ack | bootStructure | fillComplete | wellRead | wellWrite
  | memorySideAdd | patrolRead | unitReturnComplete | axisEngineDead | sluiceDead | fieldRailFault
  | wellInterfaceRetrain | pumpLinkRetrain | portUnpark | soundingComplete | marginSoundingRun | probe | echo
  | laneLoss | heartbeat | blockReceive | linkControlFlit | packetForward | stewardRomResetExit | railsInRegulation
  | undervoltage | inputCollapse | thermalTrip | fieldStatusUpdate | pumpResetComplete | commitFillDone
  | quiesceComplete | bar2Read | bar2Write | controlPacket | controlReply | fence | readmit | epochMark
  | perstAssert | stewardWatchdogExpiry | measure | keyExchange | ideKeySet | mctpRegRead | almanacRead | mctpDoe =>
    exact .of_fixed (by simp)
  -- Shared operations on what the state answers: an item, a packet, a digest.
  | joinStart | sluiceSendTrigger | sluiceReturnTrigger | stormReportArrival | stormCloseArrival | waitRelease
  | barrierRelease | sequencerFetch | faultCollect | loaderCommandEnd | pumpTrigger | sweepBlockDone | stageChecks
  | registerWrite | bar2BaseWrite =>
    refine .of_fixed ?_
    split <;> simp
  | bootVerify | bootFill | operationResultWrite | matrixDrain =>
    refine .of_fixed ?_
    (repeat' split) <;> simp
  | join | collectiveData | collectiveAbandon | nak | programHaltComplete | crossCoreMove =>
    refine .of_fixed ?_
    dsimp only
    (repeat' split) <;> simp
  -- Time passes first, up to the event.
  | flipArm _ _ t | flipArmExpiry _ t | programLimitExpiry _ t | cadenceTick _ t | lullEntry _ _ t | lull3Entry t
  | probationPass _ t | heartbeatTimer _ t | heartbeatMissLimit _ t | tc0Inject _ t | governorRun _ t
  | loaderSessionTimeout t | usageRecordPeriodic _ t | readmitApply _ t | oldLockedClear t | pcieLinkTrain _ t
  | perstRelease t =>
    exact .of_advanceTo t (by simp)
  | hostReadTimeout x => exact .of_advanceTo x.atNs (by simp)
  | joinTimeout _ _ _ t | sluiceLimitExpiry _ _ t | resendTimer _ _ _ t | cadencePrewake _ t | linkTraining _ _ t
  | pumpLimitExpiry _ _ t | quiesceTimeout _ t | coalesceTimerExpiry _ t =>
    refine .of_advanceTo t ?_
    dsimp only
    (repeat' split) <;> simp
  -- Commands with a lemma of their own.
  | wakeEvent => exact execWakeEvent_onlyTime ..
  | barometerEvaluation => exact execBarometerEvaluation_onlyTime ..
  | pwrEnRise => exact execPwrEnRise_onlyTime ..
  | pwrEnFall => exact execPwrEnFall_onlyTime ..
  | sweepStart => exact execSweepStart_onlyTime ..
  | meterInterval => exact execMeterInterval_onlyTime ..
  | p54vWithinRange | loaderBegin | loaderData | loaderEnd | svnCommit | enroll | revoke | mctpLoader
  | controlEpochEnd =>
    cases h

/-! ### What the lemma says of the fuses -/

theorem State.fuses_of_fixed {s t : State} (h : t.fixed = s.fixed) : t.fuses = s.fuses := congrArg Prod.fst h

@[simp] theorem State.advanceTo_fuses (s : State) (n : Nat) : (s.advanceTo n).fuses = s.fuses := by
  unfold State.advanceTo
  split
  · dsimp only
    exact State.fuses_of_fixed (State.over_fixed _ _ (by simp) s)
  · rfl

end Sys2Proof.Machine

/-! SUPPORT. Fuses only burn (00 R1; 03 R60, R61): the order that `FusesBurn` is, the two operations on key slots, the
loader commands, and the control writes that start one. -/

namespace Sys2Proof

open Sys2Proof.Machine

/-! ### The order -/

theorem KeyMoves.refl (a : KeySlot) : KeyMoves a a := ⟨fun h => .inl ⟨h, rfl⟩, id⟩

theorem KeyMoves.trans {a b c : KeySlot} (h : KeyMoves a b) (g : KeyMoves b c) : KeyMoves a c := by
  refine ⟨fun ha => ?_, fun ha => g.2 (h.2 ha)⟩
  obtain ⟨hb, hh⟩ | hb := h.1 ha
  · obtain ⟨hc, hg⟩ | hc := g.1 hb
    · exact .inl ⟨hc, hg.trans hh⟩
    · exact .inr hc
  · exact .inr (g.2 hb)

theorem FusesBurn.refl (f : Fuses) : FusesBurn f f := ⟨rfl, le_rfl, fun k => .refl f.keys[k]⟩

theorem FusesBurn.of_eq {f g : Fuses} (h : g = f) : FusesBurn f g := h ▸ .refl g

theorem FusesBurn.trans {f g h : Fuses} (a : FusesBurn f g) (b : FusesBurn g h) : FusesBurn f h :=
  ⟨b.1.trans a.1, a.2.1.trans b.2.1, fun k => (a.2.2 k).trans (b.2.2 k)⟩

theorem FusesBurn.of_fixed {s t : State} (h : t.fixed = s.fixed) : FusesBurn s.fuses t.fuses :=
  .of_eq (State.fuses_of_fixed h)

/-- A state whose fuses burnt, with what `State.fixed` holds kept after that. -/
theorem FusesBurn.then_fixed {f : Fuses} {s t : State} (a : FusesBurn f s.fuses) (h : t.fixed = s.fixed) :
    FusesBurn f t.fuses := a.trans (.of_fixed h)

theorem FusesBurn.over {α : Type} (l : List α) (f : State → α → State)
    (h : ∀ s x, FusesBurn s.fuses (f s x).fuses) (s : State) : FusesBurn s.fuses (s.over l f).fuses := by
  induction l generalizing s with
  | nil => exact .refl _
  | cons x l ih => exact (h s x).trans (ih (f s x))

/-! ### Key slots and the minimum svn -/

/-- ENROLL burns an empty slot, and no other (R61). -/
theorem Machine.Fuses.enroll_burns {f g : Fuses} {hash : BitVec 384} (h : f.enroll hash = some g) : FusesBurn f g := by
  unfold Fuses.enroll at h
  split at h
  next k hk =>
    cases h
    have hempty : f.keys[k].state = .empty := by simpa using List.find?_some hk
    refine ⟨rfl, le_rfl, fun j => ?_⟩
    by_cases e : k = j
    · subst e
      exact ⟨fun ha => absurd (hempty.symm.trans ha) nofun, fun ha => absurd (hempty.symm.trans ha) nofun⟩
    · simpa [Vector.getElem_set_ne _ _ (Fin.val_ne_of_ne e)] using KeyMoves.refl _
  next => cases h

/-- REVOKE marks one slot, whatever it held (R61). -/
theorem Machine.Fuses.revoke_burns {f g : Fuses} {k : Fin 4} (h : f.revoke k = some g) : FusesBurn f g := by
  simp only [Fuses.revoke, Option.ite_none_right_eq_some, Option.some.injEq] at h
  obtain ⟨-, rfl⟩ := h
  refine ⟨rfl, le_rfl, fun j => ?_⟩
  simp only [Fin.getElem_fin, updAt_get]
  split
  · exact ⟨fun _ => .inr rfl, fun _ => rfl⟩
  · exact .refl _

theorem FusesBurn.raiseSvn (f : Fuses) (n : Nat) : FusesBurn f { f with minSvn := max f.minSvn n } :=
  ⟨rfl, le_max_left _ _, fun _ => .refl _⟩

end Sys2Proof

namespace Sys2Proof.Machine

/-- The answer is a state, and from `s` to it fuses only burn. -/
def Burns (s : State) (o : Out) : Prop := ∃ t, o = .next t ∧ FusesBurn s.fuses t.fuses

theorem Burns.next {s t : State} (h : FusesBurn s.fuses t.fuses) : Burns s (.next t) := ⟨t, rfl, h⟩

theorem Burns.state {s : State} {o : Out} (h : Burns s o) (t : State) : FusesBurn s.fuses (Outcome.state o t).fuses := by
  obtain ⟨u, rfl, hu⟩ := h
  exact hu

theorem OnlyTime.burns {s : State} {o : Out} (h : OnlyTime s o) : Burns s o := by
  obtain ⟨t, n, rfl, ht⟩ := h
  exact .next (.of_eq ((State.fuses_of_fixed ht).trans (s.advanceTo_fuses n)))

/-! ### Loader commands (R60 to R62, R69, R70) -/

@[simp] theorem State.loaderRun_fuses (s : State) (cmd : LoaderCmd) (o : OutcomeCode) (reason : Byte) :
    (s.loaderRun cmd o reason).fuses = s.fuses := rfl

theorem State.loaderStart_burns {s : State} {f : State → State} (h : FusesBurn s.fuses (f s).fuses) (cmd : LoaderCmd)
    (master : Byte) : FusesBurn s.fuses (s.loaderStart cmd master f).fuses := by
  unfold State.loaderStart
  split
  · exact .refl _
  split
  · exact h
  · exact .of_eq (s.loaderRun_fuses ..)

theorem execLoaderBegin_burns (src : LoaderPort) (master : Byte) (data : List Byte) (s : State) :
    Burns s (execLoaderBegin src master data s) := by
  have go : (execLoaderBegin.go src data s).fuses = s.fuses := by
    unfold execLoaderBegin.go
    dsimp only
    split <;> rfl
  refine .next (s.loaderStart_burns (.of_eq ?_) _ _)
  split
  · split
    · exact go
    · rfl
  · exact go

theorem execLoaderData_burns (src : LoaderPort) (master : Byte) (data : List Byte) (s : State) :
    Burns s (execLoaderData src master data s) := by
  refine .next (s.loaderStart_burns (.of_eq ?_) _ _)
  dsimp only
  (repeat' split) <;> rfl

theorem execLoaderEnd_burns (src : LoaderPort) (master : Byte) (s : State) :
    Burns s (execLoaderEnd src master s) := by
  refine .next (s.loaderStart_burns (.of_eq ?_) _ _)
  dsimp only
  (repeat' split) <;> rfl

theorem execSvnCommit_burns (src : LoaderPort) (master : Byte) (s : State) :
    Burns s (execSvnCommit src master s) := by
  refine .next (s.loaderStart_burns ?_ _ _)
  dsimp only
  split
  · exact .raiseSvn s.fuses _
  · exact .refl _

theorem execEnroll_burns (src : LoaderPort) (master : Byte) (data : List Byte) (s : State) :
    Burns s (execEnroll src master data s) := by
  refine .next ?_
  split
  · exact .refl _
  refine .then_fixed (s.loaderStart_burns ?_ _ _) (State.freshNonce_fixed _)
  dsimp only
  split
  · exact .refl _
  split
  · exact .refl _
  split
  next h => exact Fuses.enroll_burns h
  next => exact .refl _

theorem execRevoke_burns (src : LoaderPort) (master : Byte) (data : List Byte) (s : State) :
    Burns s (execRevoke src master data s) := by
  refine .next ?_
  split
  · exact .refl _
  refine .then_fixed (s.loaderStart_burns ?_ _ _) (State.freshNonce_fixed _)
  dsimp only
  split
  · exact .refl _
  split
  · exact .refl _
  split
  · split
    next h => exact Fuses.revoke_burns h
    next => exact .refl _
  · exact .refl _

theorem execLoaderAbort_burns (src : LoaderPort) (master : Byte) (s : State) :
    Burns s (execLoaderAbort src master s) :=
  (exec_onlyTime (c := .loaderAbort src master) rfl s).burns

/-! ### Loader commands in a message and in a register (R70, R127) -/

theorem State.loaderMessage_burns (s : State) (m : MctpMsg) : FusesBurn s.fuses (s.loaderMessage m).fuses := by
  unfold State.loaderMessage
  split
  · exact (execLoaderBegin_burns ..).state s
  · exact (execLoaderData_burns ..).state s
  · exact (execLoaderEnd_burns ..).state s
  · exact (execLoaderAbort_burns ..).state s
  · exact (execSvnCommit_burns ..).state s
  · exact (execEnroll_burns ..).state s
  · exact (execRevoke_burns ..).state s
  · exact .refl _

theorem State.loaderCtrl_burns (s : State) (v : W64) (master : Byte) :
    FusesBurn s.fuses (s.loaderCtrl v master).fuses := by
  unfold State.loaderCtrl
  extract_lets _ s1
  have h : FusesBurn s.fuses s1.fuses := .refl _
  split
  · exact h
  refine h.trans ?_
  split
  · exact (execLoaderBegin_burns ..).state s1
  · exact (execLoaderData_burns ..).state s1
  · exact (execLoaderEnd_burns ..).state s1
  · exact (execLoaderAbort_burns ..).state s1
  · exact (execSvnCommit_burns ..).state s1
  · exact (execEnroll_burns ..).state s1
  · exact (execRevoke_burns ..).state s1
  · exact .refl _

theorem State.mctp_burns {s : State} {f : State → State} (h : FusesBurn s.fuses (f s).fuses) (m : MctpMsg) (code : Byte)
    (ok : Bool) : FusesBurn s.fuses (s.mctp m code ok f).fuses := by
  unfold State.mctp
  split
  · exact .refl _
  split
  · exact h
  · exact .of_fixed (s.mctpReply_fixed ..)

theorem execMctpLoader_burns (m : MctpMsg) (s : State) : Burns s (execMctpLoader m s) := by
  refine .next (State.mctp_burns ?_ m _ _)
  dsimp only
  split
  · exact .of_fixed (by simp)
  have h1 : FusesBurn s.fuses (s.raiseGen 0x03 m.head.gen).fuses := .of_fixed (by simp)
  have h2 := h1.trans (State.loaderMessage_burns _ m)
  split
  · exact h1.then_fixed (by simp)
  split <;> exact h2.then_fixed (by simp)

/-! ### Control writes and the end of their epoch (R102, R103) -/

theorem State.writeReg_loaderCtrl (s : State) {w : CtlWrite} (h : blockOf w.offset = .stw 0x380) (n : Nat) :
    s.writeReg w n = s.loaderCtrl w.value w.master := by
  simp [State.writeReg, h]

/-- STW_LOADER_CTRL aside, no register's write touches the fuses, the queue, the time or the image slot. -/
theorem State.writeReg_fixed (s : State) {w : CtlWrite} (h : blockOf w.offset ≠ .stw 0x380) (n : Nat) :
    (s.writeReg w n).fixed = s.fixed := by
  unfold State.writeReg
  dsimp only
  split
  next x hx =>
    split
    · simp
    split
    next h0 => exact absurd (h0 ▸ hx) h
    split <;> simp
  all_goals (repeat' split) <;> simp

theorem State.applyWrite_burns (s : State) (w : CtlWrite) (n : Nat) : FusesBurn s.fuses (s.applyWrite w n).fuses := by
  unfold State.applyWrite
  split
  · exact .of_fixed (by simp)
  by_cases h : blockOf w.offset = .stw 0x380
  · rw [s.writeReg_loaderCtrl h]
    exact s.loaderCtrl_burns ..
  · exact .of_fixed (s.writeReg_fixed h n)

theorem State.applyPending_burns (s : State) (w : PendingWrite) : FusesBurn s.fuses (s.applyPending w).fuses := by
  unfold State.applyPending
  split
  · split
    · exact .of_fixed (by simp)
    · exact .refl _
  · exact (s.applyWrite_burns w.w w.epoch).then_fixed (by simp)

theorem State.applyEpoch_burns (s : State) (ws : List PendingWrite) : FusesBurn s.fuses (s.applyEpoch ws).fuses := by
  have ends (s : State) : FusesBurn s.fuses (s.over (allFin 16) fun s p => s.stopEnd p).fuses := .of_fixed (by simp)
  have writes (l : List PendingWrite) (s : State) : FusesBurn s.fuses (s.over l fun s w => s.applyPending w).fuses :=
    .over l _ State.applyPending_burns s
  unfold State.applyEpoch
  exact (ends s).trans <| (writes _ _).trans <| (writes _ _).trans <| (ends _).trans <| (writes _ _).trans (writes _ _)

theorem State.endEpoch_burns (s : State) (n : Nat) : FusesBurn s.fuses (s.endEpoch n).fuses := by
  unfold State.endEpoch
  refine .trans (.of_fixed ?_) (State.applyEpoch_burns _ _)
  simp

theorem execControlEpochEnd_burns (n : Nat) (s : State) : Burns s (execControlEpochEnd n s) := by
  refine .next (.then_fixed ?_ (State.closeFlags_fixed _))
  exact (FusesBurn.of_eq (s.advanceTo_fuses _)).trans (.over _ _ State.endEpoch_burns _)

/-! ### Every step -/

theorem execP54vWithinRange_burns (s : State) : Burns s (execP54vWithinRange s) := by
  refine .next (.of_eq ?_)
  split <;> rfl

theorem exec_burns (c : Instr) (s : State) : Burns s (exec c s) := by
  cases h : c.setsFixed with
  | false => exact (exec_onlyTime h s).burns
  | true =>
    cases c with
    | p54vWithinRange => exact execP54vWithinRange_burns s
    | loaderBegin => exact execLoaderBegin_burns ..
    | loaderData => exact execLoaderData_burns ..
    | loaderEnd => exact execLoaderEnd_burns ..
    | svnCommit src master => exact execSvnCommit_burns src master s
    | enroll => exact execEnroll_burns ..
    | revoke => exact execRevoke_burns ..
    | mctpLoader => exact execMctpLoader_burns ..
    | controlEpochEnd => exact execControlEpochEnd_burns ..
    | _ => cases h

/-- Settles O4: of the commands, only SVN_COMMIT, ENROLL and REVOKE set a fuse, by themselves, in a loader message or in a
control write at the end of its epoch, and each only burns it. -/
theorem everyStepOnlyBurnsFuses : Obligations.EveryStepOnlyBurnsFuses := by
  intro s t h
  unfold step at h
  split at h
  · cases h
    exact .of_eq (s.advanceTo_fuses _)
  next c rest _ =>
    obtain ⟨u, hu, hb⟩ := exec_burns c { s with pending := rest }
    cases hu.symm.trans h
    exact hb

end Sys2Proof.Machine

/-! SUPPORT. Boot states and the supply (01 R16, R18, R20, R21; 03 R63): what each operation on the boot state sets, and that it
sets nothing beside what reports it. -/

namespace Sys2Proof.Machine

/-! ### The time and the kept parts -/

@[simp] theorem State.advanceTo_kept (s : State) (n : Nat) : (s.advanceTo n).kept = s.kept := by
  simp [State.advanceTo]

/-- What `State.fixed` holds, taken apart. -/
theorem State.eqs_of_fixed {s t : State} (h : t.fixed = s.fixed) :
    t.fuses = s.fuses ∧ t.pending = s.pending ∧ t.timeNs = s.timeNs ∧ t.loader.slot = s.loader.slot ∧
      t.loader.slotValid = s.loader.slotValid := by
  unfold State.fixed at h
  simpa only [Prod.mk.injEq] using h

/-- What `State.kept` holds of control and power. -/
theorem State.eqs_of_kept {s t : State} (h : t.kept = s.kept) :
    t.ctl.recordedGen = s.ctl.recordedGen ∧ t.ctl.incident = s.ctl.incident ∧ t.ctl.faultSource = s.ctl.faultSource ∧
      t.ctl.halted = s.ctl.halted ∧ t.power = s.power := by
  unfold State.kept at h
  simp only [Prod.mk.injEq] at h
  obtain ⟨hgen, -, -, -, -, hinc, hsrc, hhalt, hpow, -⟩ := h
  exact ⟨hgen, hinc, hsrc, hhalt, hpow⟩

theorem State.halted_of_kept {s t : State} (h : t.kept = s.kept) : t.ctl.halted = s.ctl.halted :=
  (State.eqs_of_kept h).2.2.2.1

/-! ### Boot states -/

@[simp] theorem State.setBoot_state (s : State) (b : BootState) : (s.setBoot b).boot.state = b := by
  unfold State.setBoot
  split
  next h => exact eq_of_beq h
  next => rfl

@[simp] theorem State.setBoot_railsUp (s : State) (b : BootState) : (s.setBoot b).boot.railsUp = s.boot.railsUp := by
  unfold State.setBoot
  split <;> rfl

@[simp] theorem State.setBoot_bare_cause (s : State) : (s.setBoot .bare).boot.bareCause = s.boot.bareCause := by
  unfold State.setBoot
  split <;> rfl

@[simp] theorem State.setBoot_power (s : State) (b : BootState) : (s.setBoot b).power = s.power := by
  unfold State.setBoot
  split <;> rfl

@[simp] theorem State.bare_state (s : State) (c : BitVec 4) : (s.bare c).boot.state = .bare := State.setBoot_state ..

@[simp] theorem State.bare_cause (s : State) (c : BitVec 4) : (s.bare c).boot.bareCause = c := State.setBoot_bare_cause _

@[simp] theorem State.bare_railsUp (s : State) (c : BitVec 4) : (s.bare c).boot.railsUp = s.boot.railsUp :=
  State.setBoot_railsUp ..

@[simp] theorem State.bare_power (s : State) (c : BitVec 4) : (s.bare c).power = s.power := State.setBoot_power ..

@[simp] theorem State.modFault_boot (s : State) : s.modFault.boot = s.boot := by
  unfold State.modFault
  split <;> rfl

theorem State.modFault_power (s : State) : s.modFault.power = { s.power with modFault := true } := by
  unfold State.modFault
  split
  next h => rw [← h]
  next => rfl

/-- Nothing but the boot state and what reports it differs: `t` is `s` once boot, link, loader, power and Almanac are. -/
def BootOnly (s t : State) : Prop :=
  { t with boot := s.boot, link := s.link, loader := s.loader, power := s.power, almanac := s.almanac } = s

theorem BootOnly.refl (s : State) : BootOnly s s := rfl

theorem BootOnly.trans {s t u : State} (h : BootOnly s t) (g : BootOnly t u) : BootOnly s u := by
  have e := congrArg (fun x : State =>
    { x with boot := s.boot, link := s.link, loader := s.loader, power := s.power, almanac := s.almanac }) g
  exact e.trans h

theorem BootOnly.fields {s t : State} (h : BootOnly s t) : t.fields = s.fields := by
  have e := congrArg State.fields h
  exact e

theorem BootOnly.parts {s t : State} (h : BootOnly s t) : t.parts = s.parts := by
  have e := congrArg State.parts h
  exact e

theorem BootOnly.ctl {s t : State} (h : BootOnly s t) : t.ctl = s.ctl := by
  have e := congrArg State.ctl h
  exact e

theorem State.setBoot_bootOnly (s : State) (b : BootState) : BootOnly s (s.setBoot b) := by
  unfold State.setBoot
  split <;> rfl

theorem State.bare_bootOnly (s : State) (c : BitVec 4) : BootOnly s (s.bare c) :=
  BootOnly.trans (t := { s with boot := { s.boot with bareCause := c } }) rfl (State.setBoot_bootOnly ..)

theorem State.modFault_bootOnly (s : State) : BootOnly s s.modFault := by
  unfold State.modFault
  split <;> rfl

theorem State.event_bootOnly (s : State) (code : W16) (u p sv : Byte) (inc : W32) (d : BitVec 224) :
    BootOnly s (s.event code u p sv inc d) := rfl

/-! ### Where boot begins (R63) -/

theorem State.bootStart_badFuses {s : State} (h : fuseMapOk s.fuses.map = false) :
    s.bootStart.boot.state = .bare ∧ s.bootStart.boot.bareCause = 4 ∧ s.bootStart.power.modFault = true := by
  simp [State.bootStart, h, State.modFault_power]

theorem State.bootStart_strap {s : State} (h : fuseMapOk s.fuses.map = true)
    (hs : s.power.straps.bootBare = true ∧ s.loader.endedSinceStraps = false) :
    s.bootStart.boot.state = .bare ∧ s.bootStart.boot.bareCause = 1 := by
  simp [State.bootStart, h, hs]

theorem State.bootStart_noImage {s : State} (h : fuseMapOk s.fuses.map = true)
    (hs : s.power.straps.bootBare = false ∨ s.loader.endedSinceStraps = true) (hv : s.loader.slotValid = false) :
    s.bootStart.boot.state = .bare ∧ s.bootStart.boot.bareCause = 2 := by
  rcases hs with hs | hs <;> simp [State.bootStart, h, hs, hv]

theorem State.bootStart_image {s : State} (h : fuseMapOk s.fuses.map = true)
    (hs : s.power.straps.bootBare = false ∨ s.loader.endedSinceStraps = true) (hv : s.loader.slotValid = true) :
    s.bootStart.boot.state = .verify := by
  rcases hs with hs | hs <;> simp [State.bootStart, h, hs, hv]

/-- The three ways boot begins: a fault of the fuse map, BARE with its cause, VERIFY. -/
theorem State.bootStart_cases (s : State) :
    s.bootStart = ((s.event 0x0102 unitSteward partNone sevDevice 0 (packDetail [(s.fuses.map.toNat, 8)])).bare 4).modFault ∨
      (∃ c, s.bootStart = s.bare c) ∨ s.bootStart = s.setBoot .verify := by
  unfold State.bootStart
  split
  · exact .inl rfl
  split
  · exact .inr (.inl ⟨1, rfl⟩)
  split
  · exact .inr (.inl ⟨2, rfl⟩)
  · exact .inr (.inr rfl)

theorem State.bootStart_bootOnly (s : State) : BootOnly s s.bootStart := by
  obtain h | ⟨c, h⟩ | h := s.bootStart_cases <;> rw [h]
  · exact ((s.event_bootOnly ..).trans (State.bare_bootOnly ..)).trans (State.modFault_bootOnly _)
  · exact s.bare_bootOnly c
  · exact s.setBoot_bootOnly .verify

theorem State.bootStart_railsUp (s : State) : s.bootStart.boot.railsUp = s.boot.railsUp := by
  obtain h | ⟨c, h⟩ | h := s.bootStart_cases <;> rw [h] <;> simp

/-! ### Supply, straps and PWR_EN (R16, R18, R20, R21) -/

/-- A device that no cause holds in BARE begins to boot with the rails (R63, R68). -/
theorem exec_railsInRegulation {s : State} (hen : s.power.pwrEn = true) (hw : s.power.railWells = true)
    (hup : s.boot.railsUp = false) (hh : s.heldBare = false) :
    exec .railsInRegulation s = .next ({ s with boot := { s.boot with railsUp := true } } : State).bootStart := by
  refine congrArg Host.Outcome.next ((if_pos (by simp [hen, hw, hup])).trans (if_neg ?_))
  exact fun h => Bool.false_ne_true (hh.symm.trans h)

theorem exec_pwrEnRise {s : State} (at_ : Nat) (hon : s.power.alwaysOn = true) (hen : s.power.pwrEn = false)
    (hh : s.ctl.halted = false) :
    let s1 := s.advanceTo at_
    exec (.pwrEnRise at_) s = .next { s1 with
      power := { s1.power with
        pwrEn := true, pwrEnAt := s1.timeNs, railFields := Vector.replicate 4 true, railWells := true
        railCistern := true, railOptics := true, govAt := s1.timeNs, commonMv := 650 }
      link := { s1.link with detectUntil := s1.timeNs + 100000000 } } := by
  have hh1 : (s.advanceTo at_).ctl.halted = false := (State.halted_of_kept (s.advanceTo_kept at_)).trans hh
  refine congrArg Host.Outcome.next ((if_pos (by simp [hon, hen])).trans (if_neg ?_))
  exact fun h => Bool.false_ne_true (hh1.symm.trans h)

/-- Settles O6: the supply, the straps and PWR_EN each set what they name; with the rails up, boot begins as
`State.bootStart` says, of which the fuse map, the strap and the slot's valid mark decide (R63). -/
theorem supplyAndPowerEnableSwitchTheDomains : Obligations.SupplyAndPowerEnableSwitchTheDomains := by
  refine ⟨fun s h => ?_, fun s h => ?_, fun s x hon hst => ?_, fun s n => exec_pwrEnRise n, fun s hen hw hup hh => ?_⟩
  · exact congrArg Host.Outcome.next (if_neg (by simp [h]))
  · exact congrArg Host.Outcome.next (if_pos h)
  · refine congrArg Host.Outcome.next ((if_pos (by simp [hon, hst])).trans ?_)
    cases hp : s.power.pwrEn <;> simp [hp]
  · refine ⟨_, exec_railsInRegulation hen hw hup hh, State.bootStart_railsUp _, fun hf => State.bootStart_badFuses hf,
      fun hf => ?_, ?_⟩
    · exact ⟨fun hs => State.bootStart_strap hf hs,
        fun hs => ⟨fun hv => State.bootStart_noImage hf hs hv, fun hv => State.bootStart_image hf hs hv⟩⟩
    · exact BootOnly.trans (t := { s with boot := { s.boot with railsUp := true } }) rfl (State.bootStart_bootOnly _)

end Sys2Proof.Machine

/-! SUPPORT. Resets and removed power (01 R18, R21, R26; 17 R388, R389, R410): what a device reset keeps of control and power,
and the state that PWR_EN low and a halt leave. -/

namespace Sys2Proof.Machine

/-! ### The reset state -/

/-- Settles O2: at reset key slot 0 is empty, the image slot lists nothing, and every bank holds its units' defaults (log 11). -/
theorem resetIsSoundAndEmpty : Obligations.ResetIsSoundAndEmpty := by
  refine ⟨⟨⟨0, .inr rfl⟩, rfl⟩, ?_, ?_, ⟨?_, ?_, ?_, ?_⟩, rfl, rfl, rfl⟩
  · simp [AllEmpty, State.reset]
  · simp [RailsOff, State.reset]
  · simp [SluicesIdle, State.reset]
  · simp [State.reset]
  · simp [State.reset]
  · simp [State.reset]

/-! ### Device reset (R128, R410) and removed rails (R18, R21, R26) -/

/-- Of a state emptied for a reset, what control keeps is what it held before (R101, R389). -/
theorem State.afterReset_ctl {s t : State} (h : t.kept = s.kept) :
    t.afterReset.ctl =
      { recordedGen := s.ctl.recordedGen, incident := s.ctl.incident, faultSource := s.ctl.faultSource
        halted := s.ctl.halted } := by
  obtain ⟨hgen, hinc, hsrc, hhalt, -⟩ := State.eqs_of_kept h
  simp [State.afterReset, hgen, hinc, hsrc, hhalt]

theorem State.deviceReset_ctl (s : State) (o : OutcomeCode) (inc : W32) :
    (s.deviceReset o inc).ctl =
      { recordedGen := s.ctl.recordedGen, incident := s.ctl.incident, faultSource := s.ctl.faultSource
        halted := s.ctl.halted } :=
  State.afterReset_ctl (s.emptied_kept o inc)

/-- What the always-on domain knows of the supply and its alarms stays over a device reset. -/
theorem State.afterReset_power {s t : State} (h : t.kept = s.kept) :
    t.afterReset.power.alwaysOn = s.power.alwaysOn ∧ t.afterReset.power.supply = s.power.supply ∧
      t.afterReset.power.undervoltage = s.power.undervoltage ∧ t.afterReset.power.thermTrip = s.power.thermTrip := by
  obtain ⟨-, -, -, -, hpow⟩ := State.eqs_of_kept h
  simp [State.afterReset, hpow]

theorem State.deviceReset_power (s : State) (o : OutcomeCode) (inc : W32) :
    (s.deviceReset o inc).power.alwaysOn = s.power.alwaysOn ∧ (s.deviceReset o inc).power.supply = s.power.supply ∧
      (s.deviceReset o inc).power.undervoltage = s.power.undervoltage ∧
      (s.deviceReset o inc).power.thermTrip = s.power.thermTrip :=
  State.afterReset_power (s.emptied_kept o inc)

theorem State.afterReset_allEmpty (s : State) : AllEmpty s.afterReset := by
  intro p
  simp [State.afterReset, Partition.afterReset]

theorem State.deviceReset_allEmpty (s : State) (o : OutcomeCode) (inc : W32) : AllEmpty (s.deviceReset o inc) :=
  State.afterReset_allEmpty _

theorem allEmpty_of_parts {s t : State} (h : AllEmpty s) (e : t.parts = s.parts) : AllEmpty t := by
  intro p
  rw [e]
  exact h p

theorem railsOff_of_power {t : State} (x : State) (on fault : Bool)
    (e : t.power = { x.railsOff.power with pwrEn := on, modFault := fault }) : RailsOff t := by
  simp [RailsOff, e, State.railsOff]

/-- A boot without rails waits for them: only the boot state is set. -/
theorem State.reboot_noRails {s : State} (h : s.boot.railsUp = false) :
    BootOnly s s.reboot ∧ s.reboot.power = s.power := by
  unfold State.reboot
  split
  · exact ⟨.refl s, rfl⟩
  rw [if_neg (by simp [h])]
  exact ⟨s.setBoot_bootOnly _, s.setBoot_power _⟩

/-! ### PWR_EN low (R18) -/

/-- What PWR_EN_FALL does after its device reset. -/
def State.powerDown (s : State) : State :=
  ({ s.railsOff with
    power := { s.railsOff.power with pwrEn := false }
    link := { s.railsOff.link with link := .detect } } : State).bare 5

theorem exec_pwrEnFall {s : State} (h : s.power.pwrEn = true) :
    exec .pwrEnFall s = .next (s.deviceReset .abortedReset 0).powerDown :=
  congrArg Host.Outcome.next (if_pos h)

theorem State.powerDown_power (s : State) : s.powerDown.power = { s.railsOff.power with pwrEn := false } :=
  State.bare_power ..

theorem State.powerDown_bootOnly (s : State) : BootOnly s.railsOff s.powerDown :=
  BootOnly.trans (t := { s.railsOff with
    power := { s.railsOff.power with pwrEn := false }
    link := { s.railsOff.link with link := .detect } }) rfl (State.bare_bootOnly ..)

theorem State.powerDown_railsOff (s : State) : RailsOff s.powerDown := railsOff_of_power _ _ _ s.powerDown_power

theorem State.powerDown_allEmpty {s : State} (h : AllEmpty s) : AllEmpty s.powerDown :=
  allEmpty_of_parts h s.powerDown_bootOnly.parts

theorem State.powerDown_supply (s : State) :
    s.powerDown.power.pwrEn = false ∧ s.powerDown.power.alwaysOn = s.power.alwaysOn := by
  rw [s.powerDown_power]
  exact ⟨rfl, rfl⟩

theorem State.powerDown_boot (s : State) :
    s.powerDown.boot.state = .bare ∧ s.powerDown.boot.bareCause = 5 ∧ s.powerDown.boot.railsUp = false :=
  ⟨State.bare_state .., State.bare_cause .., State.bare_railsUp ..⟩

theorem State.powerDown_ctl (s : State) : s.powerDown.ctl = s.ctl := s.powerDown_bootOnly.ctl

theorem State.powerDown_fields (s : State) (f : FieldId) :
    s.powerDown.fields[f] = { failed := s.powerDown.fields[f].failed } := by
  rw [(State.powerDown_bootOnly s).fields]
  simp [State.railsOff]

@[simp] theorem State.powerDown_fixed (s : State) : s.powerDown.fixed = s.fixed :=
  (State.bare_fixed ..).trans ((State.power_link_fixed ..).trans s.railsOff_fixed)

/-! ### A device that halts (R388, R389) -/

/-- What a halt does after its device reset. -/
def State.haltDown (s : State) : State :=
  ({ s.railsOff with ctl := { s.railsOff.ctl with halted := true } } : State).reboot.modFault

theorem State.halt_eq (s : State) (src : Byte) :
    s.halt src =
      ((s.incident src (maskOf (s.committedParts.map (·.val))) sevDevice).deviceReset .abortedReset
        (s.ctl.incident + 1)).haltDown := rfl

theorem State.haltDown_power (s : State) : s.haltDown.power = { s.railsOff.power with modFault := true } := by
  unfold State.haltDown
  rw [State.modFault_power, (State.reboot_noRails rfl).2]

theorem State.haltDown_bootOnly (s : State) :
    BootOnly { s.railsOff with ctl := { s.railsOff.ctl with halted := true } } s.haltDown :=
  (State.reboot_noRails rfl).1.trans (State.modFault_bootOnly _)

theorem State.haltDown_ctl (s : State) : s.haltDown.ctl = { s.ctl with halted := true } := s.haltDown_bootOnly.ctl

theorem State.haltDown_allEmpty {s : State} (h : AllEmpty s) : AllEmpty s.haltDown :=
  allEmpty_of_parts h s.haltDown_bootOnly.parts

/-- A halt asserts MOD_FAULT#, and leaves the supply and the trip line as they stand. -/
theorem State.haltDown_alarms (s : State) :
    s.haltDown.power.modFault = true ∧ s.haltDown.power.supply = s.power.supply ∧
      s.haltDown.power.undervoltage = s.power.undervoltage ∧ s.haltDown.power.thermTrip = s.power.thermTrip := by
  rw [s.haltDown_power]
  exact ⟨rfl, rfl, rfl, rfl⟩

theorem State.halt_railsOff (s : State) (src : Byte) : RailsOff (s.halt src) :=
  railsOff_of_power _ _ _ (State.haltDown_power _)

theorem State.halt_allEmpty (s : State) (src : Byte) : AllEmpty (s.halt src) := by
  rw [s.halt_eq]
  exact State.haltDown_allEmpty (State.deviceReset_allEmpty _ _ _)

theorem State.halt_ctl (s : State) (src : Byte) :
    (s.halt src).ctl =
      { recordedGen := s.ctl.recordedGen, incident := s.ctl.incident + 1, faultSource := src, halted := true } := by
  rw [s.halt_eq, State.haltDown_ctl, State.deviceReset_ctl]
  rfl

theorem State.halt_alarms (s : State) (src : Byte) :
    (s.halt src).power.modFault = true ∧ (s.halt src).power.supply = s.power.supply ∧
      (s.halt src).power.undervoltage = s.power.undervoltage ∧ (s.halt src).power.thermTrip = s.power.thermTrip := by
  obtain ⟨-, hsup, huv, htrip⟩ := State.deviceReset_power
    (s.incident src (maskOf (s.committedParts.map (·.val))) sevDevice) .abortedReset (s.ctl.incident + 1)
  obtain ⟨hfault, hsup', huv', htrip'⟩ := State.haltDown_alarms
    ((s.incident src (maskOf (s.committedParts.map (·.val))) sevDevice).deviceReset .abortedReset (s.ctl.incident + 1))
  rw [s.halt_eq]
  exact ⟨hfault, hsup'.trans hsup, huv'.trans huv, htrip'.trans htrip⟩

theorem exec_inputCollapse {s : State} {mv : W16} (hon : s.power.alwaysOn = true) (hlo : 38000 ≤ mv.toNat)
    (hhi : mv.toNat < 42000) (hsup : s.power.supply ≠ .collapsed) :
    ∃ x : State, exec (.inputCollapse mv) s = .next (x.halt 0x0B) ∧ x.fixed = s.fixed ∧ x.ctl = s.ctl ∧
      x.power.supply = .collapsed ∧ x.power.undervoltage = true := by
  refine ⟨_, congrArg Host.Outcome.next (if_pos (by simp [hon, hlo, hhi, hsup])), ?_⟩
  cases s.power.undervoltage <;> exact ⟨rfl, rfl, rfl, rfl⟩

theorem exec_thermalTrip {s : State} {x : Sensor} {c : Byte} (hon : s.power.alwaysOn = true)
    (htrip : s.power.thermTrip = false) (hc : tripC x ≤ c.toInt) :
    ∃ y : State, exec (.thermalTrip x c) s = .next (y.halt 0x0A) ∧ y.fixed = s.fixed ∧ y.ctl = s.ctl ∧
      y.power.thermTrip = true := by
  refine ⟨_, congrArg Host.Outcome.next (if_pos (by simp [hon, htrip, sgn, hc])), ?_⟩
  cases x <;> exact ⟨rfl, rfl, rfl⟩

theorem State.powerLoss_railsOff (s : State) : RailsOff s.powerLoss := by
  simp [RailsOff, State.powerLoss]

theorem State.powerLoss_allEmpty (s : State) : AllEmpty s.powerLoss := by
  simp [AllEmpty, State.powerLoss]

/-- A device that halts, from whatever state the event left (R389): every clause that INPUT_COLLAPSE and THERMAL_TRIP
share. -/
theorem State.halt_ends {s x : State} (src : Byte) (hfix : x.fixed = s.fixed) (hctl : x.ctl = s.ctl) :
    (x.halt src).ctl.halted = true ∧ (x.halt src).ctl.faultSource = src ∧
      (x.halt src).ctl.incident = s.ctl.incident + 1 ∧ (x.halt src).ctl.recordedGen = s.ctl.recordedGen ∧
      (x.halt src).fuses = s.fuses ∧ (x.halt src).timeNs = s.timeNs ∧ (x.halt src).pending = s.pending := by
  obtain ⟨hfuses, hpend, htime, -⟩ := State.eqs_of_fixed ((x.halt_fixed src).trans hfix)
  rw [x.halt_ctl, hctl]
  exact ⟨rfl, rfl, rfl, rfl, hfuses, htime, hpend⟩

/-- Settles O7: PWR_EN low is a device reset and `State.powerDown`, loss of P54V is `State.powerLoss`, and a collapse and a
trip are each a halt of what their events leave (R18, R21, R26, R389). -/
theorem removedPowerEmptiesTheDevice : Obligations.RemovedPowerEmptiesTheDevice := by
  refine ⟨fun s hen => ?_, fun s => ?_, fun s mv hon hlo hhi hsup => ?_,
    fun s x c hon htrip hc => ?_⟩
  · obtain ⟨hlow, hon⟩ := (s.deviceReset .abortedReset 0).powerDown_supply
    obtain ⟨hbare, hcause, hrails⟩ := (s.deviceReset .abortedReset 0).powerDown_boot
    obtain ⟨hfuses, hpend, htime, hslot, hvalid⟩ :=
      State.eqs_of_fixed ((State.powerDown_fixed _).trans (s.deviceReset_fixed .abortedReset 0))
    refine ⟨_, exec_pwrEnFall hen, State.powerDown_railsOff _, State.powerDown_allEmpty (s.deviceReset_allEmpty _ _), hlow,
      hon.trans (s.deviceReset_power _ _).1, hbare, hcause, hrails, State.powerDown_fields _, ?_, hfuses, htime, hslot, hvalid,
      hpend⟩
    rw [State.powerDown_ctl, State.deviceReset_ctl]
  · exact ⟨s.powerLoss, rfl, s.powerLoss_railsOff, s.powerLoss_allEmpty, rfl, rfl, rfl, rfl, rfl, rfl, rfl, rfl⟩
  · obtain ⟨x, hx, hfix, hctl, hcol, huv⟩ := exec_inputCollapse hon hlo hhi hsup
    obtain ⟨hfault, hsup', huv', -⟩ := x.halt_alarms 0x0B
    exact ⟨_, hx, x.halt_railsOff _, x.halt_allEmpty _, hsup'.trans hcol, huv'.trans huv, hfault, State.halt_ends _ hfix hctl⟩
  · obtain ⟨y, hy, hfix, hctl, ht⟩ := exec_thermalTrip hon htrip hc
    obtain ⟨hfault, -, -, ht'⟩ := y.halt_alarms 0x0A
    exact ⟨_, hy, y.halt_railsOff _, y.halt_allEmpty _, ht'.trans ht, hfault, State.halt_ends _ hfix hctl⟩

end Sys2Proof.Machine

/-! SUPPORT. Sensors, caps and the Almanac's newest record (01 R17, R19, R25, R37, R38; 18 R428, R429). -/

namespace Sys2Proof.Machine

/-- One entry of a bank updated, where `P` says that it is the entry read. -/
theorem updAt_ite {α : Type} {n : Nat} {P : Prop} [Decidable P] (v : Vector α n) (i j : Fin n) (f : α → α)
    (h : P ↔ i = j) : (updAt v i f)[j] = if P then f v[j] else v[j] := by
  by_cases e : i = j
  · subst e
    rw [if_pos (h.mpr rfl)]
    exact updAt_self v i f
  · rw [if_neg fun p => e (h.mp p)]
    exact updAt_other v i j j.isLt f (Fin.val_ne_of_ne e)

/-! ### A reading of a sensor (R17, R25) -/

/-- Of the power state a reading keeps only what the governor reads of optics and Pumps. -/
theorem State.setTemp_power (s : State) (x : Sensor) (c : Byte) :
    { (s.setTemp x c).power with opticC := s.power.opticC, pumpC := s.power.pumpC } = s.power := by
  cases x <;> rfl

theorem State.setTemp_warnSensors (s : State) (x : Sensor) (c : Byte) :
    (s.setTemp x c).power.warnSensors = s.power.warnSensors :=
  (congrArg Power.warnSensors (s.setTemp_power x c) :)

theorem State.setTemp_frame (s : State) (x : Sensor) (c : Byte) :
    { s.setTemp x c with power := s.power, fields := s.fields, wells := s.wells, pumps := s.pumps, cisTemp := s.cisTemp } =
      s := by
  cases x <;> rfl

theorem State.sense_warnSensors (s : State) (x : Sensor) (c : Byte) :
    (s.sense x c).power.warnSensors =
      if warnC x < c.toInt then x :: s.power.warnSensors.filter (· != x) else s.power.warnSensors.filter (· != x) := by
  simp only [State.sense, s.setTemp_warnSensors, sgn]

theorem State.mem_sense_warnSensors (s : State) (x y : Sensor) (c : Byte) :
    y ∈ (s.sense x c).power.warnSensors ↔ if y = x then warnC x < c.toInt else y ∈ s.power.warnSensors := by
  rw [s.sense_warnSensors]
  by_cases hw : warnC x < c.toInt <;> by_cases hy : y = x <;> simp [hw, hy]

theorem State.sense_power (s : State) (x : Sensor) (c : Byte) :
    { (s.sense x c).power with
      warnSensors := s.power.warnSensors, thermWarn := s.power.thermWarn, opticC := s.power.opticC
      pumpC := s.power.pumpC } = s.power := by
  cases x <;> rfl

theorem State.sense_warns (s : State) (x : Sensor) (c : Byte) : Warns x c s (s.sense x c) := by
  refine ⟨?_, fun y hy => ?_, ?_, s.sense_power x c⟩
  · simp [s.mem_sense_warnSensors]
  · simp [s.mem_sense_warnSensors, hy]
  · simp [State.sense]

theorem State.sense_frame (s : State) (x : Sensor) (c : Byte) :
    { s.sense x c with power := s.power, fields := s.fields, wells := s.wells, pumps := s.pumps, cisTemp := s.cisTemp } =
      s := s.setTemp_frame x c

theorem State.sense_fields (s : State) (x : Sensor) (c : Byte) (f : FieldId) :
    (s.sense x c).fields[f] = if x = .die f then { s.fields[f] with junctionC := c } else s.fields[f] := by
  cases x with
  | die g =>
    exact updAt_ite _ _ _ _ (by simp)
  | well | optic | pump | cistern => rfl

theorem State.sense_wells (s : State) (x : Sensor) (c : Byte) (w : WellId) :
    (s.sense x c).wells[w] =
      if x = .well w then { s.wells[w] with tempC := c, refresh2x := decide (85 < c.toInt) } else s.wells[w] := by
  cases x with
  | well v =>
    exact updAt_ite _ _ _ _ (by simp)
  | die | optic | pump | cistern => rfl

theorem State.sense_cisTemp (s : State) (x : Sensor) (c : Byte) (k : Fin 16) :
    (s.sense x c).cisTemp[k] = if x = .cistern k then c else s.cisTemp[k] := by
  cases x with
  | cistern j =>
    show (s.cisTemp.set j.val c j.isLt)[k.val] = _
    simp [Vector.getElem_set, Fin.ext_iff]
  | die | well | optic | pump => rfl

/-- A package's reading reaches the Pump of its quarter alone. -/
theorem State.sense_pumps (s : State) (x : Sensor) (c : Byte) (u : PumpId)
    (h : ∀ k : Fin 16, k.val / 4 = u.val → x ≠ .cistern k) : (s.sense x c).pumps[u] = s.pumps[u] := by
  cases x with
  | cistern k =>
    have hk : k.val / 4 ≠ u.val := fun e => h k e rfl
    exact updAt_other _ _ _ _ _ hk
  | die | well | optic | pump => rfl

/-! ### The newest Almanac record -/

/-- A recorded or folded event is the newest record, on its way to flash (R429, R430). -/
theorem State.event_noted (s : State) (code : W16) (u p sv : Byte) (inc : W32) (d : BitVec 224) :
    Noted (s.event code u p sv inc d) code d := by
  unfold Noted State.event
  dsimp only
  split
  next l _ =>
    split
    next h =>
      obtain ⟨hc, -, -, -, hd, -⟩ := h
      simp [hc, hd]
    next => simp
  next => simp

theorem packDetail_word (w : W16) : packDetail [(w.toNat, 2)] = w.setWidth 224 := by
  apply BitVec.eq_of_toNat_eq
  have := w.isLt
  simp [packDetail]
  omega

/-! ### Caps (R19, R37, R38) -/

theorem State.capInForce_braked {s : State} (h : s.power.brake = true ∨ s.power.undervoltage = true) :
    s.capInForce = min (min 2000 (max 400 s.power.capW.toNat)) s.power.brakeCapW.toNat := by
  rcases h with h | h <;> simp [State.capInForce, h]

theorem State.capInForce_free {s : State} (hb : s.power.brake = false) (hu : s.power.undervoltage = false) :
    s.capInForce = min 2000 (max 400 s.power.capW.toNat) := by
  simp [State.capInForce, hb, hu]

/-- The register of the cap is served by a device that is READY, and by none whose always-on domain is off (R65). -/
theorem State.served_powerCap {s : State} (h : Ready s) : s.served 0x280 = true := by
  obtain ⟨hon, hready, -⟩ := h
  have hb : blockOf 0x280 = .stw 0x280 := by decide
  simp [State.served, hb, hon, hready]

theorem State.served_off {s : State} (h : s.power.alwaysOn = false) (off : Nat) : s.served off = false := by
  simp [State.served, h]

theorem exec_undervoltage {s : State} {mv : W16} (hon : s.power.alwaysOn = true) (huv : s.power.undervoltage = false)
    (hmv : mv.toNat < 45000) :
    exec (.undervoltage mv) s =
      .next (({ s with power := { s.power with undervoltage := true, supply := .undervolt } } : State).event 0x0201 unitNone
        partNone sevInfo 0 (packDetail [(mv.toNat, 2)])) :=
  congrArg Host.Outcome.next (if_pos (by simp [hon, huv, hmv]))

/-- Settles O8: a reading of a sensor is one `State.sense`, an undervoltage one Almanac event (R17, R21), and what applies
of the caps is `State.capInForce` (R19, R37). -/
theorem capsBrakesAndWarnings : Obligations.CapsBrakesAndWarnings := by
  refine ⟨fun s => ?_, fun s huv => ?_, fun s mv hon huv hmv => ?_, fun s huv => ?_,
    fun s w => ⟨fun hr => ?_, fun hoff => ?_⟩, fun s x c hon => ?_⟩
  · exact ⟨_, rfl, rfl, State.capInForce_braked (.inl rfl)⟩
  · exact ⟨_, rfl, rfl, State.capInForce_free rfl huv⟩
  · refine ⟨_, exec_undervoltage hon huv hmv, rfl, ?_, State.capInForce_braked (.inr rfl), rfl⟩
    rw [packDetail_word]
    exact State.event_noted ..
  · exact congrArg Host.Outcome.next (if_pos huv)
  · exact congrArg Host.Outcome.next (if_pos (State.served_powerCap hr))
  · refine congrArg Host.Outcome.next (if_neg ?_)
    simp [State.served_off hoff]
  · exact ⟨_, congrArg Host.Outcome.next (if_pos hon), s.sense_warns x c, s.sense_fields x c, s.sense_wells x c,
      s.sense_cisTemp x c, s.sense_pumps x c, s.sense_frame x c⟩

end Sys2Proof.Machine

/-! SUPPORT. The governor (01 R25; 02 R33, R35 to R37): the range of its free settings, and one round per field. -/

namespace Sys2Proof.Machine

/-! ### Masks -/

theorem foldl_or_testBit (l : List Nat) (m i : Nat) :
    (l.foldl (fun m j => m ||| (1 <<< j)) m).testBit i = (m.testBit i || decide (i ∈ l)) := by
  induction l generalizing m with
  | nil => simp
  | cons j l ih =>
    have hj : (1 <<< j).testBit i = decide (i = j) := by
      rw [Nat.one_shiftLeft, Nat.testBit_two_pow]
      exact decide_eq_decide.mpr eq_comm
    rw [List.foldl_cons, ih, Nat.testBit_or, hj]
    simp [Bool.or_assoc]

/-- The bits of a mask are the numbers it was made of. -/
theorem maskOf_testBit (l : List Nat) (i : Nat) : (maskOf l).testBit i = decide (i ∈ l) := by
  unfold maskOf
  simp [foldl_or_testBit]

/-- The mask of the indices that pass a test, in a word with a bit for each. -/
theorem maskOf_filter_getLsbD {n : Nat} (p : Fin n → Bool) (i : Fin n) :
    (BitVec.ofNat n (maskOf (((allFin n).filter p).map (·.val)))).getLsbD i.val = p i := by
  have hmem : (i.val ∈ ((allFin n).filter p).map (·.val)) ↔ p i = true := by
    simp [allFin, Fin.val_inj]
  rw [BitVec.getLsbD_ofNat, maskOf_testBit]
  simp only [hmem, i.isLt, decide_true, Bool.true_and, Bool.decide_eq_true]

/-! ### Settings (R36, R37) -/

theorem govSetting_ge (free : W64) (lo hi : Nat) : lo ≤ govSetting free lo hi := Nat.le_add_right ..

theorem govSetting_le (free : W64) (lo hi : Nat) : govSetting free lo hi ≤ max lo hi := by
  unfold govSetting
  have := Nat.mod_lt free.toNat (show 0 < (max lo hi - lo) / 5 + 1 by omega)
  omega

theorem govSetting_mod (free : W64) (lo hi : Nat) : govSetting free lo hi % 5 = lo % 5 := by
  unfold govSetting
  omega

/-- A run of the governor chooses from a floor 45 or 50 mV down to a ceiling that the cap sets (R37). -/
theorem State.commonSetting_range (s : State) (free : W64) (hot : Bool) :
    ∃ lo hi, s.commonSetting free hot = govSetting free lo hi ∧
      (lo = max 650 (s.power.commonMv - 45) ∨ lo = max 650 (s.power.commonMv - 50)) ∧
      (s.capInForce < s.power.inputW.toNat → hi = max 650 (s.power.commonMv - 5)) ∧
      (s.capInForce = s.power.inputW.toNat → hi = s.power.commonMv) ∧
      (s.power.inputW.toNat < s.capInForce → hi = min 800 (s.power.commonMv + 50)) := by
  have hlo : max 650 (s.power.commonMv - if hot then 45 else 50) = max 650 (s.power.commonMv - 45) ∨
      max 650 (s.power.commonMv - if hot then 45 else 50) = max 650 (s.power.commonMv - 50) := by
    cases hot
    · exact .inr rfl
    · exact .inl rfl
  unfold State.commonSetting
  dsimp only
  split
  next h => exact ⟨_, _, rfl, hlo, fun _ => rfl, fun e => absurd e h.ne, fun e => absurd e h.le.not_gt⟩
  next h =>
    split
    next e => exact ⟨_, _, rfl, hlo, fun l => absurd l h, fun _ => rfl, fun l => absurd e l.ne'⟩
    next e => exact ⟨_, _, rfl, hlo, fun l => absurd l h, fun l => absurd l e, fun _ => rfl⟩

/-- A run from a setting within 650 to 800 mV stays within, moves at most 50 mV in steps of 5, down while input power is above
the cap but for the floor, and not up at the cap (R36, R37). -/
theorem State.commonSetting_moves (s : State) (free : W64) (hot : Bool) (hlo : 650 ≤ s.power.commonMv)
    (hhi : s.power.commonMv ≤ 800) :
    let c := s.commonSetting free hot
    650 ≤ c ∧ c ≤ 800 ∧ c ≤ s.power.commonMv + 50 ∧ s.power.commonMv ≤ c + 50 ∧
      (s.power.commonMv % 5 = 0 → c % 5 = 0) ∧
      (s.capInForce < s.power.inputW.toNat → c < s.power.commonMv ∨ c = 650) ∧
      (s.capInForce = s.power.inputW.toNat → c ≤ s.power.commonMv) := by
  obtain ⟨lo, hi, e, hfloor, habove, hat, hbelow⟩ := s.commonSetting_range free hot
  have hge := govSetting_ge free lo hi
  have hle := govSetting_le free lo hi
  have hmod := govSetting_mod free lo hi
  dsimp only
  rw [e]
  omega

/-! ### One field (R25, R36) -/

/-- Below 800 mV a limiter is named: code 4 where the field is at a limit, else a lower one. -/
theorem State.limiterOf_low (s : State) {mv : Nat} (h : mv < 800) (hot : Bool) :
    s.limiterOf mv hot ≠ 0 ∧ (s.limiterOf mv hot = 4 ↔ hot = true) := by
  unfold State.limiterOf
  rw [if_neg (Nat.not_le.mpr h)]
  cases hot with
  | true => simp
  | false =>
    rw [if_neg Bool.false_ne_true]
    split
    · simp
    split <;> simp

theorem State.limiterOf_eq_zero (s : State) (mv : Nat) (hot : Bool) : s.limiterOf mv hot = 0 ↔ 800 ≤ mv := by
  refine ⟨fun e => ?_, fun h => if_pos h⟩
  by_contra h
  exact (s.limiterOf_low (Nat.not_le.mp h) hot).1 e

/-- Away from a limit a field follows the common setting as fast as its rail may move. -/
theorem State.fieldSetting_cool (s : State) {f : FieldId} (h : s.fieldHot f = false) (free : W64) (common : Nat) :
    s.fieldSetting f free common =
      if s.fields[f].railMv.toNat < 650 then common else min common (s.fields[f].railMv.toNat + 50) := by
  simp [State.fieldSetting, h]

/-- At a limit a field goes below the common setting, not faster than its rail may move. -/
theorem State.fieldSetting_hot (s : State) {f : FieldId} (h : s.fieldHot f = true) (free : W64) (common : Nat) :
    650 ≤ s.fieldSetting f free common ∧ s.fields[f].railMv.toNat ≤ s.fieldSetting f free common + 50 ∧
      s.fieldSetting f free common ≤ max 650 (max (s.fields[f].railMv.toNat - 50) (common - 5)) := by
  have e : ∃ top, s.fieldSetting f free common =
      govSetting free (max 650 (s.fields[f].railMv.toNat - 50)) (max 650 (min top (common - 5))) := by
    simp only [State.fieldSetting, h, if_true]
    exact ⟨_, rfl⟩
  obtain ⟨top, e⟩ := e
  have hge := govSetting_ge free (max 650 (s.fields[f].railMv.toNat - 50)) (max 650 (min top (common - 5)))
  have hle := govSetting_le free (max 650 (s.fields[f].railMv.toNat - 50)) (max 650 (min top (common - 5)))
  rw [e]
  omega

/-- Every setting fits the 16 bits of a field's rail_mv. -/
theorem State.fieldSetting_lt (s : State) (f : FieldId) (free : W64) {common : Nat} (h : common ≤ 800) :
    s.fieldSetting f free common < 65536 := by
  have hcur := s.fields[f].railMv.isLt
  cases hhot : s.fieldHot f with
  | false =>
    rw [s.fieldSetting_cool hhot]
    split <;> omega
  | true =>
    have := (s.fieldSetting_hot hhot free common).2.2
    omega

/-- A field after a run that chose `free` for it; `s` is the state before the run, which has its cap and its readings. -/
def State.governed (s : State) (common : Nat) (f : FieldId) (free : W64) (x : Field) : Field :=
  let mv := s.fieldSetting f free common
  if x.retained || x.failed then x
  else { x with railMv := BitVec.ofNat 16 mv, limiter := s.limiterOf mv (s.fieldHot f) }

theorem State.governed_rests (s : State) (common : Nat) (f : FieldId) (free : W64) {x : Field}
    (h : x.retained = true ∨ x.failed = true) : s.governed common f free x = x :=
  if_pos (by simpa using h)

theorem State.governed_runs (s : State) (common : Nat) (f : FieldId) (free : W64) {x : Field} (hr : x.retained = false)
    (hf : x.failed = false) :
    s.governed common f free x =
      { x with
        railMv := BitVec.ofNat 16 (s.fieldSetting f free common)
        limiter := s.limiterOf (s.fieldSetting f free common) (s.fieldHot f) } :=
  if_neg (by rw [hr, hf]; decide)

/-- What a run makes of a field that has a supply and does not rest. -/
theorem State.governed_field (s : State) {common : Nat} (hc : common ≤ 800) (f : FieldId) (free : W64)
    (hr : s.fields[f].retained = false) (hf : s.fields[f].failed = false) :
    let x := s.fields[f]
    let y := s.governed common f free x
    (s.fieldHot f = false →
      y.railMv.toNat = if x.railMv.toNat < 650 then common else min common (x.railMv.toNat + 50)) ∧
    (s.fieldHot f = true → x.railMv.toNat ≤ 800 → 650 ≤ y.railMv.toNat ∧ x.railMv.toNat ≤ y.railMv.toNat + 50 ∧
      y.railMv.toNat ≤ max 650 (max (x.railMv.toNat - 50) (common - 5))) ∧
    (y.limiter = 0 ↔ 800 ≤ y.railMv.toNat) ∧
    (y.railMv.toNat < 800 → (y.limiter = 4 ↔ s.fieldHot f = true)) ∧
    { y with railMv := x.railMv, limiter := x.limiter } = x := by
  have hmv : (BitVec.ofNat 16 (s.fieldSetting f free common)).toNat = s.fieldSetting f free common :=
    BitVec.toNat_ofNat .. |>.trans (Nat.mod_eq_of_lt (s.fieldSetting_lt f free hc))
  dsimp only
  rw [s.governed_runs common f free hr hf]
  dsimp only
  rw [hmv]
  exact ⟨fun h => s.fieldSetting_cool h free common, fun h _ => s.fieldSetting_hot h free common,
    s.limiterOf_eq_zero _ _, fun h => (s.limiterOf_low h _).2, rfl⟩

/-! ### A run over every field -/

section Bank

variable {α : Type} {n : Nat} (bank : State → Vector α n) (round : State → Fin n → State)
  (hother : ∀ st i j, i ≠ j → (bank (round st i))[j] = (bank st)[j])

include hother

/-- Rounds that each change one entry of a bank keep those that none of them is for. -/
theorem State.over_bank_other (l : List (Fin n)) (j : Fin n) (hj : j ∉ l) (st : State) :
    (bank (st.over l round))[j] = (bank st)[j] := by
  induction l generalizing st with
  | nil => rfl
  | cons i l ih =>
    rw [List.mem_cons, not_or] at hj
    rw [State.over_cons, ih hj.2, hother st i j (Ne.symm hj.1)]

/-- Of an entry that a round is for, the rounds make what its own round makes of it. -/
theorem State.over_bank_self {Q : Fin n → α → α → Prop} (hself : ∀ st i, Q i (bank st)[i] (bank (round st i))[i])
    (l : List (Fin n)) (hl : l.Nodup) (j : Fin n) (hj : j ∈ l) (st : State) : Q j (bank st)[j] (bank (st.over l round))[j] := by
  induction l generalizing st with
  | nil => exact absurd hj List.not_mem_nil
  | cons i l ih =>
    obtain ⟨hi, hl⟩ := List.nodup_cons.mp hl
    rw [State.over_cons]
    by_cases e : i = j
    · subst e
      rw [State.over_bank_other bank round hother l i hi]
      exact hself st i
    · have h := ih hl ((List.mem_cons.mp hj).resolve_left (Ne.symm e)) (round st i)
      rwa [hother st i j e] at h

end Bank

/-- The state as a run finds it: input power, limits and time of the run noted. -/
def State.governStart (s : State) (w : W16) : State :=
  { s with power := { s.power with
      inputW := w, govAt := s.timeNs
      atLimit := BitVec.ofNat 4 (maskOf (((allFin 4).filter fun f => s.fieldHot f).map (·.val))) } }

/-- The common setting that a run chooses. -/
def State.governCommon (s : State) (w : W16) : Nat :=
  (s.governStart w).commonSetting (Config.free64 s.freeCount) ((s.governStart w).power.atLimit != 0)

theorem State.governCommon_moves (s : State) (w : W16) (hlo : 650 ≤ s.power.commonMv) (hhi : s.power.commonMv ≤ 800) :
    let c := s.governCommon w
    650 ≤ c ∧ c ≤ 800 ∧ c ≤ s.power.commonMv + 50 ∧ s.power.commonMv ≤ c + 50 ∧
      (s.power.commonMv % 5 = 0 → c % 5 = 0) ∧ (s.capInForce < w.toNat → c < s.power.commonMv ∨ c = 650) ∧
      (s.capInForce = w.toNat → c ≤ s.power.commonMv) :=
  (s.governStart w).commonSetting_moves _ _ hlo hhi

/-- The round of one field. -/
def State.governRound (s : State) (common : Nat) (st : State) (f : FieldId) : State :=
  st.fresh.2.updField f (s.governed common f st.fresh.1)

theorem State.govern_eq (s : State) (w : W16) :
    s.govern w =
      ({ s.governStart w with
        freeCount := s.freeCount + 1
        power := { (s.governStart w).power with commonMv := s.governCommon w } } : State).over (allFin 4)
          (s.governRound (s.governCommon w)) := rfl

theorem State.govern_frame (s : State) (w : W16) :
    { s.govern w with power := s.power, fields := s.fields, freeCount := s.freeCount } = s := by
  rw [s.govern_eq]
  exact State.over_keeps (fun st => { st with power := s.power, fields := s.fields, freeCount := s.freeCount }) (allFin 4)
    (s.governRound (s.governCommon w)) (fun _ _ => rfl) _

theorem State.govern_power (s : State) (w : W16) :
    (s.govern w).power = { (s.governStart w).power with commonMv := s.governCommon w } := by
  rw [s.govern_eq]
  exact State.over_keeps State.power (allFin 4) (s.governRound (s.governCommon w)) (fun _ _ => rfl) _

theorem State.govern_field (s : State) (w : W16) (f : FieldId) :
    ∃ free, (s.govern w).fields[f] = s.governed (s.governCommon w) f free s.fields[f] := by
  rw [s.govern_eq]
  refine State.over_bank_self State.fields (s.governRound (s.governCommon w)) ?_
    (Q := fun f x y => ∃ free, y = s.governed (s.governCommon w) f free x) ?_ (allFin 4) (List.nodup_finRange 4) f
    (List.mem_finRange f) _
  · exact fun st i j h => updAt_other _ _ _ _ _ (Fin.val_ne_of_ne h)
  · exact fun st i => ⟨st.fresh.1, updAt_self _ _ _⟩

/-! ### The commands -/

theorem exec_governorRun {s : State} {at_ : Nat} (w : W16) (hen : (s.advanceTo at_).power.pwrEn = true)
    (hh : (s.advanceTo at_).ctl.halted = false)
    (ht : (s.advanceTo at_).power.govAt + 10000 ≤ (s.advanceTo at_).timeNs) :
    exec (.governorRun w at_) s = .next ((s.advanceTo at_).govern w) :=
  congrArg Host.Outcome.next (if_pos (by simp [hen, hh, ht]))

theorem exec_governorRun_early {s : State} {at_ : Nat} (w : W16)
    (ht : (s.advanceTo at_).timeNs < (s.advanceTo at_).power.govAt + 10000) :
    exec (.governorRun w at_) s = .next (s.advanceTo at_) :=
  congrArg Host.Outcome.next (if_neg (by simp [Nat.not_le.mpr ht]))

theorem exec_fieldStatusUpdate {s : State} (f : FieldId) (c : Byte) (r : W16) (hen : s.power.pwrEn = true) :
    exec (.fieldStatusUpdate f c r) s =
      .next ((s.sense (.die f) c).updField f fun x =>
        if x.retained || x.railMv == 0 then { x with rateMbeat := 0 }
        else { x with rateMbeat := r, beats := x.beats + BitVec.ofNat 64 (10 * r.toNat) }) :=
  congrArg Host.Outcome.next (if_pos hen)

/-- A reading of a die and its beats are one change of the field. -/
theorem State.fieldStatus_fields (s : State) (f : FieldId) (c : Byte) (r : W16) :
    ((s.sense (.die f) c).updField f fun x =>
        if x.retained || x.railMv == 0 then { x with rateMbeat := 0 }
        else { x with rateMbeat := r, beats := x.beats + BitVec.ofNat 64 (10 * r.toNat) }).fields =
      updAt s.fields f (fun x =>
        let off := x.retained || x.railMv == 0
        { x with
          junctionC := c, rateMbeat := if off then 0 else r
          beats := if off then x.beats else x.beats + BitVec.ofNat 64 (10 * r.toNat) }) := by
  have hdie : (s.sense (.die f) c).fields = updAt s.fields f fun x => { x with junctionC := c } := rfl
  rw [State.updField_fields, hdie, updAt_twice]
  refine congrArg (updAt s.fields f) (funext fun x => ?_)
  dsimp only
  split <;> rfl

/-- A run from a setting within its range (R25, R36, R37). -/
theorem State.govern_run (s : State) (w : W16) (hlo : 650 ≤ s.power.commonMv) (hhi : s.power.commonMv ≤ 800) :
    let t := s.govern w
    t.power = { s.power with
      inputW := w, govAt := s.timeNs, commonMv := t.power.commonMv, atLimit := t.power.atLimit } ∧
    650 ≤ t.power.commonMv ∧ t.power.commonMv ≤ 800 ∧ t.power.commonMv ≤ s.power.commonMv + 50 ∧
    s.power.commonMv ≤ t.power.commonMv + 50 ∧ (s.power.commonMv % 5 = 0 → t.power.commonMv % 5 = 0) ∧
    (s.capInForce < w.toNat → t.power.commonMv < s.power.commonMv ∨ t.power.commonMv = 650) ∧
    (s.capInForce = w.toNat → t.power.commonMv ≤ s.power.commonMv) ∧
    ∀ f : FieldId, t.power.atLimit.getLsbD f.val = s.fieldHot f := by
  obtain ⟨hge, hle, hup, hdown, hstep, habove, hat⟩ := s.governCommon_moves w hlo hhi
  dsimp only
  rw [s.govern_power]
  exact ⟨rfl, hge, hle, hup, hdown, hstep, habove, hat, maskOf_filter_getLsbD s.fieldHot⟩

/-- Settles O9: a run is one common setting and a round per field, each a free choice within its range (R36, R37); a status
update and a readout are one `State.sense` (R25, R35, R257). -/
theorem governorAndMeasuredStatus : Obligations.GovernorAndMeasuredStatus := by
  refine ⟨fun s w at_ => ?_, fun s w at_ ht => exec_governorRun_early w ht, fun s f c r hen => ?_, fun s w c hw => ?_⟩
  · intro s1 hen hh ht hlo hhi
    obtain ⟨hpow, hge, hle, hup, hdown, hstep, habove, hat, hlim⟩ := s1.govern_run w hlo hhi
    refine ⟨_, exec_governorRun w hen hh ht, hpow, hge, hle, hup, hdown, hstep, habove, hat, hlim, fun f => ?_,
      s1.govern_frame w⟩
    obtain ⟨free, hf⟩ := s1.govern_field w f
    have hc : (s1.govern w).power.commonMv = s1.governCommon w := by rw [s1.govern_power]
    intro x
    rw [hc] at hle ⊢
    rw [hf]
    exact ⟨fun hr => s1.governed_rests _ f free hr, fun hr hx => s1.governed_field hle f free hr hx⟩
  · exact ⟨_, exec_fieldStatusUpdate f c r hen, s.sense_warns (.die f) c, s.fieldStatus_fields f c r, rfl⟩
  · exact ⟨_, congrArg Host.Outcome.next (if_pos hw), s.sense_warns (.well w) c, rfl, s.sense_frame (.well w) c⟩

end Sys2Proof.Machine

/-! SUPPORT. Every step answers a state, and time only goes on (02 R33): what the commands that `exec_onlyTime` leaves out do
to the queue and the time, and what an idle tick spends. -/

namespace Sys2Proof.Machine

/-! ### The queue of waiting commands and the time -/

/-- The queue of waiting commands and the time. -/
def State.clock (s : State) : List Instr × Nat := (s.pending, s.timeNs)

theorem State.clock_of_fixed {s t : State} (h : t.fixed = s.fixed) : t.clock = s.clock := by
  obtain ⟨-, hpend, htime, -⟩ := State.eqs_of_fixed h
  simp [State.clock, hpend, htime]

/-- The answer is a state with the queue and the time as they were. -/
def KeepsClock (s : State) (o : Out) : Prop := ∃ t, o = .next t ∧ t.clock = s.clock

theorem KeepsClock.next {s t : State} (h : t.clock = s.clock) : KeepsClock s (.next t) := ⟨t, rfl, h⟩

theorem KeepsClock.state {s : State} {o : Out} (h : KeepsClock s o) (t : State) :
    (Outcome.state o t).clock = s.clock := by
  obtain ⟨u, rfl, hu⟩ := h
  exact hu

/-! ### Loader commands (R60 to R62, R69, R70) -/

theorem State.loaderStart_clock {s : State} {f : State → State} (h : (f s).clock = s.clock) (cmd : LoaderCmd)
    (master : Byte) : (s.loaderStart cmd master f).clock = s.clock := by
  unfold State.loaderStart
  split
  · rfl
  split
  · exact h
  · rfl

theorem execLoaderBegin_clock (src : LoaderPort) (master : Byte) (data : List Byte) (s : State) :
    KeepsClock s (execLoaderBegin src master data s) := by
  have go : (execLoaderBegin.go src data s).clock = s.clock := by
    unfold execLoaderBegin.go
    dsimp only
    split <;> rfl
  refine .next (s.loaderStart_clock ?_ _ _)
  split
  · split
    · exact go
    · rfl
  · exact go

theorem execLoaderData_clock (src : LoaderPort) (master : Byte) (data : List Byte) (s : State) :
    KeepsClock s (execLoaderData src master data s) := by
  refine .next (s.loaderStart_clock ?_ _ _)
  dsimp only
  (repeat' split) <;> rfl

theorem execLoaderEnd_clock (src : LoaderPort) (master : Byte) (s : State) :
    KeepsClock s (execLoaderEnd src master s) := by
  refine .next (s.loaderStart_clock ?_ _ _)
  dsimp only
  (repeat' split) <;> rfl

theorem execSvnCommit_clock (src : LoaderPort) (master : Byte) (s : State) :
    KeepsClock s (execSvnCommit src master s) := by
  refine .next (s.loaderStart_clock ?_ _ _)
  dsimp only
  split <;> rfl

theorem execEnroll_clock (src : LoaderPort) (master : Byte) (data : List Byte) (s : State) :
    KeepsClock s (execEnroll src master data s) := by
  refine .next ?_
  split
  · rfl
  refine (State.clock_of_fixed (State.freshNonce_fixed _)).trans (s.loaderStart_clock ?_ _ _)
  dsimp only
  (repeat' split) <;> rfl

theorem execRevoke_clock (src : LoaderPort) (master : Byte) (data : List Byte) (s : State) :
    KeepsClock s (execRevoke src master data s) := by
  refine .next ?_
  split
  · rfl
  refine (State.clock_of_fixed (State.freshNonce_fixed _)).trans (s.loaderStart_clock ?_ _ _)
  dsimp only
  (repeat' split) <;> rfl

theorem execLoaderAbort_clock (src : LoaderPort) (master : Byte) (s : State) :
    KeepsClock s (execLoaderAbort src master s) :=
  .next (s.loaderStart_clock (by split <;> rfl) _ _)

/-! ### Loader commands in a message and in a register (R70, R127) -/

theorem State.loaderMessage_clock (s : State) (m : MctpMsg) : (s.loaderMessage m).clock = s.clock := by
  unfold State.loaderMessage
  split
  · exact (execLoaderBegin_clock ..).state s
  · exact (execLoaderData_clock ..).state s
  · exact (execLoaderEnd_clock ..).state s
  · exact (execLoaderAbort_clock ..).state s
  · exact (execSvnCommit_clock ..).state s
  · exact (execEnroll_clock ..).state s
  · exact (execRevoke_clock ..).state s
  · rfl

theorem State.loaderCtrl_clock (s : State) (v : W64) (master : Byte) : (s.loaderCtrl v master).clock = s.clock := by
  unfold State.loaderCtrl
  extract_lets _ s1
  have h : s1.clock = s.clock := rfl
  split
  · exact h
  refine .trans ?_ h
  split
  · exact (execLoaderBegin_clock ..).state s1
  · exact (execLoaderData_clock ..).state s1
  · exact (execLoaderEnd_clock ..).state s1
  · exact (execLoaderAbort_clock ..).state s1
  · exact (execSvnCommit_clock ..).state s1
  · exact (execEnroll_clock ..).state s1
  · exact (execRevoke_clock ..).state s1
  · rfl

theorem execMctpLoader_clock (m : MctpMsg) (s : State) : KeepsClock s (execMctpLoader m s) := by
  have reply (t : State) (o : OutcomeCode) (d : List Byte) : (t.mctpReply m o d).clock = t.clock :=
    State.clock_of_fixed (t.mctpReply_fixed m o d)
  have gen : (s.raiseGen 0x03 m.head.gen).clock = s.clock := State.clock_of_fixed (by simp)
  have run := (State.loaderMessage_clock _ m).trans gen
  refine .next ?_
  unfold State.mctp
  split
  · rfl
  split
  · dsimp only
    split
    · exact State.clock_of_fixed (by simp)
    split
    · exact (reply ..).trans gen
    split <;> exact (reply ..).trans run
  · exact reply ..

/-! ### Control writes and the end of their epoch (R102, R103) -/

theorem State.applyWrite_clock (s : State) (w : CtlWrite) (n : Nat) : (s.applyWrite w n).clock = s.clock := by
  unfold State.applyWrite
  split
  · exact State.clock_of_fixed (by simp)
  by_cases h : blockOf w.offset = .stw 0x380
  · rw [s.writeReg_loaderCtrl h]
    exact s.loaderCtrl_clock ..
  · exact State.clock_of_fixed (s.writeReg_fixed h n)

theorem State.applyPending_clock (s : State) (w : PendingWrite) : (s.applyPending w).clock = s.clock := by
  unfold State.applyPending
  split
  · exact State.clock_of_fixed (by split <;> simp)
  · exact (State.clock_of_fixed (by simp)).trans (s.applyWrite_clock w.w w.epoch)

theorem State.applyEpoch_clock (s : State) (ws : List PendingWrite) : (s.applyEpoch ws).clock = s.clock := by
  have ends (s : State) : (s.over (allFin 16) fun s p => s.stopEnd p).clock = s.clock := State.clock_of_fixed (by simp)
  have writes (l : List PendingWrite) (s : State) : (s.over l fun s w => s.applyPending w).clock = s.clock :=
    State.over_keeps State.clock l _ State.applyPending_clock s
  unfold State.applyEpoch
  exact (writes _ _).trans <| (writes _ _).trans <| (ends _).trans <| (writes _ _).trans <| (writes _ _).trans (ends s)

theorem State.endEpoch_clock (s : State) (n : Nat) : (s.endEpoch n).clock = s.clock := by
  unfold State.endEpoch
  exact (State.applyEpoch_clock _ _).trans (State.clock_of_fixed (by simp))

theorem execControlEpochEnd_clock (n : Nat) (s : State) :
    ∃ t, execControlEpochEnd n s = .next t ∧ t.clock = (s.advanceTo ((n + 1) * 1000)).clock :=
  ⟨_, rfl, (State.clock_of_fixed (State.closeFlags_fixed _)).trans
    (State.over_keeps State.clock _ _ State.endEpoch_clock _)⟩

/-! ### Time that passes (R33) -/

/-- What one partition spends while `dt` passes: running time, and residency at the depth it has in `s0`. -/
def State.spend (s0 : State) (dt : Nat) (st : State) (p : PartId) : State :=
  let st1 := st.iff (st.parts[p].state == .running) (·.meter p mRunning dt)
  st1.updPart p fun x =>
    { x with lull := { x.lull with residency := updAt x.lull.residency (finMod 4 (by decide) (s0.effectiveDepth p)) (· + dt) } }

/-- Time passes only forward, and while the always-on domain runs. -/
theorem State.advanceTo_cases (s : State) (n : Nat) :
    ((s.power.alwaysOn = true → n ≤ s.timeNs) ∧ s.advanceTo n = s) ∨
      (s.power.alwaysOn = true ∧ s.timeNs < n ∧ s.advanceTo n =
        let s1 := s.over (allFin 16) (s.spend (n - s.timeNs))
        { s1 with timeNs := n, almanac := { s1.almanac with opNs := s1.almanac.opNs + (n - s.timeNs) } }) := by
  by_cases h : s.power.alwaysOn = true ∧ s.timeNs < n
  · refine .inr ⟨h.1, h.2, ?_⟩
    unfold State.advanceTo
    rw [if_pos (by simp [h])]
    unfold State.spend
    with_reducible rfl
  · exact .inl ⟨by simpa using h, if_neg (by simpa using h)⟩

theorem State.spend_part (s0 st : State) (dt : Nat) (p q : PartId) (m : PMeter) (l : PLull) :
    { (s0.spend dt st p).parts[q] with meter := m, lull := l } = { st.parts[q] with meter := m, lull := l } := by
  unfold State.spend
  refine (updAt_keeps (fun x : Partition => { x with meter := m, lull := l }) _ p q ?_).trans ?_
  · intro _
    rfl
  unfold State.iff
  split
  · exact congrArg (fun x : Partition => { x with meter := m, lull := l }) (st.meter_part p q mRunning dt)
  · rfl

theorem State.spend_frame (s0 st : State) (dt : Nat) (p : PartId) : { s0.spend dt st p with parts := st.parts } = st := by
  unfold State.spend State.iff
  split <;> rfl

theorem State.spendAll_frame (s : State) (dt : Nat) :
    { s.over (allFin 16) (s.spend dt) with parts := s.parts } = s :=
  State.over_keeps (fun st => { st with parts := s.parts }) (allFin 16) (s.spend dt)
    (fun st p => congrArg (fun x : State => { x with parts := s.parts }) (s.spend_frame st dt p)) s

/-- Of a partition, time changes what its meter and its lull count. -/
theorem State.advanceTo_part (s : State) (n : Nat) (p : PartId) :
    { (s.advanceTo n).parts[p] with meter := s.parts[p].meter, lull := s.parts[p].lull } = s.parts[p] := by
  obtain ⟨-, e⟩ | ⟨-, -, e⟩ := s.advanceTo_cases n <;> rw [e]
  exact State.over_keeps (fun st => { st.parts[p] with meter := s.parts[p].meter, lull := s.parts[p].lull })
    (allFin 16) (s.spend (n - s.timeNs)) (fun st q => s.spend_part st _ q p _ _) s

theorem State.advanceTo_almanac (s : State) (n : Nat) :
    { (s.advanceTo n).almanac with opNs := s.almanac.opNs } = s.almanac := by
  obtain ⟨-, e⟩ | ⟨-, -, e⟩ := s.advanceTo_cases n <;> rw [e]
  have h := s.spendAll_frame (n - s.timeNs)
  generalize s.over (allFin 16) (s.spend (n - s.timeNs)) = u at h ⊢
  exact congrArg (fun st : State => { st.almanac with opNs := s.almanac.opNs }) h

theorem State.advanceTo_frame (s : State) (n : Nat) :
    { s.advanceTo n with timeNs := s.timeNs, parts := s.parts, almanac := s.almanac } = s := by
  obtain ⟨-, e⟩ | ⟨-, -, e⟩ := s.advanceTo_cases n <;> rw [e]
  have h := s.spendAll_frame (n - s.timeNs)
  generalize s.over (allFin 16) (s.spend (n - s.timeNs)) = u at h ⊢
  exact congrArg (fun st : State => { st with timeNs := s.timeNs, almanac := s.almanac }) h

theorem State.advanceTo_pending (s : State) (n : Nat) : (s.advanceTo n).pending = s.pending := by
  have e := congrArg State.pending (s.advanceTo_frame n)
  exact e

theorem State.advanceTo_timeNs (s : State) (n : Nat) :
    (s.advanceTo n).timeNs = if s.power.alwaysOn then max s.timeNs n else s.timeNs := by
  obtain ⟨h, e⟩ | ⟨hon, hn, e⟩ := s.advanceTo_cases n <;> rw [e]
  · split
    next hon => exact (max_eq_left (h hon)).symm
    next => rfl
  · rw [if_pos hon]
    exact (max_eq_right hn.le).symm

theorem State.le_advanceTo (s : State) (n : Nat) : s.timeNs ≤ (s.advanceTo n).timeNs := by
  rw [s.advanceTo_timeNs]
  split
  · exact le_max_left ..
  · exact le_rfl

/-! ### Every step -/

/-- The answer is a state with the queue as it was, at a time not before. -/
def GoesOn (s : State) (o : Out) : Prop := ∃ t, o = .next t ∧ t.pending = s.pending ∧ s.timeNs ≤ t.timeNs

theorem GoesOn.of_advanceTo {s t : State} {o : Out} {n : Nat} (ho : o = .next t) (h : t.clock = (s.advanceTo n).clock) :
    GoesOn s o := by
  obtain ⟨hpend, htime⟩ := Prod.mk.inj h
  exact ⟨t, ho, hpend.trans (s.advanceTo_pending n), (s.le_advanceTo n).trans_eq htime.symm⟩

theorem KeepsClock.goesOn {s : State} {o : Out} (h : KeepsClock s o) : GoesOn s o := by
  obtain ⟨t, ho, ht⟩ := h
  exact .of_advanceTo (n := 0) ho (by rwa [s.advanceTo_zero])

theorem OnlyTime.goesOn {s : State} {o : Out} (h : OnlyTime s o) : GoesOn s o := by
  obtain ⟨t, n, ho, ht⟩ := h
  exact .of_advanceTo ho (State.clock_of_fixed ht)

/-- Every command but P54V_WITHIN_RANGE, which starts the time anew. -/
theorem exec_goesOn {c : Instr} (hc : c ≠ .p54vWithinRange) (s : State) : GoesOn s (exec c s) := by
  cases h : c.setsFixed with
  | false => exact (exec_onlyTime h s).goesOn
  | true =>
    cases c with
    | p54vWithinRange => exact absurd rfl hc
    | loaderBegin => exact (execLoaderBegin_clock ..).goesOn
    | loaderData => exact (execLoaderData_clock ..).goesOn
    | loaderEnd => exact (execLoaderEnd_clock ..).goesOn
    | svnCommit src master => exact (execSvnCommit_clock src master s).goesOn
    | enroll => exact (execEnroll_clock ..).goesOn
    | revoke => exact (execRevoke_clock ..).goesOn
    | mctpLoader => exact (execMctpLoader_clock ..).goesOn
    | controlEpochEnd n =>
      obtain ⟨t, ho, ht⟩ := execControlEpochEnd_clock n s
      exact .of_advanceTo ho ht
    | _ => cases h

theorem exec_p54vWithinRange_pending (s : State) :
    ∃ t, exec .p54vWithinRange s = .next t ∧ t.pending = s.pending :=
  ⟨_, rfl, by split <;> rfl⟩

/-- Settles O3: by `exec_onlyTime` for nearly every command; the loader commands and the end of a control epoch leave the queue,
and the time but for the epoch's end; an idle tick is `State.advanceTo` (R33, log 1). -/
theorem everyStepAnswersAndTimeGoesOn : Obligations.EveryStepAnswersAndTimeGoesOn := by
  intro s
  unfold step
  split
  next h =>
    refine ⟨s.idle, rfl, ?_, fun _ => s.le_advanceTo _,
      fun _ => ⟨?_, s.advanceTo_part _, s.advanceTo_almanac _, s.advanceTo_frame _⟩⟩
    · exact (s.advanceTo_pending _).trans (by rw [h]; rfl)
    · refine (s.advanceTo_timeNs _).trans ?_
      rw [max_eq_right (Nat.le_add_right ..)]
  next c rest h =>
    rw [h]
    by_cases hc : c = .p54vWithinRange
    · subst hc
      obtain ⟨t, ht, hpend⟩ := exec_p54vWithinRange_pending { s with pending := rest }
      exact ⟨t, ht, hpend, fun hne => absurd rfl hne, nofun⟩
    · obtain ⟨t, ht, hpend, htime⟩ := exec_goesOn hc { s with pending := rest }
      exact ⟨t, ht, hpend, fun _ => htime, nofun⟩

end Sys2Proof.Machine

/-! SUPPORT. Waking, Lull-3 and the ports (02 R46, R47; 12 R301): what a wake changes of partitions, what a port that sends or
parks keeps. -/

namespace Sys2Proof.Machine

/-! ### Waking (R46, R47) -/

/-- Parts of State that no wake changes. -/
def State.steady (s : State) : Vector Port 6 × Vector Core 192 × List Xfer × Memory × List Instr × Nat :=
  (s.ports, s.cores, s.xfers, s.host, s.pending, s.timeNs)

theorem State.unretain_steady (s : State) (f : FieldId) : (s.unretain f).steady = s.steady := by
  unfold State.unretain
  split <;> rfl

theorem State.unretain_parts (s : State) (f : FieldId) : (s.unretain f).parts = s.parts := by
  unfold State.unretain
  split <;> rfl

theorem State.unretain_inLull3 (s : State) (f : FieldId) : (s.unretain f).inLull3 = s.inLull3 := by
  unfold State.unretain
  split <;> rfl

/-- Of what the rounds of a wake keep, a wake keeps all but Lull-3 and the depth its partition has reached. -/
theorem State.wakeTo_keeps {β : Type} (g : State → β) (hwell : ∀ s w, g (s.unrest (.well w)) = g s)
    (hpump : ∀ s u, g (s.wakePump u) = g s) (hfield : ∀ s f, g (s.unretain f) = g s) (s : State) (p : PartId) (d : Nat) :
    ∃ t, s.wakeTo p d = t.updPart p (fun x => { x with lull := { x.lull with reached := min d x.lull.reached } }) ∧
      g t = g (if d < 3 then { s with inLull3 := false } else s) := by
  refine ⟨_, rfl, ?_⟩
  have hmems (i : PartImage) (s : State) :
      g ((s.over i.wells fun s w => s.unrest (.well w)).over (allFin 4) fun s u =>
        if i.cisZ[u] != 0 || i.groupCount[u] != 0 then s.wakePump u else s) = g s := by
    refine (State.over_keeps g _ _ (fun s u => ?_) _).trans (State.over_keeps g _ _ hwell s)
    split
    · exact hpump s u
    · rfl
  have hfields (s1 : State) :
      g (s1.over (allFin 4) fun s f => if s.parts[p].claims? && s.usesField p f then s.unretain f else s) = g s1 := by
    refine State.over_keeps g _ _ (fun s f => ?_) s1
    split
    · exact hfield s f
    · rfl
  by_cases h1 : d < 1
  · rw [if_pos h1, hfields, if_pos (by omega), hmems]
  rw [if_neg h1]
  split
  · exact hmems _ _
  · rfl

theorem State.wakeTo_steady (s : State) (p : PartId) (d : Nat) : (s.wakeTo p d).steady = s.steady := by
  obtain ⟨t, e, h⟩ := s.wakeTo_keeps State.steady (fun _ _ => rfl) (fun _ _ => rfl) State.unretain_steady p d
  rw [e]
  refine Eq.trans h ?_
  split <;> rfl

theorem State.wakeTo_inLull3 (s : State) (p : PartId) (d : Nat) :
    (s.wakeTo p d).inLull3 = (s.inLull3 && decide (3 ≤ d)) := by
  obtain ⟨t, e, h⟩ := s.wakeTo_keeps State.inLull3 (fun _ _ => rfl) (fun _ _ => rfl) State.unretain_inLull3 p d
  rw [e]
  refine Eq.trans h ?_
  split
  next hd => simp [Nat.not_le.mpr hd]
  next hd => simp [Nat.not_lt.mp hd]

theorem State.wakeTo_parts (s : State) (p : PartId) (d : Nat) :
    (s.wakeTo p d).parts =
      updAt s.parts p fun x => { x with lull := { x.lull with reached := min d x.lull.reached } } := by
  obtain ⟨t, e, h⟩ := s.wakeTo_keeps State.parts (fun _ _ => rfl) (fun _ _ => rfl) State.unretain_parts p d
  rw [e, State.updPart_parts, h]
  split <;> rfl

theorem State.touch_steady (s : State) (p : PartId) : (s.touch p).steady = s.steady := rfl

theorem State.wake_steady (s : State) (p : PartId) : (s.wake p).steady = s.steady :=
  (State.touch_steady _ p).trans (s.wakeTo_steady p 0)

theorem State.wake_inLull3 (s : State) (p : PartId) : (s.wake p).inLull3 = false :=
  (State.touch_inLull3 _ p).trans ((s.wakeTo_inLull3 p 0).trans (Bool.and_false _))

/-- What `State.steady` holds, taken apart. -/
theorem State.eqs_of_steady {s t : State} (h : t.steady = s.steady) :
    t.ports = s.ports ∧ t.cores = s.cores ∧ t.xfers = s.xfers ∧ t.host = s.host ∧ t.pending = s.pending ∧
      t.timeNs = s.timeNs := by
  unfold State.steady at h
  simpa only [Prod.mk.injEq] using h

/-- The lull of a partition after a wake. -/
def PLull.woken (x : PLull) (now : Nat) : PLull := { x with reached := 0, idleSince := now }

theorem State.wake_parts (s : State) (p : PartId) :
    (s.wake p).parts = updAt s.parts p fun x => { x with lull := x.lull.woken s.timeNs } := by
  obtain ⟨-, -, -, -, -, htime⟩ := State.eqs_of_steady (s.wakeTo_steady p 0)
  unfold State.wake State.touch
  rw [State.updPart_parts, s.wakeTo_parts, updAt_twice, htime]
  refine congrArg (updAt s.parts p) (funext fun x => ?_)
  rw [Nat.zero_min]
  rfl

/-! ### The whole device woken (R46) -/

theorem State.wakeAll_steady (s : State) : s.wakeAll.steady = s.steady :=
  State.over_keeps State.steady s.committedParts State.wake State.wake_steady { s with inLull3 := false }

theorem State.wakeAll_inLull3 (s : State) : s.wakeAll.inLull3 = false := by
  have h (l : List PartId) (st : State) (hst : st.inLull3 = false) : (st.over l State.wake).inLull3 = false := by
    induction l generalizing st with
    | nil => exact hst
    | cons p l ih =>
      rw [State.over_cons]
      exact ih (st.wake p) (st.wake_inLull3 p)
  exact h s.committedParts _ rfl

theorem State.mem_committedParts (s : State) (p : PartId) : p ∈ s.committedParts ↔ s.parts[p].claims? = true := by
  simp [State.committedParts, allFin]

/-- The bank of lulls, each with the present time, which no wake changes. -/
def State.lulls (s : State) : Vector (PLull × Nat) 16 := s.parts.map fun x => (x.lull, s.timeNs)

theorem State.lulls_get (s : State) (p : PartId) : s.lulls[p] = (s.parts[p].lull, s.timeNs) := by
  simp [State.lulls]

theorem State.wake_lulls (s : State) (p q : PartId) :
    (s.wake p).lulls[q] = (if p = q then s.parts[q].lull.woken s.timeNs else s.parts[q].lull, s.timeNs) := by
  obtain ⟨-, -, -, -, -, htime⟩ := State.eqs_of_steady (s.wake_steady p)
  rw [State.lulls_get, htime, s.wake_parts, Fin.getElem_fin, updAt_get]
  split <;> simp [Fin.ext_iff, *]

theorem State.wakeAll_lull (s : State) (p : PartId) (h : s.parts[p].claims? = true) :
    s.wakeAll.parts[p].lull = s.parts[p].lull.woken s.timeNs := by
  have hother (st : State) (q r : PartId) (hne : q ≠ r) : (st.wake q).lulls[r] = st.lulls[r] := by
    rw [st.wake_lulls, if_neg hne, st.lulls_get]
  have hself (st : State) (q : PartId) : (st.wake q).lulls[q].1 = st.lulls[q].1.woken st.lulls[q].2 := by
    rw [st.wake_lulls, if_pos rfl, st.lulls_get]
  have hall := State.over_bank_self State.lulls State.wake hother (Q := fun _ x y => y.1 = x.1.woken x.2) hself
    s.committedParts ((List.nodup_finRange 16).filter _) p ((s.mem_committedParts p).mpr h) { s with inLull3 := false }
  rw [State.lulls_get, State.lulls_get] at hall
  exact hall

/-! ### A port that sends (R295, R301) -/

/-- Nothing but port `n` differs, and the time of the last TC1 or TC2 packet. -/
def OnlyPort (n : PortId) (s t : State) : Prop :=
  (∀ m, m ≠ n → t.ports[m] = s.ports[m]) ∧ { t with ports := s.ports, tc12At := s.tc12At } = s

theorem OnlyPort.refl (n : PortId) (s : State) : OnlyPort n s s := ⟨fun _ _ => rfl, rfl⟩

theorem OnlyPort.trans {n : PortId} {s t u : State} (h : OnlyPort n s t) (g : OnlyPort n t u) : OnlyPort n s u := by
  refine ⟨fun m hm => (g.1 m hm).trans (h.1 m hm), ?_⟩
  have e := congrArg (fun x : State => { x with ports := s.ports, tc12At := s.tc12At }) g.2
  exact e.trans h.2

/-- Of the rest of the state, what PORT_UNPARK speaks of. -/
theorem OnlyPort.rest {n : PortId} {s t : State} (h : OnlyPort n s t) :
    t.inLull3 = s.inLull3 ∧ t.parts = s.parts ∧ t.cores = s.cores ∧ t.xfers = s.xfers ∧ t.host = s.host ∧
      t.pending = s.pending := by
  obtain ⟨-, h⟩ := h
  exact ⟨(congrArg State.inLull3 h :), (congrArg State.parts h :), (congrArg State.cores h :), (congrArg State.xfers h :),
    (congrArg State.host h :), (congrArg State.pending h :)⟩

theorem State.updPort_onlyPort (s : State) (n : PortId) (f : Port → Port) : OnlyPort n s (s.updPort n f) :=
  ⟨fun m hm => updAt_other s.ports n m m.isLt f fun e => hm (Fin.ext e.symm), rfl⟩

/-- What sending leaves of a port. -/
def Port.line (x : Port) : PortState × Bool × Bool × BitVec 16 × Bool :=
  (x.state, x.parked, x.nbrParked, x.laneMask, x.wakeReq)

/-- Port `n` has sent of what it holds, and is else as it was. -/
def Sends (n : PortId) (s t : State) : Prop := OnlyPort n s t ∧ t.ports[n].line = s.ports[n].line

theorem Sends.refl (n : PortId) (s : State) : Sends n s s := ⟨.refl n s, rfl⟩

theorem Sends.trans {n : PortId} {s t u : State} (h : Sends n s t) (g : Sends n t u) : Sends n s u :=
  ⟨h.1.trans g.1, g.2.trans h.2⟩

theorem State.updPort_sends (s : State) (n : PortId) {f : Port → Port} (h : ∀ x, (f x).line = x.line) :
    Sends n s (s.updPort n f) := ⟨s.updPort_onlyPort n f, updAt_keeps Port.line s.ports n n h⟩

theorem State.noteTc12_sends (s : State) (n : PortId) (k : Packet) : Sends n s (s.noteTc12 k) := by
  unfold State.noteTc12
  split
  · exact ⟨⟨fun _ _ => rfl, rfl⟩, rfl⟩
  · exact .refl n s

theorem State.slots_sends (s : State) (n : PortId) (k : Nat) : Sends n s (s.slots n k) := by
  induction k generalizing s with
  | zero => exact .refl n s
  | succ k ih =>
    unfold State.slots
    split
    · exact .refl n s
    next e _ =>
      have hsent : Sends n s (s.sendFlits n e 1) :=
        (s.noteTc12_sends n e.pkt).trans (State.updPort_sends _ n (by intro _; rfl))
      exact (hsent.trans (State.updPort_sends _ n (by intro _; rfl))).trans (ih _)

/-! ### PORT_UNPARK (R301) -/

/-- Port `n` out of its park, with what it holds sent. -/
def State.unpark (s : State) (n : PortId) : State :=
  ((s.refill n).updPort n fun x => { x with parked := false, wakeReq := false }).flushPort n

theorem exec_portUnpark {s : State} {n : PortId} (hp : s.ports[n].parked = true)
    (h : s.inLull3 = false ∨ s.ports[n].wants = true) :
    exec (.portUnpark n) s = .next ((if s.ports[n].wants then s.wakeAll else s).unpark n) :=
  congrArg Host.Outcome.next (if_pos (by rcases h with h | h <;> simp [hp, h, -Fin.getElem_fin]))

theorem State.unpark_onlyPort (s : State) (n : PortId) : OnlyPort n s (s.unpark n) :=
  ((State.updPort_onlyPort ..).trans (State.updPort_onlyPort ..)).trans (State.slots_sends ..).1

theorem State.unpark_line (s : State) (n : PortId) :
    (s.unpark n).ports[n].line =
      (s.ports[n].state, false, s.ports[n].nbrParked, s.ports[n].laneMask, false) := by
  refine (State.slots_sends _ n _).2.trans ?_
  simp [Port.line, State.refill]

/-- An unparked port runs at its lanes, unless the port it faces is parked. -/
theorem State.unpark_port (s : State) (n : PortId) :
    let x := (s.unpark n).ports[n]
    x.parked = false ∧ x.wakeReq = false ∧ x.laneMask = s.ports[n].laneMask ∧
      (s.ports[n].nbrParked = false → x.width = laneCount s.ports[n].laneMask) := by
  have h := s.unpark_line n
  unfold Port.line at h
  simp only [Prod.mk.injEq] at h
  obtain ⟨-, hparked, hnbr, hlanes, hreq⟩ := h
  refine ⟨hparked, hreq, hlanes, fun hn => ?_⟩
  rw [Port.width, hparked, hnbr, hn, hlanes]
  rfl

/-! ### LULL3_ENTRY (R46, R424) -/

/-- Is a port ADMITTED, and is it parked. -/
def Port.parking (x : Port) : PortState × Bool := (x.state, x.parked)

/-- Parking's effect on a port's `Port.parking`. -/
def parkingOf (x : PortState × Bool) : PortState × Bool := if x.1 = .admitted then (x.1, true) else x

theorem Port.parked_of_parking {x y : Port} (h : y.parking = parkingOf x.parking) :
    (x.state = .admitted → y.parked = true ∧ y.width = 1) ∧ (x.state ≠ .admitted → y.parked = x.parked) := by
  refine ⟨fun ha => ?_, fun ha => (congrArg Prod.snd (h.trans (if_neg ha)) :)⟩
  have hp : y.parked = true := (congrArg Prod.snd (h.trans (if_pos ha)) :)
  exact ⟨hp, by rw [Port.width, hp]; rfl⟩

/-- The bank of what parking is about. -/
def State.parkings (s : State) : Vector (PortState × Bool) 6 := s.ports.map Port.parking

theorem State.parkings_get (s : State) (n : PortId) : s.parkings[n] = s.ports[n].parking := by
  simp [State.parkings]

/-- A sounding that ends gives back the lane it scanned, and no more of a port. -/
theorem State.endPortSounding_parking (s : State) (n m : PortId) :
    (s.endPortSounding n).ports[m].parking = s.ports[m].parking := by
  unfold State.endPortSounding State.endSounding
  split
  · split
    · simp only [Fin.getElem_fin, Vector.getElem_map]
      split <;> rfl
    · rfl
  · rfl

theorem State.park_parking (s : State) (n m : PortId) :
    (s.park n).ports[m].parking = if n = m then parkingOf s.ports[m].parking else s.ports[m].parking := by
  have hrefill : ((s.endPortSounding n).refill n).ports[m].parking = s.ports[m].parking :=
    (updAt_keeps Port.parking _ n m (by intro _; rfl)).trans (s.endPortSounding_parking n m)
  unfold State.park
  rw [State.updPort_ports]
  split
  next h =>
    subst h
    rw [Fin.getElem_fin, updAt_self, ← hrefill]
    unfold Port.parking parkingOf
    split <;> simp [*]
  next h => rw [updAt_elsewhere Port.parking _ h, hrefill]

theorem State.park_frame (s : State) (n : PortId) : { s.park n with ports := s.ports, snd := s.snd } = s := by
  unfold State.park State.refill State.endPortSounding State.endSounding
  split
  · split <;> rfl
  · rfl

/-- Lull-3 entered. -/
def State.enterLull3 (s : State) : State := ({ s with inLull3 := true } : State).over (allFin 6) State.park

theorem State.enterLull3_inLull3 (s : State) : s.enterLull3.inLull3 = true :=
  State.over_keeps State.inLull3 (allFin 6) State.park
    (fun st n => (congrArg State.inLull3 (st.park_frame n) :)) { s with inLull3 := true }

theorem State.enterLull3_frame (s : State) :
    { s.enterLull3 with inLull3 := s.inLull3, ports := s.ports, snd := s.snd } = s :=
  State.over_keeps (fun st => { st with inLull3 := s.inLull3, ports := s.ports, snd := s.snd }) (allFin 6) State.park
    (fun st n => congrArg (fun x : State => { x with inLull3 := s.inLull3, ports := s.ports, snd := s.snd }) (st.park_frame n))
    { s with inLull3 := true }

theorem State.enterLull3_parking (s : State) (n : PortId) :
    s.enterLull3.ports[n].parking = parkingOf s.ports[n].parking := by
  have hother (st : State) (i j : PortId) (h : i ≠ j) : (st.park i).parkings[j] = st.parkings[j] := by
    rw [State.parkings_get, State.parkings_get, st.park_parking, if_neg h]
  have hself (st : State) (i : PortId) : (st.park i).parkings[i] = parkingOf st.parkings[i] := by
    rw [State.parkings_get, State.parkings_get, st.park_parking, if_pos rfl]
  have hall := State.over_bank_self State.parkings State.park hother (Q := fun _ x y => y = parkingOf x) hself
    (allFin 6) (List.nodup_finRange 6) n (List.mem_finRange n) { s with inLull3 := true }
  rw [State.parkings_get, State.parkings_get] at hall
  exact hall

theorem exec_lull3Entry {s : State} {at_ : Nat} (hen : (s.advanceTo at_).lull3Enable = true)
    (hin : (s.advanceTo at_).inLull3 = false) (hready : (s.advanceTo at_).boot.state = .ready)
    (hquiet : (s.advanceTo at_).tc12At + 3600000 ≤ (s.advanceTo at_).timeNs)
    (hrest : ∀ p : PartId, (s.advanceTo at_).mayRest p 3 = true ∧ 2 ≤ (s.advanceTo at_).parts[p].lull.reached) :
    exec (.lull3Entry at_) s = .next (s.advanceTo at_).enterLull3 := by
  have hall : (allFin 16).all (fun p =>
      (s.advanceTo at_).mayRest p 3 && decide (2 ≤ (s.advanceTo at_).parts[p].lull.reached)) = true :=
    List.all_eq_true.mpr fun p _ => by rw [(hrest p).1, decide_eq_true (hrest p).2]; rfl
  exact congrArg Host.Outcome.next (if_pos (by rw [hall]; simp [hen, hin, hready, hquiet]))

theorem exec_lull3Entry_awake {s : State} {at_ : Nat}
    (h : (s.advanceTo at_).lull3Enable = false ∨
      ∃ p : PartId, (s.advanceTo at_).mayRest p 3 = false ∨ (s.advanceTo at_).parts[p].lull.reached < 2) :
    exec (.lull3Entry at_) s = .next (s.advanceTo at_) := by
  refine congrArg Host.Outcome.next (if_neg fun hc => ?_)
  simp only [Bool.and_eq_true, List.all_eq_true, decide_eq_true_eq] at hc
  obtain ⟨⟨⟨⟨hen, -⟩, -⟩, -⟩, hall⟩ := hc
  rcases h with h | ⟨p, h⟩
  · exact Bool.false_ne_true (h.symm.trans hen)
  · obtain ⟨hmay, hreached⟩ := hall p (List.mem_finRange p)
    rcases h with h | h
    · exact Bool.false_ne_true (h.symm.trans hmay)
    · exact absurd hreached (Nat.not_le.mpr h)

/-- Settles O11: LULL3_ENTRY parks port after port, and a port's parking is of its own round alone; PORT_UNPARK is
`State.unpark`, after `State.wakeAll` where a packet waits (R46, R301). -/
theorem wholeDeviceRestsAndPortsUnpark : Obligations.WholeDeviceRestsAndPortsUnpark := by
  refine ⟨fun s at_ => ⟨fun hen hin hready hquiet hrest => ?_, exec_lull3Entry_awake⟩, fun s n hp hw hin => ?_,
    fun s n hp hw => ?_, fun s n hp => ?_⟩
  · exact ⟨_, exec_lull3Entry hen hin hready hquiet hrest, State.enterLull3_inLull3 _,
      fun n => Port.parked_of_parking (State.enterLull3_parking _ n), State.enterLull3_frame _⟩
  · obtain ⟨hothers, hframe⟩ := s.unpark_onlyPort n
    obtain ⟨hparked, -, hlanes, hwidth⟩ := s.unpark_port n
    refine ⟨s.unpark n, ?_, hparked, hlanes, hwidth, hothers, hframe⟩
    rw [exec_portUnpark hp (.inl hin), if_neg (by rw [hw]; exact Bool.false_ne_true)]
  · obtain ⟨hports, hcores, hxfers, hhost, hpend, htime⟩ := State.eqs_of_steady s.wakeAll_steady
    have honly := s.wakeAll.unpark_onlyPort n
    obtain ⟨hlull, hparts, hcores', hxfers', hhost', hpend'⟩ := honly.rest
    obtain ⟨hparked, hreq, -, hwidth⟩ := s.wakeAll.unpark_port n
    rw [hports] at hwidth
    refine ⟨s.wakeAll.unpark n, ?_, hlull.trans s.wakeAll_inLull3, hparked, hreq, hwidth, fun m hm => ?_, fun p hc => ?_,
      hcores'.trans hcores, hxfers'.trans hxfers, hhost'.trans hhost, hpend'.trans hpend⟩
    · rw [exec_portUnpark hp (.inr hw), if_pos hw]
    · rw [honly.1 m hm, hports]
    · rw [hparts, s.wakeAll_lull p hc]
      exact ⟨rfl, rfl⟩
  · exact congrArg Host.Outcome.next (if_neg (by rw [hp]; simp))

end Sys2Proof.Machine

/-! SUPPORT. The wake budget of a partition that holds no resources (02 R50). -/

namespace Sys2Proof.Machine

/-- Refutes O10: for a partition that holds no resources, the clause of LUL_WAKE_BUDGET_WRITE asks that the device leaves Lull-3
wherever the depth reached is beyond the one that the new budget allows. `PLull.reached` is any number: in Lull-3, with 4
reached and Lull-3 allowed, `State.wakeTo` 3 ends no Lull-3. No command sets `reached` above 2; the clause lacks such a bound. -/
theorem not_partitionsRestInOrderAndWake : ¬ Obligations.PartitionsRestInOrderAndWake := by
  rintro ⟨-, -, -, -, h⟩
  obtain ⟨s, hready, hclaims, hdeep, hstays⟩ : ∃ s : State, Ready s ∧ s.parts[(0 : PartId)].claims? = false ∧
      allowedDepth 900000 < max (s.effectiveDepth 0) s.parts[(0 : PartId)].lull.reached ∧
      (Outcome.state (exec (.lulWakeBudgetWrite 0 900000) s) s).inLull3 = true :=
    ⟨{ State.reset with
        power := { State.reset.power with alwaysOn := true }, boot := { State.reset.boot with state := .ready }
        inLull3 := true, parts := State.reset.parts.set 0 { lull := { reached := 4 } } },
      by unfold Ready; decide +kernel⟩
  obtain ⟨-, -, hempty⟩ := h s 0 900000 hready
  obtain ⟨t, ht, -, hleft, -⟩ := hempty hdeep hclaims
  rw [ht] at hstays
  exact Bool.false_ne_true (hleft.symm.trans hstays)

end Sys2Proof.Machine

/-! SUPPORT. The image slot (03 R69, R70): what a write and an erase leave of it, and what the slot reads after them. -/

namespace Sys2Proof.Machine

/-! ### Writes and erases of the slot -/

/-- A write leaves every byte outside its range alone. -/
theorem wrSlot_outside (l : List Byte) (m : Memory) {a b : Nat} (h : b < a ∨ a + l.length ≤ b) :
    Sparse.getD (α := Byte) (wrSlot m a l) b 0xFF = Sparse.getD (α := Byte) m b 0xFF := by
  induction l generalizing m a with
  | nil => rfl
  | cons x l ih =>
    rw [List.length_cons] at h
    exact (ih _ (by omega)).trans (Sparse.getD_set_other 0xFF m x (by omega))

/-- A write reads back. -/
theorem wrSlot_inside {l : List Byte} {m : Memory} (a : Nat) {i : Nat} {x : Byte}
    (hm : Sparse.wf (α := Byte) 0xFF m = true) (h : l[i]? = some x) :
    Sparse.getD (α := Byte) (wrSlot m a l) (a + i) 0xFF = x := by
  induction l generalizing m a i with
  | nil => cases h
  | cons y l ih =>
    cases i with
    | zero =>
      cases h
      exact (wrSlot_outside l _ (.inl (Nat.lt_succ_self a))).trans (Sparse.getD_set_self 0xFF m a x hm)
    | succ i =>
      have h1 := ih (a + 1) (Sparse.wf_set 0xFF m a y hm) (by simpa using h)
      rwa [Nat.add_right_comm] at h1

/-- The bytes of an image where they were written. -/
theorem imgBytes_wrSlot (l : List Byte) {m : Memory} (a : Nat) (hm : Sparse.wf (α := Byte) 0xFF m = true) :
    imgBytes (fun b => Sparse.getD (α := Byte) (wrSlot m a l) b 0xFF) a l.length = l := by
  refine List.ext_getElem (by simp [imgBytes]) fun i _ hi => ?_
  simpa [imgBytes] using wrSlot_inside a hm (List.getElem?_eq_getElem hi)

/-! ### DATA (R70) -/

theorem State.dataSlot_wf (s : State) (d : List Byte) (h : Sparse.wf (α := Byte) 0xFF s.loader.slot = true) :
    Sparse.wf (α := Byte) 0xFF (s.dataSlot d) = true := by
  unfold State.dataSlot
  exact wrSlot_wf _ _ _ (wrSlot_wf _ _ _ h)

/-- The state with the bytes of a DATA in the slot. -/
def State.dataTaken (s : State) (d : List Byte) : State :=
  { s with loader := { s.loader with slot := s.dataSlot d, bytesWritten := s.loader.bytesWritten + d.length } }

/-- The image offset behind the bytes of a DATA. -/
def State.dataEnd (s : State) (d : List Byte) : Nat :=
  let a := s.dataOffset
  if a < s.sessionHeader.sigAt ∧ s.sessionHeader.sigAt < a + d.length then a + d.length + 4096 else a + d.length

/-- A DATA within the image: its bytes taken, and what its end will report of the sections they complete. -/
def State.dataWritten (s : State) (d : List Byte) : State :=
  let t := s.dataTaken d
  if t.badDigest s.dataOffset (s.dataEnd d) then t.loaderRun .data .refusedState 0x03 else t.loaderRun .data .done 0

theorem execLoaderData_eq (src : LoaderPort) (master : Byte) (data : List Byte) (s : State) :
    execLoaderData src master data s = .next (s.loaderStart .data master fun s =>
      if s.loader.session == some src then
        if s.sessionHeader.length < s.loader.bytesWritten + (s.loaderData' src data).length then
          s.loaderRun .data .refusedState 0
        else s.dataWritten (s.loaderData' src data)
      else s.loaderRun .data .refusedState 0) := rfl

theorem State.dataTaken_slot (s : State) (d : List Byte) : (s.dataTaken d).loader.slot = s.dataSlot d := by
  unfold State.dataTaken
  with_reducible rfl

end Sys2Proof.Machine

/-! SUPPORT. The invariant that every step keeps (03 R61, R69): ENROLL and REVOKE leave a key slot that can serve, and
the slot is written only by BEGIN and DATA. -/

namespace Sys2Proof

open Sys2Proof.Machine

/-! ### Key slots -/

theorem Machine.Fuses.enroll_serves {f g : Fuses} {hash : BitVec 384} (h : f.enroll hash = some g) : KeysServe g := by
  unfold Fuses.enroll at h
  split at h
  next k _ =>
    cases h
    exact ⟨k, .inl (by simp)⟩
  next => cases h

theorem Machine.Fuses.anyEnrolled_iff (f : Fuses) : f.anyEnrolled = true ↔ ∃ k : Fin 4, f.keys[k].state = .enrolled := by
  simp [Fuses.anyEnrolled, Vector.any_iff_exists, Fin.exists_iff]

/-- REVOKE takes no slot that would leave none enrolled and none empty. -/
theorem Machine.Fuses.revoke_serves {f g : Fuses} {k : Fin 4} (h : f.revoke k = some g) : KeysServe g := by
  simp only [Fuses.revoke, Option.ite_none_right_eq_some, Option.some.injEq] at h
  obtain ⟨hleft, rfl⟩ := h
  rcases Bool.or_eq_true_iff.mp hleft with he | he
  · obtain ⟨j, hj⟩ := (Fuses.anyEnrolled_iff _).mp he
    exact ⟨j, .inl hj⟩
  · obtain ⟨j, hj, he⟩ := Vector.any_iff_exists.mp he
    exact ⟨⟨j, hj⟩, .inr (eq_of_beq he)⟩

/-! ### What the invariant speaks of -/

/-- The fuses and the image slot. -/
def Machine.State.stored (s : State) : Fuses × Memory := (s.fuses, s.loader.slot)

theorem Machine.State.stored_of_fixed {s t : State} (h : t.fixed = s.fixed) : t.stored = s.stored := by
  obtain ⟨hfuses, -, -, hslot, -⟩ := State.eqs_of_fixed h
  exact Prod.ext hfuses hslot

/-- From `s` to `t` the invariant is kept. -/
structure StaysSound (s t : State) : Prop where
  sound : Sound s → Sound t

theorem StaysSound.refl (s : State) : StaysSound s s := ⟨id⟩

theorem StaysSound.trans {s t u : State} (h : StaysSound s t) (g : StaysSound t u) : StaysSound s u :=
  ⟨fun hs => g.sound (h.sound hs)⟩

theorem StaysSound.of_stored {s t : State} (h : t.stored = s.stored) : StaysSound s t := by
  obtain ⟨hfuses, hslot⟩ := Prod.mk.inj h
  refine ⟨fun hs => ?_⟩
  unfold Sound
  rw [hfuses, hslot]
  exact hs

theorem StaysSound.of_fixed {s t : State} (h : t.fixed = s.fixed) : StaysSound s t := .of_stored (State.stored_of_fixed h)

/-- The slot canonical after a change that leaves the fuses. -/
theorem StaysSound.of_slot {s t : State} (hf : t.fuses = s.fuses)
    (h : Sparse.wf (α := Byte) 0xFF s.loader.slot = true → Sparse.wf (α := Byte) 0xFF t.loader.slot = true) :
    StaysSound s t :=
  ⟨fun hs => ⟨hf ▸ hs.1, h hs.2⟩⟩

/-- A key slot that serves after a change that leaves the image slot. -/
theorem StaysSound.of_keys {s t : State} (hs : t.loader.slot = s.loader.slot) (h : KeysServe s.fuses → KeysServe t.fuses) :
    StaysSound s t :=
  ⟨fun hsound => ⟨h hsound.1, hs ▸ hsound.2⟩⟩

theorem StaysSound.over {α : Type} (l : List α) (f : State → α → State) (h : ∀ s x, StaysSound s (f s x)) (s : State) :
    StaysSound s (s.over l f) := by
  induction l generalizing s with
  | nil => exact .refl s
  | cons x l ih => exact (h s x).trans (ih (f s x))

end Sys2Proof

namespace Sys2Proof.Machine

/-- The answer is a state, and the invariant is kept from `s` to it. -/
def AnswersSound (s : State) (o : Out) : Prop := ∃ t, o = .next t ∧ StaysSound s t

theorem AnswersSound.next {s t : State} (h : StaysSound s t) : AnswersSound s (.next t) := ⟨t, rfl, h⟩

theorem AnswersSound.state {s : State} {o : Out} (h : AnswersSound s o) (t : State) :
    StaysSound s (Outcome.state o t) := by
  obtain ⟨u, rfl, hu⟩ := h
  exact hu

theorem State.advanceTo_stored (s : State) (n : Nat) : (s.advanceTo n).stored = s.stored := by
  have e := congrArg State.stored (s.advanceTo_frame n)
  exact e

theorem OnlyTime.answersSound {s : State} {o : Out} (h : OnlyTime s o) : AnswersSound s o := by
  obtain ⟨t, n, rfl, ht⟩ := h
  exact .next (.of_stored ((State.stored_of_fixed ht).trans (s.advanceTo_stored n)))

/-! ### Loader commands (R60 to R62, R69, R70) -/

theorem State.loaderRun_staysSound (s : State) (cmd : LoaderCmd) (o : OutcomeCode) (reason : Byte) :
    StaysSound s (s.loaderRun cmd o reason) := .of_stored rfl

theorem State.loaderStart_staysSound {s : State} {f : State → State} (h : StaysSound s (f s)) (cmd : LoaderCmd)
    (master : Byte) : StaysSound s (s.loaderStart cmd master f) := by
  unfold State.loaderStart
  split
  · exact .refl s
  split
  · exact h
  · exact .of_stored rfl

theorem execLoaderBegin_sound (src : LoaderPort) (master : Byte) (data : List Byte) (s : State) :
    AnswersSound s (execLoaderBegin src master data s) := by
  have go : StaysSound s (execLoaderBegin.go src data s) := by
    unfold execLoaderBegin.go
    dsimp only
    split
    · exact .of_stored rfl
    · exact .of_slot rfl fun h => wrSlot_wf _ _ _ (wrSlot_wf _ _ _ (eraseSlot_wf _ _ h))
  refine .next (s.loaderStart_staysSound ?_ _ _)
  split
  · split
    · exact go
    · exact .of_stored rfl
  · exact go

theorem State.dataWritten_staysSound (s : State) (d : List Byte) : StaysSound s (s.dataWritten d) := by
  have taken : StaysSound s (s.dataTaken d) := .of_slot rfl fun h => by rw [s.dataTaken_slot]; exact s.dataSlot_wf d h
  unfold State.dataWritten
  dsimp only
  split <;> exact taken.trans (State.loaderRun_staysSound ..)

theorem execLoaderData_sound (src : LoaderPort) (master : Byte) (data : List Byte) (s : State) :
    AnswersSound s (execLoaderData src master data s) := by
  rw [execLoaderData_eq]
  refine .next (s.loaderStart_staysSound ?_ _ _)
  split
  · split
    · exact .of_stored rfl
    · exact s.dataWritten_staysSound _
  · exact .of_stored rfl

theorem execLoaderEnd_sound (src : LoaderPort) (master : Byte) (s : State) :
    AnswersSound s (execLoaderEnd src master s) := by
  refine .next (s.loaderStart_staysSound ?_ _ _)
  dsimp only
  (repeat' split) <;> exact .of_stored rfl

theorem execLoaderAbort_sound (src : LoaderPort) (master : Byte) (s : State) :
    AnswersSound s (execLoaderAbort src master s) :=
  (exec_onlyTime (c := .loaderAbort src master) rfl s).answersSound

theorem execSvnCommit_sound (src : LoaderPort) (master : Byte) (s : State) :
    AnswersSound s (execSvnCommit src master s) := by
  refine .next (s.loaderStart_staysSound ?_ _ _)
  dsimp only
  split
  · exact .of_keys rfl id
  · exact .of_stored rfl

theorem execEnroll_sound (src : LoaderPort) (master : Byte) (data : List Byte) (s : State) :
    AnswersSound s (execEnroll src master data s) := by
  refine .next ?_
  split
  · exact .refl s
  refine .trans (s.loaderStart_staysSound ?_ _ _) (.of_fixed (State.freshNonce_fixed _))
  dsimp only
  split
  · exact .of_stored rfl
  split
  · exact .of_stored rfl
  split
  next h => exact .of_keys rfl fun _ => Fuses.enroll_serves h
  next => exact .of_stored rfl

theorem execRevoke_sound (src : LoaderPort) (master : Byte) (data : List Byte) (s : State) :
    AnswersSound s (execRevoke src master data s) := by
  refine .next ?_
  split
  · exact .refl s
  refine .trans (s.loaderStart_staysSound ?_ _ _) (.of_fixed (State.freshNonce_fixed _))
  dsimp only
  split
  · exact .of_stored rfl
  split
  · exact .of_stored rfl
  split
  · split
    next h => exact .of_keys rfl fun _ => Fuses.revoke_serves h
    next => exact .of_stored rfl
  · exact .of_stored rfl

/-! ### Loader commands in a message and in a register (R70, R127) -/

theorem State.loaderMessage_staysSound (s : State) (m : MctpMsg) : StaysSound s (s.loaderMessage m) := by
  unfold State.loaderMessage
  split
  · exact (execLoaderBegin_sound ..).state s
  · exact (execLoaderData_sound ..).state s
  · exact (execLoaderEnd_sound ..).state s
  · exact (execLoaderAbort_sound ..).state s
  · exact (execSvnCommit_sound ..).state s
  · exact (execEnroll_sound ..).state s
  · exact (execRevoke_sound ..).state s
  · exact .refl s

theorem State.loaderCtrl_staysSound (s : State) (v : W64) (master : Byte) : StaysSound s (s.loaderCtrl v master) := by
  unfold State.loaderCtrl
  extract_lets _ s1
  have h : StaysSound s s1 := .of_stored rfl
  split
  · exact h
  refine h.trans ?_
  split
  · exact (execLoaderBegin_sound ..).state s1
  · exact (execLoaderData_sound ..).state s1
  · exact (execLoaderEnd_sound ..).state s1
  · exact (execLoaderAbort_sound ..).state s1
  · exact (execSvnCommit_sound ..).state s1
  · exact (execEnroll_sound ..).state s1
  · exact (execRevoke_sound ..).state s1
  · exact .of_stored rfl

theorem execMctpLoader_sound (m : MctpMsg) (s : State) : AnswersSound s (execMctpLoader m s) := by
  have reply (t : State) (o : OutcomeCode) (d : List Byte) : StaysSound t (t.mctpReply m o d) :=
    .of_fixed (t.mctpReply_fixed m o d)
  have gen : StaysSound s (s.raiseGen 0x03 m.head.gen) := .of_fixed (by simp)
  have run := gen.trans (State.loaderMessage_staysSound _ m)
  refine .next ?_
  unfold State.mctp
  split
  · exact .refl s
  split
  · dsimp only
    split
    · exact .of_fixed (by simp)
    split
    · exact gen.trans (reply ..)
    split <;> exact run.trans (reply ..)
  · exact reply ..

/-! ### Control writes and the end of their epoch (R102, R103) -/

theorem State.applyWrite_staysSound (s : State) (w : CtlWrite) (n : Nat) : StaysSound s (s.applyWrite w n) := by
  unfold State.applyWrite
  split
  · exact .of_fixed (by simp)
  by_cases h : blockOf w.offset = .stw 0x380
  · rw [s.writeReg_loaderCtrl h]
    exact s.loaderCtrl_staysSound ..
  · exact .of_fixed (s.writeReg_fixed h n)

theorem State.applyPending_staysSound (s : State) (w : PendingWrite) : StaysSound s (s.applyPending w) := by
  unfold State.applyPending
  split
  · exact .of_fixed (by split <;> simp)
  · exact (s.applyWrite_staysSound w.w w.epoch).trans (.of_fixed (by simp))

theorem State.applyEpoch_staysSound (s : State) (ws : List PendingWrite) : StaysSound s (s.applyEpoch ws) := by
  have ends (s : State) : StaysSound s (s.over (allFin 16) fun s p => s.stopEnd p) := .of_fixed (by simp)
  have writes (l : List PendingWrite) (s : State) : StaysSound s (s.over l fun s w => s.applyPending w) :=
    .over l _ State.applyPending_staysSound s
  unfold State.applyEpoch
  exact (ends s).trans <| (writes _ _).trans <| (writes _ _).trans <| (ends _).trans <| (writes _ _).trans (writes _ _)

theorem State.endEpoch_staysSound (s : State) (n : Nat) : StaysSound s (s.endEpoch n) := by
  unfold State.endEpoch
  exact .trans (.of_fixed (by simp)) (State.applyEpoch_staysSound _ _)

theorem execControlEpochEnd_sound (n : Nat) (s : State) : AnswersSound s (execControlEpochEnd n s) := by
  refine .next (.trans ?_ (.of_fixed (State.closeFlags_fixed _)))
  exact (StaysSound.of_stored (s.advanceTo_stored _)).trans (.over _ _ State.endEpoch_staysSound _)

/-! ### Every step -/

theorem execP54vWithinRange_sound (s : State) : AnswersSound s (execP54vWithinRange s) := by
  refine .next (.of_stored ?_)
  split <;> rfl

theorem exec_answersSound (c : Instr) (s : State) : AnswersSound s (exec c s) := by
  cases h : c.setsFixed with
  | false => exact (exec_onlyTime h s).answersSound
  | true =>
    cases c with
    | p54vWithinRange => exact execP54vWithinRange_sound s
    | loaderBegin => exact execLoaderBegin_sound ..
    | loaderData => exact execLoaderData_sound ..
    | loaderEnd => exact execLoaderEnd_sound ..
    | svnCommit src master => exact execSvnCommit_sound src master s
    | enroll => exact execEnroll_sound ..
    | revoke => exact execRevoke_sound ..
    | mctpLoader => exact execMctpLoader_sound ..
    | controlEpochEnd => exact execControlEpochEnd_sound ..
    | _ => cases h

/-- Settles O5: of the commands, only ENROLL and REVOKE touch a key slot, and only BEGIN and DATA write the image slot, by
themselves, in a loader message or in a control write at the end of its epoch. -/
theorem everyStepKeepsTheInvariant : Obligations.EveryStepKeepsTheInvariant := by
  intro s t hs h
  unfold step at h
  split at h
  · cases h
    exact (StaysSound.of_stored (s.advanceTo_stored _)).sound hs
  next c rest _ =>
    obtain ⟨u, hu, hsound⟩ := exec_answersSound c { s with pending := rest }
    cases hu.symm.trans h
    exact hsound.sound hs

end Sys2Proof.Machine

/-! SUPPORT. Loader sessions (03 R69 to R72): what each loader command does where it runs, and what DATA leaves in
the slot. -/

namespace Sys2Proof.Machine

/-! ### A loader command that starts (R71) -/

theorem State.loaderStart_runs {s : State} {master : Byte} (hrun : s.loader.run = none) (hon : s.power.alwaysOn = true)
    (ho : s.loaderOwner master = true) (cmd : LoaderCmd) (f : State → State) : s.loaderStart cmd master f = f s := by
  simp [State.loaderStart, hrun, hon, ho]

theorem State.loaderStart_refused {s : State} {master : Byte} (hrun : s.loader.run = none)
    (hon : s.power.alwaysOn = true) (ho : s.loaderOwner master = false) (cmd : LoaderCmd) (f : State → State) :
    s.loaderStart cmd master f = s.loaderRun cmd .refusedOwner 0 := by
  simp [State.loaderStart, hrun, hon, ho]

theorem State.loaderRun_slot (s : State) (cmd : LoaderCmd) (o : OutcomeCode) (reason : Byte) :
    (s.loaderRun cmd o reason).loader.slot = s.loader.slot := rfl

theorem State.loaderRun_slotReader (s : State) (cmd : LoaderCmd) (o : OutcomeCode) (reason : Byte) :
    (s.loaderRun cmd o reason).slotReader = s.slotReader := rfl

/-! ### BEGIN (R69, R70) -/

/-- The session that a BEGIN opens: the slot erased, the header and the signature block written. -/
def State.begun (s : State) (src : LoaderPort) (d : List Byte) : State :=
  let h := parseHeader fun a => d.getD a 0
  { s with loader := { s.loader with
      session := some src, header := d.take h.size, erased := true, slotValid := false, bytesWritten := h.size + 4096
      slot := wrSlot (wrSlot (eraseSlot s.loader.slot h.length) 0 (d.take h.size)) h.sigAt (d.drop h.size) } }

theorem execLoaderBegin_refused {s : State} {src : LoaderPort} {data : List Byte} {r : Byte}
    (h : s.beginReason (s.loaderData' src data) = some r) :
    execLoaderBegin.go src data s = s.loaderRun .begin_ .refusedState r := by
  unfold execLoaderBegin.go
  dsimp only
  rw [h]

theorem execLoaderBegin_opens {s : State} {src : LoaderPort} {data : List Byte}
    (h : s.beginReason (s.loaderData' src data) = none) :
    execLoaderBegin.go src data s = (s.begun src (s.loaderData' src data)).loaderRun .begin_ .done 0 := by
  unfold execLoaderBegin.go
  dsimp only
  rw [h]
  unfold State.begun
  with_reducible rfl

theorem exec_loaderBegin {s : State} {src : LoaderPort} {master : Byte} (hrun : s.loader.run = none)
    (hon : s.power.alwaysOn = true) (ho : s.loaderOwner master = true)
    (hsess : s.loader.session = none ∨ s.loader.session = some src) (d : List Byte) :
    exec (.loaderBegin src master d) s = .next (execLoaderBegin.go src d s) := by
  show Host.Outcome.next _ = _
  rw [State.loaderStart_runs hrun hon ho]
  rcases hsess with hs | hs <;> simp only [hs, if_true]

/-- A BEGIN that passes carries the header and the 4 KiB of the signature block. -/
theorem State.length_of_beginReason {s : State} {d : List Byte} (h : s.beginReason d = none) :
    d.length = (parseHeader fun a => d.getD a 0).size + 4096 := by
  unfold State.beginReason at h
  dsimp only at h
  split at h
  · cases h
  next hform =>
    simp only [Bool.or_eq_true, not_or, bne_iff_ne, ne_eq, not_not] at hform
    exact hform.2

theorem State.begun_wf (s : State) (src : LoaderPort) (d : List Byte)
    (h : Sparse.wf (α := Byte) 0xFF s.loader.slot = true) :
    Sparse.wf (α := Byte) 0xFF (s.begun src d).loader.slot = true :=
  wrSlot_wf _ _ _ (wrSlot_wf _ _ _ (eraseSlot_wf _ _ h))

theorem State.begun_signature {s : State} (src : LoaderPort) {d : List Byte}
    (h : Sparse.wf (α := Byte) 0xFF s.loader.slot = true)
    (hd : d.length = (parseHeader fun a => d.getD a 0).size + 4096) :
    imgBytes (s.begun src d).slotReader (parseHeader fun a => d.getD a 0).sigAt 4096 =
      d.drop (parseHeader fun a => d.getD a 0).size := by
  have hlen : (d.drop (parseHeader fun a => d.getD a 0).size).length = 4096 := by
    rw [List.length_drop, hd, Nat.add_sub_cancel_left]
  have hb := imgBytes_wrSlot (d.drop (parseHeader fun a => d.getD a 0).size) (parseHeader fun a => d.getD a 0).sigAt
    (wrSlot_wf (d.take (parseHeader fun a => d.getD a 0).size) _ 0
      (eraseSlot_wf s.loader.slot (parseHeader fun a => d.getD a 0).length h))
  rwa [hlen] at hb

/-! ### DATA (R70) -/

/-- No DATA byte goes into the signature block, which BEGIN has written. -/
theorem State.dataOffset_cases (s : State) :
    s.dataOffset < s.sessionHeader.sigAt ∨ s.sessionHeader.sigAt + 4096 ≤ s.dataOffset := by
  unfold State.dataOffset
  dsimp only
  split <;> omega

/-- DATA before the signature block goes on behind it. -/
theorem State.dataSlot_before {s : State} (d : List Byte) (h : s.dataOffset < s.sessionHeader.sigAt) :
    s.dataSlot d =
      wrSlot (wrSlot s.loader.slot s.dataOffset (d.take (s.sessionHeader.sigAt - s.dataOffset)))
        (s.sessionHeader.sigAt + 4096) (d.drop (s.sessionHeader.sigAt - s.dataOffset)) := by
  simp only [State.dataSlot, if_pos h]

theorem State.dataSlot_behind {s : State} (d : List Byte) (h : s.sessionHeader.sigAt + 4096 ≤ s.dataOffset) :
    s.dataSlot d = wrSlot s.loader.slot s.dataOffset d := by
  have hn : ¬s.dataOffset < s.sessionHeader.sigAt := by omega
  simp only [State.dataSlot, if_neg hn, List.take_length, List.drop_length, wrSlot]

theorem State.dataEnd_eq (s : State) (d : List Byte) :
    s.dataEnd d = s.dataOffset + d.length +
      if s.dataOffset < s.sessionHeader.sigAt ∧ s.sessionHeader.sigAt < s.dataOffset + d.length then 4096 else 0 := by
  unfold State.dataEnd
  dsimp only
  split
  · with_reducible rfl
  · exact (Nat.add_zero _).symm

/-- Outside the range of a DATA, and in the signature block, the slot stands. -/
theorem State.dataSlot_outside {s : State} {d : List Byte} {a : Nat}
    (h : a < s.dataOffset ∨ s.dataEnd d ≤ a ∨ s.sessionHeader.sigAt ≤ a ∧ a < s.sessionHeader.sigAt + 4096) :
    Sparse.getD (α := Byte) (s.dataSlot d) a 0xFF = s.slotReader a := by
  rw [s.dataEnd_eq d] at h
  rcases s.dataOffset_cases with hb | hb
  · rw [s.dataSlot_before d hb, wrSlot_outside, wrSlot_outside]
    · rfl
    · rw [List.length_take]
      split at h <;> omega
    · rw [List.length_drop]
      split at h <;> omega
  · rw [s.dataSlot_behind d hb, wrSlot_outside]
    · rfl
    · split at h <;> omega

/-- Each byte of a DATA reads back at its image offset. -/
theorem State.dataSlot_inside {s : State} {d : List Byte} {i : Nat} {x : Byte}
    (hwf : Sparse.wf (α := Byte) 0xFF s.loader.slot = true) (hx : d[i]? = some x) :
    Sparse.getD (α := Byte) (s.dataSlot d)
      (if s.dataOffset < s.sessionHeader.sigAt ∧ s.sessionHeader.sigAt ≤ s.dataOffset + i then s.dataOffset + i + 4096
        else s.dataOffset + i) 0xFF = x := by
  rcases s.dataOffset_cases with hb | hb
  · rw [s.dataSlot_before d hb]
    split
    next hi =>
      obtain ⟨j, hj⟩ := Nat.exists_eq_add_of_le hi.2
      have hdrop : (d.drop (s.sessionHeader.sigAt - s.dataOffset))[j]? = some x := by
        rw [List.getElem?_drop, show s.sessionHeader.sigAt - s.dataOffset + j = i by omega]
        exact hx
      rw [hj, Nat.add_right_comm]
      exact wrSlot_inside _ (wrSlot_wf _ _ _ hwf) hdrop
    next hi =>
      rw [wrSlot_outside _ _ (.inl (by omega))]
      exact wrSlot_inside _ hwf ((List.getElem?_take_of_lt (by omega)).trans hx)
  · rw [s.dataSlot_behind d hb, if_neg (by omega)]
    exact wrSlot_inside _ hwf hx

theorem exec_loaderData_refused {s : State} {src : LoaderPort} {master : Byte} {data : List Byte}
    (hrun : s.loader.run = none) (hon : s.power.alwaysOn = true) (ho : s.loaderOwner master = true)
    (hsess : s.loader.session = some src)
    (hlen : s.sessionHeader.length < s.loader.bytesWritten + (s.loaderData' src data).length) :
    exec (.loaderData src master data) s = .next (s.loaderRun .data .refusedState 0) := by
  show execLoaderData src master data s = _
  rw [execLoaderData_eq, State.loaderStart_runs hrun hon ho, if_pos (beq_iff_eq.mpr hsess), if_pos hlen]

theorem exec_loaderData_taken {s : State} {src : LoaderPort} {master : Byte} {data : List Byte}
    (hrun : s.loader.run = none) (hon : s.power.alwaysOn = true) (ho : s.loaderOwner master = true)
    (hsess : s.loader.session = some src)
    (hlen : s.loader.bytesWritten + (s.loaderData' src data).length ≤ s.sessionHeader.length) :
    exec (.loaderData src master data) s = .next (s.dataWritten (s.loaderData' src data)) := by
  show execLoaderData src master data s = _
  rw [execLoaderData_eq, State.loaderStart_runs hrun hon ho, if_pos (beq_iff_eq.mpr hsess),
    if_neg (Nat.not_lt.mpr hlen)]

theorem State.dataTaken_badDigest {s t : State} {d : List Byte} (hh : t.loader.header = s.loader.header)
    (hs : t.loader.slot = s.dataSlot d) (a b : Nat) : t.badDigest a b = (s.dataTaken d).badDigest a b := by
  have hr : t.slotReader = (s.dataTaken d).slotReader := by
    unfold State.slotReader
    rw [hs, s.dataTaken_slot]
  have hd : t.sessionHeader = (s.dataTaken d).sessionHeader := by
    unfold State.sessionHeader State.dataTaken
    rw [hh]
  unfold State.badDigest
  rw [hr, hd]

/-- What the end of a DATA will report. -/
def State.dataRun (s : State) (d : List Byte) : LoaderRun :=
  if (s.dataTaken d).badDigest s.dataOffset (s.dataEnd d) then ⟨.data, .refusedState, 0x03⟩ else ⟨.data, .done, 0⟩

theorem State.dataWritten_eq (s : State) (d : List Byte) :
    s.dataWritten d =
      { s with loader := { s.loader with
          bytesWritten := s.loader.bytesWritten + d.length, slot := s.dataSlot d, run := some (s.dataRun d)
          lastCmdNs := s.timeNs } } := by
  unfold State.dataWritten State.dataRun
  dsimp only
  split <;> unfold State.loaderRun State.dataTaken <;> with_reducible rfl

theorem State.dataWritten_loader (s : State) (d : List Byte) :
    (s.dataWritten d).loader =
      { s.loader with
        bytesWritten := s.loader.bytesWritten + d.length, slot := s.dataSlot d, run := some (s.dataRun d)
        lastCmdNs := s.timeNs } := by
  rw [s.dataWritten_eq]

theorem State.dataWritten_frame (s : State) (d : List Byte) : { s.dataWritten d with loader := s.loader } = s := by
  rw [s.dataWritten_eq]

theorem State.dataWritten_slot (s : State) (d : List Byte) : (s.dataWritten d).loader.slot = s.dataSlot d := by
  rw [s.dataWritten_loader]

theorem State.dataWritten_slotReader (s : State) (d : List Byte) (a : Nat) :
    (s.dataWritten d).slotReader a = Sparse.getD (α := Byte) (s.dataSlot d) a 0xFF := by
  unfold State.slotReader
  rw [s.dataWritten_slot]

theorem State.dataWritten_run (s : State) (d : List Byte) :
    (s.dataWritten d).loader.run =
      some (if (s.dataWritten d).badDigest s.dataOffset (s.dataEnd d) then ⟨.data, .refusedState, 0x03⟩
        else ⟨.data, .done, 0⟩) := by
  rw [State.dataTaken_badDigest (s := s) (d := d) (by rw [s.dataWritten_loader]) (s.dataWritten_slot d),
    s.dataWritten_loader]
  dsimp only
  unfold State.dataRun
  with_reducible rfl

/-! ### END, ABORT and 10 s of silence (R69, R70) -/

/-- The image complete and valid, its session closed. -/
def State.imageEnded (s : State) : State :=
  { s with loader := { s.loader with
      session := none, erased := false, slotValid := true, header := [], bytesWritten := 0
      endedSinceStraps := true, endedSinceBare := true } }

theorem exec_loaderEnd_done {s : State} {src : LoaderPort} {master : Byte}
    (hrun : s.loader.run = none) (hon : s.power.alwaysOn = true) (ho : s.loaderOwner master = true)
    (hsess : s.loader.session = some src) (hlen : s.loader.bytesWritten = s.sessionHeader.length)
    (hdig : s.sessionHeader.dir.all (digestOk s.slotReader) = true) :
    exec (.loaderEnd src master) s = .next (s.imageEnded.loaderRun .end_ .done 0) := by
  show Host.Outcome.next _ = _
  rw [State.loaderStart_runs hrun hon ho, if_pos (beq_iff_eq.mpr hsess)]
  dsimp only
  rw [if_neg (by simp [hlen]), if_pos hdig]
  unfold State.imageEnded
  with_reducible rfl

theorem exec_loaderEnd_early {s : State} {src : LoaderPort} {master : Byte}
    (hrun : s.loader.run = none) (hon : s.power.alwaysOn = true) (ho : s.loaderOwner master = true)
    (hsess : s.loader.session = some src) (hlen : s.loader.bytesWritten ≠ s.sessionHeader.length) :
    exec (.loaderEnd src master) s = .next (s.loaderRun .end_ .refusedState 0) := by
  show Host.Outcome.next _ = _
  rw [State.loaderStart_runs hrun hon ho, if_pos (beq_iff_eq.mpr hsess)]
  dsimp only
  rw [if_pos (bne_iff_ne.mpr hlen)]

theorem exec_loaderAbort_done {s : State} {src : LoaderPort} {master : Byte}
    (hrun : s.loader.run = none) (hon : s.power.alwaysOn = true) (ho : s.loaderOwner master = true)
    (hsess : s.loader.session = some src) :
    exec (.loaderAbort src master) s = .next (s.closeSession.loaderRun .abort .done 0) := by
  show Host.Outcome.next _ = _
  rw [State.loaderStart_runs hrun hon ho, if_pos (beq_iff_eq.mpr hsess)]

theorem exec_loaderSessionTimeout {s : State} {at_ : Nat} (hsess : (s.advanceTo at_).loader.session ≠ none)
    (hrun : (s.advanceTo at_).loader.run = none)
    (ht : (s.advanceTo at_).loader.lastCmdNs + 10000000000 ≤ (s.advanceTo at_).timeNs) :
    exec (.loaderSessionTimeout at_) s = .next (s.advanceTo at_).closeSession :=
  congrArg Host.Outcome.next (if_pos (by simp [Option.isSome_iff_ne_none, hsess, hrun, ht]))

theorem exec_loaderSessionTimeout_early {s : State} {at_ : Nat}
    (ht : (s.advanceTo at_).timeNs < (s.advanceTo at_).loader.lastCmdNs + 10000000000) :
    exec (.loaderSessionTimeout at_) s = .next (s.advanceTo at_) :=
  congrArg Host.Outcome.next (if_neg (by simp [Nat.not_le.mpr ht]))

/-! ### LOADER_COMMAND_END -/

theorem exec_loaderCommandEnd {s : State} {r : LoaderRun} (h : s.loader.run = some r) :
    exec .loaderCommandEnd s = .next
      (({ s with loader := { s.loader with
          run := none, lastCmdNs := s.timeNs, outcome := BitVec.ofNat 8 r.outcome.code
          rejectReason := if r.outcome = OutcomeCode.done then s.loader.rejectReason else r.reason } } : State).msi
        .pf 2) := by
  show execLoaderCommandEnd s = _
  unfold execLoaderCommandEnd
  rw [h]

/-- A master that may not run loader commands starts one: it is refused, whichever it is (R71). -/
theorem exec_loader_notOwner {s : State} {m : Byte} (hrun : s.loader.run = none) (hon : s.power.alwaysOn = true)
    (ho : s.loaderOwner m = false) (src : LoaderPort) (d : List Byte) :
    ∀ e ∈ [(Instr.loaderBegin src m d, LoaderCmd.begin_), (.loaderData src m d, .data), (.loaderEnd src m, .end_),
        (.loaderAbort src m, .abort), (.svnCommit src m, .svnCommit)],
      exec e.1 s = .next (s.loaderRun e.2 .refusedOwner 0) := by
  have refused (cmd : LoaderCmd) (f : State → State) := State.loaderStart_refused hrun hon ho cmd f
  simp only [List.forall_mem_cons, List.not_mem_nil, false_imp_iff, implies_true, and_true]
  exact ⟨congrArg Host.Outcome.next (refused ..), congrArg Host.Outcome.next (refused ..),
    congrArg Host.Outcome.next (refused ..), congrArg Host.Outcome.next (refused ..),
    congrArg Host.Outcome.next (refused ..)⟩

/-- Settles O13: a command that runs is one of the states above (`State.begun`, `State.dataWritten`, `State.imageEnded`,
`State.closeSession`) with its report; `State.dataSlot` is read by `State.dataSlot_outside` and `State.dataSlot_inside`. -/
theorem loaderSessionsWriteTheImageSlot : Obligations.LoaderSessionsWriteTheImageSlot := by
  refine ⟨fun s src m d hrun hon ho => exec_loader_notOwner hrun hon ho src d,
    fun s src m d hrun hon ho hsess => ⟨fun r hr => ?_, fun hr => ?_⟩,
    fun s src m data hrun hon ho hsess => ⟨exec_loaderData_refused hrun hon ho hsess, fun hlen => ?_⟩,
    fun s src m hrun hon ho hsess => ⟨fun hlen hdig => ?_, exec_loaderEnd_early hrun hon ho hsess, ?_⟩,
    fun s at_ => ⟨fun hsess hrun ht => ?_, exec_loaderSessionTimeout_early⟩, fun s r hr => ?_⟩
  · rw [exec_loaderBegin hrun hon ho hsess, execLoaderBegin_refused hr]
    rfl
  · have hd := State.length_of_beginReason hr
    rw [exec_loaderBegin hrun hon ho hsess, execLoaderBegin_opens hr]
    refine ⟨_, rfl, rfl, rfl, hd.symm, rfl, rfl, fun hwf => ?_, rfl⟩
    rw [State.loaderRun_slot, State.loaderRun_slotReader]
    exact ⟨s.begun_wf src _ hwf, State.begun_signature src hwf hd⟩
  · refine ⟨_, exec_loaderData_taken hrun hon ho hsess hlen, ?_⟩
    rw [← s.dataEnd_eq]
    generalize s.loaderData' src data = d
    simp only [s.dataWritten_slotReader, s.dataWritten_slot]
    refine ⟨?_, fun a ha => State.dataSlot_outside ha,
      fun hwf => ⟨s.dataSlot_wf d hwf, fun i x hx => State.dataSlot_inside hwf hx⟩,
      fun hbad => ?_, fun hgood => ?_, ?_, s.dataWritten_frame d⟩
    · rw [s.dataWritten_loader]
    · rw [s.dataWritten_run, if_pos hbad]
    · rw [s.dataWritten_run, if_neg (by rw [hgood]; exact Bool.false_ne_true)]
    · rw [s.dataWritten_loader]
  · exact ⟨_, exec_loaderEnd_done hrun hon ho hsess hlen hdig, rfl, rfl, rfl, rfl, rfl, rfl, rfl⟩
  · exact ⟨_, exec_loaderAbort_done hrun hon ho hsess, rfl, rfl, rfl, rfl, rfl⟩
  · exact ⟨_, exec_loaderSessionTimeout hsess hrun ht, rfl, rfl, rfl, rfl⟩
  · refine ⟨_, exec_loaderCommandEnd hr, rfl, rfl, fun h => if_neg h, rfl, rfl, rfl, rfl, rfl⟩

end Sys2Proof.Machine

/-! SUPPORT. The owner key slots and the fused minimum svn (03 R60 to R62): what SVN_COMMIT, ENROLL and REVOKE make of the
fuses. -/

namespace Sys2Proof.Machine

/-- The lowest unit of a bank that passes a test. -/
theorem find?_allFin {n : Nat} {f : Fin n → Bool} {k : Fin n} (hk : f k = true) (hlow : ∀ j < k, f j = false) :
    (allFin n).find? f = some k := by
  refine List.find?_eq_some_iff_getElem.mpr ⟨hk, k.val, by simp [allFin], by simp [allFin], fun j hj => ?_⟩
  simpa [allFin] using hlow ⟨j, hj.trans k.isLt⟩ hj

theorem find?_allFin_none {n : Nat} {f : Fin n → Bool} (h : ∀ j, f j = false) : (allFin n).find? f = none :=
  List.find?_eq_none.mpr fun j _ => by simp [h j]

/-! ### Key slots (R61) -/

theorem Fuses.enroll_lowest {f : Fuses} {k : Fin 4} (hash : BitVec 384) (hk : f.keys[k].state = .empty)
    (hlow : ∀ j : Fin 4, j < k → f.keys[j].state ≠ .empty) :
    f.enroll hash = some { f with keys := f.keys.set k ⟨.enrolled, hash⟩ } := by
  have h : (allFin 4).find? (fun j => f.keys[j].state == .empty) = some k :=
    find?_allFin (beq_iff_eq.mpr hk) fun j hj => beq_false_of_ne (hlow j hj)
  unfold Fuses.enroll
  rw [h]

theorem Fuses.enroll_full {f : Fuses} (hash : BitVec 384) (h : ∀ k : Fin 4, f.keys[k].state ≠ .empty) :
    f.enroll hash = none := by
  have hn : (allFin 4).find? (fun j => f.keys[j].state == .empty) = none :=
    find?_allFin_none fun j => beq_false_of_ne (h j)
  unfold Fuses.enroll
  rw [hn]

/-- The fuses with a key slot marked revoked. -/
def Fuses.revoked (f : Fuses) (k : Fin 4) : Fuses :=
  { f with keys := f.keys.set k { f.keys[k] with state := .revoked } }

theorem Fuses.revoked_other (f : Fuses) {k j : Fin 4} (h : j ≠ k) : (f.revoked k).keys[j] = f.keys[j] :=
  Vector.getElem_set_ne k.isLt j.isLt (Fin.val_ne_of_ne h.symm)

theorem Fuses.revoked_self (f : Fuses) (k : Fin 4) : (f.revoked k).keys[k].state = .revoked := by
  simp [Fuses.revoked]

theorem Fuses.revoke_eq (f : Fuses) (k : Fin 4) :
    f.revoke k =
      if (f.revoked k).anyEnrolled || (f.revoked k).keys.any (·.state == .empty) then some (f.revoked k) else none := rfl

theorem Fuses.revoke_serving {f : Fuses} {k j : Fin 4} (hj : j ≠ k)
    (h : f.keys[j].state = .enrolled ∨ f.keys[j].state = .empty) : f.revoke k = some (f.revoked k) := by
  rw [← f.revoked_other hj] at h
  rw [Fuses.revoke_eq, if_pos]
  refine Bool.or_eq_true_iff.mpr (h.imp (fun he => ?_) fun he => ?_)
  · exact (Fuses.anyEnrolled_iff _).mpr ⟨j, he⟩
  · exact Vector.any_iff_exists.mpr ⟨j, j.isLt, beq_iff_eq.mpr he⟩

theorem Fuses.revoke_last {f : Fuses} {k : Fin 4} (h : ∀ j : Fin 4, j ≠ k → f.keys[j].state = .revoked) :
    f.revoke k = none := by
  have hall (j : Fin 4) : (f.revoked k).keys[j].state = .revoked := by
    by_cases hj : j = k
    · exact hj ▸ f.revoked_self k
    · exact f.revoked_other hj ▸ h j hj
  rw [Fuses.revoke_eq, if_neg]
  intro hc
  rcases Bool.or_eq_true_iff.mp hc with he | he
  · obtain ⟨j, he⟩ := (Fuses.anyEnrolled_iff _).mp he
    exact absurd ((hall j).symm.trans he) nofun
  · obtain ⟨j, hj, he⟩ := Vector.any_iff_exists.mp he
    exact absurd ((hall ⟨j, hj⟩).symm.trans (eq_of_beq he)) nofun

/-! ### A key command that runs (R62) -/

/-- The fuses as a key command leaves them, with its report and a fresh nonce. -/
def State.keyRun (s : State) (e : Fuses × LoaderRun) : State :=
  ({ s with fuses := e.1, loader := { s.loader with run := some e.2, lastCmdNs := s.timeNs } } : State).freshNonce

/-- What ENROLL makes of the fuses, and what its end will report. -/
def State.enrollEnd (s : State) (x : List Byte) : Fuses × LoaderRun :=
  match s.keyReason 1 x with
  | some r => (s.fuses, ⟨.enroll, .refusedState, r⟩)
  | none =>
    match s.fuses.enroll (Config.sha384 (slice x 0x10 97)) with
    | some f => (f, ⟨.enroll, .done, 0⟩)
    | none => (s.fuses, ⟨.enroll, .refusedState, 0⟩)

/-- What REVOKE makes of the fuses, and what its end will report. -/
def State.revokeEnd (s : State) (x : List Byte) : Fuses × LoaderRun :=
  match s.keyReason 2 x with
  | some r => (s.fuses, ⟨.revoke, .refusedState, r⟩)
  | none =>
    if h : ldNat x 1 1 < 4 then
      match s.fuses.revoke ⟨ldNat x 1 1, h⟩ with
      | some f => (f, ⟨.revoke, .done, 0⟩)
      | none => (s.fuses, ⟨.revoke, .refusedState, 0⟩)
    else (s.fuses, ⟨.revoke, .refusedState, 0x08⟩)

theorem exec_enroll {s : State} {m : Byte} (hrun : s.loader.run = none) (hon : s.power.alwaysOn = true)
    (hready : s.boot.state = .ready) (ho : s.loaderOwner m = true) (src : LoaderPort) (d : List Byte) :
    exec (.enroll src m d) s = .next (s.keyRun (s.enrollEnd (s.loaderData' src d))) := by
  show Host.Outcome.next _ = _
  rw [if_neg (by simp [hrun, hon]), State.loaderStart_runs hrun hon ho]
  dsimp only
  rw [if_neg (by simp [hready])]
  generalize s.loaderData' src d = x
  unfold State.enrollEnd
  cases s.keyReason 1 x with
  | some r => rfl
  | none => cases s.fuses.enroll (Config.sha384 (slice x 0x10 97)) <;> rfl

theorem exec_revoke {s : State} {m : Byte} (hrun : s.loader.run = none) (hon : s.power.alwaysOn = true)
    (hready : s.boot.state = .ready) (ho : s.loaderOwner m = true) (src : LoaderPort) (d : List Byte) :
    exec (.revoke src m d) s = .next (s.keyRun (s.revokeEnd (s.loaderData' src d))) := by
  show Host.Outcome.next _ = _
  rw [if_neg (by simp [hrun, hon]), State.loaderStart_runs hrun hon ho]
  dsimp only
  rw [if_neg (by simp [hready])]
  generalize s.loaderData' src d = x
  unfold State.revokeEnd
  cases s.keyReason 2 x with
  | some r => rfl
  | none =>
    dsimp only
    split
    next h => cases s.fuses.revoke ⟨ldNat x 1 1, h⟩ <;> rfl
    next => rfl

/-- What a key command leaves: all but the fuses, the loader's report and the nonce. -/
theorem State.keyRun_frame {s : State} (hrun : s.loader.run = none) (e : Fuses × LoaderRun) :
    { s.keyRun e with fuses := s.fuses, loader := s.loader, freeCount := s.freeCount } = s ∧
      { (s.keyRun e).loader with run := none, lastCmdNs := s.loader.lastCmdNs, nonce := s.loader.nonce } = s.loader ∧
      (s.keyRun e).loader.lastCmdNs = s.timeNs := by
  refine ⟨rfl, ?_, rfl⟩
  rw [← hrun]
  rfl

theorem State.keyRun_ends {s : State} {e : Fuses × LoaderRun} {f : Fuses} {r : LoaderRun} (h : e = (f, r)) :
    (s.keyRun e).fuses = f ∧ (s.keyRun e).loader.run = some r := by
  subst h
  exact ⟨rfl, rfl⟩

theorem State.enrollEnd_refused {s : State} {x : List Byte} {r : Byte} (h : s.keyReason 1 x = some r) :
    s.enrollEnd x = (s.fuses, ⟨.enroll, .refusedState, r⟩) := by
  unfold State.enrollEnd
  rw [h]

theorem State.enrollEnd_lowest {s : State} {x : List Byte} {k : Fin 4} (h : s.keyReason 1 x = none)
    (hk : s.fuses.keys[k].state = .empty) (hlow : ∀ j : Fin 4, j < k → s.fuses.keys[j].state ≠ .empty) :
    s.enrollEnd x =
      ({ s.fuses with keys := s.fuses.keys.set k ⟨.enrolled, Config.sha384 (slice x 0x10 97)⟩ },
        ⟨.enroll, .done, 0⟩) := by
  unfold State.enrollEnd
  rw [h, Fuses.enroll_lowest _ hk hlow]

theorem State.enrollEnd_full {s : State} {x : List Byte} (h : s.keyReason 1 x = none)
    (hfull : ∀ k : Fin 4, s.fuses.keys[k].state ≠ .empty) :
    s.enrollEnd x = (s.fuses, ⟨.enroll, .refusedState, 0⟩) := by
  unfold State.enrollEnd
  rw [h, Fuses.enroll_full _ hfull]

theorem State.revokeEnd_refused {s : State} {x : List Byte} {r : Byte} (h : s.keyReason 2 x = some r) :
    s.revokeEnd x = (s.fuses, ⟨.revoke, .refusedState, r⟩) := by
  unfold State.revokeEnd
  rw [h]

theorem State.revokeEnd_beyond {s : State} {x : List Byte} (h : s.keyReason 2 x = none) (hk : 4 ≤ ldNat x 1 1) :
    s.revokeEnd x = (s.fuses, ⟨.revoke, .refusedState, 0x08⟩) := by
  unfold State.revokeEnd
  rw [h]
  exact dif_neg (Nat.not_lt.mpr hk)

/-- A record that passes and names slot `k`: the slot is revoked, or the command refused. -/
theorem State.revokeEnd_slot {s : State} {x : List Byte} {k : Fin 4} (h : s.keyReason 2 x = none)
    (hk : ldNat x 1 1 = k.val) :
    s.revokeEnd x = match s.fuses.revoke k with
      | some f => (f, ⟨.revoke, .done, 0⟩)
      | none => (s.fuses, ⟨.revoke, .refusedState, 0⟩) := by
  have hlt : ldNat x 1 1 < 4 := hk ▸ k.isLt
  have hfin : (⟨ldNat x 1 1, hlt⟩ : Fin 4) = k := Fin.ext hk
  unfold State.revokeEnd
  rw [h]
  dsimp only
  rw [dif_pos hlt, hfin]

/-! ### SVN_COMMIT (R60) -/

/-- The fused minimum svn raised to that of the running image. -/
def State.svnRaised (s : State) : State :=
  { s with
    fuses := { s.fuses with minSvn := max s.fuses.minSvn s.image.svn }
    boot := { s.boot with infoMinSvn := max s.fuses.minSvn s.image.svn } }

theorem exec_svnCommit {s : State} {m : Byte} (hrun : s.loader.run = none) (hon : s.power.alwaysOn = true)
    (hready : s.boot.state = .ready) (ho : s.loaderOwner m = true) (src : LoaderPort) :
    exec (.svnCommit src m) s = .next (s.svnRaised.loaderRun .svnCommit .done 0) := by
  show Host.Outcome.next _ = _
  rw [State.loaderStart_runs hrun hon ho, if_pos (beq_iff_eq.mpr hready)]
  rfl

/-- Settles O14: ENROLL and REVOKE are `State.keyRun` of what `State.enrollEnd` and `State.revokeEnd` make of the fuses, which
the key slots decide (R61). -/
theorem ownerKeysAndMinimumSvn : Obligations.OwnerKeysAndMinimumSvn := by
  refine ⟨fun s src m hrun hon hready ho => ⟨_, exec_svnCommit hrun hon hready ho src, rfl, rfl, rfl, rfl⟩,
    fun s src m d hrun hon hready ho => ?_, fun s src m d hrun hon hready ho => ?_⟩
  · obtain ⟨hframe, hloader, htime⟩ := s.keyRun_frame hrun (s.enrollEnd (s.loaderData' src d))
    exact ⟨_, exec_enroll hrun hon hready ho src d, hframe, hloader, htime,
      fun r hr => State.keyRun_ends (State.enrollEnd_refused hr),
      fun hr => ⟨fun k hk hlow => State.keyRun_ends (State.enrollEnd_lowest hr hk hlow),
        fun hfull => State.keyRun_ends (State.enrollEnd_full hr hfull)⟩⟩
  · obtain ⟨hframe, hloader, htime⟩ := s.keyRun_frame hrun (s.revokeEnd (s.loaderData' src d))
    refine ⟨_, exec_revoke hrun hon hready ho src d, hframe, hloader, htime,
      fun r hr => State.keyRun_ends (State.revokeEnd_refused hr), fun hr k hk => ⟨?_, fun hlast => ?_⟩,
      fun hr hk => State.keyRun_ends (State.revokeEnd_beyond hr hk)⟩
    · rintro ⟨j, hj⟩
      have hne : j ≠ k := hj.elim And.left And.left
      refine State.keyRun_ends ((State.revokeEnd_slot hr hk).trans ?_)
      rw [Fuses.revoke_serving hne (hj.imp And.right And.right)]
      rfl
    · refine State.keyRun_ends ((State.revokeEnd_slot hr hk).trans ?_)
      rw [Fuses.revoke_last hlast]

end Sys2Proof.Machine

/-! SUPPORT. Boot (03 R63 to R67; 11 R277): what VERIFY, STRUCTURE, FILL and FILL_COMPLETE leave. -/

namespace Sys2Proof.Machine

/-! ### VERIFY (R64, R67) -/

theorem State.modFault_almanac (s : State) : s.modFault.almanac = s.almanac := by
  unfold State.modFault
  split <;> rfl

theorem State.setBoot_almanac (s : State) (b : BootState) : (s.setBoot b).almanac = s.almanac := by
  unfold State.setBoot
  split <;> rfl

/-- The boot state changed: what reports it, and what of the boot registers starts anew. -/
theorem State.setBoot_of_ne {s : State} {b : BootState} (h : s.boot.state ≠ b) :
    s.setBoot b =
      { s with
        boot := { s.boot with
          state := b, bareCause := if b == .bare then s.boot.bareCause else 0, fillPermille := 0 }
        loader := { s.loader with endedSinceBare := s.loader.endedSinceBare && !(b == .bare) }
        link := { s.link with msi := s.link.msi ++ [(.pf, 0)] } } := by
  unfold State.setBoot
  rw [if_neg (by simp [h])]
  rfl

/-- The registers that say why BARE was entered stay over the entry. -/
theorem State.bare_reject (s : State) (c : BitVec 4) :
    (s.bare c).boot.rejectReason = s.boot.rejectReason ∧ (s.bare c).boot.failSection = s.boot.failSection := by
  unfold State.bare State.setBoot
  split <;> exact ⟨rfl, rfl⟩

theorem exec_bootVerify_failed {s : State} {r x : Byte} (hb : s.boot.state = .verify) (hup : s.boot.railsUp = true)
    (h : s.verifyImage = .error (r, x)) : exec .bootVerify s = .next (s.verifyFailed r x) := by
  show Host.Outcome.next _ = _
  rw [if_pos (by simp [hb, hup]), h]

theorem exec_bootVerify_passed {s : State} {i : DeviceImage} (hb : s.boot.state = .verify) (hup : s.boot.railsUp = true)
    (h : s.verifyImage = .ok i) : exec .bootVerify s = .next ((s.takeImage i).setBoot .structure_) := by
  show Host.Outcome.next _ = _
  rw [if_pos (by simp [hb, hup]), h]

theorem State.verifyFailed_noted (s : State) (r x : Byte) :
    Noted (s.verifyFailed r x) 0x0101 (packDetail [(r.toNat, 1), (x.toNat, 1)]) := by
  unfold Noted State.verifyFailed State.bare
  rw [State.modFault_almanac, State.setBoot_almanac]
  exact State.event_noted ..

theorem State.verifyFailed_boot (s : State) (r x : Byte) :
    (s.verifyFailed r x).boot.state = .bare ∧ (s.verifyFailed r x).boot.bareCause = 3 ∧
      (s.verifyFailed r x).boot.rejectReason = r ∧ (s.verifyFailed r x).boot.failSection = x := by
  unfold State.verifyFailed
  rw [State.modFault_boot]
  exact ⟨State.bare_state .., State.bare_cause .., State.bare_reject _ _⟩

theorem State.verifyFailed_power (s : State) (r x : Byte) :
    (s.verifyFailed r x).power = { s.power with modFault := true } := by
  unfold State.verifyFailed
  rw [State.modFault_power, State.bare_power]
  rfl

theorem State.verifyFailed_bootOnly (s : State) (r x : Byte) : BootOnly s (s.verifyFailed r x) :=
  BootOnly.trans (t := { s with boot := { s.boot with rejectReason := r, failSection := x } }) rfl <|
    ((State.event_bootOnly ..).trans (State.bare_bootOnly ..)).trans (State.modFault_bootOnly _)

/-! ### STRUCTURE (R63) -/

/-- Rounds that each change one bank leave the state with that bank. -/
theorem State.over_put {α β : Type} (get : State → β) (put : State → β → State) (round : State → α → State)
    (heta : ∀ s, put s (get s) = s) (hround : ∀ s x v, put (round s x) v = put s v) (l : List α) (s : State) :
    s.over l round = put s (get (s.over l round)) :=
  (heta _).symm.trans (State.over_keeps (fun st => put st (get (s.over l round))) l round (fun st x => hround st x _) s)

/-- The attachment of one sequencer brought up to date. -/
def State.attachSeq (s st : State) (n : SeqId) : State :=
  st.updSeq n fun q => { q with
    wardMask := s.wardsAttached n
    state := if s.wardsAttached n = 0 then .unattached else if q.state = .unattached then .idle else q.state }

theorem State.attachSeq_self (s st : State) (n : SeqId) :
    (s.attachSeq st n).seqs[n].wardMask = s.wardsAttached n ∧
      ((s.attachSeq st n).seqs[n].state = .unattached ↔ s.wardsAttached n = 0) := by
  simp only [State.attachSeq, Fin.getElem_fin, State.updSeq_seqs, updAt_self, true_and]
  split
  next h => simp [h]
  next => split <;> simp [*]

/-- Every sequencer's attachment, and no more, is brought up to date. -/
theorem State.attachSeqs_spec (s : State) :
    ∃ v, s.attachSeqs = { s with seqs := v } ∧
      ∀ n : SeqId, v[n].wardMask = s.wardsAttached n ∧ (v[n].state = .unattached ↔ s.wardsAttached n = 0) :=
  ⟨s.attachSeqs.seqs,
    State.over_put State.seqs (fun st v => { st with seqs := v }) s.attachSeq (fun _ => rfl) (fun _ _ _ => rfl) (allFin 16) s,
    fun n => State.over_bank_self State.seqs s.attachSeq (fun _ _ _ h => updAt_other _ _ _ _ _ (Fin.val_ne_of_ne h))
      (Q := fun n _ y => y.wardMask = s.wardsAttached n ∧ (y.state = .unattached ↔ s.wardsAttached n = 0))
      s.attachSeq_self (allFin 16) (List.nodup_finRange 16) n (List.mem_finRange n) s⟩

/-- The topology of one core's queue ends shown. -/
def State.showCore (s st : State) (c : CoreId) : State :=
  st.updCore c fun x => { x with queues := Vector.ofFn fun q : Fin 32 => { x.queues[q] with topo := s.topoOf c q.val } }

/-- QTP_ shows the topology of the cores of some wards. -/
theorem State.showTopo_spec (s : State) (wards : Nat) :
    ∃ v, s.showTopo wards = { s with cores := v } ∧
      ∀ (c : CoreId) (q : QId), wards.testBit (c.val / 12) = true → v[c].queues[q].topo = s.topoOf c q.val :=
  ⟨(s.showTopo wards).cores,
    State.over_put State.cores (fun st v => { st with cores := v }) s.showCore (fun _ => rfl) (fun _ _ _ => rfl) _ s,
    fun c q hc => State.over_bank_self State.cores s.showCore (fun _ _ _ h => updAt_other _ _ _ _ _ (Fin.val_ne_of_ne h))
      (Q := fun c _ y => ∀ q : QId, y.queues[q].topo = s.topoOf c q.val) (fun st c q => by simp [State.showCore])
      ((allFin 192).filter fun c => wards.testBit (c.val / 12)) ((List.nodup_finRange 192).filter _) c
      (List.mem_filter.mpr ⟨List.mem_finRange c, hc⟩) s q⟩

/-- The bank of ports, each with the sizes of the torus, which no training changes. -/
def State.portsIn (s : State) : Vector (Port × Vector Nat 3) 6 := s.ports.map fun x => (x, s.image.fabric.dims)

theorem State.portsIn_get (s : State) (n : PortId) : s.portsIn[n] = (s.ports[n], s.image.fabric.dims) := by
  simp [State.portsIn]

/-- A port that STRUCTURE trains, or leaves DOWN where its dimension has size 1. -/
def Port.Trains (x : Port) (size : Nat) : Prop :=
  (size ≤ 1 → x.state = .down ∧ x.cause = 0x07) ∧ (1 < size → x.state = .training)

theorem State.trainPort_self (s : State) (n : PortId) : (s.trainPort n).ports[n].Trains s.image.fabric.dims[portDim n] := by
  simp only [State.trainPort, Fin.getElem_fin, State.updPort_ports, updAt_self]
  refine ⟨fun hd => ?_, fun hd => ?_⟩
  · rw [if_pos hd]
    exact ⟨rfl, rfl⟩
  · rw [if_neg (Nat.not_le.mpr hd)]

/-- Every port trained. -/
def State.trainPorts (s : State) : State := s.over (allFin 6) State.trainPort

theorem State.trainPorts_spec (s : State) :
    ∃ v, s.trainPorts = { s with ports := v } ∧ ∀ n : PortId, v[n].Trains s.image.fabric.dims[portDim n] := by
  refine ⟨s.trainPorts.ports,
    State.over_put State.ports (fun st v => { st with ports := v }) State.trainPort (fun _ => rfl) (fun _ _ _ => rfl) _ s,
    fun n => ?_⟩
  have hother (st : State) (i j : PortId) (h : i ≠ j) : (st.trainPort i).portsIn[j] = st.portsIn[j] := by
    rw [State.portsIn_get, State.portsIn_get]
    exact congrArg (·, st.image.fabric.dims) (updAt_other _ _ _ _ _ (Fin.val_ne_of_ne h))
  have hself (st : State) (i : PortId) : (st.trainPort i).portsIn[i].1.Trains st.portsIn[i].2[portDim i] := by
    rw [State.portsIn_get, State.portsIn_get]
    exact st.trainPort_self i
  have hall := State.over_bank_self State.portsIn State.trainPort hother (Q := fun n x y => y.1.Trains x.2[portDim n]) hself
    (allFin 6) (List.nodup_finRange 6) n (List.mem_finRange n) s
  rw [State.portsIn_get, State.portsIn_get] at hall
  exact hall

/-- Every well trained. -/
def State.trainWells (s : State) : State := s.over (allFin 12) fun s w => s.trainMem (.well w)

/-- A well trains to a rate, a free value (log 7). -/
theorem State.trainWells_spec (s : State) :
    ∃ v k, s.trainWells = { s with wells := v, freeCount := k } ∧
      ∀ w : WellId, 1 ≤ v[w].rate ∧ { v[w] with rate := s.wells[w].rate } = s.wells[w] :=
  ⟨_, _, State.over_put (fun st => (st.wells, st.freeCount)) (fun st v => { st with wells := v.1, freeCount := v.2 })
      (fun s w => s.trainMem (.well w)) (fun _ => rfl) (fun _ _ _ => rfl) (allFin 12) s,
    fun w => State.over_bank_self State.wells (fun s w => s.trainMem (.well w))
      (fun _ _ _ h => updAt_other _ _ _ _ _ (Fin.val_ne_of_ne h))
      (Q := fun _ x y => 1 ≤ y.rate ∧ { y with rate := x.rate } = x)
      (fun st w => by simp [State.trainMem, State.fresh, State.updMem])
      (allFin 12) (List.nodup_finRange 12) w (List.mem_finRange w) s⟩

/-- Every quarter of the Cistern trained. -/
def State.trainQuarters (s : State) : State := s.over (allFin 4) fun s u => s.trainMem (.quarter u)

/-- A quarter trains to a rate, a free value (log 7). -/
theorem State.trainQuarters_spec (s : State) :
    ∃ v k, s.trainQuarters = { s with pumps := v, freeCount := k } ∧
      ∀ u : PumpId, 1 ≤ v[u].mem.rate ∧
        { v[u] with mem := { v[u].mem with rate := s.pumps[u].mem.rate } } = s.pumps[u] :=
  ⟨_, _, State.over_put (fun st => (st.pumps, st.freeCount)) (fun st v => { st with pumps := v.1, freeCount := v.2 })
      (fun s u => s.trainMem (.quarter u)) (fun _ => rfl) (fun _ _ _ => rfl) (allFin 4) s,
    fun u => State.over_bank_self State.pumps (fun s u => s.trainMem (.quarter u))
      (fun _ _ _ h => updAt_other _ _ _ _ _ (Fin.val_ne_of_ne h))
      (Q := fun _ x y => 1 ≤ y.mem.rate ∧ { y with mem := { y.mem with rate := x.mem.rate } } = x)
      (fun st u => by simp [State.trainMem, State.fresh, State.updMem])
      (allFin 4) (List.nodup_finRange 4) u (List.mem_finRange u) s⟩

theorem State.trainCistern_spec (s : State) : ∃ r k, s.trainCistern = { s with cisRate := r, freeCount := k } := ⟨_, _, rfl⟩

/-- The routing table of epoch 0 published. -/
def State.routed (s : State) : State :=
  { s with fabric := { s.fabric with tables := (Vector.replicate 2 []).set 0 s.image.route0 } }

/-- What STRUCTURE applies before it enters FILL. -/
def State.structured (s : State) : State :=
  (s.routed.attachSeqs.showTopo 0xFFFF).trainPorts.trainWells.trainQuarters.trainCistern

theorem exec_bootStructure {s : State} (h : s.boot.state = .structure_) :
    exec .bootStructure s = .next (s.structured.setBoot .fill) :=
  congrArg Host.Outcome.next (if_pos (beq_iff_eq.mpr h))

/-- What STRUCTURE makes of each bank, and that it changes no more. -/
theorem State.structured_spec (s : State) :
    ∃ (seqs : Vector Sequencer 16) (cores : Vector Core 192) (ports : Vector Port 6) (wells : Vector MemCtl 12)
      (pumps : Vector Pump 4) (rate : BitVec 16) (k : Nat),
      s.structured =
        { s.routed with
          seqs := seqs, cores := cores, ports := ports, wells := wells, pumps := pumps, cisRate := rate, freeCount := k } ∧
      (∀ n : SeqId, seqs[n].wardMask = s.wardsAttached n ∧ (seqs[n].state = .unattached ↔ s.wardsAttached n = 0)) ∧
      (∀ (c : CoreId) (q : QId), cores[c].queues[q].topo = s.topoOf c q.val) ∧
      (∀ n : PortId, ports[n].Trains s.image.fabric.dims[portDim n]) ∧
      (∀ w : WellId, 1 ≤ wells[w].rate ∧ { wells[w] with rate := s.wells[w].rate } = s.wells[w]) ∧
      ∀ u : PumpId, 1 ≤ pumps[u].mem.rate ∧
        { pumps[u] with mem := { pumps[u].mem with rate := s.pumps[u].mem.rate } } = s.pumps[u] := by
  obtain ⟨seqs, h1, hseqs⟩ := s.routed.attachSeqs_spec
  obtain ⟨cores, h2, hcores⟩ := State.showTopo_spec { s.routed with seqs := seqs } 0xFFFF
  obtain ⟨ports, h3, hports⟩ := State.trainPorts_spec { s.routed with seqs := seqs, cores := cores }
  obtain ⟨wells, _, h4, hwells⟩ := State.trainWells_spec { s.routed with seqs := seqs, cores := cores, ports := ports }
  obtain ⟨pumps, _, h5, hpumps⟩ := State.trainQuarters_spec
    { s.routed with seqs := seqs, cores := cores, ports := ports, wells := wells, freeCount := _ }
  obtain ⟨rate, k, h6⟩ := State.trainCistern_spec
    { s.routed with seqs := seqs, cores := cores, ports := ports, wells := wells, pumps := pumps, freeCount := _ }
  refine ⟨seqs, cores, ports, wells, pumps, rate, k, ?_, hseqs, fun c q => hcores c q ?_, hports, hwells, hpumps⟩
  · unfold State.structured
    rw [h1, h2, h3, h4, h5, h6]
  · rw [show 0xFFFF = 2 ^ 16 - 1 from rfl, Nat.testBit_two_pow_sub_one]
    exact decide_eq_true (by omega)

/-! ### FILL (R277) -/

theorem Sparse.getD_filter {α : Type} (m : Sparse α) (f : Nat → Bool) (a : Nat) (d : α) :
    Sparse.getD (m.filter fun e => f e.1) a d = if f a then m.getD a d else d := by
  induction m with
  | nil => simp [Sparse.getD]
  | cons e m ih =>
    obtain ⟨b, v⟩ := e
    rw [List.filter_cons]
    by_cases hb : b = a
    · subst hb
      cases hf : f b <;> simp [Sparse.getD, hf, ih]
    · cases f b <;> simp [Sparse.getD, hb, ih]

/-- The flip mask that fires inverts codeword bits, not the bytes stored (R274). -/
theorem MemCtl.fill_data (m : MemCtl) (e a n x : Nat) :
    rd (m.fill e a n).data x = if a ≤ x ∧ x < a + n ∧ m.quarantined x = false then 0 else rd m.data x := by
  have hdata : (m.fill e a n).data =
      m.data.filter fun c => !(decide (a ≤ c.1 ∧ c.1 < a + n) && !m.quarantined c.1) := by
    unfold MemCtl.fill
    dsimp only
    split <;> rfl
  unfold rd
  rw [hdata, Sparse.getD_filter m.data (fun x => !(decide (a ≤ x ∧ x < a + n) && !m.quarantined x)) x (0 : Byte)]
  by_cases hr : a ≤ x ∧ x < a + n
  · obtain ⟨h1, h2⟩ := hr
    cases m.quarantined x <;> simp [h1, h2]
  · have hr' : ¬(a ≤ x ∧ x < a + n ∧ m.quarantined x = false) := fun h => hr ⟨h.1, h.2.1⟩
    simp [hr, hr']

theorem MemCtl.fillAll_filling {m : MemCtl} (e size : Nat) (h : m.state = .filling) :
    m.fillAll e size = { m.fill e 0 size with state := .active } := if_pos h

theorem MemCtl.fillAll_state {m : MemCtl} (e size : Nat) (h : m.state = .filling) : (m.fillAll e size).state = .active := by
  rw [m.fillAll_filling e size h]

theorem MemCtl.fillAll_data {m : MemCtl} (e size x : Nat) (h : m.state = .filling) :
    rd (m.fillAll e size).data x = if x < size ∧ m.quarantined x = false then 0 else rd m.data x := by
  rw [m.fillAll_filling e size h]
  simpa using m.fill_data e 0 size x

theorem State.nextFill_well {s : State} {w : WellId} (h : s.wells[w].state = .filling)
    (hlow : ∀ v : WellId, v < w → s.wells[v].state ≠ .filling) : s.nextFill = some (.well w) := by
  unfold State.nextFill
  rw [find?_allFin (f := fun w => s.wells[w].state == .filling) (beq_iff_eq.mpr h)
    fun v hv => beq_false_of_ne (hlow v hv)]

theorem State.nextFill_quarter {s : State} {u : PumpId} (hw : ∀ w : WellId, s.wells[w].state ≠ .filling)
    (h : s.pumps[u].mem.state = .filling) (hlow : ∀ v : PumpId, v < u → s.pumps[v].mem.state ≠ .filling) :
    s.nextFill = some (.quarter u) := by
  unfold State.nextFill
  rw [find?_allFin_none fun w => beq_false_of_ne (hw w),
    find?_allFin (f := fun u => s.pumps[u].mem.state == .filling) (beq_iff_eq.mpr h)
      fun v hv => beq_false_of_ne (hlow v hv)]
  rfl

theorem State.nextFill_cores {s : State} (hw : ∀ w : WellId, s.wells[w].state ≠ .filling)
    (hu : ∀ u : PumpId, s.pumps[u].mem.state ≠ .filling) : s.nextFill = none := by
  unfold State.nextFill
  rw [find?_allFin_none fun w => beq_false_of_ne (hw w), find?_allFin_none fun u => beq_false_of_ne (hu u)]
  rfl

/-- fill_permille brought up to date. -/
def State.filled (s : State) : State := { s with boot := { s.boot with fillPermille := s.fillProgress } }

theorem exec_bootFill_well {s : State} {w : WellId} (hb : s.boot.state = .fill) (h : s.nextFill = some (.well w)) :
    exec .bootFill s = .next (s.updWell w fun m => m.fillAll s.epoch wellSize).filled := by
  show Host.Outcome.next _ = _
  rw [if_pos (beq_iff_eq.mpr hb), h]
  rfl

/-- A quarter filled, and its packages in service. -/
def State.fillQuarter (s : State) (u : PumpId) : State :=
  { s.updPump u fun x => { x with mem := x.mem.fillAll s.epoch quarterSize } with pkgOk := s.pkgOk ||| pkgsOf u }

theorem exec_bootFill_quarter {s : State} {u : PumpId} (hb : s.boot.state = .fill) (h : s.nextFill = some (.quarter u)) :
    exec .bootFill s = .next (s.fillQuarter u).filled := by
  show Host.Outcome.next _ = _
  rw [if_pos (beq_iff_eq.mpr hb), h]
  rfl

/-- The core memories, accumulator buffers and instruction memories emptied. -/
def State.fillCores (s : State) : State :=
  { s with
    boot := { s.boot with coresFilled := true }
    cores := s.cores.map Core.cleared
    seqs := s.seqs.map fun q => { q with imem := [] } }

theorem exec_bootFill_cores {s : State} (hb : s.boot.state = .fill) (h : s.nextFill = none) :
    exec .bootFill s = .next s.fillCores.filled := by
  show Host.Outcome.next _ = _
  rw [if_pos (beq_iff_eq.mpr hb), h]
  rfl

/-- A core as FILL leaves it: nothing in its memories and queues. -/
theorem Core.cleared_reads (x : Core) :
    (∀ a : Nat, rd x.cleared.mem a = 0 ∧ rd x.cleared.acc a = 0) ∧ x.cleared.k = x.k ∧ x.cleared.ag = x.ag ∧
      ∀ q : QId, x.cleared.queues[q].entries = [] ∧ x.cleared.queues[q].topo = x.queues[q].topo :=
  ⟨fun _ => ⟨rfl, rfl⟩, rfl, rfl, fun q => by simp [Core.cleared]⟩

theorem State.fillCores_core (s : State) (c : CoreId) : s.fillCores.filled.cores[c] = s.cores[c].cleared := by
  simp [State.filled, State.fillCores]

theorem State.fillCores_seq (s : State) (n : SeqId) :
    s.fillCores.filled.seqs[n] = { s.seqs[n] with imem := [] } := by
  simp [State.filled, State.fillCores]

/-! ### READY (R63, R416) -/

/-- READY entered: MOD_FAULT# released, observation begun. -/
def State.madeReady (s : State) : State :=
  { s.setBoot .ready with
    boot := { (s.setBoot .ready).boot with fillPermille := 1000 }
    power := { s.power with modFault := false }
    readyAt := s.timeNs
    parts := s.parts.map fun x => { x with lull := { x.lull with idleSince := s.timeNs } }
    baro := { s.baro with
      evalAt := s.timeNs, marginAt := s.timeNs, parts := Vector.ofFn fun i : Fin 26 => { out := decide (20 ≤ i.val) } } }

theorem exec_fillComplete {s : State} (hb : s.boot.state = .fill) (hc : s.boot.coresFilled = true)
    (hw : ∀ w : WellId, s.wells[w].state ≠ .filling) (hu : ∀ u : PumpId, s.pumps[u].mem.state ≠ .filling) :
    exec .fillComplete s = .next s.madeReady := by
  have hwells : s.wells.all (fun m => m.state != .filling) = true :=
    Vector.all_eq_true.mpr fun i hi => bne_iff_ne.mpr (hw ⟨i, hi⟩)
  have hpumps : s.pumps.all (fun x => x.mem.state != .filling) = true :=
    Vector.all_eq_true.mpr fun i hi => bne_iff_ne.mpr (hu ⟨i, hi⟩)
  show Host.Outcome.next _ = _
  rw [if_pos (by rw [hb, hc, hwells, hpumps]; rfl)]
  unfold State.madeReady
  rw [State.setBoot_of_ne (b := .ready) (by rw [hb]; exact nofun)]

theorem State.madeReady_frame (s : State) :
    { s.madeReady with
      parts := s.parts, boot := s.boot, power := s.power, readyAt := s.readyAt, baro := s.baro, link := s.link
      loader := s.loader } = s := by
  unfold State.madeReady State.setBoot
  split <;> rfl

theorem State.madeReady_part (s : State) (p : PartId) :
    s.madeReady.parts[p] = { s.parts[p] with lull := { s.parts[p].lull with idleSince := s.timeNs } } := by
  simp [State.madeReady]

theorem State.madeReady_baro (s : State) (b : Fin 26) :
    s.madeReady.baro.parts[b].out = decide (20 ≤ b.val) ∧ s.madeReady.baro.parts[b].evals = 0 := by
  simp [State.madeReady]

/-- Settles O12: VERIFY ends in `State.verifyFailed` or takes the image; STRUCTURE is `State.structured`; FILL empties the unit
that `State.nextFill` names, until none is left; FILL_COMPLETE is `State.madeReady`. -/
theorem bootRunsVerifyStructureFillReady : Obligations.BootRunsVerifyStructureFillReady := by
  refine ⟨fun s r x hb hup hv => ?_, fun s i hb hup hv => ?_, fun s hb => ?_, fun s hb hw hu => ?_,
    fun s w hb h hlow => ?_, fun s u hb h hw hlow => ?_, fun s hb hc hw hu => ?_⟩
  · obtain ⟨hbare, hcause, hr, hx⟩ := s.verifyFailed_boot r x
    exact ⟨_, exec_bootVerify_failed hb hup hv, hbare, hcause, hr, hx, s.verifyFailed_power r x, s.verifyFailed_noted r x,
      s.verifyFailed_bootOnly r x⟩
  · refine ⟨_, exec_bootVerify_passed hb hup hv, ?_⟩
    rw [State.setBoot_of_ne (by rw [show (s.takeImage i).boot.state = s.boot.state from rfl, hb]; exact nofun)]
    exact ⟨rfl, rfl, rfl, rfl, rfl, rfl, rfl, rfl, rfl⟩
  · obtain ⟨seqs, cores, ports, wells, pumps, rate, k, h, hseqs, hcores, hports, hwells, hpumps⟩ := s.structured_spec
    refine ⟨_, exec_bootStructure hb, ?_⟩
    rw [State.setBoot_of_ne (by rw [h, show s.routed.boot.state = s.boot.state from rfl, hb]; exact nofun), h]
    exact ⟨rfl, rfl, hseqs, hcores, hports, hwells, hpumps, rfl⟩
  · have hcore (c : CoreId) := Core.cleared_reads s.cores[c]
    refine ⟨_, exec_bootFill_cores hb (State.nextFill_cores hw hu), rfl, fun c a => ?_, fun c => ?_, fun n i => ?_, rfl,
      rfl⟩
    · rw [s.fillCores_core]
      exact (hcore c).1 a
    · rw [s.fillCores_core]
      exact (hcore c).2
    · rw [s.fillCores_seq]
      exact ⟨rfl, rfl⟩
  · have hwell :
        (s.updWell w fun m => m.fillAll s.epoch wellSize).filled.wells[w] = s.wells[w].fillAll s.epoch wellSize :=
      updAt_self s.wells w _
    refine ⟨_, exec_bootFill_well hb (State.nextFill_well h hlow), ?_, fun a hq ha => ?_, fun a ha => ?_,
      fun v hv => updAt_other _ _ _ _ _ (Fin.val_ne_of_ne hv.symm), rfl, rfl⟩
    · rw [hwell]
      exact MemCtl.fillAll_state _ _ h
    · rw [hwell, MemCtl.fillAll_data _ _ _ h, if_pos ⟨ha, hq⟩]
    · rw [hwell, MemCtl.fillAll_data _ _ _ h, if_neg]
      rintro ⟨hlt, hq⟩
      rcases ha with ha | ha
      · exact absurd hlt (Nat.not_lt.mpr ha)
      · exact Bool.false_ne_true (hq.symm.trans ha)
  · have hpump : (s.fillQuarter u).filled.pumps[u].mem = s.pumps[u].mem.fillAll s.epoch quarterSize :=
      congrArg Pump.mem (updAt_self s.pumps u _)
    refine ⟨_, exec_bootFill_quarter hb (State.nextFill_quarter hw h hlow), ?_, fun a hq ha => ?_,
      fun v hv => updAt_other _ _ _ _ _ (Fin.val_ne_of_ne hv.symm), rfl, rfl, rfl⟩
    · rw [hpump]
      exact MemCtl.fillAll_state _ _ h
    · rw [hpump, MemCtl.fillAll_data _ _ _ h, if_pos ⟨ha, hq⟩]
  · exact ⟨_, exec_fillComplete hb hc hw hu, s.setBoot_state .ready, rfl, rfl, rfl, s.madeReady_baro, rfl,
      s.madeReady_part, s.madeReady_frame⟩

end Sys2Proof.Machine

/-! SUPPORT. Image commands of a partition (03 R73, R77; 04 R125): DISCARD in STAGED, and STAGE of a STOPPED partition
whose waiting capsules are refused first. -/

namespace Sys2Proof.Machine

/-- The image command register of a partition is served by a device that is READY (R65). -/
theorem State.served_imageCtrl {s : State} (h : Ready s) (p : PartId) : s.served (prtOffset p 0x108) = true := by
  obtain ⟨hon, hready, hrun⟩ := h
  have hb : ∀ q : PartId, blockOf (prtOffset q 0x108) = .prt q 0x108 := by decide
  simp [State.served, hb, hon, hready, hrun]

theorem exec_discard {s : State} (h : Ready s) (p : PartId) : exec (.discard p) s = .next (s.discard p) :=
  congrArg Host.Outcome.next (if_pos (s.served_imageCtrl h p))

theorem State.imgDone_state (s : State) (p q : PartId) (cmd : BitVec 2) (o : OutcomeCode) (reason : Byte) :
    (s.imgDone p cmd o reason).parts[q].state = s.parts[q].state :=
  updAt_keeps Partition.state s.parts p q (by intro _; rfl)

/-- STAGED left for another state: no flip mask rests on it, as one may on QUIESCED (R273). -/
theorem State.setPart_of_staged {s : State} {p : PartId} {st : PartState} (h : s.parts[p].state = .staged)
    (hst : st ≠ .staged) :
    s.setPart p st = ((s.updPart p fun x => { x with state := st }).msi .pf (32 + p.val)).msi (.vf p) 1 := by
  unfold State.setPart
  rw [h, if_neg (by simpa using hst.symm), if_neg (by simp)]

/-- A partition's image given up. -/
def State.discardImage (s : State) (p : PartId) : State :=
  s.updPart p fun x => { x with im := { x.im with img := {}, build := 0, measure := 0 } }

/-- A STAGED partition after DISCARD. -/
def Partition.discarded (x : Partition) : Partition :=
  { x with
    state := .empty
    im := { x.im with
      img := {}, build := 0, measure := 0, busy := none, lastCmd := 3, outcome := 0, reason := 0 } }

theorem State.discard_staged {s : State} {p : PartId} (hst : s.parts[p].state = .staged) (hb : s.parts[p].im.busy = none) :
    s.discard p =
      { s with
        parts := updAt s.parts p Partition.discarded
        link := { s.link with msi := s.link.msi ++ [(.vf p, 3), (.pf, 32 + p.val), (.vf p, 1)] } } := by
  have himg : (s.discardImage p).parts[p].state = .staged :=
    (updAt_keeps Partition.state s.parts p p (by intro _; rfl)).trans hst
  have hdone : s.discard p = ((s.discardImage p).imgDone p 3 .done 0).setPart p .empty := by
    unfold State.discard
    dsimp only
    rw [hb, hst, if_neg (by simp), if_neg (by simp)]
    rfl
  rw [hdone, State.setPart_of_staged (st := .empty) ((State.imgDone_state ..).trans himg) nofun]
  simp only [State.discardImage, State.imgDone, State.msi, State.updPart, updAt_twice, List.append_assoc, List.cons_append,
    List.nil_append]
  rfl

/-- Settles O15: `Partition.discarded`, with the vector of the command's end before those of the state change (R77, R125). -/
theorem discardReturnsAStagedPartitionToEmpty : Obligations.DiscardReturnsAStagedPartitionToEmpty := by
  intro s p hready hst hb
  rw [exec_discard hready, State.discard_staged hst hb]
  refine ⟨_, rfl, fun q hq => updAt_other _ _ _ _ _ (Fin.val_ne_of_ne hq.symm), ?_, rfl, rfl⟩
  refine (updAt_self s.parts p Partition.discarded).trans ?_
  unfold Partition.discarded
  dsimp only
  rw [← hb]
  rfl

/-! ### STAGE of a STOPPED partition (R73) -/

/-- A READY device whose partition 0 is STOPPED: one capsule still waits, its completion ring lies at bus address 0, and so
does the image to be staged, of one byte. -/
def stageOverRing : State :=
  { State.reset with
    power := { State.reset.power with alwaysOn := true }
    boot := { State.reset.boot with state := .ready }
    parts := State.reset.parts.set 0 {
      state := .stopped, im := { length := 1 }, cq := { enable := true }
      caps := { queue := [
        { seq := 1, kind := 0, target := 0, flags := 0, tag := 0x55, step := 0, params := [], body := [] }] } } }

/-- The bytes read are those from before the record of the refused capsule. -/
theorem stageOverRing_reads :
    let t := Outcome.state (exec (.stage 0) stageOverRing) stageOverRing
    t.parts[(0 : PartId)].im.bytes = [] ∧ t.dma 0 1 = [(0, 0x55)] := by
  decide +kernel

/-- Refutes O16: its clause of STAGE asks that the image bytes are those that host memory holds after the command. The model
reads them from host memory as the command finds it; in STOPPED it then refuses the waiting capsules, whose records go to the
completion ring. Where that ring lies in the image's range, as in `stageOverRing`, the two differ, and no condition keeps them
apart. -/
theorem not_imagesAreStagedCheckedAndCommitted : ¬ Obligations.ImagesAreStagedCheckedAndCommitted := by
  rintro ⟨hstage, -⟩
  obtain ⟨hbytes, hdma⟩ := stageOverRing_reads
  obtain ⟨t, ht, -, -, -, -, -, hread, -⟩ := hstage stageOverRing 0 (by unfold Ready; decide +kernel) (.inr rfl)
    (by decide +kernel) rfl (fun _ => by decide +kernel)
  rw [ht] at hbytes hdma
  exact absurd ((hbytes.symm.trans hread).trans hdma) nofun

end Sys2Proof.Machine

/-! SUPPORT. What the report of a refused or ignored write leaves (04 R97). -/

namespace Sys2Proof.Machine

open Host

/-- What a refusal report leaves of a partition's run control. -/
def PRun.unrefused (r x : PRun) : PRun :=
  { x with refOffset := r.refOffset, refOutcome := r.refOutcome, refMaster := r.refMaster, refStale := r.refStale
           refCount := r.refCount }

/-- What a refusal report leaves of a partition. -/
def Partition.unrefused (r : PRun) (x : Partition) : Partition × PRun := ({ x with run := r }, r.unrefused x.run)

/-- PRT_REFUSAL of one partition set. -/
def State.refuse (s : State) (p : PartId) (off : W32) (o m : Byte) (stale : Bool) : State :=
  s.updPart p fun x => { x with run := { x.run with
    refOffset := off, refOutcome := o, refMaster := m, refStale := stale, refCount := satAdd 15 x.run.refCount 1 } }

theorem State.refuse_unrefused (s : State) (p : PartId) (off : W32) (o m : Byte) (stale : Bool) (r : PRun) (q : PartId) :
    (s.refuse p off o m stale).parts[q].unrefused r = s.parts[q].unrefused r :=
  updAt_keeps (Partition.unrefused r) s.parts p q fun _ => rfl

/-- The control registers after a report. -/
def Control.reported (c : Control) (m : Byte) (off : Nat) (o : OutcomeCode) (stale : Bool) : Control :=
  { c with
    refusalOffset := BitVec.ofNat 32 off, refusalOutcome := BitVec.ofNat 8 o.code, refusalMaster := m
    refusalStale := stale, refusalCount := c.refusalCount + 1 }

/-- A report is one Almanac event over the registers of R97 and PRT_REFUSAL of some partitions. -/
theorem State.report_eq (s : State) (m : Byte) (off : Nat) (o : OutcomeCode) (stale : Bool) (w : Option PartId) :
    ∃ v pb, (∀ (r : PRun) (p : PartId), v[p].unrefused r = s.parts[p].unrefused r) ∧
      s.report m off o stale w = ({ s with ctl := s.ctl.reported m off o stale, parts := v } : State).event 0x0301 unitNone pb
        sevInfo 0 (packDetail [(((off % 4294967296) <<< 32) + (o.code <<< 24) + (m.toNat <<< 16) + stale.toNat, 8)]) := by
  have hkeep (t : State) (p : PartId) (r : PRun) (q : PartId) :=
    t.refuse_unrefused p (BitVec.ofNat 32 off) (BitVec.ofNat 8 o.code) m stale r q
  unfold State.report
  dsimp only
  generalize (if 0x10 ≤ m.toNat ∧ m.toNat < 0x20 then some (partOf (m.toNat - 0x10)) else none) = vf
  cases vf with
  | none =>
    cases w with
    | none => exact ⟨_, _, fun _ _ => rfl, rfl⟩
    | some p => exact ⟨_, _, hkeep s p, rfl⟩
  | some q =>
    cases w with
    | none => exact ⟨_, _, hkeep s q, rfl⟩
    | some p =>
      dsimp only
      by_cases h : some q = some p
      · rw [if_pos h]
        exact ⟨_, _, hkeep s q, rfl⟩
      · rw [if_neg h]
        exact ⟨_, _, fun r i => (hkeep _ p r i).trans (hkeep s q r i), rfl⟩

theorem State.report_refused (s : State) (m : Byte) (off : Nat) (o : OutcomeCode) (stale : Bool) (w : Option PartId) :
    Refused m off o stale s (s.report m off o stale w) := by
  obtain ⟨v, pb, hv, e⟩ := s.report_eq m off o stale w
  rw [e]
  refine ⟨rfl, State.event_noted .., fun p => ?_, rfl⟩
  have h := hv s.parts[p].run p
  exact ⟨congrArg Prod.fst h, congrArg Prod.snd h⟩

@[simp] theorem State.report_host (s : State) (m : Byte) (off : Nat) (o : OutcomeCode) (stale : Bool) (w : Option PartId) :
    (s.report m off o stale w).host = s.host := by
  obtain ⟨v, pb, -, e⟩ := s.report_eq m off o stale w
  rw [e]
  rfl

end Sys2Proof.Machine

/-! SUPPORT. Metering (04 R104 to R109): how the energy of an interval is divided, and what one usage record changes. -/

namespace Sys2Proof.Machine

open Host

/-! ### The division of an energy (R106, R107) -/

theorem allot_keys (f : PartId → Nat) (l : List PartId) (r : Nat) : (allot f l r).1.map Prod.fst = l := by
  induction l generalizing r with
  | nil => rfl
  | cons p l ih => exact congrArg (p :: ·) (ih _)

/-- What the accounts get and the rest make up the whole. -/
theorem allot_sum (f : PartId → Nat) (l : List PartId) (r : Nat) :
    ((allot f l r).1.map Prod.snd).sum + (allot f l r).2 = r := by
  induction l generalizing r with
  | nil => exact Nat.zero_add r
  | cons p l ih =>
    have h := ih (r - min (f p) r)
    simp only [allot, List.map_cons, List.sum_cons]
    omega

theorem allot_le (f : PartId → Nat) (l : List PartId) (r : Nat) : ∀ x ∈ (allot f l r).1, x.2 ≤ f x.1 := by
  induction l generalizing r with
  | nil => exact nofun
  | cons p l ih =>
    intro x hx
    obtain rfl | hx := List.mem_cons.mp hx
    · exact min_le_left ..
    · exact ih _ x hx

/-! ### One energy counter raised (R104, R105) -/

/-- The energy counter of a partition. -/
def Partition.energy (x : Partition) : Nat := x.meter.counters[mEnergy]

/-- A partition charged with an energy: only a metered one counts it. -/
def Partition.charged (x : Partition) (n : Nat) : Partition :=
  if x.meter.metered then { x with meter := { x.meter with counters := updAt x.meter.counters mEnergy (· + n) } } else x

/-- An account charged. -/
def State.charge (s : State) (x : PartId × Nat) : State := s.meter x.1 mEnergy x.2

theorem State.charge_eq (s : State) (x : PartId × Nat) : s.charge x = s.updPart x.1 (·.charged x.2) := by
  unfold State.charge State.meter Partition.charged
  simp only [State.iff, beq_self_eq_true, Bool.or_true, Bool.and_true, show (mEnergy == mHost) = false from rfl,
    Bool.false_eq_true, if_false]

theorem Partition.charged_unmetered {x : Partition} (h : x.meter.metered = false) (n : Nat) : x.charged n = x :=
  if_neg (by simp [h])

theorem Partition.charged_energy {x : Partition} {n : Nat} (h : x.meter.metered = false → n = 0) :
    (x.charged n).energy = x.energy + n := by
  unfold Partition.charged
  split
  · exact updAt_self x.meter.counters mEnergy _
  next hm => rw [h (by simpa using hm), Nat.add_zero]

theorem Partition.charged_counter (x : Partition) (n : Nat) {k : Fin 14} (h : k ≠ mEnergy) :
    (x.charged n).meter.counters[k] = x.meter.counters[k] := by
  unfold Partition.charged
  split
  · exact updAt_other _ _ _ _ _ (Fin.val_ne_of_ne h.symm)
  · rfl

theorem Partition.charged_frame (x : Partition) (n : Nat) :
    { x.charged n with meter := { (x.charged n).meter with counters := x.meter.counters } } = x := by
  unfold Partition.charged
  split <;> rfl

/-! ### Every account charged -/

theorem State.charges_other (l : List (PartId × Nat)) {p : PartId} (h : p ∉ l.map Prod.fst) (s : State) :
    (s.over l State.charge).parts[p] = s.parts[p] := by
  induction l generalizing s with
  | nil => rfl
  | cons x l ih =>
    rw [List.map_cons, List.mem_cons, not_or] at h
    rw [State.over_cons, ih h.2, State.charge_eq]
    exact updAt_other _ _ _ _ _ (Fin.val_ne_of_ne (Ne.symm h.1))

/-- Each account is charged once, with its own part. -/
theorem State.charges_self (l : List (PartId × Nat)) (hl : (l.map Prod.fst).Nodup) {x : PartId × Nat} (h : x ∈ l)
    (s : State) : (s.over l State.charge).parts[x.1] = s.parts[x.1].charged x.2 := by
  induction l generalizing s with
  | nil => exact absurd h List.not_mem_nil
  | cons y l ih =>
    obtain ⟨hy, hl⟩ := List.nodup_cons.mp hl
    rw [State.over_cons]
    obtain rfl | h := List.mem_cons.mp h
    · rw [State.charges_other l hy, State.charge_eq]
      exact updAt_self s.parts x.1 _
    · have hne : y.1 ≠ x.1 := fun e => hy (e ▸ List.mem_map_of_mem h)
      rw [ih hl h, State.charge_eq]
      exact congrArg (Partition.charged · x.2) (updAt_other _ _ _ _ _ (Fin.val_ne_of_ne hne))

theorem State.charges_frame (l : List (PartId × Nat)) (s : State) : { s.over l State.charge with parts := s.parts } = s :=
  State.over_keeps (fun st => { st with parts := s.parts }) l State.charge (fun st x => by rw [State.charge_eq]; rfl) s

/-! ### METER_INTERVAL -/

/-- Accounts charged, each with its part, the device account with the rest; the activity of the interval is forgotten. -/
def State.charged (s : State) (l : List (PartId × Nat)) (rest : Nat) : State :=
  { s.over l State.charge with devEnergy := s.devEnergy + rest, acts := [] }

theorem State.charged_frame (s : State) (l : List (PartId × Nat)) (rest : Nat) :
    { s.charged l rest with parts := s.parts, devEnergy := s.devEnergy, acts := s.acts } = s :=
  congrArg (fun st : State => { st with devEnergy := s.devEnergy, acts := s.acts }) (s.charges_frame l)

theorem State.charged_parts (s : State) (l : List (PartId × Nat)) (rest : Nat) :
    (s.charged l rest).parts = (s.over l State.charge).parts := rfl

/-- Accounts of which only metered ones get anything are charged with what they get. -/
theorem State.charged_sum (s : State) {l : List (PartId × Nat)} (hl : (l.map Prod.fst).Nodup)
    (h0 : ∀ x ∈ l, s.parts[x.1].meter.metered = false → x.2 = 0) (rest : Nat) :
    ((l.map Prod.fst).map fun p => (s.charged l rest).parts[p].energy).sum =
      ((l.map Prod.fst).map fun p => s.parts[p].energy).sum + (l.map Prod.snd).sum := by
  have hcharged : ∀ x ∈ l, (s.charged l rest).parts[x.1].energy = s.parts[x.1].energy + x.2 := fun x hx => by
    rw [State.charged_parts, State.charges_self l hl hx]
    exact Partition.charged_energy (h0 x hx)
  rw [List.map_map, List.map_map, ← List.sum_map_add]
  exact congrArg List.sum (List.map_congr_left hcharged)

/-- The accounts of an interval, each with its part, and what the device account takes. -/
def State.accounts (s : State) (e : EnergyReading) : List (PartId × Nat) × Nat := allot (s.partEnergy e) (allFin 16) e.input

theorem State.accounts_keys (s : State) (e : EnergyReading) : (s.accounts e).1.map Prod.fst = allFin 16 := by
  unfold State.accounts
  exact allot_keys ..

theorem State.accounts_nodup (s : State) (e : EnergyReading) : ((s.accounts e).1.map Prod.fst).Nodup := by
  rw [State.accounts_keys]
  unfold allFin
  exact List.nodup_finRange 16

theorem State.accounts_sum (s : State) (e : EnergyReading) :
    ((s.accounts e).1.map Prod.snd).sum + (s.accounts e).2 = e.input := by
  unfold State.accounts
  exact allot_sum ..

theorem State.accounts_le {s : State} {e : EnergyReading} {x : PartId × Nat} (h : x ∈ (s.accounts e).1) :
    x.2 ≤ s.partEnergy e x.1 := by
  unfold State.accounts at h
  exact allot_le _ _ _ x h

theorem State.partEnergy_unmetered {s : State} {p : PartId} (h : s.parts[p].meter.metered = false) (e : EnergyReading) :
    s.partEnergy e p = 0 := by
  unfold State.partEnergy
  exact if_neg fun hm => Bool.false_ne_true (h.symm.trans hm.1)

theorem State.accounts_unmetered {s : State} {e : EnergyReading} {x : PartId × Nat} (h : x ∈ (s.accounts e).1)
    (hm : s.parts[x.1].meter.metered = false) : x.2 = 0 :=
  Nat.le_zero.mp ((State.accounts_le h).trans_eq (State.partEnergy_unmetered hm e))

theorem exec_meterInterval (s : State) (e : EnergyReading) :
    exec (.meterInterval e) s = .next (s.charged (s.accounts e).1 (s.accounts e).2) := by
  have hdev (l : List (PartId × Nat)) : (s.over l State.charge).devEnergy = s.devEnergy := by
    have h := congrArg State.devEnergy (s.charges_frame l)
    exact h
  show execMeterInterval e s = _
  unfold execMeterInterval State.charged State.accounts
  generalize allot (s.partEnergy e) (allFin 16) e.input = a
  obtain ⟨l, rest⟩ := a
  rw [← hdev l]
  rfl

/-- Every partition has one account, which gets no more than its share. -/
theorem State.accounts_part (s : State) (e : EnergyReading) (p : PartId) :
    ∃ n, (p, n) ∈ (s.accounts e).1 ∧ n ≤ s.partEnergy e p := by
  have hp : p ∈ (s.accounts e).1.map Prod.fst := by
    rw [State.accounts_keys]
    unfold allFin
    exact List.mem_finRange p
  obtain ⟨⟨q, n⟩, hx, rfl⟩ := List.mem_map.mp hp
  exact ⟨n, hx, State.accounts_le hx⟩

theorem State.meterInterval_adds_up (s : State) (e : EnergyReading) :
    ((allFin 16).map fun p : PartId => (s.charged (s.accounts e).1 (s.accounts e).2).parts[p].energy).sum +
        (s.charged (s.accounts e).1 (s.accounts e).2).devEnergy =
      ((allFin 16).map fun p : PartId => s.parts[p].energy).sum + s.devEnergy + e.input := by
  have hsum := s.charged_sum (s.accounts_nodup e) (fun _ => State.accounts_unmetered) (s.accounts e).2
  rw [State.accounts_keys] at hsum
  have hrest := s.accounts_sum e
  generalize s.accounts e = a at hsum hrest ⊢
  have hdev : (s.charged a.1 a.2).devEnergy = s.devEnergy + a.2 := rfl
  omega

/-- What an interval does to one partition. -/
theorem State.meterInterval_part (s : State) (e : EnergyReading) (p : PartId) :
    ∃ n ≤ s.partEnergy e p, (s.parts[p].meter.metered = false → n = 0) ∧
      (s.charged (s.accounts e).1 (s.accounts e).2).parts[p] = s.parts[p].charged n := by
  obtain ⟨n, hmem, hle⟩ := s.accounts_part e p
  refine ⟨n, hle, State.accounts_unmetered hmem, ?_⟩
  rw [State.charged_parts, State.charges_self _ (s.accounts_nodup e) hmem]

/-! ### One usage record (R108, R109) -/

/-- A usage record numbered. -/
def PMeter.numbered (m : PMeter) : PMeter := { m with nextSeq := m.nextSeq + 1, skipped := false }

/-- The metering of a partition changed. -/
def State.updMeter (s : State) (p : PartId) (f : PMeter → PMeter) : State :=
  s.updPart p fun x => { x with meter := f x.meter }

theorem State.updMeter_meter (s : State) (p : PartId) (f : PMeter → PMeter) :
    (s.updMeter p f).parts[p].meter = f s.parts[p].meter :=
  congrArg Partition.meter (updAt_self s.parts p _)

theorem State.updMeter_updMeter (s : State) (p : PartId) (f g : PMeter → PMeter) :
    (s.updMeter p f).updMeter p g = s.updMeter p fun m => g (f m) := by
  unfold State.updMeter State.updPart
  rw [updAt_twice]

theorem State.updMeter_id (s : State) (p : PartId) : s.updMeter p id = s := by
  have h : updAt s.parts p (fun x => { x with meter := id x.meter }) = s.parts := Vector.set_getElem_self p.isLt
  exact congrArg (fun v => { s with parts := v }) h

/-- The state with a usage record at the ring's head. -/
def State.ringUsage (s : State) (p : PartId) (u : UsageRecord) : State :=
  let m := s.parts[p].meter
  { s.updMeter p fun m => { m.numbered with head := (m.head + 1) % m.size } with
    host := wrL s.host (m.base.toNat * 4096 + 256 * m.head) u.bytes
    link := { s.link with msi := s.link.msi ++ [(.pf, 1)] } }

theorem State.ringUsage_host (s : State) (p : PartId) (u : UsageRecord) :
    (s.ringUsage p u).host = wrL s.host (s.parts[p].meter.base.toNat * 4096 + 256 * s.parts[p].meter.head) u.bytes := by
  dsimp only [State.ringUsage]

/-- A record taken is written where the ring has room and none is held, and held elsewhere; an unmetered partition takes
none. -/
theorem State.usage_eq (s : State) (p : PartId) (reason : Nat) :
    let m := s.parts[p].meter
    s.usage p reason =
      if m.metered then
        if m.room = true ∧ m.held = [] then s.ringUsage p (s.takeUsage p reason)
        else s.updMeter p fun m => { m.numbered with held := m.held ++ [s.takeUsage p reason] }
      else s := by
  have hn : s.updPart p (fun x => { x with meter := { x.meter with nextSeq := x.meter.nextSeq + 1, skipped := false } }) =
    s.updMeter p PMeter.numbered := rfl
  unfold State.usage
  dsimp only
  rw [hn, State.updMeter_meter]
  generalize s.takeUsage p reason = u
  refine if_congr Iff.rfl (if_congr ?_ ?_ ?_) rfl
  · rw [Bool.and_eq_true, List.isEmpty_iff]
    rfl
  · unfold State.writeUsage State.ringUsage State.updMeter State.updPart State.msi
    simp only [updAt_twice, updAt_self, Fin.getElem_fin]
    rfl
  · exact State.updMeter_updMeter s p PMeter.numbered fun m => { m with held := m.held ++ [u] }

/-- A usage record changes the metering of its partition, host memory and the interrupts raised. -/
theorem State.usage_puts (s : State) (p : PartId) (reason : Nat) :
    ∃ f h v, s.usage p reason = { s.updMeter p f with host := h, link := { s.link with msi := v } } := by
  rw [State.usage_eq]
  dsimp only
  split
  · split
    · exact ⟨_, _, _, rfl⟩
    · exact ⟨fun m => { m.numbered with held := m.held ++ [s.takeUsage p reason] }, s.host, s.link.msi, rfl⟩
  · exact ⟨id, s.host, s.link.msi, (s.updMeter_id p).symm⟩

theorem State.usage_taken (s : State) (p : PartId) (reason : Nat) :
    UsageTaken p (s.takeUsage p reason) s (s.usage p reason) (s.usage p reason).parts[p].meter := by
  rw [State.usage_eq]
  generalize s.takeUsage p reason = u
  unfold UsageTaken
  dsimp only
  split
  next hm =>
    refine ⟨fun h => absurd (h.symm.trans hm) nofun, ?_⟩
    split
    next hr =>
      exact ⟨fun _ _ => ⟨State.ringUsage_host s p u,
        State.updMeter_meter s p fun m => { m.numbered with head := (m.head + 1) % m.size }⟩, fun _ h => absurd hr h⟩
    next hr =>
      exact ⟨fun _ h => absurd h hr, fun _ _ => ⟨rfl,
        State.updMeter_meter s p fun m => { m.numbered with held := m.held ++ [u] }⟩⟩
  next hm => exact ⟨fun _ => ⟨rfl, rfl⟩, fun h => absurd h hm, fun h => absurd h hm⟩

theorem State.usage_onlyPart (s : State) (p : PartId) (reason : Nat) : OnlyPart p s (s.usage p reason) := by
  obtain ⟨f, h, v, e⟩ := s.usage_puts p reason
  rw [e]
  exact fun q hq => updAt_other _ _ _ _ _ (Fin.val_ne_of_ne hq.symm)

/-- Of a partition, a usage record changes the metering alone. -/
theorem State.usage_part (s : State) (p : PartId) (reason : Nat) (m : PMeter) :
    { (s.usage p reason).parts[p] with meter := m } = { s.parts[p] with meter := m } := by
  obtain ⟨f, h, v, e⟩ := s.usage_puts p reason
  rw [e]
  exact congrArg (fun x : Partition => { x with meter := m }) (updAt_self s.parts p _)

theorem State.usage_frame (s : State) (p : PartId) (reason : Nat) :
    { s.usage p reason with
      parts := s.parts, host := s.host, link := { (s.usage p reason).link with msi := s.link.msi } } = s := by
  obtain ⟨f, h, v, e⟩ := s.usage_puts p reason
  rw [e]
  rfl

/-! ### USAGE_RECORD_PERIODIC (R108, R109) -/

/-- The time of the next periodic record set. -/
def State.nextPeriodic (s : State) (p : PartId) : State :=
  s.updMeter p fun m => { m with lastPeriodic := m.lastPeriodic + 1000000 * m.periodMs.toNat }

/-- Is a periodic record due? -/
def PMeter.Due (m : PMeter) (now : Nat) : Prop :=
  m.metered = true ∧ m.periodMs ≠ 0 ∧ m.lastPeriodic + 1000000 * m.periodMs.toNat ≤ now

/-- May a periodic record be taken: into the ring, or held where there is none? -/
def PMeter.Takes (m : PMeter) : Prop := if m.enable then m.room = true ∧ m.held = [] else m.held.length < 64

theorem exec_usageRecordPeriodic_early {s : State} {p : PartId} {at_ : Nat}
    (h : ¬(s.advanceTo at_).parts[p].meter.Due (s.advanceTo at_).timeNs) :
    exec (.usageRecordPeriodic p at_) s = .next (s.advanceTo at_) :=
  congrArg Outcome.next (if_neg fun hd => h (by simpa [PMeter.Due, and_assoc] using hd))

theorem exec_usageRecordPeriodic_due {s : State} {p : PartId} {at_ : Nat}
    (h : (s.advanceTo at_).parts[p].meter.Due (s.advanceTo at_).timeNs) :
    let s2 := (s.advanceTo at_).nextPeriodic p
    ((s.advanceTo at_).parts[p].meter.Takes → exec (.usageRecordPeriodic p at_) s = .next (s2.usage p 1)) ∧
      (¬(s.advanceTo at_).parts[p].meter.Takes →
        exec (.usageRecordPeriodic p at_) s = .next (s2.updMeter p fun m => { m with skipped := true })) := by
  show (_ → execUsageRecordPeriodic p at_ s = _) ∧ (_ → execUsageRecordPeriodic p at_ s = _)
  unfold execUsageRecordPeriodic
  generalize s.advanceTo at_ = s1 at h ⊢
  have hnext : s1.updPart p (fun y => { y with meter := { y.meter with
      lastPeriodic := y.meter.lastPeriodic + 1000000 * y.meter.periodMs.toNat } }) = s1.nextPeriodic p := rfl
  have hskip (t : State) : t.updPart p (fun y => { y with meter := { y.meter with skipped := true } }) =
    t.updMeter p fun m => { m with skipped := true } := rfl
  dsimp only
  rw [if_pos (by simpa [PMeter.Due, and_assoc] using h), hnext, hskip]
  unfold PMeter.Takes
  cases s1.parts[p].meter.enable with
  | false =>
    simp only [Bool.not_false, if_true, Bool.false_eq_true, if_false]
    exact ⟨fun ht => congrArg Outcome.next (if_pos ht), fun ht => congrArg Outcome.next (if_neg ht)⟩
  | true =>
    simp only [Bool.not_true, if_true, Bool.false_eq_true, if_false, Bool.and_eq_true, List.isEmpty_iff]
    exact ⟨fun ht => congrArg Outcome.next (if_pos ht), fun ht => congrArg Outcome.next (if_neg ht)⟩

/-! ### SNAP (R65, R108, R109) -/

theorem blockOf_ringOffset (p : PartId) : blockOf (ringOffset p) = .mtr p 0x208 := by
  revert p
  decide

theorem exec_snap {s : State} (h : Ready s) (p : PartId) :
    exec (.snap p) s = .next (s.snap p (s.owner (ringOffset p))) := by
  obtain ⟨hon, hready, hrun⟩ := h
  exact congrArg Outcome.next (if_pos (by simp [State.served, blockOf_ringOffset, hon, hready, hrun]))

theorem State.snap_unmetered {s : State} {p : PartId} (h : s.parts[p].meter.metered = false) (m : Byte) :
    s.snap p m = s := if_neg (by rw [h]; exact nofun)

theorem exec_snap_unmetered {s : State} {p : PartId} (h : s.parts[p].meter.metered = false) :
    exec (.snap p) s = .next s := by
  refine congrArg Outcome.next ?_
  unfold State.atReg State.iff
  dsimp only
  rw [State.snap_unmetered h, ite_self]

theorem State.snap_metered {s : State} {p : PartId} (h : s.parts[p].meter.metered = true) (m : Byte) :
    s.snap p m = if s.usageFull p then s.report m (ringOffset p) .refusedState false (some p) else s.usage p 2 := if_pos h

/-- A record of SNAP and the like is the only change of a state taken from it by one usage record. -/
theorem State.usage_snap (s : State) (p : PartId) (reason : Nat) :
    UsageTaken p (s.takeUsage p reason) s (s.usage p reason) (s.usage p reason).parts[p].meter ∧
      OnlyPart p s (s.usage p reason) ∧
      { s.usage p reason with
        parts := s.parts, host := s.host, link := { (s.usage p reason).link with msi := s.link.msi } } = s :=
  ⟨s.usage_taken p reason, s.usage_onlyPart p reason, s.usage_frame p reason⟩

/-- A periodic record changes what the time of the next one and one usage record change. -/
theorem State.nextPeriodic_usage (s : State) (p : PartId) :
    OnlyPart p s ((s.nextPeriodic p).usage p 1) ∧
      { (s.nextPeriodic p).usage p 1 with
        parts := s.parts, host := s.host
        link := { ((s.nextPeriodic p).usage p 1).link with msi := s.link.msi } } = s := by
  refine ⟨fun q hq => ((s.nextPeriodic p).usage_onlyPart p 1 q hq).trans ?_, ?_⟩
  · exact updAt_other _ _ _ _ _ (Fin.val_ne_of_ne hq.symm)
  · obtain ⟨f, h, v, e⟩ := (s.nextPeriodic p).usage_puts p 1
    rw [e]
    rfl

/-- Settles O21: an interval charges each account once with what `allot` gives it, which adds up (R106, R107); a usage record
is `State.usage`, whose cases are those of `UsageTaken` (R108, R109). -/
theorem meteringAddsUpAndIsRecorded : Obligations.MeteringAddsUpAndIsRecorded := by
  refine ⟨fun s e => ?_, fun s p at_ => ⟨?_, ?_, ?_⟩, fun s p hready hm hfull => ?_, fun s p hready hm hfull => ?_,
    fun s p => exec_snap_unmetered⟩
  · have hsum := s.meterInterval_adds_up e
    unfold Partition.energy at hsum
    refine ⟨_, exec_meterInterval s e, by with_reducible exact hsum, fun p => ?_, rfl, s.charged_frame ..⟩
    obtain ⟨n, hle, h0, hpart⟩ := s.meterInterval_part e p
    have henergy := Partition.charged_energy h0
    rw [hpart]
    refine ⟨?_, ?_, fun hm => Partition.charged_unmetered hm n, fun k hk => Partition.charged_counter _ n hk,
      Partition.charged_frame _ n⟩
    · exact (Nat.le_add_right ..).trans_eq henergy.symm
    · exact henergy.trans_le (Nat.add_le_add_left hle _)
  · exact exec_usageRecordPeriodic_early
  · intro hdue htakes
    obtain ⟨honly, hframe⟩ := (s.advanceTo at_).nextPeriodic_usage p
    exact ⟨_, (exec_usageRecordPeriodic_due hdue).1 htakes, State.usage_taken _ p 1, honly, hframe⟩
  · exact fun hdue hfull => (exec_usageRecordPeriodic_due hdue).2 hfull
  · refine ⟨_, exec_snap hready p, ?_⟩
    rw [State.snap_metered hm, if_neg (by rw [hfull]; exact nofun)]
    exact s.usage_snap p 2
  · refine ⟨_, exec_snap hready p, ?_⟩
    rw [State.snap_metered hm, if_pos hfull]
    obtain ⟨hctl, -, hparts, -⟩ := s.report_refused (s.owner (ringOffset p)) (ringOffset p) .refusedState false (some p)
    refine ⟨?_, ?_, (hparts p).1, ?_⟩
    · rw [hctl]
      rfl
    · rw [hctl]
    · exact State.report_host ..

end Sys2Proof.Machine

/-! SUPPORT. What work that ends in an engine leaves of the state: the fields, which units stand, the state of every
partition and its pending stop, and, but for the operations that serve a queue, the queues of axis engines and Pumps. -/

namespace Sys2Proof.Machine

/-- Where a partition stands: its state and its pending stop. -/
def Partition.standing (x : Partition) : PartState × Option (Byte × Bool) := (x.state, x.run.stopping)

/-- Where a memory unit stands: its state, and whether a service of it runs. -/
def MemCtl.standing (m : MemCtl) : UnitState × Bool := (m.state, m.svcRunning)

/-- Where the memory of a Pump stands. -/
def Pump.standing (x : Pump) : UnitState × Bool := x.mem.standing

/-- Where every unit and every partition stands. -/
abbrev Standing := Vector Field 4 × Vector (PartState × Option (Byte × Bool)) 16 × Vector (UnitState × Bool) 12 ×
  Vector (UnitState × Bool) 4 × Vector Bool 3 × Vector Bool 4

/-- The collectives that wait at each axis engine, and the order kept by each Pump. -/
abbrev Queues := Vector (List Coll) 3 × Vector (List (PartId × Nat × Nat)) 4

/-- Where every unit stands, and what waits at it. -/
def State.duty (s : State) : Standing × Queues :=
  ((s.fields, s.parts.map Partition.standing, s.wells.map MemCtl.standing, s.pumps.map Pump.standing,
    s.axes.map AxisEngine.dead, s.sluices.map Sluice.dead), s.axes.map AxisEngine.waiting, s.pumps.map Pump.order)

@[simp] theorem State.duty_mk x0 x1 x2 x3 x4 x5 x6 x7 x8 x9 x10 x11 x12 x13 x14 x15 x16 x17 x18 x19 x20 x21 x22 x23 x24 x25 x26 x27 x28 x29 x30 x31 x32 x33 x34 x35 :
    (State.mk x0 x1 x2 x3 x4 x5 x6 x7 x8 x9 x10 x11 x12 x13 x14 x15 x16 x17 x18 x19 x20 x21 x22 x23 x24 x25 x26 x27 x28 x29 x30 x31 x32 x33 x34 x35).duty =
      ((x5, x17.map Partition.standing, x20.map MemCtl.standing, x21.map Pump.standing, x24.map AxisEngine.dead,
        x25.map Sluice.dead), x24.map AxisEngine.waiting, x21.map Pump.order) := rfl

@[simp] theorem State.duty_fold (s : State) :
    ((s.fields, s.parts.map Partition.standing, s.wells.map MemCtl.standing, s.pumps.map Pump.standing,
      s.axes.map AxisEngine.dead, s.sluices.map Sluice.dead), s.axes.map AxisEngine.waiting, s.pumps.map Pump.order) =
      s.duty := rfl

@[simp] theorem State.duty_ite (c : Prop) [Decidable c] (a b : State) :
    (if c then a else b).duty = if c then a.duty else b.duty := by
  split <;> rfl

@[simp] theorem State.over_duty {α : Type} (l : List α) (f : State → α → State) (h : ∀ s x, (f s x).duty = s.duty) (s : State) :
    (s.over l f).duty = s.duty := State.over_keeps State.duty l f h s

theorem State.over_standing {α : Type} (l : List α) (f : State → α → State) (h : ∀ s x, (f s x).duty.1 = s.duty.1)
    (s : State) : (s.over l f).duty.1 = s.duty.1 := State.over_keeps (fun t => t.duty.1) l f h s

@[simp] theorem State.iff_duty (b : Bool) (f : State → State) (h : ∀ s, (f s).duty = s.duty) (s : State) :
    (s.iff b f).duty = s.duty := State.iff_keeps State.duty b f h s

/-- A change of one entry is not seen by a projection it keeps. -/
theorem map_updAt {α β : Type} {n : Nat} (g : α → β) (v : Vector α n) (i : Fin n) {f : α → α} (h : ∀ x, g (f x) = g x) :
    (updAt v i f).map g = v.map g :=
  Vector.ext fun j hj => by
    rw [Vector.getElem_map, Vector.getElem_map]
    exact updAt_keeps g v i ⟨j, hj⟩ h

/-- A change of a partition keeps its duty where it keeps its state and its pending stop. -/
@[simp] theorem State.updPart_duty (s : State) (p : PartId) (f : Partition → Partition)
    (h : ∀ x, (f x).state = x.state) (hs : ∀ x, (f x).run.stopping = x.run.stopping) : (s.updPart p f).duty = s.duty := by
  simp [State.updPart, map_updAt Partition.standing s.parts p fun x => Prod.ext (h x) (hs x)]

@[simp] theorem State.updSeq_duty (s : State) (n : SeqId) (f : Sequencer → Sequencer) : (s.updSeq n f).duty = s.duty := by
  rfl

@[simp] theorem State.updCore_duty (s : State) (c : CoreId) (f : Core → Core) : (s.updCore c f).duty = s.duty := by
  rfl

@[simp] theorem State.updPort_duty (s : State) (n : PortId) (f : Port → Port) : (s.updPort n f).duty = s.duty := by
  rfl

@[simp] theorem State.updFabric_duty (s : State) (f : Fabric → Fabric) : (s.updFabric f).duty = s.duty := by
  rfl

@[simp] theorem State.updWell_duty (s : State) (w : WellId) (f : MemCtl → MemCtl)
    (h : ∀ m, (f m).state = m.state) (hs : ∀ m, (f m).svcRunning = m.svcRunning) : (s.updWell w f).duty = s.duty := by
  simp [State.updWell, map_updAt MemCtl.standing s.wells w fun m => Prod.ext (h m) (hs m)]

/-- A Pump that is served keeps its standing. -/
theorem State.updPump_standing (s : State) (u : PumpId) (f : Pump → Pump)
    (h : ∀ x, (f x).mem.state = x.mem.state) (hs : ∀ x, (f x).mem.svcRunning = x.mem.svcRunning) :
    (s.updPump u f).duty.1 = s.duty.1 := by
  rw [State.updPump, State.duty_mk, map_updAt Pump.standing s.pumps u fun x => Prod.ext (h x) (hs x)]
  rfl

@[simp] theorem State.updPump_duty (s : State) (u : PumpId) (f : Pump → Pump)
    (h : ∀ x, (f x).mem.state = x.mem.state) (hs : ∀ x, (f x).mem.svcRunning = x.mem.svcRunning)
    (ho : ∀ x, (f x).order = x.order) : (s.updPump u f).duty = s.duty := by
  simp [State.updPump, map_updAt Pump.standing s.pumps u fun x => Prod.ext (h x) (hs x), map_updAt _ _ _ ho]

/-- An axis engine that is served keeps its standing. -/
theorem State.updAxis_standing (s : State) (a : AxisId) (f : AxisEngine → AxisEngine) (h : ∀ x, (f x).dead = x.dead) :
    (s.updAxis a f).duty.1 = s.duty.1 := by
  rw [State.updAxis, State.duty_mk, map_updAt AxisEngine.dead _ _ h]
  rfl

@[simp] theorem State.updAxis_duty (s : State) (a : AxisId) (f : AxisEngine → AxisEngine) (h : ∀ x, (f x).dead = x.dead)
    (hw : ∀ x, (f x).waiting = x.waiting) : (s.updAxis a f).duty = s.duty := by
  simp [State.updAxis, map_updAt _ _ _ h, map_updAt _ _ _ hw]

@[simp] theorem State.updSluice_duty (s : State) (n : SluiceId) (f : Sluice → Sluice) (h : ∀ x, (f x).dead = x.dead) :
    (s.updSluice n f).duty = s.duty := by
  simp [State.updSluice, map_updAt _ _ _ h]

theorem MemCtl.store_standing (m : MemCtl) (e a : Nat) (data : List Byte) (poison : Bool) :
    (m.store e a data poison).standing = m.standing := by
  unfold MemCtl.store
  (repeat' split) <;> rfl

@[simp] theorem MemCtl.store_state (m : MemCtl) (e a : Nat) (data : List Byte) (poison : Bool) :
    (m.store e a data poison).state = m.state := congrArg Prod.fst (m.store_standing e a data poison)

@[simp] theorem MemCtl.store_svcRunning (m : MemCtl) (e a : Nat) (data : List Byte) (poison : Bool) :
    (m.store e a data poison).svcRunning = m.svcRunning := congrArg Prod.snd (m.store_standing e a data poison)

@[simp] theorem State.updMem_duty (s : State) (u : MemUnit) (f : MemCtl → MemCtl) (h : ∀ m, (f m).state = m.state)
    (hs : ∀ m, (f m).svcRunning = m.svcRunning) : (s.updMem u f).duty = s.duty := by
  cases u with
  | well w => exact s.updWell_duty w f h hs
  | quarter q => exact s.updPump_duty q _ (fun x => h x.mem) (fun x => hs x.mem) fun _ => rfl

@[simp] theorem State.msi_duty (s : State) (fn : PciFn) (v : Nat) : (State.msi s fn v).duty = s.duty := by
  simp [State.msi]

@[simp] theorem State.act_duty (s : State) (unit p n : Nat) : (State.act s unit p n).duty = s.duty := by
  simp [State.act]

@[simp] theorem State.meter_duty (s : State) (p : PartId) (k : Fin 14) (n : Nat) :
    (State.meter s p k n).duty = s.duty :=
  (State.iff_duty _ _ (fun t => t.act_duty 26 p.val n) _).trans
    (s.updPart_duty p _ (fun x => by split <;> rfl) fun x => by split <;> rfl)

@[simp] theorem State.fresh_duty (s : State) : (State.fresh s).2.duty = s.duty := by
  simp [State.fresh]

@[simp] theorem State.event_duty (s : State) (code : W16) (unit part severity : Byte) (incident : W32)
    (detail : BitVec 224) :
    (State.event s code unit part severity incident detail).duty = s.duty := by
  simp [State.event]

@[simp] theorem State.evidence_duty (s : State) (part : Nat) (k : Fin 11) (n : Nat) :
    (State.evidence s part k n).duty = s.duty := by
  unfold State.evidence; (repeat' split) <;> simp

@[simp] theorem State.raiseV0_duty (s : State) (p : PartId) : (State.raiseV0 s p).duty = s.duty := by
  simp [State.raiseV0]

@[simp] theorem State.raiseCtr_duty (s : State) (c : CoreId) (n : CtrId) (ok : Bool) :
    (State.raiseCtr s c n ok).duty = s.duty := by
  simp [State.raiseCtr]

@[simp] theorem State.raiseNamed_duty (s : State) (core ctr : Nat) (ok : Bool) :
    (State.raiseNamed s core ctr ok).duty = s.duty := by
  unfold State.raiseNamed; (repeat' split) <;> simp

@[simp] theorem State.countAxis_duty (s : State) (r : Record) : (s.countAxis r).duty = s.duty := by
  unfold State.countAxis
  split
  · rfl
  · exact s.updAxis_duty _ _ (fun _ => rfl) fun _ => rfl

@[simp] theorem State.written_duty (s : State) (r : Record) : (s.written r).duty = s.duty := by
  unfold State.written; split <;> simp [State.raiseCtr]

@[simp] theorem State.writeRing_duty (s : State) (p : PartId) (r : Record) (v0 : Bool) :
    (State.writeRing s p r v0).duty = s.duty := by
  simp [State.writeRing]

@[simp] theorem State.orphan_duty (s : State) (p : PartId) (r : Record) (words : List W64) :
    (s.orphan p r words).duty = s.duty :=
  (State.countAxis_duty _ r).trans (s.updPart_duty p _ (fun _ => rfl) fun _ => rfl)

@[simp] theorem State.touch_duty (s : State) (p : PartId) : (State.touch s p).duty = s.duty := by
  simp [State.touch]

@[simp] theorem State.post_duty (s0 : State) (p : PartId) (r : Record) (v0 : Bool) :
    (State.post s0 p r v0).duty = s0.duty := by
  simp [State.post]

@[simp] theorem State.writeUsage_duty (s : State) (p : PartId) (u : UsageRecord) :
    (State.writeUsage s p u).duty = s.duty := by
  simp [State.writeUsage]

@[simp] theorem State.usage_duty (s : State) (p : PartId) (reason : Nat) :
    (State.usage s p reason).duty = s.duty := by
  simp [State.usage]

@[simp] theorem State.logUe_duty (s : State) (u : MemUnit) (a : Nat) (src : ReadSource) :
    (State.logUe s u a src).duty = s.duty := by
  simp [State.logUe]

@[simp] theorem State.stewardRemap_duty (s : State) (u : MemUnit) (k : Nat) :
    (State.stewardRemap s u k).duty = s.duty := by
  simp [State.stewardRemap, MemCtl.addRemap]

@[simp] theorem State.corrected_duty (s : State) (u : MemUnit) (a : Nat) (writeBack : Bool) :
    (State.corrected s u a writeBack).duty = s.duty := by
  cases writeBack <;> simp [State.corrected]

@[simp] theorem State.readSector_duty (s : State) (u : MemUnit) (a : Nat) (src : ReadSource) (extra : List Nat)
    (onDie : Nat) :
    (State.readSector s u a src extra onDie).2.duty = s.duty := by
  unfold State.readSector; dsimp only; (repeat' split) <;> simp

@[simp] theorem State.readBlock_duty (s : State) (l : Loc) (src : ReadSource) :
    (State.readBlock s l src).2.duty = s.duty := by
  unfold State.readBlock; (repeat' split) <;> simp

@[simp] theorem State.writeBlock_duty (s : State) (l : Loc) (data : List Byte) (poison : Bool) :
    (s.writeBlock l data poison).duty = s.duty := by
  cases l <;> simp [State.writeBlock]

@[simp] theorem State.noteTc12_duty (s : State) (k : Packet) : (State.noteTc12 s k).duty = s.duty := by
  simp [State.noteTc12]

@[simp] theorem State.sendFlits_duty (s : State) (n : PortId) (e : HeldPkt) (f : Nat) :
    (State.sendFlits s n e f).duty = s.duty := by
  simp [State.sendFlits]

@[simp] theorem State.slots_duty (s : State) (n : PortId) (k : Nat) : (s.slots n k).duty = s.duty := by
  induction k generalizing s with
  | zero => rfl
  | succ k ih => unfold State.slots; split <;> simp [ih]

@[simp] theorem State.flushPort_duty (s : State) (n : PortId) : (State.flushPort s n).duty = s.duty := by
  simp [State.flushPort]

@[simp] theorem State.toPort_duty (s : State) (n : PortId) (v : VcId) (k : Packet) (via : Option (PortId × VcId)) :
    (State.toPort s n v k via).duty = s.duty := by
  unfold State.toPort; dsimp only; split <;> simp

@[simp] theorem State.refill_duty (s : State) (n : PortId) : (State.refill s n).duty = s.duty := by
  simp [State.refill]

@[simp] theorem State.tc0_duty (s : State) (n : PortId) (v : VcId) (k : Packet) :
    (State.tc0 s n v k).duty = s.duty := by
  simp [State.tc0]

@[simp] theorem State.routeDrop_duty (s : State) (n : Option PortId) : (State.routeDrop s n).duty = s.duty := by
  simp [State.routeDrop]

@[simp] theorem State.launchOn_duty (s : State) (k : Packet) : (State.launchOn s k).2.duty = s.duty := by
  unfold State.launchOn; (repeat' split) <;> simp

@[simp] theorem State.readView_duty (s : State) (p : PartId) (off : Nat) (k : Nat) :
    (State.readView s p off k).2.duty = s.duty := by
  induction k generalizing s off with
  | zero => rfl
  | succ k ih => unfold State.readView; dsimp only; (repeat' split) <;> simp [ih]

@[simp] theorem State.actWells_duty (s : State) (p : PartId) (off n : Nat) (k : Nat) :
    (State.actWells s p off n k).duty = s.duty := by
  induction k generalizing s off n with
  | zero => rfl
  | succ k ih => unfold State.actWells; dsimp only; (repeat' split) <;> simp [ih]

@[simp] theorem State.meterPump_duty (s : State) (u : PumpId) (p : PartId) (k : Fin 14) (n : Nat) :
    (State.meterPump s u p k n).duty = s.duty := by
  simp [State.meterPump]

@[simp] theorem State.meterMove_duty (s : State) (p : PartId) (off n : Nat) (write : Bool) :
    (State.meterMove s p off n write).duty = s.duty := by
  simp [State.meterMove]

@[simp] theorem State.writeView_duty (s : State) (p : PartId) (off : Nat) (data : List Byte) (poison : Bool)
    (k : Nat) :
    (State.writeView s p off data poison k).duty = s.duty := by
  induction k generalizing s off data with
  | zero => rfl
  | succ k ih => unfold State.writeView; dsimp only; (repeat' split) <;> simp [ih]

@[simp] theorem State.freeLoc_duty (s : State) (l : Loc) : (State.freeLoc s l).duty = s.duty := by
  unfold State.freeLoc; dsimp only; (repeat' split) <;> simp

@[simp] theorem State.freeView_duty (s : State) (p : PartId) (off k : Nat) : (s.freeView p off k).duty = s.duty := by
  induction k generalizing s off with
  | zero => rfl
  | succ k ih => unfold State.freeView; (repeat' split) <;> simp [ih]

@[simp] theorem State.patchBlock_duty (s : State) (l : Loc) (at_ : Nat) (data : List Byte) (poison : Bool)
    (src : ReadSource) :
    (State.patchBlock s l at_ data poison src).duty = s.duty := by
  simp [State.patchBlock]

@[simp] theorem State.patchView_duty (s : State) (p : PartId) (off : Nat) (data : List Byte) (poison : Bool)
    (src : ReadSource) (k : Nat) :
    (State.patchView s p off data poison src k).duty = s.duty := by
  induction k generalizing s off data with
  | zero => rfl
  | succ k ih => unfold State.patchView; dsimp only; (repeat' split) <;> simp [ih]

@[simp] theorem State.viewBytes_duty (s : State) (p : PartId) (off len : Nat) :
    (State.viewBytes s p off len).2.duty = s.duty := by
  simp [State.viewBytes]

@[simp] theorem State.putSrc_duty (s : State) (k : Nat) (x : SrcStream) : (State.putSrc s k x).duty = s.duty := by
  simp [State.putSrc]

@[simp] theorem State.putDst_duty (s : State) (k : Nat) (x : DstStream) : (State.putDst s k x).duty = s.duty := by
  simp [State.putDst]

@[simp] theorem State.sendCopy_duty (s : State) (key : Nat) (o : OutPacket) :
    (State.sendCopy s key o).duty = s.duty := by
  unfold State.sendCopy; dsimp only; (repeat' split) <;> simp

@[simp] theorem State.unstall_duty (s : State) (key : Nat) (k : Nat) : (State.unstall s key k).duty = s.duty := by
  induction k generalizing s with
  | zero => rfl
  | succ k ih => unfold State.unstall; dsimp only; (repeat' split) <;> simp [ih]

@[simp] theorem State.enqueue_duty (s : State) (o : OutPacket) : (State.enqueue s o).duty = s.duty := by
  simp [State.enqueue]

@[simp] theorem State.inject_duty (s : State) (k : Packet) (item : ItemRef) (from_ : Option W64) :
    (State.inject s k item from_).duty = s.duty := by
  simp [State.inject]

@[simp] theorem State.capDone_duty (s : State) (p : PartId) (c : Capsule) (engine : Byte) (o : OutcomeCode)
    (detail : Nat) :
    (State.capDone s p c engine o detail).duty = s.duty := by
  simp [State.capDone]

@[simp] theorem State.refuseQueued_duty (s : State) (p : PartId) : (State.refuseQueued s p).duty = s.duty := by
  simp [State.refuseQueued]

@[simp] theorem State.setGroup_duty (s : State) (p : PartId) (g : Nat) (x : Group) :
    (State.setGroup s p g x).duty = s.duty := by
  simp [State.setGroup]

@[simp] theorem State.updGroup_duty (s : State) (p : PartId) (g : Nat) (f : Group → Group) :
    (s.updGroup p g f).duty = s.duty :=
  s.updPart_duty p _ (fun _ => rfl) fun _ => rfl

@[simp] theorem State.updCmd_duty (s : State) (p : PartId) (id : Nat) (f : PumpCmd → PumpCmd) :
    (s.updCmd p id f).duty = s.duty :=
  s.updPart_duty p _ (fun _ => rfl) fun _ => rfl

@[simp] theorem State.writeRecord_duty (s : State) (p : PartId) (off : Nat) (r : Record) :
    (State.writeRecord s p off r).duty = s.duty := by
  simp [State.writeRecord]

@[simp] theorem State.endCmd_duty (s : State) (p : PartId) (c : PumpCmd) (inc : W32) :
    (State.endCmd s p c inc).duty = s.duty := by
  simp [State.endCmd]

@[simp] theorem State.endGroup_duty (s : State) (p : PartId) (id i : Nat) (o : OutcomeCode)
    (code params : Nat) (row : Option (List Nat)) (inc : W32) :
    (State.endGroup s p id i o code params row inc).duty = s.duty := by
  unfold State.endGroup; dsimp only; (repeat' split) <;> simp

@[simp] theorem State.unbusy_duty (s : State) (p : PartId) (g : Nat) : (State.unbusy s p g).duty = s.duty := by
  simp [State.unbusy]

@[simp] theorem State.tear_duty (s : State) (u : PumpId) (w : Sweep) (o : OutcomeCode) (mixed : Bool) (inc : W32) :
    (State.tear s u w o mixed inc).duty = s.duty := by
  unfold State.tear; dsimp only; (repeat' split) <;> simp

@[simp] theorem State.tearClaims_duty (s : State) (p : PartId) (sel : Group → Bool) :
    (s.tearClaims p sel).duty = s.duty := by
  simp [State.tearClaims]

@[simp] theorem State.tearSweep_duty (s : State) (u : PumpId) (o : OutcomeCode) (mixed : Bool) (inc : W32) :
    (s.tearSweep u o mixed inc).duty = s.duty := by
  unfold State.tearSweep; split <;> simp

@[simp] theorem State.markDelivered_duty (s : State) (k : Packet) : (State.markDelivered s k).duty = s.duty := by
  simp [State.markDelivered]

@[simp] theorem State.updLayer_duty (s : State) (n : SluiceId) (id : Nat) (f : Layer → Layer) :
    (s.updLayer n id f).duty = s.duty :=
  s.updSluice_duty n _ fun _ => rfl

@[simp] theorem State.slcWrite_duty (s : State) (p : PartId) (off : Nat) (data : List Byte) (poison : Bool) :
    (State.slcWrite s p off data poison).duty = s.duty := by
  simp [State.slcWrite]

@[simp] theorem State.slcRead_duty (s : State) (p : PartId) (off len : Nat) :
    (State.slcRead s p off len).2.duty = s.duty := by
  simp [State.slcRead]

@[simp] theorem State.admitRoute_duty (s : State) (n : SluiceId) (l : Layer) (src : BitVec 15)
    (srcSluice token slot expert : Nat) (gate : W32) (fits : Bool) :
    (State.admitRoute s n l src srcSluice token slot expert gate fits).2.duty = s.duty := by
  unfold State.admitRoute; dsimp only; (repeat' split) <;> simp

@[simp] theorem State.passLocal_duty (s : State) (n : SluiceId) (l : Layer) (r : Route) :
    (s.passLocal n l r).duty = s.duty := by
  unfold State.passLocal
  dsimp only
  split
  · rfl
  · rename_i d _
    have h := State.admitRoute_duty (s.updLayer n l.id (·.updRoute (l.index r) fun r => { r with waits := false }))
      (sluiceOf r.dest) d s.chip n.val r.token r.slot r.expert r.gate (l.rowBytes == d.rowBytes && l.step == d.step)
    split
    · rename_i e
      rw [e] at h
      simpa using h
    · rename_i e
      rw [e] at h
      split <;> simpa using h

@[simp] theorem State.sendEnd_duty (s : State) (n : SluiceId) (id : Nat) (d : Nat × Nat) :
    (State.sendEnd s n id d).duty = s.duty := by
  unfold State.sendEnd; (repeat' split) <;> simp

@[simp] theorem State.writeCounts_duty (s : State) (l : Layer) : (State.writeCounts s l).duty = s.duty := by
  simp [State.writeCounts]

@[simp] theorem State.tryArrive_duty (s : State) (n : SluiceId) (id : Nat) :
    (State.tryArrive s n id).duty = s.duty := by
  unfold State.tryArrive; (repeat' split) <;> simp

@[simp] theorem State.readStaged_duty (s : State) (n : SluiceId) (l : Layer) (r : List Route) :
    (s.readStaged n l r).2.duty = s.duty := by
  induction r generalizing s with
  | nil => rfl
  | cons x l ih => unfold State.readStaged; dsimp only; (repeat' split) <;> simp [ih]

@[simp] theorem State.writeRouteRecord_duty (s : State) (n : SluiceId) (l : Layer) (r : Route) :
    (State.writeRouteRecord s n l r).duty = s.duty := by
  simp [State.writeRouteRecord]

@[simp] theorem State.combineToken_duty (s : State) (n : SluiceId) (id t : Nat) :
    (State.combineToken s n id t).duty = s.duty := by
  unfold State.combineToken; dsimp only; (repeat' split) <;> simp

@[simp] theorem State.tryEndLayer_duty (s : State) (n : SluiceId) (id : Nat) :
    (State.tryEndLayer s n id).duty = s.duty := by
  unfold State.tryEndLayer; (repeat' split) <;> simp

@[simp] theorem State.closeLayer_duty (s : State) (n : SluiceId) (id : Nat) (o : OutcomeCode) (inc : W32) :
    (State.closeLayer s n id o inc).duty = s.duty := by
  unfold State.closeLayer; (repeat' split) <;> simp

@[simp] theorem State.sendAbandon_duty (s : State) (n : SluiceId) (l : Layer) (o : OutcomeCode) (inc : W32) :
    (s.sendAbandon n l o inc).duty = s.duty := by
  refine State.over_keeps State.duty _ _ (fun t d => ?_) s
  (repeat' split) <;> simp

@[simp] theorem State.failLayer_duty (s : State) (n : SluiceId) (l : Layer) (o : OutcomeCode) (inc : W32) :
    (State.failLayer s n l o inc).duty = s.duty := by
  simp [State.failLayer]

@[simp] theorem State.openNext_duty (s : State) (n : SluiceId) : (State.openNext s n).duty = s.duty := by
  unfold State.openNext; (repeat' split) <;> simp

@[simp] theorem State.advanceLayer_duty (s : State) (n : SluiceId) (id : Nat) :
    (State.advanceLayer s n id).duty = s.duty := by
  unfold State.advanceLayer; (repeat' split) <;> simp

@[simp] theorem State.sluicePass_duty (s : State) (k : Nat) : (State.sluicePass s k).duty = s.duty := by
  induction k generalizing s with
  | zero => rfl
  | succ k ih => unfold State.sluicePass; dsimp only; (repeat' split) <;> simp [ih]

@[simp] theorem State.endWaitingLayer_duty (s : State) (l : Layer) (o : OutcomeCode) (inc : W32) :
    (State.endWaitingLayer s l o inc).duty = s.duty := by
  simp [State.endWaitingLayer]

@[simp] theorem State.stopSluices_duty (s : State) (p : PartId) (inc : W32) :
    (State.stopSluices s p inc).duty = s.duty := by
  simp [State.stopSluices]

@[simp] theorem State.updColl_duty (s : State) (a : AxisId) (id : Nat) (f : Coll → Coll) :
    (s.updColl a id f).duty = s.duty :=
  s.updAxis_duty a _ (fun _ => rfl) fun _ => rfl

@[simp] theorem State.abandonTo_duty (s : State) (a : AxisId) (c : Coll) (o : OutcomeCode) (to_ : List Nat) :
    (State.abandonTo s a c o to_).duty = s.duty := by
  simp [State.abandonTo]

@[simp] theorem State.abandonAll_duty (s : State) (a : AxisId) (c : Coll) (o : OutcomeCode) :
    (State.abandonAll s a c o).duty = s.duty := by
  simp [State.abandonAll]

@[simp] theorem State.collRecord_duty (s : State) (a : AxisId) (c : Coll) (o : OutcomeCode) (detail : Nat)
    (inc : W32) (causes : BitVec 7) :
    (State.collRecord s a c o detail inc causes).duty = s.duty := by
  simp [State.collRecord]

@[simp] theorem State.releaseHeld_duty (s : State) (l : List (PortId × Packet)) :
    (State.releaseHeld s l).duty = s.duty := by
  simp [State.releaseHeld]

@[simp] theorem State.sendJoin_duty (s : State) (a : AxisId) (c : Coll) (plus : Bool) (origin : Nat)
    (digest : W32) (wp wm : Nat) :
    (State.sendJoin s a c plus origin digest wp wm).duty = s.duty := by
  simp [State.sendJoin]

@[simp] theorem State.hearJoin_duty (s : State) (a : AxisId) (id : Nat) (up : Bool) (k : Packet) :
    (State.hearJoin s a id up k).duty = s.duty := by
  unfold State.hearJoin; (repeat' split) <;> simp

@[simp] theorem State.admitColl_duty (s : State) (a : AxisId) (c : Coll) :
    (State.admitColl s a c).duty = s.duty := by
  simp [State.admitColl]

@[simp] theorem State.collUndefined_duty (s : State) (a : AxisId) (c : Coll) (o : OutcomeCode) :
    (s.collUndefined a c o).duty = s.duty := by
  unfold State.collUndefined; dsimp only; (repeat' split) <;> simp

@[simp] theorem State.endAtomic_duty (s : State) (a : AxisId) (x : AtomicItem) (o : OutcomeCode) (inc : W32) :
    (State.endAtomic s a x o inc).duty = s.duty := by
  simp [State.endAtomic]

@[simp] theorem State.endProgram_duty (s : State) (x : Program) (o : OutcomeCode) (detail : W64) (inc : W32) :
    (State.endProgram s x o detail inc).duty = s.duty := by
  simp [State.endProgram]

@[simp] theorem State.haltSeqs_duty (s : State) (p : PartId) : (State.haltSeqs s p).duty = s.duty := by
  simp [State.haltSeqs]

@[simp] theorem State.haltCores_duty (s : State) (p : PartId) : (State.haltCores s p).duty = s.duty := by
  simp [State.haltCores]

@[simp] theorem State.stopAtomics_duty (s : State) (p : PartId) (inc : W32) :
    (State.stopAtomics s p inc).duty = s.duty := by
  simp [State.stopAtomics]

@[simp] theorem State.sluiceItemsDead_duty (s : State) (n : SluiceId) (inc : W32) :
    (State.sluiceItemsDead s n inc).duty = s.duty := by
  simp [State.sluiceItemsDead]

@[simp] theorem State.runDone_duty (s : State) (p : PartId) (cmd : BitVec 3) (o : OutcomeCode) :
    (State.runDone s p cmd o).duty = s.duty := by
  simp [State.runDone]

/-! ### Queues that are served -/

/-- Every unit and every partition stands as before, and a queue that was empty still is. -/
structure State.Serves (s t : State) : Prop where
  standing : t.duty.1 = s.duty.1
  waiting : ∀ a : AxisId, s.axes[a].waiting = [] → t.axes[a].waiting = []
  order : ∀ u : PumpId, s.pumps[u].order = [] → t.pumps[u].order = []

theorem State.duty_waiting (s : State) (a : AxisId) : s.axes[a].waiting = s.duty.2.1[a] :=
  (Vector.getElem_map ..).symm

theorem State.duty_order (s : State) (u : PumpId) : s.pumps[u].order = s.duty.2.2[u] :=
  (Vector.getElem_map ..).symm

theorem State.Serves.of_duty {s t : State} (h : t.duty = s.duty) : s.Serves t where
  standing := congrArg Prod.fst h
  waiting a e := by rw [State.duty_waiting, h, ← State.duty_waiting, e]
  order u e := by rw [State.duty_order, h, ← State.duty_order, e]

theorem State.Serves.refl (s : State) : s.Serves s := .of_duty rfl

theorem State.Serves.trans {s t u : State} (h : s.Serves t) (k : t.Serves u) : s.Serves u where
  standing := k.standing.trans h.standing
  waiting a e := k.waiting a (h.waiting a e)
  order v e := k.order v (h.order v e)

theorem State.Serves.over {α : Type} (l : List α) {f : State → α → State} (h : ∀ (t : State) x, t.Serves (f t x)) (s : State) :
    s.Serves (s.over l f) := by
  induction l generalizing s with
  | nil => exact .refl s
  | cons x r ih => exact (h s x).trans (ih (f s x))

theorem updAt_nil {α β : Type} {n : Nat} (v : Vector α n) (g : α → List β) (i j : Fin n) {f : α → α}
    (h : ∀ x, g x = [] → g (f x) = []) (e : g v[j] = []) : g (updAt v i f)[j] = [] := by
  rw [Fin.getElem_fin, updAt_get]
  split
  · exact h _ e
  · exact e

/-- A filtered queue of an axis engine. -/
theorem State.updAxis_serves (s : State) (a : AxisId) {f : AxisEngine → AxisEngine} (h : ∀ x, (f x).dead = x.dead)
    (hw : ∀ x : AxisEngine, x.waiting = [] → (f x).waiting = []) : s.Serves (s.updAxis a f) where
  standing := s.updAxis_standing a f h
  waiting b e := updAt_nil s.axes AxisEngine.waiting a b hw e
  order _ e := e

theorem State.unorder_serves (s : State) (p : PartId) (g : Nat) : s.Serves (s.unorder p g) := by
  unfold State.unorder
  refine .over _ (fun t u => ?_) s
  refine ⟨?_, fun _ e => e, fun v e => ?_⟩
  · exact t.updPump_standing u _ (fun _ => rfl) fun _ => rfl
  · exact updAt_nil t.pumps Pump.order u v (fun x hx => by rw [hx]; rfl) e

theorem State.dropWaiting_serves (s : State) (p : PartId) (id i : Nat) (o : OutcomeCode) (inc : W32) :
    s.Serves (s.dropWaiting p id i o inc) := by
  unfold State.dropWaiting
  split
  · exact .refl s
  · exact (s.unorder_serves p _).trans (.of_duty ((State.endGroup_duty ..).trans (State.unbusy_duty ..)))

theorem State.stopPumps_serves (s : State) (p : PartId) (inc : W32) : s.Serves (s.stopPumps p inc) := by
  unfold State.stopPumps
  refine State.Serves.trans (.over _ (fun t c => ?_) s) (.of_duty (State.tearClaims_duty ..))
  refine State.Serves.trans (.of_duty ?_) (.over _ (fun u i => u.dropWaiting_serves p c.id i _ inc) _)
  exact State.over_duty _ _ (fun u i => State.endGroup_duty ..) t

theorem State.admitNext_serves (s : State) (a : AxisId) (p : PartId) : s.Serves (s.admitNext a p) := by
  unfold State.admitNext
  split
  · split
    · refine State.Serves.trans ?_ (.of_duty (State.admitColl_duty ..))
      exact s.updAxis_serves a (fun _ => rfl) fun x hx => by dsimp only; rw [hx]; rfl
    · exact .refl s
  · exact .refl s

theorem State.endColl_serves (s : State) (a : AxisId) (c : Coll) (o : OutcomeCode) (inc : W32) :
    s.Serves (s.endColl a c o inc) := by
  refine State.Serves.trans ?_ (State.admitNext_serves _ a c.part)
  refine State.Serves.trans ?_ (.of_duty ((State.collRecord_duty ..).trans
    ((State.collUndefined_duty ..).trans (State.releaseHeld_duty ..))))
  exact s.updAxis_serves a (fun _ => rfl) fun x hx => by dsimp only; rw [hx]; rfl

theorem State.failColl_serves (s : State) (a : AxisId) (c : Coll) (o : OutcomeCode) (inc : W32) :
    s.Serves (s.failColl a c o inc) :=
  (State.Serves.of_duty (s.abandonAll_duty a c o)).trans (State.endColl_serves _ a c o inc)

theorem State.stopColls_serves (s : State) (p : PartId) (inc : W32) : s.Serves (s.stopColls p inc) := by
  unfold State.stopColls
  refine .over _ (fun t a => ?_) s
  have ends (t : State) (l : List Coll) : t.Serves (t.over l fun s c => s.endColl a c .failedTimeout inc) :=
    .over _ (fun u c => u.endColl_serves a c _ inc) t
  refine State.Serves.trans (State.Serves.trans ?_ (ends _ _)) (ends _ _)
  exact t.updAxis_serves a (fun _ => rfl) fun x hx => by dsimp only; rw [hx]; rfl

/-! ### What stands, taken apart -/

section
variable {s t : State} (h : t.duty.1 = s.duty.1)
include h

theorem State.fields_of_standing : t.fields = s.fields := congrArg Prod.fst h

theorem State.part_of_standing (p : PartId) : t.parts[p].standing = s.parts[p].standing := by
  have e := congrArg (fun d : Standing => d.2.1[p]) h
  simpa only [State.duty, Fin.getElem_fin, Vector.getElem_map] using e

theorem State.well_of_standing (w : WellId) : t.wells[w].standing = s.wells[w].standing := by
  have e := congrArg (fun d : Standing => d.2.2.1[w]) h
  simpa only [State.duty, Fin.getElem_fin, Vector.getElem_map] using e

theorem State.pump_of_standing (u : PumpId) : t.pumps[u].standing = s.pumps[u].standing := by
  have e := congrArg (fun d : Standing => d.2.2.2.1[u]) h
  simpa only [State.duty, Fin.getElem_fin, Vector.getElem_map] using e

theorem State.axis_of_standing (a : AxisId) : t.axes[a].dead = s.axes[a].dead := by
  have e := congrArg (fun d : Standing => d.2.2.2.2.1[a]) h
  simpa only [State.duty, Fin.getElem_fin, Vector.getElem_map] using e

theorem State.sluice_of_standing (n : SluiceId) : t.sluices[n].dead = s.sluices[n].dead := by
  have e := congrArg (fun d : Standing => d.2.2.2.2.2[n]) h
  simpa only [State.duty, Fin.getElem_fin, Vector.getElem_map] using e

theorem State.state_of_standing (p : PartId) : t.parts[p].state = s.parts[p].state :=
  congrArg Prod.fst (State.part_of_standing h p)

theorem State.stopping_of_standing (p : PartId) : t.parts[p].run.stopping = s.parts[p].run.stopping :=
  congrArg Prod.snd (State.part_of_standing h p)

end

/-! ### A stop -/

/-- The request of a stop, before anything ends (R89). -/
def State.markStop (s : State) (p : PartId) (cause : Byte) (byCmd : Bool) : State :=
  s.updPart p fun x => { x with run := { x.run with
    stopping := some (cause, byCmd), interlude := false, quiescing := none,
    lastCmd := if s.parts[p].run.quiescing.isSome then 2 else x.run.lastCmd
    outcome := if s.parts[p].run.quiescing.isSome then BitVec.ofNat 8 OutcomeCode.refusedState.code else x.run.outcome } }

theorem State.stopPart_refused {s : State} {p : PartId} (cause : Byte) (byCmd : Bool) (inc : W32)
    (h : s.parts[p].stoppable = false) : s.stopPart p cause byCmd inc = s :=
  if_neg (Bool.eq_false_iff.mp h)

theorem State.stopPart_serves {s : State} {p : PartId} (cause : Byte) (byCmd : Bool) (inc : W32)
    (h : s.parts[p].stoppable = true) : (s.markStop p cause byCmd).Serves (s.stopPart p cause byCmd inc) := by
  unfold State.stopPart
  rw [if_pos h]
  refine State.Serves.trans ?_ (State.stopPumps_serves _ p inc)
  refine State.Serves.trans ?_ (.of_duty (State.stopSluices_duty ..))
  refine State.Serves.trans ?_ (State.stopColls_serves _ p inc)
  refine .of_duty ((State.stopAtomics_duty ..).trans ((State.over_duty _ _ (fun t x => State.endProgram_duty ..) _).trans
    ((State.refuseQueued_duty ..).trans ((State.haltCores_duty ..).trans (State.haltSeqs_duty ..)))))


end Sys2Proof.Machine

/-! SUPPORT. The effects of one control write at the end of its epoch (04 R102, R103): where no stop is pending, the writes
of an epoch that holds one write are that write's own effect. -/

namespace Sys2Proof.Machine

open Host

/-! ### Pending stops -/

/-- No stop is pending (R89). -/
structure State.NoStops (s : State) : Prop where
  unstopped : ∀ p : PartId, s.parts[p].run.stopping = none

/-- Every stop that is pending still has records to wait for (R89). -/
def State.Settled (s : State) : Prop := ∀ p : PartId, s.parts[p].run.stopping = none ∨ s.partDrained p = false

theorem State.NoStops.settled {s : State} (h : s.NoStops) : s.Settled := fun p => .inl (h.unstopped p)

theorem State.stopEnd_of_none {s : State} {p : PartId} (h : s.parts[p].run.stopping = none) : s.stopEnd p = s := by
  unfold State.stopEnd
  rw [h]

theorem State.stopEnd_of_undrained {s : State} {p : PartId} (h : s.partDrained p = false) : s.stopEnd p = s := by
  unfold State.stopEnd
  rw [h]
  split <;> rfl

theorem State.Settled.over {s : State} (h : s.Settled) (l : List PartId) : (s.over l fun s p => s.stopEnd p) = s := by
  induction l with
  | nil => rfl
  | cons p r ih =>
    have e : s.stopEnd p = s := (h p).elim State.stopEnd_of_none State.stopEnd_of_undrained
    exact (congrArg (fun t : State => t.over r fun s p => s.stopEnd p) e).trans ih

theorem State.NoStops.of_standing {s t : State} (h : s.NoStops) (e : t.duty.1 = s.duty.1) : t.NoStops :=
  ⟨fun p => (State.stopping_of_standing e p).trans (h.unstopped p)⟩

theorem State.NoStops.of_parts {s t : State} (h : s.NoStops) (e : t.parts = s.parts) : t.NoStops :=
  ⟨fun p => by rw [e]; exact h.unstopped p⟩

theorem State.NoStops.of_duty {s t : State} (h : s.NoStops) (e : t.duty = s.duty) : t.NoStops :=
  h.of_standing (congrArg Prod.fst e)

/-- A change of a partition that puts no stop on it. -/
theorem State.NoStops.updPart {s : State} (h : s.NoStops) (p : PartId) {f : Partition → Partition}
    (hf : ∀ x : Partition, x.run.stopping = none → (f x).run.stopping = none := by exact fun _ e => e) :
    (s.updPart p f).NoStops where
  unstopped q := by
    rw [State.updPart_parts, Fin.getElem_fin, updAt_get]
    split
    · exact hf _ (h.unstopped q)
    · exact h.unstopped q

theorem State.NoStops.msi {s : State} (h : s.NoStops) (fn : PciFn) (v : Nat) : (s.msi fn v).NoStops := h.of_parts rfl

theorem updAt_id {α : Type} {n : Nat} (v : Vector α n) (i : Fin n) {f : α → α} (h : f v[i] = v[i]) : updAt v i f = v :=
  Vector.ext fun j hj => by
    rw [updAt_get]
    split
    · rename_i e
      subst e
      exact h
    · rfl

theorem updAt_congr {α : Type} {n : Nat} {v : Vector α n} {i : Fin n} {f g : α → α} (h : f v[i] = g v[i]) :
    updAt v i f = updAt v i g := congrArg (v.set i) h

/-- A partition told its state; nothing where it has it. -/
theorem State.setPart_parts (s : State) (p : PartId) (st : PartState) :
    (s.setPart p st).parts = updAt s.parts p fun x => { x with state := st } := by
  unfold State.setPart
  split
  · rename_i e
    have e := LawfulBEq.eq_of_beq e
    exact (updAt_id s.parts p (f := fun x => { x with state := st }) (by rw [← e])).symm
  · dsimp only [State.msi, State.updPart_parts]
    split <;> rfl

theorem State.NoStops.setPart {s : State} (h : s.NoStops) (p : PartId) (st : PartState) : (s.setPart p st).NoStops := by
  refine State.NoStops.of_parts (s := s.updPart p fun x => { x with state := st }) ?_ (s.setPart_parts p st)
  exact h.updPart p

theorem State.NoStops.usage {s : State} (h : s.NoStops) (p : PartId) (reason : Nat) : (s.usage p reason).NoStops := by
  obtain ⟨f, b, v, e⟩ := s.usage_puts p reason
  rw [e]
  refine State.NoStops.of_parts (s := s.updMeter p f) ?_ rfl
  exact h.updPart p

theorem State.NoStops.runDone {s : State} (h : s.NoStops) (p : PartId) (c : BitVec 3) (o : OutcomeCode) :
    (s.runDone p c o).NoStops := by
  unfold State.runDone
  exact h.updPart p

theorem State.NoStops.imgDone {s : State} (h : s.NoStops) (p : PartId) (c : BitVec 2) (o : OutcomeCode) (r : Byte) :
    (s.imgDone p c o r).NoStops := by
  unfold State.imgDone
  exact (h.updPart p).msi ..

theorem State.NoStops.report {s : State} (h : s.NoStops) (m : Byte) (off : Nat) (o : OutcomeCode) (stale : Bool)
    (w : Option PartId) : (s.report m off o stale w).NoStops := by
  obtain ⟨v, pb, hv, e⟩ := s.report_eq m off o stale w
  rw [e]
  exact ⟨fun p => (congrArg (fun x : Partition × PRun => x.2.stopping) (hv {} p)).trans (h.unstopped p)⟩

/-! ### The commands of rank 3 -/

theorem State.NoStops.discard {s : State} (h : s.NoStops) (p : PartId) : (s.discard p).NoStops := by
  unfold State.discard
  dsimp only
  split
  · exact h.report ..
  · split
    · exact h.imgDone ..
    · refine (State.NoStops.imgDone ?_ ..).setPart ..
      exact h.updPart p

theorem State.NoStops.quiesce {s : State} (h : s.NoStops) (p : PartId) : (s.quiesce p).NoStops := by
  unfold State.quiesce
  dsimp only
  split
  · exact h.updPart p
  · exact h.runDone ..

/-- A partition whose resources are freed (R86, R91). -/
def Partition.freed (x : Partition) : Partition :=
  { x with
    im := { x.im with img := {}, build := 0, measure := 0, fillPermille := 0, busy := none }
    run := { x.run with interlude := false, quiescing := none, stopping := none, releasing := false }
    caps := { x.caps with queue := [] }, fmt := {}, meter := { x.meter with metered := false }, fault := {}
    cmds := [], claims := [], storm := {} }

/-- The state with other banks of sequencers, Pumps and Sluices. -/
def State.withBanks (s : State) (vq : Vector Sequencer 16) (vu : Vector Pump 4) (vn : Vector Sluice 4) : State :=
  { s with seqs := vq, pumps := vu, sluices := vn }

theorem State.leaveUnits_puts (s : State) (p : PartId) : ∃ vq vu vn, s.leaveUnits p = s.withBanks vq vu vn := by
  refine ⟨(s.leaveUnits p).seqs, (s.leaveUnits p).pumps, (s.leaveUnits p).sluices, ?_⟩
  refine Eq.trans (b := (s.leaveUnits p).withBanks (s.leaveUnits p).seqs (s.leaveUnits p).pumps (s.leaveUnits p).sluices) rfl ?_
  generalize (s.leaveUnits p).seqs = vq
  generalize (s.leaveUnits p).pumps = vu
  generalize (s.leaveUnits p).sluices = vn
  unfold State.leaveUnits State.leavePumps State.leaveSluices
  dsimp only
  rw [State.over_keeps (·.withBanks vq vu vn), State.over_keeps (·.withBanks vq vu vn),
    State.over_keeps (·.withBanks vq vu vn)] <;> exact fun _ _ => rfl

/-- A partition that holds nothing (R86, R91). -/
def Partition.vacated (x : Partition) : Partition := { x.freed with state := .empty }

theorem State.freePart_eq (s : State) (p : PartId) :
    s.freePart p true = (((s.leaveUnits p).updPart p Partition.vacated).attachSeqs.showTopo s.parts[p].im.img.wardMask).updPart p
      fun x => { x with state := s.parts[p].state } := rfl

/-- The resources of a partition freed: the banks of units that forget it, and the sequencers attached anew. -/
theorem State.freePart_puts (s : State) (p : PartId) :
    ∃ vq vu vn vc, s.freePart p true =
        { s with parts := updAt s.parts p Partition.freed, seqs := vq, pumps := vu, sluices := vn, cores := vc } ∧
      ∀ n : SeqId, vq[n].wardMask = (s.updPart p Partition.vacated).wardsAttached n := by
  obtain ⟨vq, vu, vn, e1⟩ := s.leaveUnits_puts p
  rw [State.freePart_eq, e1]
  obtain ⟨v, e2, hv⟩ := ((s.withBanks vq vu vn).updPart p Partition.vacated).attachSeqs_spec
  obtain ⟨vc, e3, -⟩ := State.showTopo_spec { (s.withBanks vq vu vn).updPart p Partition.vacated with seqs := v }
    s.parts[p].im.img.wardMask
  rw [e2, e3]
  refine ⟨v, vu, vn, vc, ?_, fun n => (hv n).1⟩
  unfold State.updPart State.withBanks
  dsimp only
  rw [updAt_twice]
  have e : updAt s.parts p (fun x => { x.vacated with state := s.parts[p].state }) = updAt s.parts p Partition.freed :=
    updAt_congr rfl
  rw [e]

theorem State.NoStops.freePart {s : State} (h : s.NoStops) (p : PartId) : (s.freePart p true).NoStops := by
  obtain ⟨vq, vu, vn, vc, e, -⟩ := s.freePart_puts p
  rw [e]
  refine State.NoStops.of_parts (s := s.updPart p Partition.freed) ?_ rfl
  exact h.updPart p fun _ _ => rfl

theorem State.NoStops.releaseEnd {s : State} (h : s.NoStops) (p : PartId) : (s.releaseEnd p).NoStops := by
  unfold State.releaseEnd
  split
  · refine (State.NoStops.runDone (State.NoStops.freePart ?_ p) ..).setPart ..
    refine State.NoStops.of_duty ?_ (State.refuseQueued_duty _ p)
    exact h.updPart p
  · exact h

theorem State.NoStops.release {s : State} (h : s.NoStops) (p : PartId) : (s.release p).NoStops := by
  unfold State.release
  dsimp only
  split
  · refine State.NoStops.releaseEnd ?_ p
    exact (h.usage p 3).updPart p
  · exact h.runDone ..

/-- The one stop that was pending has ended. -/
theorem State.stopEnd_noStops {s : State} {p : PartId} (h : ∀ q : PartId, q ≠ p → s.parts[q].run.stopping = none)
    (hp : s.partDrained p = true) : (s.stopEnd p).NoStops := by
  unfold State.stopEnd
  split
  · rename_i cause byCmd _
    rw [if_pos hp]
    refine (State.NoStops.setPart ?_ p .stopped).usage p 3
    have h1 : (s.updPart p fun y => { y with run := { y.run with stopping := none, stopCause := cause } }).NoStops := by
      refine ⟨fun q => ?_⟩
      by_cases hq : q = p
      · subst hq
        exact congrArg (fun x : Partition => x.run.stopping) (updAt_self s.parts q _)
      · exact (congrArg (fun x : Partition => x.run.stopping) (updAt_other _ _ _ _ _ (Fin.val_ne_of_ne (Ne.symm hq)))).trans (h q hq)
    dsimp only
    split
    · exact h1.runDone ..
    · exact h1
  · rename_i hn
    refine ⟨fun q => ?_⟩
    by_cases hq : q = p
    · subst hq
      exact hn
    · exact h q hq

/-- A stop that has been taken with no other pending: it has ended, or it waits. -/
theorem State.NoStops.stopFor {s : State} (h : s.NoStops) (p : PartId) (cause : Byte) : (s.stopFor p cause).Settled := by
  unfold State.stopFor
  dsimp only
  split
  · rename_i hc
    have hst : s.parts[p].stoppable = true := by
      simp only [Bool.and_eq_true] at hc
      simp only [Partition.stoppable, hc.1.1, h.unstopped p, Option.isNone_none, Bool.and_self]
    have hd := (State.stopPart_serves (s := s) cause true 0 hst).standing
    generalize s.stopPart p cause true 0 = t at hd
    have other (q : PartId) (hq : q ≠ p) : t.parts[q].run.stopping = none := by
      rw [State.stopping_of_standing hd]
      exact (congrArg (fun x : Partition => x.run.stopping) (updAt_other _ _ _ _ _ (Fin.val_ne_of_ne hq.symm))).trans (h.unstopped q)
    by_cases hp : t.partDrained p = true
    · exact (State.stopEnd_noStops other hp).settled
    · have hp := Bool.eq_false_iff.mpr hp
      rw [State.stopEnd_of_undrained hp]
      intro q
      by_cases hq : q = p
      · exact .inr (hq ▸ hp)
      · exact .inl (other q hq)
  · exact (h.runDone ..).settled

/-! ### An epoch of one write -/

/-- The rank of a write is one of the four of R103. -/
theorem writeRank_cases (w : CtlWrite) : writeRank w = 2 ∨ writeRank w = 3 ∨ writeRank w = 4 ∨ writeRank w = 5 := by
  unfold writeRank
  dsimp only
  (repeat' split) <;> simp

/-- A write of rank 2 is a power cap. -/
theorem blockOf_of_rank2 {w : CtlWrite} (h : writeRank w = 2) : blockOf w.offset = .stw 0x280 := by
  unfold writeRank at h
  dsimp only at h
  split at h
  · rename_i e
    split at h
    · rename_i hx
      rw [e, hx]
    · simp at h
  · (repeat' split at h) <;> simp at h
  · simp at h

/-- A write of rank 3 is a QUIESCE, STOP, RELEASE or DISCARD. -/
theorem blockOf_of_rank3 {w : CtlWrite} (h : writeRank w = 3) : ∃ p : PartId, bit w.value 0 = true ∧
    (blockOf w.offset = .prt p 0x000 ∧ bits w.value 1 3 ∈ [2, 4, 5] ∨
      blockOf w.offset = .prt p 0x108 ∧ bits w.value 1 2 = 3) := by
  unfold writeRank at h
  dsimp only at h
  split at h
  · split at h <;> simp at h
  · rename_i p x e
    refine ⟨p, ?_⟩
    rw [e]
    split at h
    · rename_i hx
      obtain ⟨rfl, hb⟩ := hx
      refine ⟨hb, .inl ⟨rfl, ?_⟩⟩
      split at h <;> simp_all
    · split at h
      · rename_i hx
        obtain ⟨rfl, hb⟩ := hx
        refine ⟨hb, .inr ⟨rfl, ?_⟩⟩
        split at h <;> simp_all
      · simp at h
  · simp at h

theorem State.NoStops.runCtrl {s : State} (h : s.NoStops) (p : PartId) {v : W64} (hb : bit v 0 = true)
    (hc : bits v 1 3 ∈ [2, 4, 5]) : (s.runCtrl p v).Settled := by
  have h1 : (s.updPart p fun x => { x with run := { x.run with cmd := BitVec.ofNat 3 (bits v 1 3) } }).NoStops := h.updPart p
  unfold State.runCtrl
  dsimp only
  rw [hb]
  simp only [List.mem_cons, List.not_mem_nil, or_false] at hc
  rcases hc with e | e | e <;> rw [e] at h1 ⊢
  · exact (h1.quiesce p).settled
  · exact h1.stopFor p 0x01
  · exact (h1.release p).settled

theorem State.NoStops.imgCtrl_discard {s : State} (h : s.NoStops) (p : PartId) {v : W64} (hb : bit v 0 = true)
    (hc : bits v 1 2 = 3) : (s.imgCtrl p v).NoStops := by
  unfold State.imgCtrl
  dsimp only
  rw [hb, hc]
  split
  · exact h.report ..
  · exact State.NoStops.discard (h.updPart p) p

/-- A write of rank 2 or 3 leaves no stop that the next round would end. -/
theorem State.NoStops.applyWrite {s : State} (h : s.NoStops) {w : CtlWrite} (n : Nat)
    (hr : writeRank w = 2 ∨ writeRank w = 3) : (s.applyWrite w n).Settled := by
  unfold State.applyWrite
  split
  · exact (h.report ..).settled
  · unfold State.writeReg
    rcases hr with hr | hr
    · rw [blockOf_of_rank2 hr]
      exact (h.of_parts rfl).settled
    · obtain ⟨p, hb, ⟨e, hc⟩ | ⟨e, hc⟩⟩ := blockOf_of_rank3 hr <;> rw [e]
      · exact h.runCtrl p hb hc
      · exact (h.imgCtrl_discard p hb hc).settled

/-- A write without a message to answer. -/
theorem State.applyPending_quiet (s : State) (w : CtlWrite) (n : Nat) :
    s.applyPending { w := w, epoch := n } = s.applyWrite w n := rfl

theorem State.startOrder_nil (s : State) (n : Nat) : s.startOrder n [] = [] := by
  cases n <;> rfl

theorem State.startOrder_single (s : State) (w : PendingWrite) : s.startOrder [w].length [w] = [w] := rfl

theorem State.over_single {α : Type} (s : State) (x : α) (f : State → α → State) : s.over [x] f = f s x := rfl

/-- Where no stop is pending, an epoch of one write without a message is that write's effect. -/
theorem State.applyEpoch_single {s : State} (h : s.NoStops) (w : CtlWrite) (n : Nat) :
    s.applyEpoch [{ w := w, epoch := n }] = s.applyWrite w n := by
  have hw (r : Nat) : [({ w := w, epoch := n } : PendingWrite)].filter (fun x => writeRank x.w == r) =
      if writeRank w = r then [{ w := w, epoch := n }] else [] := by
    simp only [List.filter_cons, List.filter_nil, beq_iff_eq]
  unfold State.applyEpoch
  dsimp only
  rw [h.settled.over]
  simp only [hw]
  rcases writeRank_cases w with hr | hr | hr | hr
  all_goals
    simp only [hr, Nat.reduceEqDiff, if_true, if_false, State.over_nil, State.over_single, State.startOrder_nil,
      State.startOrder_single, State.applyPending_quiet]
  · exact (h.applyWrite n (.inl hr)).over _
  · exact (h.applyWrite n (.inr hr)).over _
  all_goals rw [h.settled.over]

theorem State.applyWrite_powerCap (s : State) {w : CtlWrite} (h : w.offset = 0x280) (n : Nat) :
    s.applyWrite w n = s.setPowerCap (BitVec.ofNat 16 (w.value.toNat % 65536)) := by
  have hb : blockOf 0x280 = .stw 0x280 := by decide
  have hv : bits w.value 0 16 = w.value.toNat % 65536 := by simp [bits]
  simp [State.applyWrite, State.locked, State.writeReg, h, hb, hv]

/-- The end of the one epoch in which anything waits. -/
theorem State.endEpoch_single {s : State} (hf : s.ctl.fences = []) {w : CtlWrite} {n : Nat}
    (hw : s.ctl.writes = [{ w := w, epoch := n }]) (h : s.NoStops) :
    s.endEpoch n = ({ s with ctl := { s.ctl with writes := [] } } : State).applyWrite w n := by
  have e0 : ({ s with ctl := { s.ctl with fences := [], writes := [] } } : State) =
      { s with ctl := { s.ctl with writes := [] } } :=
    congrArg (fun f => ({ s with ctl := { s.ctl with fences := f, writes := [] } } : State)) hf.symm
  unfold State.endEpoch
  simp only [hf, hw, List.filter_nil, List.filter_cons, List.map_nil, beq_self_eq_true, bne_self_eq_false, if_true,
    Bool.false_eq_true, if_false, State.over_nil]
  rw [e0]
  have h1 : ({ s with ctl := { s.ctl with writes := [] } } : State).NoStops := ⟨h.unstopped⟩
  exact State.applyEpoch_single h1 w n

theorem Control.epochs_single {c : Control} (hf : c.fences = []) {w : PendingWrite} (hw : c.writes = [w]) :
    c.epochs w.epoch = [w.epoch] := by
  simp [Control.epochs, hf, hw, insertNat]

/-! ### A write that arrives (R96, R97, R99, R100) -/

/-- A record raised is the generation it is raised to, which it did not exceed. -/
theorem State.genRecord_raiseGen {s : State} {m : Byte} {g : W32} (h : (s.genRecord m).toNat ≤ g.toNat) :
    (s.raiseGen m g).genRecord m = g := by
  unfold State.raiseGen
  split
  · rename_i hlt
    have hg : g ≠ 0 := fun e => by rw [e] at hlt; exact absurd hlt (Nat.not_lt_zero _)
    show (Sparse.set 0 s.ctl.recordedGen m.toNat g).getD m.toNat 0 = g
    rw [Sparse.set, if_neg hg]
    exact Sparse.getD_put_self ..
  · rename_i hge
    exact BitVec.eq_of_toNat_eq (Nat.le_antisymm h (Nat.not_lt.mp hge))

theorem State.genRecord_raiseGen_other {s : State} {m k : Byte} (g : W32) (h : k ≠ m) :
    (s.raiseGen m g).genRecord k = s.genRecord k := by
  unfold State.raiseGen
  split
  · exact Sparse.getD_set_other 0 _ g fun e => h (BitVec.eq_of_toNat_eq e.symm)
  · rfl

/-- A record raised changes the recorded generations alone. -/
theorem State.raiseGen_puts (s : State) (m : Byte) (g : W32) :
    ∃ v, s.raiseGen m g = { s with ctl := { s.ctl with recordedGen := v } } := by
  unfold State.raiseGen
  split
  · exact ⟨_, rfl⟩
  · exact ⟨s.ctl.recordedGen, rfl⟩

/-- A write at or above the record of its master, which it raises. -/
theorem State.writeArrives_accepted {s : State} {w : CtlWrite} (ha : s.power.alwaysOn = true)
    (hp : reaches w.master w.offset = true) (ht : genTarget w.offset = none)
    (hg : (s.genRecord w.master).toNat ≤ (s.writeGen w).toNat) :
    s.writeArrives w none = (s.raiseGen w.master (s.writeGen w)).accepted { w with gen := s.writeGen w } none := by
  unfold State.writeArrives
  simp [ha, hp, ht, Nat.not_lt.mpr hg]

/-- A write below the record of its master. -/
theorem State.writeArrives_stale {s : State} {w : CtlWrite} (ha : s.power.alwaysOn = true)
    (hp : reaches w.master w.offset = true) (ht : genTarget w.offset = none)
    (hg : (s.writeGen w).toNat < (s.genRecord w.master).toNat) : s.writeArrives w none = s.stale w none := by
  unfold State.writeArrives
  simp [ha, hp, ht, hg]

theorem State.accepted_refused {s : State} {w : CtlWrite} (hb : blockOf w.offset ≠ .none) (hs : s.served w.offset = true)
    (hm : s.mayWrite w = false) :
    s.accepted w none = s.report w.master w.offset .refusedOwner false (windowPart w.offset) := by
  unfold State.accepted
  rw [if_neg (by simp [hb, hs]), if_pos (by simp [hm])]
  rfl

theorem State.accepted_taken {s : State} {w : CtlWrite} (hb : blockOf w.offset ≠ .none) (hs : s.served w.offset = true)
    (hm : s.mayWrite w = true) (ha : s.absentWindow w.offset = false) (ht : genTarget w.offset = none) :
    s.accepted w none = let u := s.wakeAccess w.offset
      { u with ctl := { u.ctl with writes := u.ctl.writes ++ [{ w := w, epoch := s.epoch }] } } := by
  unfold State.accepted
  rw [if_neg (by simp [hb, hs]), if_neg (by simp [hm]), if_neg (by simp [ha]), ht]

theorem State.accepted_gen {s : State} {w : CtlWrite} {m : Byte} (hb : blockOf w.offset ≠ .none)
    (hs : s.served w.offset = true) (hm : s.mayWrite w = true) (ha : s.absentWindow w.offset = false)
    (ht : genTarget w.offset = some m) : s.accepted w none = s.setGen m w none := by
  unfold State.accepted
  rw [if_neg (by simp [hb, hs]), if_neg (by simp [hm]), if_neg (by simp [ha]), ht]

/-- An access wakes the holder of a unit at rest, or nothing. -/
theorem State.wakeAccess_cases (s : State) (off : Nat) : s.wakeAccess off = s ∨ ∃ p, s.wakeAccess off = s.wake p := by
  unfold State.wakeAccess
  dsimp only
  split
  · rename_i p f _
    cases hf : s.fields[f].retained
    · exact .inl rfl
    · exact .inr ⟨p, rfl⟩
  · exact .inl rfl

/-- What no wake changes of the state. -/
def State.unslept (s : State) : Control × Power × Vector Machine.Core 192 × Vector Sequencer 16 × Memory × Fuses :=
  (s.ctl, s.power, s.cores, s.seqs, s.host, s.fuses)

theorem State.wake_unslept (s : State) (p : PartId) : (s.wake p).unslept = s.unslept := by
  have hfield (t : State) (f : FieldId) : (t.unretain f).unslept = t.unslept := by
    unfold State.unretain
    split <;> rfl
  obtain ⟨t, e, h⟩ := s.wakeTo_keeps State.unslept (fun _ _ => rfl) (fun _ _ => rfl) hfield p 0
  unfold State.wake
  rw [e]
  exact h

theorem State.wakeAccess_unslept (s : State) (off : Nat) : (s.wakeAccess off).unslept = s.unslept := by
  obtain e | ⟨p, e⟩ := s.wakeAccess_cases off <;> rw [e]
  exact s.wake_unslept p

/-- Of a partition, an access that wakes changes what rests alone. -/
theorem State.wakeAccess_part (s : State) (off : Nat) (p : PartId) :
    { (s.wakeAccess off).parts[p] with lull := s.parts[p].lull } = s.parts[p] := by
  obtain e | ⟨q, e⟩ := s.wakeAccess_cases off <;> rw [e]
  rw [s.wake_parts]
  exact updAt_keeps (fun x : Partition => { x with lull := s.parts[p].lull }) s.parts q p
    (f := fun x => { x with lull := x.lull.woken s.timeNs }) fun _ => rfl

theorem State.raiseGen_served (s : State) (m : Byte) (g : W32) (off : Nat) :
    (s.raiseGen m g).served off = s.served off := by
  obtain ⟨v, e⟩ := s.raiseGen_puts m g
  rw [e]
  rfl

theorem State.raiseGen_mayWrite (s : State) (m : Byte) (g : W32) (w : CtlWrite) :
    (s.raiseGen m g).mayWrite w = s.mayWrite w := by
  obtain ⟨v, e⟩ := s.raiseGen_puts m g
  rw [e]
  rfl

theorem State.raiseGen_absentWindow (s : State) (m : Byte) (g : W32) (off : Nat) :
    (s.raiseGen m g).absentWindow off = s.absentWindow off := by
  obtain ⟨v, e⟩ := s.raiseGen_puts m g
  rw [e]
  rfl

/-- A report leaves the recorded generations. -/
theorem State.report_genRecord (s : State) (m : Byte) (off : Nat) (o : OutcomeCode) (stale : Bool) (w : Option PartId)
    (k : Byte) : (s.report m off o stale w).genRecord k = s.genRecord k := by
  obtain ⟨v, pb, -, e⟩ := s.report_eq m off o stale w
  rw [e]
  rfl

section
variable {s : State} {w : CtlWrite} (ha : s.power.alwaysOn = true) (hp : reaches w.master w.offset = true)
  (ht : genTarget w.offset = none)
include ha hp ht

theorem exec_registerWrite_stale (hg : (s.writeGen w).toNat < (s.genRecord w.master).toNat) :
    exec (.registerWrite (.control w)) s =
      .next (s.report w.master w.offset .refusedState true (windowPart w.offset)) :=
  congrArg Outcome.next (State.writeArrives_stale ha hp ht hg)

theorem exec_registerWrite_refused (hg : (s.genRecord w.master).toNat ≤ (s.writeGen w).toNat)
    (hb : blockOf w.offset ≠ .none) (hs : s.served w.offset = true) (hm : s.mayWrite w = false) :
    exec (.registerWrite (.control w)) s = .next ((s.raiseGen w.master (s.writeGen w)).report w.master w.offset
      .refusedOwner false (windowPart w.offset)) := by
  refine congrArg Outcome.next ((State.writeArrives_accepted ha hp ht hg).trans (State.accepted_refused hb ?_ ?_))
  · exact (s.raiseGen_served ..).trans hs
  · exact (s.raiseGen_mayWrite ..).trans hm

theorem exec_registerWrite_taken (hg : (s.genRecord w.master).toNat ≤ (s.writeGen w).toNat)
    (hb : blockOf w.offset ≠ .none) (hs : s.served w.offset = true) (hm : s.mayWrite w = true)
    (hw : s.absentWindow w.offset = false) :
    exec (.registerWrite (.control w)) s =
      let r := s.raiseGen w.master (s.writeGen w)
      let u := r.wakeAccess w.offset
      .next { u with ctl := { u.ctl with
        writes := u.ctl.writes ++ [{ w := { w with gen := s.writeGen w }, epoch := r.epoch }] } } := by
  refine congrArg Outcome.next ((State.writeArrives_accepted ha hp ht hg).trans (State.accepted_taken hb ?_ ?_ ?_ ht))
  · exact (s.raiseGen_served ..).trans hs
  · exact (s.raiseGen_mayWrite ..).trans hm
  · exact (s.raiseGen_absentWindow ..).trans hw

end

/-! ### The generations of the drivers (R96, R99, R100) -/

/-- The write of a driver's generation register, by that driver (R99). -/
structure GenWrite (s : State) (w : CtlWrite) (g : W32) : Prop where
  ready : Ready s
  reached : reaches w.master w.offset = true
  target : genTarget w.offset = some w.master
  occupied : blockOf w.offset ≠ .none
  served : s.served w.offset = true
  present : s.absentWindow w.offset = false
  value : w.value = g.setWidth 64

section
variable {s : State} {w : CtlWrite} {g : W32} (h : GenWrite s w g)
include h

theorem GenWrite.mayWrite : s.mayWrite w = (w.master == s.owner w.offset) := by
  simp [State.mayWrite, h.ready.2.1]

theorem GenWrite.arrives : s.writeArrives w none = s.accepted w none := by
  unfold State.writeArrives
  simp [h.ready.1, h.reached, h.target]

theorem GenWrite.refused (ho : s.owner w.offset ≠ w.master) :
    s.writeArrives w none = s.report w.master w.offset .refusedOwner false (windowPart w.offset) :=
  h.arrives.trans (State.accepted_refused h.occupied h.served (h.mayWrite.trans (beq_eq_false_iff_ne.mpr ho.symm)))

theorem GenWrite.owned (ho : s.owner w.offset = w.master) : s.writeArrives w none = s.setGen w.master w none :=
  h.arrives.trans (State.accepted_gen h.occupied h.served (h.mayWrite.trans (beq_iff_eq.mpr ho.symm)) h.present h.target)

theorem GenWrite.gen : w.value.setWidth 32 = g := by
  rw [h.value]
  simp

theorem GenWrite.stale (ho : s.owner w.offset = w.master) (hg : g.toNat < (s.genRecord w.master).toNat) :
    s.writeArrives w none = s.report w.master w.offset .refusedState true (windowPart w.offset) := by
  rw [h.owned ho]
  unfold State.setGen
  dsimp only
  rw [h.gen, if_pos hg]
  rfl

theorem GenWrite.taken (ho : s.owner w.offset = w.master) (hg : (s.genRecord w.master).toNat ≤ g.toNat) :
    s.writeArrives w none =
      let r := s.raiseGen w.master g
      if w.master = 0x04 then { r with ctl := { r.ctl with pfGen := g } }
      else r.updPart (partOf (w.master.toNat - 0x10)) fun x => { x with run := { x.run with drvGen := g } } := by
  rw [h.owned ho]
  unfold State.setGen
  dsimp only
  rw [h.gen, if_neg (Nat.not_lt.mpr hg)]
  rfl

end

theorem genWrite_pf {s : State} (h : Ready s) (g : W32) : GenWrite s ⟨0x04, 0, 0x480, g.setWidth 64⟩ g where
  ready := h
  reached := show reaches 0x04 0x480 = true by decide
  target := show genTarget 0x480 = some 0x04 by decide
  occupied := show blockOf 0x480 ≠ .none by decide
  served := by
    have hb : blockOf 0x480 = .stw 0x480 := by decide
    simp [State.served, hb, h.1, h.2.1]
  present := by
    have hb : blockOf 0x480 = .stw 0x480 := by decide
    simp [State.absentWindow, hb]
  value := rfl

theorem masterOf_vf (p : PartId) : masterOf (.vf p) ≠ 0x04 ∧ partOf ((masterOf (.vf p)).toNat - 0x10) = p := by
  revert p
  decide

theorem blockOf_drvGen (p : PartId) : blockOf (prtOffset p 0x010) = .prt p 0x010 := by
  revert p
  decide

theorem genWrite_driver {s : State} (h : Ready s) (p : PartId) (g : W32) :
    GenWrite s ⟨masterOf (.vf p), 0, prtOffset p 0x010, g.setWidth 64⟩ g where
  ready := h
  reached := by
    show reaches (masterOf (.vf p)) (prtOffset p 0x010) = true
    revert p
    decide
  target := by
    show genTarget (prtOffset p 0x010) = some (masterOf (.vf p))
    revert p
    decide
  occupied := by
    rw [blockOf_drvGen]
    exact Block.noConfusion
  served := by simp [State.served, blockOf_drvGen, h.1, h.2.1, h.2.2]
  present := by simp [State.absentWindow, blockOf_drvGen]
  value := rfl

/-! ### What closes at the end of an epoch -/

theorem State.closeFlags_flags (s : State) (r : FlagReg) :
    { s.closeFlags.flags r with recent := (s.flags r).recent } = s.flags r := by
  unfold State.closeFlags
  cases r <;> simp [State.flags, Flags.prune]

theorem State.closeFlags_core (s : State) (c : CoreId) :
    s.closeFlags.cores[c].k = s.cores[c].k ∧ s.closeFlags.cores[c].mem = s.cores[c].mem ∧
      s.closeFlags.cores[c].queues = s.cores[c].queues := by
  simp [State.closeFlags]

theorem State.closeFlags_well (s : State) (w : WellId) :
    { s.closeFlags.wells[w] with flags := s.wells[w].flags } = s.wells[w] := by
  simp [State.closeFlags]

/-- Settles O18: a write is taken, refused or ignored in the order of its checks, an epoch of one write is that write's
effect because no stop is left for the rounds before and after it, and each driver sets its own generation at once. -/
theorem controlWritesWaitForTheEndOfTheirEpoch : Obligations.ControlWritesWaitForTheEndOfTheirEpoch := by
  unfold Obligations.ControlWritesWaitForTheEndOfTheirEpoch
  refine ⟨fun s w ha hp ht => ⟨fun hg => ?_, fun hg hb hs hm => ?_, fun hg hb hs hm hw => ?_⟩, fun s n => ?_, fun s n w => ?_,
    fun s g h => ⟨fun ho => ?_, fun ho hg => ?_, fun ho hg => ?_⟩, fun s p g h => ⟨fun ho => ?_, fun ho hg => ?_, fun ho hg => ?_⟩,
    fun s off hs ha => ?_⟩
  · exact ⟨_, exec_registerWrite_stale ha hp ht hg, State.report_refused ..⟩
  · refine ⟨_, exec_registerWrite_refused ha hp ht hg hb hs hm, ?_, State.report_refused ..⟩
    exact (State.report_genRecord ..).trans (State.genRecord_raiseGen hg)
  · refine ⟨_, exec_registerWrite_taken ha hp ht hg hb hs hm hw, ?_⟩
    have hr := State.genRecord_raiseGen hg
    have hother (m : Byte) (hne : m ≠ w.master) := State.genRecord_raiseGen_other (s := s) (s.writeGen w) hne
    obtain ⟨v, e⟩ := s.raiseGen_puts w.master (s.writeGen w)
    generalize s.raiseGen w.master (s.writeGen w) = r at hr hother e
    have hu := r.wakeAccess_unslept w.offset
    have hpart := r.wakeAccess_part w.offset
    generalize r.wakeAccess w.offset = u at hu hpart
    simp only [State.unslept, Prod.mk.injEq] at hu
    obtain ⟨hctl, hpower, hcores, hseqs, hhost, hfuses⟩ := hu
    have hrec (m : Byte) : Sparse.getD u.ctl.recordedGen m.toNat 0 = r.genRecord m := by
      rw [hctl]
      rfl
    refine ⟨(hrec _).trans hr, fun m hm => (hrec m).trans (hother m hm), ?_, ?_⟩
    · dsimp only
      rw [hctl, e]
      rfl
    · subst e
      exact ⟨hpower, hcores, hseqs, hhost, hfuses, hpart⟩
  · intro s1 he
    refine ⟨s1.closeFlags, ?_, s1.closeFlags_flags, s1.closeFlags_core, s1.closeFlags_well, rfl⟩
    show Outcome.next ((s1.over (s1.ctl.epochs n) fun s e => s.endEpoch e).closeFlags) = _
    rw [he]
    rfl
  · intro s1 hf hw hstop
    have he : s1.ctl.epochs n = [n] := Control.epochs_single (w := { w := w, epoch := n }) hf hw
    refine ⟨_, ?_, rfl, fun h => ?_⟩
    · show Outcome.next ((s1.over (s1.ctl.epochs n) fun s e => s.endEpoch e).closeFlags) = _
      rw [he]
      exact congrArg (fun t => Outcome.next t.closeFlags) (State.endEpoch_single hf hw ⟨hstop⟩)
    · rw [State.applyWrite_powerCap _ h]
      exact ⟨rfl, rfl, rfl, rfl⟩
  · exact ⟨_, congrArg Outcome.next ((genWrite_pf h g).refused ho), State.report_refused ..⟩
  · refine ⟨_, congrArg Outcome.next ((genWrite_pf h g).taken ho hg), rfl, State.genRecord_raiseGen hg,
      fun m hm => State.genRecord_raiseGen_other g hm, ?_⟩
    obtain ⟨v, e⟩ := s.raiseGen_puts 0x04 g
    dsimp only
    rw [if_pos rfl, e]
  · exact ⟨_, congrArg Outcome.next ((genWrite_pf h g).stale ho hg), State.report_refused ..⟩
  · exact ⟨_, congrArg Outcome.next ((genWrite_driver h p g).refused ho), State.report_refused ..⟩
  · obtain ⟨hm, hpart⟩ := masterOf_vf p
    have e := (genWrite_driver h p g).taken ho hg
    dsimp only at e
    rw [if_neg hm, hpart] at e
    obtain ⟨v, er⟩ := s.raiseGen_puts (masterOf (.vf p)) g
    refine ⟨_, congrArg Outcome.next e, State.genRecord_raiseGen hg, ?_⟩
    rw [er]
    exact ⟨rfl, rfl⟩
  · exact ⟨_, congrArg Outcome.next ((genWrite_driver h p g).stale ho hg), State.report_refused ..⟩
  · refine ⟨_, congrArg Outcome.next (if_pos hs), ?_⟩
    rw [ha]
    exact ⟨State.event_noted .., rfl⟩

end Sys2Proof.Machine

/-! SUPPORT. What the completion records of a partition, and the halt of what it runs, leave of the state (04 R89; 05 R122
to R124). -/

namespace Sys2Proof.Machine

/-- The Pump items of a partition, beside nothing else. -/
def Partition.items (x : Partition) : Partition := { cmds := x.cmds, claims := x.claims }

/-- The items of an axis engine. -/
def AxisEngine.items (x : AxisEngine) : List Coll × List Coll × List AtomicItem := (x.waiting, x.colls, x.atomics)

/-- What work for one partition that needs no engine leaves alone: other partitions and its own Pump items, wells, Pumps,
Sluices, transfers, the items of axis engines, and the memory of cores. -/
def State.aside (p : PartId) (s : State) : Vector Partition 16 × Vector MemCtl 12 × Vector Pump 4 × Vector Sluice 4 ×
    List Xfer × Vector (List Coll × List Coll × List AtomicItem) 3 × Vector Memory 192 :=
  (updAt s.parts p Partition.items, s.wells, s.pumps, s.sluices, s.xfers, s.axes.map AxisEngine.items, s.cores.map Core.mem)

@[simp] theorem State.updPart_aside (s : State) (p : PartId) (f : Partition → Partition) (hc : ∀ x, (f x).cmds = x.cmds)
    (hl : ∀ x, (f x).claims = x.claims) : (s.updPart p f).aside p = s.aside p := by
  have h : updAt (updAt s.parts p f) p Partition.items = updAt s.parts p Partition.items := by
    rw [updAt_twice]
    exact updAt_congr (by simp only [Partition.items, hc, hl])
  simp only [State.aside, State.updPart, h]

@[simp] theorem State.updSeq_aside (s : State) (p : PartId) (n : SeqId) (f : Sequencer → Sequencer) :
    (s.updSeq n f).aside p = s.aside p := by
  rfl

@[simp] theorem State.updCore_aside (s : State) (p : PartId) (c : CoreId) (f : Machine.Core → Machine.Core)
    (h : ∀ x, (f x).mem = x.mem) : (s.updCore c f).aside p = s.aside p := by
  simp only [State.aside, State.updCore, map_updAt Core.mem s.cores c h]

@[simp] theorem State.msi_aside (s : State) (p : PartId) (fn : PciFn) (v : Nat) : (s.msi fn v).aside p = s.aside p := by
  rfl

@[simp] theorem State.over_aside {α : Type} (p : PartId) (l : List α) (f : State → α → State)
    (h : ∀ s x, (f s x).aside p = s.aside p) (s : State) : (s.over l f).aside p = s.aside p :=
  State.over_keeps (State.aside p) l f h s

@[simp] theorem State.updAxis_aside (s : State) (p : PartId) (a : AxisId) (f : AxisEngine → AxisEngine)
    (h : ∀ x, (f x).items = x.items) : (s.updAxis a f).aside p = s.aside p := by
  simp only [State.aside, State.updAxis, map_updAt AxisEngine.items s.axes a h]

@[simp] theorem State.act_aside (s : State) (p : PartId) (unit q n : Nat) : (s.act unit q n).aside p = s.aside p := by
  rfl

@[simp] theorem State.meter_aside (s : State) (p : PartId) (k : Fin 14) (n : Nat) : (s.meter p k n).aside p = s.aside p :=
  (State.iff_keeps (State.aside p) _ _ (fun t => t.act_aside p 26 p.val n) _).trans
    (s.updPart_aside p _ (fun x => by split <;> rfl) fun x => by split <;> rfl)

@[simp] theorem State.raiseV0_aside (s : State) (p : PartId) : (s.raiseV0 p).aside p = s.aside p := by
  simp [State.raiseV0]

@[simp] theorem State.raiseCtr_aside (s : State) (p : PartId) (c : CoreId) (n : CtrId) (ok : Bool) :
    (s.raiseCtr c n ok).aside p = s.aside p := by
  simp [State.raiseCtr]

@[simp] theorem State.countAxis_aside (s : State) (p : PartId) (r : Record) : (s.countAxis r).aside p = s.aside p := by
  unfold State.countAxis
  split
  · rfl
  · exact s.updAxis_aside p _ _ fun _ => rfl

@[simp] theorem State.written_aside (s : State) (p : PartId) (r : Record) : (s.written r).aside p = s.aside p := by
  unfold State.written
  split <;> simp

@[simp] theorem State.writeRing_aside (s : State) (p : PartId) (r : Record) (v0 : Bool) :
    (s.writeRing p r v0).aside p = s.aside p := by
  have h (h' : Memory) : ({ s with host := h' } : State).aside p = s.aside p := rfl
  unfold State.writeRing
  dsimp only
  split <;> simp [h]

@[simp] theorem State.orphan_aside (s : State) (p : PartId) (r : Record) (words : List W64) :
    (s.orphan p r words).aside p = s.aside p := by
  simp [State.orphan]

@[simp] theorem State.touch_aside (s : State) (p : PartId) : (s.touch p).aside p = s.aside p := by
  simp [State.touch]

@[simp] theorem State.post_aside (s : State) (p : PartId) (r : Record) (v0 : Bool) : (s.post p r v0).aside p = s.aside p := by
  unfold State.post
  dsimp only
  (repeat' split) <;> simp

@[simp] theorem State.capDone_aside (s : State) (p : PartId) (c : Capsule) (e : Byte) (o : OutcomeCode) (d : Nat) :
    (s.capDone p c e o d).aside p = s.aside p := State.post_aside ..

@[simp] theorem State.refuseQueued_aside (s : State) (p : PartId) : (s.refuseQueued p).aside p = s.aside p := by
  simp [State.refuseQueued]

theorem State.endProgram_aside (s : State) (x : Program) (o : OutcomeCode) (detail : W64) (inc : W32) :
    (s.endProgram x o detail inc).aside x.part = s.aside x.part := by
  have h (l : List Program) : ({ s with programs := l } : State).aside x.part = s.aside x.part := rfl
  simp [State.endProgram, h]

@[simp] theorem State.haltSeqs_aside (s : State) (p : PartId) : (s.haltSeqs p).aside p = s.aside p := by
  simp [State.haltSeqs]

@[simp] theorem State.haltCores_aside (s : State) (p : PartId) : (s.haltCores p).aside p = s.aside p := by
  simp [State.haltCores]

/-- What `State.aside` holds of other partitions, and of the own Pump items. -/
theorem State.parts_of_aside {p : PartId} {s t : State} (h : t.aside p = s.aside p) :
    OnlyPart p s t ∧ t.parts[p].cmds = s.parts[p].cmds ∧ t.parts[p].claims = s.parts[p].claims := by
  have hv : updAt t.parts p Partition.items = updAt s.parts p Partition.items := congrArg Prod.fst h
  have hp := congrArg (fun v : Vector Partition 16 => v[p]) hv
  simp only [Fin.getElem_fin, updAt_self, Partition.items, Partition.mk.injEq] at hp
  refine ⟨fun q hq => ?_, by tauto, by tauto⟩
  have e := congrArg (fun v : Vector Partition 16 => v[q]) hv
  rwa [Fin.getElem_fin, Fin.getElem_fin, updAt_other _ _ _ _ _ (Fin.val_ne_of_ne hq.symm),
    updAt_other _ _ _ _ _ (Fin.val_ne_of_ne hq.symm)] at e

theorem State.units_of_aside {p : PartId} {s t : State} (h : t.aside p = s.aside p) :
    t.wells = s.wells ∧ t.pumps = s.pumps ∧ t.sluices = s.sluices ∧ t.xfers = s.xfers := by
  simp only [State.aside, Prod.mk.injEq] at h
  exact ⟨h.2.1, h.2.2.1, h.2.2.2.1, h.2.2.2.2.1⟩

theorem State.axis_of_aside {p : PartId} {s t : State} (h : t.aside p = s.aside p) (a : AxisId) :
    t.axes[a].waiting = s.axes[a].waiting ∧ t.axes[a].colls = s.axes[a].colls ∧ t.axes[a].atomics = s.axes[a].atomics := by
  have e := congrArg (fun v => v.2.2.2.2.2.1[a]) h
  simpa [State.aside, AxisEngine.items] using e

theorem State.coreMem_of_aside {p : PartId} {s t : State} (h : t.aside p = s.aside p) (c : CoreId) :
    t.cores[c].mem = s.cores[c].mem := by
  have e := congrArg (fun v => v.2.2.2.2.2.2[c]) h
  simpa [State.aside] using e

end Sys2Proof.Machine

/-! SUPPORT. How a partition moves from one state to the next (04 R86 to R89, R108, R109), and with it RUN_CONTROL. -/

namespace Sys2Proof.Machine

open Host

/-! ### A partition enters a state -/

theorem State.updPart_self (s : State) (p : PartId) (f : Partition → Partition) : (s.updPart p f).parts[p] = f s.parts[p] :=
  updAt_self s.parts p f

theorem State.updPart_other (s : State) {p q : PartId} (h : q ≠ p) (f : Partition → Partition) :
    (s.updPart p f).parts[q] = s.parts[q] := updAt_other _ _ _ _ _ (Fin.val_ne_of_ne h.symm)

theorem MemCtl.leaves_flipPart (m : MemCtl) (p : PartId) : (m.leaves p).flipPart ≠ some p := by
  unfold MemCtl.leaves
  split
  · exact nofun
  · assumption

/-- Where a partition leaves QUIESCED, no flip mask stays armed for it. -/
theorem State.setPart_puts (s : State) (p : PartId) (st : PartState) (h : s.parts[p].state ≠ st) :
    ∃ vw vu, s.setPart p st =
        { s with parts := updAt s.parts p (fun x => { x with state := st }), wells := vw, pumps := vu
                 link := { s.link with msi := s.link.msi ++ [(.pf, 32 + p.val), (.vf p, 1)] } } ∧
      (s.parts[p].state ≠ .quiesced → vw = s.wells ∧ vu = s.pumps) ∧
      (s.parts[p].state = .quiesced → ∀ w : WellId, vw[w].flipPart ≠ some p) := by
  have hmsi : s.link.msi ++ [(PciFn.pf, 32 + p.val)] ++ [(.vf p, 1)] = s.link.msi ++ [(.pf, 32 + p.val), (.vf p, 1)] :=
    List.append_assoc ..
  unfold State.setPart State.updPart State.msi
  rw [if_neg (mt LawfulBEq.eq_of_beq h)]
  by_cases hq : s.parts[p].state = .quiesced
  · simp only [hq, beq_self_eq_true, if_true, hmsi]
    refine ⟨_, _, rfl, fun hn => absurd rfl hn, fun _ w => ?_⟩
    rw [Fin.getElem_fin, Vector.getElem_map]
    exact MemCtl.leaves_flipPart _ p
  · simp only [beq_eq_false_iff_ne.mpr hq, Bool.false_eq_true, if_false, hmsi]
    exact ⟨s.wells, s.pumps, rfl, fun _ => ⟨rfl, rfl⟩, fun h => absurd h hq⟩

/-- A record taken is judged by the ring and by host memory alone. -/
theorem usageTaken_of_meter {p : PartId} {u : UsageRecord} {s v t : State} {m : PMeter} (h : UsageTaken p u v t m)
    (hm : v.parts[p].meter = s.parts[p].meter) (hh : v.host = s.host) : UsageTaken p u s t m := by
  unfold UsageTaken at h ⊢
  rw [hm, hh] at h
  exact h

/-- The state with what a partition's change of state may write put back. -/
def State.putBack (s t : State) : State :=
  { t with parts := s.parts, host := s.host, wells := s.wells, pumps := s.pumps
           link := { t.link with msi := s.link.msi } }

/-- A partition, changed by `f`, has entered a state, and a usage record of that state was taken (R108). -/
structure Enters (p : PartId) (st : PartState) (f : Partition → Partition) (s t : State) : Prop where
  others : OnlyPart p s t
  own : t.parts[p] = { f s.parts[p] with state := st, meter := t.parts[p].meter }
  taken : UsageTaken p { s.takeUsage p 3 with partState := st.code } s t t.parts[p].meter
  frame : s.putBack t = s
  banks : s.parts[p].state ≠ .quiesced → t.wells = s.wells ∧ t.pumps = s.pumps

theorem State.enters (s : State) {p : PartId} {st : PartState} {f : Partition → Partition} (h : s.parts[p].state ≠ st)
    (hs : ∀ x, (f x).state = x.state) (hm : ∀ x, (f x).meter = x.meter) (hi : ∀ x, (f x).im = x.im) :
    Enters p st f s (((s.updPart p f).setPart p st).usage p 3) := by
  have hself : (s.updPart p f).parts[p] = f s.parts[p] := updAt_self s.parts p f
  have hst : (s.updPart p f).parts[p].state = s.parts[p].state := (congrArg Partition.state hself).trans (hs _)
  obtain ⟨vw, vu, e, hb, -⟩ := (s.updPart p f).setPart_puts p st (hst.symm ▸ h)
  have hparts : ((s.updPart p f).setPart p st).parts = updAt s.parts p fun x => { f x with state := st } := by
    rw [State.setPart_parts, State.updPart_parts, updAt_twice]
  generalize (s.updPart p f).setPart p st = v at e hparts
  have hv : v.parts[p] = { f s.parts[p] with state := st } := by
    rw [hparts]
    exact updAt_self s.parts p _
  have hother (q : PartId) (hq : q ≠ p) : v.parts[q] = s.parts[q] := by
    rw [hparts]
    exact updAt_other _ _ _ _ _ (Fin.val_ne_of_ne hq.symm)
  have hrec : v.takeUsage p 3 = { s.takeUsage p 3 with partState := st.code } := by
    unfold State.takeUsage
    dsimp only
    rw [hv, hm, hi, e]
    rfl
  have hhost : v.host = s.host := by
    rw [e]
    rfl
  have htaken := v.usage_taken p 3
  have honly := v.usage_onlyPart p 3
  have hpart := v.usage_part p 3
  have hframe := v.usage_frame p 3
  generalize v.usage p 3 = t at htaken honly hpart hframe
  rw [hrec] at htaken
  refine ⟨fun q hq => (honly q hq).trans (hother q hq), (hpart t.parts[p].meter).trans ?_, ?_, ?_, fun hq => ?_⟩
  · rw [hv]
  · exact usageTaken_of_meter htaken ((congrArg Partition.meter hv).trans (hm _)) hhost
  · refine (congrArg (State.putBack s) hframe).trans ?_
    rw [e]
    rfl
  · obtain ⟨hw, hu⟩ := hb (hst.symm ▸ hq)
    have h1 := congrArg State.wells hframe
    have h2 := congrArg State.pumps hframe
    rw [e] at h1 h2
    exact ⟨h1.trans hw, h2.trans hu⟩

/-! ### The run commands -/

theorem blockOf_run (p : PartId) : blockOf (prtOffset p 0x000) = .prt p 0x000 := by
  revert p
  decide

theorem State.served_run {s : State} (h : Ready s) (p : PartId) : s.served (prtOffset p 0x000) = true := by
  obtain ⟨hon, hready, hrun⟩ := h
  simp [State.served, blockOf_run, hon, hready, hrun]

section
variable {s : State} (h : Ready s) (p : PartId)
include h

theorem exec_start : exec (.start p) s = .next (s.start p) := congrArg Outcome.next (if_pos (s.served_run h p))

theorem exec_quiesce : exec (.quiesce p) s = .next (s.quiesce p) := congrArg Outcome.next (if_pos (s.served_run h p))

theorem exec_resume : exec (.resume p) s = .next (s.resume p) := congrArg Outcome.next (if_pos (s.served_run h p))

theorem exec_stop : exec (.stop p) s = .next (s.stop p) := congrArg Outcome.next (if_pos (s.served_run h p))

theorem exec_release : exec (.release p) s = .next (s.release p) := congrArg Outcome.next (if_pos (s.served_run h p))

end

theorem Partition.runBusy_of_free {x : Partition} (h : RunFree x) : x.runBusy = false := by
  simp [Partition.runBusy, h.1, h.2]

/-- A partition that has taken its command and runs (R86). -/
def Partition.started (x : Partition) (cmd : BitVec 3) : Partition :=
  { x with state := .running, run := { x.run with lastCmd := cmd, outcome := 0 } }

/-- A command done that takes a partition to RUNNING: no flip mask stays armed for one that was QUIESCED. -/
theorem State.started_puts (s : State) {p : PartId} (cmd : BitVec 3) (h : s.parts[p].state ≠ .running) :
    ∃ vw vu, (s.runDone p cmd .done).setPart p .running =
        { s with parts := updAt s.parts p (·.started cmd), wells := vw, pumps := vu
                 link := { s.link with msi := s.link.msi ++ [(.pf, 32 + p.val), (.vf p, 1)] } } ∧
      (s.parts[p].state ≠ .quiesced → vw = s.wells ∧ vu = s.pumps) ∧
      (s.parts[p].state = .quiesced → ∀ w : WellId, vw[w].flipPart ≠ some p) := by
  have hst : (s.runDone p cmd .done).parts[p].state = s.parts[p].state := by
    unfold State.runDone
    rw [State.updPart_self]
  obtain ⟨vw, vu, e, hb, hq⟩ := (s.runDone p cmd .done).setPart_puts p .running (hst.symm ▸ h)
  rw [hst] at hb hq
  refine ⟨vw, vu, ?_, hb, hq⟩
  rw [e]
  unfold State.runDone State.updPart
  dsimp only
  rw [updAt_twice]
  rfl

theorem State.start_committed {s : State} {p : PartId} (hf : RunFree s.parts[p]) (hn : s.fabric.selfFenced = false)
    (h : s.parts[p].state = .committed) : s.start p = (s.runDone p 1 .done).setPart p .running := by
  unfold State.start
  simp [-Fin.getElem_fin, h, Partition.runBusy_of_free hf, hn]

theorem State.resume_quiesced {s : State} {p : PartId} (hf : RunFree s.parts[p]) (hn : s.fabric.selfFenced = false)
    (h : s.parts[p].state = .quiesced) :
    s.resume p = ((s.endSoundingsOf p).runDone p 3 .done).setPart p .running := by
  unfold State.resume
  simp [-Fin.getElem_fin, h, Partition.runBusy_of_free hf, hn]

/-- A sounding that ends changes the sounding and the ports. -/
theorem State.endSoundingsOf_puts (s : State) (p : PartId) : ∃ d v, s.endSoundingsOf p = { s with snd := d, ports := v } := by
  unfold State.endSoundingsOf State.endSounding
  dsimp only
  split
  · split
    · exact ⟨_, _, rfl⟩
    · exact ⟨s.snd, s.ports, rfl⟩
  · exact ⟨s.snd, s.ports, rfl⟩

/-- A command refused for the state of its partition (R86). -/
theorem exec_run_refused {s : State} (h : Ready s) (p : PartId) :
    ∀ e ∈ [(Instr.start p, (1 : BitVec 3), [PartState.committed]), (.quiesce p, 2, [.running]), (.resume p, 3, [.quiesced]),
      (.stop p, 4, [.committed, .running, .quiesced]), (.release p, 5, [.stopped])], s.parts[p].state ∉ e.2.2 →
      exec e.1 s = .next (s.runDone p e.2.1 .refusedState) := by
  intro e he hs
  simp only [List.mem_cons, List.not_mem_nil, or_false] at he
  rcases he with rfl | rfl | rfl | rfl | rfl <;>
    simp only [List.mem_cons, List.not_mem_nil, or_false, not_or] at hs
  · rw [exec_start h]
    simp [-Fin.getElem_fin, State.start, hs]
  · rw [exec_quiesce h]
    simp [-Fin.getElem_fin, State.quiesce, hs]
  · rw [exec_resume h]
    simp [-Fin.getElem_fin, State.resume, hs]
  · rw [exec_stop h]
    simp [-Fin.getElem_fin, State.stop, State.stopFor, hs]
  · rw [exec_release h]
    simp [-Fin.getElem_fin, State.release, hs]

theorem State.quiesce_running {s : State} {p : PartId} (hf : RunFree s.parts[p]) (hu : s.usageFull p = false)
    (h : s.parts[p].state = .running) : s.quiesce p = s.updPart p fun x => { x with run := { x.run with
      quiescing := some (s.timeNs + 1000 * max 1 x.run.quiesceLimit.toNat) } } := by
  unfold State.quiesce
  simp [-Fin.getElem_fin, h, Partition.runBusy_of_free hf, hu]

/-- A QUIESCE whose wait is over (R88). -/
def Partition.quiesced (x : Partition) : Partition :=
  { x with run := { x.run with quiescing := none, lastCmd := 2, outcome := 0 } }

theorem exec_quiesceComplete {s : State} {p : PartId} {d : Nat} (hd : s.parts[p].run.quiescing = some d)
    (hi : s.partIdle p = true) :
    exec (.quiesceComplete p) s = .next (((s.updPart p Partition.quiesced).setPart p .quiesced).usage p 3) := by
  have h2 : ((s.updPart p fun y => { y with run := { y.run with quiescing := none } }).runDone p 2 .done) =
      s.updPart p Partition.quiesced := by
    unfold State.runDone State.updPart
    dsimp only
    rw [updAt_twice]
    rfl
  rw [← h2]
  exact congrArg Outcome.next (if_pos (by simp [-Fin.getElem_fin, hd, hi]))

end Sys2Proof.Machine

/-! SUPPORT. STOP and a dead unit over a partition with no item in an engine (04 R89, R92; 13 R327; 14 R350; 15 R372). -/

namespace Sys2Proof.Machine

open Host

/-! ### Engines that hold no item of a partition -/

/-- A round that does nothing for any entry does nothing. -/
theorem State.over_id {α : Type} {s : State} (l : List α) {f : State → α → State} (h : ∀ x ∈ l, f s x = s) :
    s.over l f = s := by
  induction l with
  | nil => rfl
  | cons x r ih =>
    rw [State.over_cons, h x List.mem_cons_self]
    exact ih fun y hy => h y (List.mem_cons_of_mem x hy)

/-- No axis engine, Sluice or Pump holds an item of a partition, and no Sluice a layer at all. -/
structure NoEngineItems (p : PartId) (s : State) : Prop where
  waiting : ∀ a : AxisId, ∀ c ∈ s.axes[a].waiting, c.part ≠ p
  colls : ∀ a : AxisId, ∀ c ∈ s.axes[a].colls, c.part ≠ p
  atomics : ∀ a : AxisId, ∀ x ∈ s.axes[a].atomics, x.part ≠ p
  sluices : SluicesIdle s
  cmds : s.parts[p].cmds = []

theorem State.sluicePass_idle {s : State} (h : SluicesIdle s) (k : Nat) : s.sluicePass k = s := by
  induction k with
  | zero => rfl
  | succ k ih =>
    unfold State.sluicePass
    have h1 : (s.over (allFin 4) fun s n => s.over (s.sluices[n].layers.map (·.id)) fun s id => s.advanceLayer n id) = s :=
      State.over_id _ fun n _ => by rw [(h n).1]; rfl
    have h2 : (s.over (allFin 4) fun s n => s.openNext n) = s :=
      State.over_id _ fun n _ => by
        unfold State.openNext
        rw [(h n).2]
    dsimp only
    rw [h1, h2, ih]

theorem List.filter_part_nil {α : Type} {l : List α} {g : α → PartId} {p : PartId} (h : ∀ x ∈ l, g x ≠ p)
    (b : α → Bool) :
    l.filter (fun x => g x == p && b x) = [] :=
  List.filter_eq_nil_iff.mpr fun x hx => by simp [h x hx]

section
variable {p : PartId} {s : State} (h : NoEngineItems p s) (inc : W32)
include h

theorem NoEngineItems.stopAtomics : s.stopAtomics p inc = s := by
  unfold State.stopAtomics
  refine State.over_id _ fun a _ => ?_
  rw [List.filter_part_nil (h.atomics a) fun x => !x.started]
  rfl

theorem NoEngineItems.stopColls : s.stopColls p inc = s := by
  unfold State.stopColls
  refine State.over_id _ fun a _ => ?_
  have hw : s.axes[a].waiting.filter (fun c => c.part == p) = [] :=
    List.filter_eq_nil_iff.mpr fun c hc => by simp [h.waiting a c hc]
  have hk : s.axes[a].waiting.filter (fun c => c.part != p) = s.axes[a].waiting :=
    List.filter_eq_self.mpr fun c hc => by simp [h.waiting a c hc]
  have he : s.updAxis a (fun x => { x with waiting := x.waiting.filter fun c => c.part != p }) = s :=
    congrArg (fun v => { s with axes := v }) (updAt_id s.axes a (congrArg (fun l => { s.axes[a] with waiting := l }) hk))
  dsimp only
  rw [hw, he, State.over_nil, List.filter_part_nil (h.colls a) fun c => c.phase != .data]
  rfl

theorem NoEngineItems.stopSluices : s.stopSluices p inc = s := by
  unfold State.stopSluices
  have hw (n : SluiceId) : s.sluices[n].waiting.filter (fun l => l.part != p) = s.sluices[n].waiting :=
    List.filter_eq_self.mpr fun l hl => absurd ((h.sluices n).2 ▸ hl) List.not_mem_nil
  have h1 (n : SluiceId) : s.updSluice n (fun x => { x with waiting := x.waiting.filter fun l => l.part != p }) = s :=
    congrArg (fun v => { s with sluices := v }) (updAt_id s.sluices n
      (congrArg (fun l => { s.sluices[n] with waiting := l }) (hw n)))
  dsimp only
  rw [State.over_id _ fun n _ => ?_]
  · exact State.sluicePass_idle h.sluices _
  · rw [h1, (h.sluices n).2, List.filter_nil, State.over_nil, (h.sluices n).1]
    rfl

theorem NoEngineItems.stopPumps : s.stopPumps p inc = s.tearClaims p fun _ => true := by
  unfold State.stopPumps
  dsimp only
  rw [h.cmds]
  rfl

theorem NoEngineItems.stopEngines :
    (((s.stopAtomics p inc).stopColls p inc).stopSluices p inc).stopPumps p inc = s.tearClaims p fun _ => true := by
  rw [h.stopAtomics, h.stopColls, h.stopSluices, h.stopPumps]

end

/-! ### What a stop halts (R89) -/

/-- A sequencer that a stop halts. -/
def Sequencer.stilled (q : Sequencer) : Sequencer :=
  { q with state := if q.state = .running ∨ q.state = .halting then .idle else q.state, loops := [] }

/-- A core that a stop halts. -/
def Core.stilled (x : Machine.Core) : Machine.Core :=
  { x with halted := true, drains := x.drains && x.grace.isSome, fifo := [], waiting := none }

theorem Sequencer.stilled_state (q : Sequencer) : q.stilled.state ≠ .running ∧ q.stilled.state ≠ .halting := by
  unfold Sequencer.stilled
  dsimp only
  split
  · exact ⟨nofun, nofun⟩
  · rename_i h
    exact not_or.mp h

theorem State.haltSeqs_puts (s : State) (p : PartId) :
    ∃ v, s.haltSeqs p = { s with seqs := v } ∧
      ∀ n ∈ s.parts[p].im.img.seqs, v[n].state ≠ .running ∧ v[n].state ≠ .halting := by
  refine ⟨(s.haltSeqs p).seqs,
    State.over_put State.seqs (fun st v => { st with seqs := v }) (fun st n => st.updSeq n Sequencer.stilled)
      (fun _ => rfl) (fun _ _ _ => rfl) _ s, fun n hn => ?_⟩
  refine State.over_bank_self State.seqs (fun st n => st.updSeq n Sequencer.stilled)
    (fun st i j h => updAt_other _ _ _ _ _ (Fin.val_ne_of_ne h))
    (Q := fun _ _ y => y.state ≠ .running ∧ y.state ≠ .halting) (fun st i => ?_) _
    ((List.nodup_finRange 16).filter _) n hn s
  rw [State.updSeq_seqs, Fin.getElem_fin, updAt_self]
  exact Sequencer.stilled_state _

theorem State.haltCores_puts (s : State) (p : PartId) :
    ∃ v, s.haltCores p = { s with cores := v } ∧
      (∀ c ∈ s.partCores p, v[c].halted = true ∧ v[c].fifo = [] ∧ v[c].k = s.cores[c].k ∧ v[c].mem = s.cores[c].mem) ∧
      ∀ c, c ∉ s.partCores p → v[c] = s.cores[c] := by
  have hother (st : State) (i j : CoreId) (h : i ≠ j) :
      (st.updCore i Core.stilled).cores[j] = st.cores[j] :=
    updAt_other _ _ _ _ _ (Fin.val_ne_of_ne h)
  refine ⟨(s.haltCores p).cores,
    State.over_put State.cores (fun st v => { st with cores := v }) (fun st c => st.updCore c Core.stilled)
      (fun _ => rfl) (fun _ _ _ => rfl) _ s,
    fun c hc => ?_, fun c hc => State.over_bank_other State.cores (fun st c => st.updCore c Core.stilled) hother _ c hc s⟩
  refine State.over_bank_self State.cores (fun st c => st.updCore c Core.stilled) hother
    (Q := fun _ x y => y.halted = true ∧ y.fifo = [] ∧ y.k = x.k ∧ y.mem = x.mem) (fun st i => ?_) _
    ((List.nodup_finRange 192).filter _) c hc s
  rw [State.updCore_cores, Fin.getElem_fin, updAt_self]
  exact ⟨rfl, rfl, rfl, rfl⟩

/-- The groups and claims of a partition set. -/
def Partition.withGroups (g : Sparse Group) (l : List ClaimNote) (x : Partition) : Partition :=
  { x with groups := g, claims := l }

/-- Torn claims change the groups and the claims of their partition. -/
theorem State.tearClaims_puts (s : State) (p : PartId) (sel : Group → Bool) :
    ∃ g l, s.tearClaims p sel = s.updPart p (Partition.withGroups g l) := by
  unfold State.tearClaims
  dsimp only
  generalize List.filter _ s.parts[p].claims = l
  induction l generalizing s with
  | nil =>
    exact ⟨s.parts[p].groups, s.parts[p].claims, (congrArg (fun v => { s with parts := v }) (updAt_id s.parts p rfl)).symm⟩
  | cons n r ih =>
    rw [State.over_cons]
    generalize hv : State.updPart (State.updGroup ..) .. = v
    obtain ⟨g1, l1, e1⟩ : ∃ g1 l1, v = s.updPart p (Partition.withGroups g1 l1) := by
      rw [← hv]
      unfold State.updGroup State.setGroup State.updPart
      dsimp only
      rw [updAt_twice]
      exact ⟨_, _, congrArg (fun w => { s with parts := w }) (updAt_congr rfl)⟩
    obtain ⟨g, l, e⟩ := ih v
    refine ⟨g, l, e.trans ?_⟩
    rw [e1]
    unfold State.updPart
    rw [updAt_twice]
    rfl

/-! ### A stop of a partition with nothing outstanding (R89) -/

/-- A partition asked to stop; a QUIESCE that waits, `q`, ends REFUSED_STATE. -/
def Partition.asked (q : Bool) (cause : Byte) (byCmd : Bool) (x : Partition) : Partition :=
  { x with run := { x.run with
    stopping := some (cause, byCmd), interlude := false, quiescing := none
    lastCmd := if q then 2 else x.run.lastCmd
    outcome := if q then BitVec.ofNat 8 OutcomeCode.refusedState.code else x.run.outcome } }

/-- A partition whose capsules that wait are gone. -/
def Partition.unqueued (x : Partition) : Partition := { x with caps := { x.caps with queue := [] } }

theorem State.markStop_eq (s : State) (p : PartId) (cause : Byte) (byCmd : Bool) :
    s.markStop p cause byCmd = s.updPart p (Partition.asked s.parts[p].run.quiescing.isSome cause byCmd) := rfl

/-- A partition taken by a stop: nothing of it waits at its window, and its claims are torn. -/
def Partition.halted (q : Bool) (cause : Byte) (byCmd : Bool) (g : Sparse Group) (l : List ClaimNote) (x : Partition) : Partition :=
  ((x.asked q cause byCmd).unqueued).withGroups g l

/-- What a stop halts, and the capsules it refuses, before anything of an engine ends. -/
def State.stopWindow (s : State) (p : PartId) (cause : Byte) (byCmd : Bool) : State :=
  (((s.markStop p cause byCmd).haltSeqs p).haltCores p).refuseQueued p

/-- The programs of a partition ended by a stop. -/
def State.stopPrograms (s : State) (p : PartId) (inc : W32) : State :=
  s.over (s.programsOf p) fun s x => s.endProgram x .failedTimeout 0 inc

theorem State.stopPart_eq {s : State} {p : PartId} (cause : Byte) (byCmd : Bool) (inc : W32)
    (h : s.parts[p].stoppable = true) :
    s.stopPart p cause byCmd inc =
      (((((s.stopWindow p cause byCmd).stopPrograms p inc).stopAtomics p inc).stopColls p inc).stopSluices p inc).stopPumps p inc :=
  if_pos h

theorem State.stopPart_idle {s : State} {p : PartId} (cause : Byte) (byCmd : Bool) (inc : W32)
    (hs : s.parts[p].stoppable = true) (hi : NoEngineItems p s) (hp : s.programsOf p = [])
    (hc : s.parts[p].caps.queue = []) :
    ∃ vq vc g l, s.stopPart p cause byCmd inc = ({ s with seqs := vq, cores := vc } : State).updPart p
        (Partition.halted s.parts[p].run.quiescing.isSome cause byCmd g l) ∧
      (∀ n ∈ s.parts[p].im.img.seqs, vq[n].state ≠ .running ∧ vq[n].state ≠ .halting) ∧
      (∀ c ∈ s.partCores p, vc[c].halted = true ∧ vc[c].fifo = [] ∧ vc[c].k = s.cores[c].k ∧ vc[c].mem = s.cores[c].mem) ∧
      ∀ c, c ∉ s.partCores p → vc[c] = s.cores[c] := by
  have hm := s.markStop_eq p cause byCmd
  generalize s.parts[p].run.quiescing.isSome = q at hm
  obtain ⟨vq, eq, hq⟩ := (s.markStop p cause byCmd).haltSeqs_puts p
  obtain ⟨vc, ec, hcore, hother⟩ := ((s.markStop p cause byCmd).haltSeqs p).haltCores_puts p
  rw [eq] at ec hcore hother
  rw [hm] at eq ec hq hcore hother
  have hself : (s.updPart p (Partition.asked q cause byCmd)).parts[p] = s.parts[p].asked q cause byCmd := s.updPart_self p _
  have hcores : (s.updPart p (Partition.asked q cause byCmd)).partCores p = s.partCores p := by
    unfold State.partCores
    rw [hself]
    rfl
  have hwindow : s.stopWindow p cause byCmd =
      ({ s with seqs := vq, cores := vc } : State).updPart p fun x => (x.asked q cause byCmd).unqueued := by
    unfold State.stopWindow State.refuseQueued
    dsimp only
    rw [hm, eq, ec]
    have hq : (s.updPart p (Partition.asked q cause byCmd)).parts[p].caps.queue = [] := by
      rw [hself]
      exact hc
    dsimp only
    rw [hq]
    unfold State.updPart
    dsimp only
    rw [updAt_twice]
    rfl
  have hitems : NoEngineItems p (({ s with seqs := vq, cores := vc } : State).updPart p fun x => (x.asked q cause byCmd).unqueued) :=
    ⟨hi.waiting, hi.colls, hi.atomics, hi.sluices, by rw [State.updPart_self]; exact hi.cmds⟩
  obtain ⟨g, l, e⟩ := State.tearClaims_puts (({ s with seqs := vq, cores := vc } : State).updPart p fun x =>
    (x.asked q cause byCmd).unqueued) p fun _ => true
  have hprograms : (({ s with seqs := vq, cores := vc } : State).updPart p fun x =>
      (x.asked q cause byCmd).unqueued).programsOf p = [] := hp
  rw [hself] at hq
  refine ⟨vq, vc, g, l, ?_, hq, fun c hc => hcore c (hcores.symm ▸ hc), fun c hc => hother c (hcores.symm ▸ hc)⟩
  rw [s.stopPart_eq cause byCmd inc hs, hwindow, State.stopPrograms, hprograms, State.over_nil, hitems.stopEngines, e]
  unfold State.updPart
  rw [updAt_twice]
  rfl

/-! ### The end of a stop (R89) -/

/-- A partition whose stop has ended. -/
def Partition.ended (cause : Byte) (byCmd : Bool) (x : Partition) : Partition :=
  { x with run := { x.run with
    stopping := none, stopCause := cause
    lastCmd := if byCmd then 4 else x.run.lastCmd
    outcome := if byCmd then 0 else x.run.outcome } }

theorem State.stopEnd_drained {s : State} {p : PartId} {cause : Byte} {byCmd : Bool}
    (h : s.parts[p].run.stopping = some (cause, byCmd)) (hd : s.partDrained p = true) :
    s.stopEnd p = ((s.updPart p (Partition.ended cause byCmd)).setPart p .stopped).usage p 3 := by
  have he : (if byCmd then (s.updPart p fun y => { y with run := { y.run with stopping := none, stopCause := cause } }).runDone
        p 4 .done else s.updPart p fun y => { y with run := { y.run with stopping := none, stopCause := cause } }) =
      s.updPart p (Partition.ended cause byCmd) := by
    cases byCmd
    · rfl
    · unfold State.runDone State.updPart
      dsimp only
      rw [updAt_twice]
      rfl
  unfold State.stopEnd
  rw [h]
  dsimp only
  rw [if_pos hd, he]

/-- A partition with every record written has no item anywhere (R89). -/
theorem noEngineItems_of_drained {s : State} {p : PartId} (hd : s.partDrained p = true) (hs : SluicesIdle s) :
    NoEngineItems p s ∧ s.programsOf p = [] := by
  simp only [State.partDrained, State.itemsOpen, Bool.and_eq_true, Bool.not_eq_true', Bool.or_eq_false_iff] at hd
  obtain ⟨⟨⟨⟨⟨⟨⟨⟨⟨-, hprog⟩, haxes⟩, -⟩, hcmds⟩, -⟩, -⟩, -⟩, -⟩, -⟩ := hd
  have axis (a : AxisId) := List.any_eq_false.mp haxes a (List.mem_finRange a)
  simp only [Bool.not_eq_true, Bool.or_eq_false_iff, List.any_eq_false, beq_iff_eq] at axis
  refine ⟨⟨fun a c hc => (axis a).1.2 c hc, fun a c hc => (axis a).1.1 c hc, fun a x hx => (axis a).2 x hx, hs, ?_⟩, ?_⟩
  · simpa using hcmds
  · refine List.filter_eq_nil_iff.mpr fun x hx => ?_
    have h := List.any_eq_false.mp hprog x hx
    simpa using h

/-- Whether a partition is drained does not rest on sequencers, cores, or what of it is no item. -/
theorem State.partDrained_updPart (s : State) (p : PartId) (vq : Vector Sequencer 16) (vc : Vector Machine.Core 192)
    (f : Partition → Partition) (hc : ∀ x, (f x).cmds = x.cmds) (hq : ∀ x, (f x).cq = x.cq)
    (hf : ∀ x, (f x).fault = x.fault) :
    (({ s with seqs := vq, cores := vc } : State).updPart p f).partDrained p = s.partDrained p := by
  unfold State.partDrained State.itemsOpen
  rw [State.updPart_self, hc, hq, hf]
  rfl

theorem State.stopFor_eq {s : State} {p : PartId} (cause : Byte) (hf : RunFree s.parts[p]) (hu : s.usageFull p = false)
    (hst : s.parts[p].state ∈ [PartState.committed, .running, .quiesced]) :
    s.parts[p].stoppable = true ∧ s.stopFor p cause = (s.stopPart p cause true 0).stopEnd p := by
  have h1 : (s.parts[p].state == .committed || s.parts[p].state == .running || s.parts[p].state == .quiesced) = true := by
    simpa [-Fin.getElem_fin, or_assoc] using hst
  refine ⟨?_, ?_⟩
  · simp [-Fin.getElem_fin, Partition.stoppable, h1, hf.1]
  · unfold State.stopFor
    simp only [h1, Partition.runBusy_of_free hf, hu, Bool.not_false, Bool.and_self, if_true]

end Sys2Proof.Machine

/-! SUPPORT. RELEASE (04 R86, R108, R109), and the run commands of a partition as one statement. -/

namespace Sys2Proof.Machine

open Host

theorem Enters.frame_of_unquiesced {p : PartId} {st : PartState} {f : Partition → Partition} {s t : State}
    (h : Enters p st f s t) (hq : s.parts[p].state ≠ .quiesced) :
    { t with parts := s.parts, host := s.host, link := { t.link with msi := s.link.msi } } = s := by
  obtain ⟨hw, hu⟩ := h.banks hq
  have e := h.frame
  unfold State.putBack at e
  rwa [← hw, ← hu] at e

section
variable {s : State} {p : PartId} {at_ d : Nat} (h : (s.advanceTo at_).parts[p].run.quiescing = some d)
include h

theorem exec_quiesceTimeout_over (hd : d ≤ (s.advanceTo at_).timeNs) :
    exec (.quiesceTimeout p at_) s = .next ((s.advanceTo at_).updPart p fun x => { x with
      run := { x.run with quiescing := none, lastCmd := 2, outcome := 0x13 } }) := by
  show Outcome.next _ = _
  dsimp only
  rw [h]
  dsimp only
  rw [if_pos hd]
  unfold State.runDone State.updPart
  dsimp only
  rw [updAt_twice]
  rfl

theorem exec_quiesceTimeout_early (hd : (s.advanceTo at_).timeNs < d) :
    exec (.quiesceTimeout p at_) s = .next (s.advanceTo at_) := by
  show Outcome.next _ = _
  dsimp only
  rw [h]
  dsimp only
  rw [if_neg (Nat.not_le.mpr hd)]

end

/-! ### RELEASE -/

/-- A partition that waits, in RELEASE, for its records to go out. -/
def Partition.releasing (x : Partition) : Partition := { x with run := { x.run with releasing := true } }

theorem State.release_stopped {s : State} {p : PartId} (hf : RunFree s.parts[p]) (hb : s.parts[p].im.busy = none)
    (hu : s.usageFull p = false) (h : s.parts[p].state = .stopped) :
    s.release p = ((s.usage p 3).updPart p Partition.releasing).releaseEnd p := by
  unfold State.release
  simp [-Fin.getElem_fin, h, Partition.runBusy_of_free hf, hb, hu]
  rfl

/-- The attachment of a sequencer rests on what each partition holds and on the device image. -/
theorem State.wardsAttached_congr {s t : State} (hc : ∀ q : PartId, t.parts[q].claims? = s.parts[q].claims?)
    (hi : ∀ q : PartId, t.parts[q].im.img = s.parts[q].im.img) (hm : t.image = s.image) (n : SeqId) :
    t.wardsAttached n = s.wardsAttached n := by
  unfold State.wardsAttached State.seqHolder State.wardHolder
  simp only [hc, hi, hm]

/-- A partition let go (R86, R109). -/
def Partition.released (x : Partition) : Partition :=
  { x.freed with state := .empty, run := { x.freed.run with lastCmd := 5, outcome := 0 } }

/-- What the end of RELEASE does once no record is held. -/
structure Releases (p : PartId) (s t : State) : Prop where
  others : OnlyPart p s t
  own : ∃ x, t.parts[p] = Partition.released x
  attached : ∀ n : SeqId, t.seqs[n].wardMask = t.wardsAttached n
  wells : t.wells = s.wells
  xfers : t.xfers = s.xfers

theorem State.releaseEnd_releases {s : State} {p : PartId} (hr : s.parts[p].run.releasing = true)
    (hh : s.parts[p].meter.held = []) (hs : s.parts[p].state = .stopped) : Releases p s (s.releaseEnd p) := by
  unfold State.releaseEnd
  rw [if_pos (by simp [-Fin.getElem_fin, hr, hh])]
  dsimp only
  generalize hw : State.refuseQueued _ p = w
  have haside : w.aside p = s.aside p := by
    rw [← hw]
    exact (State.refuseQueued_aside ..).trans (s.updPart_aside p _ (fun _ => rfl) fun _ => rfl)
  have hstate : w.parts[p].state = .stopped := by
    have hd : w.duty = s.duty := by
      rw [← hw]
      exact (State.refuseQueued_duty ..).trans (s.updPart_duty p _ (fun _ => rfl) fun _ => rfl)
    exact (State.state_of_standing (congrArg Prod.fst hd) p).trans hs
  obtain ⟨hothers, -, -⟩ := State.parts_of_aside haside
  obtain ⟨hwells, -, -, hxfers⟩ := State.units_of_aside haside
  obtain ⟨vq, vu, vn, vc, e, hv⟩ := w.freePart_puts p
  generalize w.freePart p true = f at e
  have hf : (f.runDone p 5 .done).parts =
      updAt w.parts p fun x => { x.freed with run := { x.freed.run with lastCmd := 5, outcome := 0 } } := by
    rw [e]
    unfold State.runDone State.updPart
    dsimp only
    rw [updAt_twice]
    rfl
  have hne : (f.runDone p 5 .done).parts[p].state ≠ .empty := by
    rw [hf, Fin.getElem_fin, updAt_self]
    intro he
    exact absurd (hstate.symm.trans he) nofun
  obtain ⟨vw, vp, et, hb, -⟩ := (f.runDone p 5 .done).setPart_puts p .empty hne
  have hparts : ((f.runDone p 5 .done).setPart p .empty).parts = updAt w.parts p Partition.released := by
    rw [State.setPart_parts, hf, updAt_twice]
    rfl
  have hone : ((f.runDone p 5 .done).setPart p .empty).parts[p] = Partition.released w.parts[p] := by
    rw [hparts]
    exact updAt_self w.parts p _
  have hrest (q : PartId) (hq : q ≠ p) : ((f.runDone p 5 .done).setPart p .empty).parts[q] = w.parts[q] := by
    rw [hparts]
    exact updAt_other _ _ _ _ _ (Fin.val_ne_of_ne hq.symm)
  have hvac (q : PartId) :
      ((f.runDone p 5 .done).setPart p .empty).parts[q].claims? = (w.updPart p Partition.vacated).parts[q].claims? ∧
      ((f.runDone p 5 .done).setPart p .empty).parts[q].im.img = (w.updPart p Partition.vacated).parts[q].im.img := by
    by_cases hq : q = p
    · subst hq
      rw [hone, w.updPart_self]
      exact ⟨rfl, rfl⟩
    · rw [hrest q hq, w.updPart_other hq]
      exact ⟨rfl, rfl⟩
  have hseqs : ((f.runDone p 5 .done).setPart p .empty).seqs = vq := by
    rw [et, e]
    rfl
  have himage : ((f.runDone p 5 .done).setPart p .empty).image = w.image := by
    rw [et, e]
    rfl
  obtain ⟨hw1, -⟩ := hb fun hq => by
    rw [hf, Fin.getElem_fin, updAt_self] at hq
    exact absurd (hstate.symm.trans hq) nofun
  refine ⟨fun q hq => (hrest q hq).trans (hothers q hq), ⟨_, hone⟩, fun n => ?_, ?_, ?_⟩
  · rw [hseqs, hv n]
    exact (State.wardsAttached_congr (fun q => (hvac q).1) (fun q => (hvac q).2) himage n).symm
  · rw [et]
    exact hw1.trans ((congrArg State.wells e).trans hwells)
  · rw [et]
    exact (congrArg State.xfers e).trans hxfers

theorem State.releaseEnd_waits {s : State} {p : PartId} (hh : s.parts[p].meter.held ≠ []) : s.releaseEnd p = s := by
  unfold State.releaseEnd
  rw [if_neg]
  simp [-Fin.getElem_fin, hh]

/-- A record is held after a final one was taken, unless the ring took it and none was held before. -/
theorem State.usage_held (s : State) (p : PartId) :
    let m := s.parts[p].meter
    ((m.metered = false ∨ m.room = true) ∧ m.held = [] → (s.usage p 3).parts[p].meter.held = []) ∧
      (m.metered = true ∧ ¬(m.room = true ∧ m.held = []) → (s.usage p 3).parts[p].meter.held ≠ []) := by
  obtain ⟨hoff, hring, hheld⟩ := s.usage_taken p 3
  dsimp only
  refine ⟨fun ⟨hr, hn⟩ => ?_, fun ⟨hm, hr⟩ => ?_⟩
  · cases hm : s.parts[p].meter.metered
    · rw [(hoff hm).2, hn]
    · have hroom := hr.resolve_left (by rw [hm]; exact nofun)
      rw [(hring hm ⟨hroom, hn⟩).2]
      exact hn
  · rw [(hheld hm hr).2]
    exact List.append_ne_nil_of_right_ne_nil _ (List.cons_ne_nil _ _)

theorem State.finalRecord_spec (s : State) (p : PartId) :
    let v := (s.usage p 3).updPart p Partition.releasing
    OnlyPart p s v ∧ v.parts[p] = { s.parts[p].releasing with meter := (s.usage p 3).parts[p].meter } ∧
      v.wells = s.wells ∧ v.xfers = s.xfers ∧ v.host = (s.usage p 3).host := by
  have hpart := s.usage_part p 3 (s.usage p 3).parts[p].meter
  have hframe := s.usage_frame p 3
  refine ⟨fun q hq => ((s.usage p 3).updPart_other hq _).trans (s.usage_onlyPart p 3 q hq), ?_, ?_, ?_, rfl⟩
  · rw [State.updPart_self]
    exact congrArg Partition.releasing hpart
  · have hw := congrArg State.wells hframe
    exact hw
  · have hx := congrArg State.xfers hframe
    exact hx

theorem exec_release_stopped {s : State} {p : PartId} (h : Ready s) (hf : RunFree s.parts[p]) (hb : s.parts[p].im.busy = none)
    (hu : s.usageFull p = false) (hst : s.parts[p].state = .stopped) : ∃ t, exec (.release p) s = .next t ∧ OnlyPart p s t ∧
      ((s.parts[p].meter.metered = false ∨ s.parts[p].meter.room = true) ∧ s.parts[p].meter.held = [] →
        t.parts[p].state = .empty ∧ t.parts[p].im.img = {} ∧ t.parts[p].run.lastCmd = 5 ∧ t.parts[p].run.outcome = 0 ∧
        t.parts[p].meter.metered = false ∧ (∀ n : SeqId, t.seqs[n].wardMask = t.wardsAttached n)) ∧
      (s.parts[p].meter.metered = true ∧ ¬(s.parts[p].meter.room = true ∧ s.parts[p].meter.held = []) →
        t.parts[p] = { s.parts[p].releasing with meter := t.parts[p].meter } ∧
          UsageTaken p (s.takeUsage p 3) s t t.parts[p].meter) ∧
      t.fuses = s.fuses ∧ t.timeNs = s.timeNs ∧ t.xfers = s.xfers ∧ t.wells = s.wells ∧ t.pending = s.pending := by
  obtain ⟨honly, hpart, hwells, hxfers, hhost⟩ := s.finalRecord_spec p
  obtain ⟨hgoes, hwaits⟩ := s.usage_held p
  obtain ⟨hfuses, hpending, htime, -, -⟩ := State.eqs_of_fixed (s.release_fixed p)
  rw [State.release_stopped hf hb hu hst] at hfuses hpending htime
  have htaken := s.usage_taken p 3
  rw [exec_release h p, State.release_stopped hf hb hu hst]
  generalize (s.usage p 3).updPart p Partition.releasing = v at *
  have hmeter : v.parts[p].meter = (s.usage p 3).parts[p].meter :=
    (congrArg Partition.meter hpart).trans rfl
  refine ⟨v.releaseEnd p, rfl, ?_⟩
  by_cases hv : v.parts[p].meter.held = []
  · have hr := State.releaseEnd_releases (congrArg (fun x => x.run.releasing) hpart) hv
      ((congrArg Partition.state hpart).trans hst)
    obtain ⟨x, hx⟩ := hr.own
    refine ⟨fun q hq => (hr.others q hq).trans (honly q hq), fun _ => ?_, fun hB => ?_, hfuses, htime,
      hr.xfers.trans hxfers, hr.wells.trans hwells, hpending⟩
    · rw [hx]
      exact ⟨rfl, rfl, rfl, rfl, rfl, hr.attached⟩
    · rw [hmeter] at hv
      exact absurd hv (hwaits hB)
  · rw [State.releaseEnd_waits hv] at hfuses hpending htime ⊢
    refine ⟨honly, fun hA => ?_, fun _ => ⟨?_, ?_⟩, hfuses, htime, hxfers, hwells, hpending⟩
    · rw [hmeter] at hv
      exact absurd (hgoes hA) hv
    · rw [hpart]
    · rw [hmeter]
      unfold UsageTaken at htaken ⊢
      rw [hhost]
      exact htaken

/-! ### STOP -/

/-- A partition that STOP has ended, with nothing of it outstanding (R89). -/
def Partition.stopped (g : Sparse Group) (l : List ClaimNote) (x : Partition) : Partition :=
  (x.halted false 0x01 true g l).ended 0x01 true

/-- STOP of a partition with nothing outstanding halts its sequencers and cores, and it enters STOPPED at once (R89). -/
theorem State.stop_drained {s : State} {p : PartId} (hf : RunFree s.parts[p]) (hu : s.usageFull p = false)
    (hst : s.parts[p].state ∈ [PartState.committed, .running, .quiesced]) (hq : s.parts[p].run.quiescing = none)
    (hd : s.partDrained p = true) (hc : s.parts[p].caps.queue = []) (hs : SluicesIdle s) :
    ∃ vq vc g l, Enters p .stopped (Partition.stopped g l) { s with seqs := vq, cores := vc } (s.stop p) ∧
      (∀ n ∈ s.parts[p].im.img.seqs, vq[n].state ≠ .running ∧ vq[n].state ≠ .halting) ∧
      (∀ c ∈ s.partCores p, vc[c].halted = true ∧ vc[c].fifo = [] ∧ vc[c].k = s.cores[c].k) ∧
      ∀ c, c ∉ s.partCores p → vc[c] = s.cores[c] := by
  obtain ⟨hstop, e⟩ := State.stopFor_eq 0x01 hf hu hst
  obtain ⟨hi, hp⟩ := noEngineItems_of_drained hd hs
  obtain ⟨vq, vc, g, l, e1, hseqs, hcores, hothers⟩ := State.stopPart_idle 0x01 true 0 hstop hi hp hc
  rw [hq, Option.isSome_none] at e1
  have hdrained := (s.partDrained_updPart p vq vc (Partition.halted false 0x01 true g l) (fun _ => rfl) (fun _ => rfl)
    fun _ => rfl).trans hd
  have hstopping : (({ s with seqs := vq, cores := vc } : State).updPart p
      (Partition.halted false 0x01 true g l)).parts[p].run.stopping = some (0x01, true) := by
    rw [State.updPart_self]
    rfl
  have hne : s.parts[p].state ≠ .stopped := by
    intro h
    rw [h] at hst
    exact absurd hst (by decide)
  have htwice : (({ s with seqs := vq, cores := vc } : State).updPart p (Partition.halted false 0x01 true g l)).updPart p
      (Partition.ended 0x01 true) = ({ s with seqs := vq, cores := vc } : State).updPart p (Partition.stopped g l) := by
    unfold State.updPart
    rw [updAt_twice]
    rfl
  refine ⟨vq, vc, g, l, ?_, hseqs, fun c h => ?_, hothers⟩
  · have he := ({ s with seqs := vq, cores := vc } : State).enters (p := p) (st := .stopped) (f := Partition.stopped g l) hne
      (fun _ => rfl) (fun _ => rfl) fun _ => rfl
    rw [State.stop, e, e1, State.stopEnd_drained hstopping hdrained, htwice]
    exact he
  · obtain ⟨h1, h2, h3, -⟩ := hcores c h
    exact ⟨h1, h2, h3⟩

/-- Settles O17: every command is its effect where R86 draws its arrow and a refusal elsewhere; a partition with nothing
outstanding stops at once because no engine holds an item of it. -/
theorem runControlMovesAPartition : Obligations.RunControlMovesAPartition := by
  unfold Obligations.RunControlMovesAPartition
  refine ⟨fun s p h hf hn => ⟨fun hst => ?_, fun hst => ?_⟩, fun s p h hf hu hst => ?_, fun s p h => exec_run_refused h p,
    fun s p d hd hst hi => ?_, fun s p at_ d => ?_, fun s p h hf hu hst hq hd hc hs => ?_,
    fun s p cause b hst => ⟨fun hd => ?_, fun hd hne => ?_⟩, fun s p h hf hb hu hst => ?_⟩
  · have e := exec_start h p
    rw [State.start_committed hf hn hst] at e
    obtain ⟨vw, vu, et, hb, -⟩ := s.started_puts (p := p) 1 (by rw [hst]; exact nofun)
    obtain ⟨rfl, rfl⟩ := hb (by rw [hst]; exact nofun)
    rw [et] at e
    exact ⟨_, e, fun q hq => s.updPart_other hq _, s.updPart_self p (·.started 1), rfl, rfl⟩
  · have e := exec_resume h p
    rw [State.resume_quiesced hf hn hst] at e
    obtain ⟨d, v, ed⟩ := s.endSoundingsOf_puts p
    rw [ed] at e
    obtain ⟨vw, vu, et, -, hflip⟩ := ({ s with snd := d, ports := v } : State).started_puts (p := p) 3
      (by rw [hst]; exact nofun)
    rw [et] at e
    exact ⟨_, e, fun q hq => s.updPart_other hq _, s.updPart_self p (·.started 3), hflip hst, rfl⟩
  · exact (exec_quiesce h p).trans (congrArg Outcome.next (State.quiesce_running hf hu hst))
  · have he := s.enters (p := p) (st := .quiesced) (f := Partition.quiesced) (by rw [hst]; exact nofun) (fun _ => rfl)
      (fun _ => rfl) fun _ => rfl
    exact ⟨_, exec_quiesceComplete hd hi, he.others, he.own, he.taken, he.frame_of_unquiesced (by rw [hst]; exact nofun)⟩
  · exact fun hd => ⟨exec_quiesceTimeout_over hd, exec_quiesceTimeout_early hd⟩
  · obtain ⟨vq, vc, g, l, he, hseqs, hcores, hothers⟩ := State.stop_drained hf hu hst hq hd hc hs
    have hframe := he.frame
    have tq : (s.stop p).seqs = vq := congrArg State.seqs hframe
    have tc : (s.stop p).cores = vc := congrArg State.cores hframe
    rw [← tq] at hseqs
    rw [← tc] at hcores hothers
    have hown : (s.stop p).parts[p] =
        { Partition.stopped g l s.parts[p] with state := .stopped, meter := (s.stop p).parts[p].meter } :=
      he.own
    exact ⟨_, exec_stop h p, he.others, congrArg Partition.state hown, congrArg (·.run.stopCause) hown,
      congrArg (·.run.lastCmd) hown, congrArg (·.run.outcome) hown, congrArg (·.run.stopping) hown, he.taken, hseqs, hcores,
      hothers, congrArg (fun t => { t with seqs := s.seqs, cores := s.cores }) hframe⟩
  · exact congrArg Outcome.next (State.stopEnd_of_undrained hd)
  · have he := s.enters (p := p) (st := .stopped) (f := Partition.ended cause b) hne (fun _ => rfl) (fun _ => rfl) fun _ => rfl
    refine ⟨_, congrArg Outcome.next (State.stopEnd_drained hst hd), he.others, ?_, ?_, ?_, fun hb => ?_, he.taken, he.frame⟩
    all_goals rw [he.own]
    · rfl
    · rfl
    · rw [hb]
      rfl
  · exact exec_release_stopped h hf hb hu hst

end Sys2Proof.Machine

/-! SUPPORT. What a fault in a shared unit ends: the stops of the partitions that use it, and where no item of an engine is
at work, nothing beside them (04 R92; 17 R388, R390). -/

namespace Sys2Proof.Machine

open Host

/-! ### Units -/

/-- Where every unit stands. -/
def State.units (s : State) : Vector Field 4 × Vector (UnitState × Bool) 12 × Vector (UnitState × Bool) 4 × Vector Bool 3 ×
    Vector Bool 4 := (s.fields, s.duty.1.2.2)

/-- Every unit stands as before, and a queue that was empty still is. -/
structure State.Spares (s t : State) : Prop where
  units : t.units = s.units
  waiting : ∀ a : AxisId, s.axes[a].waiting = [] → t.axes[a].waiting = []
  order : ∀ u : PumpId, s.pumps[u].order = [] → t.pumps[u].order = []

theorem State.Serves.spares {s t : State} (h : s.Serves t) : s.Spares t :=
  ⟨congrArg (fun d : Standing => (d.1, d.2.2)) h.standing, h.waiting, h.order⟩

theorem State.Spares.refl (s : State) : s.Spares s := (State.Serves.refl s).spares

theorem State.Spares.trans {s t u : State} (h : s.Spares t) (k : t.Spares u) : s.Spares u :=
  ⟨k.units.trans h.units, fun a e => k.waiting a (h.waiting a e), fun v e => k.order v (h.order v e)⟩

section
variable {s t : State} (h : s.Spares t)
include h

theorem State.Spares.fields : t.fields = s.fields := congrArg Prod.fst h.units

theorem State.Spares.well (w : WellId) : t.wells[w].standing = s.wells[w].standing := by
  have e := congrArg (fun d => d.2.1[w]) h.units
  simpa only [State.units, State.duty, Fin.getElem_fin, Vector.getElem_map] using e

theorem State.Spares.pump (u : PumpId) : t.pumps[u].standing = s.pumps[u].standing := by
  have e := congrArg (fun d => d.2.2.1[u]) h.units
  simpa only [State.units, State.duty, Fin.getElem_fin, Vector.getElem_map] using e

theorem State.Spares.axis (a : AxisId) : t.axes[a].dead = s.axes[a].dead := by
  have e := congrArg (fun d => d.2.2.2.1[a]) h.units
  simpa only [State.units, State.duty, Fin.getElem_fin, Vector.getElem_map] using e

theorem State.Spares.sluice (n : SluiceId) : t.sluices[n].dead = s.sluices[n].dead := by
  have e := congrArg (fun d => d.2.2.2.2[n]) h.units
  simpa only [State.units, State.duty, Fin.getElem_fin, Vector.getElem_map] using e

end

/-! ### One stop -/

/-- Whether a partition can be stopped rests on where it stands. -/
theorem Partition.stoppable_of_standing {x y : Partition} (h : x.standing = y.standing) : x.stoppable = y.stoppable := by
  obtain ⟨hstate, hstop⟩ := Prod.mk.inj h
  unfold Partition.stoppable
  rw [hstate, hstop]

theorem State.stopPart_spares (s : State) (p : PartId) (inc : W32) : s.Spares (s.stopPart p 0x04 false inc) := by
  cases h : s.parts[p].stoppable
  · rw [State.stopPart_refused _ _ _ h]
    exact .refl s
  · exact (⟨rfl, fun _ e => e, fun _ e => e⟩ : s.Spares (s.markStop p 0x04 false)).trans (State.stopPart_serves _ _ _ h).spares

theorem State.stopPart_self {s : State} {p : PartId} (inc : W32) (h : s.parts[p].stoppable = true) :
    (s.stopPart p 0x04 false inc).parts[p].run.stopping = some (0x04, false) := by
  rw [State.stopping_of_standing (State.stopPart_serves _ _ _ h).standing p, State.markStop_eq, State.updPart_self]
  rfl

theorem State.stopPart_other (s : State) {p q : PartId} (h : q ≠ p) (inc : W32) :
    (s.stopPart p 0x04 false inc).parts[q].standing = s.parts[q].standing := by
  cases hp : s.parts[p].stoppable
  · rw [State.stopPart_refused _ _ _ hp]
  · rw [State.part_of_standing (State.stopPart_serves _ _ _ hp).standing q, State.markStop_eq, State.updPart_other _ h]

/-! ### The stops of a fault -/

/-- The stops of a fault (R92). -/
def State.stopAll (s : State) (l : List PartId) (inc : W32) : State := s.over l fun s p => s.stopPart p 0x04 false inc

theorem State.stopAll_spares (s : State) (l : List PartId) (inc : W32) : s.Spares (s.stopAll l inc) := by
  induction l generalizing s with
  | nil => exact .refl s
  | cons p r ih => exact (s.stopPart_spares p inc).trans (ih _)

theorem State.stopAll_keeps {s : State} {p : PartId} {c : Byte × Bool} (h : s.parts[p].run.stopping = some c)
    (l : List PartId) (inc : W32) : (s.stopAll l inc).parts[p].run.stopping = some c := by
  induction l generalizing s with
  | nil => exact h
  | cons q r ih =>
    refine ih ?_
    by_cases hq : p = q
    · subst hq
      have hp : s.parts[p].stoppable = false := by simp [-Fin.getElem_fin, Partition.stoppable, h]
      exact (congrArg (fun t => t.parts[p].run.stopping) (State.stopPart_refused 0x04 false inc hp)).trans h
    · exact (congrArg Prod.snd (s.stopPart_other hq inc)).trans h

theorem State.stopAll_stops {s : State} {l : List PartId} {p : PartId} (inc : W32) (hp : p ∈ l)
    (h : s.parts[p].stoppable = true) : (s.stopAll l inc).parts[p].run.stopping = some (0x04, false) := by
  induction l generalizing s with
  | nil => exact absurd hp List.not_mem_nil
  | cons q r ih =>
    by_cases hq : p = q
    · subst hq
      exact State.stopAll_keeps (State.stopPart_self inc h) r inc
    · exact ih ((List.mem_cons.mp hp).resolve_left hq)
        ((Partition.stoppable_of_standing (s.stopPart_other hq inc)).trans h)

/-! ### Where no item of an engine is at work -/

/-- Nothing of an engine is at work, and but for the partitions of `l` every partition, every well, the memory of every Pump
and of every core is as before. -/
structure State.Calm (l : List PartId) (s t : State) : Prop where
  quiet : Quiet t
  parts : ∀ p, p ∉ l → t.parts[p] = s.parts[p]
  wells : t.wells = s.wells
  pumps : ∀ u : PumpId, t.pumps[u].mem = s.pumps[u].mem
  cores : ∀ c : CoreId, t.cores[c].mem = s.cores[c].mem

theorem State.Calm.refl {s : State} (h : Quiet s) (l : List PartId) : State.Calm l s s :=
  ⟨h, fun _ _ => rfl, rfl, fun _ => rfl, fun _ => rfl⟩

theorem State.Calm.trans {l : List PartId} {s t u : State} (h : State.Calm l s t) (k : State.Calm l t u) : State.Calm l s u where
  quiet := k.quiet
  parts p hp := (k.parts p hp).trans (h.parts p hp)
  wells := k.wells.trans h.wells
  pumps v := (k.pumps v).trans (h.pumps v)
  cores c := (k.cores c).trans (h.cores c)

theorem State.Calm.mono {l r : List PartId} {s t : State} (h : State.Calm l s t) (hr : ∀ p ∈ l, p ∈ r) : State.Calm r s t :=
  { h with parts := fun p hp => h.parts p fun hl => hp (hr p hl) }

theorem quiet_of_aside {p : PartId} {s t : State} (h : t.aside p = s.aside p) (hs : Quiet s) : Quiet t := by
  obtain ⟨hsluices, haxes, hparts, hsweeps⟩ := hs
  obtain ⟨hothers, hcmds, hclaims⟩ := State.parts_of_aside h
  obtain ⟨-, hpumps, hsluices', -⟩ := State.units_of_aside h
  refine ⟨fun n => hsluices' ▸ hsluices n, fun a => ?_, fun q => ?_, fun u => hpumps ▸ hsweeps u⟩
  · obtain ⟨hw, hc, ha⟩ := State.axis_of_aside h a
    rw [hw, hc, ha]
    exact haxes a
  · by_cases hq : q = p
    · subst hq
      rw [hcmds, hclaims]
      exact hparts q
    · rw [hothers q hq]
      exact hparts q

theorem calm_of_aside {p : PartId} {s t : State} (h : t.aside p = s.aside p) (hs : Quiet s) : State.Calm [p] s t := by
  obtain ⟨hothers, -, -⟩ := State.parts_of_aside h
  obtain ⟨hwells, hpumps, -, -⟩ := State.units_of_aside h
  exact ⟨quiet_of_aside h hs, fun q hq => hothers q fun e => hq (List.mem_singleton.mpr e), hwells, fun _ => by rw [hpumps],
    State.coreMem_of_aside h⟩

theorem noEngineItems_of_quiet {s : State} (h : Quiet s) (p : PartId) : NoEngineItems p s := by
  obtain ⟨hsluices, haxes, hparts, -⟩ := h
  refine ⟨fun a c hc => ?_, fun a c hc => ?_, fun a x hx => ?_, hsluices, (hparts p).1⟩
  · rw [(haxes a).1] at hc
    exact absurd hc List.not_mem_nil
  · rw [(haxes a).2.1] at hc
    exact absurd hc List.not_mem_nil
  · rw [(haxes a).2.2] at hx
    exact absurd hx List.not_mem_nil

theorem State.stopPrograms_aside (s : State) (p : PartId) (inc : W32) : (s.stopPrograms p inc).aside p = s.aside p := by
  unfold State.stopPrograms
  have hl : ∀ x ∈ s.programsOf p, x.part = p := fun x hx => eq_of_beq (List.mem_filter.mp hx).2
  generalize s.programsOf p = l at hl
  induction l generalizing s with
  | nil => rfl
  | cons x r ih =>
    obtain rfl := hl x List.mem_cons_self
    exact (ih (s.endProgram x .failedTimeout 0 inc) fun y hy => hl y (List.mem_cons_of_mem x hy)).trans (State.endProgram_aside ..)

theorem State.stopWindow_aside (s : State) (p : PartId) (cause : Byte) (byCmd : Bool) :
    (s.stopWindow p cause byCmd).aside p = s.aside p := by
  unfold State.stopWindow
  rw [State.refuseQueued_aside, State.haltCores_aside, State.haltSeqs_aside, State.markStop_eq]
  exact s.updPart_aside p _ (fun _ => rfl) fun _ => rfl

theorem State.tearClaims_nil {s : State} {p : PartId} (h : s.parts[p].claims = []) (sel : Group → Bool) :
    s.tearClaims p sel = s := by
  unfold State.tearClaims
  rw [h]
  rfl

theorem State.stopPart_calm {s : State} (h : Quiet s) (p : PartId) (inc : W32) :
    State.Calm [p] s (s.stopPart p 0x04 false inc) := by
  cases hp : s.parts[p].stoppable
  · rw [State.stopPart_refused _ _ _ hp]
    exact .refl h _
  · have ha := (State.stopPrograms_aside (s.stopWindow p 0x04 false) p inc).trans (s.stopWindow_aside p 0x04 false)
    have hq := quiet_of_aside ha h
    rw [State.stopPart_eq _ _ _ hp, (noEngineItems_of_quiet hq p).stopEngines, State.tearClaims_nil (hq.2.2.1 p).2]
    exact calm_of_aside ha h

theorem State.stopAll_calm {s : State} (h : Quiet s) (l : List PartId) (inc : W32) : State.Calm l s (s.stopAll l inc) := by
  induction l generalizing s with
  | nil => exact .refl h _
  | cons p r ih =>
    have hp := State.stopPart_calm h p inc
    exact (hp.mono fun q hq => List.mem_singleton.mp hq ▸ List.mem_cons_self).trans
      ((ih hp.quiet).mono fun q hq => List.mem_cons_of_mem p hq)

/-! ### The items that end with their engine -/

/-- Items of an engine ended: what stands stays, no incident is made, and where none is at work nothing changes but queues. -/
structure State.Ends (s t : State) : Prop where
  serves : s.Serves t
  fixed : t.fixed = s.fixed
  kept : t.kept = s.kept
  calm : Quiet s → State.Calm [] s t

theorem State.Ends.trans {s t u : State} (h : s.Ends t) (k : t.Ends u) : s.Ends u :=
  ⟨h.serves.trans k.serves, k.fixed.trans h.fixed, k.kept.trans h.kept, fun hq => (h.calm hq).trans (k.calm (h.calm hq).quiet)⟩

theorem State.pumpItemsDead_ends (s : State) (u : PumpId) (inc : W32) : s.Ends (s.pumpItemsDead u inc) := by
  refine ⟨?_, s.pumpItemsDead_fixed u inc, s.pumpItemsDead_kept u inc, fun h => ?_⟩
  · refine (State.Serves.of_duty (s.tearSweep_duty u .failedLink true inc)).trans ?_
    refine ⟨?_, fun _ e => e, fun v e => ?_⟩
    · exact State.updPump_standing _ u _ (fun _ => rfl) fun _ => rfl
    · exact updAt_nil (s.tearSweep u .failedLink true inc).pumps Pump.order u v (fun _ _ => rfl) e
  · obtain ⟨hsluices, haxes, hparts, hsweeps⟩ := h
    have e : s.tearSweep u .failedLink true inc = s := by
      unfold State.tearSweep
      rw [hsweeps u]
    unfold State.pumpItemsDead
    rw [e]
    refine ⟨⟨hsluices, haxes, hparts, fun v => ?_⟩, fun _ _ => rfl, rfl, fun v => ?_, fun _ => rfl⟩
    · exact (updAt_keeps Pump.sweep s.pumps u v (by intro x; rfl)).trans (hsweeps v)
    · exact updAt_keeps Pump.mem s.pumps u v (by intro x; rfl)

theorem State.pumpItemsDead_order (s : State) (u : PumpId) (inc : W32) : (s.pumpItemsDead u inc).pumps[u].order = [] := by
  have e : (s.pumpItemsDead u inc).pumps[u] = _ := updAt_self (s.tearSweep u .failedLink true inc).pumps u _
  rw [e]

theorem State.sluiceItemsDead_ends (s : State) (n : SluiceId) (inc : W32) : s.Ends (s.sluiceItemsDead n inc) := by
  refine ⟨.of_duty (s.sluiceItemsDead_duty n inc), s.sluiceItemsDead_fixed n inc, s.sluiceItemsDead_kept n inc, fun h => ?_⟩
  have hn := h.1 n
  have e : s.sluiceItemsDead n inc = s := by
    have hid : s.updSluice n (fun x => { x with waiting := [] }) = s :=
      congrArg (fun v => { s with sluices := v }) (updAt_id s.sluices n
        (congrArg (fun l => { s.sluices[n] with waiting := l }) hn.2.symm))
    unfold State.sluiceItemsDead
    dsimp only
    rw [hid, hn.2, State.over_nil, hn.1]
    rfl
  rw [e]
  exact .refl h _

theorem State.axisItemsDead_serves (s : State) (a : AxisId) (inc : W32) :
    s.Serves (s.axisItemsDead a inc) ∧ (s.axisItemsDead a inc).axes[a].waiting = [] := by
  unfold State.axisItemsDead
  dsimp only
  generalize hs : (s.over s.axes[a].atomics fun s x => s.endAtomic a x .failedLink inc) = t
  have h1 : s.Serves t := hs ▸ .of_duty (State.over_duty _ _ (fun u x => u.endAtomic_duty a x _ inc) s)
  have h2 : t.Serves (t.updAxis a fun x => { x with waiting := [] }) := t.updAxis_serves a (fun _ => rfl) fun _ _ => rfl
  have hw : (t.updAxis a fun x => { x with waiting := [] }).axes[a].waiting = [] :=
    congrArg AxisEngine.waiting (updAt_self t.axes a _)
  generalize (t.updAxis a fun x => { x with waiting := [] }) = u at h2 hw
  have h3 : u.Serves (u.over t.axes[a].waiting fun s c => s.endColl a c .failedLink inc) :=
    .over _ (fun v c => v.endColl_serves a c _ inc) u
  generalize (u.over t.axes[a].waiting fun s c => s.endColl a c .failedLink inc) = v at h3
  have h4 : v.Serves (v.over v.axes[a].colls fun s c => s.failColl a c .failedLink inc) :=
    .over _ (fun v c => v.failColl_serves a c _ inc) v
  exact ⟨((h1.trans h2).trans h3).trans h4, (h3.trans h4).waiting a hw⟩

theorem State.axisItemsDead_ends (s : State) (a : AxisId) (inc : W32) : s.Ends (s.axisItemsDead a inc) := by
  refine ⟨(s.axisItemsDead_serves a inc).1, s.axisItemsDead_fixed a inc, s.axisItemsDead_kept a inc, fun h => ?_⟩
  obtain ⟨hw, hc, ha⟩ := h.2.1 a
  have e : s.axisItemsDead a inc = s := by
    have hid : s.updAxis a (fun x => { x with waiting := [] }) = s :=
      congrArg (fun v => { s with axes := v }) (updAt_id s.axes a (congrArg (fun l => { s.axes[a] with waiting := l }) hw.symm))
    unfold State.axisItemsDead
    dsimp only
    rw [ha, State.over_nil, hid, hw, State.over_nil, hc]
    rfl
  rw [e]
  exact .refl h _

end Sys2Proof.Machine

/-! SUPPORT. Units that fail (04 R92; 13 R331; 17 R388, R398 to R400). -/

namespace Sys2Proof.Machine

open Host

/-! ### A fault -/

/-- One incident more, its source noted, before anything ends: partitions, cores and the bytes of memory stay. -/
structure State.Faulted (src : Byte) (s v : State) : Prop where
  incident : v.ctl.incident = s.ctl.incident + 1
  source : v.ctl.faultSource = src
  quiet : Quiet s → Quiet v
  parts : v.parts = s.parts
  cores : v.cores = s.cores
  wells : ∀ w : WellId, v.wells[w].data = s.wells[w].data
  pumps : ∀ u : PumpId, v.pumps[u].mem.data = s.pumps[u].mem.data
  fixed : v.fixed = s.fixed

/-- A fault whose items have ended and whose partitions are stopped. -/
theorem State.Faulted.jobFault {src : Byte} {s v u : State} (hf : s.Faulted src v) (he : v.Ends u) (l : List PartId) (inc : W32) :
    JobFault src l s (u.stopAll l inc) := by
  obtain ⟨-, hinc, hsource, -, -⟩ := State.eqs_of_kept he.kept
  have hkept : (u.stopAll l inc).kept = u.kept := State.over_kept _ _ (fun t p => t.stopPart_kept p 0x04 false inc) u
  have hfixed : (u.stopAll l inc).fixed = u.fixed := State.over_fixed _ _ (fun t p => t.stopPart_fixed p 0x04 false inc) u
  obtain ⟨-, hinc', hsource', -, -⟩ := State.eqs_of_kept hkept
  obtain ⟨hfuses, hpending, htime, -, -⟩ := State.eqs_of_fixed (hfixed.trans (he.fixed.trans hf.fixed))
  refine ⟨hinc'.trans (hinc.trans hf.incident), hsource'.trans (hsource.trans hf.source), fun p hp hs => ?_, fun hq => ?_,
    hfuses, htime, hpending⟩
  · refine State.stopAll_stops inc hp ?_
    rw [Partition.stoppable_of_standing (State.part_of_standing he.serves.standing p), hf.parts]
    exact hs
  · have hc := he.calm (hf.quiet hq)
    have hs := (hc.mono fun _ h => absurd h List.not_mem_nil).trans (State.stopAll_calm hc.quiet l inc)
    refine ⟨fun p hp => ?_, fun w => ?_, fun x => ?_, fun c => ?_⟩
    · rw [hs.parts p hp, hf.parts]
    · rw [hs.wells]
      exact hf.wells w
    · rw [hs.pumps x]
      exact hf.pumps x
    · rw [hs.cores c, hf.cores]

/-- A fault spares what stands. -/
theorem State.Ends.spares_stopAll {v u : State} (he : v.Ends u) (l : List PartId) (inc : W32) : v.Spares (u.stopAll l inc) :=
  he.serves.spares.trans (u.stopAll_spares l inc)

theorem State.Ends.wells_stopAll {v u : State} (he : v.Ends u) (h : Quiet v) (l : List PartId) (inc : W32) :
    (u.stopAll l inc).wells = v.wells := by
  have hc := he.calm h
  exact (State.stopAll_calm hc.quiet l inc).wells.trans hc.wells

theorem State.Ends.refl (s : State) : s.Ends s := ⟨.refl s, rfl, rfl, fun h => .refl h _⟩

/-! ### Units made DEAD -/

/-- A memory unit that is DEAD. -/
def MemCtl.killed (m : MemCtl) : MemCtl := { m with state := .dead, svcRunning := false }

theorem State.baroOut_puts (s : State) (part : Nat) (out : Bool) : ∃ b, s.baroOut part out = { s with baro := b } := by
  unfold State.baroOut
  split
  · exact ⟨_, rfl⟩
  · exact ⟨s.baro, rfl⟩

theorem State.evidence_puts (s : State) (part : Nat) (k : Fin 11) (n : Nat) :
    ∃ b, s.evidence part k n = { s with baro := b } := by
  unfold State.evidence
  split
  · exact ⟨_, rfl⟩
  · exact ⟨s.baro, rfl⟩

theorem State.incident_puts (s : State) (source : Byte) (mask : Nat) (severity : Byte) :
    ∃ a, s.incident source mask severity =
      { s with ctl := { s.ctl with incident := s.ctl.incident + 1, faultSource := source }, almanac := a } := ⟨_, rfl⟩

theorem State.killMem_well (s : State) (w : WellId) :
    ∃ b, s.killMem (.well w) = { s with wells := updAt s.wells w MemCtl.killed, baro := b } :=
  State.baroOut_puts (s.updWell w MemCtl.killed) _ _

theorem State.killMem_quarter (s : State) (u : PumpId) :
    ∃ b, s.killMem (.quarter u) = { s with pumps := updAt s.pumps u (fun x => { x with mem := x.mem.killed }), baro := b } :=
  State.baroOut_puts (s.updPump u fun x => { x with mem := x.mem.killed }) _ _

/-- A Pump whose memory is DEAD keeps its sweep. -/
theorem quiet_of_pumps {s t : State} (h : Quiet s) (hs : t.sluices = s.sluices) (ha : t.axes = s.axes) (hp : t.parts = s.parts)
    (hu : ∀ u : PumpId, t.pumps[u].sweep = s.pumps[u].sweep) : Quiet t := by
  obtain ⟨hsluices, haxes, hparts, hsweeps⟩ := h
  exact ⟨fun n => hs ▸ hsluices n, fun a => ha ▸ haxes a, fun p => hp ▸ hparts p, fun u => (hu u).trans (hsweeps u)⟩

/-! ### A dead well -/

section
variable (s : State) (w : WellId)

/-- A well made DEAD, with its incident. -/
def State.faultWell : State :=
  (s.killMem (.well w)).incident 0x03 (maskOf ((s.usersOf (.well w)).map (·.val))) sevJob

theorem State.faultWell_puts : ∃ b a, s.faultWell w =
    { s with wells := updAt s.wells w MemCtl.killed, baro := b, almanac := a
             ctl := { s.ctl with incident := s.ctl.incident + 1, faultSource := 0x03 } } := by
  obtain ⟨b, e⟩ := s.killMem_well w
  unfold State.faultWell
  rw [e]
  exact ⟨b, _, rfl⟩

theorem State.faultWell_faulted : s.Faulted 0x03 (s.faultWell w) := by
  obtain ⟨b, a, e⟩ := s.faultWell_puts w
  rw [e]
  exact ⟨rfl, rfl, fun h => h, rfl, rfl, fun v => updAt_keeps MemCtl.data s.wells w v (by intro m; rfl), fun _ => rfl, rfl⟩

variable {s w}

theorem State.wellDead_eq (h : s.wells[w].state ≠ .dead) : s.wellDead w =
    ((s.faultWell w).stopAll (s.usersOf (.well w)) (s.faultWell w).ctl.incident).markGone :=
  if_neg (mt LawfulBEq.eq_of_beq h)

theorem State.wellDead_faults (h : s.wells[w].state ≠ .dead) :
    (s.wellDead w).wells[w].state = .dead ∧ (s.wellDead w).wells[w].svcRunning = false ∧
      (Quiet s → ∀ v, v ≠ w → (s.wellDead w).wells[v] = s.wells[v]) ∧
      JobFault 0x03 (s.usersOf (.well w)) s (s.wellDead w) := by
  have hf := s.faultWell_faulted w
  have he := State.Ends.refl (s.faultWell w)
  obtain ⟨b, a, ev⟩ := s.faultWell_puts w
  have hwells : (s.faultWell w).wells = updAt s.wells w MemCtl.killed := congrArg State.wells ev
  have hw := (he.spares_stopAll (s.usersOf (.well w)) (s.faultWell w).ctl.incident).well w
  rw [show (s.faultWell w).wells[w] = s.wells[w].killed by rw [hwells]; exact updAt_self s.wells w _] at hw
  rw [State.wellDead_eq h]
  obtain ⟨hstate, hsvc⟩ := Prod.mk.inj hw
  refine ⟨hstate, hsvc, fun hq v hv => ?_, hf.jobFault he _ _⟩
  have e := he.wells_stopAll (hf.quiet hq) (s.usersOf (.well w)) (s.faultWell w).ctl.incident
  have ev : (s.faultWell w).wells[v] = s.wells[v] := by
    rw [hwells]
    exact updAt_other _ _ _ _ _ (Fin.val_ne_of_ne hv.symm)
  exact (congrArg (fun x : Vector MemCtl 12 => x[v]) e).trans ev

end

/-! ### A dead Pump -/

section
variable (s : State) (u : PumpId)

/-- A Pump made DEAD, with its incident. -/
def State.faultPump : State :=
  (s.killMem (.quarter u)).incident 0x04 (maskOf ((s.usersOf (.quarter u)).map (·.val))) sevJob

theorem State.faultPump_puts : ∃ b a, s.faultPump u =
    { s with pumps := updAt s.pumps u (fun x => { x with mem := x.mem.killed }), baro := b, almanac := a
             ctl := { s.ctl with incident := s.ctl.incident + 1, faultSource := 0x04 } } := by
  obtain ⟨b, e⟩ := s.killMem_quarter u
  unfold State.faultPump
  rw [e]
  exact ⟨b, _, rfl⟩

theorem State.faultPump_faulted : s.Faulted 0x04 (s.faultPump u) := by
  obtain ⟨b, a, e⟩ := s.faultPump_puts u
  rw [e]
  refine ⟨rfl, rfl, fun h => quiet_of_pumps h rfl rfl rfl fun v => ?_, rfl, rfl, fun _ => rfl, fun v => ?_, rfl⟩
  · exact updAt_keeps Pump.sweep s.pumps u v (by intro m; rfl)
  · exact updAt_keeps (fun x : Pump => x.mem.data) s.pumps u v (by intro m; rfl)

variable {s u}

theorem State.pumpDead_eq (h : s.pumps[u].mem.state ≠ .dead) : s.pumpDead u =
    (((s.faultPump u).pumpItemsDead u (s.faultPump u).ctl.incident).stopAll (s.usersOf (.quarter u))
      (s.faultPump u).ctl.incident).markGone :=
  if_neg (mt LawfulBEq.eq_of_beq h)

theorem State.pumpDead_faults (h : s.pumps[u].mem.state ≠ .dead) :
    (s.pumpDead u).pumps[u].mem.state = .dead ∧ (s.pumpDead u).pumps[u].mem.svcRunning = false ∧
      (s.pumpDead u).pumps[u].order = [] ∧ JobFault 0x04 (s.usersOf (.quarter u)) s (s.pumpDead u) := by
  have he := (s.faultPump u).pumpItemsDead_ends u (s.faultPump u).ctl.incident
  have horder := (s.faultPump u).pumpItemsDead_order u (s.faultPump u).ctl.incident
  have hu := (he.spares_stopAll (s.usersOf (.quarter u)) (s.faultPump u).ctl.incident).pump u
  have ho := (State.stopAll_spares ((s.faultPump u).pumpItemsDead u (s.faultPump u).ctl.incident) (s.usersOf (.quarter u))
    (s.faultPump u).ctl.incident).order u horder
  obtain ⟨b, a, ev⟩ := s.faultPump_puts u
  have hmem : (s.faultPump u).pumps[u].mem = s.pumps[u].mem.killed := by
    rw [ev]
    exact congrArg Pump.mem (updAt_self s.pumps u _)
  rw [Pump.standing, Pump.standing, hmem] at hu
  rw [State.pumpDead_eq h]
  obtain ⟨hstate, hsvc⟩ := Prod.mk.inj hu
  exact ⟨hstate, hsvc, ho, (s.faultPump_faulted u).jobFault he _ _⟩

end

/-! ### A dead axis engine and a dead Sluice -/

section
variable (s : State)

/-- An axis engine that is dead, with its incident. -/
def State.faultAxis (a : AxisId) (l : List PartId) : State :=
  (s.updAxis a fun x => { x with dead := true }).incident 0x05 (maskOf (l.map (·.val))) sevJob

theorem State.faultAxis_faulted (a : AxisId) (l : List PartId) : s.Faulted 0x05 (s.faultAxis a l) := by
  refine ⟨rfl, rfl, fun ⟨hsluices, haxes, hparts, hsweeps⟩ => ⟨hsluices, fun b => ?_, hparts, hsweeps⟩, rfl, rfl,
    fun _ => rfl, fun _ => rfl, rfl⟩
  obtain ⟨hw, hc, ha⟩ := haxes b
  exact ⟨(updAt_keeps AxisEngine.waiting s.axes a b (by intro x; rfl)).trans hw,
    (updAt_keeps AxisEngine.colls s.axes a b (by intro x; rfl)).trans hc,
    (updAt_keeps AxisEngine.atomics s.axes a b (by intro x; rfl)).trans ha⟩

/-- A Sluice that is dead, with its incident. -/
def State.faultSluice (n : SluiceId) (l : List PartId) : State :=
  (s.updSluice n fun x => { x with dead := true }).incident 0x06 (maskOf (l.map (·.val))) sevJob

theorem State.faultSluice_faulted (n : SluiceId) (l : List PartId) : s.Faulted 0x06 (s.faultSluice n l) := by
  refine ⟨rfl, rfl, fun ⟨hsluices, haxes, hparts, hsweeps⟩ => ⟨fun m => ?_, haxes, hparts, hsweeps⟩, rfl, rfl,
    fun _ => rfl, fun _ => rfl, rfl⟩
  obtain ⟨hl, hw⟩ := hsluices m
  exact ⟨(updAt_keeps Sluice.layers s.sluices n m (by intro x; rfl)).trans hl,
    (updAt_keeps Sluice.waiting s.sluices n m (by intro x; rfl)).trans hw⟩

variable {s}

theorem exec_axisEngineDead {a : AxisId} (h : s.axes[a].dead = false) :
    let l := s.committedParts.filter fun p => s.parts[p].im.img.axisWeight[a] != 0
    exec (.axisEngineDead a) s = .next (((s.faultAxis a l).axisItemsDead a (s.faultAxis a l).ctl.incident).stopAll l
      (s.faultAxis a l).ctl.incident) :=
  congrArg Outcome.next (if_neg (Bool.eq_false_iff.mp h))

theorem axisEngineDead_faults {a : AxisId} (h : s.axes[a].dead = false) : ∃ t, exec (.axisEngineDead a) s = .next t ∧
    t.axes[a].dead = true ∧ t.axes[a].waiting = [] ∧
    JobFault 0x05 (s.committedParts.filter fun p => s.parts[p].im.img.axisWeight[a] != 0) s t := by
  have e := exec_axisEngineDead h
  generalize (s.committedParts.filter fun p => s.parts[p].im.img.axisWeight[a] != 0) = l at e
  have he := (s.faultAxis a l).axisItemsDead_ends a (s.faultAxis a l).ctl.incident
  have hdead : (s.faultAxis a l).axes[a].dead = true := congrArg AxisEngine.dead (updAt_self s.axes a _)
  exact ⟨_, e, ((he.spares_stopAll l _).axis a).trans hdead,
    (State.stopAll_spares _ l _).waiting a ((s.faultAxis a l).axisItemsDead_serves a _).2,
    (s.faultAxis_faulted a l).jobFault he l _⟩

theorem exec_sluiceDead {n : SluiceId} (h : s.sluices[n].dead = false) (hp : s.sluicePresent n.val = true) :
    let l := (s.sluiceHolder n).toList
    exec (.sluiceDead n) s = .next (((s.faultSluice n l).sluiceItemsDead n (s.faultSluice n l).ctl.incident).stopAll l
      (s.faultSluice n l).ctl.incident) :=
  congrArg Outcome.next (if_neg (by rw [h, hp]; exact nofun))

theorem sluiceDead_faults {n : SluiceId} (h : s.sluices[n].dead = false) (hp : s.sluicePresent n.val = true) :
    ∃ t, exec (.sluiceDead n) s = .next t ∧ t.sluices[n].dead = true ∧ JobFault 0x06 (s.sluiceHolder n).toList s t := by
  have e := exec_sluiceDead h hp
  generalize (s.sluiceHolder n).toList = l at e
  have he := (s.faultSluice n l).sluiceItemsDead_ends n (s.faultSluice n l).ctl.incident
  have hdead : (s.faultSluice n l).sluices[n].dead = true := congrArg Sluice.dead (updAt_self s.sluices n _)
  exact ⟨_, e, ((he.spares_stopAll l _).sluice n).trans hdead, (s.faultSluice_faulted n l).jobFault he l _⟩

end

/-! ### A field rail -/

section
variable (s : State) (f : FieldId)

/-- The wells of a field. -/
def fieldWells : List WellId := (allFin 12).filter fun w => w.val / 3 == f.val

/-- The incident of a field rail, its rail off. -/
def State.railOff (l : List PartId) : State :=
  let v := (s.updField f fun x => { x with failed := true, railMv := 0, rateMbeat := 0, retained := false }).incident 0x08
    (maskOf (l.map (·.val))) sevJob
  { v with power := { v.power with railFields := v.power.railFields.set f false } }

/-- A field whose rail is off: its wells and its Pump DEAD. -/
def State.faultField (l : List PartId) : State :=
  ((s.railOff f l).over (fieldWells f) fun s w => s.killMem (.well w)).killMem (.quarter f)

variable {s f}

theorem mem_fieldWells (w : WellId) : w ∈ fieldWells f ↔ w.val / 3 = f.val := by
  simp [fieldWells, allFin]

theorem State.killMem_well_wells (s : State) (w : WellId) : (s.killMem (.well w)).wells = updAt s.wells w MemCtl.killed := by
  obtain ⟨b, e⟩ := s.killMem_well w
  rw [e]

/-- Wells killed change nothing but themselves and what the Barometer notes. -/
theorem State.killWells_puts (s : State) (l : List WellId) (hl : l.Nodup) :
    ∃ vw b, s.over l (fun s w => s.killMem (.well w)) = { s with wells := vw, baro := b } ∧
      (∀ w ∈ l, vw[w] = s.wells[w].killed) ∧ ∀ w, w ∉ l → vw[w] = s.wells[w] := by
  have hother (st : State) (v w : WellId) (h : v ≠ w) : (st.killMem (.well v)).wells[w] = st.wells[w] := by
    rw [State.killMem_well_wells]
    exact updAt_other _ _ _ _ _ (Fin.val_ne_of_ne h)
  refine ⟨(s.over l fun s w => s.killMem (.well w)).wells, (s.over l fun s w => s.killMem (.well w)).baro,
    State.over_put (fun st => (st.wells, st.baro)) (fun st v => { st with wells := v.1, baro := v.2 })
      (fun st w => st.killMem (.well w)) (fun _ => rfl) (fun st w v => ?_) l s, fun w hw => ?_,
    fun w hw => State.over_bank_other State.wells (fun st w => st.killMem (.well w)) hother l w hw s⟩
  · obtain ⟨b, e⟩ := st.killMem_well w
    rw [e]
  · refine State.over_bank_self State.wells (fun st w => st.killMem (.well w)) hother (Q := fun _ x y => y = x.killed)
      (fun st i => ?_) l hl w hw s
    rw [State.killMem_well_wells]
    exact updAt_self st.wells i _

theorem State.faultField_puts (s : State) (f : FieldId) (l : List PartId) : ∃ vw b a, s.faultField f l =
      { s with
        fields := updAt s.fields f fun x => { x with failed := true, railMv := 0, rateMbeat := 0, retained := false }
        power := { s.power with railFields := s.power.railFields.set f false }
        wells := vw, pumps := updAt s.pumps f (fun x => { x with mem := x.mem.killed }), baro := b, almanac := a
        ctl := { s.ctl with incident := s.ctl.incident + 1, faultSource := 0x08 } } ∧
    (∀ w : WellId, w.val / 3 = f.val → vw[w] = s.wells[w].killed) ∧
    ∀ w : WellId, w.val / 3 ≠ f.val → vw[w] = s.wells[w] := by
  obtain ⟨vw, b, e, hin, hout⟩ := (s.railOff f l).killWells_puts (fieldWells f) ((List.nodup_finRange 12).filter _)
  obtain ⟨b', e'⟩ := ({ s.railOff f l with wells := vw, baro := b } : State).killMem_quarter f
  refine ⟨vw, b', (s.railOff f l).almanac, ?_, fun w hw => hin w ((mem_fieldWells w).mpr hw),
    fun w hw => hout w (mt (mem_fieldWells w).mp hw)⟩
  unfold State.faultField
  rw [e, e']
  rfl

theorem State.faultField_faulted (s : State) (f : FieldId) (l : List PartId) : s.Faulted 0x08 (s.faultField f l) := by
  obtain ⟨vw, b, a, e, hin, hout⟩ := s.faultField_puts f l
  rw [e]
  refine ⟨rfl, rfl, fun h => quiet_of_pumps h rfl rfl rfl fun v => ?_, rfl, rfl, fun w => ?_, fun v => ?_, rfl⟩
  · exact updAt_keeps Pump.sweep s.pumps f v (by intro m; rfl)
  · by_cases hw : w.val / 3 = f.val
    · exact (congrArg MemCtl.data (hin w hw)).trans rfl
    · exact congrArg MemCtl.data (hout w hw)
  · exact updAt_keeps (fun x : Pump => x.mem.data) s.pumps f v (by intro m; rfl)

theorem exec_fieldRailFault (h : s.fields[f].failed = false) :
    let l := s.committedParts.filter fun p => s.onField f p
    let v := s.faultField f l
    let inc := s.ctl.incident + 1
    exec (.fieldRailFault f) s = .next (((v.pumpItemsDead f inc).sluiceItemsDead f inc).stopAll l inc).markGone :=
  congrArg Outcome.next (if_neg (Bool.eq_false_iff.mp h))

theorem fieldRailFault_faults (h : s.fields[f].failed = false) : ∃ t, exec (.fieldRailFault f) s = .next t ∧
    t.fields[f].failed = true ∧ t.fields[f].railMv = 0 ∧ t.power.railFields[f] = false ∧
    (∀ w : WellId, w.val / 3 = f.val → t.wells[w].state = .dead) ∧
    (Quiet s → ∀ w : WellId, w.val / 3 ≠ f.val → t.wells[w] = s.wells[w]) ∧ t.pumps[f].mem.state = .dead ∧
    JobFault 0x08 (s.committedParts.filter fun p => s.onField f p) s t := by
  have e := exec_fieldRailFault h
  dsimp only at e
  generalize (s.committedParts.filter fun p => s.onField f p) = l at e
  generalize s.ctl.incident + 1 = inc at e
  have hf := s.faultField_faulted f l
  obtain ⟨vw, b, a, ev, hin, hout⟩ := s.faultField_puts f l
  have he := ((s.faultField f l).pumpItemsDead_ends f inc).trans (State.sluiceItemsDead_ends _ f inc)
  have hs := he.spares_stopAll l inc
  have hkept := (State.over_kept l _ (fun t p => t.stopPart_kept p 0x04 false inc) _).trans he.kept
  obtain ⟨-, -, -, -, hpower⟩ := State.eqs_of_kept hkept
  have hfield : (s.faultField f l).fields[f] =
      { s.fields[f] with failed := true, railMv := 0, rateMbeat := 0, retained := false } := by
    rw [ev]
    exact updAt_self s.fields f _
  have hrail : (s.faultField f l).power.railFields[f] = false := by
    rw [ev]
    exact Vector.getElem_set_self ..
  have hwells : (s.faultField f l).wells = vw := congrArg State.wells ev
  have hpump : (s.faultField f l).pumps[f].mem = s.pumps[f].mem.killed := by
    rw [ev]
    exact congrArg Pump.mem (updAt_self s.pumps f _)
  have hfields := congrArg (fun v : Vector Field 4 => v[f]) hs.fields
  rw [hfield] at hfields
  refine ⟨_, e, congrArg Field.failed hfields, congrArg Field.railMv hfields, ?_, fun w hw => ?_, fun hq w hw => ?_, ?_,
    hf.jobFault he l inc⟩
  · exact (congrArg (fun p : Power => p.railFields[f]) hpower).trans hrail
  · have hd := congrArg Prod.fst (hs.well w)
    rw [hwells, hin w hw] at hd
    exact hd
  · have hd := he.wells_stopAll (hf.quiet hq) l inc
    exact (congrArg (fun x : Vector MemCtl 12 => x[w]) (hd.trans hwells)).trans (hout w hw)
  · have hd := congrArg Prod.fst (hs.pump f)
    rw [Pump.standing, Pump.standing, hpump] at hd
    exact hd

end

/-! ### Retrains -/

section
variable {s : State}

theorem MemCtl.gone_of_served {m : MemCtl} (hd : m.state ≠ .dead) (ho : m.state ≠ .out) : m.gone = false := by
  unfold MemCtl.gone
  rw [beq_eq_false_iff_ne.mpr hd, beq_eq_false_iff_ne.mpr ho]
  rfl

/-- A well after one retrain of its interface (R398). -/
def MemCtl.retrained (ok : Bool) (m : MemCtl) : MemCtl := { m with retrains := if ok then 0 else m.retrains + 1 }

/-- A well whose interface has retrained, with what the Barometer notes of it. -/
def State.retrainWell (s : State) (w : WellId) (ok : Bool) : State :=
  (s.evidence (baroMem (.well w)) evRetrain 1).updWell w (MemCtl.retrained ok)

theorem State.retrainWell_puts (s : State) (w : WellId) (ok : Bool) :
    ∃ b, s.retrainWell w ok = { s with wells := updAt s.wells w (MemCtl.retrained ok), baro := b } := by
  obtain ⟨b, e⟩ := s.evidence_puts (baroMem (.well w)) evRetrain 1
  unfold State.retrainWell
  rw [e]
  exact ⟨b, rfl⟩

theorem exec_wellInterfaceRetrain {w : WellId} (hg : s.wells[w].gone = false) (ok : Bool) :
    exec (.wellInterfaceRetrain w ok) s = .next (
      if ok = false ∧ 2 ≤ s.wells[w].retrains then (s.retrainWell w false).wellDead w else s.retrainWell w ok) := by
  refine congrArg Outcome.next ((if_neg (Bool.eq_false_iff.mp hg)).trans ?_)
  cases ok
  · have h : (s.retrainWell w false).wells[w].retrains = s.wells[w].retrains + 1 := by
      obtain ⟨b, e⟩ := s.retrainWell_puts w false
      rw [e]
      exact congrArg MemCtl.retrains (updAt_self s.wells w _)
    refine (if_neg Bool.false_ne_true).trans ?_
    change (if 3 ≤ (s.retrainWell w false).wells[w].retrains then (s.retrainWell w false).wellDead w
      else s.retrainWell w false) = _
    rw [h]
    by_cases hr : 2 ≤ s.wells[w].retrains
    · rw [if_pos (Nat.succ_le_succ hr), if_pos ⟨rfl, hr⟩]
    · rw [if_neg (mt Nat.le_of_succ_le_succ hr), if_neg fun h => hr h.2]
  · exact (if_pos rfl).trans (if_neg fun h => Bool.false_ne_true h.1.symm).symm

/-- The third failed retrain of a well in a row is a dead well. -/
theorem State.retrainWell_dead {w : WellId} (hd : s.wells[w].state ≠ .dead) :
    ((s.retrainWell w false).wellDead w).wells[w].state = .dead ∧
      JobFault 0x03 (s.usersOf (.well w)) s ((s.retrainWell w false).wellDead w) := by
  obtain ⟨b, e⟩ := s.retrainWell_puts w false
  have hstate : (s.retrainWell w false).wells[w].state = s.wells[w].state := by
    rw [e]
    exact updAt_keeps MemCtl.state s.wells w w (by intro m; rfl)
  obtain ⟨h, -, -, hinc, hsource, hstops, hquiet, hrest⟩ := State.wellDead_faults (hstate.symm ▸ hd)
  rw [e] at h hinc hsource hstops hquiet hrest ⊢
  refine ⟨h, hinc, hsource, hstops, fun hq => ?_, hrest⟩
  obtain ⟨hparts, hwells, hpumps⟩ := hquiet hq
  exact ⟨hparts, fun v => (hwells v).trans (updAt_keeps MemCtl.data s.wells w v (by intro m; rfl)), hpumps⟩

theorem exec_pumpLinkRetrain {u : PumpId} (hg : s.pumps[u].mem.gone = false) :
    ∃ b, exec (.pumpLinkRetrain u true) s = .next { s with baro := b } ∧
      exec (.pumpLinkRetrain u false) s = .next (({ s with baro := b } : State).pumpDead u) := by
  obtain ⟨b, e⟩ := s.evidence_puts (baroMem (.quarter u)) evRetrain 1
  refine ⟨b, congrArg Outcome.next ((if_neg (Bool.eq_false_iff.mp hg)).trans ?_),
    congrArg Outcome.next ((if_neg (Bool.eq_false_iff.mp hg)).trans ?_)⟩
  · exact (if_pos rfl).trans e
  · exact (if_neg Bool.false_ne_true).trans (congrArg (fun t : State => t.pumpDead u) e)

end

/-- Settles O46: each fault notes its incident, ends the items of its unit and stops the unit's users; a stop leaves units
standing, and where no item of an engine is at work, all but its own partition. -/
theorem failedUnitsStopTheirUsers : Obligations.FailedUnitsStopTheirUsers := by
  unfold Obligations.FailedUnitsStopTheirUsers
  refine ⟨fun s w h => ⟨_, rfl, State.wellDead_faults h⟩, fun s u h => ⟨_, rfl, State.pumpDead_faults h⟩,
    fun s a h => axisEngineDead_faults h, fun s n h hp => sluiceDead_faults h hp, fun s f h => fieldRailFault_faults h,
    fun s w h => ?_, fun s u h => ?_, fun s a h => ?_, fun s n h => ?_, fun s f h => ?_,
    fun s w ok hd ho => ⟨fun h => ?_, fun hok hr => ?_⟩, fun s u ok hd ho => ⟨fun hok => ?_, fun hok => ?_⟩⟩
  · exact congrArg Outcome.next (if_pos (beq_iff_eq.mpr h))
  · exact congrArg Outcome.next (if_pos (beq_iff_eq.mpr h))
  · exact congrArg Outcome.next (if_pos h)
  · exact congrArg Outcome.next (if_pos (by rw [h]; rfl))
  · exact congrArg Outcome.next (if_pos h)
  · have e := exec_wellInterfaceRetrain (MemCtl.gone_of_served hd ho) ok
    rw [if_neg (by rintro ⟨rfl, hr⟩; exact h.elim nofun (Nat.not_lt.mpr hr))] at e
    obtain ⟨b, eb⟩ := s.retrainWell_puts w ok
    rw [eb] at e
    exact ⟨_, e, rfl, rfl⟩
  · have e := exec_wellInterfaceRetrain (MemCtl.gone_of_served hd ho) ok
    rw [if_pos ⟨hok, hr⟩] at e
    exact ⟨_, e, State.retrainWell_dead hd⟩
  · subst hok
    obtain ⟨b, e, -⟩ := exec_pumpLinkRetrain (MemCtl.gone_of_served hd ho)
    exact ⟨_, e, rfl⟩
  · subst hok
    obtain ⟨b, -, e⟩ := exec_pumpLinkRetrain (MemCtl.gone_of_served hd ho)
    obtain ⟨h, -, -, hf⟩ := State.pumpDead_faults (s := { s with baro := b }) (u := u) hd
    exact ⟨_, e, h, hf⟩

end Sys2Proof.Machine

/-! SUPPORT. A read over BAR0 of the counter that the read itself raises (05 R114; 04 R104). -/

namespace Sys2Proof.Machine

/-- A READY device whose partition 0 runs and is metered. -/
def meteredRunning : State :=
  { State.reset with
    power := { State.reset.power with alwaysOn := true }
    boot := { State.reset.boot with state := .ready }
    parts := State.reset.parts.set 0 { state := .running, meter := { metered := true } } }

/-- Its VF reads host_bytes, of its own MTR_ window: the eight bytes of the read are counted before the register is read. -/
theorem meteredRunning_reads :
    let t := Outcome.state (exec (.bar2Read ⟨.vf 0, .bar0⟩ 0x1088 8) meteredRunning) meteredRunning
    bar0Offset (.vf 0) 0x1088 = some 0x200088 ∧
      t.link.reads = [⟨.vf 0, 0x1088, some [8, 0, 0, 0, 0, 0, 0, 0], false⟩] ∧
      ((meteredRunning.wakeRange (.vf 0) 0x200088 8).ahead (masterOf (.vf 0))).ctlRead (.vf 0) 0x200088 8 =
        [0, 0, 0, 0, 0, 0, 0, 0] := by
  decide +kernel

/-- Refutes O23: its clause of BAR0 asks that a read answers the registers of the state before the read. The model counts the
bytes of a VF's read as host bytes of its partition first (`State.pcieRegRead`), and that counter is itself a register of the VF's
BAR0: in `meteredRunning` the two differ. -/
theorem not_hostReadsAndWritesThroughBar2 : ¬ Obligations.HostReadsAndWritesThroughBar2 := by
  rintro ⟨-, hbar0, -⟩
  obtain ⟨hoff, hreads, hregs⟩ := meteredRunning_reads
  obtain ⟨t, ht, -, hanswer, -⟩ := hbar0 meteredRunning (.vf 0) 0x1088 8 rfl
  rw [ht] at hreads
  have h := hreads.symm.trans (hanswer 0x200088 hoff)
  rw [hregs] at h
  exact absurd h (by decide)

end Sys2Proof.Machine

/-! SUPPORT. Attestation over DOE and MCTP messages (05 R126, R127; 03 R71; 04 R97, R100, R102): what each object answers, and
what becomes of a message that is heard. -/

namespace Sys2Proof.Machine

open Host

/-! ### DOE objects (R126) -/

theorem State.doeOpen_of_booted {s : State} (hp : s.power.pwrEn = true) (hb : s.boot.state ≠ .bare) : s.doeOpen = true := by
  simp [State.doeOpen, hp, hb]

theorem State.doeOpen_bare {s : State} (hb : s.boot.state = .bare) : s.doeOpen = false := by
  simp [State.doeOpen, hb]

section
variable {s : State} (ha : s.power.alwaysOn = true)
include ha

theorem exec_identity : exec .identity s = .next (s.doeReply Config.identityObject) := congrArg Outcome.next (if_pos ha)

/-- Where the always-on domain is up, `doeOpen` alone chooses the answer. -/
theorem State.doeChoice (a b : State) : (if !s.power.alwaysOn then s else if s.doeOpen then a else b) =
    if s.doeOpen then a else b :=
  if_neg (by simp [ha])

theorem exec_doe_open (ho : s.doeOpen = true) (b : List Byte) (n : IdeStream) :
    exec (.measure b) s = .next (s.doeReply (s.measureBody b ++ signed (s.measureBody b))) ∧
      exec (.keyExchange b) s = .next ((s.exchange b).2.doeReply (s.exchange b).1) ∧
      exec (.ideKeySet n b) s = .next ((s.setIdeKey n b).2.doeReply [codeByte (s.setIdeKey n b).1]) :=
  ⟨congrArg Outcome.next ((State.doeChoice ha ..).trans (if_pos ho)),
    congrArg Outcome.next ((State.doeChoice ha ..).trans (if_pos ho)),
    congrArg Outcome.next ((State.doeChoice ha ..).trans (if_pos ho))⟩

theorem exec_doe_shut (ho : s.doeOpen = false) (b : List Byte) (n : IdeStream) :
    ∀ i ∈ [Instr.measure b, .keyExchange b, .ideKeySet n b], exec i s = .next (s.doeReply [0x16]) := by
  have hn : ¬s.doeOpen = true := Bool.eq_false_iff.mp ho
  simp only [List.forall_mem_cons, List.not_mem_nil, false_imp_iff, implies_true, and_true]
  exact ⟨congrArg Outcome.next ((State.doeChoice ha ..).trans (if_neg hn)),
    congrArg Outcome.next ((State.doeChoice ha ..).trans (if_neg hn)),
    congrArg Outcome.next ((State.doeChoice ha ..).trans (if_neg hn))⟩

end

theorem State.setIdeKey_unwrapped {s : State} {x : W64} (hx : s.link.exchanged = some x) (n : IdeStream) {b : List Byte}
    {k : List Byte} (hk : Config.ideUnwrap x b = some k) :
    s.setIdeKey n b = (.done, { s with link := { s.link with
      ideKeys := Sparse.put s.link.ideKeys (2 * n.stream.val + n.rx.toNat) k } }) := by
  simp [State.setIdeKey, hx, hk]

theorem State.setIdeKey_refused {s : State} {x : W64} (hx : s.link.exchanged = some x) (n : IdeStream) {b : List Byte}
    (hk : Config.ideUnwrap x b = none) : s.setIdeKey n b = (.refusedState, s) := by
  simp [State.setIdeKey, hx, hk]

/-- The first byte of a message's data, as the type of a DOE object. -/
theorem ldNat_first (d : List Byte) : ldNat d 0 1 = (d.head?.getD 0).toNat := by
  cases d <;> simp [ldNat, leNat]

theorem State.doe_identity {s : State} (ha : s.power.alwaysOn = true) (b : List Byte) :
    s.doe 1 b = ((.done, Config.identityObject), s) := by
  simp [State.doe, ha]

theorem State.doe_bare {s : State} {k : Nat} (hk : k ≠ 1) (hb : s.boot.state = .bare) (b : List Byte) :
    s.doe k b = ((.refusedState, []), s) := by
  simp [State.doe, hk, State.doeOpen_bare hb]

/-! ### A message that is heard (R127) -/

theorem State.alwaysOn_of_heard {s : State} {m : MctpMsg} (h : s.mctpHeard m = true) : s.power.alwaysOn = true :=
  (Bool.and_eq_true_iff.mp h).1

theorem State.mctp_unheard {s : State} {m : MctpMsg} (h : s.mctpHeard m = false) (code : Byte) (ok : Bool) (f : State → State) :
    s.mctp m code ok f = s :=
  if_pos (by rw [h]; rfl)

section
variable {s : State} {m : MctpMsg} (h : s.mctpHeard m = true)
include h

theorem State.mctp_taken {code : Byte} {ok : Bool} (hc : m.head.command = code) (hm : mctpOk m = true) (hok : ok = true)
    (f : State → State) : s.mctp m code ok f = f s := by
  simp [State.mctp, h, hc, hm, hok]

theorem State.mctp_malformed {code : Byte} (hm : mctpOk m = false ∨ m.head.command ≠ code) (ok : Bool) (f : State → State) :
    s.mctp m code ok f = s.mctpReply m .refusedState [] := by
  unfold State.mctp
  rw [if_neg (by simp [h]), if_neg]
  rcases hm with hm | hm <;> simp [hm]

theorem exec_mctpRegRead (hc : m.head.command = 1) (hm : mctpOk m = true) (hd : m.data = []) :
    let w := (s.wakeAccess m.head.address.toNat).wakeAccess (m.head.address.toNat + 7)
    exec (.mctpRegRead m) s = .next (w.mctpReply m .done ((w.ahead 0x03).regBytes m.head.address.toNat)) :=
  congrArg Outcome.next (State.mctp_taken h hc hm (List.isEmpty_iff.mpr hd) _)

theorem exec_mctpDoe (hc : m.head.command = 5) (hm : mctpOk m = true) :
    exec (.mctpDoe m) s = .next
      ((s.doe (ldNat m.data 0 1) (m.data.drop 1)).2.mctpReply m (s.doe (ldNat m.data 0 1) (m.data.drop 1)).1.1
        (s.doe (ldNat m.data 0 1) (m.data.drop 1)).1.2) :=
  congrArg Outcome.next (State.mctp_taken h hc hm rfl _)

/-- A message that no command takes is answered with REFUSED_STATE. -/
theorem exec_mctp_malformed : ∀ e ∈ [(Instr.mctpRegRead m, (1 : Byte)), (.mctpRegWrite m, 2), (.mctpLoader m, 3),
      (.almanacRead m, 4), (.mctpDoe m, 5)],
    mctpOk m = false ∨ m.head.command ≠ e.2 → exec e.1 s = .next (s.mctpReply m .refusedState []) := by
  simp only [List.forall_mem_cons, List.not_mem_nil, false_imp_iff, implies_true, and_true]
  exact ⟨fun hm => congrArg Outcome.next (State.mctp_malformed h hm ..), fun hm => congrArg Outcome.next (State.mctp_malformed h hm ..),
    fun hm => congrArg Outcome.next (State.mctp_malformed h hm ..), fun hm => congrArg Outcome.next (State.mctp_malformed h hm ..),
    fun hm => congrArg Outcome.next (State.mctp_malformed h hm ..)⟩

end

theorem exec_mctp_unheard {s : State} {m : MctpMsg} (h : s.mctpHeard m = false) :
    ∀ i ∈ [Instr.mctpRegRead m, .mctpRegWrite m, .mctpLoader m, .almanacRead m, .mctpDoe m], exec i s = .next s := by
  simp only [List.forall_mem_cons, List.not_mem_nil, false_imp_iff, implies_true, and_true]
  exact ⟨congrArg Outcome.next (State.mctp_unheard h ..), congrArg Outcome.next (State.mctp_unheard h ..),
    congrArg Outcome.next (State.mctp_unheard h ..), congrArg Outcome.next (State.mctp_unheard h ..),
    congrArg Outcome.next (State.mctp_unheard h ..)⟩

/-! ### Fields of the address (R71, R432) -/

theorem bits_eq {n : Nat} (w : BitVec n) (lo len : Nat) : bits w lo len = w.toNat / 2 ^ lo % 2 ^ len := by
  simp [bits, BitVec.extractLsb'_toNat, Nat.shiftRight_eq_div_pow]

theorem exec_almanacRead {s : State} {m : MctpMsg} {i n : Nat} (h : s.mctpHeard m = true) (hc : m.head.command = 4)
    (hm : mctpOk m = true) (hd : m.data = []) (ha : m.head.address.toNat = n * 65536 + i) (hi : i ≤ 4095) (hn : 1 ≤ n)
    (hn' : n ≤ 64) :
    exec (.almanacRead m) s = .next (s.mctpReply m .done
      ((List.range (min n (4096 - i))).map fun k => s.almSlotBytes (i + k)).flatten) := by
  have hfirst : bits m.head.address 0 16 = i := by rw [bits_eq, ha]; omega
  have hcount : bits m.head.address 16 8 = n := by rw [bits_eq, ha]; omega
  have hrest : bits m.head.address 24 40 = 0 := by rw [bits_eq, ha]; omega
  refine congrArg Outcome.next ?_
  rw [hfirst, hcount, hrest]
  exact State.mctp_taken h hc hm (by simp [hd, hi, hn, hn']) _

/-! ### MCTP_REG_WRITE (R97, R100) -/

/-- The control write that a REG_WRITE message spells. -/
def regWriteOf (m : MctpMsg) : CtlWrite :=
  ⟨0x03, m.head.gen, m.head.address.toNat, BitVec.ofNat 64 (leNat m.data)⟩

theorem exec_mctpRegWrite {s : State} {m : MctpMsg} (h : s.mctpHeard m = true) (hc : m.head.command = 2) (hm : mctpOk m = true)
    (hd : m.data.length = 8) : exec (.mctpRegWrite m) s = .next (s.writeArrives (regWriteOf m) (some (.mctp m.head))) := by
  have hv : ldNat m.data 0 8 = leNat m.data := by rw [ldNat, List.drop_zero, List.take_of_length_le hd.le]
  refine congrArg Outcome.next ?_
  rw [hv]
  exact State.mctp_taken h hc hm (beq_iff_eq.mpr hd) _

theorem State.report_ctl (s : State) (m : Byte) (off : Nat) (o : OutcomeCode) (stale : Bool) (w : Option PartId) :
    (s.report m off o stale w).ctl = s.ctl.reported m off o stale := (s.report_refused m off o stale w).1

theorem State.answer_mctp_ctl (s : State) (h : MctpHead) (k : Byte) (o : OutcomeCode) (stale : Bool) :
    (s.answer (some (.mctp h)) k o stale).ctl = { s.ctl with
      replies := s.ctl.replies ++ [⟨if stale then { h with gen := s.genRecord k } else h, o, []⟩] } := rfl

/-- What a write ignored for its generation tells the sender of its message (R97, R100). -/
theorem State.stale_mctp (s : State) (w : CtlWrite) (h : MctpHead) :
    (s.stale w (some (.mctp h))).ctl = { s.ctl.reported w.master w.offset .refusedState true with
        replies := s.ctl.replies ++ [⟨{ h with gen := s.genRecord w.master }, .refusedState, []⟩] } ∧
      (s.stale w (some (.mctp h))).loader = s.loader := by
  obtain ⟨-, -, -, hrest⟩ := s.report_refused w.master w.offset .refusedState true (windowPart w.offset)
  refine ⟨?_, (congrArg State.loader hrest : _)⟩
  rw [State.stale, State.answer_mctp_ctl, State.report_ctl, State.report_genRecord]
  rfl

theorem State.accepted_notOwner {s : State} {w : CtlWrite} (hb : blockOf w.offset ≠ .none) (hs : s.served w.offset = true)
    (hm : s.mayWrite w = false) (r : Option ReplyTo) :
    s.accepted w r = (s.report w.master w.offset .refusedOwner false (windowPart w.offset)).answer r w.master .refusedOwner
      false := by
  unfold State.accepted
  rw [if_neg (by simp [hb, hs]), if_pos (by simp [hm])]

theorem State.accepted_waits {s : State} {w : CtlWrite} (hb : blockOf w.offset ≠ .none) (hs : s.served w.offset = true)
    (hm : s.mayWrite w = true) (ha : s.absentWindow w.offset = false) (ht : genTarget w.offset = none) (r : Option ReplyTo) :
    s.accepted w r = let u := s.wakeAccess w.offset
      { u with ctl := { u.ctl with writes := u.ctl.writes ++ [{ w := w, epoch := s.epoch, reply := r }] } } := by
  unfold State.accepted
  rw [if_neg (by simp [hb, hs]), if_neg (by simp [hm]), if_neg (by simp [ha]), ht]

section
variable {s : State} {m : MctpMsg} (h : s.mctpHeard m = true) (hc : m.head.command = 2) (hm : mctpOk m = true)
  (hd : m.data.length = 8) (ht : genTarget (regWriteOf m).offset = none)
include h hc hm hd ht

/-- The message's generation decides whether its write is ignored or handled (R100). -/
theorem exec_mctpRegWrite_gen : exec (.mctpRegWrite m) s = .next
    (if m.head.gen.toNat < (s.genRecord 0x03).toNat then s.stale (regWriteOf m) (some (.mctp m.head))
      else (s.raiseGen 0x03 m.head.gen).accepted (regWriteOf m) (some (.mctp m.head))) := by
  rw [exec_mctpRegWrite h hc hm hd]
  refine congrArg Outcome.next ((if_neg ?_).trans (if_neg ?_))
  · rw [State.alwaysOn_of_heard h]; exact Bool.false_ne_true
  · rw [ht]; exact Bool.false_ne_true

theorem exec_mctpRegWrite_stale (hg : m.head.gen.toNat < (s.genRecord 0x03).toNat) :
    exec (.mctpRegWrite m) s = .next (s.stale (regWriteOf m) (some (.mctp m.head))) := by
  rw [exec_mctpRegWrite_gen h hc hm hd ht, if_pos hg]

variable (hg : (s.genRecord 0x03).toNat ≤ m.head.gen.toNat) (hb : blockOf (regWriteOf m).offset ≠ .none)
  (hs : s.served (regWriteOf m).offset = true)
include hg hb hs

theorem exec_mctpRegWrite_notOwner (hw : s.mayWrite (regWriteOf m) = false) :
    exec (.mctpRegWrite m) s = .next (((s.raiseGen 0x03 m.head.gen).report 0x03 (regWriteOf m).offset .refusedOwner false
      (windowPart (regWriteOf m).offset)).answer (some (.mctp m.head)) 0x03 .refusedOwner false) := by
  rw [exec_mctpRegWrite_gen h hc hm hd ht, if_neg (Nat.not_lt.mpr hg), State.accepted_notOwner hb
    ((s.raiseGen_served ..).trans hs) ((s.raiseGen_mayWrite ..).trans hw)]
  rfl

theorem exec_mctpRegWrite_waits (hw : s.mayWrite (regWriteOf m) = true) (ha : s.absentWindow (regWriteOf m).offset = false) :
    exec (.mctpRegWrite m) s =
      let r := s.raiseGen 0x03 m.head.gen
      let u := r.wakeAccess (regWriteOf m).offset
      .next { u with ctl := { u.ctl with
        writes := u.ctl.writes ++ [{ w := regWriteOf m, epoch := r.epoch, reply := some (.mctp m.head) }] } } := by
  rw [exec_mctpRegWrite_gen h hc hm hd ht, if_neg (Nat.not_lt.mpr hg), State.accepted_waits hb
    ((s.raiseGen_served ..).trans hs) ((s.raiseGen_mayWrite ..).trans hw) ((s.raiseGen_absentWindow ..).trans ha) ht]

end

/-! ### MCTP_LOADER (R71, R100) -/

theorem State.raiseGen_loaderOwner (s : State) (k : Byte) (g : W32) (m : Byte) :
    (s.raiseGen k g).loaderOwner m = s.loaderOwner m := by
  obtain ⟨v, e⟩ := s.raiseGen_puts k g
  rw [e]
  rfl

/-- An ABORT message of the open session (R69). -/
theorem State.loaderMessage_abort {s : State} {m : MctpMsg} (hc : m.head.address.toNat / 2 % 8 = 4) (hrun : s.loader.run = none)
    (hon : s.power.alwaysOn = true) (ho : s.loaderOwner 0x03 = true) (hsess : s.loader.session = some .mctp) :
    s.loaderMessage m = s.closeSession.loaderRun .abort .done 0 := by
  have hcmd : bits m.head.address 1 3 = 4 := (bits_eq ..).trans hc
  unfold State.loaderMessage
  rw [hcmd]
  exact congrArg (Outcome.state · s) (exec_loaderAbort_done hrun hon ho hsess)

section
variable {s : State} {m : MctpMsg} (h : s.mctpHeard m = true) (hc : m.head.command = 3) (hm : mctpOk m = true)
include h hc hm

theorem exec_mctpLoader_stale (hg : m.head.gen.toNat < (s.genRecord 0x03).toNat) :
    exec (.mctpLoader m) s = .next (s.stale ⟨0x03, m.head.gen, 0x380, m.head.address⟩ (some (.mctp m.head))) :=
  congrArg Outcome.next ((State.mctp_taken h hc hm rfl _).trans (if_pos hg))

variable (hg : (s.genRecord 0x03).toNat ≤ m.head.gen.toNat)
include hg

theorem exec_mctpLoader_busy (hrun : s.loader.run ≠ none) :
    exec (.mctpLoader m) s = .next ((s.raiseGen 0x03 m.head.gen).mctpReply m .refusedState []) := by
  obtain ⟨g, e⟩ := s.raiseGen_puts 0x03 m.head.gen
  refine congrArg Outcome.next ((State.mctp_taken h hc hm rfl _).trans ((if_neg (Nat.not_lt.mpr hg)).trans (if_pos ?_)))
  rw [e]
  exact Option.isSome_iff_ne_none.mpr hrun

theorem exec_mctpLoader_abort (hrun : s.loader.run = none) (ho : s.loaderOwner 0x03 = true)
    (hsess : s.loader.session = some .mctp) (hcmd : m.head.address.toNat / 2 % 8 = 4) :
    exec (.mctpLoader m) s = .next
      (((s.raiseGen 0x03 m.head.gen).closeSession.loaderRun .abort .done 0).mctpReply m .done []) := by
  obtain ⟨g, e⟩ := s.raiseGen_puts 0x03 m.head.gen
  have habort := State.loaderMessage_abort (s := s.raiseGen 0x03 m.head.gen) hcmd (by rw [e]; exact hrun)
    (by rw [e]; exact State.alwaysOn_of_heard h) ((s.raiseGen_loaderOwner ..).trans ho) (by rw [e]; exact hsess)
  refine congrArg Outcome.next ((State.mctp_taken h hc hm rfl _).trans ((if_neg (Nat.not_lt.mpr hg)).trans ((if_neg ?_).trans ?_)))
  · rw [e]; simp [hrun]
  · rw [habort]; rfl

end

/-- Settles O25: a message that is heard is taken by the command it names (`State.mctp_taken`), or answered at once. -/
theorem attestationAndMessagesAreAnswered : Obligations.AttestationAndMessagesAreAnswered := by
  unfold Obligations.AttestationAndMessagesAreAnswered
  refine ⟨fun s ha => exec_identity ha, fun s b ha hp hb => ?_, fun s b ha hp hb => ?_, fun s n b x ha hp hb hx => ?_,
    fun s b n ha hb => exec_doe_shut ha (State.doeOpen_bare hb) b n, fun s m h hc hm hd => exec_mctpRegRead h hc hm hd,
    fun s m h hc hm hd => ?_, fun s m h hc hm => ⟨fun hg => ?_, fun hg hrun ho hsess hcmd => ?_, fun hg hrun => ?_⟩,
    fun s m i n h hc hm hd ha hi hn hn' => exec_almanacRead h hc hm hd ha hi hn hn',
    fun s m h hc hm => ⟨fun hd => ?_, fun hd hb => ?_⟩, fun s m h => exec_mctp_malformed h, fun s m h => exec_mctp_unheard h⟩
  · exact (exec_doe_open ha (State.doeOpen_of_booted hp hb) b ⟨0, false⟩).1
  · obtain ⟨-, e, -⟩ := exec_doe_open ha (State.doeOpen_of_booted hp hb) b ⟨0, false⟩
    exact ⟨_, e, rfl, rfl, nofun, (List.range 97).map fun i => Config.freeByte s.freeCount i, by simp, rfl⟩
  · obtain ⟨-, -, e⟩ := exec_doe_open ha (State.doeOpen_of_booted hp hb) b n
    rw [e]
    refine ⟨fun k hk => ?_, fun hk => ?_⟩
    · rw [State.setIdeKey_unwrapped hx n hk]; rfl
    · rw [State.setIdeKey_refused hx n hk]; rfl
  · intro w ht
    obtain ⟨g, hraise⟩ := s.raiseGen_puts 0x03 m.head.gen
    refine ⟨fun hg => ?_, fun hg hb hs hw => ?_, fun hg hb hs hw habs => ?_⟩
    · obtain ⟨hctl, -⟩ := s.stale_mctp (regWriteOf m) m.head
      exact ⟨_, exec_mctpRegWrite_stale h hc hm hd ht hg, (congrArg Control.writes hctl : _), congrArg Control.refusalStale hctl,
        congrArg Control.replies hctl⟩
    · refine ⟨_, exec_mctpRegWrite_notOwner h hc hm hd ht hg hb hs hw, ?_, ?_, ?_⟩
      all_goals rw [State.answer_mctp_ctl, State.report_ctl, hraise]; rfl
    · have hsleep := (s.raiseGen 0x03 m.head.gen).wakeAccess_unslept (regWriteOf m).offset
      simp only [State.unslept, Prod.mk.injEq] at hsleep
      obtain ⟨hctl, hpower, hcores, -, hhost, -⟩ := hsleep
      refine ⟨_, exec_mctpRegWrite_waits h hc hm hd ht hg hb hs hw habs, ?_, ?_, ?_, ?_, ?_, ?_⟩
      · dsimp only
        rw [hctl, hraise]; rfl
      · exact (congrArg (fun c : Control => Sparse.getD c.recordedGen 3 0) hctl).trans (State.genRecord_raiseGen hg)
      · exact (congrArg Control.replies hctl).trans (by rw [hraise])
      · exact hpower.trans (by rw [hraise])
      · exact hcores.trans (by rw [hraise])
      · exact hhost.trans (by rw [hraise])
  · obtain ⟨hctl, hloader⟩ := s.stale_mctp ⟨0x03, m.head.gen, 0x380, m.head.address⟩ m.head
    exact ⟨_, exec_mctpLoader_stale h hc hm hg, hloader, congrArg Control.refusalStale hctl, congrArg Control.replies hctl⟩
  · obtain ⟨g, hraise⟩ := s.raiseGen_puts 0x03 m.head.gen
    refine ⟨_, exec_mctpLoader_abort h hc hm hg hrun ho hsess hcmd, rfl, rfl, ?_, State.genRecord_raiseGen hg, ?_⟩ <;>
      rw [hraise] <;> rfl
  · obtain ⟨g, hraise⟩ := s.raiseGen_puts 0x03 m.head.gen
    refine ⟨_, exec_mctpLoader_busy h hc hm hg hrun, ?_, ?_, ?_⟩ <;> rw [hraise] <;> rfl
  · have hk : ldNat m.data 0 1 = 1 := by rw [ldNat_first, hd]; rfl
    rw [exec_mctpDoe h hc hm, hk, State.doe_identity (State.alwaysOn_of_heard h)]
    rfl
  · have hk : ldNat m.data 0 1 ≠ 1 := by
      rw [ldNat_first]
      intro e
      cases hh : m.data.head? with
      | none => rw [hh] at e; exact absurd e (by decide)
      | some x => rw [hh] at e; exact hd (hh.trans (congrArg some (BitVec.eq_of_toNat_eq e)))
    rw [exec_mctpDoe h hc hm, State.doe_bare hk hb]
    rfl

end Sys2Proof.Machine

/-! SUPPORT. One completion record (05 R122 to R124, R434; 13 R326; 17 R395): where `State.post` puts it, and what it counts. -/

namespace Sys2Proof.Machine

/-! ### What a record changes -/

/-- All that a record of partition `p` changes but the counts of its engine and its done counter. -/
def State.recordPut (s : State) (p : PartId) (q : PCq) (o : POrphan) (l : PLull) (m : PMeter) (h : Memory) (a : Sparse Nat)
    (i : List (PciFn × Nat)) : State :=
  { s with
    parts := updAt s.parts p fun x => { x with cq := q, orphan := o, lull := l, meter := m }
    host := h, acts := a, link := { s.link with msi := i } }

theorem State.recordPut_self (s : State) (p : PartId) (q : PCq) (o : POrphan) (l : PLull) (m : PMeter) (h : Memory)
    (a : Sparse Nat) (i : List (PciFn × Nat)) :
    (s.recordPut p q o l m h a i).parts[p] = { s.parts[p] with cq := q, orphan := o, lull := l, meter := m } :=
  updAt_self s.parts p _

theorem State.recordPut_twice (s : State) (p : PartId) (q r : PCq) (o u : POrphan) (l k : PLull) (m n : PMeter) (h g : Memory)
    (a b : Sparse Nat) (i j : List (PciFn × Nat)) :
    (s.recordPut p q o l m h a i).recordPut p r u k n g b j = s.recordPut p r u k n g b j := by
  unfold State.recordPut
  dsimp only
  rw [updAt_twice]

/-- Any update of these fields of one partition is such a change. -/
theorem State.updPart_recordPut (s : State) (p : PartId) {f : Partition → Partition} {q : PCq} {o : POrphan} {l : PLull}
    {m : PMeter} (h : f s.parts[p] = { s.parts[p] with cq := q, orphan := o, lull := l, meter := m }) :
    s.updPart p f = s.recordPut p q o l m s.host s.acts s.link.msi := by
  unfold State.updPart State.recordPut
  rw [updAt_congr (g := fun x => { x with cq := q, orphan := o, lull := l, meter := m }) h]

theorem State.recordPut_only (s : State) (p : PartId) (q : PCq) (o : POrphan) (l : PLull) (m : PMeter) (h : Memory)
    (a : Sparse Nat) (i : List (PciFn × Nat)) : RecordOnly p s (s.recordPut p q o l m h a i) := by
  refine ⟨fun r hr => State.updPart_other s hr _, ?_, rfl⟩
  rw [State.recordPut_self]

/-! ### What follows the writing of a record -/

/-- The engines once a record is counted at the one it names (AXE_PARTp). -/
def Record.counts (r : Record) (v : Vector AxisEngine 3) : Vector AxisEngine 3 :=
  match r.axis with
  | none => v
  | some a => updAt v a fun x => { x with
      records := updAt x.records r.partition fun n => (n + 1) % 4294967296
      failed := if r.outcome = .done then x.failed else updAt x.failed r.partition fun n => min 65535 (n + 1) }

/-- The cores once a written record has raised its done counter. -/
def Record.raises (r : Record) (v : Vector Machine.Core 192) : Vector Machine.Core 192 :=
  match r.done with
  | none => v
  | some (c, n) => raised c.val n.val r.outcome v

theorem satAdd_one (n : Nat) : satAdd 16 n 1 = min 65535 (n + 1) := Nat.min_comm ..

theorem State.countAxis_eq (s : State) (r : Record) : s.countAxis r = { s with axes := r.counts s.axes } := by
  unfold State.countAxis Record.counts
  cases r.axis with
  | none => rfl
  | some a => simp only [satAdd_one]

theorem coreOf_val (c : CoreId) : coreOf c.val = c := Fin.ext (Nat.mod_eq_of_lt c.isLt)

theorem ctrOf_val (n : CtrId) : ctrOf n.val = n := Fin.ext (Nat.mod_eq_of_lt n.isLt)

theorem State.raiseCtr_eq (s : State) (c : CoreId) (n : CtrId) (o : OutcomeCode) :
    s.raiseCtr c n (o == .done) = { s with cores := raised c.val n.val o s.cores } := by
  have hc : c.val ≠ 0xFF := fun h => absurd c.isLt (by rw [h]; decide)
  unfold State.raiseCtr State.updCore raised
  rw [if_neg hc, coreOf_val, ctrOf_val]
  simp only [satAdd_one, beq_iff_eq]

theorem State.written_eq (s : State) (r : Record) :
    s.written r = { s with axes := r.counts s.axes, cores := r.raises s.cores } := by
  unfold State.written Record.raises
  cases hd : r.done with
  | none => exact s.countAxis_eq r
  | some e =>
    dsimp only
    rw [State.raiseCtr_eq, State.countAxis_eq]

/-- The counts of a record, engine by engine. -/
theorem Record.counts_get (r : Record) (v : Vector AxisEngine 3) (a : AxisId) :
    (r.axis = some a → (r.counts v)[a] = { v[a] with
      records := updAt v[a].records r.partition (fun n => (n + 1) % 4294967296)
      failed := if r.outcome = .done then v[a].failed else updAt v[a].failed r.partition (fun n => min 65535 (n + 1)) }) ∧
    (r.axis ≠ some a → (r.counts v)[a] = v[a]) := by
  unfold Record.counts
  cases hb : r.axis with
  | none => exact ⟨nofun, fun _ => rfl⟩
  | some b =>
    refine ⟨fun h => ?_, fun h => updAt_elsewhere id v fun e => h (congrArg some e)⟩
    obtain rfl := Option.some.inj h
    exact updAt_self v b _

theorem Record.raises_none {r : Record} (h : r.done = none) (v : Vector Machine.Core 192) : r.raises v = v := by
  unfold Record.raises
  rw [h]

/-! ### A record written into the ring (R122, R434) -/

theorem State.meter_puts (s : State) (p : PartId) (k : Fin 14) (n : Nat) :
    ∃ m a, s.meter p k n = { s.updPart p (fun x => { x with meter := m }) with acts := a } := by
  let f (x : Partition) : Partition :=
    if x.meter.metered && (x.state != .stopped || k == mEnergy) then
      { x with meter := { x.meter with counters := updAt x.meter.counters k (· + n) } }
    else x
  have hf : f s.parts[p] = { s.parts[p] with meter := (f s.parts[p]).meter } := by
    dsimp only [f]
    split <;> rfl
  have e : s.updPart p f = s.updPart p fun x => { x with meter := (f s.parts[p]).meter } :=
    congrArg (fun v => ({ s with parts := v } : State)) (updAt_congr hf)
  refine ⟨(f s.parts[p]).meter, (s.meter p k n).acts, ?_⟩
  rw [← e]
  unfold State.meter State.iff
  dsimp only
  split <;> rfl

/-- VF vector 0 raised after a record. -/
theorem State.recordPut_raiseV0 (s : State) (p : PartId) (q : PCq) (o : POrphan) (l : PLull) (m : PMeter) (h : Memory)
    (a : Sparse Nat) (i : List (PciFn × Nat)) : (s.recordPut p q o l m h a i).raiseV0 p =
      s.recordPut p { q with sinceRaise := 0, firstAt := none } o l m h a (i ++ [(.vf p, 0)]) := by
  unfold State.raiseV0
  rw [State.updPart_recordPut _ p (by rw [State.recordPut_self]), State.recordPut_twice]
  rfl

/-- A record's bytes counted after it. -/
theorem State.recordPut_meter (s : State) (p : PartId) (q : PCq) (o : POrphan) (l : PLull) (m : PMeter) (h : Memory)
    (a : Sparse Nat) (i : List (PciFn × Nat)) (k : Fin 14) (n : Nat) :
    ∃ m' a', (s.recordPut p q o l m h a i).meter p k n = s.recordPut p q o l m' h a' i := by
  obtain ⟨m', a', e⟩ := (s.recordPut p q o l m h a i).meter_puts p k n
  rw [State.updPart_recordPut _ p (by rw [State.recordPut_self]), State.recordPut_twice] at e
  exact ⟨m', a', e⟩

/-- A ring once a record is written at its head. -/
def PCq.wrote (q : PCq) (now : Nat) : PCq :=
  { q with
    head := (q.head + 1) % q.size
    phase := if (q.head + 1) % q.size = 0 then !q.phase else q.phase
    sinceRaise := q.sinceRaise + 1
    firstAt := match q.firstAt with | none => some now | some t => some t }

/-- The ring `q` is `x` with one record more, or with VF vector 0 raised after it. -/
def PCq.Wrote (x : PCq) (now : Nat) (q : PCq) : Prop :=
  q = x.wrote now ∨ q = { x.wrote now with sinceRaise := 0, firstAt := none }

theorem PCq.Wrote.eqs {x q : PCq} {now : Nat} (h : x.Wrote now q) :
    q.head = (x.head + 1) % x.size ∧ q.held = x.held ∧ q.waiting = x.waiting := by
  obtain rfl | rfl := h <;> exact ⟨rfl, rfl, rfl⟩

/-- Host memory with a record written at the head of the ring of partition `p`. -/
def State.ringWritten (s : State) (p : PartId) (r : Record) : Memory :=
  wrL s.host (s.parts[p].cq.base.toNat * 4096 + 32 * s.parts[p].cq.head) (r.bytes s.parts[p].cq.phase)

theorem State.writeRing_puts (s : State) (p : PartId) (r : Record) (v0 : Bool) :
    ∃ q m a i, s.parts[p].cq.Wrote s.timeNs q ∧ s.writeRing p r v0 =
      (s.recordPut p q s.parts[p].orphan s.parts[p].lull m (s.ringWritten p r) a i).written r := by
  obtain ⟨m, a, e⟩ := s.recordPut_meter p (s.parts[p].cq.wrote s.timeNs) s.parts[p].orphan s.parts[p].lull s.parts[p].meter
    (s.ringWritten p r) s.acts s.link.msi mHost 32
  have hput : ({ s with host := s.ringWritten p r } : State).updPart p (fun x => { x with cq := s.parts[p].cq.wrote s.timeNs }) =
      s.recordPut p (s.parts[p].cq.wrote s.timeNs) s.parts[p].orphan s.parts[p].lull s.parts[p].meter (s.ringWritten p r) s.acts
        s.link.msi :=
    State.updPart_recordPut _ p rfl
  have hring : s.writeRing p r v0 = (if v0 || s.parts[p].cq.coalesceNs == 0 ||
      max 1 s.parts[p].cq.coalesceCount.toNat ≤ (s.parts[p].cq.wrote s.timeNs).sinceRaise then
        ((({ s with host := s.ringWritten p r } : State).updPart p fun x =>
          { x with cq := s.parts[p].cq.wrote s.timeNs }).meter p mHost 32).raiseV0 p
      else (({ s with host := s.ringWritten p r } : State).updPart p fun x =>
        { x with cq := s.parts[p].cq.wrote s.timeNs }).meter p mHost 32).written r := rfl
  rw [hring, hput, e]
  split
  · rw [State.recordPut_raiseV0]
    exact ⟨_, m, a, _, .inr rfl, rfl⟩
  · exact ⟨_, m, a, _, .inl rfl, rfl⟩

/-! ### The record formed (R122 to R124, R395) -/

/-- A partition that has no ring yet, or no longer. -/
abbrev Partition.Ringless (x : Partition) : Prop := x.state = .empty ∨ x.state = .staged

/-- A ring that takes the next record at once. -/
abbrev PCq.Direct (q : PCq) : Prop := q.room = true ∧ q.held = []

/-- A ring with one more record held, or waiting beyond 4,096 held ones (R124). -/
def PCq.holds (q : PCq) (r : Record) (v0 : Bool) : PCq :=
  if q.held.length < 4096 then { q with held := q.held ++ [(r, v0)] } else { q with waiting := q.waiting ++ [(r, v0)] }

/-- The lull of a partition at work until now. -/
def PLull.touched (l : PLull) (now : Nat) : PLull := { l with idleSince := now }

theorem State.touch_recordPut (s : State) (p : PartId) : s.touch p =
    s.recordPut p s.parts[p].cq s.parts[p].orphan (s.parts[p].lull.touched s.timeNs) s.parts[p].meter s.host s.acts s.link.msi :=
  s.updPart_recordPut p rfl

theorem State.touch_self (s : State) (p : PartId) :
    (s.touch p).parts[p] = { s.parts[p] with lull := s.parts[p].lull.touched s.timeNs } :=
  State.updPart_self ..

section
variable {s : State} {p : PartId} (r : Record) (v0 : Bool)

theorem State.post_orphan (h : s.parts[p].Ringless) : s.post p r v0 =
    (s.recordPut p s.parts[p].cq { records := s.parts[p].orphan.records ++ [({ r with orphan := true }, [])] }
      (s.parts[p].lull.touched s.timeNs) s.parts[p].meter s.host s.acts s.link.msi).countAxis r := by
  unfold State.post
  dsimp only
  rw [State.touch_self, if_pos (by rcases h with h | h <;> rw [h] <;> rfl)]
  unfold State.orphan
  rw [State.updPart_recordPut _ p (by rw [State.touch_self]), State.touch_recordPut, State.recordPut_twice]
  rfl

theorem State.post_direct (h : ¬s.parts[p].Ringless) (hd : s.parts[p].cq.Direct) :
    ∃ q m a i, s.parts[p].cq.Wrote s.timeNs q ∧ s.post p r v0 = (s.recordPut p q s.parts[p].orphan
      (s.parts[p].lull.touched s.timeNs) m (s.ringWritten p r) a i).written r := by
  obtain ⟨q, m, a, i, hq, e⟩ := (s.touch p).writeRing_puts p r v0
  unfold State.post
  dsimp only
  rw [State.touch_self] at hq e ⊢
  rw [if_neg (by simpa [not_or] using h), if_pos (by simpa using hd), e]
  refine ⟨q, m, a, i, hq, ?_⟩
  rw [State.touch_recordPut, State.recordPut_twice]
  unfold State.ringWritten
  rw [State.recordPut_self]
  rfl

theorem State.post_held (h : ¬s.parts[p].Ringless) (hd : ¬s.parts[p].cq.Direct) :
    s.post p r v0 = s.recordPut p (s.parts[p].cq.holds r v0) s.parts[p].orphan (s.parts[p].lull.touched s.timeNs) s.parts[p].meter
      s.host s.acts s.link.msi := by
  unfold State.post PCq.holds
  dsimp only
  rw [State.touch_self, if_neg (by simpa [not_or] using h), if_neg (by simpa using hd)]
  split
  all_goals
    rw [State.updPart_recordPut _ p (by rw [State.touch_self]), State.touch_recordPut, State.recordPut_twice]
    rfl

theorem State.post_formed : Formed p r v0 s (s.post p r v0) := by
  by_cases h : s.parts[p].Ringless
  · rw [State.post_orphan r v0 h, State.countAxis_eq]
    refine ⟨fun _ => ⟨rfl, ?_, ?_⟩, fun hn => absurd h hn, fun hn => absurd h hn, fun hn => absurd h hn⟩
    all_goals
      dsimp only
      rw [State.recordPut_self]
  · by_cases hd : s.parts[p].cq.Direct
    · obtain ⟨q, m, a, i, hq, e⟩ := State.post_direct r v0 h hd
      obtain ⟨hhead, hheld, hwait⟩ := hq.eqs
      rw [e, State.written_eq]
      refine ⟨fun hn => absurd hn h, fun _ => ?_, fun _ _ => ⟨rfl, ?_, ?_, ?_⟩, fun _ hn => absurd hd hn⟩
      all_goals
        dsimp only
        rw [State.recordPut_self]
      · exact hhead
      · exact hheld.trans hd.2
      · exact hwait
    · rw [State.post_held r v0 h hd]
      refine ⟨fun hn => absurd hn h, fun _ => ?_, fun _ hn => absurd hn hd, fun _ _ => ⟨rfl, ?_, fun hl => ?_, fun hl => ?_⟩⟩
      all_goals rw [State.recordPut_self]
      · dsimp only [PCq.holds]
        split <;> rfl
      · rw [PCq.holds, if_pos hl]; exact ⟨rfl, rfl⟩
      · rw [PCq.holds, if_neg (Nat.not_lt.mpr hl)]; exact ⟨rfl, rfl⟩

/-- A record that is counted, and one that is not. -/
theorem Record.counted_of_axes {t : State}
    (h : s.parts[r.partition].Ringless ∨ s.parts[r.partition].cq.Direct → t.axes = r.counts s.axes)
    (hn : ¬(s.parts[r.partition].Ringless ∨ s.parts[r.partition].cq.Direct) → t.axes = s.axes) : Counted r s t := by
  intro a
  refine ⟨fun ⟨ha, hw⟩ => ?_, fun hw => ?_⟩
  · rw [h (by rw [or_assoc]; exact hw)]
    exact (r.counts_get s.axes a).1 ha
  · by_cases hc : s.parts[r.partition].Ringless ∨ s.parts[r.partition].cq.Direct
    · rw [h hc]
      exact (r.counts_get s.axes a).2 fun ha => hw ⟨ha, by rw [or_assoc] at hc; exact hc⟩
    · rw [hn hc]

theorem State.post_counted (hp : r.partition = p) : Counted r s (s.post p r v0) := by
  subst hp
  refine r.counted_of_axes (fun h => ?_) fun h => ?_
  · by_cases ho : s.parts[r.partition].Ringless
    · rw [State.post_orphan r v0 ho, State.countAxis_eq]; rfl
    · obtain ⟨q, m, a, i, -, e⟩ := State.post_direct r v0 ho (h.resolve_left ho)
      rw [e, State.written_eq]; rfl
  · obtain ⟨ho, hd⟩ := not_or.mp h
    rw [State.post_held r v0 ho hd]; rfl

/-- A record that names no done counter changes what `RecordOnly` lists. -/
theorem State.post_only (hr : r.done = none) : RecordOnly p s (s.post p r v0) := by
  have hcounts {t : State} (h : RecordOnly p s t) (v : Vector AxisEngine 3) : RecordOnly p s { t with axes := v } := by
    obtain ⟨honly, hpart, hrest⟩ := h
    exact ⟨honly, hpart, hrest⟩
  by_cases ho : s.parts[p].Ringless
  · rw [State.post_orphan r v0 ho, State.countAxis_eq]
    exact hcounts (s.recordPut_only ..) _
  · by_cases hd : s.parts[p].cq.Direct
    · obtain ⟨q, m, a, i, -, e⟩ := State.post_direct r v0 ho hd
      rw [e, State.written_eq, Record.raises_none hr]
      exact hcounts (s.recordPut_only ..) _
    · rw [State.post_held r v0 ho hd]
      exact s.recordPut_only ..

theorem State.post_recorded (hp : r.partition = p) (hr : r.done = none) : Recorded p r v0 s (s.post p r v0) :=
  ⟨State.post_formed r v0, State.post_counted r v0 hp, State.post_only r v0 hr⟩

end

end Sys2Proof.Machine

/-! SUPPORT. Capsules and the completion ring (05 R117 to R124, R434). -/

namespace Sys2Proof.Machine

/-! ### Numbers that bytes spell -/

theorem leNat_lt (l : List Byte) : leNat l < 2 ^ (8 * l.length) := by
  induction l with
  | nil => simp [leNat]
  | cons b bs ih =>
    have hb := b.isLt
    rw [leNat, List.length_cons, Nat.mul_succ, Nat.pow_add, Nat.shiftLeft_eq]
    omega

theorem ldNat_lt (l : List Byte) (a n : Nat) : ldNat l a n < 2 ^ (8 * n) :=
  (leNat_lt _).trans_le (Nat.pow_le_pow_right (by decide) (Nat.mul_le_mul_left 8 (List.length_take_le ..)))

/-! ### The header in the expected slot (R117) -/

/-- The header in the slot of the capsule expected next. -/
abbrev PCaps.header (x : PCaps) : List Byte := rdL x.window ((slotOf x.expected).val * capSlot) 64

/-- That header is a submission. -/
def PCaps.Submits (x : PCaps) : Prop :=
  (crc32c (x.header.take 0x3C)).toNat = ldNat x.header 0x3C 4 ∧ ldNat x.header 0 4 = x.expected.toNat

theorem PCaps.not_submits {x : PCaps} (h : NoneWaits x) : ¬x.Submits := fun hs => h hs.2

theorem seq_eq_iff (h : List Byte) (n : W32) : (BitVec.ofNat 32 (ldNat h 0 4) = n) ↔ ldNat h 0 4 = n.toNat := by
  have hlt := ldNat_lt h 0 4
  rw [← BitVec.toNat_inj, BitVec.toNat_ofNat, Nat.mod_eq_of_lt hlt]

/-- The checks of an examination, as the model makes them. -/
theorem PCaps.submits_iff (x : PCaps) : ((crc32c (x.header.take 0x3C)).toNat == ldNat x.header 0x3C 4 &&
    (BitVec.ofNat 32 (ldNat x.header 0 4) : W32) == x.expected) = true ↔ x.Submits := by
  rw [Bool.and_eq_true, beq_iff_eq, beq_iff_eq, seq_eq_iff]
  rfl

theorem State.submitted_iff (s : State) (p : PartId) : s.submitted p = true ↔ s.parts[p].caps.Submits :=
  s.parts[p].caps.submits_iff

/-! ### An examination -/

/-- The intake of partition `p` with the count of ignored headers set. -/
def State.setIgnored (s : State) (p : PartId) (n : Nat) : State :=
  s.updPart p fun x => { x with caps := { x.caps with ignored := n } }

theorem State.setIgnored_same (s : State) (p : PartId) : s.setIgnored p s.parts[p].caps.ignored = s :=
  congrArg (fun v => ({ s with parts := v } : State)) (updAt_id s.parts p rfl)

/-- The capsule in the expected slot. -/
def State.nextCapsule (s : State) (p : PartId) : Capsule :=
  { parseCapsule s.parts[p].caps.window ((slotOf s.parts[p].caps.expected).val * capSlot) with takenAt := s.timeNs }

/-- The intake once the expected capsule is taken, before it is queued. -/
def PCaps.advanced (x : PCaps) : PCaps :=
  { x with
    expected := nextSeq x.expected, takenSeq := x.expected
    lastTaken := x.lastTaken.set (slotOf x.expected) x.expected }

/-- The expected capsule taken and its partition woken. -/
def State.takeNext (s : State) (p : PartId) : State :=
  let q := s.parts[p].caps
  (s.updPart p fun x => { x with caps := { x.caps with
    expected := nextSeq q.expected, takenSeq := q.expected
    lastTaken := x.caps.lastTaken.set (slotOf q.expected) q.expected } }).wake p

theorem State.examine_declines {s : State} {p : PartId} (h : ¬(s.parts[p].cq.held = [] ∧ s.parts[p].caps.Submits)) :
    ∃ n, s.examine p = (false, s.setIgnored p n) := by
  unfold State.examine
  dsimp only
  split
  · rename_i hs
    have hheld : s.parts[p].cq.held ≠ [] := fun e => h ⟨e, s.parts[p].caps.submits_iff.mp hs⟩
    rw [if_pos (by simpa using hheld)]
    exact ⟨_, congrArg (Prod.mk false) (s.setIgnored_same p).symm⟩
  · split
    · exact ⟨_, congrArg (Prod.mk false) (s.setIgnored_same p).symm⟩
    · exact ⟨satAdd 16 s.parts[p].caps.ignored 1, congrArg (Prod.mk false)
        (congrArg (fun v => ({ s with parts := v } : State)) (updAt_congr rfl))⟩

/-- The taken capsule queued, or ended with the check it fails. -/
def State.filed (s : State) (p : PartId) (c : Capsule) : State :=
  match c.bad with
  | some d => s.capDone p c 0x01 .refusedState d
  | none => s.updPart p fun x => { x with caps := { x.caps with queue := x.caps.queue ++ [c] } }

theorem State.filed_bad (s : State) (p : PartId) {c : Capsule} {d : Nat} (h : c.bad = some d) :
    s.filed p c = s.capDone p c 0x01 .refusedState d := by
  unfold State.filed
  rw [h]

theorem State.filed_good (s : State) (p : PartId) {c : Capsule} (h : c.bad = none) :
    s.filed p c = s.updPart p fun x => { x with caps := { x.caps with queue := x.caps.queue ++ [c] } } := by
  unfold State.filed
  rw [h]

theorem State.examine_takes {s : State} {p : PartId} (hheld : s.parts[p].cq.held = []) (hs : s.parts[p].caps.Submits) :
    s.examine p = (true, (s.takeNext p).filed p (s.nextCapsule p)) := by
  have hseq : BitVec.ofNat 32 (ldNat s.parts[p].caps.header 0 4) = s.parts[p].caps.expected := (seq_eq_iff ..).mpr hs.2
  unfold State.examine State.filed State.takeNext State.nextCapsule
  dsimp only
  generalize parseCapsule _ _ = c
  rw [if_pos (s.parts[p].caps.submits_iff.mpr hs), if_neg (by rw [hheld]; exact Bool.false_ne_true), hseq] <;> rfl

/-! ### What a taking changes -/

/-- What holds of a run of examinations of partition `p`, whatever they take. -/
structure State.Intake (p : PartId) (s t : State) : Prop where
  only : OnlyPart p s t
  window : t.parts[p].caps.window = s.parts[p].caps.window
  cores : t.cores = s.cores
  seqs : t.seqs = s.seqs
  xfers : t.xfers = s.xfers
  pending : t.pending = s.pending

theorem State.Intake.refl (p : PartId) (s : State) : State.Intake p s s := ⟨fun _ _ => rfl, rfl, rfl, rfl, rfl, rfl⟩

theorem State.Intake.trans {p : PartId} {s t u : State} (h : State.Intake p s t) (k : State.Intake p t u) : State.Intake p s u :=
  ⟨fun q hq => (k.only q hq).trans (h.only q hq), k.window.trans h.window, k.cores.trans h.cores, k.seqs.trans h.seqs,
    k.xfers.trans h.xfers, k.pending.trans h.pending⟩

theorem State.updPart_intake (s : State) (p : PartId) {f : Partition → Partition}
    (h : (f s.parts[p]).caps.window = s.parts[p].caps.window) : State.Intake p s (s.updPart p f) :=
  ⟨fun _ hq => s.updPart_other hq f, by rw [State.updPart_self, h], rfl, rfl, rfl, rfl⟩

theorem State.wake_part (s : State) (p : PartId) :
    (s.wake p).parts[p] = { s.parts[p] with lull := s.parts[p].lull.woken s.timeNs } := by
  rw [s.wake_parts]
  exact updAt_self s.parts p _

theorem State.wake_intake (s : State) (p : PartId) : State.Intake p s (s.wake p) := by
  obtain ⟨-, hcores, hxfers, -, hpending, -⟩ := State.eqs_of_steady (s.wake_steady p)
  have hsleep := s.wake_unslept p
  simp only [State.unslept, Prod.mk.injEq] at hsleep
  obtain ⟨-, -, -, hseqs, -⟩ := hsleep
  refine ⟨fun q hq => ?_, ?_, hcores, hseqs, hxfers, hpending⟩
  · rw [s.wake_parts]
    exact updAt_elsewhere id s.parts hq.symm
  · rw [s.wake_part]

theorem RecordOnly.intake {p : PartId} {s t : State} (h : RecordOnly p s t) : State.Intake p s t := by
  obtain ⟨honly, hpart, hrest⟩ := h
  exact ⟨honly, (congrArg (fun x : Partition => x.caps.window) hpart : _), (congrArg State.cores hrest : _),
    (congrArg State.seqs hrest : _), (congrArg State.xfers hrest : _), (congrArg State.pending hrest : _)⟩

theorem State.capDone_only (s : State) (p : PartId) (c : Capsule) (e : Byte) (o : OutcomeCode) (d : Nat) :
    RecordOnly p s (s.capDone p c e o d) :=
  State.post_only _ _ rfl

theorem State.takeNext_intake (s : State) (p : PartId) : State.Intake p s (s.takeNext p) :=
  (s.updPart_intake p rfl).trans (State.wake_intake _ p)

theorem State.filed_intake (s : State) (p : PartId) (c : Capsule) : State.Intake p s (s.filed p c) := by
  unfold State.filed
  split
  · exact RecordOnly.intake (State.capDone_only ..)
  · exact s.updPart_intake p rfl

theorem State.examine_intake (s : State) (p : PartId) : State.Intake p s (s.examine p).2 := by
  by_cases h : s.parts[p].cq.held = [] ∧ s.parts[p].caps.Submits
  · rw [State.examine_takes h.1 h.2]
    dsimp only
    exact (s.takeNext_intake p).trans (State.filed_intake ..)
  · obtain ⟨n, e⟩ := State.examine_declines h
    rw [e]
    exact s.updPart_intake p rfl

theorem State.takeCapsules_intake (n : Nat) (s : State) (p : PartId) : State.Intake p s (s.takeCapsules p n) := by
  induction n generalizing s with
  | zero => exact .refl p s
  | succ n ih =>
    unfold State.takeCapsules
    dsimp only
    split
    · split
      · exact (s.examine_intake p).trans (ih _)
      · exact s.examine_intake p
    · exact .refl p s

/-! ### A run of examinations (R117) -/

theorem State.takeCapsules_declines {s : State} {p : PartId}
    (h : ¬(s.watched p = true ∧ s.parts[p].cq.held = [] ∧ s.parts[p].caps.Submits)) (n : Nat) :
    ∃ k, s.takeCapsules p n = s.setIgnored p k := by
  cases n with
  | zero => exact ⟨_, (s.setIgnored_same p).symm⟩
  | succ n =>
    unfold State.takeCapsules
    by_cases hw : s.watched p = true
    · obtain ⟨k, e⟩ := State.examine_declines fun hs => h ⟨hw, hs⟩
      rw [if_pos hw, e]
      exact ⟨k, rfl⟩
    · rw [if_neg hw]
      exact ⟨_, (s.setIgnored_same p).symm⟩

theorem State.takeCapsules_takes {s : State} {p : PartId} (hw : s.watched p = true) (hheld : s.parts[p].cq.held = [])
    (hs : s.parts[p].caps.Submits) (hn : NoneWaits (s.examine p).2.parts[p].caps) (n : Nat) :
    ∃ k, s.takeCapsules p (n + 1) = (s.examine p).2.setIgnored p k := by
  unfold State.takeCapsules
  rw [if_pos hw]
  have ht : (s.examine p).1 = true := by rw [State.examine_takes hheld hs]
  dsimp only
  rw [if_pos ht]
  exact State.takeCapsules_declines (fun h => PCaps.not_submits hn h.2.2) n

/-! ### A write of the capsule window (R117) -/

/-- The window of partition `p` written, and the bytes counted. -/
def State.windowed (s : State) (p : PartId) (w : Memory) (m : PMeter) (a : Sparse Nat) : State :=
  { s.updPart p (fun x => { x with caps := { x.caps with window := w }, meter := m }) with acts := a }

theorem State.windowed_part (s : State) (p : PartId) (w : Memory) (m : PMeter) (a : Sparse Nat) :
    (s.windowed p w m a).parts[p] = { s.parts[p] with caps := { s.parts[p].caps with window := w }, meter := m } :=
  updAt_self s.parts p _

theorem State.windowed_other (s : State) {p q : PartId} (hq : q ≠ p) (w : Memory) (m : PMeter) (a : Sparse Nat) :
    (s.windowed p w m a).parts[q] = s.parts[q] := s.updPart_other hq _

theorem State.capWrite_eq (s : State) (p : PartId) (off : Nat) (data : List Byte) : ∃ m a, s.capWrite p off data =
    let u := s.windowed p (wrL s.parts[p].caps.window off (data.take (capWindow - off))) m a
    if touchesHeader s.parts[p].caps.expected off (data.take (capWindow - off)).length then u.takeCapsules p 33 else u := by
  obtain ⟨m, a, e⟩ := (s.updPart p fun x => { x with caps := { x.caps with
    window := wrL x.caps.window off (data.take (capWindow - off)) } }).meter_puts p mHost (data.take (capWindow - off)).length
  refine ⟨m, a, ?_⟩
  unfold State.capWrite
  dsimp only
  rw [e]
  unfold State.windowed State.updPart
  dsimp only
  rw [updAt_twice]
  rfl

theorem State.takeNext_part (s : State) (p : PartId) : (s.takeNext p).parts[p] =
    { s.parts[p] with caps := s.parts[p].caps.advanced, lull := s.parts[p].lull.woken s.timeNs } := by
  unfold State.takeNext
  dsimp only
  rw [State.wake_part, State.updPart_self]
  rfl

theorem State.takeNext_host (s : State) (p : PartId) : (s.takeNext p).host = s.host := by
  have h := State.wake_unslept (s.updPart p fun x => { x with caps := { x.caps with
    expected := nextSeq s.parts[p].caps.expected, takenSeq := s.parts[p].caps.expected
    lastTaken := x.caps.lastTaken.set (slotOf s.parts[p].caps.expected) s.parts[p].caps.expected } }) p
  simp only [State.unslept, Prod.mk.injEq] at h
  exact h.2.2.2.2.1

theorem State.takeNext_image (s : State) (p : PartId) : (s.takeNext p).image = s.image := by
  have h := State.wake_kept (s.updPart p fun x => { x with caps := { x.caps with
    expected := nextSeq s.parts[p].caps.expected, takenSeq := s.parts[p].caps.expected
    lastTaken := x.caps.lastTaken.set (slotOf s.parts[p].caps.expected) s.parts[p].caps.expected } }) p
  simp only [State.kept, Prod.mk.injEq] at h
  exact h.2.2.2.2.1

/-- What forming a record reads and writes of its partition and of host memory. -/
theorem Formed.congr {p : PartId} {r : Record} {v0 : Bool} {s t s' t' : State} (h : Formed p r v0 s t)
    (hst : s'.parts[p].state = s.parts[p].state) (hcq : s'.parts[p].cq = s.parts[p].cq)
    (horph : s'.parts[p].orphan = s.parts[p].orphan) (hhost : s'.host = s.host) (htcq : t'.parts[p].cq = t.parts[p].cq)
    (htorph : t'.parts[p].orphan = t.parts[p].orphan) (hthost : t'.host = t.host) : Formed p r v0 s' t' := by
  unfold Formed at h ⊢
  dsimp only at h ⊢
  rw [hst, hcq, horph, hhost, htcq, htorph, hthost]
  exact h

theorem capsuleRecord_congr {s t : State} (h : t.image = s.image) (p : PartId) (c : Capsule) (e : Byte) (o : OutcomeCode) (d : Nat) :
    capsuleRecord t p c e o d = capsuleRecord s p c e o d := by
  unfold capsuleRecord State.collEngine
  rw [h]

theorem State.post_lull (s : State) (p : PartId) (r : Record) (v0 : Bool) :
    (s.post p r v0).parts[p].lull = s.parts[p].lull.touched s.timeNs := by
  by_cases ho : s.parts[p].Ringless
  · rw [State.post_orphan r v0 ho, State.countAxis_eq]
    dsimp only
    rw [State.recordPut_self]
  · by_cases hd : s.parts[p].cq.Direct
    · obtain ⟨q, m, a, i, -, e⟩ := State.post_direct r v0 ho hd
      rw [e, State.written_eq]
      dsimp only
      rw [State.recordPut_self]
    · rw [State.post_held r v0 ho hd, State.recordPut_self]

theorem State.capDone_lull (s : State) (p : PartId) (c : Capsule) (e : Byte) (o : OutcomeCode) (d : Nat) :
    (s.capDone p c e o d).parts[p].lull = s.parts[p].lull.touched s.timeNs := s.post_lull ..

theorem RecordOnly.caps {p : PartId} {s t : State} (h : RecordOnly p s t) : t.parts[p].caps = s.parts[p].caps :=
  (congrArg Partition.caps h.2.1 : _)

/-- A taken capsule filed: queued, or ended with a record. -/
theorem State.filed_part (s : State) (p : PartId) (c : Capsule) :
    (s.filed p c).parts[p].lull.reached = s.parts[p].lull.reached ∧
      { (s.filed p c).parts[p].caps with queue := s.parts[p].caps.queue } = s.parts[p].caps := by
  cases hb : c.bad with
  | none =>
    rw [s.filed_good p hb, State.updPart_self]
    exact ⟨rfl, rfl⟩
  | some d =>
    rw [s.filed_bad p hb, RecordOnly.caps (s.capDone_only ..)]
    exact ⟨(congrArg PLull.reached (s.capDone_lull ..) : _), rfl⟩

theorem State.capDone_formed (s : State) (p : PartId) (c : Capsule) (e : Byte) (o : OutcomeCode) (d : Nat) :
    Formed p (capsuleRecord s p c e o d) c.v0 s (s.capDone p c e o d) := State.post_formed _ _

section
variable {s : State} {p : PartId}

/-- A capsule taken: what the examination leaves. -/
theorem State.examine_taken (hheld : s.parts[p].cq.held = []) (hs : s.parts[p].caps.Submits) :
    (s.examine p).2 = (s.takeNext p).filed p (s.nextCapsule p) := by
  rw [State.examine_takes hheld hs]

theorem State.taken_part (hheld : s.parts[p].cq.held = []) (hs : s.parts[p].caps.Submits) :
    (s.examine p).2.parts[p].lull.reached = 0 ∧
      { (s.examine p).2.parts[p].caps with queue := s.parts[p].caps.queue } = s.parts[p].caps.advanced := by
  obtain ⟨hl, hc⟩ := (s.takeNext p).filed_part p (s.nextCapsule p)
  rw [State.examine_taken hheld hs, hl]
  rw [s.takeNext_part p] at hc ⊢
  exact ⟨rfl, hc⟩

theorem State.taken_good (hheld : s.parts[p].cq.held = []) (hs : s.parts[p].caps.Submits) (hb : (s.nextCapsule p).bad = none) :
    (s.examine p).2.parts[p].caps.queue = s.parts[p].caps.queue ++ [s.nextCapsule p] ∧ (s.examine p).2.host = s.host := by
  rw [State.examine_taken hheld hs, State.filed_good _ p hb, State.updPart_self, State.takeNext_part, State.updPart_host,
    State.takeNext_host]
  dsimp only [PCaps.advanced]
  exact ⟨rfl, rfl⟩

theorem State.taken_bad (hheld : s.parts[p].cq.held = []) (hs : s.parts[p].caps.Submits) {b : Nat}
    (hb : (s.nextCapsule p).bad = some b) : (s.examine p).2.parts[p].caps.queue = s.parts[p].caps.queue ∧
      Formed p (capsuleRecord s p (s.nextCapsule p) 0x01 .refusedState b) (s.nextCapsule p).v0 s (s.examine p).2 := by
  rw [State.examine_taken hheld hs, State.filed_bad _ p hb]
  constructor
  · rw [RecordOnly.caps (State.capDone_only ..), State.takeNext_part]
    rfl
  · have h := State.capDone_formed (s.takeNext p) p (s.nextCapsule p) 0x01 .refusedState b
    rw [capsuleRecord_congr (s.takeNext_image p)] at h
    exact Formed.congr h (by rw [State.takeNext_part]) (by rw [State.takeNext_part]) (by rw [State.takeNext_part])
      (s.takeNext_host p).symm rfl rfl rfl

end

/-- What a write of the capsule window that makes it `w` leaves, where `takes` says whether the capsule `c` is taken (R117). -/
structure CapWriteLeaves (s : State) (p : PartId) (w : Memory) (takes : Prop) (c : Capsule) (t : State) : Prop where
  window : t.parts[p].caps.window = w
  only : OnlyPart p s t
  declines : ¬takes → t.parts[p].caps.expected = s.parts[p].caps.expected ∧ t.parts[p].caps.queue = s.parts[p].caps.queue ∧
    t.parts[p].caps.takenSeq = s.parts[p].caps.takenSeq ∧ t.parts[p].cq = s.parts[p].cq ∧ t.host = s.host
  takes : takes → NoneWaits { s.parts[p].caps with window := w, expected := nextSeq s.parts[p].caps.expected } →
    t.parts[p].caps.expected = nextSeq s.parts[p].caps.expected ∧ t.parts[p].caps.takenSeq = s.parts[p].caps.expected ∧
      t.parts[p].lull.reached = 0 ∧
      (c.bad = none → t.parts[p].caps.queue = s.parts[p].caps.queue ++ [c] ∧ t.host = s.host) ∧
      (∀ b, c.bad = some b → t.parts[p].caps.queue = s.parts[p].caps.queue ∧
        Formed p (capsuleRecord s p c 0x01 .refusedState b) c.v0 s t)
  rest : t.cores = s.cores ∧ t.seqs = s.seqs ∧ t.xfers = s.xfers ∧ t.pending = s.pending

theorem State.setIgnored_part (s : State) (p : PartId) (k : Nat) : (s.setIgnored p k).parts[p] =
    { s.parts[p] with caps := { s.parts[p].caps with ignored := k } } := s.updPart_self p _

/-- The run of examinations after a write: what it leaves, from the state with the window written. -/
theorem State.takeCapsules_leaves {u : State} {p : PartId} {n : Nat} :
    CapWriteLeaves u p u.parts[p].caps.window (u.watched p = true ∧ u.parts[p].cq.held = [] ∧ u.parts[p].caps.Submits)
      (u.nextCapsule p) (u.takeCapsules p (n + 1)) := by
  obtain ⟨honly, hwin, hcores, hseqs, hxfers, hpending⟩ := u.takeCapsules_intake (n + 1) p
  refine ⟨hwin, honly, fun h => ?_, fun ⟨hw, hheld, hs⟩ hn => ?_, hcores, hseqs, hxfers, hpending⟩
  · obtain ⟨k, e⟩ := State.takeCapsules_declines h (n + 1)
    rw [e, State.setIgnored_part]
    exact ⟨rfl, rfl, rfl, rfl, rfl⟩
  · obtain ⟨hreached, hcaps⟩ := State.taken_part hheld hs
    have hexp := congrArg PCaps.expected hcaps
    have htaken := congrArg PCaps.takenSeq hcaps
    have hwindow := congrArg PCaps.window hcaps
    have hnone : NoneWaits (u.examine p).2.parts[p].caps := by
      unfold NoneWaits at hn ⊢
      rw [show (u.examine p).2.parts[p].caps.expected = _ from hexp, show (u.examine p).2.parts[p].caps.window = _ from hwindow]
      exact hn
    obtain ⟨k, e⟩ := State.takeCapsules_takes hw hheld hs hnone n
    rw [e, State.setIgnored_part]
    refine ⟨hexp, htaken, hreached, fun hb => State.taken_good hheld hs hb, fun b hb => ?_⟩
    obtain ⟨hqueue, hformed⟩ := State.taken_bad hheld hs hb
    refine ⟨hqueue, Formed.congr hformed rfl rfl rfl rfl ?_ ?_ rfl⟩ <;> rw [State.setIgnored_part]

/-- What a run leaves, seen from the state before the window was written. -/
theorem CapWriteLeaves.of_windowed {s t : State} {p : PartId} {w : Memory} {m : PMeter} {a : Sparse Nat} {takes : Prop} {c : Capsule}
    (h : CapWriteLeaves (s.windowed p w m a) p w takes c t) : CapWriteLeaves s p w takes c t := by
  obtain ⟨hwin, honly, hdec, htake, hrest⟩ := h
  rw [s.windowed_part] at hdec htake
  refine ⟨hwin, fun q hq => (honly q hq).trans (s.windowed_other hq ..), hdec, fun ht hn => ?_, hrest⟩
  obtain ⟨hexp, htaken, hreached, hgood, hbad⟩ := htake ht hn
  refine ⟨hexp, htaken, hreached, hgood, fun b hb => ?_⟩
  obtain ⟨hqueue, hformed⟩ := hbad b hb
  refine ⟨hqueue, Formed.congr hformed ?_ ?_ ?_ rfl rfl rfl rfl⟩ <;> rw [s.windowed_part]

/-- What a window write leaves before any examination. -/
theorem State.windowed_leaves (s : State) (p : PartId) (w : Memory) (m : PMeter) (a : Sparse Nat) (c : Capsule) :
    CapWriteLeaves s p w False c (s.windowed p w m a) := by
  refine ⟨?_, fun q hq => s.windowed_other hq .., fun _ => ?_, False.elim, rfl, rfl, rfl, rfl⟩
  all_goals rw [s.windowed_part]
  exact ⟨rfl, rfl, rfl, rfl, rfl⟩

theorem CapWriteLeaves.congr {s t : State} {p : PartId} {w : Memory} {takes takes' : Prop} {c : Capsule}
    (h : CapWriteLeaves s p w takes c t) (e : takes' ↔ takes) : CapWriteLeaves s p w takes' c t := propext e ▸ h

theorem State.capWrite_leaves (s : State) (p : PartId) (off : Nat) (data : List Byte) :
    let d := data.take (capWindow - off)
    let w := wrL s.parts[p].caps.window off d
    CapWriteLeaves s p w (touchesHeader s.parts[p].caps.expected off d.length = true ∧ s.watched p = true ∧
        s.parts[p].cq.held = [] ∧ { s.parts[p].caps with window := w }.Submits)
      { parseCapsule w ((slotOf s.parts[p].caps.expected).val * capSlot) with takenAt := s.timeNs } (s.capWrite p off data) := by
  intro d w
  obtain ⟨m, a, e⟩ := s.capWrite_eq p off data
  have hpart := s.windowed_part p w m a
  rw [e]
  dsimp only
  split
  · rename_i hit
    have h := (s.windowed p w m a).takeCapsules_leaves (p := p) (n := 32)
    unfold State.watched State.nextCapsule at h
    rw [hpart] at h
    exact h.of_windowed.congr ⟨And.right, And.intro hit⟩
  · rename_i hit
    exact (s.windowed_leaves p w m a _).congr ⟨fun h => hit h.1, False.elim⟩

/-! ### A held record written (R124) -/

/-- The one record held by partition `p` taken out of its ring's store. -/
def State.released (s : State) (p : PartId) : State := s.updPart p fun x => { x with cq := { x.cq with held := [] } }

theorem State.released_part (s : State) (p : PartId) :
    (s.released p).parts[p] = { s.parts[p] with cq := { s.parts[p].cq with held := [] } } := s.updPart_self p _

theorem PCq.none_waits {q : PCq} (h : q.waiting = []) :
    ({ q with held := [] ++ q.waiting.take 1, waiting := q.waiting.drop 1 } : PCq) = { q with held := [] } := by
  cases q
  subst h
  rfl

section
variable {s : State} {p : PartId}

theorem State.flushAndTake_none (hheld : s.parts[p].cq.held = []) (hwait : s.parts[p].cq.waiting = []) :
    s.flushAndTake p = s := by
  unfold State.flushAndTake
  rw [hheld, hwait]
  rfl

variable {r : Record} {v0 : Bool} (hheld : s.parts[p].cq.held = [(r, v0)]) (hwait : s.parts[p].cq.waiting = [])
include hheld hwait

omit hwait in
theorem State.flushHeld_full (hr : s.parts[p].cq.room = false) : s.flushHeld p 1 = s := by
  unfold State.flushHeld
  dsimp only
  rw [hheld]
  dsimp only
  rw [if_neg (Bool.eq_false_iff.mp hr)]

theorem State.flushHeld_one (hr : s.parts[p].cq.room = true) : s.flushHeld p 1 = (s.released p).writeRing p r v0 := by
  have e : s.updPart p (fun x => { x with cq := { x.cq with
      held := [] ++ x.cq.waiting.take 1, waiting := x.cq.waiting.drop 1 } }) = s.released p :=
    congrArg (fun v => ({ s with parts := v } : State))
      (updAt_congr (congrArg (fun q => ({ s.parts[p] with cq := q } : Partition)) (PCq.none_waits hwait)))
  unfold State.flushHeld
  dsimp only
  rw [hheld]
  dsimp only
  rw [if_pos hr, e]
  rfl

theorem State.flushAndTake_full (hr : s.parts[p].cq.room = false) : s.flushAndTake p = s := by
  unfold State.flushAndTake
  rw [hheld, hwait, show [(r, v0)].length + ([] : List (Record × Bool)).length = 1 from rfl, State.flushHeld_full hheld hr]
  dsimp only
  rw [hheld]
  rfl

/-- A held record written where the ring has room, and no submission waiting for it. -/
theorem State.flushAndTake_one (hr : s.parts[p].cq.room = true) (hn : NoneWaits s.parts[p].caps) :
    s.flushAndTake p = (s.released p).writeRing p r v0 := by
  obtain ⟨q, m, a, i, -, e⟩ := (s.released p).writeRing_puts p r v0
  have hcaps : ((s.released p).writeRing p r v0).parts[p].caps = s.parts[p].caps := by
    rw [e, State.written_eq]
    dsimp only
    rw [State.recordPut_self, State.released_part]
  have hsub : ¬((s.released p).writeRing p r v0).submitted p = true := by
    rw [State.submitted_iff, hcaps]
    exact PCaps.not_submits hn
  unfold State.flushAndTake
  rw [hheld, hwait, show [(r, v0)].length + ([] : List (Record × Bool)).length = 1 from rfl, State.flushHeld_one hheld hwait hr]
  dsimp only
  rw [if_pos (by simp [hsub])]

end

/-- The record written once it is out of the store: counted as that ring writes it. -/
theorem State.written_counted {s : State} {p : PartId} {r : Record} (v0 : Bool) (hr : s.parts[p].cq.room = true)
    (hp : r.partition = p) : Counted r (s.released p) ((s.released p).writeRing p r v0) := by
  obtain ⟨q, m, a, i, -, e⟩ := (s.released p).writeRing_puts p r v0
  have hdirect : (s.released p).parts[p].cq.Direct := by
    rw [State.released_part]
    exact ⟨hr, rfl⟩
  subst hp
  rw [e, State.written_eq]
  exact r.counted_of_axes (fun _ => rfl) fun h => absurd (.inr hdirect) h

/-- What a held record leaves once it is written. -/
theorem State.written_leaves (s : State) (p : PartId) (r : Record) (v0 : Bool) :
    let t := (s.released p).writeRing p r v0
    t.host = s.ringWritten p r ∧ t.parts[p].cq.held = [] ∧ t.parts[p].cq.head = (s.parts[p].cq.head + 1) % s.parts[p].cq.size ∧
      t.parts[p].caps = s.parts[p].caps ∧ OnlyPart p s t ∧ t.cores = r.raises s.cores ∧
      { t with
        parts := s.parts, host := s.host, cores := s.cores, axes := s.axes, link := { t.link with msi := s.link.msi }
        acts := s.acts } = s := by
  obtain ⟨q, m, a, i, hq, e⟩ := (s.released p).writeRing_puts p r v0
  obtain ⟨hhead, hheld, -⟩ := hq.eqs
  rw [e, State.written_eq]
  dsimp only
  rw [State.recordPut_self]
  rw [State.released_part] at hhead hheld ⊢
  refine ⟨?_, hheld, hhead, rfl, fun u hu => ?_, rfl, rfl⟩
  · show (s.released p).ringWritten p r = _
    unfold State.ringWritten
    rw [State.released_part]
    rfl
  · exact ((s.released p).updPart_other hu _).trans (s.updPart_other hu _)

/-! ### The ring's control register and its timer (R123, R434) -/

theorem State.served_cqCtrl {s : State} (h : Ready s) (p : PartId) : s.served (prtOffset p 0x048) = true := by
  obtain ⟨hon, hready, hrun⟩ := h
  have hb : ∀ q : PartId, blockOf (prtOffset q 0x048) = .prt q 0x048 := by decide
  simp [State.served, hb, hon, hready, hrun]

theorem exec_prtCqCtrlWrite {s : State} (h : Ready s) (p : PartId) (v : W64) :
    exec (.prtCqCtrlWrite p v) s = .next (s.cqCtrl p v (s.owner (prtOffset p 0x048))) :=
  congrArg Host.Outcome.next (if_pos (s.served_cqCtrl h p))

/-- A ring given the value of its control register. -/
def PCq.controlled (q : PCq) (v : W64) : PCq :=
  { q with
    coalesceNs := BitVec.ofNat 16 (v.toNat / 4294967296 % 65536), coalesceCount := BitVec.ofNat 8 (v.toNat / 16777216 % 256)
    ringLog2 := BitVec.ofNat 4 (v.toNat / 2 % 16), enable := v.getLsbD 0
    head := if q.enable = false ∧ v.getLsbD 0 = true then 0 else q.head
    tail := if q.enable = false ∧ v.getLsbD 0 = true then 0 else q.tail
    phase := if q.enable = false ∧ v.getLsbD 0 = true then true else q.phase }

theorem State.cqCtrl_refused {s : State} {p : PartId} {v : W64} (he : s.parts[p].cq.enable = true)
    (hr : BitVec.ofNat 4 (v.toNat / 2 % 16) ≠ s.parts[p].cq.ringLog2) (m : Byte) :
    s.cqCtrl p v m = s.report m (prtOffset p 0x048) .refusedState false (some p) := by
  unfold State.cqCtrl
  rw [bits_eq]
  exact if_pos (by simpa using And.intro he hr)

theorem PCq.controlled_eq (q : PCq) (v : W64) :
    ({ q with
      coalesceNs := BitVec.ofNat 16 (bits v 32 16), coalesceCount := BitVec.ofNat 8 (bits v 24 8)
      ringLog2 := BitVec.ofNat 4 (bits v 1 4), enable := bit v 0
      head := if !q.enable && bit v 0 then 0 else q.head
      tail := if !q.enable && bit v 0 then 0 else q.tail
      phase := !q.enable && bit v 0 || q.phase } : PCq) = q.controlled v := by
  unfold PCq.controlled
  rw [bits_eq, bits_eq, bits_eq]
  unfold bit
  generalize v.getLsbD 0 = on
  cases q.enable <;> cases on <;> rfl

theorem State.cqCtrl_sets {s : State} {p : PartId} {v : W64}
    (h : s.parts[p].cq.enable = false ∨ BitVec.ofNat 4 (v.toNat / 2 % 16) = s.parts[p].cq.ringLog2) (m : Byte) :
    s.cqCtrl p v m = s.updPart p fun x => { x with cq := x.cq.controlled v } := by
  have hset : ¬(s.parts[p].cq.enable && BitVec.ofNat 4 (bits v 1 4) != s.parts[p].cq.ringLog2) = true := by
    rw [bits_eq]
    simpa [or_iff_not_imp_left] using h
  unfold State.cqCtrl
  dsimp only
  rw [if_neg hset]
  exact congrArg (fun u => ({ s with parts := u } : State))
    (updAt_congr (congrArg (fun q => ({ s.parts[p] with cq := q } : Partition)) (s.parts[p].cq.controlled_eq v)))

section
variable {s : State} {p : PartId} {at_ b : Nat} (h : (s.advanceTo at_).parts[p].cq.firstAt = some b)
include h

theorem exec_coalesceTimerExpiry : exec (.coalesceTimerExpiry p at_) s = .next
    (if (s.advanceTo at_).parts[p].cq.coalesceNs != 0 &&
        decide (b + (s.advanceTo at_).parts[p].cq.coalesceNs.toNat ≤ (s.advanceTo at_).timeNs) then (s.advanceTo at_).raiseV0 p
      else s.advanceTo at_) := by
  refine congrArg Host.Outcome.next ?_
  dsimp only
  rw [h]

theorem exec_coalesceTimerExpiry_due (hc : (s.advanceTo at_).parts[p].cq.coalesceNs ≠ 0)
    (hd : b + (s.advanceTo at_).parts[p].cq.coalesceNs.toNat ≤ (s.advanceTo at_).timeNs) :
    exec (.coalesceTimerExpiry p at_) s = .next ((s.advanceTo at_).raiseV0 p) := by
  rw [exec_coalesceTimerExpiry h, if_pos (by simpa using And.intro hc hd)]

theorem exec_coalesceTimerExpiry_early (hn : (s.advanceTo at_).parts[p].cq.coalesceNs = 0 ∨
      (s.advanceTo at_).timeNs < b + (s.advanceTo at_).parts[p].cq.coalesceNs.toNat) :
    exec (.coalesceTimerExpiry p at_) s = .next (s.advanceTo at_) := by
  rw [exec_coalesceTimerExpiry h, if_neg]
  simpa [or_iff_not_imp_left] using hn

end

/-! ### The capsule that comes next (R121) -/

/-- The first capsule of a kind is the first of its kind and target. -/
theorem firstOfClass_of_find {k : Nat} {c : Capsule} (seen l : List Capsule) (hseen : ∀ d ∈ seen, (d.kind == k) = false)
    (h : l.find? (fun d => d.kind == k) = some c) : firstOfClass k (fun _ => true) seen l = some c := by
  induction l generalizing seen with
  | nil => exact absurd h nofun
  | cons d l ih =>
    unfold firstOfClass
    cases hd : d.kind == k with
    | true =>
      have hnone : seen.any (fun e => e.kind == k && e.target == d.target) = false :=
        List.any_eq_false.mpr fun e he => by simp [hseen e he]
      rw [List.find?_cons_of_pos (p := fun d : Capsule => d.kind == k) hd] at h
      rw [hnone]
      exact h
    | false =>
      rw [List.find?_cons_of_neg (p := fun d : Capsule => d.kind == k) (by rw [hd]; exact nofun)] at h
      exact ih _ (fun e he => (List.mem_append.mp he).elim (hseen e) fun he => (List.mem_singleton.mp he) ▸ hd) h

theorem State.withCapsule_next {s : State} {p : PartId} {k : Nat} {c : Capsule} (h : NextCapsule p k s c) (f : State → Capsule → State) :
    s.withCapsule p k (fun _ => true) f = f (without p c s) c := by
  unfold State.withCapsule
  rw [firstOfClass_of_find [] _ (fun _ hd => absurd hd List.not_mem_nil) h]
  rfl

/-- Settles O24: the examinations of R117 by `capWrite_leaves`, the records by `Formed` and `Counted` of `State.post` and
`State.writeRing`. -/
theorem capsulesAreTakenInOrder : Obligations.CapsulesAreTakenInOrder := by
  refine ⟨fun s p off data => ?_, fun s p r v0 hheld hwait => ⟨fun hroom hnone => ?_, fun hfull => ?_⟩, fun s p hheld hwait => ?_,
    fun s p v hready => ⟨fun he hr => ?_, fun h => ?_⟩, fun s p at_ b hfirst => ⟨fun hc hd => ?_, fun hn => ?_⟩, fun s p c hnext => ?_⟩
  · obtain ⟨hwin, honly, hdec, htake, hrest⟩ := s.capWrite_leaves p off data
    exact ⟨_, rfl, hwin, honly, hdec, htake, hrest⟩
  · obtain ⟨hhost, hheld', hhead, hcaps, honly, hcores, hframe⟩ := s.written_leaves p r v0
    refine ⟨_, congrArg Host.Outcome.next (State.flushAndTake_one hheld hwait hroom hnone), hhost, hheld', hhead, ?_, honly, hcores,
      State.written_counted v0 hroom, hframe⟩
    rw [hcaps]
  · exact congrArg Host.Outcome.next (State.flushAndTake_full hheld hwait hfull)
  · exact congrArg Host.Outcome.next (State.flushAndTake_none hheld hwait)
  · obtain ⟨hctl, -, hparts, -⟩ := s.report_refused (s.owner (prtOffset p 0x048)) (prtOffset p 0x048) .refusedState false (some p)
    refine ⟨_, exec_prtCqCtrlWrite hready p v, ?_⟩
    rw [State.cqCtrl_refused he hr]
    refine ⟨(congrArg Partition.cq (hparts p).1 : _), ?_, ?_, State.report_host ..⟩
    all_goals rw [hctl]
    rfl
  · rw [exec_prtCqCtrlWrite hready, State.cqCtrl_sets h]
    exact congrArg Host.Outcome.next (congrArg (fun u => ({ s with parts := u } : State)) (updAt_congr rfl))
  · exact ⟨_, exec_coalesceTimerExpiry_due hfirst hc hd, rfl, rfl, rfl⟩
  · exact exec_coalesceTimerExpiry_early hfirst hn
  · exact ⟨_, congrArg Host.Outcome.next (State.withCapsule_next hnext _), State.post_recorded _ _ rfl rfl⟩

end Sys2Proof.Machine

/-! SUPPORT. What work that ends in a reset leaves of the device (03 R63, R68; 04 R91; 17 R395): its boot and its image
loader, and the state in which every partition stands. -/

namespace Sys2Proof.Machine

/-- The boot, the image loader and the state of every partition. -/
def State.stance (s : State) : Boot × Loader × Vector PartState 16 := (s.boot, s.loader, s.parts.map Partition.state)

@[simp] theorem State.stance_mk x0 x1 x2 x3 x4 x5 x6 x7 x8 x9 x10 x11 x12 x13 x14 x15 x16 x17 x18 x19 x20 x21 x22 x23 x24 x25 x26 x27 x28 x29 x30 x31 x32 x33 x34 x35 :
    (State.mk x0 x1 x2 x3 x4 x5 x6 x7 x8 x9 x10 x11 x12 x13 x14 x15 x16 x17 x18 x19 x20 x21 x22 x23 x24 x25 x26 x27 x28 x29 x30 x31 x32 x33 x34 x35).stance =
      (x7, x8, x17.map Partition.state) := rfl

@[simp] theorem State.stance_fold (s : State) : (s.boot, s.loader, s.parts.map Partition.state) = s.stance := rfl

@[simp] theorem State.stance_ite (c : Prop) [Decidable c] (a b : State) :
    (if c then a else b).stance = if c then a.stance else b.stance := by
  split <;> rfl

@[simp] theorem State.over_stance {α : Type} (l : List α) (f : State → α → State) (h : ∀ s x, (f s x).stance = s.stance) (s : State) :
    (s.over l f).stance = s.stance := State.over_keeps State.stance l f h s

@[simp] theorem State.iff_stance (b : Bool) (f : State → State) (h : ∀ s, (f s).stance = s.stance) (s : State) :
    (s.iff b f).stance = s.stance := State.iff_keeps State.stance b f h s

@[simp] theorem State.updPart_stance (s : State) (p : PartId) (f : Partition → Partition) (h : ∀ x, (f x).state = x.state) :
    (s.updPart p f).stance = s.stance := by
  simp [State.updPart, map_updAt Partition.state s.parts p h]

@[simp] theorem State.updSeq_stance (s : State) (n : SeqId) (f : Sequencer → Sequencer) : (s.updSeq n f).stance = s.stance := by
  rfl

@[simp] theorem State.updCore_stance (s : State) (c : CoreId) (f : Core → Core) : (s.updCore c f).stance = s.stance := by
  rfl

@[simp] theorem State.updPump_stance (s : State) (p : PumpId) (f : Pump → Pump) : (s.updPump p f).stance = s.stance := by
  rfl

@[simp] theorem State.updPort_stance (s : State) (n : PortId) (f : Port → Port) : (s.updPort n f).stance = s.stance := by
  rfl

@[simp] theorem State.updAxis_stance (s : State) (p : AxisId) (f : AxisEngine → AxisEngine) :
    (s.updAxis p f).stance = s.stance := by
  rfl

@[simp] theorem State.updSluice_stance (s : State) (p : SluiceId) (f : Sluice → Sluice) :
    (s.updSluice p f).stance = s.stance := by
  rfl

@[simp] theorem State.updField_stance (s : State) (p : FieldId) (f : Field → Field) :
    (s.updField p f).stance = s.stance := by
  rfl

@[simp] theorem State.updMem_stance (s : State) (u : MemUnit) (f : MemCtl → MemCtl) :
    (s.updMem u f).stance = s.stance := by
  cases u <;> rfl

@[simp] theorem State.msi_stance (s : State) (fn : PciFn) (v : Nat) : (State.msi s fn v).stance = s.stance := by
  simp [State.msi]

@[simp] theorem State.act_stance (s : State) (unit p n : Nat) : (State.act s unit p n).stance = s.stance := by
  simp [State.act]

@[simp] theorem State.meter_stance (s : State) (p : PartId) (k : Fin 14) (n : Nat) :
    (State.meter s p k n).stance = s.stance :=
  (State.iff_stance _ _ (fun t => t.act_stance 26 p.val n) _).trans
    (s.updPart_stance p _ fun x => by split <;> rfl)

@[simp] theorem State.event_stance (s : State) (code : W16) (unit part severity : Byte) (incident : W32)
    (detail : BitVec 224) :
    (State.event s code unit part severity incident detail).stance = s.stance := by
  simp [State.event]

@[simp] theorem State.evidence_stance (s : State) (part : Nat) (k : Fin 11) (n : Nat) :
    (State.evidence s part k n).stance = s.stance := by
  unfold State.evidence; (repeat' split) <;> simp

@[simp] theorem State.raiseV0_stance (s : State) (p : PartId) : (State.raiseV0 s p).stance = s.stance := by
  simp [State.raiseV0]

@[simp] theorem State.raiseCtr_stance (s : State) (c : CoreId) (n : CtrId) (ok : Bool) :
    (State.raiseCtr s c n ok).stance = s.stance := by
  simp [State.raiseCtr]

@[simp] theorem State.countAxis_stance (s : State) (r : Record) : (s.countAxis r).stance = s.stance := by
  unfold State.countAxis; split <;> rfl

@[simp] theorem State.written_stance (s : State) (r : Record) : (s.written r).stance = s.stance := by
  unfold State.written; split <;> simp [State.raiseCtr]

@[simp] theorem State.writeRing_stance (s : State) (p : PartId) (r : Record) (v0 : Bool) :
    (State.writeRing s p r v0).stance = s.stance := by
  simp [State.writeRing]

@[simp] theorem State.orphan_stance (s : State) (p : PartId) (r : Record) (words : List W64) :
    (s.orphan p r words).stance = s.stance :=
  (State.countAxis_stance _ r).trans (s.updPart_stance p _ fun _ => rfl)

@[simp] theorem State.touch_stance (s : State) (p : PartId) : (State.touch s p).stance = s.stance := by
  simp [State.touch]

@[simp] theorem State.post_stance (s0 : State) (p : PartId) (r : Record) (v0 : Bool) :
    (State.post s0 p r v0).stance = s0.stance := by
  simp [State.post]

@[simp] theorem State.logUe_stance (s : State) (u : MemUnit) (a : Nat) (src : ReadSource) :
    (State.logUe s u a src).stance = s.stance := by
  simp [State.logUe]

@[simp] theorem State.stewardRemap_stance (s : State) (u : MemUnit) (k : Nat) :
    (State.stewardRemap s u k).stance = s.stance := by
  simp [State.stewardRemap]

@[simp] theorem State.corrected_stance (s : State) (u : MemUnit) (a : Nat) (writeBack : Bool) :
    (State.corrected s u a writeBack).stance = s.stance := by
  simp [State.corrected]

@[simp] theorem State.readSector_stance (s : State) (u : MemUnit) (a : Nat) (src : ReadSource) (extra : List Nat)
    (onDie : Nat) :
    (State.readSector s u a src extra onDie).2.stance = s.stance := by
  unfold State.readSector; dsimp only; (repeat' split) <;> simp

@[simp] theorem State.readBlock_stance (s : State) (l : Loc) (src : ReadSource) :
    (State.readBlock s l src).2.stance = s.stance := by
  unfold State.readBlock; (repeat' split) <;> simp

@[simp] theorem State.noteTc12_stance (s : State) (k : Packet) : (State.noteTc12 s k).stance = s.stance := by
  simp [State.noteTc12]

@[simp] theorem State.sendFlits_stance (s : State) (n : PortId) (e : HeldPkt) (f : Nat) :
    (State.sendFlits s n e f).stance = s.stance := by
  simp [State.sendFlits]

@[simp] theorem State.slots_stance (s : State) (n : PortId) (k : Nat) : (s.slots n k).stance = s.stance := by
  induction k generalizing s with
  | zero => rfl
  | succ k ih => unfold State.slots; split <;> simp [ih]

@[simp] theorem State.flushPort_stance (s : State) (n : PortId) : (State.flushPort s n).stance = s.stance := by
  simp [State.flushPort]

@[simp] theorem State.toPort_stance (s : State) (n : PortId) (v : VcId) (k : Packet) (via : Option (PortId × VcId)) :
    (State.toPort s n v k via).stance = s.stance := by
  unfold State.toPort; dsimp only; split <;> simp

@[simp] theorem State.refill_stance (s : State) (n : PortId) : (State.refill s n).stance = s.stance := by
  simp [State.refill]

@[simp] theorem State.tc0_stance (s : State) (n : PortId) (v : VcId) (k : Packet) :
    (State.tc0 s n v k).stance = s.stance := by
  simp [State.tc0]

@[simp] theorem State.routeDrop_stance (s : State) (n : Option PortId) : (State.routeDrop s n).stance = s.stance := by
  simp [State.routeDrop]

@[simp] theorem State.launchOn_stance (s : State) (k : Packet) : (State.launchOn s k).2.stance = s.stance := by
  unfold State.launchOn; (repeat' split) <;> simp

@[simp] theorem State.freeLoc_stance (s : State) (l : Loc) : (State.freeLoc s l).stance = s.stance := by
  unfold State.freeLoc; dsimp only; (repeat' split) <;> simp

@[simp] theorem State.freeView_stance (s : State) (p : PartId) (off k : Nat) : (s.freeView p off k).stance = s.stance := by
  induction k generalizing s off with
  | zero => rfl
  | succ k ih => unfold State.freeView; (repeat' split) <;> simp [ih]

@[simp] theorem State.updFabric_stance (s : State) (f : Fabric → Fabric) : (s.updFabric f).stance = s.stance := by
  rfl

@[simp] theorem State.putSrc_stance (s : State) (k : Nat) (x : SrcStream) : (State.putSrc s k x).stance = s.stance := by
  simp [State.putSrc]

@[simp] theorem State.putDst_stance (s : State) (k : Nat) (x : DstStream) : (State.putDst s k x).stance = s.stance := by
  simp [State.putDst]

@[simp] theorem State.sendCopy_stance (s : State) (key : Nat) (o : OutPacket) :
    (State.sendCopy s key o).stance = s.stance := by
  unfold State.sendCopy; dsimp only; (repeat' split) <;> simp

@[simp] theorem State.unstall_stance (s : State) (key : Nat) (k : Nat) : (State.unstall s key k).stance = s.stance := by
  induction k generalizing s with
  | zero => rfl
  | succ k ih => unfold State.unstall; dsimp only; (repeat' split) <;> simp [ih]

@[simp] theorem State.enqueue_stance (s : State) (o : OutPacket) : (State.enqueue s o).stance = s.stance := by
  simp [State.enqueue]

@[simp] theorem State.inject_stance (s : State) (k : Packet) (item : ItemRef) (from_ : Option W64) :
    (State.inject s k item from_).stance = s.stance := by
  simp [State.inject]

@[simp] theorem State.poisonLoc_stance (s : State) (l : Loc) : (State.poisonLoc s l).stance = s.stance := by
  unfold State.poisonLoc; (repeat' split) <;> simp

@[simp] theorem State.poisonView_stance (s : State) (p : PartId) (off k : Nat) :
    (State.poisonView s p off k).stance = s.stance := by
  induction k generalizing s off with
  | zero => rfl
  | succ k ih => unfold State.poisonView; (repeat' split) <;> simp [ih]

@[simp] theorem State.poisonUnread_stance (s : State) (x : Xfer) : (State.poisonUnread s x).stance = s.stance := by
  unfold State.poisonUnread
  split
  · exact State.over_stance _ _ (fun s o => by split <;> simp) s
  · rfl

@[simp] theorem State.writeRingRecord_stance (s : State) (x : Xfer) (r : Record) :
    (State.writeRingRecord s x r).stance = s.stance := by
  simp [State.writeRingRecord]

@[simp] theorem State.endXfer_stance (s : State) (x : Xfer) (o : OutcomeCode) :
    (State.endXfer s x o).stance = s.stance := by
  unfold State.endXfer; (repeat' split) <;> simp

@[simp] theorem State.endXferFor_stance (s : State) (x : Xfer) (o : OutcomeCode) :
    (State.endXferFor s x o).stance = s.stance := by
  simp [State.endXferFor]

@[simp] theorem State.unretain_stance (s : State) (f : FieldId) : (State.unretain s f).stance = s.stance := by
  simp [State.unretain]

@[simp] theorem State.markDelivered_stance (s : State) (k : Packet) : (State.markDelivered s k).stance = s.stance := by
  simp [State.markDelivered]

@[simp] theorem State.updColl_stance (s : State) (a : AxisId) (id : Nat) (f : Coll → Coll) :
    (s.updColl a id f).stance = s.stance := by
  rfl

@[simp] theorem State.abandonTo_stance (s : State) (a : AxisId) (c : Coll) (o : OutcomeCode) (to_ : List Nat) :
    (State.abandonTo s a c o to_).stance = s.stance := by
  simp [State.abandonTo]

@[simp] theorem State.abandonAll_stance (s : State) (a : AxisId) (c : Coll) (o : OutcomeCode) :
    (State.abandonAll s a c o).stance = s.stance := by
  simp [State.abandonAll]

@[simp] theorem State.collRecord_stance (s : State) (a : AxisId) (c : Coll) (o : OutcomeCode) (detail : Nat)
    (inc : W32) (causes : BitVec 7) :
    (State.collRecord s a c o detail inc causes).stance = s.stance := by
  simp [State.collRecord]

@[simp] theorem State.releaseHeld_stance (s : State) (l : List (PortId × Packet)) :
    (State.releaseHeld s l).stance = s.stance := by
  simp [State.releaseHeld]

@[simp] theorem State.sendJoin_stance (s : State) (a : AxisId) (c : Coll) (plus : Bool) (origin : Nat)
    (digest : W32) (wp wm : Nat) :
    (State.sendJoin s a c plus origin digest wp wm).stance = s.stance := by
  simp [State.sendJoin]

@[simp] theorem State.hearJoin_stance (s : State) (a : AxisId) (id : Nat) (up : Bool) (k : Packet) :
    (State.hearJoin s a id up k).stance = s.stance := by
  unfold State.hearJoin; (repeat' split) <;> simp

@[simp] theorem State.admitColl_stance (s : State) (a : AxisId) (c : Coll) :
    (State.admitColl s a c).stance = s.stance := by
  simp [State.admitColl]

@[simp] theorem State.admitNext_stance (s : State) (a : AxisId) (p : PartId) :
    (State.admitNext s a p).stance = s.stance := by
  unfold State.admitNext; (repeat' split) <;> simp

@[simp] theorem State.collUndefined_stance (s : State) (a : AxisId) (c : Coll) (o : OutcomeCode) :
    (s.collUndefined a c o).stance = s.stance := by
  unfold State.collUndefined; dsimp only; (repeat' split) <;> simp

@[simp] theorem State.endColl_stance (s : State) (a : AxisId) (c : Coll) (o : OutcomeCode) (inc : W32) :
    (State.endColl s a c o inc).stance = s.stance := by
  simp [State.endColl]

@[simp] theorem State.failColl_stance (s : State) (a : AxisId) (c : Coll) (o : OutcomeCode) (inc : W32) :
    (State.failColl s a c o inc).stance = s.stance := by
  simp [State.failColl]

@[simp] theorem State.endAtomic_stance (s : State) (a : AxisId) (x : AtomicItem) (o : OutcomeCode) (inc : W32) :
    (State.endAtomic s a x o inc).stance = s.stance := by
  simp [State.endAtomic]

@[simp] theorem State.endProgram_stance (s : State) (x : Program) (o : OutcomeCode) (detail : W64) (inc : W32) :
    (State.endProgram s x o detail inc).stance = s.stance := by
  simp [State.endProgram]

@[simp] theorem State.orphanMap_stance (s : State) (p : PartId) (tag : W64) (step : W32) (engine : Byte)
    (l : List (Option OutcomeCode)) (inc : W32) :
    (State.orphanMap s p tag step engine l inc).stance = s.stance := by
  unfold State.orphanMap; (repeat' split) <;> simp

@[simp] theorem State.abortLayer_stance (s : State) (n : SluiceId) (l : Layer) (o : OutcomeCode) (inc : W32) :
    (State.abortLayer s n l o inc).stance = s.stance := by
  simp [State.abortLayer]

@[simp] theorem State.abortCmd_stance (s : State) (p : PartId) (c : PumpCmd) (o : OutcomeCode) (inc : W32) :
    (State.abortCmd s p c o inc).stance = s.stance := by
  simp [State.abortCmd]

@[simp] theorem State.orphanHeld_stance (s : State) (p : PartId) : (State.orphanHeld s p).stance = s.stance := by
  simp [State.orphanHeld]

@[simp] theorem State.abortQueued_stance (s : State) (p : PartId) (o : OutcomeCode) (inc : W32) :
    (State.abortQueued s p o inc).stance = s.stance := by
  simp [State.abortQueued]

@[simp] theorem State.abortItems_stance (s : State) (p : PartId) (o : OutcomeCode) (inc : W32) :
    (State.abortItems s p o inc).stance = s.stance := by
  simp [State.abortItems]

@[simp] theorem State.attachSeqs_stance (s : State) : (State.attachSeqs s).stance = s.stance := by
  simp [State.attachSeqs]

@[simp] theorem State.showTopo_stance (s : State) (wards : Nat) : (State.showTopo s wards).stance = s.stance := by
  simp [State.showTopo]

@[simp] theorem State.leavePumps_stance (s : State) (p : PartId) : (State.leavePumps s p).stance = s.stance := by
  simp [State.leavePumps]

@[simp] theorem State.leaveSluices_stance (s : State) (p : PartId) : (State.leaveSluices s p).stance = s.stance := by
  simp [State.leaveSluices]

@[simp] theorem State.leaveUnits_stance (s : State) (p : PartId) : (State.leaveUnits s p).stance = s.stance := by
  simp [State.leaveUnits]

@[simp] theorem State.noteImageReset_stance (s : State) (p : PartId) : (State.noteImageReset s p).stance = s.stance := by
  unfold State.noteImageReset; (repeat' split) <;> simp

end Sys2Proof.Machine

/-! SUPPORT. The link trained, and the resets that come over it (01 R20; 04 R91; 05 R112, R128, R129; 17 R389, R395, R410). -/

namespace Sys2Proof.Machine

/-! ### A partition emptied (R86, R91) -/

theorem State.stance_part {s t : State} (h : t.stance = s.stance) (p : PartId) : t.parts[p].state = s.parts[p].state := by
  have e : (t.parts.map Partition.state)[p] = (s.parts.map Partition.state)[p] :=
    congrArg (fun x : Boot × Loader × Vector PartState 16 => x.2.2[p]) h
  exact (Vector.getElem_map ..).symm.trans (e.trans (Vector.getElem_map ..))

theorem State.stance_boot {s t : State} (h : t.stance = s.stance) : t.boot = s.boot ∧ t.loader = s.loader :=
  ⟨congrArg Prod.fst h, congrArg (fun x : Boot × Loader × Vector PartState 16 => x.2.1) h⟩

theorem State.freePart_parts (s : State) (p : PartId) (held : Bool) :
    (s.freePart p held).parts = updAt s.parts p Partition.freed := by
  have hleave : (s.iff held (·.leaveUnits p)).parts = s.parts := by
    obtain ⟨vq, vu, vn, e⟩ := s.leaveUnits_puts p
    cases held
    · rfl
    · show (s.leaveUnits p).parts = s.parts
      rw [e]
      rfl
  obtain ⟨v, e2, -⟩ := ((s.iff held (·.leaveUnits p)).updPart p Partition.vacated).attachSeqs_spec
  obtain ⟨vc, e3, -⟩ := State.showTopo_spec { (s.iff held (·.leaveUnits p)).updPart p Partition.vacated with seqs := v }
    s.parts[p].im.img.wardMask
  have e : s.freePart p held = (((s.iff held (·.leaveUnits p)).updPart p Partition.vacated).attachSeqs.showTopo
      s.parts[p].im.img.wardMask).updPart p fun x => { x with state := s.parts[p].state } := rfl
  rw [e, e2, e3]
  simp only [State.updPart_parts, hleave, updAt_twice]
  exact updAt_congr rfl

/-- What freeing the resources of a partition leaves of boot and loader. -/
theorem State.freePart_boot (s : State) (p : PartId) (held : Bool) :
    (s.freePart p held).boot = s.boot ∧ (s.freePart p held).loader = s.loader := by
  have hleave : (s.iff held (·.leaveUnits p)).stance = s.stance := State.iff_stance _ _ (fun t => t.leaveUnits_stance p) s
  obtain ⟨hb, hl⟩ := State.stance_boot hleave
  obtain ⟨hb2, hl2⟩ := State.stance_boot ((State.showTopo_stance
    ((s.iff held (·.leaveUnits p)).updPart p Partition.vacated).attachSeqs s.parts[p].im.img.wardMask).trans
      (State.attachSeqs_stance _))
  exact ⟨hb2.trans hb, hl2.trans hl⟩

theorem State.setPart_boot (s : State) (p : PartId) (st : PartState) :
    (s.setPart p st).boot = s.boot ∧ (s.setPart p st).loader = s.loader := by
  unfold State.setPart
  split
  · exact ⟨rfl, rfl⟩
  · dsimp only
    split <;> exact ⟨rfl, rfl⟩

/-- The partition on the way to EMPTY, its items not yet ended. -/
def State.emptying (s : State) (p : PartId) : State :=
  (s.updPart p fun x => { x with im := { x.im with busy := none, bytes := [] } }).setPart p .empty

theorem State.emptying_state (s : State) (p : PartId) : (s.emptying p).parts[p].state = .empty := by
  unfold State.emptying
  rw [State.setPart_parts]
  exact congrArg Partition.state (updAt_self ..)

theorem State.emptyPart_eq (s : State) (p : PartId) (o : OutcomeCode) (inc : W32) :
    s.emptyPart p o inc = ((s.emptying p).abortItems p o inc).freePart p s.parts[p].claims? := rfl

theorem State.emptyPart_boot (s : State) (p : PartId) (o : OutcomeCode) (inc : W32) :
    (s.emptyPart p o inc).boot = s.boot ∧ (s.emptyPart p o inc).loader = s.loader := by
  obtain ⟨hb, hl⟩ := State.freePart_boot ((s.emptying p).abortItems p o inc) p s.parts[p].claims?
  obtain ⟨hb2, hl2⟩ := State.stance_boot (State.abortItems_stance (s.emptying p) p o inc)
  obtain ⟨hb3, hl3⟩ := State.setPart_boot (s.updPart p fun x => { x with im := { x.im with busy := none, bytes := [] } }) p .empty
  rw [State.emptyPart_eq]
  exact ⟨hb.trans (hb2.trans hb3), hl.trans (hl2.trans hl3)⟩

/-- A partition taken to EMPTY is one freed in that state. -/
theorem State.emptyPart_part (s : State) (p : PartId) (o : OutcomeCode) (inc : W32) :
    ∃ x : Partition, x.state = .empty ∧ (s.emptyPart p o inc).parts[p] = x.freed := by
  have hstance := State.abortItems_stance (s.emptying p) p o inc
  refine ⟨((s.emptying p).abortItems p o inc).parts[p], (State.stance_part hstance p).trans (s.emptying_state p), ?_⟩
  rw [State.emptyPart_eq, State.freePart_parts]
  exact updAt_self ..

/-! ### A device reset (R128, R395, R410) -/

/-- Every item of every partition ended, the fields awake and the Almanac written: a device reset before the reset values. -/
def State.emptied (s : State) (o : OutcomeCode) (inc : W32) : State :=
  (((s.over (allFin 16) fun s p => s.noteImageReset p).over (allFin 16) fun s p => s.emptyPart p o inc).over (allFin 4)
    fun s f => s.unretain f).flushAlmanac

theorem State.deviceReset_eq (s : State) (o : OutcomeCode) (inc : W32) : s.deviceReset o inc = (s.emptied o inc).afterReset := rfl

theorem State.emptied_boot (s : State) (o : OutcomeCode) (inc : W32) :
    (s.emptied o inc).boot = s.boot ∧ (s.emptied o inc).loader = s.loader := by
  have hnote (t : State) (p : PartId) : (t.noteImageReset p).boot = t.boot ∧ (t.noteImageReset p).loader = t.loader :=
    State.stance_boot (t.noteImageReset_stance p)
  have hfield (t : State) (f : FieldId) : (t.unretain f).boot = t.boot ∧ (t.unretain f).loader = t.loader :=
    State.stance_boot (t.unretain_stance f)
  unfold State.emptied
  rw [State.flushAlmanac_boot, State.flushAlmanac_loader]
  constructor
  · rw [State.over_keeps State.boot _ _ fun t f => (hfield t f).1, State.over_keeps State.boot _ _ fun t p => (t.emptyPart_boot p o inc).1,
      State.over_keeps State.boot _ _ fun t p => (hnote t p).1]
  · rw [State.over_keeps State.loader _ _ fun t f => (hfield t f).2,
      State.over_keeps State.loader _ _ fun t p => (t.emptyPart_boot p o inc).2, State.over_keeps State.loader _ _ fun t p => (hnote t p).2]

theorem State.afterReset_boot {s t : State} (h : t.boot = s.boot ∧ t.loader = s.loader) :
    t.afterReset.boot.state = s.boot.state ∧ t.afterReset.boot.railsUp = s.boot.railsUp ∧
      t.afterReset.loader.endedSinceStraps = s.loader.endedSinceStraps := by
  obtain ⟨hb, hl⟩ := h
  exact ⟨(congrArg Boot.state hb : _), (congrArg Boot.railsUp hb : _), (congrArg Loader.endedSinceStraps hl : _)⟩

theorem State.deviceReset_boot (s : State) (o : OutcomeCode) (inc : W32) :
    (s.deviceReset o inc).boot.state = s.boot.state ∧ (s.deviceReset o inc).boot.railsUp = s.boot.railsUp ∧
      (s.deviceReset o inc).loader.endedSinceStraps = s.loader.endedSinceStraps :=
  State.afterReset_boot (s.emptied_boot o inc)

/-- What the host's side of a reset keeps of the supply and of the link. -/
theorem State.afterReset_link {s t : State} (h : t.kept = s.kept) :
    t.afterReset.power.perst = s.power.perst ∧ t.afterReset.power.pwrEn = s.power.pwrEn ∧
      t.afterReset.power.straps = s.power.straps ∧ t.afterReset.link.link = s.link.link := by
  simp only [State.kept, Prod.mk.injEq] at h
  obtain ⟨-, -, -, -, -, -, -, -, hpower, hlink, -⟩ := h
  exact ⟨(congrArg Power.perst hpower : _), (congrArg Power.pwrEn hpower : _), (congrArg Power.straps hpower : _), hlink⟩

theorem State.deviceReset_link (s : State) (o : OutcomeCode) (inc : W32) :
    (s.deviceReset o inc).power.perst = s.power.perst ∧ (s.deviceReset o inc).power.pwrEn = s.power.pwrEn ∧
      (s.deviceReset o inc).power.straps = s.power.straps ∧ (s.deviceReset o inc).link.link = s.link.link :=
  State.afterReset_link (s.emptied_kept o inc)

theorem State.afterReset_resets {s t : State} (h : t.kept = s.kept) (hf : t.fixed = s.fixed) : DeviceReset s t.afterReset := by
  obtain ⟨hfuses, hpending, htime, hslot, hvalid⟩ := State.eqs_of_fixed hf
  simp only [State.kept, Prod.mk.injEq] at h
  obtain ⟨hgen, hfenced, hself, -⟩ := h
  exact ⟨t.afterReset_allEmpty, rfl, rfl, rfl, rfl, rfl, rfl, rfl, rfl, hfuses, hslot, hvalid, hgen, hfenced, hself, htime, hpending⟩

theorem State.deviceReset_resets (s : State) (o : OutcomeCode) (inc : W32) : DeviceReset s (s.deviceReset o inc) := by
  have hf := s.deviceReset_fixed o inc
  rw [State.deviceReset_eq, State.afterReset_fixed] at hf
  rw [State.deviceReset_eq]
  exact State.afterReset_resets (s.emptied_kept o inc) hf

/-- A reset device that only boots, or whose control and supply change, is still a reset device. -/
theorem DeviceReset.of_same {s t u : State} (h : DeviceReset s t) (hf : u.fixed = t.fixed) (hgen : u.ctl.recordedGen = t.ctl.recordedGen)
    (hrest : { u with boot := t.boot, link := t.link, loader := t.loader, power := t.power, almanac := t.almanac, ctl := t.ctl } = t) :
    DeviceReset s u := by
  obtain ⟨hempty, hx, hp, hc, hq, ho, ha, hn, hi, hfuses, hslot, hvalid, hg, hfen, hself, htime, hpend⟩ := h
  obtain ⟨efuses, epend, etime, eslot, evalid⟩ := State.eqs_of_fixed hf
  have e {α : Type} (g : State → α) : g { u with
      boot := t.boot, link := t.link, loader := t.loader, power := t.power, almanac := t.almanac, ctl := t.ctl } = g t :=
    congrArg g hrest
  exact ⟨allEmpty_of_parts hempty (e State.parts), (e State.xfers).trans hx, (e State.programs).trans hp, (e State.cores).trans hc,
    (e State.seqs).trans hq, (e State.ports).trans ho, (e State.axes).trans ha, (e State.sluices).trans hn, (e State.image).trans hi,
    efuses.trans hfuses, eslot.trans hslot, evalid.trans hvalid, hgen.trans hg, (e fun x => x.fabric.fenced).trans hfen,
    (e fun x => x.fabric.selfFenced).trans hself, etime.trans htime, epend.trans hpend⟩

theorem DeviceReset.of_bootOnly {s t u : State} (h : DeviceReset s t) (hf : u.fixed = t.fixed) (hb : BootOnly t u) : DeviceReset s u :=
  DeviceReset.of_same h hf (congrArg Control.recordedGen hb.ctl) (congrArg (fun x : State => ({ x with ctl := t.ctl } : State)) hb)

/-! ### Boot after a reset (R63, R68, R128) -/

theorem State.reboot_cases (s : State) : s.reboot = s ∨ s.reboot = s.bootStart ∨ s.reboot = s.setBoot .verify := by
  unfold State.reboot
  split
  · exact .inl rfl
  · split
    · exact .inr (.inl rfl)
    · exact .inr (.inr rfl)

theorem State.reboot_bootOnly (s : State) : BootOnly s s.reboot := by
  obtain h | h | h := s.reboot_cases <;> rw [h]
  · exact .refl s
  · exact s.bootStart_bootOnly
  · exact s.setBoot_bootOnly .verify

/-- PERST# and the state of the link, which no boot changes. -/
def State.wires (s : State) : Bool × LinkState := (s.power.perst, s.link.link)

theorem State.setBoot_wires (s : State) (b : BootState) : (s.setBoot b).wires = s.wires := by
  unfold State.setBoot
  split <;> rfl

theorem State.modFault_wires (s : State) : s.modFault.wires = s.wires := by
  unfold State.modFault
  split <;> rfl

theorem State.bare_wires (s : State) (c : BitVec 4) : (s.bare c).wires = s.wires := State.setBoot_wires _ _

theorem State.bootStart_wires (s : State) : s.bootStart.wires = s.wires := by
  obtain h | ⟨c, h⟩ | h := s.bootStart_cases <;> rw [h]
  · exact (State.modFault_wires _).trans (State.bare_wires _ 4)
  · exact s.bare_wires c
  · exact s.setBoot_wires .verify

theorem State.reboot_wires (s : State) : s.reboot.wires = s.wires := by
  obtain h | h | h := s.reboot_cases <;> rw [h]
  · exact s.bootStart_wires
  · exact s.setBoot_wires .verify

/-- A boot does not withdraw MOD_FAULT#. -/
theorem State.reboot_modFault {s : State} (hm : s.power.modFault = true) : s.reboot.power.modFault = true := by
  obtain h | h | h := s.reboot_cases <;> rw [h]
  · exact hm
  · obtain h | ⟨c, h⟩ | h := s.bootStart_cases <;> rw [h]
    · rw [State.modFault_power]
    · rw [State.bare_power]; exact hm
    · rw [State.setBoot_power]; exact hm
  · rw [State.setBoot_power]; exact hm

/-! ### PERST#, hot reset and PF reset (R128) -/

/-- What the host's side of a reset does after the device reset: the rails of a device it wakes, or a boot. -/
def State.hostStarted (s : State) : State :=
  if s.ctl.halted then
    if s.power.thermTrip || s.power.supply != .inRange || !s.power.pwrEn then s
    else ({ s with ctl := { s.ctl with halted := false } } : State).railsOn
  else if s.power.pwrEn then s.reboot else s

theorem State.hostReset_eq (s : State) : s.hostReset = (s.deviceReset .abortedReset 0).hostStarted := rfl

theorem State.hostStarted_cases (s : State) : s.hostStarted = s ∨
    s.hostStarted = ({ s with ctl := { s.ctl with halted := false } } : State).railsOn ∨ s.hostStarted = s.reboot := by
  unfold State.hostStarted
  split
  · split
    · exact .inl rfl
    · exact .inr (.inl rfl)
  · split
    · exact .inr (.inr rfl)
    · exact .inl rfl

theorem DeviceReset.hostStarted {s t : State} (h : DeviceReset s t) : DeviceReset s t.hostStarted := by
  obtain e | e | e := t.hostStarted_cases <;> rw [e]
  · exact h
  · exact DeviceReset.of_same h rfl rfl rfl
  · exact DeviceReset.of_bootOnly h t.reboot_fixed t.reboot_bootOnly

theorem State.hostStarted_wires (s : State) : s.hostStarted.wires = s.wires := by
  obtain e | e | e := s.hostStarted_cases <;> rw [e]
  · rfl
  · exact s.reboot_wires

theorem State.hostReset_resets (s : State) : DeviceReset s s.hostReset := by
  rw [State.hostReset_eq]
  exact DeviceReset.hostStarted (s.deviceReset_resets .abortedReset 0)

theorem State.hostReset_wires (s : State) : s.hostReset.power.perst = s.power.perst ∧ s.hostReset.link.link = s.link.link := by
  obtain ⟨hperst, -, -, hlink⟩ := s.deviceReset_link .abortedReset 0
  have h := (s.deviceReset .abortedReset 0).hostStarted_wires
  simp only [State.wires, Prod.mk.injEq] at h
  rw [State.hostReset_eq]
  exact ⟨h.1.trans hperst, h.2.trans hlink⟩

theorem State.toDetect_resets {s t : State} (h : DeviceReset s t) : DeviceReset s t.toDetect := DeviceReset.of_bootOnly h rfl rfl

/-- A device that is not held in BARE and has its rails boots at VERIFY (R63). -/
theorem State.reboot_verify {s : State} (hup : s.boot.railsUp = true) (hb : s.boot.state ≠ .bare) (hf : fuseMapOk s.fuses.map = true)
    (hs : s.power.straps.bootBare = false ∨ s.loader.endedSinceStraps = true) (hv : s.loader.slotValid = true) :
    s.reboot.boot.state = .verify := by
  unfold State.reboot
  rw [if_neg (by simp [hb]), if_pos hup]
  exact State.bootStart_image hf hs hv

theorem State.hostStarted_reboots {s : State} (hh : s.ctl.halted = false) (hen : s.power.pwrEn = true) : s.hostStarted = s.reboot := by
  unfold State.hostStarted
  rw [if_neg (by rw [hh]; exact nofun), if_pos hen]

theorem State.hostReset_verify {s : State} (hh : s.ctl.halted = false) (hen : s.power.pwrEn = true) (hup : s.boot.railsUp = true)
    (hb : s.boot.state ≠ .bare) (hf : fuseMapOk s.fuses.map = true)
    (hs : s.power.straps.bootBare = false ∨ s.loader.endedSinceStraps = true) (hv : s.loader.slotValid = true) :
    s.hostReset.boot.state = .verify := by
  obtain ⟨hstate, hrails, hended⟩ := s.deviceReset_boot .abortedReset 0
  obtain ⟨-, hpwr, hstraps, -⟩ := s.deviceReset_link .abortedReset 0
  obtain ⟨hfuses, -, -, -, hvalid⟩ := State.eqs_of_fixed (s.deviceReset_fixed .abortedReset 0)
  rw [State.hostReset_eq, State.hostStarted_reboots (by rw [State.deviceReset_ctl]; exact hh) (hpwr.trans hen)]
  exact State.reboot_verify (hrails.trans hup) (by rw [hstate]; exact hb) (by rw [hfuses]; exact hf)
    (by rw [hstraps, hended]; exact hs) (hvalid.trans hv)

/-! ### The Steward's watchdog (R389) -/

/-- The state of a watchdog expiry once the incident and its record are taken. -/
def State.expired (s : State) (x : W64) : State :=
  (s.incident 0x0C (maskOf (s.committedParts.map (·.val))) sevDevice).event 0x0902 unitSteward partNone sevDevice
    (s.ctl.incident + 1) (packDetail [(x.toNat, 8)])

/-- The device reset of a watchdog expiry. -/
def State.watchdogReset (s : State) (x : W64) : State :=
  ((s.expired x).deviceReset .abortedReset (s.ctl.incident + 1)).modFault

theorem exec_stewardWatchdogExpiry {s : State} (ha : s.power.alwaysOn = true) (x : W64) :
    exec (.stewardWatchdogExpiry x) s = .next (if (s.watchdogReset x).ctl.halted || !(s.watchdogReset x).power.pwrEn then
      s.watchdogReset x else (s.watchdogReset x).reboot) :=
  congrArg Host.Outcome.next (if_pos ha)

theorem State.watchdogReset_resets (s : State) (x : W64) : DeviceReset s (s.watchdogReset x) := by
  have h : DeviceReset s ((s.expired x).deviceReset .abortedReset (s.ctl.incident + 1)) :=
    State.deviceReset_resets (s.expired x) .abortedReset _
  exact DeviceReset.of_bootOnly h (State.modFault_fixed _) (State.modFault_bootOnly _)

theorem State.watchdogReset_ctl (s : State) (x : W64) : (s.watchdogReset x).ctl.incident = s.ctl.incident + 1 ∧
    (s.watchdogReset x).ctl.faultSource = 0x0C ∧ (s.watchdogReset x).ctl.halted = s.ctl.halted := by
  have h := (BootOnly.ctl (State.modFault_bootOnly _)).trans ((s.expired x).deviceReset_ctl .abortedReset (s.ctl.incident + 1))
  unfold State.watchdogReset
  rw [h]
  exact ⟨rfl, rfl, rfl⟩

theorem stewardWatchdog_resets {s : State} (ha : s.power.alwaysOn = true) (x : W64) :
    ∃ t, exec (.stewardWatchdogExpiry x) s = .next t ∧ DeviceReset s t ∧ t.ctl.incident = s.ctl.incident + 1 ∧
      t.ctl.faultSource = 0x0C ∧ t.power.modFault = true ∧ t.ctl.halted = s.ctl.halted := by
  have h := s.watchdogReset_resets x
  obtain ⟨hinc, hsrc, hhalt⟩ := s.watchdogReset_ctl x
  have hfault : (s.watchdogReset x).power.modFault = true := by
    unfold State.watchdogReset
    rw [State.modFault_power]
  refine ⟨_, exec_stewardWatchdogExpiry ha x, ?_⟩
  split
  · exact ⟨h, hinc, hsrc, hfault, hhalt⟩
  · rw [(State.reboot_bootOnly _).ctl]
    exact ⟨DeviceReset.of_bootOnly h (State.reboot_fixed _) (State.reboot_bootOnly _), hinc, hsrc, State.reboot_modFault hfault, hhalt⟩

/-! ### A VF reset (R91, R129) -/

/-- A partition whose rings and capsule numbers a VF reset sets. -/
def Partition.flrReset (x : Partition) : Partition :=
  { x with
    cq := {}
    caps := { x.caps with expected := 1, takenSeq := 0, ignored := 0, lastTaken := Vector.replicate 32 0, bar2Log2 := 36 } }

/-- The image command `c` ended by a VF reset. -/
def Partition.imgAborted (x : Partition) (c : BitVec 2) : Partition :=
  { x with im := { x.im with
    outcome := BitVec.ofNat 8 OutcomeCode.abortedReset.code, reason := 0x0C, lastCmd := c.setWidth 3 } }

theorem State.vfReset_eq (s : State) (p : PartId) : s.vfReset p = match s.parts[p].im.busy with
    | some c => ((((s.usage p 4).emptyPart p .abortedReset 0).updPart p Partition.flrReset).updPart p fun x =>
        x.imgAborted c).msi (.vf p) 3
    | none => ((s.usage p 4).emptyPart p .abortedReset 0).updPart p Partition.flrReset := rfl

/-- The partition that a VF reset leaves: freed in EMPTY, its rings and capsule numbers reset, a running image command ended. -/
theorem State.vfReset_part (s : State) (p : PartId) : ∃ x : Partition, x.state = .empty ∧
    (s.vfReset p).parts[p] = match s.parts[p].im.busy with
      | some c => x.freed.flrReset.imgAborted c
      | none => x.freed.flrReset := by
  obtain ⟨x, hx, e⟩ := (s.usage p 4).emptyPart_part p .abortedReset 0
  refine ⟨x, hx, ?_⟩
  rw [State.vfReset_eq]
  cases s.parts[p].im.busy with
  | none =>
    dsimp only
    rw [State.updPart_self, e]
  | some c =>
    dsimp only [State.msi]
    rw [State.updPart_self, State.updPart_self, e]

theorem vfFlr_empties {s : State} (ha : s.power.alwaysOn = true) (p : PartId) :
    ∃ t, exec (.vfFlr p) s = .next t ∧ t.parts[p].state = .empty ∧ t.parts[p].im.img = {} ∧ t.parts[p].cq = {} ∧
      t.parts[p].caps.expected = 1 ∧ t.parts[p].caps.takenSeq = 0 ∧ t.parts[p].caps.queue = [] ∧
      t.parts[p].caps.lastTaken = Vector.replicate 32 0 ∧
      (∀ c, s.parts[p].im.busy = some c → t.parts[p].im.outcome = 0x1A ∧ t.parts[p].im.reason = 0x0C) ∧
      t.fuses = s.fuses ∧ t.image = s.image ∧ t.ctl.recordedGen = s.ctl.recordedGen ∧ t.fabric.fenced = s.fabric.fenced ∧
      t.loader.slot = s.loader.slot ∧ t.timeNs = s.timeNs ∧ t.pending = s.pending := by
  have hk := s.vfReset_kept p
  simp only [State.kept, Prod.mk.injEq] at hk
  obtain ⟨hgen, hfenced, -, -, himage, -⟩ := hk
  obtain ⟨hfuses, hpending, htime, hslot, -⟩ := State.eqs_of_fixed (s.vfReset_fixed p)
  obtain ⟨x, hx, e⟩ := s.vfReset_part p
  refine ⟨s.vfReset p, congrArg Host.Outcome.next (if_pos ha), ?_⟩
  rw [e]
  cases s.parts[p].im.busy with
  | none => exact ⟨hx, rfl, rfl, rfl, rfl, rfl, rfl, nofun, hfuses, himage, hgen, hfenced, hslot, htime, hpending⟩
  | some c => exact ⟨hx, rfl, rfl, rfl, rfl, rfl, rfl, fun _ _ => ⟨rfl, rfl⟩, hfuses, himage, hgen, hfenced, hslot, htime, hpending⟩

/-! ### The link trains (R112) -/

section
variable {s : State} {w at_ : Nat} (hen : (s.advanceTo at_).power.pwrEn = true) (hperst : (s.advanceTo at_).power.perst = false)
  (hlink : (s.advanceTo at_).link.link = .detect) (hheld : (s.advanceTo at_).link.detectUntil ≤ (s.advanceTo at_).timeNs)
include hen hperst hlink hheld

theorem exec_pcieLinkTrain : exec (.pcieLinkTrain w at_) s = .next (if w < 4 then
      ({ s.advanceTo at_ with link := { (s.advanceTo at_).link with detectUntil := (s.advanceTo at_).timeNs + 100000000 } }
        : State).event 0x0303 unitHost partNone sevInfo 0 (packDetail [(w, 1)])
    else { s.advanceTo at_ with link := { (s.advanceTo at_).link with link := .l0, width := linkWidth w } }) :=
  congrArg Host.Outcome.next (if_neg (by simp [hen, hperst, hlink, hheld]))

end

/-! ### The commands that reset the device -/

theorem DeviceReset.ofPerst {s t : State} (h : DeviceReset { s with power := { s.power with perst := true } } t) : DeviceReset s t := h

theorem State.toDetect_link (s : State) : s.toDetect.power = s.power ∧ s.toDetect.link.link = .detect ∧ s.toDetect.link.width = 0 :=
  ⟨rfl, rfl, rfl⟩

theorem perstAssert_resets {s : State} (ha : s.power.alwaysOn = true) (hp : s.power.perst = false) :
    ∃ t, exec .perstAssert s = .next t ∧ DeviceReset s t ∧ t.power.perst = true ∧ t.link.link = .detect ∧ t.link.width = 0 := by
  have hnew : exec .perstAssert s = .next ({ s with power := { s.power with perst := true } } : State).hostReset.toDetect :=
    congrArg Host.Outcome.next ((if_neg (by rw [hp]; exact nofun)).trans (congrArg State.toDetect (if_pos ha)))
  obtain ⟨hperst, -⟩ := State.hostReset_wires { s with power := { s.power with perst := true } }
  have h := DeviceReset.ofPerst (State.toDetect_resets (State.hostReset_resets { s with power := { s.power with perst := true } }))
  obtain ⟨hpower, hlink, hwidth⟩ := ({ s with power := { s.power with perst := true } } : State).hostReset.toDetect_link
  exact ⟨_, hnew, h, (congrArg Power.perst hpower).trans hperst, hlink, hwidth⟩

theorem hotReset_resets {s : State} (ha : s.power.alwaysOn = true) : ∃ t, exec .hotReset s = .next t ∧ DeviceReset s t ∧
    t.power.perst = s.power.perst ∧ t.link.link = .detect ∧ t.link.width = 0 := by
  obtain ⟨hpower, hlink, hwidth⟩ := s.hostReset.toDetect_link
  exact ⟨_, congrArg Host.Outcome.next (if_pos ha), State.toDetect_resets s.hostReset_resets,
    (congrArg Power.perst hpower).trans s.hostReset_wires.1, hlink, hwidth⟩

theorem exec_pfFlr {s : State} (ha : s.power.alwaysOn = true) : exec .pfFlr s = .next s.hostReset :=
  congrArg Host.Outcome.next (if_pos ha)

/-- Settles O22: PERST#, hot reset and PF reset by `hostReset_resets`, the watchdog by `stewardWatchdog_resets`, a VF reset by
`vfFlr_empties`. -/
theorem hostLinkTrainsAndResetsTheDevice : Obligations.HostLinkTrainsAndResetsTheDevice := by
  refine ⟨fun s w at_ => ?_, fun s => perstAssert_resets, fun s hp => ?_, fun s at_ => ?_, fun s ha => ⟨hotReset_resets ha, ?_⟩,
    fun s x ha => stewardWatchdog_resets ha x, fun s p ha => vfFlr_empties ha p, fun s ha => ?_⟩
  · intro s1 hen hperst hlink hheld
    have e := exec_pcieLinkTrain (w := w) hen hperst hlink hheld
    refine ⟨fun h => ?_, fun h => ?_⟩
    · rw [e, if_neg (Nat.not_lt.mpr h)]
      rfl
    · rw [if_pos h] at e
      exact ⟨_, e, rfl, State.event_noted .., rfl⟩
  · exact congrArg Host.Outcome.next (if_pos hp)
  · exact fun hp => congrArg Host.Outcome.next (if_pos hp)
  · obtain ⟨hperst, hlink⟩ := s.hostReset_wires
    exact ⟨_, exec_pfFlr ha, s.hostReset_resets, hperst, hlink, State.hostReset_verify⟩
  · have hn : ¬s.power.alwaysOn = true := by rw [ha]; exact nofun
    exact ⟨congrArg Host.Outcome.next (if_neg hn), congrArg Host.Outcome.next (if_neg hn)⟩

end Sys2Proof.Machine

/-! SUPPORT. The beats of one core (06 R31, R137, R139, R141): beats in which nothing falls due, and the beat in which the
one result in flight lands. -/

namespace Sys2Proof

open Machine

/-! ### Changes of one core -/

theorem OnlyCore.refl (c : CoreId) (s : State) : OnlyCore c s s := ⟨fun _ _ => rfl, fun _ => rfl, rfl⟩

theorem OnlyCore.trans {c : CoreId} {s t u : State} (h : OnlyCore c s t) (k : OnlyCore c t u) : OnlyCore c s u := by
  obtain ⟨hcores, hparts, hrest⟩ := h
  obtain ⟨kcores, kparts, krest⟩ := k
  exact ⟨fun d hd => (kcores d hd).trans (hcores d hd),
    fun p => (congrArg (fun x : Partition => { x with meter := s.parts[p].meter }) (kparts p) : _).trans (hparts p),
    (congrArg (fun x : State => { x with cores := s.cores, parts := s.parts, acts := s.acts, freeCount := s.freeCount })
      krest : _).trans hrest⟩

section
variable {c : CoreId} {s t : State} (h : OnlyCore c s t)
include h

theorem OnlyCore.epoch : t.epoch = s.epoch := (congrArg State.epoch h.2.2 : _)

theorem OnlyCore.seqs : t.seqs = s.seqs := (congrArg State.seqs h.2.2 : _)

theorem OnlyCore.im (p : PartId) : t.parts[p].im = s.parts[p].im := (congrArg Partition.im (h.2.1 p) : _)

theorem OnlyCore.claims (p : PartId) : t.parts[p].claims? = s.parts[p].claims? := (congrArg Partition.claims? (h.2.1 p) : _)

theorem OnlyCore.coreHolder (d : CoreId) : t.coreHolder d = s.coreHolder d := by
  unfold State.coreHolder State.wardHolder
  simp only [h.im, h.claims]

theorem OnlyCore.driverOf (d : CoreId) : t.driverOf d = s.driverOf d := by
  unfold State.driverOf
  rw [h.seqs]

end

theorem Machine.State.updCore_only (s : State) (c : CoreId) (f : Machine.Core → Machine.Core) : OnlyCore c s (s.updCore c f) :=
  ⟨fun _ hd => updAt_elsewhere id s.cores hd.symm, fun _ => rfl, rfl⟩

theorem Machine.State.countBeats_onlyCore (s : State) (c : CoreId) (n : Nat) : OnlyCore c s (s.countBeats c n) := by
  obtain ⟨hcores, hparts, hrest⟩ := s.countBeats_only c n
  exact ⟨fun d _ => by rw [hcores], hparts,
    congrArg (fun x : State => { x with cores := s.cores, freeCount := s.freeCount }) hrest⟩

end Sys2Proof

namespace Sys2Proof.Machine

theorem State.updCore_self (s : State) (c : CoreId) (f : Core → Core) : (s.updCore c f).cores[c] = f s.cores[c] :=
  updAt_self s.cores c f

/-- A core with another record of the operations that have counted an event (R244). -/
def Core.counting (x : Core) (m : Sparse NFlags) : Core := { x with mx := { x.mx with counted := m } }

/-- Only core `c` changes, and it is `x` afterwards, but for the record of what has counted an event. -/
structure State.Leaves (c : CoreId) (s t : State) (x : Core) : Prop where
  only : OnlyCore c s t
  core : ∃ m, t.cores[c] = x.counting m

theorem State.Leaves.becomes {c : CoreId} {s t : State} {x : Core} (h : s.Leaves c t x) {i : Instr} (hi : exec i s = .next t) :
    CoreBecomes i c s x := by
  obtain ⟨honly, m, hm⟩ := h
  refine ⟨t, hi, honly, ?_⟩
  rw [hm]
  rfl

/-! ### Empty beats -/

theorem State.emptyBeat_ends {s : State} {c : CoreId} {x : Core} (h : s.cores[c].endBeat s.epoch = (x, [])) :
    OnlyCore c s (s.emptyBeat c) ∧ (s.emptyBeat c).cores[c] = x := by
  have e : s.emptyBeat c = (s.updCore c fun _ => x).countBeats c 1 := by
    unfold State.emptyBeat
    rw [h]
    rfl
  obtain ⟨hcores, -⟩ := (s.updCore c fun _ => x).countBeats_only c 1
  rw [e]
  refine ⟨(s.updCore_only c _).trans (State.countBeats_onlyCore _ c 1), ?_⟩
  rw [hcores]
  exact s.updCore_self c _

theorem Core.hasBeat_of_grace {x : Core} (h : x.grace = none) : x.hasBeat = true := by
  unfold Core.hasBeat
  rw [h]

theorem State.emptyBeats_quiet {c : CoreId} (n : Nat) {s : State} (hg : s.cores[c].grace = none)
    (h : ∀ f ∈ s.cores[c].inflight, s.cores[c].beats + n ≤ f.due) :
    s.Leaves c (s.emptyBeats c n) { s.cores[c] with beats := s.cores[c].beats + n } := by
  induction n generalizing s with
  | zero => exact ⟨.refl c s, s.cores[c].mx.counted, rfl⟩
  | succ n ih =>
    rw [State.emptyBeats, if_pos (Core.hasBeat_of_grace hg)]
    obtain ⟨honly, hcore⟩ := State.emptyBeat_ends
      (s.cores[c].endBeat_quiet s.epoch fun f hf => by have := h f hf; omega)
    have hq : ∀ f ∈ (s.emptyBeat c).cores[c].inflight, (s.emptyBeat c).cores[c].beats + n ≤ f.due := by
      rw [hcore]
      intro f hf
      have := h f hf
      dsimp only
      omega
    obtain ⟨konly, m, hm⟩ := ih (by rw [hcore]; exact hg) hq
    refine ⟨honly.trans konly, m, hm.trans ?_⟩
    rw [hcore, ← Nat.add_right_comm]
    rfl

theorem State.emptyBeats_succ (s : State) (c : CoreId) (n : Nat) :
    s.emptyBeats c (n + 1) = (s.emptyBeats c n).emptyBeats c 1 := by
  induction n generalizing s with
  | zero => rfl
  | succ n ih =>
    rw [State.emptyBeats]
    split
    · rename_i hb
      rw [ih]
      exact congrArg (fun t => State.emptyBeats t c 1) (if_pos hb).symm
    · rename_i hb
      have e : s.emptyBeats c (n + 1) = s := if_neg hb
      rw [e]
      exact (if_neg hb).symm

/-! ### The beat in which the one result in flight lands -/

/-- The ranks of a list applied one after another, as the end of a beat applies them all. -/
def Core.applyRanks (x : Core) (epoch : Nat) (l : List Nat) : Core × List (Flight × FaultInfo) :=
  l.foldl (fun acc k => ((acc.1.applyRank epoch k).1, acc.2 ++ (acc.1.applyRank epoch k).2)) (x, [])

theorem Core.endBeat_of_ranks {x y : Core} {epoch : Nat} (h : x.applyRanks epoch (List.range 9) = (y, [])) :
    x.endBeat epoch = ({ y.pruned with beats := y.beats + 1 }, []) := by
  unfold Core.endBeat
  generalize List.range 9 = l at h ⊢
  change ({ (x.applyRanks epoch l).1.pruned with beats := (x.applyRanks epoch l).1.beats + 1 }, (x.applyRanks epoch l).2) = _
  rw [h]

theorem Core.applyRanks_cons {x y : Core} {epoch k : Nat} (h : x.applyRank epoch k = (y, [])) (l : List Nat) :
    x.applyRanks epoch (k :: l) = y.applyRanks epoch l := by
  unfold Core.applyRanks
  rw [List.foldl_cons, h]
  rfl

theorem Core.applyRanks_idle {x : Core} (h : x.inflight = []) (epoch : Nat) (l : List Nat) : x.applyRanks epoch l = (x, []) := by
  induction l with
  | nil => rfl
  | cons k l ih =>
    rw [Core.applyRanks_cons (x.applyRank_quiet epoch k (by rw [h]; exact fun _ hf => absurd hf List.not_mem_nil)), ih]

section
variable {x y : Core} {epoch : Nat} {f : Flight} (hi : x.inflight = [f]) (hd : f.due = x.beats)
  (ha : ({ x with inflight := [] } : Core).apply epoch f = (y, none))
include hi hd ha

theorem Core.applyRank_lands : x.applyRank epoch f.rank = (y, []) := by
  simp [Core.applyRank, hi, hd, List.splitBy, List.splitBy.loop, Core.applyOp, Core.applyAll, ha]

theorem Core.applyRanks_lands (hy : y.inflight = []) {l : List Nat} (hl : f.rank ∈ l) : x.applyRanks epoch l = (y, []) := by
  induction l with
  | nil => exact absurd hl List.not_mem_nil
  | cons k l ih =>
    by_cases e : f.rank = k
    · subst e
      rw [Core.applyRanks_cons (Core.applyRank_lands hi hd ha), Core.applyRanks_idle hy]
    · rw [Core.applyRanks_cons (x.applyRank_quiet epoch k fun g hg h => e ?_), ih ((List.mem_cons.mp hl).resolve_left e)]
      rw [hi, List.mem_singleton] at hg
      rw [← hg, h.2]

theorem Core.endBeat_lands (hr : f.rank ≤ 8) (hy : y.inflight = []) :
    x.endBeat epoch = ({ y.pruned with beats := y.beats + 1 }, []) :=
  Core.endBeat_of_ranks (Core.applyRanks_lands hi hd ha hy (List.mem_range.mpr (Nat.lt_succ_of_le hr)))

end

/-- A core at beat `b` with nothing in flight, and its record of what has counted an event. -/
def Core.landed (x : Core) (b : Nat) (m : Sparse NFlags) : Core := ({ x with inflight := [], beats := b } : Core).counting m

section
variable {s : State} {c : CoreId} {f : Flight} {y : Core} (hdrain : s.coreDrains c = true) (hg : s.cores[c].grace = none)
  (hi : s.cores[c].inflight = [f]) (hd : s.cores[c].beats ≤ f.due)
include hg hi hd

/-- The beats up to and with the one in which the one result in flight is due. -/
theorem State.emptyBeats_lands (hr : f.rank ≤ 8)
    (ha : ∀ m, (s.cores[c].landed f.due m).apply s.epoch f = (y.landed f.due m, none)) :
    s.Leaves c (s.emptyBeats c (f.due - s.cores[c].beats + 1)) { y with inflight := [], beats := f.due + 1 } := by
  obtain ⟨honly, m, hm⟩ := State.emptyBeats_quiet (c := c) (f.due - s.cores[c].beats) hg fun g hg' => by
    rw [hi, List.mem_singleton] at hg'
    rw [hg']
    omega
  rw [State.emptyBeats_succ]
  generalize s.emptyBeats c (f.due - s.cores[c].beats) = t at *
  have hdue : f.due = t.cores[c].beats := by
    rw [hm]
    exact (Nat.add_sub_cancel' hd).symm
  have hland : ({ t.cores[c] with inflight := [] } : Core).apply t.epoch f = (y.landed f.due m, none) := by
    rw [honly.epoch, ← ha m, hm, Nat.add_sub_cancel' hd]
    rfl
  have hbeat : t.cores[c].hasBeat = true := Core.hasBeat_of_grace (by rw [hm]; exact hg)
  rw [State.emptyBeats, if_pos hbeat, State.emptyBeats]
  obtain ⟨konly, hcore⟩ := State.emptyBeat_ends (Core.endBeat_lands (by rw [hm]; exact hi) hdue hland hr rfl)
  exact ⟨honly.trans konly, _, hcore⟩

include hdrain in
omit hg hd in
theorem exec_operationResultWrite :
    exec (.operationResultWrite c) s = .next (s.emptyBeats c (f.due - s.cores[c].beats + 1)) := by
  have hfirst : s.cores[c].firstDue = some (f.due - s.cores[c].beats) := by
    unfold Core.firstDue
    rw [hi]
    rfl
  refine congrArg Host.Outcome.next ((if_pos hdrain).trans ?_)
  rw [hfirst]

end

/-- A result lands where its writing makes `y` of the core. -/
theorem resultLands_of_apply {r : Result} {s : State} {c : CoreId} {y : Core}
    (h : ∀ (f : Flight) (b : Nat) (m : Sparse NFlags), f.res = r →
      (s.cores[c].landed b m).apply s.epoch f = (y.landed b m, none)) : ResultLands r s c y :=
  fun f hdrain hg hi hd hr hres =>
    (State.emptyBeats_lands hg hi hd hr fun m => h f f.due m hres).becomes (exec_operationResultWrite hdrain hi)

/-- The check of FULL_PUSH passes where the queue end has room (R147). -/
theorem Core.push_room {x : Core} {q : QId} (h : x.queues[q].entries.length < 8) (e : Entry) :
    x.push q e = some { x with queues := updAt x.queues q fun k => { k with entries := k.entries ++ [e] } } := if_pos h

/-- A line written in its beat: of the transfer ring it is undefined (R171). -/
theorem Core.apply_memLine {x y : Core} {f : Flight} {a : Nat} {l d : Line} {p : Bool} (b : Nat) (m : Sparse NFlags) (epoch : Nat)
    (hres : f.res = .memLine a l p) (hd : (if x.inRing a then freeLine f.free a else l) = d)
    (hy : x.setLine a d p = y) : (x.landed b m).apply epoch f = (y.landed b m, none) := by
  subst hy
  have hring : (x.landed b m).inRing a = x.inRing a := rfl
  have hline : (x.landed b m).setLine a d p = (x.setLine a d p).landed b m := by
    simp only [Core.setLine, Core.landed, Core.counting]
  unfold Core.apply
  rw [hres]
  dsimp only
  rw [hring, hd, hline]

/-- Settles O35: the beats before that of the result are quiet, and in its beat `Core.apply` writes it (R139, R141). -/
theorem resultsAreWrittenInTheirBeat : Obligations.ResultsAreWrittenInTheirBeat := by
  intro s c
  refine ⟨fun d v => ?_, fun d f v => ?_, fun d => ?_, fun b k => ?_, fun n => ?_, fun n v => ?_, fun n v => ?_,
    fun q f l p hroom => ?push, fun a l p hring => ?line, fun a l p f hring hdrain hg hi hd hr hres => ?ringLine, fun r l p => ?_,
    fun i l p => ?_, fun b => ?_⟩
  case push =>
    refine resultLands_of_apply fun f b m hres => ?_
    unfold Core.apply
    rw [hres]
    dsimp only
    rw [Core.push_room (show (s.cores[c].landed b m).queues[q.q].entries.length < 8 from hroom)]
    rfl
  case line =>
    exact resultLands_of_apply fun f b m hres => Core.apply_memLine b m s.epoch hres (if_neg (by rw [hring]; exact nofun)) rfl
  case ringLine =>
    have hline := (State.emptyBeats_lands hg hi hd hr fun m =>
      Core.apply_memLine f.due m s.epoch hres (if_pos hring) rfl).becomes (exec_operationResultWrite hdrain hi)
    simp only [Core.setLine] at hline
    exact ⟨_, hline⟩
  all_goals
    refine resultLands_of_apply fun f b m hres => ?_
    unfold Core.apply
    rw [hres]
    rfl

end Sys2Proof.Machine

/-! SUPPORT. The register windows of the sequencers (06 R135, R181). -/

namespace Sys2Proof.Machine

theorem blockOf_seq (n : SeqId) (x : Nat) (h : x < 0x10000) : blockOf (seqOffset n x) = .seq n x := by
  have hn := n.isLt
  have hq : (seqOffset n x - 0x400000) / 0x10000 = n.val := by
    unfold seqOffset
    omega
  have hx : seqOffset n x % 0x10000 = x := by
    unfold seqOffset
    omega
  have hout (a k m : Nat) (hm : a + k * m ≤ 0x400000 ∨ 0x500000 ≤ a) : inWin (seqOffset n x) a k m = false := by
    unfold inWin seqOffset
    exact decide_eq_false fun hw => by omega
  have hin : inWin (seqOffset n x) 0x400000 0x10000 16 = true := by
    unfold inWin seqOffset
    exact decide_eq_true (by omega)
  have hseq : seqOf n.val = n := Fin.ext (Nat.mod_eq_of_lt hn)
  unfold blockOf
  rw [hin, hq, hx, hseq]
  simp [hout]

theorem State.served_seq {s : State} (h : Ready s) (n : SeqId) {x : Nat} (hx : x < 0x10000) : s.served (seqOffset n x) = true := by
  obtain ⟨hon, hready, hrun⟩ := h
  simp [State.served, blockOf_seq n x hx, hon, hready, hrun]

theorem State.wakeAccess_seqs (s : State) (off : Nat) : (s.wakeAccess off).seqs = s.seqs := by
  have h := s.wakeAccess_unslept off
  simp only [State.unslept, Prod.mk.injEq] at h
  obtain ⟨-, -, -, hseqs, -⟩ := h
  exact hseqs

theorem seqs_of_refused {m : Byte} {off : Nat} {o : OutcomeCode} {b : Bool} {s t : State} (h : Refused m off o b s t) :
    t.seqs = s.seqs := by
  obtain ⟨-, -, -, hrest⟩ := h
  exact (congrArg State.seqs hrest : _)

theorem Sequencer.active_iff (q : Sequencer) : q.active = true ↔ q.state = .running ∨ q.state = .halting := by
  cases hq : q.state <;> simp [Sequencer.active, hq]

/-- Settles O19: the register is served (R65), and `State.setSplit` is the two cases of R135. -/
theorem sequencerRegionWritesOnlyAtRest : Obligations.SequencerRegionWritesOnlyAtRest := by
  intro s n split hready w
  have hexec : exec (.seqRegionWrite n split) s = .next (w.setSplit n split.toNat (s.owner (seqOffset n 0x008))) :=
    congrArg Host.Outcome.next (if_pos (s.served_seq hready n (by decide)))
  have hw : w.seqs[n].active = s.seqs[n].active := by rw [s.wakeAccess_seqs]
  rw [hexec]
  refine ⟨fun hact => ?_, fun hrun hhalt => ?_⟩
  · have e : w.setSplit n split.toNat (s.owner (seqOffset n 0x008)) = w.refuseSeq n 0x008 (s.owner (seqOffset n 0x008)) :=
      if_pos (hw.trans ((Sequencer.active_iff _).mpr hact))
    have href : Refused (s.owner (seqOffset n 0x008)) (seqOffset n 0x008) .refusedState false w
        (w.refuseSeq n 0x008 (s.owner (seqOffset n 0x008))) := State.report_refused ..
    rw [e]
    exact ⟨_, rfl, (seqs_of_refused href).trans (s.wakeAccess_seqs _), href⟩
  · have hrest : ¬w.seqs[n].active = true := by
      rw [hw, Sequencer.active_iff]
      exact not_or.mpr ⟨hrun, hhalt⟩
    exact congrArg Host.Outcome.next (if_neg hrest)

end Sys2Proof.Machine

/-! SUPPORT. A function applied at some entries of a bank; the fetch of one bundle (06 R132, R134; 07 R177, R178). -/

namespace Sys2Proof.Machine

/-! ### A bank with a function applied at the entries of a list -/

section
variable {α : Type} {n : Nat}

/-- A bank with `f` applied at the entries of a list. -/
def atAll (v : Vector α n) (l : List (Fin n)) (f : Fin n → α → α) : Vector α n :=
  Vector.ofFn fun i => if i ∈ l then f i v[i] else v[i]

theorem atAll_get (v : Vector α n) (l : List (Fin n)) (f : Fin n → α → α) (i : Fin n) :
    (atAll v l f)[i] = if i ∈ l then f i v[i] else v[i] := by
  simp [atAll]

theorem updAt_get_fin (v : Vector α n) (i j : Fin n) (f : α → α) : (updAt v i f)[j] = if j = i then f v[i] else v[j] := by
  by_cases h : j = i
  · subst h
    rw [if_pos rfl]
    exact updAt_self v j f
  · rw [if_neg h]
    exact updAt_elsewhere id v (Ne.symm h)

theorem foldl_updAt {l : List (Fin n)} (hl : l.Nodup) (f : Fin n → α → α) (v : Vector α n) :
    l.foldl (fun v i => updAt v i (f i)) v = atAll v l f := by
  induction l generalizing v with
  | nil => exact Vector.ext fun i hi => by simp [atAll]
  | cons i l ih =>
    obtain ⟨hi, hl⟩ := List.nodup_cons.mp hl
    rw [List.foldl_cons, ih hl]
    refine Vector.ext fun j hj => ?_
    have h := atAll_get (updAt v i (f i)) l f ⟨j, hj⟩
    have k := atAll_get v (i :: l) f ⟨j, hj⟩
    rw [updAt_get_fin] at h
    simp only [Fin.getElem_fin] at h k
    rw [h, k]
    by_cases e : (⟨j, hj⟩ : Fin n) = i
    · subst e
      simp [hi]
    · simp [e]

end

/-- Present cores, and a partition's sequencers, are listed once each. -/
theorem State.seqCores_nodup (s : State) (n : SeqId) : (s.seqCores n).Nodup := (List.nodup_finRange 192).filter _

theorem State.partCores_nodup (s : State) (p : PartId) : (s.partCores p).Nodup := (List.nodup_finRange 192).filter _

theorem State.over_updCore {l : List CoreId} (hl : l.Nodup) (f : CoreId → Core → Core) (s : State) :
    (s.over l fun s c => s.updCore c (f c)) = { s with cores := atAll s.cores l f } := by
  rw [← foldl_updAt hl f s.cores]
  clear hl
  induction l generalizing s with
  | nil => rfl
  | cons c l ih => exact ih _

theorem State.over_updSeq_foldl (l : List SeqId) (f : SeqId → Sequencer → Sequencer) (s : State) :
    (s.over l fun s n => s.updSeq n (f n)) = { s with seqs := l.foldl (fun v n => updAt v n (f n)) s.seqs } := by
  induction l generalizing s with
  | nil => rfl
  | cons c l ih => exact ih _

theorem State.over_updSeq {l : List SeqId} (hl : l.Nodup) (f : SeqId → Sequencer → Sequencer) (s : State) :
    (s.over l fun s n => s.updSeq n (f n)) = { s with seqs := atAll s.seqs l f } := by
  rw [State.over_updSeq_foldl, foldl_updAt hl]

theorem State.seqCores_updSeq (s : State) (n : SeqId) (f : Sequencer → Sequencer) (h : ∀ q, (f q).wardMask = q.wardMask) (m : SeqId) :
    (s.updSeq n f).seqCores m = s.seqCores m := by
  have hw : (s.updSeq n f).seqs[m].wardMask = s.seqs[m].wardMask := updAt_keeps Sequencer.wardMask s.seqs n m h
  unfold State.seqCores
  rw [hw]
  rfl

/-! ### The flow of a bundle (R177) -/

theorem loopEnds_inside {i : Nat} {l : List Loop} (h : ∀ x ∈ l.head?, x.last ≠ i) (pc : Nat) : loopEnds i pc l = (pc, l) := by
  cases l with
  | nil => rfl
  | cons x l => exact if_neg (h x rfl)

section
variable {x : Loop} {i : Nat} (l : List Loop) (pc : Nat) (h : x.last = i)
include h

theorem loopEnds_again (hleft : 0 < x.left) : loopEnds i pc (x :: l) = (x.first, { x with left := x.left - 1 } :: l) :=
  (if_pos h).trans (if_neg (Nat.ne_of_gt hleft))

theorem loopEnds_over (hleft : x.left = 0) : loopEnds i pc (x :: l) = loopEnds i (i + 1) l :=
  (if_pos h).trans (if_pos hleft)

end

theorem Sequencer.flow_none {q : Sequencer} {i pc : Nat} {l : List Loop} (h : loopEnds i (i + 1) q.loops = (pc, l)) :
    q.flow .none i = .at_ pc l :=
  congrArg (fun e : Nat × List Loop => FlowStep.at_ e.1 e.2) h

theorem Sequencer.flow_loopa (q : Sequencer) (a : Fin 3) (e i : Nat) :
    q.flow (.loopa a e) i = q.flow (.loop e (q.args[a].toNat % 4294967296)) i := by
  have hb : bits q.args[a] 0 32 = q.args[a].toNat % 4294967296 := by simp [bits]
  rw [← hb]
  rfl

theorem Sequencer.no_loop_ends {q : Sequencer} {i : Nat} (h : ∀ l ∈ q.loops, l.last ≠ i) : (q.loops.any fun l => l.last == i) = false :=
  List.any_eq_false.mpr fun l hl => by simpa using h l hl

section
variable {q : Sequencer} {i e : Nat} (hpast : i < e) (hends : ∀ l ∈ q.loops, l.last ≠ i) (hin : ∀ l ∈ q.loops.head?, e ≤ l.last)
include hpast hends hin

theorem Sequencer.flow_loop {k : Nat} (hk : k = 0 ∨ q.loops.length < 4) : q.flow (.loop e k) i =
    if k = 0 then .at_ (e + 1) q.loops else .at_ (i + 1) ({ first := i + 1, last := e, left := k - 1 } :: q.loops) := by
  have hdeep : ¬(0 < k ∧ 4 ≤ q.loops.length) := by omega
  unfold Sequencer.flow
  dsimp only
  rw [Sequencer.no_loop_ends hends, decide_eq_false hdeep, decide_eq_false (Nat.not_le.mpr hpast)]
  cases hl : q.loops with
  | nil => rfl
  | cons l r => simp [hin l (by rw [hl]; rfl)]

end

theorem Sequencer.flow_jump {q : Sequencer} {i a : Nat} (hlow : (q.bounds q.region).1 ≤ a) (hhigh : a < (q.bounds q.region).2)
    (h : ∀ l ∈ q.loops, l.last ≠ i ∧ l.first ≤ a ∧ a ≤ l.last) : q.flow (.jump a) i = .at_ a q.loops := by
  have hin : (q.loops.any fun l => decide (a < l.first ∨ l.last < a)) = false :=
    List.any_eq_false.mpr fun l hl => by
      obtain ⟨-, hfirst, hlast⟩ := h l hl
      simpa using ⟨hfirst, hlast⟩
  unfold Sequencer.flow
  dsimp only
  rw [Sequencer.no_loop_ends fun l hl => (h l hl).1, hin, decide_eq_true (And.intro hlow hhigh)]
  rfl

/-! ### One bundle fetched -/

/-- A sequencer that has issued one more bundle. -/
def Sequencer.issues (q : Sequencer) : Sequencer := { q with issueCount := q.issueCount + 1 }

/-- A core whose FIFO has one more bundle behind the others. -/
def Core.receives (x : Core) (e : Bundle512 × BitVec 48) : Core := { x with fifo := x.fifo ++ [e] }

theorem State.broadcast_puts (s : State) (n : SeqId) (w : Bundle512) : s.broadcast n w = { s with
    seqs := updAt s.seqs n Sequencer.issues
    cores := atAll s.cores (s.seqCores n) fun _ x => x.receives (w, BitVec.ofNat 48 (s.seqs[n].issueCount + 1)) } := by
  have hcores : (s.updSeq n Sequencer.issues).seqCores n = s.seqCores n := s.seqCores_updSeq n Sequencer.issues (fun _ => rfl) n
  have hcount : (s.updSeq n Sequencer.issues).seqs[n].issueCount = s.seqs[n].issueCount + 1 :=
    congrArg Sequencer.issueCount (updAt_self s.seqs n Sequencer.issues)
  have e : s.broadcast n w = (s.updSeq n Sequencer.issues).over ((s.updSeq n Sequencer.issues).seqCores n) fun t c =>
      t.updCore c fun x => x.receives (w, BitVec.ofNat 48 (s.updSeq n Sequencer.issues).seqs[n].issueCount) := rfl
  rw [e, hcores, hcount, State.over_updCore (s.seqCores_nodup n)]
  rfl

end Sys2Proof.Machine

namespace Sys2Proof

open Machine

section
variable {s : State} {n : SeqId} (h : MayFetch n s)
include h

theorem MayFetch.fetches : s.fetches n = true := by
  obtain ⟨hrun, hroom, -⟩ := h
  simpa [State.fetches, hrun, -Fin.getElem_fin] using hroom

theorem MayFetch.inBounds : (s.seqs[n].bounds s.seqs[n].region).1 ≤ s.seqs[n].pc ∧
    s.seqs[n].pc < (s.seqs[n].bounds s.seqs[n].region).2 := by
  obtain ⟨-, -, hpc⟩ := h
  unfold Sequencer.bounds
  split at hpc
  · rename_i hr
    rw [if_pos hr]
    exact hpc
  · rename_i hr
    rw [if_neg hr]
    exact ⟨Nat.zero_le _, hpc⟩

theorem MayFetch.exec_fetch (e : ImemEcc) : exec (.sequencerFetch ⟨n, e⟩) s = .next (match e with
    | .ok => s.fetchBundle n
    | .corrected => (s.evidence (n.val / 4) evCe 1).fetchBundle n
    | .uncorrectable => s.flowFault n s.seqs[n].pc 0x0B) :=
  congrArg Host.Outcome.next ((if_pos h.fetches).trans (if_pos h.inBounds))

theorem MayFetch.baro (b : Barometer) : MayFetch n { s with baro := b } := h

/-- A fetch whose flow makes `q` of the sequencer, whatever it makes of the issue count. -/
theorem MayFetch.fetched {f : Sequencer → Sequencer} (hf : s.fetchBundle n =
      (s.broadcast n (Sparse.getD s.seqs[n].imem s.seqs[n].pc 0)).updSeq n f)
    (hcount : ∀ k, f { s.seqs[n] with issueCount := k } = { f s.seqs[n] with issueCount := k }) : Fetches n s (f s.seqs[n]) := by
  have e := hf
  rw [State.broadcast_puts] at e
  refine ⟨_, h.exec_fetch .ok, ?_, fun c => ?_, (congrArg (fun t : State => { t with seqs := s.seqs, cores := s.cores }) e : _)⟩
  · refine (congrArg State.seqs e).trans ((updAt_twice ..).trans (updAt_congr ?_))
    exact hcount (s.seqs[n].issueCount + 1)
  · dsimp only
    rw [e, State.updSeq_cores, atAll_get]
    rfl

theorem MayFetch.goes {pc : Nat} {l : List Loop}
    (hflow : s.seqs[n].flow (bundleOf (Sparse.getD s.seqs[n].imem s.seqs[n].pc 0)).flow s.seqs[n].pc = .at_ pc l) :
    Fetches n s { s.seqs[n] with pc := pc, loops := l } := by
  refine h.fetched (f := fun q => { q with pc := pc, loops := l }) ?_ fun _ => rfl
  unfold State.fetchBundle
  dsimp only
  rw [hflow]

theorem MayFetch.halts (hflow : (bundleOf (Sparse.getD s.seqs[n].imem s.seqs[n].pc 0)).flow = .halt) : Fetches n s
    { s.seqs[n] with state := .halting, haltSeq := (bundleOf (Sparse.getD s.seqs[n].imem s.seqs[n].pc 0)).seqIdx } := by
  refine h.fetched (f := fun q => { q with
    state := .halting, haltSeq := (bundleOf (Sparse.getD s.seqs[n].imem s.seqs[n].pc 0)).seqIdx }) ?_ fun _ => rfl
  have hhalt : s.seqs[n].flow (bundleOf (Sparse.getD s.seqs[n].imem s.seqs[n].pc 0)).flow s.seqs[n].pc = .halt := by
    rw [hflow]
    rfl
  unfold State.fetchBundle
  dsimp only
  rw [hhalt]

end

end Sys2Proof

namespace Sys2Proof.Machine

theorem exec_sequencerFetch_waits {s : State} {n : SeqId} (h : s.seqs[n].state ≠ .running ∨ ∃ c ∈ s.seqCores n, 16 ≤ s.cores[c].fifo.length)
    (e : ImemEcc) : exec (.sequencerFetch ⟨n, e⟩) s = .next s := by
  refine congrArg Host.Outcome.next (if_neg fun hf => ?_)
  simp only [State.fetches, Bool.and_eq_true, beq_iff_eq, List.all_eq_true, decide_eq_true_eq] at hf
  obtain ⟨hrun, hroom⟩ := hf
  obtain hrest | ⟨c, hc, hfull⟩ := h
  · exact hrest hrun
  · exact absurd (hroom c hc) (Nat.not_lt.mpr hfull)

/-- A corrected error of instruction memory is evidence, and the bundle is issued (R414). -/
theorem exec_sequencerFetch_corrected {s : State} {n : SeqId} (h : MayFetch n s) :
    exec (.sequencerFetch ⟨n, .corrected⟩) s = exec (.sequencerFetch ⟨n, .ok⟩) (s.evidence (n.val / 4) evCe 1) := by
  obtain ⟨b, e⟩ := s.evidence_puts (n.val / 4) evCe 1
  rw [h.exec_fetch .corrected, e]
  exact ((h.baro b).exec_fetch .ok).symm

end Sys2Proof.Machine

/-! SUPPORT. The issue of the head bundle of a core (06 R137, R139; 07 R173). -/

namespace Sys2Proof.Machine

section
variable {c : CoreId} {s t u : State} {x : Core}

theorem State.Leaves.after (hst : OnlyCore c s t) (h : t.Leaves c u x) : s.Leaves c u x := ⟨hst.trans h.only, h.core⟩

theorem State.Leaves.updCore (h : s.Leaves c t x) {f : Core → Core} (hf : ∀ m, f (x.counting m) = (f x).counting m) :
    s.Leaves c (t.updCore c f) (f x) := by
  obtain ⟨honly, m, hm⟩ := h
  refine ⟨honly.trans (t.updCore_only c f), m, ?_⟩
  rw [State.updCore_self, hm, hf]

end

/-! ### The beats of a bundle -/

theorem Core.stopAtGrace_of_none {x : Core} (h : x.grace = none) : x.stopAtGrace = x := by
  unfold Core.stopAtGrace
  rw [h]

section
variable {s : State} {c : CoreId} {b : Beat} {skip : Nat} (hf : b.faults = []) (he : b.exts = []) (hg : b.new.grace = none)
  (hv : b.new.vx.storms = s.cores[c].vx.storms) (hi : ∀ f ∈ b.new.inflight, b.new.beats + skip < f.due)
include hf he hg hv hi

/-- A bundle that raises no fault and acts on its core alone, nothing falling due before its empty beats have passed: the
core as its slots leave it, its beat and its empty beats on. -/
theorem State.afterSlots_quiet (seq : BitVec 12) (n : BitVec 48) :
    s.Leaves c (s.afterSlots c skip seq n b) { b.new with beats := b.new.beats + 1 + skip } := by
  have hend := b.new.endBeat_quiet s.epoch fun f hfm => Nat.lt_of_le_of_lt (Nat.le_add_right ..) (hi f hfm)
  generalize hy : ({ b.new.pruned with beats := b.new.beats + 1 } : Core) = y at hend
  have hgy : y.grace = none := hy ▸ hg
  have hkeep : s.keepReports c y = y := s.keepReports_same c y (hy ▸ hv)
  generalize ht : (({ s with freeCount := s.freeCount + 1 } : State).updCore c fun _ => y).countBeats c 1 = t
  have e : s.afterSlots c skip seq n b = (t.emptyBeats c skip).updCore c Core.stopAtGrace := by
    unfold State.afterSlots
    simp only [hend, hf, he, hkeep, ht, pushFaults, List.map_nil, List.append_nil, State.beatFaults_nil, State.over_nil]
  have hfree : OnlyCore c s { s with freeCount := s.freeCount + 1 } := ⟨fun _ _ => rfl, fun _ => rfl, rfl⟩
  have honly : OnlyCore c s t :=
    ht ▸ (hfree.trans (State.updCore_only _ c _)).trans (State.countBeats_onlyCore _ c 1)
  have hcore : t.cores[c] = y := by
    rw [← ht, (State.countBeats_only _ c 1).1]
    exact State.updCore_self _ c _
  have hrun : t.Leaves c (t.emptyBeats c skip) { t.cores[c] with beats := t.cores[c].beats + skip } := by
    refine State.emptyBeats_quiet skip (by rw [hcore, hgy]) fun f hfm => ?_
    rw [hcore, ← hy] at hfm ⊢
    have := hi f hfm
    dsimp only
    omega
  obtain ⟨konly, m, hm⟩ := hrun
  have hstop : (t.emptyBeats c skip).updCore c Core.stopAtGrace = t.emptyBeats c skip := by
    refine congrArg (fun v => { t.emptyBeats c skip with cores := v }) (updAt_id _ c (Core.stopAtGrace_of_none ?_))
    rw [hm, hcore]
    exact hgy
  rw [e, hstop]
  refine ⟨honly.trans konly, m, ?_⟩
  rw [hm, hcore, ← hy]
  rfl

end

theorem State.Leaves.haltCore {c : CoreId} {s t : State} {x : Core} (h : s.Leaves c t x) (d : Bundle) :
    s.Leaves c (t.haltCore c d)
      { x with halted := x.halted || decide (d.flow = .halt), drains := x.drains || decide (d.flow = .halt) } := by
  unfold State.haltCore
  split
  · rename_i hd
    rw [decide_eq_true hd, Bool.or_true, Bool.or_true]
    exact h.updCore (f := fun x => { x with halted := true, drains := true }) fun _ => rfl
  · rename_i hd
    rw [decide_eq_false hd, Bool.or_false, Bool.or_false]
    exact h

/-! ### The head of the FIFO -/

/-- The core as the issue of its head bundle finds it: the bundle taken from the FIFO. -/
def Core.taking (l : List (Bundle512 × BitVec 48)) (x : Core) : Core := { x with fifo := l, waiting := none }

section
variable {s : State} {c : CoreId} {w : Bundle512} {k : BitVec 48} {l : List (Bundle512 × BitVec 48)}

theorem State.issueHead_eq (hw : s.cores[c].fifo = (w, k) :: l) :
    s.issueHead c = ((s.updCore c (Core.taking l)).issue c (bundleOf w) k).haltCore c (bundleOf w) := by
  unfold State.issueHead
  rw [hw]
  rfl

theorem SyncOp.wait_plain {o : SyncOp} {x : Core} {v : Wait} (h : o.wait x = some v) (hb : ∀ id m, o ≠ .barrier id m) :
    ∀ id a m r, v ≠ .barrier id a m r := by
  cases o with
  | barrier id m => exact absurd rfl (hb id m)
  | waitc _ _ | waitqp _ _ | waitqr _ _ =>
    cases h
    exact nofun
  | _ => cases h

/-- A core that reaches a wait that is no barrier. -/
theorem State.reachWait_plain {v : Wait} (hb : ∀ id a m r, v ≠ .barrier id a m r) : s.reachWait c v =
    if v.holds s.cores[c] then (s.updCore c fun x => { x with waiting := some v }).issueHead c
    else s.updCore c fun x => { x with waiting := some v } := by
  have hcore : (s.updCore c fun x => { x with waiting := some v }).cores[c] = { s.cores[c] with waiting := some v } :=
    s.updCore_self c _
  cases v with
  | barrier id a m r => exact absurd rfl (hb id a m r)
  | counter _ _ | qPop _ _ | qRoom _ _ =>
    unfold State.reachWait
    dsimp only
    rw [hcore]
    rfl

section
variable (hr : s.coreReady c = true) (hw : s.cores[c].fifo = (w, k) :: l)
include hr hw

theorem State.nextBundle_free (hv : (bundleOf w).sync.wait s.cores[c] = none) : s.nextBundle c = s.issueHead c := by
  unfold State.nextBundle
  rw [if_pos hr, hw]
  dsimp only
  rw [hv]

theorem State.nextBundle_plain {v : Wait} (hv : (bundleOf w).sync.wait s.cores[c] = some v)
    (hb : ∀ id m, (bundleOf w).sync ≠ .barrier id m) : s.nextBundle c =
      if v.holds s.cores[c] then (s.updCore c fun x => { x with waiting := some v }).issueHead c
      else s.updCore c fun x => { x with waiting := some v } := by
  have hp := SyncOp.wait_plain hv hb
  rw [← State.reachWait_plain hp]
  unfold State.nextBundle
  rw [if_pos hr, hw]
  dsimp only
  rw [hv]
  cases v with
  | barrier id a m r => exact absurd rfl (hp id a m r)
  | _ => rfl

/-- A head bundle without a wait, or whose wait holds, is issued. -/
theorem State.nextBundle_issues (h : (bundleOf w).sync.wait s.cores[c] = none ∨
      ∃ v, (bundleOf w).sync.wait s.cores[c] = some v ∧ v.holds s.cores[c] = true ∧ ∀ id m, (bundleOf w).sync ≠ .barrier id m) :
    s.nextBundle c = ((s.updCore c (Core.taking l)).issue c (bundleOf w) k).haltCore c (bundleOf w) := by
  obtain hnone | ⟨v, hv, hholds, hb⟩ := h
  · rw [State.nextBundle_free hr hw hnone]
    exact State.issueHead_eq hw
  · have hfifo : (s.updCore c fun x => { x with waiting := some v }).cores[c].fifo = (w, k) :: l :=
      (congrArg Core.fifo (s.updCore_self c _)).trans hw
    rw [State.nextBundle_plain hr hw hv hb, if_pos hholds, State.issueHead_eq hfifo, State.updCore_updCore]
    rfl

end

/-- The issue of a bundle that raises no fault and acts on its core alone (R137). -/
theorem State.issued_leaves {b : Beat} (d : Bundle)
    (hB : ((s.updCore c (Core.taking l)).issueBeat c d.seqIdx k).bundle d = b)
    (hf : b.faults = []) (he : b.exts = []) (hg : b.new.grace = none) (hv : b.new.vx.storms = s.cores[c].vx.storms)
    (hbeats : b.new.beats = s.cores[c].beats) (hi : ∀ f ∈ b.new.inflight, s.cores[c].beats + d.skip < f.due) :
    s.Leaves c (((s.updCore c (Core.taking l)).issue c d k).haltCore c d)
      { b.new with
        beats := s.cores[c].beats + 1 + d.skip, halted := b.new.halted || decide (d.flow = .halt)
        drains := b.new.drains || decide (d.flow = .halt) } := by
  have hcore : (s.updCore c (Core.taking l)).cores[c] = s.cores[c].taking l := s.updCore_self c _
  have hslots := State.afterSlots_quiet (s := s.updCore c (Core.taking l)) (c := c) (skip := d.skip) hf he hg
    (by rw [hcore, hv]; rfl) (by rw [hbeats]; exact hi) d.seqIdx k
  rw [hbeats, ← hB] at hslots
  rw [← hB]
  exact (State.Leaves.after (s.updCore_only c _) hslots).haltCore d

end

theorem exec_bundleIssue (s : State) (c : CoreId) : exec (.bundleIssue c) s = .next (s.nextBundle c) := rfl

theorem State.nextBundle_none {s : State} {c : CoreId} (h : s.coreReady c = false ∨ s.cores[c].fifo = []) : s.nextBundle c = s := by
  unfold State.nextBundle
  split
  · rename_i hr
    obtain h | h := h
    · exact absurd hr (by rw [h]; exact nofun)
    · rw [h]
  · rfl

end Sys2Proof.Machine

/-! SUPPORT. A fault signalled: the registers of its core and sequencer, the FAULTED state, the beats left to the cores of
the partition, and the way to the collector (06 R148 to R150). -/

namespace Sys2Proof.Machine

/-! ### The cause in a fault word -/

theorem place_lt (v lo len : Nat) {k : Nat} (h : lo + len ≤ k) : (place v lo len).toNat < 2 ^ k := by
  have hv : v % 2 ^ len < 2 ^ len := Nat.mod_lt _ (Nat.two_pow_pos len)
  calc (place v lo len).toNat ≤ (v % 2 ^ len) * 2 ^ lo := by
        rw [place, BitVec.toNat_shiftLeft, BitVec.toNat_ofNat, Nat.shiftLeft_eq, Nat.one_shiftLeft]
        exact (Nat.mod_le _ _).trans (Nat.mul_le_mul_right _ (Nat.mod_le _ _))
    _ < 2 ^ len * 2 ^ lo := Nat.mul_lt_mul_of_pos_right hv (Nat.two_pow_pos lo)
    _ = 2 ^ (lo + len) := by rw [Nat.pow_add, Nat.mul_comm]
    _ ≤ 2 ^ k := Nat.pow_le_pow_right (by decide) h

theorem or_high {w r : W64} {k : Nat} (h : r.toNat < 2 ^ k) : (w ||| r).toNat / 2 ^ k = w.toNat / 2 ^ k := by
  rw [BitVec.toNat_or, Nat.or_div_two_pow, Nat.div_eq_of_lt h, Nat.or_zero]

theorem faultWord_cause (f : FaultInfo) (h : f.cause < 256) (core seq slot k : Nat) :
    (faultWord f core seq slot k).toNat / 2 ^ 56 = f.cause := by
  unfold faultWord
  rw [or_high (place_lt _ _ _ (by decide)), or_high (place_lt _ _ _ (by decide)), or_high (place_lt _ _ _ (by decide)),
    or_high (place_lt _ _ _ (by decide)), or_high (place_lt _ _ _ (by decide)), or_high (place_lt _ _ _ (by decide)),
    or_high (place_lt _ _ _ (by decide)), or_high (place_lt _ _ _ (by decide)), or_high (place_lt _ _ _ (by decide)),
    place, BitVec.toNat_shiftLeft, BitVec.toNat_ofNat, Nat.shiftLeft_eq, Nat.one_shiftLeft]
  omega

/-! ### A fault signalled -/

/-- A core that has raised a fault (R148). -/
def Core.faults (word : W64) (x : Core) : Core :=
  { x with faultWord := if x.faultWord = 0 then word else x.faultWord, halted := true, drains := true, fifo := [], waiting := none }

/-- A core of a partition that has a fault: 64 beats are left to it (R149). -/
def Core.graced (x : Core) : Core := if x.grace.isNone then { x with grace := some (x.beats + 64) } else x

/-- The first fault of a sequencer noted in its registers (R150). -/
def Sequencer.notes (word : W64) (issue : BitVec 48) (beats : Nat) (q : Sequencer) : Sequencer :=
  if q.fault0 = 0 then { q with fault0 := word, fault1 := issue, fault2 := BitVec.ofNat 64 beats } else q

/-- A sequencer of a partition that has a fault (R149). -/
def Sequencer.faulted (q : Sequencer) : Sequencer :=
  if q.state = .running ∨ q.state = .halting then { q with state := .faulted } else q

/-- A fault on its way to the collector of its partition (R150). -/
def Partition.signalled (e : Nat × SeqId × W64 × BitVec 48 × W64) (x : Partition) : Partition :=
  { x with fault := { x.fault with transit := x.fault.transit ++ [e] } }

/-- The cores once the one that raises a fault, if a core does, has halted. -/
def State.coresFaulted (s : State) (core : Option CoreId) (word : W64) : Vector Core 192 :=
  match core with
  | some c => updAt s.cores c (Core.faults word)
  | none => s.cores

/-- What a fault does to the sequencers and cores of its partition. -/
def State.stricken (s : State) (core : Option CoreId) (n : SeqId) (p : PartId) (word : W64) (issue : BitVec 48) (beats : Nat) :
    State :=
  { s with
    seqs := atAll (updAt s.seqs n (Sequencer.notes word issue beats)) s.parts[p].im.img.seqs fun _ => Sequencer.faulted
    cores := atAll (s.coresFaulted core word) (s.partCores p) fun _ => Core.graced }

/-- The transit entry of a fault. -/
def transitOf (core : Option CoreId) (n : SeqId) (word : W64) (issue : BitVec 48) (beats : Nat) :
    Nat × SeqId × W64 × BitVec 48 × W64 :=
  ((core.map (·.val)).getD 0xFF, n, word, issue, BitVec.ofNat 64 beats)

theorem PartImage.seqs_nodup (i : PartImage) : i.seqs.Nodup := (List.nodup_finRange 16).filter _

section
variable (s : State) (core : Option CoreId) (n : SeqId) (p : PartId) (word : W64) (issue : BitVec 48) (beats : Nat)

theorem State.stricken_parts : (s.stricken core n p word issue beats).parts = s.parts := rfl

theorem State.raiseFault_eq : s.raiseFault core (some n) (some p) word issue beats =
    (s.stricken core n p word issue beats).updPart p (Partition.signalled (transitOf core n word issue beats)) := by
  have e : s.raiseFault core (some n) (some p) word issue beats =
      let s2 := ({ s with cores := s.coresFaulted core word } : State).updSeq n (Sequencer.notes word issue beats)
      let s3 := s2.over s2.parts[p].im.img.seqs fun s m => s.updSeq m Sequencer.faulted
      (s3.over (s3.partCores p) fun s c => s.updCore c Core.graced).updPart p
        (Partition.signalled (transitOf core n word issue beats)) := by
    cases core <;> rfl
  rw [e]
  dsimp only
  rw [State.over_updSeq (PartImage.seqs_nodup _) fun _ => Sequencer.faulted,
    State.over_updCore (State.partCores_nodup _ p) fun _ => Core.graced]
  rfl

theorem State.raiseFault_only : OnlyPart p s (s.raiseFault core (some n) (some p) word issue beats) := by
  intro q hq
  rw [State.raiseFault_eq, State.updPart_parts, State.stricken_parts]
  exact updAt_elsewhere id s.parts (Ne.symm hq)

theorem State.raiseFault_part : (s.raiseFault core (some n) (some p) word issue beats).parts[p] =
    s.parts[p].signalled (transitOf core n word issue beats) := by
  rw [State.raiseFault_eq, State.updPart_parts, State.stricken_parts]
  exact updAt_self s.parts p _

theorem State.raiseFault_seqs : (s.raiseFault core (some n) (some p) word issue beats).seqs =
    atAll (updAt s.seqs n (Sequencer.notes word issue beats)) s.parts[p].im.img.seqs fun _ => Sequencer.faulted := by
  rw [State.raiseFault_eq]
  rfl

theorem State.raiseFault_cores : (s.raiseFault core (some n) (some p) word issue beats).cores =
    atAll (s.coresFaulted core word) (s.partCores p) fun _ => Core.graced := by
  rw [State.raiseFault_eq]
  rfl

theorem State.raiseFault_rest :
    { s.raiseFault core (some n) (some p) word issue beats with seqs := s.seqs, cores := s.cores, parts := s.parts } = s := by
  simp only [State.raiseFault_eq, State.stricken, State.updPart]

end

theorem Sequencer.faulted_active {q : Sequencer} (h : q.state = .running ∨ q.state = .halting) : q.faulted.state = .faulted := by
  unfold Sequencer.faulted
  rw [if_pos h]

theorem Sequencer.faulted_rest {q : Sequencer} (h : ¬(q.state = .running ∨ q.state = .halting)) : q.faulted = q := if_neg h

theorem Sequencer.faulted_keeps {β : Type} (g : Sequencer → β) (q : Sequencer) (h : ∀ st, g { q with state := st } = g q) :
    g q.faulted = g q := by
  unfold Sequencer.faulted
  split
  · exact h _
  · rfl

theorem Sequencer.notes_keeps {β : Type} (g : Sequencer → β) (q : Sequencer) (word : W64) (issue : BitVec 48) (beats : Nat)
    (h : ∀ a b c, g { q with fault0 := a, fault1 := b, fault2 := c } = g q) : g (q.notes word issue beats) = g q := by
  unfold Sequencer.notes
  split
  · exact h _ _ _
  · rfl

theorem Core.graced_keeps {β : Type} (g : Core → β) (x : Core) (h : ∀ k, g { x with grace := k } = g x) : g x.graced = g x := by
  unfold Core.graced
  split
  · exact h _
  · rfl

section
variable {s t : State} {core : Option CoreId} {n : SeqId} {p : PartId} {word : W64} {issue : BitVec 48} {beats : Nat}
  (ht : s.raiseFault core (some n) (some p) word issue beats = t)
include ht

theorem raiseFault_seq (m : SeqId) : t.seqs[m] = if m ∈ s.parts[p].im.img.seqs then
      (updAt s.seqs n (Sequencer.notes word issue beats))[m].faulted else (updAt s.seqs n (Sequencer.notes word issue beats))[m] := by
  rw [← ht, State.raiseFault_seqs, atAll_get]

/-- What neither the fault registers nor the state hold, a sequencer keeps. -/
theorem raiseFault_seq_keeps {β : Type} (g : Sequencer → β) (hf : ∀ q a b c, g { q with fault0 := a, fault1 := b, fault2 := c } = g q)
    (hs : ∀ q st, g { q with state := st } = g q) (m : SeqId) : g t.seqs[m] = g s.seqs[m] := by
  have hnotes := updAt_keeps g s.seqs n m fun q => Sequencer.notes_keeps g q word issue beats (hf q)
  rw [raiseFault_seq ht]
  split
  · rw [Sequencer.faulted_keeps g _ (hs _), hnotes]
  · exact hnotes

theorem raiseFault_state_active {m : SeqId} (hm : m ∈ s.parts[p].im.img.seqs)
    (ha : s.seqs[m].state = .running ∨ s.seqs[m].state = .halting) : t.seqs[m].state = .faulted := by
  have hnotes : (updAt s.seqs n (Sequencer.notes word issue beats))[m].state = s.seqs[m].state :=
    updAt_keeps Sequencer.state s.seqs n m fun q => Sequencer.notes_keeps _ q word issue beats fun _ _ _ => rfl
  rw [raiseFault_seq ht, if_pos hm]
  exact Sequencer.faulted_active (by rw [hnotes]; exact ha)

theorem raiseFault_state_rest {m : SeqId} (hr : ¬(s.seqs[m].state = .running ∨ s.seqs[m].state = .halting)) :
    t.seqs[m].state = s.seqs[m].state := by
  have hnotes : (updAt s.seqs n (Sequencer.notes word issue beats))[m].state = s.seqs[m].state :=
    updAt_keeps Sequencer.state s.seqs n m fun q => Sequencer.notes_keeps _ q word issue beats fun _ _ _ => rfl
  rw [raiseFault_seq ht]
  split
  · rw [Sequencer.faulted_rest (by rw [hnotes]; exact hr), hnotes]
  · exact hnotes

theorem raiseFault_fault0 : t.seqs[n].fault0 = if s.seqs[n].fault0 = 0 then word else s.seqs[n].fault0 := by
  have hnotes : (updAt s.seqs n (Sequencer.notes word issue beats))[n].fault0 =
      if s.seqs[n].fault0 = 0 then word else s.seqs[n].fault0 := by
    rw [Fin.getElem_fin, updAt_self]
    exact apply_ite Sequencer.fault0 _ _ _
  rw [raiseFault_seq ht]
  split
  · rw [Sequencer.faulted_keeps Sequencer.fault0 _ fun _ => rfl, hnotes]
  · exact hnotes

theorem raiseFault_transit : t.parts[p].fault.transit = s.parts[p].fault.transit ++ [transitOf core n word issue beats] := by
  rw [← ht, State.raiseFault_part]
  rfl

theorem raiseFault_image (q : PartId) : t.parts[q].im = s.parts[q].im ∧ t.parts[q].claims? = s.parts[q].claims? := by
  by_cases h : q = p
  · subst h
    rw [← ht, State.raiseFault_part]
    exact ⟨rfl, rfl⟩
  · rw [← ht, State.raiseFault_only s core n p word issue beats q h]
    exact ⟨rfl, rfl⟩

theorem raiseFault_holder (m : SeqId) : t.seqHolder m = s.seqHolder m := by
  unfold State.seqHolder
  refine congrArg (fun f => List.find? f (allFin 16)) (funext fun q => ?_)
  obtain ⟨him, hclaims⟩ := raiseFault_image ht q
  rw [him, hclaims]

end

end Sys2Proof.Machine

/-! SUPPORT. The end of a program item, the halt of a sequencer, links between cores (06 R143, R150, R153). -/

namespace Sys2Proof.Machine

/-! ### The end of a program item -/

/-- A sequencer that a program item leaves. -/
def Sequencer.leftBy (id : Nat) (q : Sequencer) : Sequencer := { q with item := if q.item = some id then none else q.item }

/-- A state without a program item. -/
def State.withoutProgram (s : State) (x : Program) : State :=
  { s with
    programs := s.programs.filter fun y => y.id != x.id
    seqs := x.seqs.foldl (fun v n => updAt v n (Sequencer.leftBy x.id)) s.seqs }

/-- The record of a program item that ends. -/
def Program.record (x : Program) (o : OutcomeCode) (detail : W64) (inc : W32) : Record :=
  { tag := x.tag, step := x.step, outcome := o, engine := 0x02, partition := x.part, detail0 := detail, incident := inc }

/-- A fault on its way is no further cause of a program that is DONE, nor of one that a fault ends (R11). -/
theorem State.programEnd_same (s : State) (x : Program) {o : OutcomeCode} (h : joinCause o 0 .failedSchedule = (o, 0)) (d : W64) :
    s.programEnd x o d = (o, 0, d) := by
  unfold State.programEnd
  split
  · rfl
  · rw [h]
    exact congrArg (fun e => (o, 0, e)) (if_pos rfl)

theorem State.endProgram_eq (s : State) (x : Program) {o : OutcomeCode} (h : joinCause o 0 .failedSchedule = (o, 0)) (d : W64)
    (inc : W32) : s.endProgram x o d inc = (s.withoutProgram x).post x.part (x.record o d inc) x.raiseV0 := by
  unfold State.endProgram
  rw [s.programEnd_same x h]
  exact congrArg (fun t => State.post t x.part (x.record o d inc) x.raiseV0)
    (State.over_updSeq_foldl x.seqs (fun _ => Sequencer.leftBy x.id) _)

theorem joinCause_done : joinCause .done 0 .failedSchedule = (.done, 0) := by decide

theorem joinCause_failedSchedule : joinCause .failedSchedule 0 .failedSchedule = (.failedSchedule, 0) := by decide

/-! ### HALT (R153) -/

theorem State.departClosing_none {s : State} {p : PartId} (h : s.parts[p].storm.closing = none) (n : SeqId) :
    s.departClosing p n = s := by
  have hsame : s.updStorm p (fun x => { x with
      closing := x.closing.map fun l => l.filter fun c => !(s.seqCores n).contains c || x.closes.any fun e => e.1 == c }) = s := by
    refine congrArg (fun v => { s with parts := v }) (updAt_id s.parts p ?_)
    dsimp only
    rw [h]
    exact congrArg (fun v => { s.parts[p] with storm := { s.parts[p].storm with closing := v } }) h.symm
  have hdue : s.verdictDue p = false := by
    unfold State.verdictDue
    rw [h, Bool.and_false]
  unfold State.departClosing
  dsimp only
  rw [hsame, hdue]
  rfl

/-- A partition whose interlude ends unless `b`. -/
def Partition.keepsInterlude (b : Bool) (y : Partition) : Partition :=
  { y with run := { y.run with interlude := y.run.interlude && b } }

theorem State.tryEndProgram_idle {s : State} {x : Program} {id : Nat} (p : PartId)
    (hfind : s.programs.find? (fun y => y.id == id) = some x) (hidle : ∀ n ∈ x.seqs, s.seqs[n].state = .idle) :
    ∃ b, s.tryEndProgram p id =
      ((s.withoutProgram x).post x.part (x.record .done 0 0) x.raiseV0).updPart p (Partition.keepsInterlude b) := by
  have hall : (x.seqs.all fun n => s.seqs[n].state == .idle) = true :=
    List.all_eq_true.mpr fun n hn => beq_iff_eq.mpr (hidle n hn)
  refine ⟨(s.endProgram x .done 0 0).programs.any fun z => z.part == p && z.region, ?_⟩
  rw [← s.endProgram_eq x joinCause_done]
  unfold State.tryEndProgram
  rw [hfind]
  exact if_pos hall

/-- A program item DONE: gone from the list and from its sequencers, its record formed. -/
theorem State.tryEndProgram_done {s : State} {x : Program} (hfind : s.programs.find? (fun y => y.id == x.id) = some x)
    (hidle : ∀ n ∈ x.seqs, s.seqs[n].state = .idle) :
    Formed x.part (x.record .done 0 0) x.raiseV0 s (s.tryEndProgram x.part x.id) ∧
      OnlyPart x.part s (s.tryEndProgram x.part x.id) ∧
      (s.tryEndProgram x.part x.id).seqs = (s.withoutProgram x).seqs ∧
      (s.tryEndProgram x.part x.id).programs = (s.withoutProgram x).programs ∧
      (s.tryEndProgram x.part x.id).cores = s.cores ∧ (s.tryEndProgram x.part x.id).xfers = s.xfers := by
  obtain ⟨b, e⟩ := State.tryEndProgram_idle x.part hfind hidle
  obtain ⟨hformed, -, honly, -, hrest⟩ :=
    State.post_recorded (s := s.withoutProgram x) (p := x.part) (x.record .done 0 0) x.raiseV0 rfl rfl
  rw [e]
  refine ⟨Formed.congr hformed rfl rfl rfl rfl ?_ ?_ rfl, fun q hq => (State.updPart_other _ hq _).trans (honly q hq),
    (congrArg State.seqs hrest : _), (congrArg State.programs hrest : _), (congrArg State.cores hrest : _),
    (congrArg State.xfers hrest : _)⟩
  all_goals
    rw [State.updPart_self]
    rfl

/-! ### LEFTOVER (R150, R153) -/

theorem State.leftover_none {s : State} {c : CoreId} (h : ∀ q : QId, s.cores[c].queues[q].entries = []) (n : SeqId) :
    s.leftover n c = none := by
  have hfind : ((allFin 32).find? fun i => !s.cores[c].queues[i].entries.isEmpty) = none :=
    List.find?_eq_none.mpr fun i _ => by simp [h i, -Fin.getElem_fin]
  unfold State.leftover
  dsimp only
  rw [hfind]

theorem State.leftover_some {s : State} {c : CoreId} {q : QId} (h : s.cores[c].queues[q].entries ≠ []) (n : SeqId) :
    ∃ w, s.leftover n c = some w := by
  unfold State.leftover
  dsimp only
  split
  · rename_i hnone
    have := List.find?_eq_none.mp hnone q (List.mem_finRange q)
    exact absurd (by simpa [-Fin.getElem_fin] using this) h
  · rename_i i hsome
    have := List.find?_some hsome
    split
    · rename_i hnil
      simp [hnil, -Fin.getElem_fin] at this
    · exact ⟨_, rfl⟩

theorem State.leftover_cause {s : State} {c : CoreId} {n : SeqId} {w : W64} (h : s.leftover n c = some w) :
    w.toNat / 2 ^ 56 = 0x0A := by
  unfold State.leftover at h
  dsimp only at h
  split at h
  · cases h
  · split at h
    · cases h
    · cases h
      exact faultWord_cause _ (show 0x0A < 256 by decide) ..

/-- Faults of cause `b` signalled by sequencer `n` of partition `p`. -/
structure State.Faults (n : SeqId) (p : PartId) (b : Nat) (s t : State) : Prop where
  only : OnlyPart p s t
  programs : t.programs = s.programs
  holder : t.seqHolder n = s.seqHolder n
  image : t.parts[p].im = s.parts[p].im
  longer : s.parts[p].fault.transit.length < t.parts[p].fault.transit.length
  state : s.seqs[n].state = .running ∨ s.seqs[n].state = .halting ∨ s.seqs[n].state = .faulted → t.seqs[n].state = .faulted
  cause : s.seqs[n].fault0 = 0 ∨ s.seqs[n].fault0.toNat / 2 ^ 56 = b → t.seqs[n].fault0.toNat / 2 ^ 56 = b

section
variable {n : SeqId} {p : PartId} {b : Nat} {s t u : State}

theorem State.Faults.trans (h : s.Faults n p b t) (k : t.Faults n p b u) : s.Faults n p b u where
  only q hq := (k.only q hq).trans (h.only q hq)
  programs := k.programs.trans h.programs
  holder := k.holder.trans h.holder
  image := k.image.trans h.image
  longer := Nat.lt_trans h.longer k.longer
  state hs := k.state (.inr (.inr (h.state hs)))
  cause hs := k.cause (.inr (h.cause hs))

theorem State.raiseFault_faults {word : W64} (hw : word.toNat / 2 ^ 56 = b) (hn : n ∈ s.parts[p].im.img.seqs) (core : Option CoreId)
    (issue : BitVec 48) (beats : Nat) : s.Faults n p b (s.raiseFault core (some n) (some p) word issue beats) where
  only := State.raiseFault_only s core n p word issue beats
  programs := (congrArg State.programs (State.raiseFault_rest s core n p word issue beats) : _)
  holder := raiseFault_holder rfl n
  image := (raiseFault_image rfl p).1
  longer := by
    rw [raiseFault_transit rfl, List.length_append]
    exact Nat.lt_succ_self _
  state hs := by
    obtain hr | hh | hf := hs
    · exact raiseFault_state_active rfl hn (.inl hr)
    · exact raiseFault_state_active rfl hn (.inr hh)
    · rw [raiseFault_state_rest rfl (by rw [hf]; exact nofun), hf]
  cause hs := by
    rw [raiseFault_fault0 rfl]
    split
    · exact hw
    · rename_i hne
      exact hs.resolve_left hne

/-- The faults of one sequencer signalled one after another. -/
theorem State.over_faults {α : Type} {word : α → W64} {core : α → CoreId} {issue : State → BitVec 48} {beats : State → α → Nat}
    {l : List α} (hl : l ≠ []) (hw : ∀ e ∈ l, (word e).toNat / 2 ^ 56 = b) (hh : s.seqHolder n = some p)
    (hn : n ∈ s.parts[p].im.img.seqs) : s.Faults n p b
      (s.over l fun s e => s.raiseFault (some (core e)) (some n) (s.seqHolder n) (word e) (issue s) (beats s e)) := by
  induction l generalizing s with
  | nil => exact absurd rfl hl
  | cons e l ih =>
    have hstep : s.Faults n p b (s.raiseFault (some (core e)) (some n) (s.seqHolder n) (word e) (issue s) (beats s e)) := by
      rw [hh]
      exact State.raiseFault_faults (hw e List.mem_cons_self) hn _ _ _
    cases l with
    | nil => exact hstep
    | cons e' l =>
      exact hstep.trans (ih (List.cons_ne_nil e' l) (fun x hx => hw x (List.mem_cons_of_mem e hx))
        (hstep.holder.trans hh) (by rw [hstep.image]; exact hn))

end

end Sys2Proof.Machine

/-! SUPPORT. PROGRAM_HALT_COMPLETE and CROSS_CORE_MOVE, and with the fetch and the issue of bundles the sequencers (06 R132
to R153). -/

namespace Sys2Proof.Machine

/-! ### PROGRAM_HALT_COMPLETE (R153) -/

/-- The LEFTOVER faults of a halted sequencer, core by core. -/
def State.leftovers (s : State) (n : SeqId) : List (CoreId × W64) :=
  (s.seqCores n).filterMap fun c => (s.leftover n c).map fun w => (c, w)

/-- A sequencer that is IDLE and of no program. -/
def Sequencer.rested (q : Sequencer) : Sequencer := { q with state := .idle, item := none }

section
variable {s : State} {n : SeqId}

theorem State.leftovers_none (h : ∀ c ∈ s.seqCores n, ∀ q : QId, s.cores[c].queues[q].entries = []) : s.leftovers n = [] :=
  List.filterMap_eq_nil_iff.mpr fun c hc => by rw [State.leftover_none (h c hc) n, Option.map_none]

theorem State.leftovers_some (h : ∃ c ∈ s.seqCores n, ∃ q : QId, s.cores[c].queues[q].entries ≠ []) : s.leftovers n ≠ [] := by
  obtain ⟨c, hc, q, hq⟩ := h
  obtain ⟨w, hw⟩ := State.leftover_some hq n
  exact List.ne_nil_of_mem (List.mem_filterMap.mpr ⟨c, hc, by rw [hw, Option.map_some]⟩)

theorem State.leftovers_cause {e : CoreId × W64} (he : e ∈ s.leftovers n) : e.2.toNat / 2 ^ 56 = 0x0A := by
  obtain ⟨c, -, hc⟩ := List.mem_filterMap.mp he
  obtain ⟨w, hw, rfl⟩ := Option.map_eq_some_iff.mp hc
  exact State.leftover_cause hw

theorem exec_programHaltComplete_none (h : s.seqs[n].state ≠ .halting ∨ s.haltDrained n = false) :
    exec (.programHaltComplete n) s = .next s := by
  refine congrArg Host.Outcome.next (if_neg fun hc => ?_)
  obtain ⟨hstate, hdrained⟩ := Bool.and_eq_true_iff.mp hc
  obtain h | h := h
  · exact h (beq_iff_eq.mp hstate)
  · exact absurd hdrained (by rw [h]; exact nofun)

section
variable (hstate : s.seqs[n].state = .halting) (hdrained : s.haltDrained n = true)
include hstate hdrained

theorem exec_programHaltComplete_clean {p : PartId} {id : Nat} (hclean : s.leftovers n = []) (hholder : s.seqHolder n = some p)
    (hitem : s.seqs[n].item = some id) (hclosing : s.parts[p].storm.closing = none) : exec (.programHaltComplete n) s =
      .next ((s.updSeq n fun q => { q with state := .idle }).tryEndProgram p id) := by
  have hdepart := State.departClosing_none (s := s.updSeq n fun q => { q with state := .idle }) hclosing n
  refine congrArg Host.Outcome.next ((if_pos (Bool.and_eq_true_iff.mpr ⟨beq_iff_eq.mpr hstate, hdrained⟩)).trans ?_)
  rw [show (s.seqCores n).filterMap (fun c => (s.leftover n c).map fun w => (c, w)) = [] from hclean]
  dsimp only
  rw [hholder, hitem]
  dsimp only
  rw [hdepart]

theorem exec_programHaltComplete_left (hleft : s.leftovers n ≠ []) : exec (.programHaltComplete n) s =
    .next (s.over (s.leftovers n) fun s e => s.raiseFault (some e.1) (some n) (s.seqHolder n) e.2
      (BitVec.ofNat 48 s.seqs[n].issueCount) s.cores[e.1].beats) := by
  refine congrArg Host.Outcome.next ((if_pos (Bool.and_eq_true_iff.mpr ⟨beq_iff_eq.mpr hstate, hdrained⟩)).trans ?_)
  change (match s.leftovers n with | [] => _ | l => _) = _
  cases hl : s.leftovers n with
  | nil => exact absurd hl hleft
  | cons e l => rfl

end

/-- Each sequencer of a program of one sequencer is out of the program. -/
theorem State.withoutProgram_one {s : State} {x : Program} {n : SeqId} (hseqs : x.seqs = [n]) (hitem : s.seqs[n].item = some x.id) :
    ((s.updSeq n fun q => { q with state := .idle }).withoutProgram x).seqs = updAt s.seqs n Sequencer.rested := by
  have e : ((s.updSeq n fun q => { q with state := .idle }).withoutProgram x).seqs =
      updAt (updAt s.seqs n fun q => { q with state := .idle }) n (Sequencer.leftBy x.id) := by
    unfold State.withoutProgram
    rw [hseqs]
    rfl
  rw [e, updAt_twice]
  refine updAt_congr ?_
  unfold Sequencer.leftBy Sequencer.rested
  dsimp only
  rw [if_pos hitem]

/-- A drained sequencer with empty queue ends ends its program DONE. -/
theorem programHaltComplete_done {x : Program} (hstate : s.seqs[n].state = .halting) (hdrained : s.haltDrained n = true)
    (hholder : s.seqHolder n = some x.part) (hseqs : x.seqs = [n]) (hitem : s.seqs[n].item = some x.id)
    (hfind : s.programs.find? (fun y => y.id == x.id) = some x) (hclosing : s.parts[x.part].storm.closing = none)
    (hempty : ∀ c ∈ s.seqCores n, ∀ q : QId, s.cores[c].queues[q].entries = []) :
    ∃ t, exec (.programHaltComplete n) s = .next t ∧ t.seqs = updAt s.seqs n Sequencer.rested ∧
      t.programs = s.programs.filter (fun y => y.id != x.id) ∧ Formed x.part (x.record .done 0 0) x.raiseV0 s t ∧
      t.cores = s.cores ∧ t.xfers = s.xfers ∧ OnlyPart x.part s t := by
  obtain ⟨hformed, honly, htseqs, hprograms, hcores, hxfers⟩ :=
    State.tryEndProgram_done (s := s.updSeq n fun q => { q with state := .idle }) hfind fun m hm => by
      rw [hseqs, List.mem_singleton] at hm
      rw [hm]
      exact congrArg Sequencer.state (updAt_self s.seqs n _)
  exact ⟨_, exec_programHaltComplete_clean hstate hdrained (State.leftovers_none hempty) hholder hitem hclosing,
    htseqs.trans (State.withoutProgram_one hseqs hitem), hprograms, hformed, hcores, hxfers, honly⟩

theorem programHaltComplete_faults {p : PartId} (hstate : s.seqs[n].state = .halting) (hdrained : s.haltDrained n = true)
    (hholder : s.seqHolder n = some p) (hn : n ∈ s.parts[p].im.img.seqs)
    (hleft : ∃ c ∈ s.seqCores n, ∃ q : QId, s.cores[c].queues[q].entries ≠ []) :
    ∃ t, exec (.programHaltComplete n) s = .next t ∧ s.Faults n p 0x0A t :=
  ⟨_, exec_programHaltComplete_left hstate hdrained (State.leftovers_some hleft),
    State.over_faults (word := Prod.snd) (core := Prod.fst) (issue := fun s => BitVec.ofNat 48 s.seqs[n].issueCount)
      (beats := fun s e => s.cores[e.1].beats) (State.leftovers_some hleft) (fun _ he => State.leftovers_cause he) hholder hn⟩

end

/-! ### CROSS_CORE_MOVE (R142, R143) -/

section
variable {s : State} {c far : CoreId} {q fq : QId} {x : Entry} {r : List Entry} (hx : s.cores[c].queues[q].entries = x :: r)
  (hlive : s.coreLive c = true) (hport : bits s.cores[c].queues[q].topo 48 8 = portXCO) (hin : bits s.cores[c].queues[q].topo 40 8 < 192)
  (hfar : coreOf (bits s.cores[c].queues[q].topo 40 8) = far) (hfq : qOf (bits s.cores[c].queues[q].topo 35 5) = fq)
include hx hlive hport hin hfar hfq

theorem exec_crossCoreMove : exec (.crossCoreMove c q) s = .next (if s.cores[far].queues[fq].entries.length < 8 then
      (s.updCore c fun y => { y with queues := updAt y.queues q fun k => { k with entries := r } }).updCore far fun y =>
        { y with queues := updAt y.queues fq fun k => { k with entries := k.entries ++ [x] } }
    else s) := by
  subst hfar hfq
  refine congrArg Host.Outcome.next ?_
  dsimp only
  rw [hx]
  exact if_congr ⟨fun ⟨_, _, _, hroom⟩ => hroom, fun hroom => ⟨hlive, hport, hin, hroom⟩⟩ rfl rfl

end

/-- Two cores updated: the first, the second, and no other. -/
theorem State.updCore_pair (s : State) {c d : CoreId} (h : d ≠ c) (f g : Core → Core) :
    ((s.updCore c f).updCore d g).cores[d] = g s.cores[d] ∧ ((s.updCore c f).updCore d g).cores[c] = f s.cores[c] ∧
      (∀ e, e ≠ c → e ≠ d → ((s.updCore c f).updCore d g).cores[e] = s.cores[e]) := by
  have hother (t : State) (i j : CoreId) (hij : j ≠ i) (k : Core → Core) : (t.updCore i k).cores[j] = t.cores[j] :=
    updAt_elsewhere id t.cores hij.symm
  refine ⟨?_, ?_, fun e hc hd => ?_⟩
  · rw [State.updCore_self, hother s c d h]
  · rw [hother _ d c h.symm, State.updCore_self]
  · rw [hother _ d e hd, hother s c e hc]

/-- Settles O27: the fetch by `MayFetch.goes` and `Sequencer.flow`, the issue by `State.issued_leaves`, the halt by
`programHaltComplete_done` and `programHaltComplete_faults`. -/
theorem sequencersIssueInProgramOrder : Obligations.SequencersIssueInProgramOrder := by
  refine ⟨fun s n h => ⟨fun hflow hin => ?_, fun l t hflow hl hlast => ⟨fun hleft => ?_, fun hleft hin => ?_⟩, fun e k hflow hroom => ?_,
      fun a hflow hlow hhigh hloops => ?_, fun hflow => h.halts hflow⟩,
    fun s n h => exec_sequencerFetch_waits h, fun s n h => exec_sequencerFetch_corrected h,
    fun s c w k l hr hg hw => ⟨fun hwait hf he hgrace hv hb hi => ?_, fun v hv hholds hb => ?_⟩,
    fun s c h => congrArg Host.Outcome.next (State.nextBundle_none h),
    fun s n p x hstate hdrained hholder hseqs hpart hitem hfind hclosing => ⟨fun hempty => ?_, fun hleft hn => ?_⟩,
    fun s n h => exec_programHaltComplete_none h, fun s c q x r hx hlive => ?_⟩
  · refine h.goes (l := s.seqs[n].loops) ?_
    rw [hflow]
    exact Sequencer.flow_none (loopEnds_inside hin _)
  · refine h.goes ?_
    rw [hflow]
    refine Sequencer.flow_none ?_
    rw [hl]
    exact loopEnds_again t _ hlast hleft
  · refine h.goes ?_
    rw [hflow]
    refine Sequencer.flow_none ?_
    rw [hl, loopEnds_over t _ hlast hleft]
    exact loopEnds_inside hin _
  · obtain ⟨hpast, hends, hin⟩ := hroom
    have hstep : s.seqs[n].flow (bundleOf (Sparse.getD s.seqs[n].imem s.seqs[n].pc 0)).flow s.seqs[n].pc =
        s.seqs[n].flow (.loop e k) s.seqs[n].pc := by
      obtain hloop | ⟨a, hloopa, rfl⟩ := hflow
      · rw [hloop]
      · rw [hloopa]
        exact Sequencer.flow_loopa ..
    refine ⟨fun hk hdeep => h.goes ?_, fun hk => h.goes (l := s.seqs[n].loops) ?_⟩
    · rw [hstep, Sequencer.flow_loop hpast hends hin (.inr hdeep), if_neg (Nat.ne_of_gt hk)]
    · rw [hstep, Sequencer.flow_loop hpast hends hin (.inl hk), if_pos hk]
  · refine h.goes (l := s.seqs[n].loops) ?_
    rw [hflow]
    exact Sequencer.flow_jump hlow hhigh hloops
  · refine State.Leaves.becomes (State.issued_leaves (bundleOf w) rfl hf he hgrace hv hb hi) ?_
    rw [exec_bundleIssue, State.nextBundle_issues hr hw hwait]
  · refine ⟨_, exec_bundleIssue s c, ?_⟩
    rw [State.nextBundle_plain hr hw hv hb, if_neg (by rw [hholds]; exact nofun)]
    refine ⟨s.updCore_only c _, ?_⟩
    rw [s.updCore_self]
  · subst hpart
    exact programHaltComplete_done hstate hdrained hholder hseqs hitem hfind hclosing hempty
  · obtain ⟨t, ht, hfaults⟩ := programHaltComplete_faults hstate hdrained hholder hn hleft
    exact ⟨t, ht, hfaults.state (.inr (.inl hstate)), fun h0 => hfaults.cause (.inl h0), hfaults.longer, hfaults.programs, hfaults.only⟩
  · intro o far fq hport hin hne
    have hmove := exec_crossCoreMove (far := far) (fq := fq) hx hlive ((bits_eq ..).trans hport) (by rw [bits_eq]; exact hin)
      (congrArg coreOf (bits_eq ..)) (congrArg qOf (bits_eq ..))
    refine ⟨fun hroom => ?_, fun hfull => ?_⟩
    · rw [hmove, if_pos hroom]
      obtain ⟨hd, hc, hrest⟩ := s.updCore_pair hne
        (fun y => { y with queues := updAt y.queues q fun k => { k with entries := r } })
        fun y => { y with queues := updAt y.queues fq fun k => { k with entries := k.entries ++ [x] } }
      exact ⟨_, rfl, hd, hc, hrest, rfl⟩
    · rw [hmove, if_neg (Nat.not_lt.mpr hfull)]

end Sys2Proof.Machine

/-! SUPPORT. A load that raises PORT, the faults a sequencer raises itself, and the collector (06 R148 to R150). -/

namespace Sys2Proof.Machine

/-! ### The beat of a bundle that raises a fault -/

theorem Core.stopAtGrace_graced {x : Core} (h : x.grace = none) : x.graced.stopAtGrace = x.graced := by
  unfold Core.graced Core.stopAtGrace
  simp [h]

section
variable {s : State} {c : CoreId} {b : Beat} {slot : Nat} {f : FaultInfo} (hf : b.faults = [(slot, f)]) (he : b.exts = [])
  (hv : b.new.vx.storms = s.cores[c].vx.storms) (hi : ∀ g ∈ b.new.inflight, b.new.beats < g.due)
include hf he hv hi

/-- A bundle one slot of which raises a fault, nothing else falling due: its beat, and the fault signalled. -/
theorem State.afterSlots_fault (seq : BitVec 12) (n : BitVec 48) : ∃ t, OnlyCore c s t ∧
    t.cores[c] = { b.new.pruned with beats := b.new.beats + 1 } ∧
    s.afterSlots c 0 seq n b = (t.raiseFault (some c) (s.driverOf c) (s.coreHolder c) (coreFaultWord c f slot seq n) n
      s.cores[c].beats).updCore c Core.stopAtGrace := by
  have hend := b.new.endBeat_quiet s.epoch hi
  generalize hy : ({ b.new.pruned with beats := b.new.beats + 1 } : Core) = y at hend ⊢
  have hkeep : s.keepReports c y = y := s.keepReports_same c y (hy ▸ hv)
  generalize ht : (({ s with freeCount := s.freeCount + 1 } : State).updCore c fun _ => y).countBeats c 1 = t
  have hfree : OnlyCore c s { s with freeCount := s.freeCount + 1 } := ⟨fun _ _ => rfl, fun _ => rfl, rfl⟩
  have honly : OnlyCore c s t :=
    ht ▸ (hfree.trans (State.updCore_only _ c _)).trans (State.countBeats_onlyCore _ c 1)
  refine ⟨t, honly, ?_, ?_⟩
  · rw [← ht, (State.countBeats_only _ c 1).1]
    exact State.updCore_self _ c _
  · have hbeat : t.beatFaults c s.cores[c].beats [(slot, coreFaultWord c f slot seq n, n)] =
        t.raiseFault (some c) (t.driverOf c) (t.coreHolder c) (coreFaultWord c f slot seq n) n s.cores[c].beats := rfl
    rw [← honly.driverOf c, ← honly.coreHolder c, ← hbeat]
    unfold State.afterSlots
    simp only [hend, hf, he, hkeep, ht, pushFaults, List.map_nil, List.map_cons, List.append_nil, State.over_nil, State.emptyBeats]

end

/-! ### The core that a fault halts -/

section
variable {s : State} {c : CoreId} {n : SeqId} {p : PartId} {word : W64} {issue : BitVec 48} {beats : Nat}

theorem raiseFault_core (d : CoreId) : (s.raiseFault (some c) (some n) (some p) word issue beats).cores[d] =
    if d ∈ s.partCores p then (updAt s.cores c (Core.faults word))[d].graced else (updAt s.cores c (Core.faults word))[d] := by
  rw [State.raiseFault_cores, atAll_get]
  rfl

/-- But for the beats left to it, the core is as its fault leaves it. -/
theorem raiseFault_core_keeps {β : Type} (g : Core → β) (h : ∀ x k, g { x with grace := k } = g x) :
    g (s.raiseFault (some c) (some n) (some p) word issue beats).cores[c] = g (s.cores[c].faults word) := by
  rw [raiseFault_core, Fin.getElem_fin, updAt_self]
  split
  · exact Core.graced_keeps g _ (h _)
  · rfl

theorem raiseFault_core_other {d : CoreId} (hd : d ∉ s.partCores p) (hc : d ≠ c) :
    (s.raiseFault (some c) (some n) (some p) word issue beats).cores[d] = s.cores[d] := by
  rw [raiseFault_core, if_neg hd]
  exact updAt_elsewhere id s.cores hc.symm

/-- The core that raised the first fault of its partition has beats left. -/
theorem raiseFault_updCore_stopAtGrace (hg : s.cores[c].grace = none) :
    (s.raiseFault (some c) (some n) (some p) word issue beats).updCore c Core.stopAtGrace =
      s.raiseFault (some c) (some n) (some p) word issue beats := by
  have hfaults : (s.cores[c].faults word).grace = none := hg
  refine congrArg (fun v => { s.raiseFault (some c) (some n) (some p) word issue beats with cores := v }) (updAt_id _ c ?_)
  rw [raiseFault_core, Fin.getElem_fin, updAt_self]
  split
  · exact Core.stopAtGrace_graced hfaults
  · exact Core.stopAtGrace_of_none hfaults

end

/-! ### LDQ to a queue end of another port (R148) -/

theorem Beat.run_fault {b : Beat} {slot : Nat} {f : FaultInfo} (l : List Check) (eff : Beat → Beat) :
    b.run slot (some f :: l) eff = { b with slot := slot, faults := b.faults ++ [(slot, f)] } := rfl

theorem portCheckPush_other {x : Core} {q : QId} {port : Nat} (h : topoPush x.queues[q].topo ≠ port) :
    portCheckPush x q port = some { cause := 0x05, queue := q.val } := if_neg h

/-- The core in the issue beat of a lone operation. -/
def Core.lone (x : Core) : Core := { x with curSeq := 0, curIssue := 0 }

section
variable {s : State} {c : CoreId} {x : LqArgs} (hport : topoPush s.cores[c].queues[x.q.q].topo ≠ if x.portB then 0x02 else 0x01)
include hport

theorem loneBeat_ldq_port : ((loneBeat s c).bundle { loadBundle (.one x) with version := 1 }).faults =
      [(3, { cause := 0x05, queue := x.q.q.val })] ∧
    ((loneBeat s c).bundle { loadBundle (.one x) with version := 1 }).exts = [] ∧
    ((loneBeat s c).bundle { loadBundle (.one x) with version := 1 }).new = s.cores[c].lone := by
  have e : (loneBeat s c).bundle { loadBundle (.one x) with version := 1 } = (loneBeat s c).load (.one x) := rfl
  have hcheck : portCheckPush (loneBeat s c).old x.q.q (if x.portB then portLDB else portLDA) =
      some { cause := 0x05, queue := x.q.q.val } := portCheckPush_other hport
  have hload : (loneBeat s c).load (.one x) = { loneBeat s c with
      slot := 3, faults := (loneBeat s c).faults ++ [(3, { cause := 0x05, queue := x.q.q.val })] } := by
    unfold Beat.load
    dsimp only
    rw [hcheck, Beat.run_fault]
  rw [e, hload]
  exact ⟨rfl, rfl, rfl⟩

/-- The fault of a load to a queue end of another port, its core's beat completed. -/
theorem exec_ldq_port {n : SeqId} {p : PartId} (hopen : CoreOpen s c) (hp : s.coreHolder c = some p) (hn : s.driverOf c = some n)
    (hwf : (Instr.ldq c x).wf = true) : ∃ t, OnlyCore c s t ∧
      t.cores[c] = { s.cores[c].lone.pruned with beats := s.cores[c].beats + 1 } ∧
      exec (.ldq c x) s = .next (t.raiseFault (some c) (some n) (some p)
        (faultWord { cause := 0x05, queue := x.q.q.val } c.val 0 3 0) 0 s.cores[c].beats) := by
  obtain ⟨hready, hfifo, hgrace, hdue⟩ := hopen
  obtain ⟨hf, he, hnew⟩ := loneBeat_ldq_port hport
  obtain ⟨t, honly, hcore, e⟩ := State.afterSlots_fault (s := s) (c := c) hf he (by rw [hnew]; rfl)
    (by rw [hnew]; exact hdue) 0 0
  rw [hnew] at hcore
  have hok : memOpOk false (.one x) = true := hwf
  have hsingle : s.single c (memOpOk false (.one x)) (loadBundle (.one x)) =
      s.afterSlots c 0 0 0 ((loneBeat s c).bundle { loadBundle (.one x) with version := 1 }) :=
    if_pos (by rw [hready, hfifo, hok]; rfl)
  refine ⟨t, honly, hcore, congrArg Host.Outcome.next (hsingle.trans (e.trans ?_))⟩
  rw [hp, hn]
  exact raiseFault_updCore_stopAtGrace (by rw [hcore]; exact hgrace)

end

/-! ### FLOW and IMEM (R147, R178) -/

/-- The word of a fault that a sequencer raises itself. -/
def State.flowWord (s : State) (n : SeqId) (i cause : Nat) : W64 :=
  faultWord { cause := cause } 0xFF (i % 4096) 5 ((BitVec.ofNat 48 (s.seqs[n].issueCount + 1)).toNat % 4096)

section
variable {s : State} {n : SeqId} {p : PartId} (hp : s.seqHolder n = some p)
include hp

theorem State.flowFault_eq (i cause : Nat) : ∃ issue beats, s.flowFault n i cause =
    s.raiseFault none (some n) (some p) (s.flowWord n i cause) issue beats := by
  rw [← hp]
  exact ⟨_, _, rfl⟩

/-- A fault that a running sequencer raises itself: FAULTED, nothing issued. -/
theorem State.flowFault_spec (hn : n ∈ s.parts[p].im.img.seqs) (hrun : s.seqs[n].state = .running) (i : Nat) {cause : Nat}
    (hc : cause < 256) : (s.flowFault n i cause).seqs[n].state = .faulted ∧
      (s.flowFault n i cause).seqs[n].issueCount = s.seqs[n].issueCount ∧
      (s.seqs[n].fault0 = 0 → (s.flowFault n i cause).seqs[n].fault0.toNat / 2 ^ 56 = cause) ∧
      (∀ c : CoreId, (s.flowFault n i cause).cores[c].fifo = s.cores[c].fifo) ∧
      OnlyPart p s (s.flowFault n i cause) ∧ (s.flowFault n i cause).host = s.host := by
  obtain ⟨issue, beats, e⟩ := State.flowFault_eq hp i cause
  have hfaults := State.raiseFault_faults (faultWord_cause { cause := cause } hc 0xFF (i % 4096) 5
    ((BitVec.ofNat 48 (s.seqs[n].issueCount + 1)).toNat % 4096)) hn none issue beats
  rw [e]
  refine ⟨hfaults.state (.inl hrun), raiseFault_seq_keeps rfl Sequencer.issueCount (fun _ _ _ _ => rfl) (fun _ _ => rfl) n,
    fun h0 => hfaults.cause (.inl h0), fun c => ?_, hfaults.only,
    (congrArg State.host (State.raiseFault_rest s none n p _ issue beats) : _)⟩
  rw [State.raiseFault_cores, atAll_get]
  split
  · exact Core.graced_keeps Core.fifo _ fun _ => rfl
  · rfl

end

theorem exec_sequencerFetch_outside {s : State} {n : SeqId} (hrun : s.seqs[n].state = .running)
    (hroom : ∀ c ∈ s.seqCores n, s.cores[c].fifo.length < 16) (hmain : s.seqs[n].region = false) (hpc : s.seqs[n].split ≤ s.seqs[n].pc)
    (e : ImemEcc) : exec (.sequencerFetch ⟨n, e⟩) s = .next (s.flowFault n s.seqs[n].pc 0x09) := by
  have hfetches : s.fetches n = true := by simpa [State.fetches, hrun, -Fin.getElem_fin] using hroom
  refine congrArg Host.Outcome.next ((if_pos hfetches).trans (if_neg fun h => ?_))
  obtain ⟨-, hlt⟩ := h
  dsimp only at hlt
  rw [hmain] at hlt
  exact absurd hlt (Nat.not_lt.mpr hpc)

end Sys2Proof.Machine

/-! SUPPORT. FAULT_COLLECT: the first fault of a partition ends its program and stops it (06 R149, R150). -/

namespace Sys2Proof.Machine

theorem State.updPart_after (s : State) (p : PartId) {f g h : Partition → Partition} (e : g (f s.parts[p]) = h s.parts[p]) :
    (s.updPart p f).updPart p g = s.updPart p h := by
  unfold State.updPart
  rw [updAt_twice]
  exact congrArg (fun v => { s with parts := v }) (updAt_congr (f := fun x => g (f x)) (g := h) e)

/-- A partition whose first fault `f` is collected; `r` are those still on their way. -/
def Partition.collects (f : SeqId × W64) (r : List (Nat × SeqId × W64 × BitVec 48 × W64)) (x : Partition) : Partition :=
  { x with fault := { x.fault with transit := r, first := some f } }

/-- The first fault of a partition collected: noted under one new incident, with the Almanac `a`. -/
def State.collects (s : State) (p : PartId) (f : SeqId × W64) (r : List (Nat × SeqId × W64 × BitVec 48 × W64)) (a : Almanac) : State :=
  { s with
    parts := updAt s.parts p (Partition.collects f r), almanac := a
    ctl := { s.ctl with incident := s.ctl.incident + 1, faultSource := 0x01 } }

section
variable {s : State} {p : PartId} {cr : Nat} {n : SeqId} {w b : W64} {k : BitVec 48} {r : List (Nat × SeqId × W64 × BitVec 48 × W64)}
  (ht : s.parts[p].fault.transit = (cr, n, w, k, b) :: r)
include ht

theorem PFault.next_of_transit : s.parts[p].fault.next = some (cr, n, w, k, b) := by
  unfold PFault.next
  rw [ht]
  rfl

theorem exec_faultCollect_first (hfirst : s.parts[p].fault.first = none) : ∃ a, exec (.faultCollect p) s =
    .next (((s.collects p (n, w) r a).over ((s.collects p (n, w) r a).programsOf p) fun t x =>
      t.endProgram x .failedSchedule (x.faultDetail n w) (s.ctl.incident + 1)).stopPart p 0x02 false (s.ctl.incident + 1)) := by
  have htake : (s.updPart p fun x => { x with fault := { x.fault with transit := x.fault.transit.drop 1 } }).updPart p
      (fun x => { x with fault := { x.fault with first := some (n, w) } }) = s.updPart p (Partition.collects (n, w) r) := by
    refine s.updPart_after p ?_
    dsimp only
    rw [ht]
    rfl
  refine ⟨(((s.updPart p (Partition.collects (n, w) r)).incident 0x01 (1 <<< p.val) sevJob).event 0x0401 unitSteward (partByte p)
    sevJob (s.ctl.incident + 1) (packDetail [(w.toNat, 8), (k.toNat * 65536, 8)])).almanac, congrArg Host.Outcome.next ?_⟩
  rw [PFault.next_of_transit ht]
  dsimp only
  rw [hfirst, htake]
  rfl

theorem exec_faultCollect_later {f : SeqId × W64} (hfirst : s.parts[p].fault.first = some f) : exec (.faultCollect p) s =
    .next (s.updPart p fun x => { x with fault := { x.fault with transit := r, count := satAdd 16 x.fault.count 1 } }) := by
  refine congrArg Host.Outcome.next ?_
  rw [PFault.next_of_transit ht]
  dsimp only
  rw [hfirst]
  refine (if_pos rfl).trans (s.updPart_after p ?_)
  dsimp only
  rw [ht]
  rfl

end

theorem exec_faultCollect_none {s : State} {p : PartId} (h : s.parts[p].fault.transit = []) : exec (.faultCollect p) s = .next s := by
  refine congrArg Host.Outcome.next ?_
  have hnext : s.parts[p].fault.next = none := by
    unfold PFault.next
    rw [h]
    rfl
  rw [hnext]

/-! ### The program that a fault ends -/

theorem Counted.axes {r : Record} {s t : State} (h : Counted r s t) (hr : r.axis = none) (a : AxisId) : t.axes[a] = s.axes[a] :=
  (h a).2 fun ⟨ha, _⟩ => absurd (hr.symm.trans ha) (by exact nofun)

/-- A record of no engine leaves the engines without items. -/
theorem NoItems.recorded {s t : State} {p : PartId} {r : Record} {v0 : Bool} (h : NoItems p s) (hr : Recorded p r v0 s t)
    (ha : r.axis = none) : NoEngineItems p t ∧ t.parts[p].caps.queue = [] := by
  obtain ⟨hsluices, hqueue, hcmds, -, haxes⟩ := h
  obtain ⟨-, hcounted, -, hpart, hrest⟩ := hr
  have hax (a : AxisId) : t.axes[a] = s.axes[a] := Counted.axes hcounted ha a
  have hsl : t.sluices = s.sluices := (congrArg State.sluices hrest : _)
  refine ⟨⟨fun a c hc => ?_, fun a c hc => ?_, fun a c hc => ?_, fun n => ?_, ?_⟩, ?_⟩
  · rw [hax, (haxes a).1] at hc
    exact absurd hc List.not_mem_nil
  · rw [hax, (haxes a).2.1] at hc
    exact absurd hc List.not_mem_nil
  · rw [hax, (haxes a).2.2] at hc
    exact absurd hc List.not_mem_nil
  · rw [hsl]
    exact hsluices n
  · exact (congrArg Partition.cmds hpart : _).trans hcmds
  · exact (congrArg (fun x => x.caps.queue) hpart : _).trans hqueue

theorem State.withoutProgram_none {s : State} {x : Program} {p : PartId} (h : s.programs.filter (fun y => y.part == p) = [x]) :
    (s.withoutProgram x).programsOf p = [] := by
  refine List.filter_eq_nil_iff.mpr fun y hy hp => ?_
  obtain ⟨hmem, hid⟩ := List.mem_filter.mp hy
  have hyx : y ∈ s.programs.filter fun y => y.part == p := List.mem_filter.mpr ⟨hmem, hp⟩
  rw [h, List.mem_singleton] at hyx
  rw [hyx] at hid
  simp at hid

section
variable {s : State} {x : Program} (hone : s.programs.filter (fun y => y.part == x.part) = [x]) (hitems : NoItems x.part s)
  (hrun : s.parts[x.part].state = .running) (hstop : s.parts[x.part].run.stopping = none)
include hone hitems hrun hstop

/-- The one program of a partition with no other item ended by a fault, and the partition stopped. -/
theorem State.faultStop_spec (d : W64) (inc : W32) (u : State)
    (hu : u = (s.endProgram x .failedSchedule d inc).stopPart x.part 0x02 false inc) :
    Formed x.part (x.record .failedSchedule d inc) x.raiseV0 s u ∧ OnlyPart x.part s u ∧
      u.parts[x.part].fault = s.parts[x.part].fault ∧ u.parts[x.part].run.stopping = some (0x02, false) ∧ u.ctl = s.ctl ∧
      u.programs = s.programs.filter fun y => y.id != x.id := by
  have hrec := State.post_recorded (s := s.withoutProgram x) (p := x.part) (x.record .failedSchedule d inc) x.raiseV0 rfl rfl
  rw [s.endProgram_eq x joinCause_failedSchedule] at hu
  generalize (s.withoutProgram x).post x.part (x.record .failedSchedule d inc) x.raiseV0 = t at hrec hu
  obtain ⟨hnone, hqueue⟩ := NoItems.recorded (s := s.withoutProgram x) hitems hrec rfl
  obtain ⟨hformed, -, honly, hpart, hrest⟩ := hrec
  have hprograms : t.programs = (s.withoutProgram x).programs := (congrArg State.programs hrest : _)
  have hfault : t.parts[x.part].fault = s.parts[x.part].fault := (congrArg Partition.fault hpart : _)
  have hctl : t.ctl = s.ctl := (congrArg State.ctl hrest : _)
  have hstoppable : t.parts[x.part].stoppable = true := by
    have hst : t.parts[x.part].state = .running := (congrArg Partition.state hpart : _).trans hrun
    have hns : t.parts[x.part].run.stopping = none := (congrArg (fun y => y.run.stopping) hpart : _).trans hstop
    unfold Partition.stoppable
    rw [hst, hns]
    rfl
  have hgone : t.programsOf x.part = [] := by
    unfold State.programsOf
    rw [hprograms]
    exact State.withoutProgram_none hone
  obtain ⟨vq, vc, g, l, e, -⟩ := State.stopPart_idle 0x02 false inc hstoppable hnone hgone hqueue
  rw [hu, e]
  refine ⟨Formed.congr hformed rfl rfl rfl rfl ?_ ?_ rfl, fun q hq => (State.updPart_other _ hq _).trans (honly q hq), ?_, ?_, hctl,
    hprograms⟩
  all_goals rw [State.updPart_self]
  · rfl
  · rfl
  · exact hfault
  · rfl

end

theorem Program.faultDetail_eq (x : Program) (n : SeqId) (w : W64) : x.faultDetail n w =
    if n ∈ x.seqs then w else (w &&& 0x00FFFFFFFFFFFFFF#64) ||| 0xFF00000000000000#64 := by
  unfold Program.faultDetail Program.covers
  simp only [List.contains_eq_mem, decide_eq_true_eq]
  rfl

/-- The first fault of a partition collected (R150). -/
theorem faultCollect_first {s : State} {x : Program} {cr : Nat} {n : SeqId} {w b : W64} {k : BitVec 48}
    {r : List (Nat × SeqId × W64 × BitVec 48 × W64)} (ht : s.parts[x.part].fault.transit = (cr, n, w, k, b) :: r)
    (hfirst : s.parts[x.part].fault.first = none) (hrun : s.parts[x.part].state = .running)
    (hstop : s.parts[x.part].run.stopping = none) (hone : s.programs.filter (fun y => y.part == x.part) = [x])
    (hitems : NoItems x.part s) : ∃ t, exec (.faultCollect x.part) s = .next t ∧
      t.parts[x.part].fault = { s.parts[x.part].fault with transit := r, first := some (n, w) } ∧
      t.parts[x.part].run.stopping = some (0x02, false) ∧ t.ctl.incident = s.ctl.incident + 1 ∧ t.ctl.faultSource = 0x01 ∧
      Formed x.part (x.record .failedSchedule (x.faultDetail n w) (s.ctl.incident + 1)) x.raiseV0 s t ∧
      t.programs = (s.programs.filter fun y => y.id != x.id) ∧ OnlyPart x.part s t := by
  obtain ⟨a, e⟩ := exec_faultCollect_first ht hfirst
  have hpart : (s.collects x.part (n, w) r a).parts[x.part] = s.parts[x.part].collects (n, w) r := updAt_self ..
  have hitems' : NoItems x.part (s.collects x.part (n, w) r a) := by
    obtain ⟨hsluices, hqueue, hcmds, hclaims, haxes⟩ := hitems
    refine ⟨hsluices, ?_, ?_, ?_, haxes⟩ <;> rw [hpart] <;> assumption
  have hof : (s.collects x.part (n, w) r a).programsOf x.part = [x] := hone
  rw [hof, State.over_single] at e
  obtain ⟨hformed, honly, hfault, hstopping, hctl, hprograms⟩ := State.faultStop_spec (s := s.collects x.part (n, w) r a) hone
    hitems' (by rw [hpart]; exact hrun) (by rw [hpart]; exact hstop) (x.faultDetail n w) (s.ctl.incident + 1) _ rfl
  refine ⟨_, e, hfault.trans ?_, hstopping, congrArg Control.incident hctl, congrArg Control.faultSource hctl,
    Formed.congr hformed ?_ ?_ ?_ rfl rfl rfl rfl, hprograms, fun q hq => (honly q hq).trans ?_⟩
  · rw [hpart]
    rfl
  · rw [hpart]
    rfl
  · rw [hpart]
    rfl
  · rw [hpart]
    rfl
  · exact updAt_elsewhere id s.parts hq.symm

end Sys2Proof.Machine

/-! SUPPORT. The start of a program (06 R134, R152; 07 R158, R179), and the limits and cadences that start and stop
programs (07 R180 to R182). -/

namespace Sys2Proof.Machine

/-! ### What a wake changes -/

/-- A state with what a wake changes as `s` has it. -/
def State.rewound (s t : State) : State :=
  { t with inLull3 := s.inLull3, wells := s.wells, pumps := s.pumps, fields := s.fields, parts := s.parts }

theorem State.wake_rewound (s : State) (p : PartId) : s.rewound (s.wake p) = s := by
  have hfield (t : State) (f : FieldId) : s.rewound (t.unretain f) = s.rewound t := by
    unfold State.unretain
    split <;> rfl
  obtain ⟨t, e, h⟩ := s.wakeTo_keeps s.rewound (fun _ _ => rfl) (fun _ _ => rfl) hfield p 0
  unfold State.wake
  rw [e]
  exact h

/-! ### Sequencers started -/

/-- A sequencer at the start of a program. -/
def Sequencer.starts (region : Bool) (entry : Nat) (args : Vector W64 3) (item : Nat) (q : Sequencer) : Sequencer :=
  { q with
    state := .running, pc := entry, region := region, issueCount := 0, args := args, loops := [], item := some item
    haltSeq := 0, fault0 := 0, fault1 := 0, fault2 := 0 }

section
variable (s : State) (p : PartId) (region : Bool) (entry : Nat) (args : Vector W64 3) (item : Nat)

theorem State.startSeq_eq (n : SeqId) : s.startSeq p n region entry args item = { s with
    seqs := updAt s.seqs n (Sequencer.starts region entry args item)
    cores := atAll s.cores (s.seqCores n) fun c x => x.start c s.parts[p].fmt args } := by
  have hcores : (s.updSeq n (Sequencer.starts region entry args item)).seqCores n = s.seqCores n :=
    s.seqCores_updSeq n (Sequencer.starts region entry args item) (fun _ => rfl) n
  have hfmt (l : List CoreId) (t : State) (ht : t.parts = s.parts) :
      (t.over l fun t c => t.updCore c fun x => x.start c t.parts[p].fmt args) =
        t.over l fun t c => t.updCore c fun x => x.start c s.parts[p].fmt args := by
    induction l generalizing t with
    | nil => rfl
    | cons c l ih =>
      rw [State.over_cons, State.over_cons, ht]
      exact ih (t.updCore c _) ht
  have e : s.startSeq p n region entry args item =
      (s.updSeq n (Sequencer.starts region entry args item)).over
        ((s.updSeq n (Sequencer.starts region entry args item)).seqCores n) fun t c =>
          t.updCore c fun x => x.start c t.parts[p].fmt args := rfl
  rw [e, hcores, hfmt _ (s.updSeq n _) rfl,
    State.over_updCore (s.seqCores_nodup n) fun c x => x.start c s.parts[p].fmt args]
  rfl

/-- Sequencers and their cores started one after another: each as one start leaves it. -/
theorem State.over_startSeq (l : List SeqId) : ∃ vq vc,
    (s.over l fun s n => s.startSeq p n region entry args item) = { s with seqs := vq, cores := vc } ∧
      (∀ n : SeqId, vq[n] = if n ∈ l then s.seqs[n].starts region entry args item else s.seqs[n]) ∧
      (∀ c : CoreId, vc[c] = if ∃ n ∈ l, c ∈ s.seqCores n then s.cores[c].start c s.parts[p].fmt args else s.cores[c]) := by
  induction l generalizing s with
  | nil => exact ⟨s.seqs, s.cores, rfl, fun n => by simp, fun c => by simp⟩
  | cons m l ih =>
    obtain ⟨vq, vc, e, hq, hc⟩ := ih (s.startSeq p m region entry args item)
    have hwards (n : SeqId) : (s.startSeq p m region entry args item).seqCores n = s.seqCores n := by
      have hmask : (updAt s.seqs m (Sequencer.starts region entry args item))[n].wardMask = s.seqs[n].wardMask :=
        updAt_keeps Sequencer.wardMask s.seqs m n fun _ => rfl
      rw [State.startSeq_eq]
      unfold State.seqCores
      rw [hmask]
      rfl
    refine ⟨vq, vc, ?_, fun n => ?_, fun c => ?_⟩
    · rw [State.over_cons, e, State.startSeq_eq]
    · rw [hq, State.startSeq_eq]
      dsimp only
      rw [updAt_get_fin]
      by_cases hm : n = m
      · subst hm
        rw [if_pos rfl, if_pos List.mem_cons_self]
        split <;> rfl
      · rw [if_neg hm]
        simp [hm]
    · rw [hc]
      simp only [hwards]
      rw [State.startSeq_eq]
      dsimp only
      rw [atAll_get]
      by_cases hm : c ∈ s.seqCores m
      · have hex : ∃ n ∈ m :: l, c ∈ s.seqCores n := ⟨m, List.mem_cons_self, hm⟩
        rw [if_pos hm, if_pos hex]
        split <;> rfl
      · rw [if_neg hm]
        simp [hm]

end

/-! ### A program started -/

section
variable (s : State) (p : PartId) (seqs : List SeqId) (region : Bool) (entry : Nat) (args : Vector W64 3) (tag : W64) (step : W32)
  (limit : Nat) (v0 : Bool)

/-- The program item that a start makes. -/
def State.newProgram : Program :=
  { id := s.nextItem, part := p, tag := tag, step := step, seqs := seqs, region := region
    limitAt := if limit = 0 then none else some (s.timeNs + 1000 * limit), raiseV0 := v0 }

/-- A program item added to the list. -/
def State.addProgram (s : State) (x : Program) : State := { s with nextItem := s.nextItem + 1, programs := s.programs ++ [x] }

/-- A partition whose interlude starts, where the program is one. -/
def Partition.startsInterlude (region : Bool) (y : Partition) : Partition :=
  { y with run := { y.run with interlude := region || y.run.interlude } }

theorem State.startProgram_eq : ∃ vq vc, s.startProgram p seqs region entry args tag step limit v0 =
      ({ (s.wake p).addProgram (s.newProgram p seqs region tag step limit v0) with seqs := vq, cores := vc } : State).updPart p
        (Partition.startsInterlude region) ∧
    (∀ n : SeqId, vq[n] = if n ∈ seqs then s.seqs[n].starts region entry args s.nextItem else s.seqs[n]) ∧
    (∀ c : CoreId, vc[c] = if ∃ n ∈ seqs, c ∈ s.seqCores n then s.cores[c].start c s.parts[p].fmt args else s.cores[c]) := by
  have hw := s.wake_rewound p
  have hfmt : (s.wake p).parts[p].fmt = s.parts[p].fmt := by rw [s.wake_part]
  unfold State.startProgram
  generalize s.wake p = t at hw hfmt ⊢
  change ∃ vq vc, (if region then
      ((t.addProgram (t.newProgram p seqs region tag step limit v0)).over seqs fun s n =>
        s.startSeq p n region entry args t.nextItem).updPart p fun y => { y with run := { y.run with interlude := true } }
    else (t.addProgram (t.newProgram p seqs region tag step limit v0)).over seqs fun s n =>
        s.startSeq p n region entry args t.nextItem) = _ ∧ _
  have hseqs : t.seqs = s.seqs := (congrArg State.seqs hw : _)
  have hcores : t.cores = s.cores := (congrArg State.cores hw : _)
  have hitem : t.nextItem = s.nextItem := (congrArg State.nextItem hw : _)
  have hnew : t.newProgram p seqs region tag step limit v0 = s.newProgram p seqs region tag step limit v0 :=
    (congrArg (fun u => State.newProgram u p seqs region tag step limit v0) hw : _)
  have hof (n : SeqId) : t.seqCores n = s.seqCores n := (congrArg (fun u => State.seqCores u n) hw : _)
  rw [hnew, hitem]
  obtain ⟨vq, vc, e, hq, hc⟩ :=
    (t.addProgram (s.newProgram p seqs region tag step limit v0)).over_startSeq p region entry args s.nextItem seqs
  refine ⟨vq, vc, ?_, fun n => (hq n).trans ?_, fun c => (hc c).trans ?_⟩
  · rw [e]
    cases region with
    | true => rfl
    | false => exact (congrArg (fun v => { t.addProgram _ with seqs := vq, cores := vc, parts := v }) 
        (updAt_id t.parts p (f := Partition.startsInterlude false) rfl)).symm
  · rw [← hseqs]
    rfl
  · rw [← hcores, ← hfmt]
    simp only [← hof]
    rfl

/-- A start makes its program item and starts its sequencers (R134, R152). -/
theorem State.startProgram_started : Started p entry args (s.newProgram p seqs region tag step limit v0) s
    (s.startProgram p seqs region entry args tag step limit v0) := by
  obtain ⟨vq, vc, e, hq, hc⟩ := s.startProgram_eq p seqs region entry args tag step limit v0
  have hw := s.wake_rewound p
  have hparts := s.wake_parts p
  have hpart := s.wake_part p
  rw [e]
  generalize s.wake p = t at hw hparts hpart ⊢
  refine ⟨congrArg (· ++ [_]) (congrArg State.programs hw : _), congrArg (· + 1) (congrArg State.nextItem hw : _), hq, hc, ?_, ?_,
    fun q hq => ?others, ?_, (congrArg State.host hw : _), (congrArg State.xfers hw : _), (congrArg State.axes hw : _),
    (congrArg State.sluices hw : _), (congrArg State.pending hw : _)⟩
  case others =>
    refine (State.updPart_other _ hq _).trans ?_
    change t.parts[q] = s.parts[q]
    rw [hparts]
    exact updAt_elsewhere id s.parts hq.symm
  all_goals rw [State.updPart_self]
  · change (t.parts[p].startsInterlude region).run = _
    rw [hpart]
    rfl
  · change (t.parts[p].startsInterlude region).lull.reached = _
    rw [hpart]
    rfl
  · change { t.parts[p].startsInterlude region with run := s.parts[p].run, lull := s.parts[p].lull } = _
    rw [hpart]
    rfl

end

end Sys2Proof.Machine

/-! SUPPORT. Limits and cadences, and with them the faults (06 R148 to R150; 07 R178 to R182). -/

namespace Sys2Proof.Machine

/-! ### PROGRAM_LIMIT_EXPIRY (R180) -/

theorem Program.expired_iff (x : Program) (now : Nat) : x.expired now = true ↔ ∃ l ∈ x.limitAt, l ≤ now := by
  unfold Program.expired
  cases x.limitAt <;> simp

theorem State.anyExpired_iff (s : State) (p : PartId) : ((s.programsOf p).any (·.expired s.timeNs)) = true ↔
    ∃ x ∈ s.programs, x.part = p ∧ ∃ l ∈ x.limitAt, l ≤ s.timeNs := by
  simp only [State.programsOf, List.any_eq_true, List.mem_filter, beq_iff_eq, Program.expired_iff, and_assoc]

section
variable {s s1 : State} {p : PartId} {at_ : Nat} (hs1 : s.advanceTo at_ = s1)
include hs1

theorem exec_programLimitExpiry_expired (h : ∃ x ∈ s1.programs, x.part = p ∧ ∃ l ∈ x.limitAt, l ≤ s1.timeNs) :
    exec (.programLimitExpiry p at_) s = .next (({ s1 with
      programs := s1.programs.map fun x => if x.part = p ∧ x.expired s1.timeNs then { x with limitAt := none } else x } :
        State).deviceStop p 0x01) := by
  subst hs1
  exact congrArg Host.Outcome.next (if_pos ((State.anyExpired_iff _ p).mpr h))

theorem exec_programLimitExpiry_running (h : ∀ x ∈ s1.programs, x.part = p → ∀ l ∈ x.limitAt, s1.timeNs < l) :
    exec (.programLimitExpiry p at_) s = .next s1 := by
  subst hs1
  refine congrArg Host.Outcome.next (if_neg fun hany => ?_)
  obtain ⟨x, hx, hp, l, hl, hle⟩ := (State.anyExpired_iff _ p).mp hany
  exact absurd (h x hx hp l hl) (Nat.not_lt.mpr hle)

end

/-! ### CADENCE_ARM and CADENCE_DISARM (R181) -/

theorem seqOffset_arm (n : SeqId) : 0x400080 + n.val * 0x10000 = seqOffset n 0x080 := by
  unfold seqOffset
  omega

section
variable {s : State} (h : Ready s) (n : SeqId)
include h

theorem exec_cadenceArm (per : W32) (e : BitVec 12) (k : Nat) : exec (.cadenceArm n per e k) s =
    .next ((s.wakeAccess (seqOffset n 0x080)).armCadence n per e k (s.owner (seqOffset n 0x080))) :=
  congrArg Host.Outcome.next (if_pos (s.served_seq h n (by decide)))

theorem exec_cadenceDisarm : exec (.cadenceDisarm n) s =
    .next ((s.wakeAccess (seqOffset n 0x080)).updSeq n fun q => { q with arm := false }) :=
  congrArg Host.Outcome.next (if_pos (s.served_seq h n (by decide)))

end

theorem State.armOk_iff {s : State} {n : SeqId} {e : Nat} :
    s.armOk n e = true ↔ s.seqs[n].state ≠ .unattached ∧ e < s.seqs[n].split := by
  simp [State.armOk, -Fin.getElem_fin]

/-! ### CADENCE_TICK (R182) -/

theorem Sequencer.period_pos (q : Sequencer) : 0 < q.period := Nat.lt_of_lt_of_le (by decide) (Nat.le_max_left 10000 _)

section
variable {s s1 : State} {n : SeqId} {at_ k : Nat} (hs1 : s.advanceTo at_ = s1)
include hs1

theorem exec_cadenceTick_due (hlate : at_ ≤ s1.timeNs) (harm : s1.seqs[n].arm = true)
    (hgrid : at_ = s1.seqs[n].tArm + k * s1.seqs[n].period) (hk : s1.seqs[n].tickK < k) :
    exec (.cadenceTick n at_) s = .next (s1.tick n k) := by
  subst hs1
  have hdiv : (at_ - (s.advanceTo at_).seqs[n].tArm) / (s.advanceTo at_).seqs[n].period = k := by
    rw [Nat.sub_eq_of_eq_add (hgrid.trans (Nat.add_comm ..)), Nat.mul_div_cancel _ (Sequencer.period_pos _)]
  refine congrArg Host.Outcome.next ?_
  dsimp only
  rw [hdiv, if_pos (by simp [harm, hk, hlate, ← hgrid, -Fin.getElem_fin])]

theorem exec_cadenceTick_disarmed (harm : s1.seqs[n].arm = false) : exec (.cadenceTick n at_) s = .next s1 := by
  subst hs1
  exact congrArg Host.Outcome.next (if_neg (by simp [harm, -Fin.getElem_fin]))

end

section
variable {s : State} {n : SeqId} {p : PartId} (hp : s.seqHolder n = some p)
include hp

theorem State.tick_suppressed (k : Nat) (h : s.capState p ≠ .running) : s.tick n k = s.updSeq n fun q => { q with tickK := k } := by
  unfold State.tick
  rw [hp]
  exact if_pos (by simpa using h)

section
variable (h : s.capState p = .running)
include h

theorem State.tick_running (k : Nat) : s.tick n k =
    let s1 := s.updSeq n fun q => { q with tickK := k, tickLow := BitVec.ofNat 32 k }
    if s.seqs[n].state == .idle && !s.parts[p].run.interlude then
      s1.startProgram p [n] false s.seqs[n].entry.toNat
        #v[BitVec.ofNat 64 k, BitVec.ofNat 64 (s.seqs[n].tArm + k * s.seqs[n].period), s.seqs[n].cadArg]
        (s.seqs[n].cadTag + BitVec.ofNat 64 k) 0 0 false
    else s1.updSeq n fun q => { q with missed := satAdd 32 q.missed 1 } := by
  unfold State.tick
  rw [hp]
  exact if_neg (by simp [h])

/-- A tick of an idle sequencer starts its program with the tick's number, its place and the cadence's argument. -/
theorem State.tick_starts (k : Nat) (hidle : s.seqs[n].state = .idle) (hmain : s.parts[p].run.interlude = false) :
    Started p s.seqs[n].entry.toNat
      #v[BitVec.ofNat 64 k, BitVec.ofNat 64 (s.seqs[n].tArm + k * s.seqs[n].period), s.seqs[n].cadArg]
      { id := s.nextItem, part := p, tag := s.seqs[n].cadTag + BitVec.ofNat 64 k, seqs := [n], region := false }
      (s.updSeq n fun q => { q with tickK := k, tickLow := BitVec.ofNat 32 k }) (s.tick n k) := by
  have hyes : (s.seqs[n].state == .idle && !s.parts[p].run.interlude) = true := by
    rw [hidle, hmain]
    rfl
  rw [State.tick_running hp h]
  dsimp only
  rw [if_pos hyes]
  exact State.startProgram_started ..

theorem State.tick_misses (k : Nat) (hbusy : s.seqs[n].state ≠ .idle ∨ s.parts[p].run.interlude = true) :
    s.tick n k = s.updSeq n fun q => { q with
      tickK := k, tickLow := BitVec.ofNat 32 k, missed := satAdd 32 q.missed 1 } := by
  have hno : ¬(s.seqs[n].state == .idle && !s.parts[p].run.interlude) = true := by
    obtain hb | hb := hbusy <;> simp [hb, -Fin.getElem_fin]
  rw [State.tick_running hp h]
  dsimp only
  rw [if_neg hno]
  unfold State.updSeq
  dsimp only
  rw [updAt_twice]

end

end

theorem partCores_of_onlyCore {c : CoreId} {s t : State} (h : OnlyCore c s t) (p : PartId) : t.partCores p = s.partCores p := by
  have hpresent (d : Nat) : t.corePresent d = s.corePresent d := (congrArg (fun u => State.corePresent u d) h.2.2 : _)
  unfold State.partCores
  simp only [hpresent, h.im]

/-- Settles O28: a load's PORT fault by `exec_ldq_port`, FLOW and IMEM by `State.flowFault_spec`, the collector by
`faultCollect_first`, a tick by `State.tick_starts`. -/
theorem faultsLimitsAndCadences : Obligations.FaultsLimitsAndCadences := by
  refine ⟨fun s c p n x hopen hp hn hwf hport => ?_, fun s n p hrun hroom hmain hpc hp hn e => ?_, fun s n p hmay hp hn => ?_,
    fun s p x cr n w b k r ht => ⟨fun hfirst hrun hstop hone hpart hitems => ?_, fun f hf => exec_faultCollect_later ht hf⟩,
    fun s p => exec_faultCollect_none, fun s p at_ => ⟨exec_programLimitExpiry_expired rfl, exec_programLimitExpiry_running rfl⟩,
    fun s n per e k hready => ?_, fun s n hready => ?_, fun s n p at_ k => ?_, fun s n at_ => exec_cadenceTick_disarmed rfl⟩
  · intro w
    obtain ⟨t, honly, hcore, e⟩ := exec_ldq_port hport hopen hp hn hwf
    have hseqs := honly.seqs
    have himg : t.parts[p].im.img.seqs = s.parts[p].im.img.seqs := by rw [honly.im]
    have hfault : t.parts[p].fault = s.parts[p].fault := (congrArg Partition.fault (honly.2.1 p) : _)
    have hfield {β : Type} (g : Core → β) (h : ∀ x k, g { x with grace := k } = g x) :=
      (raiseFault_core_keeps (n := n) (p := p) (word := w) (issue := 0) (beats := s.cores[c].beats) g h).trans
        (congrArg (fun x => g (Core.faults w x)) hcore)
    have hrest := t.raiseFault_rest (some c) n p w 0 s.cores[c].beats
    refine ⟨_, e, hfield Core.halted fun _ _ => rfl, hfield Core.fifo fun _ _ => rfl,
      fun h0 => (hfield Core.faultWord fun _ _ => rfl).trans (if_pos h0), hfield Core.queues fun _ _ => rfl,
      hfield Core.ag fun _ _ => rfl, hfield Core.mem fun _ _ => rfl, hfield Core.inflight fun _ _ => rfl,
      hfield Core.beats fun _ _ => rfl, fun h0 => (raiseFault_fault0 rfl).trans (if_pos (by rw [hseqs]; exact h0)),
      fun m hm ha => raiseFault_state_active rfl (by rw [himg]; exact hm) (by rw [hseqs]; exact ha),
      fun m hr => (raiseFault_state_rest rfl (by rw [hseqs]; exact hr)).trans (by rw [hseqs]), ?_, fun d hd hc => ?_,
      (congrArg State.host hrest : _).trans (congrArg State.host honly.2.2 : _),
      (congrArg State.xfers hrest : _).trans (congrArg State.xfers honly.2.2 : _)⟩
    · rw [raiseFault_transit rfl, List.length_append, hfault]
      rfl
    · rw [raiseFault_core_other (by rw [partCores_of_onlyCore honly]; exact hd) hc]
      exact honly.1 d hc
  · rw [exec_sequencerFetch_outside hrun hroom hmain hpc]
    exact ⟨_, rfl, State.flowFault_spec hp hn hrun _ (by decide)⟩
  · rw [hmay.exec_fetch .uncorrectable]
    exact ⟨_, rfl, State.flowFault_spec hp hn hmay.1 _ (by decide)⟩
  · subst hpart
    obtain ⟨t, e, hfault, hstopping, hinc, hsource, hformed, hprograms, honly⟩ := faultCollect_first ht hfirst hrun hstop hone hitems
    rw [← Program.faultDetail_eq]
    refine ⟨t, e, hfault, hstopping, hinc, hsource, hformed, fun y hy => ?_, honly⟩
    rw [hprograms] at hy
    simpa using (List.mem_filter.mp hy).2
  · rw [seqOffset_arm]
    intro w
    have hw : w.seqs = s.seqs := s.wakeAccess_seqs _
    have hok := State.armOk_iff (s := w) (n := n) (e := e.toNat)
    rw [hw] at hok
    rw [exec_cadenceArm hready]
    refine ⟨fun h => congrArg Host.Outcome.next (if_pos (hok.mpr h)), fun h => ⟨_, rfl, ?_⟩⟩
    have e : w.armCadence n per e k (s.owner (seqOffset n 0x080)) = w.refuseSeq n 0x080 (s.owner (seqOffset n 0x080)) :=
      if_neg fun hc => h (hok.mp hc)
    rw [e]
    exact State.report_refused ..
  · rw [seqOffset_arm]
    exact exec_cadenceDisarm hready n
  · intro s1 q t0 hp hlate harm hgrid hk
    have hdue := exec_cadenceTick_due (s := s) (s1 := s1) rfl hlate harm hgrid hk
    refine ⟨fun hrun hidle hmain => ⟨_, hdue, ?_⟩, fun hrun hbusy => ?_, fun hrest => ?_⟩
    · have hstarted := State.tick_starts hp hrun k hidle hmain
      have hplace : s1.seqs[n].tArm + k * s1.seqs[n].period = at_ := hgrid.symm
      rw [hplace] at hstarted
      exact hstarted
    · rw [hdue, State.tick_misses hp hrun k hbusy]
      rfl
    · rw [hdue, State.tick_suppressed hp k hrest]
      rfl

end Sys2Proof.Machine

/-! SUPPORT. PROGRAM_LOAD (06 R151, R154, R155): its checks, and the bundles it writes. -/

namespace Sys2Proof.Machine

/-! ### Capsules that end with one record -/

theorem without_part (p : PartId) (c : Capsule) (s : State) : (without p c s).parts[p] =
    { s.parts[p] with caps := { s.parts[p].caps with queue := s.parts[p].caps.queue.erase c } } := s.updPart_self p _

theorem without_only (p : PartId) (c : Capsule) (s : State) : OnlyPart p s (without p c s) := fun _ hq => s.updPart_other hq _

theorem without_capState (p : PartId) (c : Capsule) (s : State) : (without p c s).capState p = s.capState p := by
  unfold State.capState
  rw [without_part]

theorem kind_of_nextCapsule {p : PartId} {k : Nat} {s : State} {c : Capsule} (h : NextCapsule p k s c) : c.kind = k := by
  have hk := List.find?_some h
  exact beq_iff_eq.mp hk

theorem capsuleEnds_of_capDone {i : Instr} {p : PartId} {c : Capsule} {s : State} {e : Byte} {o : OutcomeCode} {d : Nat}
    (h : exec i s = .next ((without p c s).capDone p c e o d)) : CapsuleEnds i p c s e o d :=
  ⟨_, h, State.post_recorded _ _ rfl rfl⟩

/-! ### The bundles of a body -/

theorem zipIdx_map_range {α : Type} (f : Nat → α) (n : Nat) :
    ((List.range n).map f).zipIdx = (List.range n).map fun i => (f i, i) :=
  List.ext_getElem (by simp) (by simp)

/-- Bundle `i` of a capsule's body. -/
def Capsule.bundle (c : Capsule) (i : Nat) : Bundle512 := BitVec.ofNat 512 (ldNat c.body (64 * i) 64)

theorem Capsule.bundles_zipIdx (c : Capsule) (n : Nat) : (bundlesOf c.body n).zipIdx = (List.range n).map fun i => (c.bundle i, i) :=
  zipIdx_map_range c.bundle n

theorem decodeBundle_zero : ∃ b, decodeBundle 0 = some b ∧ b.version = 0 := by
  simp [decodeBundle, bit, slotIf, bits]

theorem loadOk_ne_zero {w : Bundle512} {i n : Nat} {l : List Nat} (h : loadOk w i n l = true) : w ≠ 0 := by
  rintro rfl
  obtain ⟨b, hdecode, hversion⟩ := decodeBundle_zero
  unfold loadOk at h
  rw [hdecode] at h
  dsimp only at h
  rw [hversion] at h
  exact absurd h Bool.false_ne_true

/-- Instruction memory with bundles written from an index on. -/
def writeBundles (b : Nat → Bundle512) (first n : Nat) (m : Sparse Bundle512) : Sparse Bundle512 :=
  (List.range n).foldl (fun m i => Sparse.set 0 m (first + i) (b i)) m

theorem writeBundles_get {b : Nat → Bundle512} {n : Nat} (hb : ∀ i < n, b i ≠ 0) (first : Nat) (m : Sparse Bundle512) (k : Nat) :
    Sparse.getD (writeBundles b first n m) k 0 = if first ≤ k ∧ k < first + n then b (k - first) else Sparse.getD m k 0 := by
  induction n with
  | zero =>
    rw [if_neg (by omega)]
    rfl
  | succ n ih =>
    have e : writeBundles b first (n + 1) m = Sparse.set 0 (writeBundles b first n m) (first + n) (b n) := by
      unfold writeBundles
      rw [List.range_succ, List.foldl_append]
      rfl
    have hput : Sparse.set 0 (writeBundles b first n m) (first + n) (b n) = (writeBundles b first n m).put (first + n) (b n) :=
      if_neg (hb n (Nat.lt_succ_self n))
    rw [e, hput]
    by_cases hk : first + n = k
    · subst hk
      rw [Sparse.getD_put_self, if_pos (by omega), Nat.add_sub_cancel_left]
    · rw [Sparse.getD_put_other _ _ _ hk, ih fun i hi => hb i (Nat.lt_succ_of_lt hi)]
      exact if_congr (by omega) rfl rfl

/-! ### The checks of a load -/

/-- The form and the bundles of a load for the sequencers `mine` of its partition (R151, R155). -/
def Capsule.Loads (mine : List SeqId) (c : Capsule) : Prop :=
  let first := ldNat c.params 0 2
  let count := ldNat c.params 2 2
  1 ≤ count ∧ count ≤ 1023 ∧ zeroBytes c.params 4 28 = true ∧ c.body.length = 64 * count ∧ first + count ≤ 4096 ∧
    ∀ i < count, loadOk (c.bundle i) (first + i) c.target (mine.map (·.val)) = true

/-- The same as the model decides it. -/
def Capsule.loads (mine : List SeqId) (c : Capsule) : Bool :=
  let first := c.param 0 2
  let count := c.param 2 2
  decide (1 ≤ count ∧ count ≤ 1023) && zeroBytes c.params 4 28 && c.body.length == 64 * count &&
    decide (first + count ≤ 4096) &&
      (bundlesOf c.body count).zipIdx.all fun e => loadOk e.1 (first + e.2) c.target (mine.map (·.val))

theorem Capsule.loads_iff (mine : List SeqId) (c : Capsule) : c.loads mine = true ↔ c.Loads mine := by
  unfold Capsule.loads Capsule.Loads Capsule.param
  simp only [Capsule.bundles_zipIdx, Bool.and_eq_true, decide_eq_true_eq, beq_iff_eq, List.all_eq_true, List.mem_map, List.mem_range,
    forall_exists_index, and_imp, forall_apply_eq_imp_iff₂, and_assoc]

theorem State.holdsSeq_iff (s : State) (p : PartId) (t : Nat) :
    s.holdsSeq p t = true ↔ t < 16 ∧ seqOf t ∈ s.parts[p].im.img.seqs := by
  simp [State.holdsSeq, -Fin.getElem_fin]

/-- No region at work meets the bundles of a load, and its partition is not STOPPED (R151, R87). -/
def State.LoadClear (s : State) (p : PartId) (c : Capsule) : Prop :=
  let q := s.seqs[seqOf c.target]
  let r := q.bounds q.region
  s.capState p ≠ .stopped ∧ ¬(q.active = true ∧ ldNat c.params 0 2 < r.2 ∧ r.1 < ldNat c.params 0 2 + ldNat c.params 2 2)

theorem kindRuns_load (st : PartState) : kindRuns st kLoad false = true ↔ st ≠ .stopped := by
  cases st <;> decide

theorem kindRuns_start (st : PartState) : kindRuns st kStart false = true ↔ st = .running := by
  cases st <;> decide

theorem kindRuns_transfer (st : PartState) : kindRuns st kTransfer false = true ↔ st = .running := by
  cases st <;> decide

section
variable {s : State} {p : PartId} {c : Capsule} (h : NextCapsule p kLoad s c)
include h

theorem exec_programLoad : exec (.programLoad p) s = .next ((without p c s).loadCapsule p c) :=
  congrArg Host.Outcome.next (State.withCapsule_next h _)

end

theorem State.capBad_eq {p : PartId} {c : Capsule} {k : Nat} (hk : c.kind = k) (s : State) (d : Nat) :
    s.capBad p c d = s.capDone p c (kindEngine k) .refusedState d := by
  unfold State.capBad
  rw [hk]

section
variable {s : State} {p : PartId} {c : Capsule}

theorem State.loadCapsule_bad (hk : c.kind = kLoad) (h : ¬c.Loads s.parts[p].im.img.seqs) :
    s.loadCapsule p c = s.capDone p c 0x02 .refusedState 4 := by
  have hno : (!c.loads s.parts[p].im.img.seqs) = true := by
    rw [Bool.not_eq_true', ← Bool.not_eq_true, c.loads_iff]
    exact h
  exact (if_pos hno).trans (State.capBad_eq hk s 4)

section
variable (hform : c.Loads s.parts[p].im.img.seqs)
include hform

theorem Capsule.loads_of : ¬(!c.loads s.parts[p].im.img.seqs) = true := by
  rw [(c.loads_iff _).mpr hform]
  exact nofun

theorem State.loadCapsule_unheld (h : ¬(c.target < 16 ∧ seqOf c.target ∈ s.parts[p].im.img.seqs)) :
    s.loadCapsule p c = s.capDone p c 0x02 .refusedOwner 0 := by
  have hno : (!s.holdsSeq p c.target) = true := by rwa [← State.holdsSeq_iff, Bool.not_eq_true, ← Bool.not_eq_true'] at h
  exact (if_neg (Capsule.loads_of hform)).trans (if_pos hno)

section
variable (hheld : c.target < 16 ∧ seqOf c.target ∈ s.parts[p].im.img.seqs)
include hheld

omit hform in
theorem State.holdsSeq_of : ¬(!s.holdsSeq p c.target) = true := by
  rw [(s.holdsSeq_iff p _).mpr hheld]
  exact nofun

theorem State.loadCapsule_atWork (h : ¬s.LoadClear p c) : s.loadCapsule p c = s.capDone p c 0x02 .refusedState 0 := by
  refine (if_neg (Capsule.loads_of hform)).trans ((if_neg (State.holdsSeq_of hheld)).trans (if_pos ?_))
  by_contra hno
  simp only [Bool.or_eq_true, not_or, Bool.not_eq_true', Bool.not_eq_false, kindRuns_load, Bool.and_eq_true, decide_eq_true_eq] at hno
  exact h hno

/-- A load that is taken writes its bundles from its first index on. -/
theorem State.loadCapsule_writes (h : s.LoadClear p c) : s.loadCapsule p c =
    (s.updSeq (seqOf c.target) fun q => { q with
      imem := writeBundles c.bundle (ldNat c.params 0 2) (ldNat c.params 2 2) q.imem }).capDone p c 0x02 .done 0 := by
  obtain ⟨hst, hwork⟩ := h
  have hfold (m : Sparse Bundle512) : (bundlesOf c.body (c.param 2 2)).zipIdx.foldl
      (fun m e => Sparse.set (α := Bundle512) 0 m (c.param 0 2 + e.2) e.1) m =
        writeBundles c.bundle (ldNat c.params 0 2) (ldNat c.params 2 2) m := by
    rw [Capsule.bundles_zipIdx, List.foldl_map]
    rfl
  refine (if_neg (Capsule.loads_of hform)).trans ((if_neg (State.holdsSeq_of hheld)).trans ((if_neg ?_).trans ?_))
  · simp only [Bool.or_eq_true, not_or, Bool.not_eq_true', Bool.not_eq_false, kindRuns_load, Bool.and_eq_true, decide_eq_true_eq]
    exact ⟨hst, hwork⟩
  · simp only [hfold]

end

end

end

end Sys2Proof.Machine

/-! SUPPORT. PROGRAM_LOAD and PROGRAM_START done (06 R151, R152, R154; 07 R183; 16 R385). -/

namespace Sys2Proof.Machine

theorem without_im (p : PartId) (c : Capsule) (s : State) : (without p c s).parts[p].im = s.parts[p].im := by rw [without_part]

/-! ### A load that is taken -/

section
variable {s : State} {p : PartId} {c : Capsule} (h : NextCapsule p kLoad s c)
include h

theorem programLoad_bad (hform : ¬c.Loads s.parts[p].im.img.seqs) : CapsuleEnds (.programLoad p) p c s 0x02 .refusedState 4 := by
  refine capsuleEnds_of_capDone ((exec_programLoad h).trans (congrArg Host.Outcome.next ?_))
  exact State.loadCapsule_bad (kind_of_nextCapsule h) (by rw [without_im]; exact hform)

section
variable (hform : c.Loads s.parts[p].im.img.seqs)
include hform

theorem programLoad_unheld (hheld : ¬(c.target < 16 ∧ seqOf c.target ∈ s.parts[p].im.img.seqs)) :
    CapsuleEnds (.programLoad p) p c s 0x02 .refusedOwner 0 := by
  refine capsuleEnds_of_capDone ((exec_programLoad h).trans (congrArg Host.Outcome.next ?_))
  exact State.loadCapsule_unheld (by rw [without_im]; exact hform) (by rw [without_im]; exact hheld)

section
variable (hheld : c.target < 16 ∧ seqOf c.target ∈ s.parts[p].im.img.seqs)
include hheld

theorem programLoad_atWork (hclear : ¬s.LoadClear p c) : CapsuleEnds (.programLoad p) p c s 0x02 .refusedState 0 := by
  refine capsuleEnds_of_capDone ((exec_programLoad h).trans (congrArg Host.Outcome.next ?_))
  refine State.loadCapsule_atWork (by rw [without_im]; exact hform) (by rw [without_im]; exact hheld) ?_
  unfold State.LoadClear at hclear ⊢
  rw [without_capState]
  exact hclear

/-- A load that is taken: its bundles stand from its first index on, and it ends DONE. -/
theorem programLoad_done (hclear : s.LoadClear p c) :
    let n := seqOf c.target
    let first := ldNat c.params 0 2
    let count := ldNat c.params 2 2
    ∃ t, exec (.programLoad p) s = .next t ∧ (∀ i < count, Sparse.getD t.seqs[n].imem (first + i) 0 = c.bundle i) ∧
      (∀ k : Nat, k < first ∨ first + count ≤ k → Sparse.getD t.seqs[n].imem k 0 = Sparse.getD s.seqs[n].imem k 0) ∧
      { t.seqs[n] with imem := s.seqs[n].imem } = s.seqs[n] ∧ (∀ m, m ≠ n → t.seqs[m] = s.seqs[m]) ∧
      Recorded p (capsuleRecord s p c 0x02 .done 0) c.v0 { without p c s with seqs := t.seqs } t := by
  intro n first count
  have hwrites := State.loadCapsule_writes (s := without p c s) (p := p) (c := c) (by rw [without_im]; exact hform)
    (by rw [without_im]; exact hheld) (by
      unfold State.LoadClear at hclear ⊢
      rw [without_capState]
      exact hclear)
  obtain ⟨-, -, -, -, -, hok⟩ := hform
  have hne : ∀ i < count, c.bundle i ≠ 0 := fun i hi => loadOk_ne_zero (hok i hi)
  generalize hv : (without p c s).updSeq n (fun q => { q with imem := writeBundles c.bundle first count q.imem }) = v at hwrites
  have hseqs : v.seqs = updAt s.seqs n fun q => { q with imem := writeBundles c.bundle first count q.imem } := by
    rw [← hv]
    rfl
  have hself : v.seqs[n] = { s.seqs[n] with imem := writeBundles c.bundle first count s.seqs[n].imem } := by
    rw [hseqs]
    exact updAt_self s.seqs n _
  have hrec : Recorded p (capsuleRecord v p c 0x02 .done 0) c.v0 v (v.capDone p c 0x02 .done 0) := State.post_recorded _ _ rfl rfl
  have htseqs : (v.capDone p c 0x02 .done 0).seqs = v.seqs := by
    obtain ⟨-, -, -, -, hrest⟩ := hrec
    exact (congrArg State.seqs hrest : _)
  have himage : v.image = s.image := by
    rw [← hv]
    rfl
  have hframe : ({ without p c s with seqs := v.seqs } : State) = v := by
    rw [← hv]
    rfl
  refine ⟨_, (exec_programLoad h).trans (congrArg Host.Outcome.next hwrites), ?_⟩
  rw [htseqs, hself, hframe, ← capsuleRecord_congr himage]
  refine ⟨fun i hi => ?_, fun k hk => ?_, rfl, fun m hm => ?_, hrec⟩
  · dsimp only
    rw [writeBundles_get hne, if_pos ⟨Nat.le_add_right .., Nat.add_lt_add_left hi _⟩, Nat.add_sub_cancel_left]
  · dsimp only
    rw [writeBundles_get hne, if_neg (by omega)]
  · rw [hseqs]
    exact updAt_elsewhere id s.seqs (Ne.symm hm)

end

end

end

/-! ### The checks of a start -/

/-- The state checks of a PROGRAM_START, in their order (R152, R183, R385). -/
theorem State.startRefused_eq (s : State) (p : PartId) (seqs : List SeqId) (region : Bool) (entry : Nat) :
    s.startRefused p seqs region entry =
      if ∃ n ∈ seqs, s.seqs[n].state = .unattached then some 0
      else if ∃ n ∈ seqs, ¬((s.seqs[n].bounds region).1 ≤ entry ∧ entry < (s.seqs[n].bounds region).2) then some 3
      else if seqs = [] ∨ s.capState p ≠ .running ∨ ∃ n ∈ seqs, s.seqs[n].state ≠ .idle ∨ s.tickInEpoch n = true then some 0
      else if region = false ∧ s.parts[p].run.interlude = true then some 0
      else if region = true ∧ ∃ n ∈ s.parts[p].im.img.seqs, s.seqs[n].active = true ∧ s.seqs[n].region = false then some 2
      else if region = true ∧ (s.parts[p].groups.any fun g => g.2.busy) = true then some 1
      else none := by
  have hruns : kindRuns (s.capState p) kStart false = false ↔ s.capState p ≠ .running := by
    rw [← Bool.not_eq_true, kindRuns_start]
  unfold State.startRefused
  refine if_congr ?_ rfl (if_congr ?_ rfl (if_congr ?_ rfl (if_congr ?_ rfl (if_congr ?_ rfl (if_congr ?_ rfl rfl)))))
  · simp [-Fin.getElem_fin]
  · simp only [List.any_eq_true, Bool.not_eq_true', decide_eq_false_iff_not]
  · simp [-Fin.getElem_fin, hruns, or_assoc]
  · simp [-Fin.getElem_fin]
  · simp [-Fin.getElem_fin]
  · simp [-Fin.getElem_fin]

end Sys2Proof.Machine

/-! SUPPORT. PROGRAM_START: which sequencers it names, and which of its checks fails (06 R131, R152, R154). -/

namespace Sys2Proof.Machine

/-- The sequencers that a PROGRAM_START names. -/
def Capsule.startSeqs (mine : List SeqId) (c : Capsule) : List SeqId := if c.target = 0xFF then mine else [seqOf c.target]

/-- A PROGRAM_START names sequencers of its partition, or one that no ward is attached to (R131, R154). -/
def State.StartHeld (s : State) (p : PartId) (c : Capsule) : Prop :=
  c.target = 0xFF ∨
    c.target < 16 ∧ (seqOf c.target ∈ s.parts[p].im.img.seqs ∨ s.seqs[seqOf c.target].state = .unattached)

theorem State.startHeld_iff (s : State) (p : PartId) (c : Capsule) :
    (c.target != 0xFF && !s.holdsSeq p c.target && !s.unattached c.target) = true ↔ ¬s.StartHeld p c := by
  simp only [Bool.and_eq_true, bne_iff_ne, ne_eq, Bool.not_eq_true', ← Bool.not_eq_true, State.holdsSeq_iff, State.unattached,
    decide_eq_true_eq, beq_iff_eq, State.StartHeld]
  tauto

section
variable {s : State} {p : PartId} {c : Capsule}

theorem State.startCapsule_byte (hk : c.kind = kStart) (h : 1 < ldNat c.params 0 1) :
    s.startCapsule p c = s.capDone p c 0x02 .refusedState 4 :=
  (if_pos (decide_eq_true h)).trans (State.capBad_eq hk s 4)

section
variable (hbyte : ldNat c.params 0 1 ≤ 1)
include hbyte

theorem Capsule.region_small : ¬decide (1 < ldNat c.params 0 1) = true := by
  rw [decide_eq_true_eq]
  exact Nat.not_lt.mpr hbyte

theorem State.startCapsule_unheld (h : ¬s.StartHeld p c) : s.startCapsule p c = s.capDone p c 0x02 .refusedOwner 0 :=
  (if_neg (Capsule.region_small hbyte)).trans (if_pos ((s.startHeld_iff p c).mpr h))

section
variable (hheld : s.StartHeld p c)
include hheld

theorem State.startCapsule_refused {d : Nat} (h : s.startRefused p (c.startSeqs s.parts[p].im.img.seqs) (ldNat c.params 0 1 == 1)
    (ldNat c.params 2 2) = some d) : s.startCapsule p c = s.capDone p c 0x02 .refusedState d := by
  refine (if_neg (Capsule.region_small hbyte)).trans ((if_neg fun hno => (s.startHeld_iff p c).mp hno hheld).trans ?_)
  change (match s.startRefused p (c.startSeqs s.parts[p].im.img.seqs) (ldNat c.params 0 1 == 1) (ldNat c.params 2 2) with
    | some d => s.capDone p c 0x02 .refusedState d
    | none => _) = _
  rw [h]

theorem State.startCapsule_starts (h : s.startRefused p (c.startSeqs s.parts[p].im.img.seqs) (ldNat c.params 0 1 == 1)
    (ldNat c.params 2 2) = none) : s.startCapsule p c =
      s.startProgram p (c.startSeqs s.parts[p].im.img.seqs) (ldNat c.params 0 1 == 1) (ldNat c.params 2 2)
        #v[BitVec.ofNat 64 (ldNat c.params 8 8), BitVec.ofNat 64 (ldNat c.params 16 8), BitVec.ofNat 64 (ldNat c.params 24 8)]
        c.tag c.step (ldNat c.params 4 4) c.v0 := by
  refine (if_neg (Capsule.region_small hbyte)).trans ((if_neg fun hno => (s.startHeld_iff p c).mp hno hheld).trans ?_)
  change (match s.startRefused p (c.startSeqs s.parts[p].im.img.seqs) (ldNat c.params 0 1 == 1) (ldNat c.params 2 2) with
    | some d => _
    | none => _) = _
  rw [h]
  rfl

end

end

end

section
variable {s : State} {p : PartId} {c : Capsule}

theorem without_startRefused (seqs : List SeqId) (region : Bool) (entry : Nat) :
    (without p c s).startRefused p seqs region entry = s.startRefused p seqs region entry := by
  unfold State.startRefused
  rw [without_part, without_capState]
  rfl

theorem without_startHeld : (without p c s).StartHeld p c ↔ s.StartHeld p c := by
  unfold State.StartHeld
  rw [without_im]
  rfl

section
variable (h : NextCapsule p kStart s c)
include h

theorem exec_programStart : exec (.programStart p) s = .next ((without p c s).startCapsule p c) :=
  congrArg Host.Outcome.next (State.withCapsule_next h _)

theorem programStart_byte (hbyte : 1 < ldNat c.params 0 1) : CapsuleEnds (.programStart p) p c s 0x02 .refusedState 4 :=
  capsuleEnds_of_capDone
    ((exec_programStart h).trans (congrArg Host.Outcome.next (State.startCapsule_byte (kind_of_nextCapsule h) hbyte)))

section
variable (hbyte : ldNat c.params 0 1 ≤ 1)
include hbyte

theorem programStart_unheld (hheld : ¬s.StartHeld p c) : CapsuleEnds (.programStart p) p c s 0x02 .refusedOwner 0 :=
  capsuleEnds_of_capDone ((exec_programStart h).trans (congrArg Host.Outcome.next
    (State.startCapsule_unheld hbyte fun hu => hheld (without_startHeld.mp hu))))

section
variable (hheld : s.StartHeld p c)
include hheld

theorem programStart_refused {d : Nat} (hr : s.startRefused p (c.startSeqs s.parts[p].im.img.seqs) (ldNat c.params 0 1 == 1)
    (ldNat c.params 2 2) = some d) : CapsuleEnds (.programStart p) p c s 0x02 .refusedState d := by
  refine capsuleEnds_of_capDone ((exec_programStart h).trans (congrArg Host.Outcome.next ?_))
  exact State.startCapsule_refused hbyte (without_startHeld.mpr hheld) (by rw [without_im, without_startRefused, hr])

/-- A PROGRAM_START that passes its checks starts its program. -/
theorem programStart_starts (hr : s.startRefused p (c.startSeqs s.parts[p].im.img.seqs) (ldNat c.params 0 1 == 1)
    (ldNat c.params 2 2) = none) : ∃ t, exec (.programStart p) s = .next t ∧
      Started p (ldNat c.params 2 2)
        #v[BitVec.ofNat 64 (ldNat c.params 8 8), BitVec.ofNat 64 (ldNat c.params 16 8), BitVec.ofNat 64 (ldNat c.params 24 8)]
        (s.newProgram p (c.startSeqs s.parts[p].im.img.seqs) (ldNat c.params 0 1 == 1) c.tag c.step (ldNat c.params 4 4) c.v0)
        (without p c s) t := by
  have hstarts := State.startCapsule_starts (s := without p c s) hbyte (without_startHeld.mpr hheld)
    (by rw [without_im, without_startRefused, hr])
  rw [without_im] at hstarts
  refine ⟨_, exec_programStart h, ?_⟩
  rw [hstarts]
  exact State.startProgram_started ..

end

end

end

end

/-! ### A core at the start of a program (R158) -/

theorem Core.start_k (x : Core) (c : CoreId) (f : PFmt) (a : Vector W64 3) (i : Fin 16) : (x.start c f a).k[i] =
    if i.val < 12 then 0 else if i.val = 12 then BitVec.ofNat 64 c.val
    else if i.val = 13 then a[0] else if i.val = 14 then a[1] else a[2] := by
  simp [Core.start]

end Sys2Proof.Machine

/-! SUPPORT. TRANSFER of local addresses (07 R166, R172), and with it the capsules that move programs and data. -/

namespace Sys2Proof.Machine

/-! ### What the checks of a transfer read (R10, R166, R386) -/

/-- Does a transfer have an address of another chip? -/
def State.Remote (s : State) (x : Xfer) : Prop :=
  x.srcHost = false ∧ s.isLocal x.src = false ∨ x.dstHost = false ∧ s.isLocal x.dst = false

/-- The same as the model decides it. -/
def State.remote (s : State) (x : Xfer) : Bool := (!x.srcHost && !s.isLocal x.src) || (!x.dstHost && !s.isLocal x.dst)

theorem State.remote_iff (s : State) (x : Xfer) : s.remote x = true ↔ s.Remote x := by
  simp only [State.remote, State.Remote, Bool.or_eq_true, Bool.and_eq_true, Bool.not_eq_true']

/-- Two states alike in what the checks of a transfer read. -/
structure State.ChecksAlike (s t : State) : Prop where
  fuses : t.fuses = s.fuses
  image : t.image = s.image
  part : ∀ q : PartId, t.parts[q].im = s.parts[q].im ∧ t.parts[q].run = s.parts[q].run ∧ t.parts[q].storm = s.parts[q].storm

section
variable {s t : State} (h : s.ChecksAlike t)
include h

theorem State.ChecksAlike.isLocal (a : W64) : t.isLocal a = s.isLocal a := by
  unfold State.isLocal State.chip
  rw [h.image]

theorem State.ChecksAlike.inTorus (k : BitVec 15) : t.inTorus k = s.inTorus k := by
  unfold State.inTorus
  rw [h.image]

theorem State.ChecksAlike.corePresent (c : Nat) : t.corePresent c = s.corePresent c := by
  unfold State.corePresent State.wardPresent
  rw [h.fuses]

theorem State.ChecksAlike.addrCheck (p : PartId) (a : W64) (len : Nat) : t.addrCheck p a len = s.addrCheck p a len := by
  have hview : t.viewCheck p (gaOff a) len = s.viewCheck p (gaOff a) len := by
    unfold State.viewCheck
    simp only [h.corePresent, (h.part p).1]
  unfold State.addrCheck
  rw [h.isLocal, h.inTorus, hview]

theorem State.ChecksAlike.xferState (x : Xfer) : t.xferState x = s.xferState x := by
  obtain ⟨him, hrun, hstorm⟩ := h.part x.part
  have hprot : t.protected? x.part (gaOff x.dst) x.length = s.protected? x.part (gaOff x.dst) x.length := by
    unfold State.protected?
    dsimp only
    rw [him, hrun, hstorm]
  unfold State.xferState
  rw [h.isLocal, h.isLocal, hprot]

theorem State.ChecksAlike.xferCheck {x : Xfer} (hx : x.kind = .capsule) : t.xferCheck x = s.xferCheck x := by
  unfold State.xferCheck
  rw [hx]
  dsimp only
  rw [h.addrCheck, h.addrCheck, h.xferState]

theorem State.ChecksAlike.remote (x : Xfer) : t.remote x = s.remote x := by
  unfold State.remote
  rw [h.isLocal, h.isLocal]

end

theorem without_checksAlike (s : State) (p : PartId) (c : Capsule) : s.ChecksAlike (without p c s) where
  fuses := rfl
  image := rfl
  part q := by
    by_cases h : q = p
    · subst h
      rw [without_part]
      exact ⟨rfl, rfl, rfl⟩
    · rw [without_only p c s q h]
      exact ⟨rfl, rfl, rfl⟩

theorem State.wake_checksAlike (s : State) (p : PartId) : s.ChecksAlike (s.wake p) := by
  have hw := s.wake_rewound p
  have hparts := s.wake_parts p
  generalize s.wake p = t at hw hparts ⊢
  refine ⟨(congrArg State.fuses hw : _), (congrArg State.image hw : _), fun q => ?_⟩
  rw [hparts, updAt_get_fin]
  split
  · rename_i h
    rw [h]
    exact ⟨rfl, rfl, rfl⟩
  · exact ⟨rfl, rfl, rfl⟩

/-! ### The transfer that a capsule asks for -/

/-- The transfer of a TRANSFER capsule (R172). -/
def Capsule.xfer (c : Capsule) (s : State) (p : PartId) : Xfer :=
  let flags := ldNat c.params 24 1
  { id := s.nextItem, kind := .capsule, part := p, tag := c.tag, src := BitVec.ofNat 64 (ldNat c.params 0 8)
    dst := BitVec.ofNat 64 (ldNat c.params 8 8), srcHost := flags.testBit 0, dstHost := flags.testBit 1
    length := ldNat c.params 16 8, op := BitVec.ofNat 2 (flags / 32), tc := BitVec.ofNat 2 (flags / 4 % 4)
    ord := flags.testBit 4, ieee := s.ieee p, step := c.step, raiseV0 := c.v0 }

/-- The form of a TRANSFER capsule (R172). -/
def Capsule.Transfers (c : Capsule) : Prop :=
  let flags := ldNat c.params 24 1
  let len := ldNat c.params 16 8
  c.body = [] ∧ zeroBytes c.params 25 7 = true ∧ 64 ≤ len ∧ len ≤ 4294967296 ∧ len % 64 = 0 ∧ flags / 4 % 4 ≠ 2 ∧
    flags / 32 ≤ 3 ∧ ¬(flags.testBit 0 = true ∧ flags.testBit 1 = true)

/-- The same as the model decides it. -/
def Capsule.transfers (c : Capsule) : Bool :=
  let flags := c.param 0x18 1
  let len := c.param 0x10 8
  c.body.isEmpty && zeroBytes c.params 0x19 7 && decide (64 ≤ len ∧ len ≤ 4294967296) && len % 64 == 0 &&
    flags / 4 % 4 != 2 && decide (flags / 32 ≤ 3) && !(flags.testBit 0 && flags.testBit 1)

theorem Capsule.transfers_iff (c : Capsule) : c.transfers = true ↔ c.Transfers := by
  have hhosts (a b : Bool) : (!(a && b)) = true ↔ ¬(a = true ∧ b = true) := by
    rw [Bool.not_eq_true', ← Bool.not_eq_true, Bool.and_eq_true]
  unfold Capsule.transfers Capsule.Transfers Capsule.param
  simp only [hhosts, Bool.and_eq_true, List.isEmpty_iff, decide_eq_true_eq,
    beq_iff_eq, bne_iff_ne, ne_eq, and_assoc]

section
variable {s : State} {p : PartId} {c : Capsule}

theorem State.transferCapsule_bad (h : ¬c.Transfers) : s.transferCapsule p c =
    s.capDone p c (if s.remote (c.xfer s p) then 0x09 else 0x03) .refusedState 4 := by
  have hno : (!c.transfers) = true := by
    rw [Bool.not_eq_true', ← Bool.not_eq_true, c.transfers_iff]
    exact h
  exact if_pos hno

section
variable (hform : c.Transfers)
include hform

theorem Capsule.transfers_of : ¬(!c.transfers) = true := by
  rw [c.transfers_iff.mpr hform]
  exact nofun

theorem State.transferCapsule_eq : s.transferCapsule p c =
    match s.xferCheck (c.xfer s p) with
    | some o => s.capDone p c (if s.remote (c.xfer s p) then 0x09 else 0x03) o 0
    | none =>
      if !kindRuns (s.capState p) kTransfer false then
        s.capDone p c (if s.remote (c.xfer s p) then 0x09 else 0x03) .refusedState 0
      else (({ s with nextItem := s.nextItem + 1 } : State).wake p).startXfer (c.xfer s p) :=
  if_neg (Capsule.transfers_of hform)

end

end

/-- A transfer of local addresses that passes its checks is left to the mover. -/
theorem State.startXfer_local {s : State} {x : Xfer} (hk : x.kind = .capsule) (hlocal : s.remote x = false) (hr : x.remote = false)
    (hc : s.xferCheck x = none) : s.startXfer x = { s with xfers := s.xfers ++ [{ x with hostAt := s.timeNs }] } := by
  have hx : ({ x with kind := .capsule, remote := false, hostAt := s.timeNs } : Xfer) = { x with hostAt := s.timeNs } := by
    rw [← hr, ← hk]
  have hcheck : s.xferCheck { x with kind := .capsule, remote := false, hostAt := s.timeNs } = none := by
    rw [hx]
    exact hc
  have hfar : ((!x.srcHost && !s.isLocal x.src) || (!x.dstHost && !s.isLocal x.dst)) = false := hlocal
  unfold State.startXfer
  rw [hk]
  dsimp only
  rw [hfar, hcheck, hr]
  rfl

section
variable {s : State} {p : PartId} {c : Capsule}

theorem without_xfer : c.xfer (without p c s) p = c.xfer s p := by
  unfold Capsule.xfer State.ieee
  rw [without_part]
  rfl

/-- The engine that reports a TRANSFER (R172). -/
def State.xferEngine (s : State) (x : Xfer) : Byte := if s.remote x then 0x09 else 0x03

theorem State.xferEngine_eq (x : Xfer) (h : Decidable (s.Remote x)) : s.xferEngine x = if s.Remote x then 0x09 else 0x03 :=
  if_congr (s.remote_iff x) rfl rfl

theorem without_xferEngine : (without p c s).xferEngine (c.xfer s p) = s.xferEngine (c.xfer s p) := by
  unfold State.xferEngine
  rw [(without_checksAlike s p c).remote]

section
variable (h : NextCapsule p kTransfer s c)
include h

theorem exec_transfer : exec (.transfer p) s = .next ((without p c s).transferCapsule p c) :=
  congrArg Host.Outcome.next (State.withCapsule_next h _)

theorem transfer_bad (hform : ¬c.Transfers) : CapsuleEnds (.transfer p) p c s (s.xferEngine (c.xfer s p)) .refusedState 4 := by
  refine capsuleEnds_of_capDone ((exec_transfer h).trans (congrArg Host.Outcome.next ?_))
  rw [State.transferCapsule_bad hform, without_xfer, ← without_xferEngine]
  rfl

section
variable (hform : c.Transfers)
include hform

theorem transfer_refused {o : OutcomeCode} (hc : s.xferCheck (c.xfer s p) = some o) :
    CapsuleEnds (.transfer p) p c s (s.xferEngine (c.xfer s p)) o 0 := by
  refine capsuleEnds_of_capDone ((exec_transfer h).trans (congrArg Host.Outcome.next ?_))
  rw [State.transferCapsule_eq hform, without_xfer, (without_checksAlike s p c).xferCheck rfl, hc, ← without_xferEngine]
  rfl

section
variable (hc : s.xferCheck (c.xfer s p) = none)
include hc

theorem transfer_atRest (hst : s.capState p ≠ .running) :
    CapsuleEnds (.transfer p) p c s (s.xferEngine (c.xfer s p)) .refusedState 0 := by
  have hno : (!kindRuns (s.capState p) kTransfer false) = true := by
    rw [Bool.not_eq_true', ← Bool.not_eq_true, kindRuns_transfer]
    exact hst
  refine capsuleEnds_of_capDone ((exec_transfer h).trans (congrArg Host.Outcome.next ?_))
  rw [State.transferCapsule_eq hform, without_xfer, (without_checksAlike s p c).xferCheck rfl, hc, without_capState,
    ← without_xferEngine]
  exact if_pos hno

/-- A TRANSFER of local addresses that passes its checks is one item in flight, its partition awake. -/
theorem transfer_moves (hst : s.capState p = .running) (hlocal : ¬s.Remote (c.xfer s p)) :
    ∃ t, exec (.transfer p) s = .next t ∧ t.xfers = s.xfers ++ [{ c.xfer s p with hostAt := s.timeNs }] ∧
      t.nextItem = s.nextItem + 1 ∧ t.parts[p].lull.reached = 0 ∧ OnlyPart p s t ∧
      { t.parts[p] with lull := s.parts[p].lull } = (without p c s).parts[p] ∧ t.host = s.host ∧ t.cores = s.cores ∧
      t.programs = s.programs ∧ t.seqs = s.seqs ∧ t.ports = s.ports ∧ t.pending = s.pending := by
  have hruns : ¬(!kindRuns (s.capState p) kTransfer false) = true := by
    rw [(kindRuns_transfer _).mpr hst]
    exact nofun
  have hgo : (without p c s).transferCapsule p c =
      (({ without p c s with nextItem := s.nextItem + 1 } : State).wake p).startXfer (c.xfer s p) := by
    rw [State.transferCapsule_eq hform, without_xfer, (without_checksAlike s p c).xferCheck rfl, hc, without_capState]
    exact if_neg hruns
  have halike := State.wake_checksAlike { without p c s with nextItem := s.nextItem + 1 } p
  have hw := State.wake_rewound { without p c s with nextItem := s.nextItem + 1 } p
  have hparts := State.wake_parts { without p c s with nextItem := s.nextItem + 1 } p
  have hpart := State.wake_part { without p c s with nextItem := s.nextItem + 1 } p
  have hun : ({ without p c s with nextItem := s.nextItem + 1 } : State).xferCheck (c.xfer s p) = none :=
    ((without_checksAlike s p c).xferCheck rfl).trans hc
  have hunr : ({ without p c s with nextItem := s.nextItem + 1 } : State).remote (c.xfer s p) = false := by
    rw [← Bool.not_eq_true]
    exact fun hr => hlocal ((s.remote_iff _).mp (((without_checksAlike s p c).remote _).symm.trans hr))
  generalize State.wake { without p c s with nextItem := s.nextItem + 1 } p = t at hgo halike hw hparts hpart
  rw [State.startXfer_local rfl ((halike.remote _).trans hunr) rfl ((halike.xferCheck rfl).trans hun)] at hgo
  have htime : t.timeNs = s.timeNs := (congrArg State.timeNs hw : _)
  have hxfers : t.xfers = s.xfers := (congrArg State.xfers hw : _)
  refine ⟨_, (exec_transfer h).trans (congrArg Host.Outcome.next hgo), by rw [htime, hxfers], (congrArg State.nextItem hw : _), ?_,
    fun q hq => ?_, ?_, (congrArg State.host hw : _), (congrArg State.cores hw : _), (congrArg State.programs hw : _),
    (congrArg State.seqs hw : _), (congrArg State.ports hw : _), (congrArg State.pending hw : _)⟩
  · dsimp only
    rw [hpart]
    rfl
  · dsimp only
    rw [hparts]
    exact (updAt_elsewhere id (without p c s).parts (Ne.symm hq)).trans (without_only p c s q hq)
  · dsimp only
    rw [hpart, without_part]

end

end

end

end

end Sys2Proof.Machine

/-! SUPPORT. The checks of a start, one after another, and the capsules of programs and transfers together. -/

namespace Sys2Proof.Machine

/-- Some sequencer of a list has no ward attached (R131). -/
def State.Loose (s : State) (l : List SeqId) : Prop := ∃ n ∈ l, s.seqs[n].state = .unattached

/-- An entry lies outside the region of some sequencer of a list (R152). -/
def State.Outside (s : State) (l : List SeqId) (region : Bool) (entry : Nat) : Prop :=
  ∃ n ∈ l, ¬((s.seqs[n].bounds region).1 ≤ entry ∧ entry < (s.seqs[n].bounds region).2)

/-- A list of sequencers that may not start now (R152, R183). -/
def State.NotIdle (s : State) (p : PartId) (l : List SeqId) : Prop :=
  l = [] ∨ s.capState p ≠ .running ∨ ∃ n ∈ l, s.seqs[n].state ≠ .idle ∨ s.tickInEpoch n = true

/-- The main region of a partition runs (R385). -/
def State.MainRuns (s : State) (p : PartId) : Prop :=
  ∃ n ∈ s.parts[p].im.img.seqs, s.seqs[n].active = true ∧ s.seqs[n].region = false

/-- A group of a partition is busy (R385). -/
def State.GroupBusy (s : State) (p : PartId) : Prop := ∃ g ∈ s.parts[p].groups, g.2.busy = true

section
variable {s : State} {p : PartId} {l : List SeqId} {region : Bool} {entry : Nat}

theorem State.startRefused_loose (h : s.Loose l) : s.startRefused p l region entry = some 0 := by
  rw [s.startRefused_eq]
  exact if_pos h

section
variable (hloose : ¬s.Loose l)
include hloose

theorem State.startRefused_outside (h : s.Outside l region entry) : s.startRefused p l region entry = some 3 := by
  rw [s.startRefused_eq]
  exact (if_neg hloose).trans (if_pos h)

section
variable (houtside : ¬s.Outside l region entry)
include houtside

theorem State.startRefused_notIdle (h : s.NotIdle p l) : s.startRefused p l region entry = some 0 := by
  rw [s.startRefused_eq]
  exact (if_neg hloose).trans ((if_neg houtside).trans (if_pos h))

section
variable (hidle : ¬s.NotIdle p l)
include hidle

theorem State.startRefused_interlude (hr : region = false) (h : s.parts[p].run.interlude = true) :
    s.startRefused p l region entry = some 0 := by
  rw [s.startRefused_eq]
  exact (if_neg hloose).trans ((if_neg houtside).trans ((if_neg hidle).trans (if_pos ⟨hr, h⟩)))

theorem State.startRefused_mainRuns (hr : region = true) (h : s.MainRuns p) : s.startRefused p l region entry = some 2 := by
  rw [s.startRefused_eq]
  exact (if_neg hloose).trans ((if_neg houtside).trans ((if_neg hidle).trans
    ((if_neg fun hn => Bool.false_ne_true (hn.1.symm.trans hr)).trans (if_pos ⟨hr, h⟩))))

theorem State.startRefused_busy (hr : region = true) (hmain : ¬s.MainRuns p) (h : s.GroupBusy p) :
    s.startRefused p l region entry = some 1 := by
  rw [s.startRefused_eq]
  exact (if_neg hloose).trans ((if_neg houtside).trans ((if_neg hidle).trans
    ((if_neg fun hn => Bool.false_ne_true (hn.1.symm.trans hr)).trans ((if_neg fun hn => hmain hn.2).trans
      (if_pos ⟨hr, List.any_eq_true.mpr h⟩)))))

theorem State.startRefused_none (hmain : region = false → s.parts[p].run.interlude = false)
    (hinter : region = true → ¬s.MainRuns p ∧ ¬s.GroupBusy p) : s.startRefused p l region entry = none := by
  rw [s.startRefused_eq]
  refine (if_neg hloose).trans ((if_neg houtside).trans ((if_neg hidle).trans
    ((if_neg fun hn => ?_).trans ((if_neg fun hn => (hinter hn.1).1 hn.2).trans (if_neg fun hn => ?_)))))
  · obtain ⟨hr, hi⟩ := hn
    exact Bool.false_ne_true ((hmain hr).symm.trans hi)
  · exact (hinter hn.1).2 (List.any_eq_true.mp hn.2)

end

end

end

end

/-- Settles O26: PROGRAM_LOAD by `programLoad_done`, PROGRAM_START by `State.startRefused_eq` and `programStart_starts`, a core
at a start by `Core.start_k`, TRANSFER by `transfer_moves`; the refusals by the lemma of each check. -/
theorem programAndTransferCapsules : Obligations.ProgramAndTransferCapsules := by
  refine ⟨fun s p c h => ⟨fun hform => programLoad_bad h hform, fun hform hheld => programLoad_unheld h hform hheld,
      fun hform hheld hclear => programLoad_atWork h hform hheld hclear, fun hform hheld hclear => programLoad_done h hform hheld hclear⟩,
    fun s p c h => ?_, fun x c f a => ⟨x.start_k c f a 12, x.start_k c f a 13, x.start_k c f a 14, x.start_k c f a 15,
      fun i hi => (x.start_k c f a i).trans (if_pos hi), rfl, rfl, rfl, rfl⟩, fun s p c h => ?_⟩
  · intro byte0 region entry mine seqs held loose outside notIdle mainRuns busy limit i
    have hregion : (byte0 == 1) = true ↔ region := beq_iff_eq
    have hmain : (byte0 == 1) = false ↔ ¬region := by rw [← Bool.not_eq_true, hregion]
    refine ⟨programStart_byte h, fun hb => programStart_unheld h hb,
      fun hb hh hl => programStart_refused h hb hh (State.startRefused_loose hl),
      fun hb hh hl ho => programStart_refused h hb hh (State.startRefused_outside hl ho), fun hb hh hl ho hn => ?_,
      fun hh hl ho hn hr hm => programStart_refused h (Nat.le_of_eq hr) hh (State.startRefused_mainRuns hl ho hn (hregion.mpr hr) hm),
      fun hh hl ho hn hr hm hg =>
        programStart_refused h (Nat.le_of_eq hr) hh (State.startRefused_busy hl ho hn (hregion.mpr hr) hm hg),
      fun hb hh hl ho hn hm hi => programStart_starts h hb hh (State.startRefused_none hl ho hn (fun hr => hm (hmain.mp hr))
        fun hr => hi (hregion.mp hr))⟩
    refine programStart_refused h hb hh ?_
    by_cases hidle : s.NotIdle p seqs
    · exact State.startRefused_notIdle hl ho hidle
    · obtain ⟨hr, hinter⟩ := hn.resolve_left hidle
      exact State.startRefused_interlude hl ho hidle (hmain.mpr hr) hinter
  · intro flags len x good remote engine
    have hengine : s.xferEngine (c.xfer s p) = engine := State.xferEngine_eq ..
    rw [← hengine]
    exact ⟨transfer_bad h, fun o hform => transfer_refused h hform, fun hform => transfer_atRest h hform,
      fun hform => transfer_moves h hform⟩

end Sys2Proof.Machine

/-! SUPPORT. A lone operation that acts on the generators, the queue ends and the results in flight of its core; the scalar
slot (06 R137, R139; 07 R159, R160, R167, R168). -/

namespace Sys2Proof.Machine

/-! ### Lone operations -/

section
variable {s : State} {c : CoreId} {ok : Bool} {d : Bundle} {i : Instr} {l : List Flight}

/-- A lone operation that passes its checks, moves generators and queue ends, and sends results that fall due later. -/
theorem State.single_sends {g : Vector Agen 16} {q : Vector QueueEnd 32} {n : Nat} {a : List Reg4} {m : List Nat}
    (hi : exec i s = .next (s.single c ok d)) (hopen : CoreOpen s c) (hok : ok = true) (hskip : d.skip = 0) (hseq : d.seqIdx = 0)
    (hbeat : (loneBeat s c).bundle { d with version := 1 } =
      { loneBeat s c with
        slot := n, advanced := a, banks := m
        new := { s.cores[c].lone with ag := g, queues := q, inflight := s.cores[c].inflight ++ l } })
    (hl : ∀ f ∈ l, s.cores[c].beats < f.due) : CoreBecomes i c s { oneBeat s.cores[c] l with ag := g, queues := q } := by
  obtain ⟨-, -, hgrace, hdue⟩ := id hopen
  exact s.single_becomes c ok d i _ hi hopen hok hskip hseq (congrArg Beat.faults hbeat) (congrArg Beat.exts hbeat)
    (congrArg Beat.new hbeat) rfl hgrace rfl fun f hf => (List.mem_append.mp hf).elim (hdue f) (hl f)

/-- A lone operation that sends results and does nothing else. -/
theorem State.single_sends_only {n : Nat} (hi : exec i s = .next (s.single c ok d)) (hopen : CoreOpen s c) (hok : ok = true)
    (hskip : d.skip = 0) (hseq : d.seqIdx = 0)
    (hbeat : (loneBeat s c).bundle { d with version := 1 } =
      { loneBeat s c with slot := n, new := { s.cores[c].lone with inflight := s.cores[c].inflight ++ l } })
    (hl : ∀ f ∈ l, s.cores[c].beats < f.due) : CoreBecomes i c s (oneBeat s.cores[c] l) :=
  State.single_sends hi hopen hok hskip hseq hbeat hl

/-- A lone NOP takes its beat. -/
theorem State.single_nop (hi : exec i s = .next (s.single c ok d)) (hopen : CoreOpen s c) (hok : ok = true)
    (hskip : d.skip = 0) (hseq : d.seqIdx = 0) (hbeat : (loneBeat s c).bundle { d with version := 1 } = loneBeat s c) :
    CoreBecomes i c s (oneBeat s.cores[c] []) :=
  State.single_sends_only (n := 0) hi hopen hok hskip hseq (by rw [hbeat, List.append_nil]; rfl) fun _ hf =>
    absurd hf List.not_mem_nil

end

/-! ### The scalar slot (R159) -/

section
variable {s : State} {c : CoreId} {ok : Bool} {o : ScalarOp} {x : SArgs} {i : Instr} {k : Nat} {r : Result}

/-- A scalar operation that sends one result. -/
theorem scalar_sends (hi : exec i s = .next (s.single c ok (scalarBundle o x))) (hopen : CoreOpen s c) (hok : ok = true)
    (hk : 0 < k) (hb : (loneBeat s c).scalar o x = ({ loneBeat s c with slot := 0 } : Beat).after k 1 r) :
    CoreBecomes i c s (oneBeat s.cores[c] [due s c k 1 0 r]) := by
  refine State.single_sends_only (n := 0) hi hopen hok rfl rfl hb fun f hf => ?_
  rw [List.mem_singleton.mp hf]
  exact Nat.lt_add_of_pos_right hk

end

/-- An arithmetic command writes the value that its operation makes of the registers as the beat finds them. -/
theorem scalarWrites_of {i : CoreId → SArgs → Instr} {o : ScalarOp} {k : Nat} {v : SArgs → W64 → W64 → W64}
    (hv : ∀ x a b, scalarValue o x a b = v x a b := by intros; rfl)
    (hi : ∀ c x s, exec (i c x) s = .next (s.single c true (scalarBundle o x)) := by intros; rfl)
    (hb : ∀ (b : Beat) (x : SArgs),
      b.scalar o x = ({ b with slot := 0 } : Beat).after k 1 (.kreg x.d (scalarValue o x (b.k x.a) (b.k x.b))) := by intros; rfl)
    (hk : 0 < k := by decide) : ScalarWrites i k v := by
  intro s c x hopen
  rw [← hv]
  exact scalar_sends (hi c x s) hopen rfl hk (hb _ x)

theorem bits_low {n : Nat} (w : BitVec n) (len : Nat) : bits w 0 len = w.toNat % 2 ^ len := by
  rw [bits_eq, Nat.pow_zero, Nat.div_one]

/-- Settles O29: `scalarWrites_of` for each operation; a NOP sends nothing. -/
theorem scalarArithmeticWritesItsRegister : Obligations.ScalarArithmeticWritesItsRegister := by
  have hshift (v : W64 → Nat → W64) (x : SArgs) (a : W64) : v a (bits x.imm 0 6) = v a (x.imm.toNat % 64) :=
    congrArg (v a) (bits_low x.imm 6)
  exact ⟨fun s c hopen => State.single_nop (d := scalarBundle .nop noSArgs) rfl hopen rfl rfl rfl rfl,
    scalarWrites_of (o := .movi), scalarWrites_of (o := .movhi), scalarWrites_of (o := .add), scalarWrites_of (o := .sub),
    scalarWrites_of (o := .and), scalarWrites_of (o := .or), scalarWrites_of (o := .xor),
    scalarWrites_of (o := .shl) (hv := fun x a _ => hshift (· <<< ·) x a),
    scalarWrites_of (o := .shr) (hv := fun x a _ => hshift (· >>> ·) x a),
    scalarWrites_of (o := .sar) (hv := fun x a _ => hshift BitVec.sshiftRight x a), scalarWrites_of (o := .mul)⟩

end Sys2Proof.Machine

/-! SUPPORT. Checks that pass; address generators, the time and the transfer ring in the scalar slot (07 R159, R160, R167,
R168). -/

namespace Sys2Proof.Machine

/-! ### Checks that pass (R148) -/

theorem Beat.run_passes {b : Beat} {slot : Nat} {l : List Check} (h : ∀ k ∈ l, k = none) (eff : Beat → Beat) :
    b.run slot l eff = eff { b with slot := slot } := by
  have hnone : l.findSome? id = none := List.findSome?_eq_none_iff.mpr h
  unfold Beat.run
  dsimp only
  rw [hnone]

theorem failIf_none {b : Bool} (h : ¬b = true) (cause : Nat) : failIf b cause = none := if_neg h

/-! ### XRING and XFREE (R167, R168) -/

theorem xringRange_false {x : SArgs} {ka : W64} (hlow : 4 ≤ x.imm.toNat % 16) (hhigh : x.imm.toNat % 16 ≤ 12)
    (hfits : bits ka 8 14 * 256 + 32 * 2 ^ (x.imm.toNat % 16) ≤ 0x300000) : ¬xringRange x ka = true := by
  have hk : bits x.imm 0 4 = x.imm.toNat % 16 := bits_low x.imm 4
  simp only [xringRange, hk, Nat.shiftLeft_eq, coreMemSize, Bool.or_eq_true, decide_eq_true_eq]
  omega

theorem Beat.scalar_xring {b : Beat} {x : SArgs} (hrange : ¬xringRange x (b.k x.a) = true) (hfree : b.new.ring.used = 0) :
    b.scalar .xring x =
      ({ b with slot := 0 } : Beat).after 1 1 (.ring (BitVec.ofNat 14 (bits (b.k x.a) 8 14)) (bits x.imm 0 4)) := by
  refine Beat.run_passes (l := [_, _]) ?_ fun b' => b'.after 1 1 _
  rw [List.forall_mem_cons, List.forall_mem_singleton, hfree]
  exact ⟨failIf_none hrange _, rfl⟩

theorem Beat.scalar_xfree {b : Beat} {x : SArgs} (hused : x.imm.toNat ≤ b.new.ring.used) :
    b.scalar .xfree x = ({ b with slot := 0 } : Beat).after 1 1 (.ringFree x.imm.toNat) := by
  refine Beat.run_passes (l := [_]) (List.forall_mem_singleton.mpr (failIf_none ?_ _)) fun b' => b'.after 1 1 _
  rw [decide_eq_true_eq]
  exact Nat.not_lt.mpr hused

/-- How far the field's copy of the time lags (R159): a free value (log 7). -/
def State.timeLag (s : State) : Nat := 10 * ((Config.free64 s.freeCount).toNat % 5)

theorem State.timeLag_le (s : State) : s.timeLag ≤ 40 := by
  unfold State.timeLag
  omega

/-- Settles O30: `scalar_sends` for each command; the checks of XRING and XFREE pass under their premises. -/
theorem generatorTimeAndRingCommands : Obligations.GeneratorTimeAndRingCommands := by
  refine ⟨fun s c x hopen hfield => ?_, fun s c x hopen => ?_, fun s c x hopen => ?_, fun s c x hopen => ?_,
    fun s c x hopen => ⟨s.timeLag, s.timeLag_le, ?_⟩, fun s c x hopen => ?xring,
    fun s c x hopen hone hmost hused => ?xfree⟩
  · exact scalar_sends (o := .agset) rfl hopen (decide_eq_true hfield) Nat.one_pos rfl
  · exact scalar_sends (o := .agrst) rfl hopen rfl Nat.one_pos rfl
  · exact scalar_sends (o := .agget) rfl hopen rfl Nat.one_pos rfl
  · exact scalar_sends (o := .rdbeats) rfl hopen rfl Nat.one_pos rfl
  · exact scalar_sends (o := .rdtime) rfl hopen rfl Nat.two_pos rfl
  case xring =>
    intro k line hlow hhigh hfits hunused
    have hk : bits x.imm 0 4 = k := bits_low x.imm 4
    rw [← hk]
    exact scalar_sends (o := .xring) rfl hopen rfl Nat.one_pos
      (Beat.scalar_xring (xringRange_false hlow hhigh hfits) (Nat.sub_eq_zero_of_le hunused))
  case xfree =>
    exact scalar_sends (o := .xfree) rfl hopen (decide_eq_true ⟨hone, hmost⟩) Nat.one_pos
      (Beat.scalar_xfree (Nat.le_sub_of_add_le' hused))

end Sys2Proof.Machine

/-! SUPPORT. The load and the store slot (07 R162 to R164; 06 R145 to R148): what their checks ask, and their lone operations. -/

namespace Sys2Proof.Machine

/-! ### Generators that advance (R160, R161) -/

/-- The generators of a core after the uses of one operation, in order. -/
def advAll (uses : List (Reg4 × Bool)) (v : Vector Agen 16) : Vector Agen 16 := uses.foldl (fun v u => advIf u.2 u.1 v) v

theorem Beat.advance_eq (uses : List (Reg4 × Bool)) (b : Beat) :
    ∃ l, b.advance uses = { b with new := { b.new with ag := advAll uses b.new.ag }, advanced := l } := by
  induction uses generalizing b with
  | nil => exact ⟨b.advanced, rfl⟩
  | cons u uses ih =>
    obtain ⟨g, adv⟩ := u
    cases adv with
    | true => exact ih { b with new := { b.new with ag := updAt b.new.ag g Agen.advance }, advanced := g :: b.advanced }
    | false => exact ih b

theorem Beat.advCheck_one {b : Beat} (h : b.advanced = []) (g : Reg4) (adv : Bool) : b.advCheck [(g, adv)] = none := by
  cases adv with
  | true => simp [Beat.advCheck, Beat.advCheck.allPairs', h]
  | false => rfl

theorem Beat.advCheck_two {b : Beat} (h : b.advanced = []) {g k : Reg4} {adv adv' : Bool}
    (hne : ¬(adv = true ∧ adv' = true ∧ g = k)) : b.advCheck [(g, adv), (k, adv')] = none := by
  match adv, adv' with
  | true, true =>
    have hgk : g ≠ k := fun e => hne ⟨rfl, rfl, e⟩
    simp [Beat.advCheck, Beat.advCheck.allPairs', h, hgk]
  | true, false => exact Beat.advCheck_one h g true
  | false, adv' => exact Beat.advCheck_one h k adv'

/-! ### Lines and banks (R163, R164) -/

theorem lineRange_within {a : Nat} (h : a < 0x300000) : lineRange a = none :=
  failIf_none (by rw [decide_eq_true_eq]; exact Nat.not_le.mpr h) _

theorem bankCheck_one (a : Nat) : bankCheck [] [a] = none := rfl

theorem bankCheck_two {a b : Nat} (h : bankOf a ≠ bankOf b) : bankCheck [] [a, b] = none := by
  simp [bankCheck, failIf, h]

theorem Core.busyBanks_quiet {x : Core} (h : ∀ f ∈ x.inflight, x.beats < f.due) : x.busyBanks = [] := by
  refine List.filterMap_eq_nil_iff.mpr fun f hf => ?_
  split
  · exact if_neg (Nat.ne_of_gt (h f hf))
  · rfl

/-! ### Queue ends (R145, R147, R148) -/

theorem portCheckPush_bound {x : Core} {q : QId} {port : Nat} (h : topoPush x.queues[q].topo = port) :
    portCheckPush x q port = none := if_pos h

theorem portCheckPop_bound {x : Core} {q : QId} {port : Nat} (h : topoPop x.queues[q].topo = port) :
    portCheckPop x q port = none := if_pos h

section
variable {x : Core} {q : QOp} {f : Fmt} {e : Entry} (h : HeadIs x q f e)
include h

theorem popCheck_head : popCheck x q (some (fmtCode f)) = none := by
  obtain ⟨hhead, hepoch, hfmt⟩ := h
  obtain ⟨r, hr⟩ := List.head?_eq_some_iff.mp hhead
  unfold popCheck Core.queue
  rw [hr]
  simp [hepoch, hfmt]

theorem Core.head_of : x.head q.q = e := by
  obtain ⟨r, hr⟩ := List.head?_eq_some_iff.mp h.1
  unfold Core.head Core.queue
  rw [hr]

end

/-! ### Lone loads and stores -/

section
variable {s : State} {c : CoreId} (hopen : CoreOpen s c)
include hopen

theorem loneBeat_bankCheck (l : List Nat) :
    bankCheck ((loneBeat s c).old.busyBanks ++ (loneBeat s c).banks) l = bankCheck [] l := by
  obtain ⟨-, -, -, hdue⟩ := hopen
  exact congrArg (bankCheck · l) (congrArg (· ++ []) (Core.busyBanks_quiet (x := (loneBeat s c).old) hdue))

section
variable {x : LqArgs} (hline : agLine s.cores[c] x.ag < 0x300000)
include hline

/-- LDQ (R162): the line and its poison on the way to the queue end. -/
theorem ldq_becomes (hwf : (Instr.ldq c x).wf = true)
    (hport : topoPush s.cores[c].queues[x.q.q].topo = if x.portB then 0x02 else 0x01) :
    CoreBecomes (.ldq c x) c s { oneBeat s.cores[c] [due s c 3 1 3 (.push x.q x.fmt
        (s.cores[c].line (agLine s.cores[c] x.ag)) (s.cores[c].memPoisoned (agLine s.cores[c] x.ag) 256))] with
      ag := advIf x.adv x.ag s.cores[c].ag } := by
  obtain ⟨l, hadv⟩ := ({ loneBeat s c with slot := 3 } : Beat).advance_eq [(x.ag, x.adv)]
  refine State.single_sends (d := loadBundle (.one x)) (g := advIf x.adv x.ag s.cores[c].ag) (q := s.cores[c].queues) rfl hopen hwf
    rfl rfl (n := 3) (a := l) (m := [bankOf (agLine s.cores[c] x.ag)]) ?_ (by simp [due])
  change (loneBeat s c).load (.one x) = _
  unfold Beat.load
  dsimp only
  rw [Beat.run_passes, hadv]
  · rfl
  · simp only [List.forall_mem_cons]
    exact ⟨portCheckPush_bound hport, lineRange_within hline, Beat.advCheck_one rfl _ _,
      (loneBeat_bankCheck hopen _).trans (bankCheck_one _), List.forall_mem_nil _⟩

/-- STQ (R162): the head of the queue end on the way to the line. -/
theorem stq_becomes {e : Entry} (hwf : (Instr.stq c x).wf = true)
    (hport : topoPop s.cores[c].queues[x.q.q].topo = if x.portB then 0x18 else 0x17) (hhead : HeadIs s.cores[c] x.q x.fmt e) :
    CoreBecomes (.stq c x) c s { oneBeat s.cores[c] [due s c 2 1 4 (.memLine (agLine s.cores[c] x.ag) e.data e.poison)] with
      ag := advIf x.adv x.ag s.cores[c].ag, queues := popped s.cores[c] x.q.q } := by
  obtain ⟨l, hadv⟩ := ({ loneBeat s c with slot := 4 } : Beat).advance_eq [(x.ag, x.adv)]
  refine State.single_sends (d := storeBundle (.one x)) (g := advIf x.adv x.ag s.cores[c].ag) (q := popped s.cores[c] x.q.q) rfl
    hopen hwf rfl rfl (n := 4) (a := l) (m := []) ?_ (by simp [due])
  change (loneBeat s c).store (.one x) = _
  unfold Beat.store
  dsimp only
  rw [Beat.run_passes, hadv]
  · have he : (loneBeat s c).old.head x.q.q = e := Core.head_of hhead
    rw [← he]
    rfl
  · simp only [List.forall_mem_cons]
    exact ⟨portCheckPop_bound hport, lineRange_within hline, Beat.advCheck_one rfl _ _, popCheck_head hhead, List.forall_mem_nil _⟩

end

section
variable {x : Lq2Args} (hA : agLine s.cores[c] x.agA < 0x300000) (hB : agLine s.cores[c] x.agB < 0x300000)
  (hbank : bankOf (agLine s.cores[c] x.agA) ≠ bankOf (agLine s.cores[c] x.agB))
  (hadvs : ¬(x.advA = true ∧ x.advB = true ∧ x.agA = x.agB))
include hA hB hbank hadvs

/-- LDQ2 (R162): two lines of two banks. -/
theorem ldq2_becomes (hwf : (Instr.ldq2 c x).wf = true) (hportA : topoPush s.cores[c].queues[x.qA.q].topo = 0x01)
    (hportB : topoPush s.cores[c].queues[x.qB.q].topo = 0x02) :
    CoreBecomes (.ldq2 c x) c s { oneBeat s.cores[c]
      [due s c 3 1 3 (.push x.qA x.fmtA
        (s.cores[c].line (agLine s.cores[c] x.agA)) (s.cores[c].memPoisoned (agLine s.cores[c] x.agA) 256)),
       due s c 3 1 3 (.push x.qB x.fmtB
        (s.cores[c].line (agLine s.cores[c] x.agB)) (s.cores[c].memPoisoned (agLine s.cores[c] x.agB) 256))] with
      ag := advIf x.advB x.agB (advIf x.advA x.agA s.cores[c].ag) } := by
  obtain ⟨l, hadv⟩ := ({ loneBeat s c with slot := 3 } : Beat).advance_eq [(x.agA, x.advA), (x.agB, x.advB)]
  refine State.single_sends (d := loadBundle (.two x)) (g := advIf x.advB x.agB (advIf x.advA x.agA s.cores[c].ag))
    (q := s.cores[c].queues) rfl hopen hwf rfl rfl (n := 3) (a := l)
    (m := [bankOf (agLine s.cores[c] x.agA), bankOf (agLine s.cores[c] x.agB)]) ?_ (by simp [due])
  change (loneBeat s c).load (.two x) = _
  unfold Beat.load
  dsimp only
  rw [Beat.run_passes, hadv]
  · simp only [Beat.after, List.append_assoc]
    rfl
  · simp only [List.forall_mem_cons]
    exact ⟨portCheckPush_bound hportA, portCheckPush_bound hportB, lineRange_within hA, lineRange_within hB,
      Beat.advCheck_two rfl hadvs, (loneBeat_bankCheck hopen _).trans (bankCheck_two hbank), List.forall_mem_nil _⟩

/-- STQ2 (R162): two heads, to lines of two banks. -/
theorem stq2_becomes {e f : Entry} (hwf : (Instr.stq2 c x).wf = true) (hportA : topoPop s.cores[c].queues[x.qA.q].topo = 0x17)
    (hportB : topoPop s.cores[c].queues[x.qB.q].topo = 0x18) (hheadA : HeadIs s.cores[c] x.qA x.fmtA e)
    (hheadB : HeadIs s.cores[c] x.qB x.fmtB f) :
    CoreBecomes (.stq2 c x) c s { oneBeat s.cores[c]
      [due s c 2 1 4 (.memLine (agLine s.cores[c] x.agA) e.data e.poison),
       due s c 2 1 4 (.memLine (agLine s.cores[c] x.agB) f.data f.poison)] with
      ag := advIf x.advB x.agB (advIf x.advA x.agA s.cores[c].ag)
      queues := updAt (popped s.cores[c] x.qA.q) x.qB.q fun k => { k with entries := k.entries.drop 1 } } := by
  obtain ⟨l, hadv⟩ := ({ loneBeat s c with slot := 4 } : Beat).advance_eq [(x.agA, x.advA), (x.agB, x.advB)]
  refine State.single_sends (d := storeBundle (.two x)) (g := advIf x.advB x.agB (advIf x.advA x.agA s.cores[c].ag))
    (q := updAt (popped s.cores[c] x.qA.q) x.qB.q fun k => { k with entries := k.entries.drop 1 }) rfl hopen hwf rfl rfl
    (n := 4) (a := l) (m := []) ?_ (by simp [due])
  change (loneBeat s c).store (.two x) = _
  unfold Beat.store
  dsimp only
  rw [Beat.run_passes, hadv]
  · have he : (loneBeat s c).old.head x.qA.q = e := Core.head_of hheadA
    have hf : (loneBeat s c).old.head x.qB.q = f := Core.head_of hheadB
    rw [← he, ← hf]
    simp only [Beat.after, List.append_assoc]
    rfl
  · simp only [List.forall_mem_cons]
    exact ⟨portCheckPop_bound hportA, portCheckPop_bound hportB, lineRange_within hA, lineRange_within hB,
      Beat.advCheck_two rfl hadvs, bankCheck_two hbank, popCheck_head hheadA, popCheck_head hheadB, List.forall_mem_nil _⟩

end

end

/-- Settles O31, one lemma for each command: its checks pass, and its effect is that of `Beat.load` or `Beat.store`. -/
theorem loadAndStoreSlotsMoveLines : Obligations.LoadAndStoreSlotsMoveLines :=
  ⟨fun _ _ hopen => State.single_nop (d := loadBundle .nop) rfl hopen rfl rfl rfl rfl,
    fun _ _ hopen => State.single_nop (d := storeBundle .nop) rfl hopen rfl rfl rfl rfl,
    fun _ _ _ hopen hwf hport hline => ldq_becomes hopen hline hwf hport,
    fun _ _ _ hopen hwf hportA hportB hA hB hbank hadvs => ldq2_becomes hopen hA hB hbank hadvs hwf hportA hportB,
    fun _ _ _ _ hopen hwf hport hline hhead => stq_becomes hopen hline hwf hport hhead,
    fun _ _ _ _ _ hopen hwf hportA hportB hA hB hbank hadvs hheadA hheadB =>
      stq2_becomes hopen hA hB hbank hadvs hwf hportA hportB hheadA hheadB⟩

end Sys2Proof.Machine

/-! SUPPORT. The end of a transfer that a core asked for (07 R169, R174; 05 R122). -/

namespace Sys2Proof.Machine

theorem length_leBytes (w k : Nat) : (leBytes w k).length = k := by
  induction k generalizing w with
  | zero => rfl
  | succ k ih => exact congrArg Nat.succ (ih _)

/-- A completion record has 32 bytes (05, Completion record). -/
theorem Record.length_bytes (r : Record) (phase : Bool) : (r.bytes phase).length = 32 := by
  simp [Record.bytes, length_leBytes]

/-- A sync counter once a transfer has ended (R169). -/
def Counter.ended (o : OutcomeCode) (y : Counter) : Counter :=
  { count := y.count + 1, fail := if o = .done then y.fail else BitVec.ofNat 16 (min (y.fail.toNat + 1) 0xFFFF) }

/-- A core once its transfer has ended: the record in its ring slot, and its counter (R169). -/
def Core.xferEnded (x : Xfer) (o : OutcomeCode) (k : Core) : Core :=
  { k with mem := wrL k.mem x.ringAt ((x.record o).bytes x.ringPhase), sync := updAt k.sync x.ctr (Counter.ended o) }

theorem State.raiseCtr_ended (s : State) (c : CoreId) (n : CtrId) (o : OutcomeCode) :
    s.raiseCtr c n (o == .done) = s.updCore c fun k => { k with sync := updAt k.sync n (Counter.ended o) } := by
  unfold State.raiseCtr Counter.ended
  simp only [beq_iff_eq]
  rfl

section
variable {s : State} {x : Xfer} {o : OutcomeCode} (hkind : x.kind ≠ .capsule) (hclaims : s.parts[x.part].claims? = true)
  (hfield : s.fields[fieldOf (x.core.val / 48)].failed = false)
include hkind hclaims hfield

/-- A transfer of a core whose partition and field stand ends with a record in its ring slot (R169). -/
theorem State.endXfer_core : s.endXfer x o =
    (({ s with xfers := s.xfers.filter fun y => y.id != x.id } : State).touch x.part).updCore x.core (Core.xferEnded x o) := by
  generalize ht : ({ s with xfers := s.xfers.filter fun y => y.id != x.id } : State).touch x.part = t
  have hclaims' : t.parts[x.part].claims? = true := by
    rw [← ht]
    exact (updAt_keeps (f := fun y => { y with lull := { y.lull with idleSince := s.timeNs } }) Partition.claims? s.parts x.part
      x.part fun _ => rfl).trans hclaims
  have hfield' : t.fields[fieldOf (x.core.val / 48)].failed = false := by
    rw [← ht]
    exact hfield
  have hrecord : t.writeRingRecord x (x.record o) =
      t.updCore x.core fun k => { k with mem := wrL k.mem x.ringAt ((x.record o).bytes x.ringPhase) } :=
    if_neg (by rw [hfield', hclaims']; exact Bool.false_ne_true)
  have hend : s.endXfer x o = (t.writeRingRecord x (x.record o)).raiseCtr x.core x.ctr (o == .done) := by
    unfold State.endXfer
    dsimp only
    rw [ht, if_pos hclaims]
    cases hk : x.kind with
    | capsule => exact absurd hk hkind
    | _ => rfl
  rw [hend, State.raiseCtr_ended, hrecord, State.updCore_updCore]
  rfl

end

theorem exec_transferComplete_decided {s : State} {id : Nat} {x : Xfer} {o : OutcomeCode}
    (hfind : s.xfers.find? (fun y => y.id == id) = some x) (ho : x.outcome = some o) (hsettled : x.sent ≤ x.settled) :
    exec (.transferComplete id) s = .next (s.endXfer x o) := by
  have hx : s.xfer? id = some x := hfind
  have hall : x.settledAll = true := decide_eq_true hsettled
  have h : s.completeXfer id = s.endXfer x o := by
    unfold State.completeXfer
    rw [hx]
    dsimp only
    rw [ho, if_neg (by simp), if_pos hall]
    rfl
  exact congrArg Host.Outcome.next h

/-- Settles O33: `State.endXfer_core` says all that the end of the transfer changes. -/
theorem transferCompleteWritesItsRecord : Obligations.TransferCompleteWritesItsRecord := by
  intro s id x o hfind ho hsettled hkind hclaims hfield
  have hid : x.id = id := by simpa using List.find?_some hfind
  generalize ht : (({ s with xfers := s.xfers.filter fun y => y.id != x.id } : State).touch x.part).updCore x.core
    (Core.xferEnded x o) = t
  have hcores : t.cores = updAt s.cores x.core (Core.xferEnded x o) := by rw [← ht]; rfl
  have hself : t.cores[x.core] = s.cores[x.core].xferEnded x o := by
    rw [hcores]
    exact updAt_self s.cores x.core _
  refine ⟨t, ?_, ?_, congrArg Core.mem hself, fun a ha => ?_, congrArg Core.sync hself, ?_, fun d hd => ?_, ?_, ?_⟩
  · rw [exec_transferComplete_decided hfind ho hsettled, State.endXfer_core hkind hclaims hfield, ht]
  · rw [← ht, ← hid]
    rfl
  · rw [hself]
    exact rd_wrL_outside _ _ _ _ (by rwa [Record.length_bytes])
  · rw [← ht]
    rfl
  · rw [hcores]
    exact updAt_elsewhere (fun k => k) s.cores hd.symm
  · rw [hself]
    rfl
  · rw [← ht]
    rfl

end Sys2Proof.Machine

/-! SUPPORT. What a beat forgets of the operations that have counted an event (06 R139; 10 R244). -/

namespace Sys2Proof.Machine

/-- Partition 0 runs on ward 0, whose cores have executed RAISE but for the one that comes, and have a transfer ring of 16
records. The matrix engine of each lists the operation of beat 0 among those that have counted an event, with nothing in
flight. -/
def staleCounts : State :=
  { State.reset with
    power := { State.reset.power with railFields := Vector.replicate 4 true }
    parts := State.reset.parts.set 0 { state := .running, im := { img := { wardMask := 1 } } }
    seqs := State.reset.seqs.set 0 { state := .running, wardMask := 1 }
    cores := Vector.replicate 192 { raised := [0], ring := { sizeLog2 := 4 }, mx := { counted := [(0, {})] } } }

theorem staleCounts_open : CoreOpen staleCounts 0 := by unfold CoreOpen; decide +kernel

/-- The end of the beat forgets the operation: it is in flight no more. -/
theorem staleCounts_forgets :
    (Outcome.state (exec (.signal 0 0 0 0) staleCounts) staleCounts).cores[(0 : CoreId)].mx.counted = [] ∧
      (Outcome.state (exec (.raise 0 4) staleCounts) staleCounts).cores[(0 : CoreId)].mx.counted = [] := by
  decide +kernel

/-- Refutes O32: its clauses fix all of the core, the model's record of what has counted an event (`CoreMatrix.counted`, R244)
with it. `Core.endBeat` drops from that record what is in flight no more, so a SIGNAL in `staleCounts` leaves it empty. Other slot
statements leave the record open (`CoreBecomes`); this one does not, and has no condition that keeps such an entry out. -/
theorem not_transfersAreIssuedWithARingSlot : ¬ Obligations.TransfersAreIssuedWithARingSlot := by
  rintro ⟨-, hsignal⟩
  obtain ⟨hcounted, -⟩ := staleCounts_forgets
  obtain ⟨t, ht, -, -, hcore, -⟩ := hsignal staleCounts 0 0 0 0 0 staleCounts_open (by decide +kernel) (by decide +kernel)
    (by decide +kernel) (by decide +kernel)
  rw [ht] at hcounted
  have hfixed : t.cores[(0 : CoreId)].mx.counted = [(0, {})] := congrArg (fun x : Core => x.mx.counted) hcore
  exact absurd (hcounted.symm.trans hfixed) nofun

/-- Refutes O34: its clause of the last RAISE of a bundle fixes the whole core that raised, `CoreMatrix.counted` with it, as O32
does; in `staleCounts` the end of the beat empties that record. -/
theorem not_countersWaitsAndBarriers : ¬ Obligations.CountersWaitsAndBarriers := by
  rintro ⟨-, -, -, -, -, -, -, -, -, hraise⟩
  obtain ⟨-, hcounted⟩ := staleCounts_forgets
  obtain ⟨-, hlast⟩ := hraise staleCounts 0 0 0 4 staleCounts_open (by decide) (by decide +kernel) (by decide +kernel)
  obtain ⟨t, ht, -, hcores, -⟩ := hlast (by decide +kernel)
  rw [ht] at hcounted
  have hfixed : t.cores[(0 : CoreId)].mx.counted = [(0, {})] :=
    congrArg (fun x : Core => x.mx.counted) ((hcores 0).trans (if_pos rfl))
  exact absurd (hcounted.symm.trans hfixed) nofun

end Sys2Proof.Machine
